-- ==== Sys2Proof/Word.lean ====
section
/-! DEFINITION. The word types of the block (spec/00_scope.md R12, R13: little-endian bytes, bit 0 least
significant) and the finite map the state keeps its sparse storage in. -/

namespace Sys2Proof

/-- A Hinge register, a Sash scalar register, a 64-bit word of a structure. -/
abbrev Word := BitVec 64

/-- One byte of the scratchpad, the Sill, the Sash data memory or a port. -/
abbrev Byte := BitVec 8

/-- A sparse table: keys strictly rising, and no entry equal to what an unlisted key reads as
(`SMap.wf` of Machine/Ops.lean says so). -/
abbrev SMap (α : Type) := List (Nat × α)

/-- Byte storage by address; the same pairs as the host's `Host.Cell`. -/
abbrev Mem := SMap Byte

/-- A 32-bit value taken from a natural number, modulo 2^32. -/
abbrev w32 (n : Nat) : BitVec 32 := BitVec.ofNat 32 n

/-- A 64-bit value taken from a natural number, modulo 2^64. -/
abbrev w64 (n : Nat) : Word := BitVec.ofNat 64 n

end Sys2Proof
end

