-- ==== Sys2Proof/Syntax.lean ====
section
/-! DEFINITION. The commands of the block: one constructor of `Instr` for each row of
spec/opcode_table.json, with the row's operands. A Sash row carries the thread that issues it and the fields
of its instruction format (spec/09 R204). An event row carries what the event brings from outside the block
(a tag, a code, data, a level on a pin, the outcome of a physical check). -/

namespace Sys2Proof

/-- The four Sash threads and the streams they issue (09 R193, 10 R231). -/
inductive Thread | F | B | U | S
  deriving DecidableEq, Repr

/-- A scalar register number, s0 to s31. -/
abbrev Reg := Fin 32

/-- What a hardware check sees in the step that runs it (16 R376 to R386). The physical cause lies outside
the block's rules, so it is an operand of the command. -/
inductive Upset
  /-- nothing detected -/
  | clean
  /-- a single-bit storage error that SECDED corrects (class C) -/
  | corrected
  /-- a detected error that is not corrected; `detail` names the lane group, bank, line or Pane concerned -/
  | fatal (detail : BitVec 16)
  deriving DecidableEq, Repr

/-- The clocked references of 15 R347. -/
inductive Source | tro | refClk | rref0 | rref1
  deriving DecidableEq, Repr

/-- The identity of a Hinge request beside its offset and data, and the level that HG_RSP_READY has from then on (14 R335). -/
structure HgMeta where
  ready : Bool
  bcast : Bool
  group : BitVec 4
  id : BitVec 8
  deriving DecidableEq, Repr

/-- The trailer fields of a packet (13 R293): acknowledgement, negative acknowledgement, credit returns. -/
structure Trailer where
  ack : Option (Fin 6 × BitVec 16)
  nak : Option (Fin 6 × BitVec 16)
  credits : List (BitVec 16)
  deriving DecidableEq, Repr

/-- A packet as a link carries it (13 R288, R291 to R293): the bytes of its flits in ascending order, that is header, payload
with its padding, and trailer. -/
abbrev Wire := List Byte

/-- A packet of a put as a link carries it: the transfer it belongs to, which no field of the packet says (log entry 59), and its
bytes. -/
structure PutPacket where
  xfer : Nat
  wire : Wire
  deriving DecidableEq, Repr

/-- The fields of a Ranec packet's header (13 R291, R292) and its payload. -/
structure Packet where
  cls : Fin 6
  kind : BitVec 4
  hops : BitVec 6
  err : Bool
  dst : BitVec 16
  src : BitVec 16
  seq : BitVec 16
  tag : BitVec 16
  ctxid : BitVec 32
  h2 : Word
  h3 : Word
  payload : List Byte
  deriving DecidableEq, Repr

/-- The content of a HELLO message (13 R309): identity, accepted generations (bit g), initial credits for
each class, RESET flag. -/
structure HelloMsg where
  node : BitVec 16
  gens : BitVec 4
  credits : List (BitVec 16)
  reset : Bool
  deriving DecidableEq, Repr

/-- The units of the idle gating rule (15 R366). -/
inductive GateUnit
  | partition (p : Fin 8)
  | casement | transom | jambTransfer | drainLouvre | egressLouvre | sash
  deriving DecidableEq, Repr

/-- The storage that a scrub visits (16 R385). -/
inductive ScrubUnit
  | scratchpad (bank : Fin 32)
  | sill (bank : Fin 16)
  deriving DecidableEq, Repr

/-- The commands of the block. -/
inductive Instr
  -- Sash scalar instructions (09 R204 to R212)
  | op (t : Thread) (rd ra rb : Reg) (fn : BitVec 11) (u : Upset)
  | addi (t : Thread) (rd ra : Reg) (imm : BitVec 16)
  | andi (t : Thread) (rd ra : Reg) (imm : BitVec 16)
  | ori (t : Thread) (rd ra : Reg) (imm : BitVec 16)
  | xori (t : Thread) (rd ra : Reg) (imm : BitVec 16)
  | slti (t : Thread) (rd ra : Reg) (imm : BitVec 16)
  | sltiu (t : Thread) (rd ra : Reg) (imm : BitVec 16)
  | shi (t : Thread) (rd ra : Reg) (imm : BitVec 16)
  | movi (t : Thread) (rd ra : Reg) (imm : BitVec 16)
  | ins16 (t : Thread) (rd ra : Reg) (imm : BitVec 16)
  | fp (t : Thread) (rd ra rb rc : Reg) (fn : BitVec 6) (u : Upset)
  | lb (t : Thread) (rd ra : Reg) (imm : BitVec 16) (u : Upset)
  | lbu (t : Thread) (rd ra : Reg) (imm : BitVec 16) (u : Upset)
  | lh (t : Thread) (rd ra : Reg) (imm : BitVec 16) (u : Upset)
  | lhu (t : Thread) (rd ra : Reg) (imm : BitVec 16) (u : Upset)
  | lw (t : Thread) (rd ra : Reg) (imm : BitVec 16) (u : Upset)
  | lwu (t : Thread) (rd ra : Reg) (imm : BitVec 16) (u : Upset)
  | ld (t : Thread) (rd ra : Reg) (imm : BitVec 16) (u : Upset)
  | sb (t : Thread) (rd ra : Reg) (imm : BitVec 16) (u : Upset)
  | sh (t : Thread) (rd ra : Reg) (imm : BitVec 16) (u : Upset)
  | sw (t : Thread) (rd ra : Reg) (imm : BitVec 16) (u : Upset)
  | sd (t : Thread) (rd ra : Reg) (imm : BitVec 16) (u : Upset)
  | amo (t : Thread) (rd ra rb rc : Reg) (fn : BitVec 6)
  | mld (t : Thread) (rd ra : Reg) (imm : BitVec 16)
  | mst (t : Thread) (rd ra : Reg) (imm : BitVec 16)
  | beq (t : Thread) (ra rb : Reg) (off : BitVec 16)
  | bne (t : Thread) (ra rb : Reg) (off : BitVec 16)
  | blt (t : Thread) (ra rb : Reg) (off : BitVec 16)
  | bge (t : Thread) (ra rb : Reg) (off : BitVec 16)
  | bltu (t : Thread) (ra rb : Reg) (off : BitVec 16)
  | bgeu (t : Thread) (ra rb : Reg) (off : BitVec 16)
  | jal (t : Thread) (off : BitVec 26)
  | jalr (t : Thread) (rd ra : Reg) (imm : BitVec 16)
  -- system instructions (09 R213, R214)
  | csrr (t : Thread) (rd ra : Reg) (n : BitVec 12)
  | csrw (t : Thread) (rd ra : Reg) (n : BitVec 12)
  | csrs (t : Thread) (rd ra : Reg) (n : BitVec 12)
  | csrc (t : Thread) (rd ra : Reg) (n : BitVec 12)
  | trap (t : Thread) (rd ra : Reg) (n : BitVec 12)
  | tend (t : Thread) (rd ra : Reg) (n : BitVec 12)
  | tendComplete (t : Thread)
  | eret (t : Thread) (rd ra : Reg) (n : BitVec 12)
  | tstart (t : Thread) (rd ra : Reg) (n : BitVec 12)
  | tstop (t : Thread) (rd ra : Reg) (n : BitVec 12)
  | fenceI (t : Thread) (rd ra : Reg) (n : BitVec 12)
  | mfence (t : Thread) (rd ra : Reg) (n : BitVec 12)
  | sadv (t : Thread) (rd ra : Reg) (n : BitVec 12)
  | postRoom (t : Thread)
  | dfl (t : Thread) (rd ra : Reg) (n : BitVec 12)
  | lvRd (t : Thread) (rd ra : Reg) (n : BitVec 12) (u : Upset)
  | lvClr (t : Thread) (rd ra : Reg) (n : BitVec 12) (u : Upset)
  -- latch and queue instructions (09 R221)
  | lsig (t : Thread) (rd ra : Reg) (k x : BitVec 6) (u : Upset)
  | lwait (t : Thread) (rd ra : Reg) (k x : BitVec 6)
  | latchWaitReady (t : Thread)
  | ltry (t : Thread) (rd ra : Reg) (k x : BitVec 6)
  | lread (t : Thread) (rd ra : Reg) (k x : BitVec 6)
  | qsig (t : Thread) (rd ra : Reg) (k x : BitVec 6)
  | qwait (t : Thread) (rd ra : Reg) (k x : BitVec 6)
  | queueWaitDone (t : Thread)
  | laneRoom (t : Thread)
  -- tensor instructions (09 R215 to R218)
  | latMM (t : Thread) (rd ra : Reg) (lat : BitVec 6) (ef : BitVec 10)
  | latMMQ (t : Thread) (rd ra : Reg) (lat : BitVec 6) (ef : BitVec 10)
  | casw (t : Thread) (rd ra : Reg) (lat : BitVec 6) (ef : BitVec 10) (words : List (BitVec 32))
  | trnRelayout (t : Thread) (rd ra : Reg) (lat : BitVec 6) (ef : BitVec 9)
  | trnTranspose (t : Thread) (rd ra : Reg) (lat : BitVec 6) (ef : BitVec 9)
  | sillSpill (t : Thread) (rd ra : Reg) (lat : BitVec 6) (ef : BitVec 10)
  | sillDrain (t : Thread) (rd ra : Reg) (lat : BitVec 6) (ef : BitVec 10)
  | xferCopy (t : Thread) (rd ra : Reg) (lat : BitVec 6) (ef : BitVec 10)
  | updSsq (t : Thread) (rd ra : Reg) (lat : BitVec 6) (ef : BitVec 10)
  | dwPut (t : Thread) (rd ra : Reg) (lat : BitVec 6) (ef : BitVec 10)
  | dwPutFetch (t : Thread) (rd ra : Reg) (lat : BitVec 6) (ef : BitVec 10)
  | dwRed (t : Thread) (rd ra : Reg) (lat : BitVec 6) (ef : BitVec 10)
  | updApply (t : Thread) (rd ra : Reg) (lat : BitVec 6) (ef : BitVec 10)
  | updAdv (t : Thread) (rd ra : Reg) (lat : BitVec 6) (ef : BitVec 10)
  | updNorm (t : Thread) (rd ra : Reg) (lat : BitVec 6) (ef : BitVec 10)
  | updRoot (t : Thread) (rd ra : Reg) (lat : BitVec 6) (ef : BitVec 10)
  | updRearm (t : Thread) (rd ra : Reg) (lat : BitVec 6) (ef : BitVec 10)
  -- exceptions and engines
  | handlerEntry
  | weaveStart (q : Fin 11) (u : Upset)
  | openWovenStart (q : Fin 11) (u : Upset)
  | vectorSlot (p : Fin 8) (rank : Fin 4) (ready : Bool) (u : Upset)
  | blockCompletion (p : Fin 8) (rank : Fin 4) (m : Nat) (n : Nat) (flip : BitVec 72) (u : Upset)
  | latticeDrain (p : Fin 8) (rank : Fin 4) (u : Upset)
  | casementOperationStart (u : Upset)
  | casementPortAccess (u : Upset)
  | casementUnitComplete
  | idleReplay (u : Upset)
  | transomComplete (u : Upset)
  | sillReadOut (u : Upset)
  | completion (q : Fin 11) (t : Thread)
  | rootIterationCheck (t : Thread)
  | cutPoint (q : Fin 11) (t : Thread)
  | remoteSignalApply (link : Fin 6) (src : BitVec 16) (tag : BitVec 16)
  -- the memory port
  | jambRequestIssue (tag : BitVec 16) (u : Upset)
  | jbRResponse (tag : BitVec 16) (data : List Byte) (code : BitVec 2) (u : Upset)
  | jbBResponse (tag : BitVec 16) (code : BitVec 2)
  | tagTimeout (tag : BitVec 16)
  -- the links
  | packetTransmit (link : Fin 6) (tag : BitVec 16)
  | rspAck (link : Fin 6) (w : Wire)
  | rspData (link : Fin 6) (w : Wire)
  | sigTerminal (link : Fin 6) (p : PutPacket)
  | redPartial (link : Fin 6) (w : Wire)
  | redFinal (link : Fin 6) (w : Wire)
  | wrData (link : Fin 6) (p : PutPacket)
  | rdRead (link : Fin 6) (w : Wire)
  | mgtNull (link : Fin 6) (w : Wire)
  | hello (link : Fin 6) (w : Wire)
  | repoint (link : Fin 6) (x v : BitVec 16) (epoch : BitVec 24) (w : Wire)
  | mgtReset (link : Fin 6) (w : Wire)
  | ackTimeout (link : Fin 6) (c : Fin 6)
  | creditTimeout (link : Fin 6) (c : Fin 6)
  | linkResetEnd (link : Fin 6)
  | linkRdy (link : Fin 6) (level : Bool)
  | helloSend (link : Fin 6)
  | discoveryTimeout (link : Fin 6)
  | idleLinkDisable (link : Fin 6)
  -- the watchdog and the host port
  | watchdogFire
  | hingeRegisterWrite (h : HgMeta) (off : BitVec 21) (data : Word)
  | dcacheFlushHandle (h : HgMeta) (handle : BitVec 20) (ctx : Fin 2)
  | dcacheFlushContext (h : HgMeta) (ctx : Fin 2)
  | lvAccRead (h : HgMeta) (index : BitVec 5) (ctx : Fin 2)
  | lvAccClear (h : HgMeta) (index : BitVec 5) (ctx : Fin 2)
  | sashDoorbell (h : HgMeta) (code : BitVec 32)
  | iflush (h : HgMeta)
  | sreset (h : HgMeta)
  | stop (h : HgMeta) (t : Thread)
  | strmAbortEntry (h : HgMeta) (t : Thread) (q : BitVec 4) (iseq : BitVec 32)
  | strmAbortStream (h : HgMeta) (t : Thread) (q : BitVec 4)
  | latchHsig (h : HgMeta) (k : BitVec 6) (bank : Fin 2)
  | frameStage (h : HgMeta) (len : BitVec 17)
  | frameStagingResult
  | frameCommit (h : HgMeta) (wait : Bool) (slot : Fin 2)
  | commitWaitResolve
  | effectPoint
  | frameDiscard (h : HgMeta) (slot : Fin 2)
  | frameForceEnd (h : HgMeta) (slot : Fin 2)
  | hostLinkReset (h : HgMeta) (link : BitVec 3)
  | dwRepoint (h : HgMeta) (x v : BitVec 16) (epoch : BitVec 24)
  | clkSelect (h : HgMeta) (src : Source)
  | pwrRequest (h : HgMeta) (pt : BitVec 3)
  | shutterWrite (h : HgMeta) (sill transom near far : Bool)
  | queueRelease (h : HgMeta) (mask : BitVec 11)
  | replayArm (h : HgMeta) (step : BitVec 32)
  | checkpointSave (h : HgMeta) (slot : Fin 2)
  | checkpointRestore (h : HgMeta) (slot : Fin 2)
  | nodeAdopt (h : HgMeta) (node : BitVec 16)
  -- Hatch and the Lintel store
  | hatchRequest (h : HgMeta)
  | hatchProcedureComplete
  | hatchTimeout
  | lintelWrite (h : HgMeta) (index : BitVec 8) (data : Word)
  | lintelResponse (code : BitVec 2) (rdata : BitVec 128)
  | lintelTimeout
  | lintelReadTimeout
  | deadboltAssert
  | deadboltRelease
  -- clocks, power and start-up
  | aonClkLost
  | aonClkRestored
  | frequencyCheck (ref r0 r1 : Nat) (refRdy : Bool)
  | sourceReturn
  | refRdyFall
  | sourceSwitchDone
  | troReady
  | pllLock (loopA : Bool)
  | vack (code : BitVec 3)
  | vackTimeout
  | aclkSlewDone
  | pswGnt (level : Bool)
  | domainSettled (d : Fin 80)
  | domainSettleTimeout (d : Fin 80)
  | idleGate (unit : GateUnit)
  | latticeBandOff (p : Fin 8)
  | park
  | wake
  | aonRstNAssert
  | aonRstNRelease
  | coreRstNAssert
  | coreRstNRelease
  | startupInitDone
  | scrub (unit : ScrubUnit) (u : Upset)
  | egressHoldRelease
  -- the rest of the table
  | illegalInstruction (t : Thread) (word : BitVec 32)
  | hingeRegisterRead (h : HgMeta) (off : BitVec 21)
  | hatchProcedureEnd
  | ltPfailN (level : Bool)
  deriving DecidableEq, Repr

end Sys2Proof
end

