-- ==== Sys2Proof/Decode.lean ====
section
/-! DEFINITION. The command that a word of spec/opcode_table.json spells. The table gives no row any bits (the
Sash encodings of 09 R204 name the fields of a format, and the table's rows are commands of the block), so no word
spells a command. -/

namespace Sys2Proof

/-- The command of a table word: none, since no row of the table gives bits. -/
def decodeTableWord (nbits w : Nat) : Option Instr :=
  match nbits, w with
  | _, _ => none

end Sys2Proof
end

