-- ==== Sys2Proof/Config.lean ====
section
/-! DEFINITION. The values that the spec leaves open and the model leaves free: constants without a body, so
that no proof can use what they are. Each use names its log entry (notes/assumptions). -/

namespace Sys2Proof

/-- The byte at an address of a destination whose contents the spec calls unspecified (R106, R120, R187, R248,
R332). The first argument is the state's counter `fresh`, so that two such events are unrelated.
Log entry 4. -/
opaque Config.freeByte : Nat → Nat → Byte

/-- The DETAIL field of INT_LOG0 for events whose detail the spec does not lay out (R408). The first argument
is the state's counter `fresh`. Log entry 6. -/
opaque Config.freeDetail : Nat → BitVec 16

/-- Whether the Casement's arithmetic unit waits for a Pane in a cycle in which it holds a started unit (R151
WAITS): the model has no latencies. The argument is the state's counter `fresh`. Log entry 13. -/
opaque Config.freeStall : Nat → Bool

/-- Whether the Lintel element takes the request that the port shows in a tick (17 R417: LT_REQ_READY, an input that no command
carries). The argument is the state's counter `fresh`. Log entry 63. -/
opaque Config.freeReady : Nat → Bool

end Sys2Proof
end

