-- ==== Sys2Proof/Machine/State.lean ====
section
/-! DEFINITION. The state of one Belore core as plain data (INVENTORY.md, '## State'), its faults and refusals,
and the state right after reset. Tables are `SMap`s: an entry that is not listed has the default value named
beside the field. -/

namespace Sys2Proof.Machine

/-! ### Descriptors (spec/03) -/

/-- A tensor descriptor, its fields as R60 and R61 name them. A generation-2 descriptor carries the
equivalents of R61 (N3 = 1, BLKLOG2 = 0, MASKMODE = 0, MXAXIS = 0). `scale` is the field TSCALE or SCALE_OFF. -/
structure Desc where
  gen : Nat
  base : Nat
  fmt : Nat
  space : Nat
  rmode : Nat
  valid : Bool
  lvEn : Bool
  lvBlk : Bool
  scaleSrc : Bool
  mxAxis : Bool
  n0 : Nat
  n1 : Nat
  n2 : Nat
  n3 : Nat
  s1 : Nat
  s2 : Nat
  s3 : Nat
  sb : Nat
  blkLog2 : Nat
  maskMode : Nat
  maskFill : Bool
  moff : Int
  winEn : Bool
  window : Nat
  scale : Nat
  hrun : Nat
  hstep : Nat
  hptr : Nat
  hnf : Bool
  href : Nat
  hist : List Nat
  deriving DecidableEq, Repr

/-- One entry of the descriptor cache (R71, R72): its tag, the descriptor and the dirty bit. -/
structure DcEntry where
  ctx : Nat
  handle : Nat
  desc : Desc
  dirty : Bool
  deriving DecidableEq, Repr

/-- An operand of an accepted instruction: its handle and the fields captured at issue (R57). -/
structure Opnd where
  ctx : Nat
  handle : Nat
  desc : Desc
  deriving DecidableEq, Repr

/-! ### Queue entries (spec/09 R216, spec/10) -/

/-- A Casement operand that is not a Pane: the register bits taken at issue (R128), or the register named by
KREG, whose value is the clip factor at the unit's start (R175), with the word's SF. -/
inductive Scalar
  | pane
  | bits (v : BitVec 32)
  | clip (sf : Bool)
  deriving DecidableEq, Repr

/-- One Casement operation with what it captured at issue (R127, R128, R135, R140). -/
structure CasOp where
  op : Nat
  dt : Nat
  pd : Nat
  pa : Nat
  pb : Nat
  pc : Nat
  bVal : Scalar
  cVal : Scalar
  opnd : Option Opnd
  tile : Nat × Nat × Nat
  wseq : BitVec 32
  deriving DecidableEq, Repr

/-- One Casement unit (R129): a chain, a loop over a domain, or the loop of an UPD.APPLY (R174), whose group is
named in `group`. -/
structure CasUnit where
  domain : Option Opnd
  loopDt : Nat
  order : Nat
  body : List CasOp
  group : Option Nat
  deriving DecidableEq, Repr

/-- The operands of UPD.ROOT (R188, R189). `due` is the test of R188 made at issue. -/
structure RootJob where
  group : Nat
  s : Opnd
  q : Opnd
  w : Opnd
  part : Nat
  fourth : Bool
  maxIt : Nat
  eps : BitVec 32
  tol : BitVec 32
  due : Bool
  deriving DecidableEq, Repr

/-- What an entry of a lane does. -/
inductive Job
  | lattice (a b c : Opnd) (trans accin : Bool) (acc : Option Nat)
  | casement (u : CasUnit)
  | transom (transpose : Bool) (src dst : Opnd)
  | spill (hs hm : Opnd) (store : Bool)
  | drain (hs hd : Opnd) (acc : Option Nat)
  | copy (src dst : Opnd)
  | ssq (src : Opnd) (acc : Nat)
  | put (loc : Opnd) (route : Word)
  | red (src dst : Opnd) (grp : Nat)
  | near (u : CasUnit)
  | adv (group : Nat)
  | norm (acc : Nat)
  | root (r : RootJob)
  /-- the place that an UPD.ROOT takes in its partition's lane (R189) -/
  | rootPart (r : RootJob)
  | rearm (group : Nat)
  | qsig (k : Nat)
  deriving DecidableEq, Repr

/-- Progress of an entry: in its lane, started, or finished and waiting for its turn to complete (R235). -/
inductive Phase | queued | running | finished
  deriving DecidableEq, Repr

/-- A Louvre commit that an entry still has to make (R154, R72). -/
structure Commit where
  ctx : Nat
  handle : Nat
  code : Nat
  step : BitVec 32
  /-- true for the drain Louvre, whose commit goes first (R155) -/
  drain : Bool
  deriving DecidableEq, Repr

/-- An accepted instruction in the lane of its stream (R231). `rdWait` and `wrWait` count Jamb requests not yet
answered, `got` the memory bytes that have arrived, `out` the bytes it writes to memory. -/
structure Entry where
  uid : Nat
  stream : Thread
  ctx : Nat
  queue : Nat
  iseq : BitVec 32
  step : BitVec 32
  latch : Option Nat
  wseq : BitVec 32
  job : Job
  phase : Phase
  status : Nat
  /-- the memory requests of the job have been formed -/
  formed : Bool
  got : Mem
  rdWait : Nat
  wrWait : Nat
  tagWait : Nat
  /-- blocks of a near-memory update whose write goes under the tag of their read (R329) -/
  kept : List (Nat × Nat)
  out : Mem
  errStatus : Nat
  /-- the Louvre proposals read at the start, by handle (R57, R158) -/
  props : List (Nat × Nat)
  /-- the context slot and handle whose fill its start waits for -/
  asked : Option (Nat × Nat)
  commits : List Commit
  aborted : Bool
  /-- the clip factor taken at the start (R175) -/
  clip : Word
  /-- what the entry has written, for its digests (16 R395): one more than the encoding of element i of destination
  d at 2^96 × d + 2 × i, one more than a block's scale byte behind the block's last written element -/
  wrote : SMap Nat
  deriving DecidableEq, Repr

/-- The comparison of a half's columns for one output row and block (02 R51): the columns whose block sum has left the
foot, and the sum of their residues. -/
structure SpareCheck where
  cols : Nat
  sum : Nat
  deriving DecidableEq, Repr

/-- No column has left the foot. -/
def SpareCheck.init : SpareCheck := { cols := 0, sum := 0 }

/-- A weight tile (R80): pass `pass` of the product of entry `uid`. R25 forbids writes to B while the instruction runs,
so the name of a tile fixes what its cell registers and its spare column hold (log entry 49). -/
structure Tile where
  uid : Nat
  pass : Nat
  deriving DecidableEq, Repr

/-- The cells of a Lattice or of a half partition (R76, R89): the tiles in the active and in the shadow registers, and
whether the clock is stopped (R97). -/
structure Cells where
  active : Option Tile
  shadow : Option Tile
  gated : Bool
  deriving DecidableEq, Repr

/-- Cells that hold no tile. -/
def Cells.init : Cells := { active := none, shadow := none, gated := false }

/-- A started Lattice instruction (R79 to R83). `acc` holds the FP32 accumulator of element (m, n) of the product
at 2^24 × m + n, `blk` how many blocks of it are complete, `inj` the vectors injected by each rank. `fed` counts the vectors
that have entered the row queues of each rank, of which `inj` have left them, and `reuse` lists the lines in each rank's
reuse store, most recently used first (R86). `chk` holds the comparisons of R51 still open. -/
structure LatRun where
  uid : Nat
  plane : Nat
  acc : SMap (BitVec 32)
  blk : SMap Nat
  inj : SMap Nat
  fed : SMap Nat
  reuse : SMap (List Nat)
  chk : SMap SpareCheck
  drained : List Nat
  deriving DecidableEq, Repr

/-- The running Casement unit (R147, R145): iteration and body position of the next operation. -/
structure CasRun where
  uid : Nat
  iter : Nat
  pos : Nat
  deriving DecidableEq, Repr

/-- A root computation in progress (R189). -/
structure RootRun where
  uid : Nat
  partUid : Nat
  iter : Nat
  begun : Bool
  deriving DecidableEq, Repr

/-- A sum-of-squares accumulator (07 R162, R163), in units of 2^-298, with its residue modulo 251 (16 R380). -/
structure Accum where
  value : Nat
  inf : Bool
  nan : Bool
  resid : Nat
  deriving DecidableEq, Repr

/-- A cleared accumulator. -/
def Accum.init : Accum := { value := 0, inf := false, nan := false, resid := 0 }

/-- A Doorway reduction or norm operation in progress (R314 to R318). `vals` holds this member's elements by
logical index, as its source gives them, and `finals` the indices whose final value it holds (under REDUCE_SCATTER,
those whose value it has sunk). -/
structure RedRun where
  uid : Nat
  group : Nat
  opno : BitVec 16
  elems : Nat
  /-- the source elements have been read -/
  ready : Bool
  vals : SMap Nat
  finals : List Nat
  /-- the sum of an exact group, of this member's own contribution before the final one is held -/
  sum : Accum
  deriving DecidableEq, Repr

/-- One of the eleven engines (R233, R242, R249). -/
structure Engine where
  running : Option Nat
  isOpen : Bool
  last : Thread
  lastLent : Bool
  everStarted : Bool
  used : BitVec 32
  idle : BitVec 32
  overrun : BitVec 32
  lentCount : BitVec 32
  /-- AON ticks during which the queue has held no entry (R367) -/
  idleTicks : Nat
  gated : Bool
  deriving DecidableEq, Repr

/-- An engine with nothing running. -/
def Engine.init : Engine :=
  { running := none, isOpen := true, last := .S, lastLent := false, everStarted := false, used := 0, idle := 0,
    overrun := 0, lentCount := 0, idleTicks := 0, gated := false }

/-! ### Sash (spec/09) -/

/-- The thread states and codes of R195. -/
inductive TState | idle | run | latch | queue | memory | stopped | halted
  deriving DecidableEq, Repr

/-- The tensor instructions of R216. -/
inductive TKind
  | latMM | latMMQ | casw | trn | spill | drain | copy | ssq | put | red | apply | adv | norm | root | rearm
  deriving DecidableEq, Repr

/-- A tensor instruction on its way through R218: its fields, the handles already resolved (R57) and, for
UPD.APPLY, the record once it has arrived (R172). -/
structure Issue where
  kind : TKind
  rd : Reg
  ra : Reg
  lat : BitVec 6
  ef : BitVec 10
  words : List (BitVec 32)
  resolved : List (Option Opnd)
  record : Option (List Byte)
  deriving DecidableEq, Repr

/-- An instruction that has passed its checks, on its way into a lane (R218 steps 4 and 5): its job and queue, the
RMODE-4 writes it counts, its destination register and latch, whether it is a tensor instruction (a QSIG is not),
and its length. -/
structure Plan where
  job : Job
  queue : Nat
  writes : Nat
  rd : Reg
  latch : Option Nat
  tensor : Bool
  bytes : Nat
  deriving DecidableEq, Repr

/-- What a thread in LATCH, QUEUE or MEMORY waits for. A wait for MLD data or for an update record names the access by its
number in the thread, so that an answer to an earlier one does not end it. -/
inductive Wait
  | none
  | latch (k : Nat)
  | queue (q : Option Nat)
  | tend
  | post
  | lane (p : Plan)
  | fetch
  | resolve (i : Issue) (handle : Nat)
  | record (i : Issue) (n : Nat)
  | mld (rd : Reg) (n : Nat)
  | mfence
  | flush (handle : Nat)
  deriving DecidableEq, Repr

/-- An open completion post (14 R339, R340). -/
structure Post where
  seq : BitVec 32
  step : BitVec 32
  ctx : Nat
  ctxid : BitVec 32
  lastIseq : BitVec 32
  first : Nat
  firstIseq : BitVec 32
  nbad : Nat
  /-- entries accepted before the SADV and not yet complete -/
  waiting : List Nat
  /-- 0 waiting, 1 words 1 to 3 written, 2 word 0 written -/
  stage : Nat
  cycle : Word
  memErr : Bool
  /-- address of the record, taken when step 1 begins (R341); none when EN is 0 -/
  addr : Option Nat
  /-- what the STEP_CLOSE record of the step says (16 R396, R397): descriptor digest, entries, and the grain-0
  digests by ISEQ for GRAIN 3 (R394) -/
  digest : BitVec 32
  entries : Nat
  digs : List (Nat × BitVec 32)
  deriving DecidableEq, Repr

/-- One Sash thread (R193). -/
structure ThreadState where
  regs : SMap Word
  pc : BitVec 48
  ctx : Nat
  stepno : BitVec 32
  wseq : BitVec 32
  iseq : BitVec 32
  fflags : BitVec 5
  state : TState
  wait : Wait
  stopAsked : Bool
  /-- context slots whose context the thread has ended its part in (R197) -/
  ended : List Nat
  timer : Nat
  qerr : SMap Word
  posts : List Post
  seq : BitVec 32
  lastIseq : BitVec 32
  /-- first bad entry and count of the step in progress (R340) -/
  stepFirst : Nat
  stepFirstIseq : BitVec 32
  stepNbad : Nat
  /-- MSTs not yet acknowledged (R211) -/
  mstOut : Nat
  /-- MLDs and update-record reads made so far -/
  accesses : Nat
  /-- the line of the fetch that the thread waits for (R201) -/
  fetchLine : Nat
  cmpl0 : Word
  cmpl1 : Word
  deriving DecidableEq, Repr

/-- A thread after reset: IDLE (R263), its mirror 0 (R341), LASTISEQ as R340 counts it. -/
def ThreadState.init : ThreadState :=
  { regs := [], pc := 0, ctx := 0, stepno := 0, wseq := 0, iseq := 0, fflags := 0, state := .idle, wait := .none,
    stopAsked := false, ended := [], timer := 0, qerr := [], posts := [], seq := 0, lastIseq := 0xFFFFFFFF,
    stepFirst := 0, stepFirstIseq := 0, stepNbad := 0, mstOut := 0, accesses := 0, fetchLine := 0, cmpl0 := 0, cmpl1 := 0 }

/-- An exception record (R223). -/
structure ExcRec where
  w0 : Word
  w1 : Word
  w2 : Word
  w3 : Word
  deriving DecidableEq, Repr

/-- The control core beside its threads. `icache` lists the valid lines, most recently used first. -/
structure Sash where
  dmem : Mem
  icache : List (Nat × List Byte)
  excq : List ExcRec
  lost : Nat
  handler : Bool
  evec : BitVec 48
  epc : BitVec 48
  dmemCe : Nat
  icRefetch : Nat
  dmemUe : Nat
  eccPend : Bool
  lastIssued : Thread
  deriving DecidableEq, Repr

/-! ### Frames (spec/12) -/

/-- A region entry (R271). -/
structure Region where
  base : Nat
  size : Nat
  space : Nat
  shared : Bool
  save : Bool
  tag : Nat
  deriving DecidableEq, Repr

/-- A Mullion record (R236); owners as R236 codes them. -/
structure MulRec where
  engine : Nat
  nslots : Nat
  lend : Bool
  owners : List Nat
  deriving DecidableEq, Repr

/-- The FAULT section (R273). -/
structure FaultCfg where
  wdPeriod : Nat
  wdPol : Nat
  latchPol : Nat
  qrel : Bool
  alarmFlags : BitVec 4
  deriving DecidableEq, Repr

/-- A link record of the DOORWAY section (R304). -/
structure LinkRec where
  expect : Bool
  remap : Bool
  minGen : Nat
  peer : BitVec 16
  alt : BitVec 16
  timeout : Nat
  retryMax : Nat
  area : Nat
  credRsp : Nat
  credRed : Nat
  credWr : Nat
  credRd : Nat
  deriving DecidableEq, Repr

/-- A route entry (R305) with what R322 made of it. -/
structure Route where
  dest : BitVec 16
  ctxid : BitVec 32
  link : Nat
  unreach : Bool
  repointed : Bool
  deriving DecidableEq, Repr

/-- No route. -/
def Route.init : Route := { dest := 0, ctxid := 0, link := 0, unreach := false, repointed := false }

/-- A reduction group (R306). -/
structure GroupRec where
  size : Nat
  pos : Nat
  scatter : Bool
  exact : Bool
  fmt : Nat
  succ : Nat
  pred : Nat
  gid : BitVec 32
  deriving DecidableEq, Repr

/-- The DOORWAY section (R303); `raw` are its bytes, compared by R280. -/
structure DoorCfg where
  links : List LinkRec
  routes : List Route
  groups : List GroupRec
  raw : List Byte
  deriving DecidableEq, Repr

/-- The CLOCK_POWER section (15 R370). -/
structure PowerPlan where
  src : Source
  opRun : Nat
  opMax : Nat
  park : Bool
  parkDelay : Nat
  latOff : Nat
  deriving DecidableEq, Repr

/-- An update program (08 R167). -/
structure UpdProg where
  wOut : Nat
  m1Out : Nat
  m2Out : Nat
  kreg : Nat
  hasM1 : Bool
  hasM2 : Bool
  words : List (BitVec 32)
  deriving DecidableEq, Repr

/-- The UPDATE section (R166): group entries are their eight words (R169). -/
structure UpdCfg where
  nfPolicy : Bool
  normGrp : Nat
  clipMax : Word
  listBase : Nat
  listCount : Nat
  progs : List UpdProg
  groups : SMap (List Word)
  deriving DecidableEq, Repr

/-- A checked Frame (R265 to R275). -/
structure FrameCfg where
  ctxid : BitVec 32
  check : BitVec 32
  serial : BitVec 32
  minGrade : Nat
  dtBase : Nat
  dtCount : Nat
  entries : List (BitVec 48)
  evec : BitVec 48
  step0s : List (BitVec 32)
  assign : BitVec 32
  regions : List Region
  mullion : List MulRec
  latches : List (Nat × Bool)
  fault : FaultCfg
  doorway : Option DoorCfg
  power : Option PowerPlan
  update : Option UpdCfg
  seed : Word
  cycDet : Bool
  journal : Bool
  grain : Nat
  jBase : Nat
  jSize : Nat
  tracker : Nat × Nat
  /-- the context digest of 16 R404 -/
  digest : BitVec 32
  deriving DecidableEq, Repr

/-- The states of a plane (R263). -/
inductive PlaneState | empty | staging | staged | live | ending | commitWait
  deriving DecidableEq, Repr

/-- A thread as a checkpoint image holds it (16 R403). -/
structure SavedThread where
  regs : SMap Word
  pc : BitVec 48
  code : Nat
  stepno : BitVec 32
  wseq : BitVec 32
  iseq : BitVec 32
  fflags : BitVec 5
  evec : BitVec 48
  epc : BitVec 48
  deriving DecidableEq, Repr

/-- The state of a parameter group (08 R170, R192). -/
structure GroupState where
  step : BitVec 32
  rootFail : Bool
  fallback : Bool
  lastIt : Nat
  fails : Nat
  deriving DecidableEq, Repr

/-- A group with no history. -/
def GroupState.init : GroupState := { step := 0, rootFail := false, fallback := false, lastIt := 0, fails := 0 }

/-- The norm state of a context (08 R182): STATE 0 none, 1 pending, 2 valid, 3 non-finite. -/
structure Norm where
  step : BitVec 32
  state : Nat
  sum : Word
  kappa : Word
  deriving DecidableEq, Repr

/-- The norm state at commit (R281). -/
def Norm.init : Norm := { step := 0, state := 0, sum := 0, kappa := 0 }

/-- What a restored checkpoint puts in place of the Frame's defaults at the effect point (16 R405). -/
structure Restored where
  threads : List SavedThread
  latches : List (BitVec 8)
  groups : SMap GroupState
  norm : Norm
  accums : SMap Accum
  deriving DecidableEq, Repr

/-- A Frame plane and the context of its slot (R263). -/
structure Plane where
  state : PlaneState
  frame : Option FrameCfg
  /-- the context has started (R281, R256) -/
  started : Bool
  /-- the context has ended; the plane waits for its write-backs (R283) -/
  finished : Bool
  image : List Byte
  imageErr : Bool
  readsOut : Nat
  restored : Option Restored
  groups : SMap GroupState
  norm : Norm
  /-- the contribution held for a retry and its step (08 R183) -/
  held : Option (Accum × BitVec 32)
  /-- journal offset, wraps and event count (16 R397, R398) -/
  jOffset : Nat
  jWraps : Nat
  jEvents : Nat
  /-- latch events not yet written as a LATCH record, with their bank in bit 6 (R397) -/
  jLatch : List Word
  capture : Bool
  /-- streams and steps that are being captured, and streams whose captured step has ended (R399) -/
  capturing : List (Thread × BitVec 32)
  captured : List Thread
  digestSum : SMap (BitVec 32)
  /-- grain-0 digests of the stream step's entries by ISEQ, for GRAIN 3 (R394) -/
  stepDigests : SMap (List (Nat × BitVec 32))
  deriving DecidableEq, Repr

/-- An EMPTY plane. -/
def Plane.init : Plane :=
  { state := .empty, frame := none, started := false, finished := false, image := [], imageErr := false, readsOut := 0,
    restored := none, groups := [], norm := Norm.init, held := none, jOffset := 0, jWraps := 0, jEvents := 0,
    jLatch := [], capture := false, capturing := [], captured := [], digestSum := [], stepDigests := [] }

/-- The core-wide values in force (R264) and the Frame registers (R287). -/
structure FrameUnit where
  plane0 : Plane
  plane1 : Plane
  assign : BitVec 32
  mullion : List MulRec
  fault : FaultCfg
  doorway : Option DoorCfg
  plan : PowerPlan
  jambTags : Nat
  /-- a commit waits for its effect point (R281): the plane committed -/
  effect : Option Nat
  /-- this cycle is the effect point: a cycle has passed since the commit, and the weave counter is a multiple of 256 -/
  effectDue : Bool
  addr : BitVec 48
  len : BitVec 17
  opField : BitVec 3
  waitField : Bool
  slotField : Bool
  busy : Bool
  err : Bool
  result : BitVec 8
  whereField : BitVec 16
  deriving DecidableEq, Repr

/-! ### Jamb (spec/14) -/

/-- The clients of Jamb in the codes of JAMB_FAULT (R344). -/
inductive Client
  | descFill | descWriteback | ifetch | mldMst | record | staging | cmpl | transfer | nearMem | sink | journal
  deriving DecidableEq, Repr

/-- The pools of R329. -/
inductive Pool | control | sink | general
  deriving DecidableEq, Repr

/-- What a response is delivered to. -/
inductive Owner
  | fill (ctx handle : Nat)
  | writeback (ctx handle : Nat)
  | ifetch (t : Thread) (again : Bool)
  | mld (t : Thread) (addr : Nat) (n : Nat)
  | mst (t : Thread) (pc : BitVec 48)
  | record (t : Thread) (n : Nat)
  | staging (plane base : Nat)
  | cmplBody (t : Thread) (seq : BitVec 32)
  | cmplHead (t : Thread) (seq : BitVec 32)
  | entry (uid : Nat)
  | sink (id : Nat)
  | journal (ctx : Nat) (t : Thread)
  | ckpt
  | replay (base : Nat)
  /-- nobody: the context that asked for a descriptor has ended (03 R74) -/
  | dropped
  deriving DecidableEq, Repr

/-- A request of Jamb (R325): a read of sectors of a 256-byte block, or a write of strobed bytes. `held` says that
it waits under the egress hold of 16 R386. -/
structure JReq where
  owner : Owner
  client : Client
  pool : Pool
  write : Bool
  block : Nat
  smask : BitVec 8
  cells : List Host.Cell
  held : Bool
  /-- ACLK cycles of the hold that are left -/
  hold : Nat
  age : Nat
  /-- the tag that a near-memory read-modify-write already holds (R329) -/
  keep : Option Nat
  deriving DecidableEq, Repr

/-- An outstanding request under its tag (R329, R331). -/
structure JTag where
  tag : Nat
  req : JReq
  ticks : Nat
  deriving DecidableEq, Repr

/-- The memory port and the request tracker's Jamb share. -/
structure Jamb where
  reqs : List JReq
  tags : List JTag
  /-- tags held by near-memory operations between their read and their write (R329) -/
  heldTags : List Nat
  /-- quarantined tags with the pool that they belong to (R329, R331) -/
  quarantine : List (Nat × Pool)
  stray : Nat
  lastIssued : Option JTag
  faultAddr : BitVec 48
  faultCause : BitVec 3
  faultClient : BitVec 4
  faultCount : Nat
  faultPend : Bool
  timeout : BitVec 24
  aflags : BitVec 32
  reads : BitVec 32
  writes : BitVec 32
  deriving DecidableEq, Repr

/-! ### Latches and the watchdog (spec/11) -/

/-- A remote signal in the pending table (R256). -/
structure Pending where
  link : Nat
  src : BitVec 16
  /-- the transfer (log entry 59) -/
  xfer : Nat
  tag : BitVec 16
  slot : Nat
  ctxid : BitVec 32
  latch : Nat
  handle : Nat
  bytes : Nat
  tally : Nat
  deriving DecidableEq, Repr

/-- Bytes written of a transfer whose terminal packet has not arrived (R256 step 3). -/
structure Tally where
  link : Nat
  src : BitVec 16
  xfer : Nat
  ctxid : BitVec 32
  handle : Nat
  total : Nat
  bytes : Nat
  deriving DecidableEq, Repr

/-- The latch unit: counts at 48 × bank + latch. -/
structure LatchUnit where
  counts : SMap (BitVec 8)
  pending : List Pending
  tallies : List Tally
  hsigErr : Bool
  stale : Nat
  refused : Nat
  lostlink : Nat
  fLatch : BitVec 6
  fBank : Bool
  fSource : BitVec 3
  fCount : Nat
  fPend : Bool
  deriving DecidableEq, Repr

/-- The watchdog (R259 to R262). -/
structure Watchdog where
  period : BitVec 32
  src : BitVec 2
  mask : BitVec 4
  fires : Nat
  pend : Bool
  threads : SMap Word
  deriving DecidableEq, Repr

/-! ### Doorway (spec/13) -/

/-- The link states of R308. -/
inductive LinkState | off | wait | hello | up | idle | down | quarantine | reset
  deriving DecidableEq, Repr

/-- Who a packet to be sent belongs to (R300). -/
inductive TxOrigin
  | own (uid : Nat)
  | answer
  | forward
  /-- injected onto the ring from a near or far link -/
  | inject (link : Nat)
  | management
  deriving DecidableEq, Repr

/-- A packet waiting to be sent, or sent and not yet acknowledged. `held` is the egress hold of 16 R386. -/
structure TxItem where
  pkt : Packet
  origin : TxOrigin
  held : Bool
  /-- ACLK cycles of the hold that are left -/
  hold : Nat
  sends : Nat
  /-- the buffer of a far link's receive area that the packet still fills (R297) -/
  slot : Option Nat
  deriving DecidableEq, Repr

/-- One Doorway link. Class tables are indexed by the class number of R291. -/
structure Link where
  state : LinkState
  gen : Nat
  bypass : Bool
  remapped : Bool
  peer : BitVec 16
  cause : BitVec 4
  retries : Nat
  crcErr : Nat
  rdy : Bool
  en : Bool
  /-- credits held at the peer -/
  credit : SMap Nat
  /-- last cumulative credit return seen (R293) -/
  creditSeen : SMap (BitVec 16)
  /-- buffers freed since the link came up -/
  freed : SMap (BitVec 16)
  /-- SIG buffers that are free and whose credit R299 withholds -/
  sigHeld : Nat
  /-- next SEQ to send, next SEQ expected -/
  txSeq : SMap (BitVec 16)
  rxSeq : SMap (BitVec 16)
  ready : List TxItem
  sent : List TxItem
  /-- acknowledgement and negative acknowledgement to be sent in trailers -/
  ackDue : List (Nat × BitVec 16)
  nakDue : List (Nat × BitVec 16)
  helloSent : Bool
  helloSeen : Option HelloMsg
  /-- its next HELLO carries RESET = 1 (R309, R320) -/
  resetFlag : Bool
  /-- AON ticks since the present state was entered -/
  ticks : Nat
  /-- AON ticks since an acknowledgement last advanced, and since a credit was last held, by class -/
  ackTicks : SMap Nat
  credTicks : SMap Nat
  /-- the packet that was driven last -/
  lastTx : Option Wire
  /-- AON ticks since the last HELLO was sent (R309) -/
  helloTicks : Nat
  deriving DecidableEq, Repr

/-- A link that is OFF (R308). -/
def Link.init : Link :=
  { state := .off, gen := 0, bypass := false, remapped := false, peer := 0, cause := 0, retries := 0, crcErr := 0,
    rdy := false, en := false, credit := [], creditSeen := [], freed := [], sigHeld := 0, txSeq := [], rxSeq := [], ready := [],
    sent := [], ackDue := [], nakDue := [], helloSent := false, helloSeen := none, resetFlag := false, ticks := 0,
    ackTicks := [], credTicks := [], lastTx := none, helloTicks := 0 }

/-- A Doorway tag in use by this core (R301): the link its packet uses and the entry it belongs to. For a fetch,
the first logical index that its answer fills and the elements asked. -/
structure DoorTag where
  tag : Nat
  link : Nat
  uid : Nat
  index : Nat
  bytes : Nat
  deriving DecidableEq, Repr

/-- A received packet whose sinking waits on local resources (R298): on a descriptor fill, on Jamb, or on the
start of a reduction (R318). -/
structure Sink where
  id : Nat
  link : Nat
  pkt : Packet
  /-- the transfer that a WR or SIG packet belongs to -/
  xfer : Nat
  /-- its buffer in a far link's receive area (R297) -/
  slot : Option Nat
  /-- memory requests not yet answered -/
  waiting : Nat
  /-- it waits for a descriptor fill of (slot, handle) -/
  fill : Option (Nat × Nat)
  got : Mem
  err : Bool
  begun : Bool
  /-- the requests that it waits for are reads -/
  reading : Bool
  /-- a descriptor fill for it failed -/
  fillBad : Bool
  /-- what it moves once it has begun: descriptor, first index and elements -/
  work : Option (Desc × Nat × Nat)
  deriving DecidableEq, Repr

/-- The Doorway. -/
structure Doorway where
  links : SMap Link
  /-- held in reset, the Wicket closed (15 R372, R290) -/
  held : Bool
  node : BitVec 16
  event : Bool
  routes : SMap Route
  epoch : BitVec 24
  tags : List DoorTag
  sinks : List Sink
  reds : List RedRun
  opnos : SMap (BitVec 16)
  nextSink : Nat
  ctlLink : BitVec 3
  ctlErr : Bool
  swept : Nat
  resets : Nat
  faultLink : BitVec 3
  faultPend : Bool
  rpX : BitVec 16
  rpV : BitVec 16
  rpEpoch : BitVec 24
  rpErr : Bool
  deriving DecidableEq, Repr

/-! ### Hinge (spec/14) -/

/-- A response of Hinge (R335). `done` is false while its Lintel write has not retired (R412, R414). -/
structure HgRsp where
  id : BitVec 8
  rdata : Word
  code : BitVec 2
  done : Bool
  deriving DecidableEq, Repr

/-- The always-on part of Hinge. `waiting` lists the requests taken and not yet answered, in order; `answered` the
responses that were presented last. -/
structure Hinge where
  /-- HG_RSP_READY as the last request found it (R335, log entry 62) -/
  rspReady : Bool
  waiting : List HgRsp
  answered : List HgRsp
  irqStat : BitVec 13
  irqEn : BitVec 13
  bcast : BitVec 15
  decErr : Nat
  off : Nat
  denied : Nat
  pend : Bool
  mboxEn : Bool
  mboxD : BitVec 4
  mboxBase : BitVec 36
  deriving DecidableEq, Repr

/-! ### Clocks, power and start-up (spec/15) -/

/-- The always-on clock, the references and the PLL (R346 to R352). -/
structure Clocks where
  aonLost : Bool
  aonOk : Bool
  aonLostBit : Bool
  /-- consecutive passes of the frequency check by source (R348) -/
  passes : SMap Nat
  refRdy : Bool
  ready : SMap Bool
  /-- ticks the selected source has been ready while it is not in force (R350) -/
  readyTicks : Nat
  sel : Source
  inForce : Source
  slewTo : Option Source
  fallback : Bool
  /-- fallen back to TRO, with the selected source still to be returned to (R350) -/
  fell : Bool
  lockA : Bool
  lockD : Bool
  result : BitVec 8
  ctlSrc : BitVec 2
  aclkOn : Bool
  deriving DecidableEq, Repr

/-- The steps of the sequencer's move (R363). -/
inductive MoveStep | none | volt | slew | drop
  deriving DecidableEq, Repr

/-- Operating points, parking and the power domains (R357 to R369). -/
structure Power where
  op : Nat
  target : Nat
  runPoint : Nat
  moving : MoveStep
  moveTo : Nat
  vreq : BitVec 3
  vack : BitVec 3
  confirmed : BitVec 3
  vackTicks : Nat
  vtimeout : Bool
  parked : Bool
  parkTicks : Nat
  wakes : Nat
  waking : Bool
  result : BitVec 8
  ctlOp : BitVec 3
  /-- domains that are on and settled -/
  on : BitVec 80
  /-- domains of the batch still to be switched on, in order, and the one in progress -/
  batch : List Nat
  starting : Option Nat
  /-- domains that this batch has switched on (R358) -/
  batchOn : List Nat
  settleTicks : Nat
  pswReq : Bool
  pswGnt : Bool
  pdFail : BitVec 7
  pdFailV : Bool
  /-- domains left off by R357 -/
  leftOff : List Nat
  shutLat : BitVec 8
  shutSpare : BitVec 2
  shutSill : Bool
  shutTransom : Bool
  shutNear : Bool
  shutFar : Bool
  casGated : Bool
  sashGated : Bool
  louvreGated : BitVec 2
  deriving DecidableEq, Repr

/-- Reset pins and the start-up sequencer (R372 to R374). -/
structure Boot where
  aonRst : Bool
  coreRst : Bool
  stage : Nat
  cause : BitVec 2
  lintelErr : Bool
  pdFail : Bool
  troReady : Bool
  trimApplied : Bool
  lintelDone : Bool
  deriving DecidableEq, Repr

/-! ### Integrity, replay, checkpoint (spec/16) -/

/-- The places whose next check a strike waits for (R377, R378): a storage word, or a pair of copies. -/
inductive Site
  | icache | dmem | dcache | latch | plane | tracker | doorTracker | spad | sash | louvre | alu
  deriving DecidableEq, Repr

/-- A disturbance that no check has met yet. It comes from outside the block's rules, as the `Upset` operands do: no row of the
table is a strike, so no command adds one, and the next check of its place meets it (log entry 52). -/
structure Strike where
  site : Site
  upset : Upset
  deriving DecidableEq, Repr

/-- The entry that used a tensor last, for the attribution of R389. -/
structure LastUse where
  opnd : Opnd
  stream : Nat
  iseq : BitVec 32
  deriving DecidableEq, Repr

/-- The integrity registers (R408). -/
structure Integrity where
  /-- disturbances that no check has met (the environment's; log entry 52) -/
  strikes : List Strike
  /-- the latest use of each tensor, newest first, and of each accumulator, as 1 more than 4 × ISEQ + stream (R389) -/
  uses : List LastUse
  accUse : SMap Nat
  qstop : BitVec 11
  ce : Nat
  stat : BitVec 9
  events : Nat
  log0 : Word
  log1 : Word
  shutCount : Nat
  shutBlock : BitVec 4
  shutPend : Bool
  /-- next line of each scratchpad and Sill bank to be scrubbed (R385) -/
  scrubSpad : SMap Nat
  scrubSill : SMap Nat
  /-- the 4,096-cycle period in which each bank was scrubbed last -/
  doneSpad : SMap Nat
  doneSill : SMap Nat
  deriving DecidableEq, Repr

/-- The journal, replay and checkpoint controls (R394 to R405). -/
structure Replay where
  jnlCtx : Bool
  addr : BitVec 48
  step : BitVec 32
  /-- the step of the replay that is armed -/
  armed : BitVec 32
  ctlErr : Bool
  result : BitVec 3
  stream : BitVec 2
  index : BitVec 11
  whereField : BitVec 32
  /-- plane armed or replaying -/
  plane : Option Nat
  active : Bool
  buf : Mem
  readsOut : Nat
  bufErr : Bool
  /-- streams that have reached the SADV ending step n -/
  stopped : List Thread
  /-- latch events seen so far, and the first that differed -/
  latchSeen : Nat
  latchDiff : Option Nat
  /-- of each stream the first differing digest in ISEQ order: stream, index, ISEQ (R402) -/
  digestDiff : List (Thread × Nat × BitVec 32)
  /-- INPUT records already sunk -/
  inputPos : Nat
  ckptAddr : BitVec 48
  ckptOp : BitVec 2
  ckptSlot : Bool
  /-- the plane of the operation in progress -/
  ckptPlane : Bool
  ckptBusy : Bool
  ckptErr : Bool
  ckptResult : BitVec 8
  ckptOut : Nat
  ckptFail : Bool
  ckptBuf : Mem
  /-- 0 idle, 1 dirty descriptor entries are written back (R404), 2 the image is written, 3 its header is read, 4 the
  image is read -/
  ckptStage : Nat
  /-- where the image lies, and the bytes of it that are read -/
  ckptBase : Nat
  ckptLen : Nat
  adoptNode : BitVec 16
  adoptErr : Bool
  deriving DecidableEq, Repr

/-! ### Lintel and Hatch (spec/17) -/

/-- A record of the shadow (R409, R411). -/
structure LtRec where
  data : Word
  count : Nat
  bad : Bool
  deriving DecidableEq, Repr

/-- A record that has not been read. Log entry 3. -/
def LtRec.init : LtRec := { data := 0, count := 0, bad := false }

/-- A Lintel request in order of acceptance (R413): a write from Hinge, the Hatch count (R421), a read-back (R414)
of a failed write's index and DATA, or a stage-1 read. -/
inductive LtReq
  | write (index : Nat) (data : Word)
  | hatch
  | readBack (index : Nat) (data : Word)
  | read (index : Nat)
  deriving DecidableEq, Repr

/-- What stage 1 of start-up applied from the vendor and owner records (R423, R424). A later write of a record
changes the shadow, and these at the next stage 1. -/
structure Applied where
  /-- working Lattices: 2 to 4, or 0 under 15 R374 -/
  grade : Nat
  latEn : BitVec 4
  boostCap : Bool
  /-- logical banks on spare banks 32 and 33 -/
  spare0 : Option (Fin 32)
  spare1 : Option (Fin 32)
  trim : BitVec 10
  source : Source
  wdDefault : Nat
  node : BitVec 16
  spareCore : Bool
  deriving DecidableEq, Repr

/-- Nothing applied yet: zero Lattices, no spare, TRO, the trim at mid-scale, as in 15 R374. -/
def Applied.init : Applied :=
  { grade := 0, latEn := 0, boostCap := false, spare0 := none, spare1 := none, trim := 512, source := .tro,
    wdDefault := 0, node := 0, spareCore := false }

/-- The Lintel port, Deadbolt and Hatch. -/
structure Lintel where
  shadow : SMap LtRec
  applied : Applied
  reqs : List LtReq
  ticks : Nat
  warn : Bool
  bad : Bool
  deny : Bool
  resolved : Bool
  landed : Bool
  pfail : Bool
  denies : Nat
  writes : Nat
  logIndex : BitVec 8
  logCause : BitVec 4
  logEvent : BitVec 4
  logCount : Nat
  wear : BitVec 8
  /-- a response that arrives after the timeout is used for the read-back (R417) -/
  late : Bool
  /-- the element has taken the request at the head of `reqs` (R414, R417) -/
  taken : Bool
  /-- ticks since DEADBOLT_N was last sampled high, up to 16 (R418) -/
  lowTicks : Nat
  asserted : Bool
  seen : Bool
  hatchReq : Bool
  /-- both planes were EMPTY when REQ was written (R420) -/
  hatchArmed : Bool
  hatchErr : Bool
  hatchResult : BitVec 8
  hatchTicks : Nat
  hatchActive : Bool
  hatchSince : Bool
  deriving DecidableEq, Repr

/-! ### The engines' storage -/

/-- Scratchpad, Sill, Panes, Transom, Louvres and engine registers. -/
structure Engines where
  spad : Mem
  sill : Mem
  /-- lines of the Sill whose CLEAR bit is 0 (05 R110) -/
  sillSet : SMap Bool
  /-- word 1024 × Pane + 32 r + c -/
  panes : SMap (BitVec 32)
  /-- valid bits of the two half-words of a Pane word -/
  pvalid : SMap (BitVec 2)
  lanes : List Entry
  nextUid : Nat
  engs : SMap Engine
  lats : List LatRun
  /-- cells by 2 × Lattice + half; a whole Lattice uses the number of its half 0 -/
  cells : SMap Cells
  cas : Option CasRun
  /-- the operation that the arithmetic unit started last, with its entry, and the ACLK cycles since (16 R382, R389) -/
  casLast : Option (Entry × CasOp)
  casIdle : Nat
  /-- the cycle at which the occupancy of that operation ends, the cycles at which Panes written last become ready, and the
  Pane of a reduction that was started last (06 R130, R147) -/
  casFree : Nat
  casReady : SMap Nat
  casRed : Option Nat
  roots : List RootRun
  accums : SMap Accum
  trnFull0 : Bool
  trnFull1 : Bool
  weave : Word
  /-- UPD.APPLY starts that were skipped or stale, with the cycles that they still hold their engine (08 R184) -/
  skipHold : List (Nat × Nat)
  deriving DecidableEq, Repr

/-- Hinge registers of the engine chapters that hold counts, flags and faults. -/
structure EngRegs where
  latAflags : BitVec 16
  latFaultPart : BitVec 3
  latFaultLat : BitVec 2
  latFaultHalf : Bool
  latFaultShared : Bool
  latFaultCause : BitVec 4
  latFaultCount : Nat
  latFaultPend : Bool
  latCnt : SMap Word
  spills : BitVec 16
  drains : BitVec 16
  sfLine : BitVec 15
  sfCause : BitVec 4
  sfCe : Nat
  sfPend : Bool
  trnUnits : BitVec 32
  trnFault : Bool
  casFlags : BitVec 32
  casFaultPane : BitVec 5
  casFaultGroup : BitVec 5
  casFaultStream : BitVec 2
  casFaultCause : BitVec 4
  casFaultCount : Nat
  casFaultPend : Bool
  casOps : BitVec 32
  casWaits : BitVec 32
  deriving DecidableEq, Repr

/-- The counts of UPD_STAT of a context slot (08 R192). -/
structure UpdStat where
  applies : BitVec 16
  skips : BitVec 16
  roots : BitVec 16
  rootFails : BitVec 16
  deriving DecidableEq, Repr

/-- Nothing counted. -/
def UpdStat.init : UpdStat := { applies := 0, skips := 0, roots := 0, rootFails := 0 }

/-- The rest of the Hinge registers kept in domains 70 to 72. -/
structure CtlRegs where
  lvCommits : BitVec 16
  lvRebases : BitVec 16
  lvNfPush : Nat
  lvNfPend : Bool
  accIndex : BitVec 5
  accCtx : Bool
  accOp : BitVec 2
  accInf : Bool
  accNan : Bool
  accErr : Bool
  accData : Word
  updSel : Bool
  /-- the counts of UPD_STAT, by context slot (08 R192) -/
  upd : SMap UpdStat
  mulSel : BitVec 4
  abIseq : BitVec 32
  abStream : BitVec 2
  abQueue : BitVec 4
  abMode : Bool
  abErr : Bool
  abResult : BitVec 8
  abCount : Nat
  /-- entries that the abort in progress named, by uid (R247) -/
  abNamed : List Nat
  dcHandle : BitVec 20
  dcCtx : Bool
  dcOp : BitVec 2
  /-- the flush in progress: its context, and its handle for OP 1 (03 R73) -/
  dcRun : Option (Nat × Option Nat)
  dcErr : Bool
  dfHandle : BitVec 20
  dfCtx : Bool
  dfCode : BitVec 3
  dfCount : Nat
  dfPend : Bool
  deriving DecidableEq, Repr

/-- The GO bits whose operation Belore ends by itself (18 R429). -/
inductive GoBit | frame | dcache | replay | ckpt | hatch | abort
  deriving DecidableEq, Repr

/-- What has happened in the present cycle, where a rule looks at one cycle: an event has been logged, with its mechanism (16
R391), exception records that entered (09 R226), the arithmetic unit of the Casement has started or replayed an operation (16
R382), GO bits that Belore cleared, and those whose write found the last operation under way and set ERR (18 R429). -/
structure CycleNote where
  logged : Option Nat
  recs : Nat
  casBusy : Bool
  cleared : List GoBit
  erred : List GoBit
  deriving DecidableEq, Repr

/-- The start of a cycle. -/
def CycleNote.init : CycleNote := { logged := none, recs := 0, casBusy := false, cleared := [], erred := [] }

/-- Local time (09 R214, R17). -/
structure Time where
  cycle : Word
  /-- ACLK cycles since the live Frame was committed (04 R85, 06 R149, 16 R385) -/
  sinceCommit : Nat
  now : CycleNote
  aonTime : Word
  /-- ACLK cycles since the last tick of the always-on clock -/
  sub : Nat
  /-- ticks since stage 1 began (15 R374) -/
  bootTicks : Nat
  deriving DecidableEq, Repr

/-- The state of one Belore core. -/
structure State where
  f : ThreadState
  b : ThreadState
  u : ThreadState
  s : ThreadState
  sash : Sash
  dcache : List DcEntry
  eng : Engines
  er : EngRegs
  cr : CtlRegs
  frame : FrameUnit
  jamb : Jamb
  latch : LatchUnit
  wd : Watchdog
  door : Doorway
  hinge : Hinge
  clk : Clocks
  pwr : Power
  boot : Boot
  int : Integrity
  rpl : Replay
  lt : Lintel
  time : Time
  /-- how many free values have been drawn (the model's own; log entry 4) -/
  fresh : Nat
  /-- the commands that wait, first in first out -/
  pending : List Instr
  deriving DecidableEq, Repr

/-- The ways the block stops with a fault. None is raised: every error of the spec is state (a status, an
exception record, a response code) and the block goes on. The constructor is kept for the host's interface.
Safe: nothing answers with it. -/
inductive Fault
  | none
  deriving DecidableEq, Repr

/-- The ways the block refuses a command. -/
inductive Refusal
  /-- a command without a meaning yet; raised by Machine/Dispatch.lean only. Safe: the run stops. -/
  | notModelled (mnemonic : String)
  deriving DecidableEq, Repr

/-- The answer of a step or of a meaning. -/
abbrev Result := Host.Outcome State Fault Refusal

/-! ### Reset -/

/-- Sash after reset (R263, R200, R359); EVEC and EPC: log entry 2. -/
def Sash.init : Sash :=
  { dmem := [], icache := [], excq := [], lost := 0, handler := false, evec := 0, epc := 0, dmemCe := 0,
    icRefetch := 0, dmemUe := 0, eccPend := false, lastIssued := .S }

/-- The policy before any FAULT section (R264, R268). -/
def FaultCfg.init : FaultCfg := { wdPeriod := 0, wdPol := 0, latchPol := 0, qrel := false, alarmFlags := 0 }

/-- The plan in force before the first commit (15 R371). -/
def PowerPlan.init : PowerPlan :=
  { src := .tro, opRun := 1, opMax := 1, park := false, parkDelay := 1000, latOff := 0 }

/-- Both planes EMPTY and the core-wide values of R264. -/
def FrameUnit.init : FrameUnit :=
  { plane0 := Plane.init, plane1 := Plane.init, assign := 0xFFFFFFFF, mullion := [], fault := FaultCfg.init,
    doorway := none, plan := PowerPlan.init, jambTags := 49152, effect := none, effectDue := false, addr := 0, len := 0, opField := 0,
    waitField := false, slotField := false, busy := false, err := false, result := 0, whereField := 0 }

/-- The tracker is empty (R343); TIMEOUT 1,000 (R344). -/
def Jamb.init : Jamb :=
  { reqs := [], tags := [], heldTags := [], quarantine := [], stray := 0, lastIssued := none, faultAddr := 0,
    faultCause := 0, faultClient := 0, faultCount := 0, faultPend := false, timeout := 1000, aflags := 0, reads := 0,
    writes := 0 }

/-- Every latch 0 and the pending table empty (R262). -/
def LatchUnit.init : LatchUnit :=
  { counts := [], pending := [], tallies := [], hsigErr := false, stale := 0, refused := 0, lostlink := 0,
    fLatch := 0, fBank := false, fSource := 0, fCount := 0, fPend := false }

/-- WD_CFG holds its reset values until stage 1 completes (R259). -/
def Watchdog.init : Watchdog :=
  { period := 0x000186A0, src := 2, mask := 0, fires := 0, pend := false, threads := [] }

/-- Every link OFF, the Doorway held in reset with the Wicket closed (R308, R372). -/
def Doorway.init : Doorway :=
  { links := [], held := true, node := 0, event := false, routes := [], epoch := 0, tags := [], sinks := [],
    reds := [], opnos := [], nextSink := 0, ctlLink := 0, ctlErr := false, swept := 0, resets := 0, faultLink := 0,
    faultPend := false, rpX := 0, rpV := 0, rpEpoch := 0, rpErr := false }

/-- R344. -/
def Hinge.init : Hinge :=
  { rspReady := true, waiting := [], answered := [], irqStat := 0, irqEn := 0, bcast := 0, decErr := 0, off := 0, denied := 0,
    pend := false, mboxEn := false, mboxD := 0, mboxBase := 0 }

/-- No reference ready, nothing locked (R375). -/
def Clocks.init : Clocks :=
  { aonLost := false, aonOk := false, aonLostBit := false, passes := [], refRdy := false, ready := [],
    readyTicks := 0, sel := .tro, inForce := .tro, slewTo := none, fallback := false, fell := false, lockA := false, lockD := false,
    result := 0, ctlSrc := 0, aclkOn := false }

/-- Every switched domain off, VREQ 0 (R375, R372). -/
def Power.init : Power :=
  { op := 0, target := 0, runPoint := 1, moving := .none, moveTo := 0, vreq := 0, vack := 0, confirmed := 0,
    vackTicks := 0, vtimeout := false, parked := false, parkTicks := 0, wakes := 0, waking := false, result := 0,
    ctlOp := 0, on := 0, batch := [], starting := none, batchOn := [], settleTicks := 0, pswReq := false,
    pswGnt := false, pdFail := 0, pdFailV := false, leftOff := [], shutLat := 0xFF, shutSpare := 3,
    shutSill := false, shutTransom := false, shutNear := false, shutFar := false, casGated := false,
    sashGated := false, louvreGated := 0 }

/-- Stage 0, both resets held (R373). -/
def Boot.init : Boot :=
  { aonRst := true, coreRst := true, stage := 0, cause := 0, lintelErr := false, pdFail := false, troReady := false,
    trimApplied := false, lintelDone := false }

/-- R408. -/
def Integrity.init : Integrity :=
  { strikes := [], uses := [], accUse := [], qstop := 0, ce := 0, stat := 0, events := 0, log0 := 0, log1 := 0, shutCount := 0, shutBlock := 0,
    shutPend := false, scrubSpad := [], scrubSill := [], doneSpad := [], doneSill := [] }

/-- R408. -/
def Replay.init : Replay :=
  { jnlCtx := false, addr := 0, step := 0, armed := 0, ctlErr := false, result := 0, stream := 0, index := 0, whereField := 0,
    plane := none, active := false, buf := [], readsOut := 0, bufErr := false, stopped := [], latchSeen := 0,
    latchDiff := none, digestDiff := [], inputPos := 0, ckptAddr := 0, ckptOp := 0, ckptSlot := false, ckptPlane := false,
    ckptBusy := false, ckptErr := false, ckptResult := 0, ckptOut := 0, ckptFail := false, ckptBuf := [],
    ckptStage := 0, ckptBase := 0, ckptLen := 0, adoptNode := 0, adoptErr := false }

/-- R425. -/
def Lintel.init : Lintel :=
  { shadow := [], applied := Applied.init, reqs := [], ticks := 0, warn := false, bad := false, deny := false, resolved := false,
    landed := false, pfail := false, denies := 0, writes := 0, logIndex := 0, logCause := 0, logEvent := 0,
    logCount := 0, wear := 0, late := false, taken := false, lowTicks := 0, asserted := false, seen := false, hatchReq := false, hatchArmed := false, hatchErr := false,
    hatchResult := 0, hatchTicks := 0, hatchActive := false, hatchSince := false }

/-- Scratchpad zero, Sill clear, Panes +0 and invalid, lanes empty (R359). -/
def Engines.init : Engines :=
  { spad := [], sill := [], sillSet := [], panes := [], pvalid := [], lanes := [], nextUid := 0, engs := [],
    lats := [], cells := [], cas := none, casLast := none, casIdle := 0, casFree := 0, casReady := [], casRed := none, roots := [], accums := [],
    trnFull0 := false, trnFull1 := false, weave := 0, skipHold := [] }

/-- R102, R121, R151. -/
def EngRegs.init : EngRegs :=
  { latAflags := 0, latFaultPart := 0, latFaultLat := 0, latFaultHalf := false, latFaultShared := false,
    latFaultCause := 0, latFaultCount := 0, latFaultPend := false, latCnt := [], spills := 0, drains := 0,
    sfLine := 0, sfCause := 0, sfCe := 0, sfPend := false, trnUnits := 0, trnFault := false, casFlags := 0,
    casFaultPane := 0, casFaultGroup := 0, casFaultStream := 0, casFaultCause := 0, casFaultCount := 0,
    casFaultPend := false, casOps := 0, casWaits := 0 }

/-- R165, R192, R249, R73, R59. -/
def CtlRegs.init : CtlRegs :=
  { lvCommits := 0, lvRebases := 0, lvNfPush := 0, lvNfPend := false, accIndex := 0, accCtx := false, accOp := 0,
    accInf := false, accNan := false, accErr := false, accData := 0, updSel := false, upd := [], mulSel := 0, abIseq := 0, abStream := 0, abQueue := 0, abMode := false,
    abErr := false, abResult := 0, abCount := 0, abNamed := [], dcHandle := 0, dcCtx := false, dcOp := 0,
    dcRun := none, dcErr := false, dfHandle := 0, dfCtx := false, dfCode := 0, dfCount := 0, dfPend := false }

/-- Time zero. -/
def Time.init : Time := { cycle := 0, sinceCommit := 0, now := CycleNote.init, aonTime := 0, sub := 0, bootTicks := 0 }

/-- The core right after reset: AON_RST_N low, stage 0 (15 R372, R373). -/
def State.reset : State :=
  { f := ThreadState.init, b := ThreadState.init, u := ThreadState.init, s := ThreadState.init, sash := Sash.init,
    dcache := [], eng := Engines.init, er := EngRegs.init, cr := CtlRegs.init, frame := FrameUnit.init,
    jamb := Jamb.init, latch := LatchUnit.init, wd := Watchdog.init, door := Doorway.init, hinge := Hinge.init,
    clk := Clocks.init, pwr := Power.init, boot := Boot.init, int := Integrity.init, rpl := Replay.init,
    lt := Lintel.init, time := Time.init, fresh := 0, pending := [] }

end Sys2Proof.Machine
end

