-- ==== Sys2Proof/Machine/Ops.lean ====
section
/-! DEFINITION. The operations that every other file of the machine uses: sparse tables, bytes and bit fields,
the parts of the state by their index. -/

namespace Sys2Proof.Machine

/-! ### Sparse tables -/

/-- The value at a key: what is listed, or the default `d`. -/
def SMap.look {α : Type} (m : SMap α) (d : α) (a : Nat) : α :=
  match m with
  | [] => d
  | (k, v) :: r => if a = k then v else SMap.look r d a

/-- The table without the keys that `p` names. -/
def SMap.drop {α : Type} (m : SMap α) (p : Nat → Bool) : SMap α := m.filter fun e => !p e.1

/-- Puts a value at a key, in place of what was listed there, and keeps the canonical form: keys rise, and the default
is not listed. -/
def SMap.put {α : Type} [DecidableEq α] (m : SMap α) (d : α) (a : Nat) (v : α) : SMap α :=
  match m with
  | [] => if v = d then [] else [(a, v)]
  | (k, w) :: r =>
    if k = a then SMap.put r d a v
    else if a < k ∧ v ≠ d then (a, v) :: (k, w) :: r
    else (k, w) :: SMap.put r d a v

/-- The canonical form of a table whose unlisted keys hold `d`. -/
def SMap.wf {α : Type} [DecidableEq α] (d : α) (m : SMap α) : Bool :=
  match m with
  | [] => true
  | [(_, v)] => decide (v ≠ d)
  | (k, v) :: (k', v') :: r => decide (v ≠ d) && decide (k < k') && SMap.wf d ((k', v') :: r)

/-- The canonical form of a byte store: addresses rise, and no listed byte is 0. -/
abbrev Memory.wf (m : Mem) : Prop := SMap.wf (0 : Byte) m = true

/-! ### Bits and bytes (spec/00 R12, R13) -/

/-- Bits lo to lo + len - 1 of a number. -/
def bitsN (v lo len : Nat) : Nat := (v >>> lo) % 2 ^ len

/-- One bit of a number. -/
def bitN (v i : Nat) : Bool := v.testBit i

/-- A Bool as a number. -/
def b2n (b : Bool) : Nat := if b then 1 else 0

/-- The signed value of the low `w` bits. -/
def signedN (v w : Nat) : Int :=
  let x := v % 2 ^ w
  if x < 2 ^ (w - 1) then (x : Int) else (x : Int) - (2 ^ w : Nat)

/-- Little-endian bytes to a number (R12). -/
def leNat (bs : List Byte) : Nat :=
  match bs with
  | [] => 0
  | b :: r => b.toNat + 256 * leNat r

/-- The low `n` bytes of a number, little-endian (R12). -/
def natLe (n v : Nat) : List Byte :=
  match n with
  | 0 => []
  | n + 1 => BitVec.ofNat 8 v :: natLe n (v / 256)

/-- `n` bytes from a byte store; unlisted bytes read 0. -/
def Mem.bytes (m : Mem) (a n : Nat) : List Byte := (List.range n).map fun i => SMap.look m 0 (a + i)

/-- Writes bytes to a byte store. -/
def Mem.putBytes (m : Mem) (a : Nat) (bs : List Byte) : Mem :=
  match bs with
  | [] => m
  | b :: r => Mem.putBytes (SMap.put m 0 a b) (a + 1) r

/-- `n` little-endian bytes of a store as a number. -/
def Mem.num (m : Mem) (a n : Nat) : Nat := leNat (Mem.bytes m a n)

/-- Writes the low `n` bytes of a number. -/
def Mem.putNum (m : Mem) (a n v : Nat) : Mem := Mem.putBytes m a (natLe n v)

/-- The 64-bit words of a byte list, with a short last word filled by zeros. -/
def words64 (bs : List Byte) : List Word :=
  (List.range ((bs.length + 7) / 8)).map fun i => w64 (leNat ((bs.drop (8 * i)).take 8))

/-- The least multiple of `n` that is at least `x`. -/
def alignUp (x n : Nat) : Nat := (x + n - 1) / n * n

/-- A counter that saturates at the largest value of `w` bits. -/
def satInc (w x : Nat) : Nat := if x + 1 < 2 ^ w then x + 1 else 2 ^ w - 1

/-- A 32-bit or narrower register counter that saturates. -/
def satIncB {w : Nat} (x : BitVec w) : BitVec w := if x = BitVec.allOnes w then x else x + 1

/-- Adds `k` to a counter that saturates at the largest value of `w` bits. -/
def satAdd (w x k : Nat) : Nat := min (x + k) (2 ^ w - 1)

/-- A field of a register word. -/
def fld (v lo len : Nat) : Word := w64 ((v % 2 ^ len) <<< lo)

/-- Replaces the first list element that `p` holds of by `f` of it. -/
def updFirst {α : Type} (p : α → Bool) (f : α → α) (l : List α) : List α :=
  match l with
  | [] => []
  | x :: r => if p x then f x :: r else x :: updFirst p f r

/-- Replaces the list element at an index. -/
def updAt {α : Type} (i : Nat) (f : α → α) (l : List α) : List α :=
  match l, i with
  | [], _ => []
  | x :: r, 0 => f x :: r
  | x :: r, i + 1 => x :: updAt i f r

/-- Without the first element that `p` holds of. -/
def dropFirst {α : Type} (p : α → Bool) (l : List α) : List α :=
  match l with
  | [] => []
  | x :: r => if p x then r else x :: dropFirst p r

/-! ### Threads and streams (spec/09 R193, spec/02 R41) -/

/-- 0 for F, 1 for B, 2 for U, 3 for S. -/
def Thread.num (t : Thread) : Nat :=
  match t with
  | .F => 0
  | .B => 1
  | .U => 2
  | .S => 3

/-- The thread of a number modulo 4. -/
def threadOf (n : Nat) : Thread :=
  match n % 4 with
  | 0 => .F
  | 1 => .B
  | 2 => .U
  | _ => .S

/-- The four threads in the order F, B, U, S. -/
def allThreads : List Thread := [.F, .B, .U, .S]

/-- A thread's registers and state. -/
def State.th (s : State) (t : Thread) : ThreadState :=
  match t with
  | .F => s.f
  | .B => s.b
  | .U => s.u
  | .S => s.s

/-- Replaces a thread's registers and state. -/
def State.setTh (s : State) (t : Thread) (v : ThreadState) : State :=
  match t with
  | .F => { s with f := v }
  | .B => { s with b := v }
  | .U => { s with u := v }
  | .S => { s with s := v }

/-- Changes a thread by a function. -/
def State.modTh (s : State) (t : Thread) (g : ThreadState → ThreadState) : State := s.setTh t (g (s.th t))

/-- Reads a scalar register; s0 reads zero (R193). -/
def State.reg (s : State) (t : Thread) (r : Reg) : Word :=
  if r = 0 then 0 else SMap.look (s.th t).regs 0 r.val

/-- Writes a scalar register; a write to s0 has no effect (R193). -/
def State.setReg (s : State) (t : Thread) (r : Reg) (v : Word) : State :=
  if r = 0 then s else s.modTh t fun x => { x with regs := SMap.put x.regs 0 r.val v }

/-- Advances a thread's pc by `n` bytes. -/
def State.pcAdd (s : State) (t : Thread) (n : Nat) : State :=
  s.modTh t fun x => { x with pc := x.pc + BitVec.ofNat 48 n }

/-- Reads a register by its number, as a tensor instruction's group does. -/
def State.regN (s : State) (t : Thread) (n : Nat) : Word := s.reg t (Fin.ofNat 32 n)

/-! ### Planes and engines -/

/-- The plane and context slot 0 or 1. -/
def State.plane (s : State) (i : Nat) : Plane := if i = 0 then s.frame.plane0 else s.frame.plane1

/-- Changes a plane. -/
def State.modPlane (s : State) (i : Nat) (g : Plane → Plane) : State :=
  if i = 0 then { s with frame := { s.frame with plane0 := g s.frame.plane0 } }
  else { s with frame := { s.frame with plane1 := g s.frame.plane1 } }

/-- The Frame held by a plane. -/
def State.frameOf (s : State) (i : Nat) : Option FrameCfg := (s.plane i).frame

/-- An engine by its queue number. -/
def State.engine (s : State) (q : Nat) : Engine := SMap.look s.eng.engs Engine.init q

/-- Changes an engine. -/
def State.modEngine (s : State) (q : Nat) (g : Engine → Engine) : State :=
  { s with eng := { s.eng with engs := SMap.put s.eng.engs Engine.init q (g (s.engine q)) } }

/-- The entries of a lane in order. -/
def State.lane (s : State) (q : Nat) (t : Thread) : List Entry :=
  s.eng.lanes.filter fun e => e.queue = q && e.stream = t

/-- The entry of a name. -/
def State.entry (s : State) (uid : Nat) : Option Entry := s.eng.lanes.find? fun e => e.uid = uid

/-- Changes the entry of a name. -/
def State.modEntry (s : State) (uid : Nat) (g : Entry → Entry) : State :=
  { s with eng := { s.eng with lanes := updFirst (fun e => e.uid = uid) g s.eng.lanes } }

/-- Changes the registers of the engine chapters. -/
def State.modEr (s : State) (g : EngRegs → EngRegs) : State := { s with er := g s.er }

/-- Changes the other control registers. -/
def State.modCr (s : State) (g : CtlRegs → CtlRegs) : State := { s with cr := g s.cr }

/-- A link by its number. -/
def State.link (s : State) (l : Nat) : Link := SMap.look s.door.links Link.init l

/-- Changes a link. -/
def State.modLink (s : State) (l : Nat) (g : Link → Link) : State :=
  { s with door := { s.door with links := SMap.put s.door.links Link.init l (g (s.link l)) } }

/-- Draws a free value: the counter that names it, and the state with the counter advanced. Log entry 4. -/
def State.draw (s : State) : Nat × State := (s.fresh, { s with fresh := s.fresh + 1 })

/-- The size of the scratchpad in bytes (04 R84). -/
def spadSize : Nat := 0x1400000

/-- The size of the Sill in bytes (05 R110). -/
def sillSize : Nat := 0x400000

end Sys2Proof.Machine
end

