-- ==== Sys2Proof/Machine/Crc.lean ====
section
/-! DEFINITION. CRC-32C (spec/00 R11): reflected, initial value and final XOR 0xFFFF_FFFF. -/

namespace Sys2Proof.Machine

/-- One bit of the reflected division by the Castagnoli polynomial, `n` times. -/
def crcBits (n : Nat) (c : BitVec 32) : BitVec 32 :=
  match n with
  | 0 => c
  | n + 1 => crcBits n (if c.getLsbD 0 then (c >>> 1) ^^^ 0x82F63B78 else c >>> 1)

/-- The register after the bytes of a list. -/
def crcFold (c : BitVec 32) (bs : List Byte) : BitVec 32 :=
  bs.foldl (fun c b => crcBits 8 (c ^^^ b.zeroExtend 32)) c

/-- CRC-32C of a list of bytes. -/
def crc32c (bs : List Byte) : BitVec 32 := crcFold 0xFFFFFFFF bs ^^^ 0xFFFFFFFF

end Sys2Proof.Machine
end

