-- ==== Sys2Proof/Machine/Flags.lean ====
section
/-! DEFINITION. The arithmetic status flags (spec/02 R53, spec/06 R150, spec/09 R208) as the operations raise
them; the chapters' registers make them sticky. -/

namespace Sys2Proof.Machine

/-- What one operation or conversion raises. `divZero` is the divide-by-zero flag of Sash (09 R208). -/
structure Flags where
  invalid : Bool
  overflow : Bool
  underflow : Bool
  nanin : Bool
  range : Bool
  empty : Bool
  divZero : Bool
  inexact : Bool
  deriving DecidableEq, Repr

/-- Nothing raised. -/
def noFlags : Flags :=
  { invalid := false, overflow := false, underflow := false, nanin := false, range := false, empty := false,
    divZero := false, inexact := false }

/-- INVALID alone. -/
def flagInvalid : Flags := { noFlags with invalid := true }

/-- OVERFLOW alone. -/
def flagOverflow : Flags := { noFlags with overflow := true }

/-- NANIN alone. -/
def flagNanin : Flags := { noFlags with nanin := true }

/-- Raised by either. -/
def flagsOr (a b : Flags) : Flags :=
  { invalid := a.invalid || b.invalid, overflow := a.overflow || b.overflow,
    underflow := a.underflow || b.underflow, nanin := a.nanin || b.nanin, range := a.range || b.range,
    empty := a.empty || b.empty, divZero := a.divZero || b.divZero, inexact := a.inexact || b.inexact }

/-- Raised by any of a list. -/
def flagsAny (l : List Flags) : Flags := l.foldl flagsOr noFlags

/-- INVALID, OVERFLOW, UNDERFLOW, NANIN in bits 0 to 3: the order of R53 and of the four-flag fields of the
Hinge registers. -/
def flags4 (a : Flags) : Nat := b2n a.invalid + 2 * b2n a.overflow + 4 * b2n a.underflow + 8 * b2n a.nanin

end Sys2Proof.Machine
end

