-- ==== Sys2Proof/Machine/Num.lean ====
section
/-! DEFINITION. Number formats, conversion and rounding (spec/02 R27 to R41). A number is carried as an exact
dyadic value; every rounding goes through `roundTo`. -/

namespace Sys2Proof.Machine

/-- An exact value: (−1)^neg × mag × 2^exp, an infinity, or NaN. Zero keeps its sign (R37). -/
inductive Val
  | nan
  | inf (neg : Bool)
  | fin (neg : Bool) (mag : Nat) (exp : Int)
  deriving DecidableEq, Repr

/-- +0. -/
def Val.zero : Val := .fin false 0 0

/-- The value of an integer. -/
def Val.ofInt (i : Int) : Val := .fin (decide (i < 0)) i.natAbs 0

/-- Is it a NaN? -/
def Val.isNan (v : Val) : Bool :=
  match v with
  | .nan => true
  | _ => false

/-- Is it finite and zero? -/
def Val.isZero (v : Val) : Bool :=
  match v with
  | .fin _ m _ => m = 0
  | _ => false

/-- Its sign bit; a NaN counts as positive. -/
def Val.neg (v : Val) : Bool :=
  match v with
  | .nan => false
  | .inf s => s
  | .fin s _ _ => s

/-- The value with its sign flipped; a NaN stays. -/
def Val.negate (v : Val) : Val :=
  match v with
  | .nan => .nan
  | .inf s => .inf (!s)
  | .fin s m e => .fin (!s) m e

/-- The magnitude. -/
def Val.abs (v : Val) : Val :=
  match v with
  | .nan => .nan
  | .inf _ => .inf false
  | .fin _ m e => .fin false m e

/-- m × 2^e as a natural number, for e at least 0 or an m that 2^−e divides. -/
def shiftBy (m : Nat) (e : Int) : Nat := if e < 0 then m >>> (-e).toNat else m <<< e.toNat

/-- m × 2^em < n × 2^en. -/
def magLt (m : Nat) (em : Int) (n : Nat) (en : Int) : Bool :=
  let e := min em en
  decide (m <<< (em - e).toNat < n <<< (en - e).toNat)

/-- a < b for values that are not NaN; −0 equals +0. -/
def Val.lt (a b : Val) : Bool :=
  match a, b with
  | .nan, _ => false
  | _, .nan => false
  | .inf s, .inf t => s && !t
  | .inf s, .fin _ _ _ => s
  | .fin _ _ _, .inf t => !t
  | .fin s m e, .fin t n f =>
    if m = 0 then decide (n ≠ 0) && !t
    else if n = 0 then s
    else if s then (if t then magLt n f m e else true)
    else (if t then false else magLt m e n f)

/-- a = b as numbers; a NaN equals nothing. -/
def Val.eq (a b : Val) : Bool := !a.isNan && !b.isNan && !Val.lt a b && !Val.lt b a

/-- floor(log2 |v|) of a nonzero finite value. -/
def log2Floor (m : Nat) (e : Int) : Int := (m.log2 : Int) + e

/-! ### Layouts (R28) -/

/-- The special encodings of a layout: infinity and NaN at the top exponent, NaN only at the top code (E4M3), or
none. -/
inductive Special | ieee | topNan | none
  deriving DecidableEq, Repr

/-- A floating-point layout: exponent bits, mantissa bits, bias. -/
structure Layout where
  eb : Nat
  mb : Nat
  bias : Nat
  special : Special
  deriving DecidableEq, Repr

/-- FP32. -/
def lFP32 : Layout := { eb := 8, mb := 23, bias := 127, special := .ieee }
/-- BF16. -/
def lBF16 : Layout := { eb := 8, mb := 7, bias := 127, special := .ieee }
/-- E4M3. -/
def lE4M3 : Layout := { eb := 4, mb := 3, bias := 7, special := .topNan }
/-- E5M2. -/
def lE5M2 : Layout := { eb := 5, mb := 2, bias := 15, special := .ieee }
/-- E3M2. -/
def lE3M2 : Layout := { eb := 3, mb := 2, bias := 3, special := .none }
/-- E2M3. -/
def lE2M3 : Layout := { eb := 2, mb := 3, bias := 1, special := .none }
/-- E2M1. -/
def lE2M1 : Layout := { eb := 2, mb := 1, bias := 1, special := .none }
/-- FP64, in Sash only. -/
def lFP64 : Layout := { eb := 11, mb := 52, bias := 1023, special := .ieee }

/-- The layout of a format code (R27); INT8 has none and is handled where it occurs. -/
def layoutOf (fmt : Nat) : Layout :=
  match fmt with
  | 0 => lFP32
  | 1 => lBF16
  | 2 => lE4M3
  | 3 => lE5M2
  | 4 => lE4M3
  | 5 => lE5M2
  | 6 => lE3M2
  | 7 => lE2M3
  | _ => lE2M1

/-- Element bits of a format code (R27). -/
def fmtBits (fmt : Nat) : Nat :=
  match fmt with
  | 0 => 32
  | 1 => 16
  | 6 => 6
  | 7 => 6
  | 8 => 4
  | _ => 8

/-- Is it one of the MX formats, 0x4 to 0x8? -/
def isMx (fmt : Nat) : Bool := decide (4 ≤ fmt) && decide (fmt ≤ 8)

/-- Does a per-tensor scale apply (R33): plain FP8 and INT8. -/
def isPlainScaled (fmt : Nat) : Bool := fmt = 2 || fmt = 3 || fmt = 9

/-- The exponent of the smallest normal. -/
def Layout.emin (l : Layout) : Int := 1 - (l.bias : Int)

/-- The exponent of the smallest subnormal. -/
def Layout.unit (l : Layout) : Int := 1 - (l.bias : Int) - (l.mb : Int)

/-- The canonical NaN (R31). -/
def Layout.nan (l : Layout) : Nat :=
  match l.special with
  | .ieee => ((2 ^ l.eb - 1) <<< l.mb) + 2 ^ (l.mb - 1)
  | .topNan => 2 ^ (l.eb + l.mb) - 1
  | .none => 0

/-- The bits of +infinity. -/
def Layout.infBits (l : Layout) : Nat := (2 ^ l.eb - 1) <<< l.mb

/-- The bits of the largest finite value. -/
def Layout.maxBits (l : Layout) : Nat :=
  match l.special with
  | .ieee => l.infBits - 1
  | .topNan => 2 ^ (l.eb + l.mb) - 2
  | .none => 2 ^ (l.eb + l.mb) - 1

/-- Adds the sign bit. -/
def Layout.signed (l : Layout) (neg : Bool) (b : Nat) : Nat := if neg then b + 2 ^ (l.eb + l.mb) else b

/-- The value of an encoding (R28). -/
def Layout.decode (l : Layout) (b : Nat) : Val :=
  let m := bitsN b 0 l.mb
  let e := bitsN b l.mb l.eb
  let s := bitN b (l.eb + l.mb)
  if e = 2 ^ l.eb - 1 && l.special = .ieee then (if m = 0 then .inf s else .nan)
  else if e = 2 ^ l.eb - 1 && m = 2 ^ l.mb - 1 && l.special = .topNan then .nan
  else if e = 0 then .fin s m l.unit
  else .fin s (2 ^ l.mb + m) ((e : Int) - (l.bias : Int) - (l.mb : Int))

/-- The encoding of a value that the layout represents, without its sign. -/
def Layout.encodeMag (l : Layout) (m : Nat) (e : Int) : Nat :=
  if m = 0 then 0
  else
    let top := log2Floor m e
    if top < l.emin then shiftBy m (e - l.unit)
    else shiftBy m (e - (top - (l.mb : Int))) - 2 ^ l.mb + ((top + (l.bias : Int)).toNat <<< l.mb)

/-! ### Rounding (R35 to R39) -/

/-- The rounding modes of R35. -/
inductive RMode | rne | rtz | rdn | rup | sr
  deriving DecidableEq, Repr

/-- The mode of an RMODE field; codes 5 to 7 are refused before any write (R35, R58). -/
def rmodeOf (n : Nat) : RMode :=
  match n with
  | 1 => .rtz
  | 2 => .rdn
  | 3 => .rup
  | 4 => .sr
  | _ => .rne

/-- Does the mode add one unit to the truncated magnitude `t`, whose discarded part is `rem` of `d` bits? -/
def roundsUp (mode : RMode) (u : Nat) (neg : Bool) (t rem d : Nat) : Bool :=
  match mode with
  | .rne => decide (2 ^ d < 2 * rem) || (decide (2 ^ d = 2 * rem) && decide (t % 2 = 1))
  | .rtz => false
  | .rdn => neg && decide (rem ≠ 0)
  | .rup => !neg && decide (rem ≠ 0)
  | .sr => decide (u < shiftBy rem (32 - (d : Int)))

/-- Rounds a magnitude to multiples of 2^q: the multiple, and whether it is inexact. -/
def roundAt (mode : RMode) (u : Nat) (neg : Bool) (m : Nat) (e q : Int) : Nat × Bool :=
  if q ≤ e then (m <<< (e - q).toNat, false)
  else
    let d := (q - e).toNat
    let t := m >>> d
    let rem := m % 2 ^ d
    (if roundsUp mode u neg t rem d then t + 1 else t, decide (rem ≠ 0))

/-- The quantum of a value in a layout: its precision, and the subnormal unit below. -/
def Layout.quantum (l : Layout) (m : Nat) (e : Int) : Int :=
  if m = 0 then l.unit else max (log2Floor m e - (l.mb : Int)) l.unit

/-- What becomes of a finite value above the largest finite value (R37). -/
inductive Above | ieee | saturate
  deriving DecidableEq, Repr

/-- Rounds a finite value to a layout, with the overflow test of R37 and the underflow of R53. -/
def Layout.roundFin (l : Layout) (above : Above) (mode : RMode) (u : Nat) (neg : Bool) (m : Nat) (e : Int) :
    Nat × Flags :=
  let q := l.quantum m e
  let r := roundAt mode u neg m e q
  let mx := l.decode l.maxBits
  let big := match mx with
    | .fin _ xm xe => magLt xm xe r.1 q
    | _ => false
  if big then
    let toInf := decide (above = .ieee) &&
      (match mode with
        | .rne => true
        | .sr => true
        | .rtz => false
        | .rdn => neg
        | .rup => !neg)
    (l.signed neg (if toInf then l.infBits else l.maxBits), { noFlags with overflow := true, inexact := true })
  else
    let small := decide (r.1 = 0) || decide (log2Floor r.1 q < l.emin)
    (l.signed neg (l.encodeMag r.1 q),
      { noFlags with underflow := r.2 && small, inexact := r.2 })

/-- Conversion to an IEEE-like layout: FP64, FP32, BF16, E5M2 (R37). -/
def Layout.ofVal (l : Layout) (mode : RMode) (u : Nat) (v : Val) : Nat × Flags :=
  match v with
  | .nan => (l.nan, noFlags)
  | .inf s => (l.signed s l.infBits, noFlags)
  | .fin s m e => l.roundFin .ieee mode u s m e

/-- Conversion to plain E4M3 (R37). -/
def toE4M3 (mode : RMode) (u : Nat) (v : Val) : Nat × Flags :=
  match v with
  | .nan => (lE4M3.nan, noFlags)
  | .inf s => (lE4M3.signed s lE4M3.maxBits, flagOverflow)
  | .fin s m e => lE4M3.roundFin .saturate mode u s m e

/-- Conversion to INT8, as a byte (R37). The largest finite of INT8 is 127 (R28), and R37 compares magnitudes: a value
that rounds to −128 has a magnitude above it, so it becomes −128 with OVERFLOW (log entry 7). A nonzero value that
rounds to 0 is inexact and raises UNDERFLOW (R53). -/
def toInt8 (mode : RMode) (u : Nat) (v : Val) : Nat × Flags :=
  match v with
  | .nan => (0, flagInvalid)
  | .inf s => (if s then 128 else 127, flagOverflow)
  | .fin s m e =>
    let r := roundAt mode u s m e 0
    if 127 < r.1 then (if s then 128 else 127, { flagOverflow with inexact := r.2 })
    else (if s then (256 - r.1) % 256 else r.1,
      { noFlags with underflow := r.2 && decide (r.1 = 0), inexact := r.2 })

/-- Conversion of an unscaled value to a format that is not MX (R36, R37). -/
def toFmt (fmt : Nat) (mode : RMode) (u : Nat) (v : Val) : Nat × Flags :=
  match fmt with
  | 2 => toE4M3 mode u v
  | 9 => toInt8 mode u v
  | _ => (layoutOf fmt).ofVal mode u v

/-- The unscaled element value of an encoding. -/
def ofFmt (fmt b : Nat) : Val := if fmt = 9 then Val.ofInt (signedN b 8) else (layoutOf fmt).decode b

/-- The value of an FP32 word. -/
def val32 (b : BitVec 32) : Val := lFP32.decode b.toNat

/-- The value of an FP64 word. -/
def val64 (b : Word) : Val := lFP64.decode b.toNat

/-- Rounds to FP32, RNE. -/
def rne32 (v : Val) : BitVec 32 × Flags :=
  let r := lFP32.ofVal .rne 0 v
  (w32 r.1, r.2)

/-- Rounds to FP64, RNE. -/
def rne64 (v : Val) : Word × Flags :=
  let r := lFP64.ofVal .rne 0 v
  (w64 r.1, r.2)

/-- The canonical FP32 NaN. -/
def nan32 : BitVec 32 := 0x7FC00000

/-! ### Exact arithmetic on values -/

/-- A value times 2^k. -/
def Val.scale2 (v : Val) (k : Int) : Val :=
  match v with
  | .fin s m e => .fin s m (e + k)
  | w => w

/-- The exact product; infinity times zero makes a NaN (INVALID). -/
def Val.mul (a b : Val) : Val × Flags :=
  match a, b with
  | .nan, _ => (.nan, flagNanin)
  | _, .nan => (.nan, flagNanin)
  | .inf s, .inf t => (.inf (s != t), noFlags)
  | .inf s, .fin t n _ => if n = 0 then (.nan, flagInvalid) else (.inf (s != t), noFlags)
  | .fin s m _, .inf t => if m = 0 then (.nan, flagInvalid) else (.inf (s != t), noFlags)
  | .fin s m e, .fin t n f => (.fin (s != t) (m * n) (e + f), noFlags)

/-- The exact sum. Opposite infinities make a NaN (INVALID). A zero sum is +0 unless both are −0, as under RNE. -/
def Val.add (a b : Val) : Val × Flags :=
  match a, b with
  | .nan, _ => (.nan, flagNanin)
  | _, .nan => (.nan, flagNanin)
  | .inf s, .inf t => if s = t then (.inf s, noFlags) else (.nan, flagInvalid)
  | .inf s, _ => (.inf s, noFlags)
  | _, .inf t => (.inf t, noFlags)
  | .fin s m e, .fin t n f =>
    let q := min e f
    let x : Int := (m <<< (e - q).toNat : Nat)
    let y : Int := (n <<< (f - q).toNat : Nat)
    let z := (if s then -x else x) + (if t then -y else y)
    if z = 0 then (.fin (s && t) 0 q, noFlags) else (.fin (decide (z < 0)) z.natAbs q, noFlags)

/-- The quotient with 200 significant bits and a sticky bit, enough for one correct rounding. 0 / 0 and inf / inf
are INVALID; a finite nonzero value over zero is an infinity (DIVIDE BY ZERO). -/
def Val.div (a b : Val) : Val × Flags :=
  match a, b with
  | .nan, _ => (.nan, flagNanin)
  | _, .nan => (.nan, flagNanin)
  | .inf _, .inf _ => (.nan, flagInvalid)
  | .inf s, .fin t _ _ => (.inf (s != t), noFlags)
  | .fin s _ _, .inf t => (.fin (s != t) 0 0, noFlags)
  | .fin s m e, .fin t n f =>
    if n = 0 then
      if m = 0 then (.nan, flagInvalid) else (.inf (s != t), { noFlags with divZero := true })
    else
      let k := 200 + n.log2
      let x := m <<< k
      let sticky := if x % n = 0 then 0 else 1
      (.fin (s != t) (2 * (x / n) + sticky) (e - f - (k : Int) - 1), noFlags)

/-- The integer square root, one bit at a time from bit `i − 1` down. -/
def isqrtFrom (n i r : Nat) : Nat :=
  match i with
  | 0 => r
  | i + 1 => if (r + 2 ^ i) * (r + 2 ^ i) ≤ n then isqrtFrom n i (r + 2 ^ i) else isqrtFrom n i r

/-- The integer square root. -/
def isqrt (n : Nat) : Nat := isqrtFrom n (n.log2 / 2 + 1) 0

/-- The square root with at least 200 significant bits and a sticky bit. A negative nonzero value is INVALID; −0
gives −0. -/
def Val.sqrt (a : Val) : Val × Flags :=
  match a with
  | .nan => (.nan, flagNanin)
  | .inf s => if s then (.nan, flagInvalid) else (.inf false, noFlags)
  | .fin s m e =>
    if m = 0 then (.fin s 0 0, noFlags)
    else if s then (.nan, flagInvalid)
    else
      let odd := e % 2 ≠ 0
      let m' := if odd then 2 * m else m
      let e' := if odd then e - 1 else e
      let x := m' <<< 400
      let r := isqrt x
      (.fin false (2 * r + (if r * r = x then 0 else 1)) (e' / 2 - 201), noFlags)

/-- Joins the flags of an exact operation and of its rounding to FP32. -/
def arith32 (r : Val × Flags) : BitVec 32 × Flags :=
  let x := rne32 r.1
  (x.1, flagsOr r.2 x.2)

/-- The same for FP64. -/
def arith64 (r : Val × Flags) : Word × Flags :=
  let x := rne64 r.1
  (x.1, flagsOr r.2 x.2)

/-- FP32 addition, RNE. -/
def add32 (a b : BitVec 32) : BitVec 32 × Flags := arith32 (Val.add (val32 a) (val32 b))

/-- FP32 multiplication, RNE. -/
def mul32 (a b : BitVec 32) : BitVec 32 × Flags := arith32 (Val.mul (val32 a) (val32 b))

/-- a × b + c, exact before one rounding. INVALID of the product stands whatever c is. -/
def fmaVal (a b c : Val) : Val × Flags :=
  let p := Val.mul a b
  let r := Val.add p.1 c
  if p.2.invalid then (.nan, flagsOr p.2 (if c.isNan then flagNanin else noFlags)) else
  (r.1, if a.isNan || b.isNan || c.isNan then { r.2 with nanin := true } else r.2)

/-- Does the FP32 word hold a positive, finite and nonzero value (R33)? -/
def scaleOk (b : BitVec 32) : Bool :=
  match val32 b with
  | .fin s m _ => !s && decide (m ≠ 0)
  | _ => false

/-! ### MX blocks (R32, R38) -/

/-- The exponent of the largest binade of an MX element format (R38). -/
def mxEmax (fmt : Nat) : Int :=
  match fmt with
  | 4 => 8
  | 5 => 15
  | 6 => 4
  | _ => 2

/-- The largest of the magnitudes, as floor(log2), of finite values; none when all are zero. -/
def topExp (vs : List Val) : Option Int :=
  vs.foldl (fun o v =>
    match v with
    | .fin _ m e =>
      if m = 0 then o
      else match o with
        | none => some (log2Floor m e)
        | some x => some (max x (log2Floor m e))
    | _ => o) none

/-- The scale byte of R38 step 3 from the largest magnitude. -/
def mxScaleOf (fmt : Nat) (top : Int) : Nat := (min (max (top - mxEmax fmt + 127) 0) 254).toNat

/-- The scale byte of a block of source values (R38 steps 1 to 3). `given` is a supplied scale, used in step 3. -/
def mxScale (fmt : Nat) (given : Option Nat) (vs : List Val) : Nat :=
  if vs.any fun v => match v with
      | .nan => true
      | .inf _ => true
      | _ => false then 0xFF
  else match topExp vs with
    | none => 0x7F
    | some top =>
      match given with
      | some x => x
      | none => mxScaleOf fmt top

/-- One element of an MX block under scale byte `x` (R38): its encoding and its flags. -/
def mxElem (fmt x : Nat) (mode : RMode) (u : Nat) (v : Val) : Nat × Flags :=
  if x = 0xFF then
    (0, match v with
      | .nan => flagInvalid
      | .inf _ => flagOverflow
      | _ => noFlags)
  else match v with
    | .fin s m e => (layoutOf fmt).roundFin .saturate mode u s m (e + 127 - (x : Int))
    | _ => (0, noFlags)

/-- The value of an MX element (R32). -/
def mxVal (fmt x b : Nat) : Val :=
  if x = 0xFF then .nan else ((layoutOf fmt).decode b).scale2 ((x : Int) - 127)

/-! ### Stochastic rounding (R40) -/

/-- The mixing function of R40. -/
def mix64 (x : Word) : Word :=
  let x := x ^^^ (x >>> 31)
  let x := x * 0x8F3A61D5C2B74E19
  let x := x ^^^ (x >>> 29)
  let x := x * 0xB56E0D937A1CF2C5
  x ^^^ (x >>> 32)

/-- The random number of an element (R40). -/
def srU (seed : Word) (stream : Nat) (step wseq : BitVec 32) (handle index : Nat) : Nat :=
  let skey := mix64 (mix64 (seed ^^^ w64 stream) ^^^ step.zeroExtend 64)
  let wkey := mix64 (skey ^^^ wseq.zeroExtend 64)
  let ctr := w64 ((handle <<< 44) ||| (index % 2 ^ 44))
  (mix64 (wkey ^^^ ctr)).toNat % 2 ^ 32

/-! ### The block accumulator (R42, R43) and the residue code (R50) -/

/-- The exact product of two unscaled finite elements in units of 2^−32 (R42). -/
def fixedProd (a b : Val) : Int :=
  match a, b with
  | .fin s m e, .fin t n f =>
    let x : Int := (shiftBy (m * n) (e + f + 32) : Nat)
    if s != t then -x else x
  | _, _ => 0

/-- The block sum of R42 as the 72-bit accumulator holds it. -/
def blockSum (ps : List (Val × Val)) : BitVec 72 :=
  BitVec.ofInt 72 (ps.foldl (fun a p => a + fixedProd p.1 p.2) 0)

/-- Completes a block (R43). `sa` and `sb` are the scale bytes, none for plain operands; `acc` is the accumulator. An
element under a 0xFF scale is NaN (R32), so its product creates no NaN and raises no INVALID (R53). -/
def blockResult (ps : List (Val × Val)) (sa sb : Option Nat) (acc : BitVec 72) : BitVec 32 × Flags :=
  let nanEl := ps.any fun p => p.1.isNan || p.2.isNan
  let nanSc := sa = some 0xFF || sb = some 0xFF
  let prods := ps.map fun p => Val.mul p.1 p.2
  if nanEl || nanSc || prods.any (fun p => p.1.isNan) then
    (nan32, { noFlags with nanin := nanEl || nanSc, invalid := !nanSc && prods.any fun p => p.2.invalid })
  else
    let pos := prods.any fun p => decide (p.1 = .inf false)
    let neg := prods.any fun p => decide (p.1 = .inf true)
    if pos && neg then (nan32, flagInvalid)
    else if pos || neg then (w32 (lFP32.signed neg lFP32.infBits), noFlags)
    else
      let i := acc.toInt
      if i = 0 then (0, noFlags)
      else
        let k : Int := (match sa with
          | some x => (x : Int) - 127
          | none => 0) + (match sb with
          | some x => (x : Int) - 127
          | none => 0)
        rne32 (.fin (decide (i < 0)) i.natAbs (k - 32))

/-- The residue modulo 251 of an element (R50), by its value times 2^16. -/
def residue (v : Val) : Nat :=
  match v with
  | .fin s m e =>
    let x : Int := (shiftBy m (e + 16) : Nat)
    ((if s then -x else x) % 251).toNat
  | _ => 0

/-- The residue of a block accumulator (R50). -/
def accResidue (acc : BitVec 72) : Nat := (acc.toInt % 251).toNat

/-- The residue that the weight of a column adds to the checksum of its row (R51): none where it contributes an exact
zero. -/
def residueOf (v : Option Val) : Nat :=
  match v with
  | some v => residue v
  | none => 0

end Sys2Proof.Machine
end

