-- ==== Sys2Proof/Machine/Desc.lean ====
section
/-! DEFINITION. Tensor descriptors: their two layouts, the checks of a fill, element addresses, masks, scale arrays
and the patch view (spec/03 R54 to R72). -/

namespace Sys2Proof.Machine

/-! ### Status codes (spec/09 R220) -/

def stOk : Nat := 0x00
def stBadHandle : Nat := 0x01
def stBadDescCrc : Nat := 0x02
def stBadDescGen : Nat := 0x03
def stBadDesc : Nat := 0x04
def stBadSpace : Nat := 0x05
def stBadFormat : Nat := 0x06
def stBadShape : Nat := 0x07
def stBadPart : Nat := 0x08
def stBadOperation : Nat := 0x09
def stBadRecord : Nat := 0x0A
def stBadGroup : Nat := 0x0B
def stSkipped : Nat := 0x20
def stNormStale : Nat := 0x21
def stRootNotDue : Nat := 0x22
def stAlreadyComplete : Nat := 0x23
def stNormNonfinite : Nat := 0x24
def stRootFail : Nat := 0x25
def stAborted : Nat := 0x26
def stLatticeFault : Nat := 0x40
def stCasementFault : Nat := 0x41
def stTransomFault : Nat := 0x42
def stSillFault : Nat := 0x43
def stSpillFault : Nat := 0x44
def stMemoryFault : Nat := 0x45
def stRemoteFault : Nat := 0x46

/-- Is the status of the fault class? -/
def isFaultClass (st : Nat) : Bool := decide (0x40 ≤ st) && decide (st ≤ 0x5F)

/-! ### Layout (R60) -/

/-- The entries of a history field of `n` entries of `w` bits. -/
def histOf (n w v : Nat) : List Nat := (List.range n).map fun i => bitsN v (w * i) w

/-- The history field from its entries of `w` bits. -/
def histBits (w : Nat) (h : List Nat) : Nat :=
  match h with
  | [] => 0
  | x :: r => x % 2 ^ w + 2 ^ w * histBits w r

/-- The words W0 to W7 of an entry. -/
def descWords (bs : List Byte) : List Nat := (List.range 8).map fun i => leNat ((bs.drop (8 * i)).take 8)

/-- The fields of a generation-3 entry. -/
def descOf3 (w : List Nat) : Desc :=
  let w0 := w.getD 0 0
  let w1 := w.getD 1 0
  let w2 := w.getD 2 0
  let w3 := w.getD 3 0
  let w4 := w.getD 4 0
  let w5 := w.getD 5 0
  let w6 := w.getD 6 0
  let w7 := w.getD 7 0
  { gen := 3, base := bitsN w0 0 48, fmt := bitsN w0 48 4, space := bitsN w0 52 2, rmode := bitsN w0 54 3,
    valid := bitN w0 57, lvEn := bitN w0 58, lvBlk := bitN w0 59, scaleSrc := bitN w0 60, mxAxis := bitN w0 61,
    n0 := bitsN w1 0 24, n1 := bitsN w1 24 24, n2 := bitsN w2 0 24, n3 := bitsN w1 48 16,
    s1 := bitsN w3 0 36, s2 := bitsN w4 0 36, s3 := bitsN w5 0 36, sb := bitsN w3 36 28,
    blkLog2 := bitsN w2 24 4, maskMode := bitsN w2 28 2, maskFill := bitN w2 30, moff := signedN (bitsN w2 32 24) 24,
    winEn := bitN w2 31, window := bitsN w4 36 28, scale := bitsN w6 0 32, hrun := bitsN w2 56 8,
    hstep := bitsN w5 49 8, hptr := bitsN w5 36 4, hnf := bitN w5 40, href := bitsN w5 41 8,
    hist := histOf 16 4 (bitsN w6 32 32 + 2 ^ 32 * bitsN w7 0 32) }

/-- The fields of a generation-2 entry, with the equivalents of R61. -/
def descOf2 (w : List Nat) : Desc :=
  let w0 := w.getD 0 0
  let w1 := w.getD 1 0
  let w2 := w.getD 2 0
  let w3 := w.getD 3 0
  let w4 := w.getD 4 0
  let w5 := w.getD 5 0
  let w6 := w.getD 6 0
  { gen := 2, base := bitsN w0 0 48, fmt := bitsN w0 48 4, space := bitsN w0 52 2, rmode := bitsN w0 54 3,
    valid := bitN w0 57, lvEn := bitN w0 58, lvBlk := bitN w0 59, scaleSrc := bitN w0 60, mxAxis := false,
    n0 := bitsN w1 0 24, n1 := bitsN w1 24 24, n2 := bitsN w1 48 16, n3 := 1,
    s1 := bitsN w2 0 40, s2 := bitsN w3 0 40, s3 := 0, sb := 0, blkLog2 := 0, maskMode := 0, maskFill := false,
    moff := 0, winEn := bitN w4 28, window := bitsN w4 0 28, scale := bitsN w5 0 32, hrun := bitsN w5 32 8,
    hstep := bitsN w5 40 8, hptr := bitsN w5 48 3, hnf := bitN w5 51, href := 0, hist := histOf 8 8 w6 }

/-- Are the reserved bits of the layout zero (R14)? -/
def descReservedOk (gen : Nat) (w : List Nat) : Bool :=
  if gen = 3 then decide (bitsN (w.getD 5 0) 57 7 = 0)
  else
    !bitN (w.getD 0 0) 61 && decide (bitsN (w.getD 2 0) 40 24 = 0) && decide (bitsN (w.getD 3 0) 40 24 = 0) &&
    decide (bitsN (w.getD 4 0) 29 35 = 0) && decide (bitsN (w.getD 5 0) 52 12 = 0) && decide (bitsN (w.getD 7 0) 0 32 = 0)

/-- W0 without the fields that differ by generation. -/
def descW0 (d : Desc) : Nat :=
  d.base + (d.fmt <<< 48) + (d.space <<< 52) + (d.rmode <<< 54) + (b2n d.valid <<< 57) + (b2n d.lvEn <<< 58) +
  (b2n d.lvBlk <<< 59) + (b2n d.scaleSrc <<< 60) + (b2n d.mxAxis <<< 61) + (d.gen <<< 62)

/-- The 60 bytes of an entry before CHECK. -/
def descBody (d : Desc) : List Byte :=
  if d.gen = 3 then
    let h := histBits 4 d.hist
    natLe 8 (descW0 d) ++ natLe 8 (d.n0 + (d.n1 <<< 24) + (d.n3 <<< 48)) ++
    natLe 8 (d.n2 + (d.blkLog2 <<< 24) + (d.maskMode <<< 28) + (b2n d.maskFill <<< 30) + (b2n d.winEn <<< 31) +
      ((d.moff % 2 ^ 24).toNat <<< 32) + (d.hrun <<< 56)) ++
    natLe 8 (d.s1 + (d.sb <<< 36)) ++ natLe 8 (d.s2 + (d.window <<< 36)) ++
    natLe 8 (d.s3 + (d.hptr <<< 36) + (b2n d.hnf <<< 40) + (d.href <<< 41) + (d.hstep <<< 49)) ++
    natLe 8 (d.scale + (bitsN h 0 32 <<< 32)) ++ natLe 4 (bitsN h 32 32)
  else
    natLe 8 (descW0 d) ++ natLe 8 (d.n0 + (d.n1 <<< 24) + (d.n2 <<< 48)) ++ natLe 8 d.s1 ++ natLe 8 d.s2 ++
    natLe 8 (d.window + (b2n d.winEn <<< 28)) ++
    natLe 8 (d.scale + (d.hrun <<< 32) + (d.hstep <<< 40) + (d.hptr <<< 48) + (b2n d.hnf <<< 51)) ++
    natLe 8 (histBits 8 d.hist) ++ natLe 4 0

/-- The 64 bytes of an entry, CHECK recomputed (R72). -/
def descBytes (d : Desc) : List Byte :=
  let b := descBody d
  b ++ natLe 4 (crc32c b).toNat

/-! ### Element positions (R63, R65, R68) -/

/-- Byte and bit of position `j` in a run of elements (R63). -/
def elemPos (fmt j : Nat) : Nat × Nat :=
  match fmt with
  | 0 => (4 * j, 0)
  | 1 => (2 * j, 0)
  | 6 => (3 * (j / 4) + 6 * (j % 4) / 8, 6 * (j % 4) % 8)
  | 7 => (3 * (j / 4) + 6 * (j % 4) / 8, 6 * (j % 4) % 8)
  | 8 => (j / 2, 4 * (j % 2))
  | _ => (j, 0)

/-- Element coordinates. -/
structure Coord where
  x0 : Nat
  x1 : Nat
  x2 : Nat
  x3 : Nat
  deriving DecidableEq, Repr

/-- The byte address and bit of an element (R63). -/
def elemAddr (d : Desc) (x : Coord) : Nat × Nat :=
  let p :=
    if d.blkLog2 = 0 then elemPos d.fmt x.x0
    else
      let q := elemPos d.fmt (x.x0 % 2 ^ d.blkLog2)
      (q.1 + (x.x0 >>> d.blkLog2) * d.sb, q.2)
  (d.base + p.1 + x.x1 * d.s1 + x.x2 * d.s2 + x.x3 * d.s3, p.2)

/-- One past the byte that holds the last bit of an element. -/
def elemEnd (d : Desc) (x : Coord) : Nat :=
  let a := elemAddr d x
  a.1 + (a.2 + fmtBits d.fmt - 1) / 8 + 1

/-- ceil(a / b). -/
def ceilDiv (a b : Nat) : Nat := (a + b - 1) / b

/-- Number of elements. -/
def elemCount (d : Desc) : Nat := d.n0 * d.n1 * d.n2 * d.n3

/-- The address of the scale byte of an element's block (R68). -/
def scaleAddr (d : Desc) (x : Coord) : Nat :=
  d.base + d.scale +
  (if d.mxAxis then x.x0 + d.n0 * (x.x1 / 32 + ceilDiv d.n1 32 * (x.x2 + d.n2 * x.x3))
   else x.x0 / 32 + ceilDiv d.n0 32 * (x.x1 + d.n1 * (x.x2 + d.n2 * x.x3)))

/-- Bytes of the scale array (R68). -/
def scaleCount (d : Desc) : Nat :=
  if d.mxAxis then d.n0 * (ceilDiv d.n1 32 * (d.n2 * d.n3)) else ceilDiv d.n0 32 * (d.n1 * (d.n2 * d.n3))

/-- The address limit of a space (R61). -/
def spaceLimit (space : Nat) : Nat :=
  match space with
  | 0 => 2 ^ 48
  | 1 => spadSize
  | _ => sillSize

/-- The end of the footprint of a non-empty descriptor (R65). -/
def footprintEnd (d : Desc) : Nat :=
  let last := elemEnd d { x0 := d.n0 - 1, x1 := d.n1 - 1, x2 := d.n2 - 1, x3 := d.n3 - 1 }
  if d.blkLog2 > 0 && decide (2 ^ d.blkLog2 < d.n0) then
    let x := 2 ^ d.blkLog2 * (ceilDiv d.n0 (2 ^ d.blkLog2) - 1) - 1
    max last (elemEnd d { x0 := x, x1 := d.n1 - 1, x2 := d.n2 - 1, x3 := d.n3 - 1 })
  else last

/-- Check 4 of R58: the footprint and the scale array lie inside the space (R65). -/
def footprintOk (d : Desc) : Bool :=
  if elemCount d = 0 then true
  else
    decide (footprintEnd d ≤ spaceLimit d.space) &&
    (if isMx d.fmt then decide (d.base + d.scale + scaleCount d ≤ spaceLimit d.space) else true)

/-- The alignment rules of R64, but for the one on destinations. -/
def alignOk (d : Desc) : Bool :=
  let m := if d.fmt = 0 then 4 else if d.fmt = 1 then 2 else 1
  decide (d.base % m = 0) && decide (d.s1 % m = 0) && decide (d.s2 % m = 0) && decide (d.s3 % m = 0) &&
  decide (d.sb % m = 0) &&
  (if d.fmt = 6 || d.fmt = 7 then decide (d.blkLog2 ≠ 1) else true) &&
  (if d.winEn then decide (d.maskMode = 0) && decide (d.blkLog2 = 0) else true) &&
  (if isMx d.fmt && d.mxAxis then decide (d.blkLog2 = 0) else true)

/-- Check 3 of R58 but for reserved bits: VALID, reserved encodings, the limits of R61 and R64. -/
def fieldsOk (d : Desc) : Bool :=
  d.valid && decide (d.fmt ≤ 9) && decide (d.space ≠ 3) && decide (d.rmode ≤ 4) && decide (d.maskMode ≠ 3) &&
  (if d.space = 2 then decide (d.fmt = 0) else true) &&
  (if d.lvBlk then isMx d.fmt else true) &&
  (if d.mxAxis then isMx d.fmt else true) &&
  (if d.maskFill then decide (d.fmt ≤ 1) else true) &&
  (if d.fmt ≤ 1 then decide (d.scale = 0) else true) &&
  alignOk d

/-- A fill: the checks of R58 in order on the 64 bytes of an entry. The error is the status. -/
def descFill (bs : List Byte) : Except Nat Desc :=
  let w := descWords bs
  if crc32c (bs.take 60) ≠ w32 (leNat (bs.drop 60)) then .error stBadDescCrc
  else
    let gen := bitsN (w.getD 0 0) 62 2
    if gen ≠ 2 && gen ≠ 3 then .error stBadDescGen
    else
      let d := if gen = 3 then descOf3 w else descOf2 w
      if !(descReservedOk gen w && fieldsOk d) then .error stBadDesc
      else if !footprintOk d then .error stBadDesc
      else .ok d

/-! ### Logical order, masks, windows -/

/-- The linear index of an element (R62). -/
def linIndex (d : Desc) (x : Coord) : Nat := x.x0 + d.n0 * (x.x1 + d.n1 * (x.x2 + d.n2 * x.x3))

/-- The coordinates of a linear index (R62). -/
def coordOf (d : Desc) (i : Nat) : Coord :=
  { x0 := i % d.n0, x1 := i / d.n0 % d.n1, x2 := i / d.n0 / d.n1 % d.n2, x3 := i / d.n0 / d.n1 / d.n2 }

/-- Do the coordinates lie inside the extents (R66)? -/
def inExtents (d : Desc) (x : Coord) : Bool :=
  decide (x.x0 < d.n0) && decide (x.x1 < d.n1) && decide (x.x2 < d.n2) && decide (x.x3 < d.n3)

/-- Does MASKMODE exclude the element (R61, R67)? -/
def masked (d : Desc) (x : Coord) : Bool :=
  match d.maskMode with
  | 1 => !decide ((x.x0 : Int) ≤ (x.x1 : Int) + d.moff)
  | 2 => !decide ((x.x1 : Int) + d.moff ≤ (x.x0 : Int))
  | _ => false

/-- A field of WINDOW (R69): the stored value. -/
def winFld (d : Desc) (lo len : Nat) : Nat := bitsN d.window lo len

/-- Output width of the patch view (R70); 0 or less gives no rows. -/
def winOw (d : Desc) : Int :=
  ((d.n1 : Int) + winFld d 20 2 + winFld d 22 2 - (winFld d 14 3 + 1 : Nat) * (winFld d 0 4 : Nat) - 1) /
    ((winFld d 8 3 + 1 : Nat) : Int) + 1

/-- Output height of the patch view (R70). -/
def winOh (d : Desc) : Int :=
  ((d.n2 : Int) + winFld d 24 2 + winFld d 26 2 - (winFld d 17 3 + 1 : Nat) * (winFld d 4 4 : Nat) - 1) /
    ((winFld d 11 3 + 1 : Nat) : Int) + 1

/-- Rows of the patch matrix. -/
def patchRows (d : Desc) : Nat := (winOw d).toNat * (winOh d).toNat * d.n3

/-- Columns of the patch matrix: C × KW × KH. -/
def patchCols (d : Desc) : Nat := d.n0 * (winFld d 0 4 + 1) * (winFld d 4 4 + 1)

/-- The element of a row and column of the patch matrix; none is padding (R70). -/
def patchCoord (d : Desc) (row k : Nat) : Option Coord :=
  let kwN := winFld d 0 4 + 1
  let c := k % d.n0
  let kw := k / d.n0 % kwN
  let kh := k / (d.n0 * kwN)
  let ow := row % (winOw d).toNat
  let oh := row / (winOw d).toNat % (winOh d).toNat
  let img := row / (winOw d).toNat / (winOh d).toNat
  let iw : Int := (ow * (winFld d 8 3 + 1) : Nat) - (winFld d 20 2 : Nat) + (kw * (winFld d 14 3 + 1) : Nat)
  let ih : Int := (oh * (winFld d 11 3 + 1) : Nat) - (winFld d 24 2 : Nat) + (kh * (winFld d 17 3 + 1) : Nat)
  if iw < 0 || decide ((d.n1 : Int) ≤ iw) || ih < 0 || decide ((d.n2 : Int) ≤ ih) then none
  else some { x0 := c, x1 := iw.toNat, x2 := ih.toNat, x3 := img }

end Sys2Proof.Machine
end

