-- ==== Sys2Proof/Machine/Except.lean ====
section
/-! DEFINITION. Exceptions to thread S, integrity events, interrupts, latch signals, and the states of a thread
(spec/09 R195, R223 to R228; spec/11 R252 to R255; spec/16 R391). -/

namespace Sys2Proof.Machine

/-- Is power domain `d` on and settled? -/
def State.domOn (s : State) (d : Nat) : Bool := s.pwr.on.getLsbD d

/-- A domain from `lo` to `lo + n - 1` that was left off (15 R357). -/
def State.leftOffIn (s : State) (lo n : Nat) : Bool := s.pwr.leftOff.any fun d => decide (lo ≤ d) && decide (d < lo + n)

/-- Are domains `lo` to `lo + n - 1` on and settled? -/
def State.domsOn (s : State) (lo n : Nat) : Bool := (List.range n).all fun i => s.domOn (lo + i)

/-- Does the Sill read zeros and drop writes: shuttered, or with a domain that is off, because it was left off or has not
settled yet (15 R357, R360)? -/
def State.sillDark (s : State) : Bool := s.pwr.shutSill || !s.domsOn 56 4

/-- Does the Transom? -/
def State.transomDark (s : State) : Bool := s.pwr.shutTransom || !s.domsOn 60 2

/-- Does a Lattice behave as shuttered, because a row band was left off? -/
def State.latDark (s : State) (l : Nat) : Bool := s.leftOffIn (8 * l) 8

/-- Does the scratchpad byte lie in a spare bank that was left off (04 R84, 17 R423)? -/
def State.bankDark (s : State) (a : Nat) : Bool :=
  let on (spare : Option (Fin 32)) (d : Nat) : Bool :=
    s.pwr.leftOff.contains d && match spare with
      | some b => decide (b.val = a / 128 % 32)
      | none => false
  on s.lt.applied.spare0 48 || on s.lt.applied.spare1 49

/-- A wake event while the core is parked (15 R369). -/
def State.wakeAsk (s : State) : State := if s.pwr.parked then { s with pwr := { s.pwr with waking := true } } else s

/-! ### GO bits (18 R429) -/

/-- The ERR bit beside a GO bit. -/
def State.setGoErr (s : State) (b : GoBit) (v : Bool) : State :=
  match b with
  | .frame => { s with frame := { s.frame with err := v } }
  | .dcache => { s with cr := { s.cr with dcErr := v } }
  | .replay => { s with rpl := { s.rpl with ctlErr := v } }
  | .ckpt => { s with rpl := { s.rpl with ckptErr := v } }
  | .abort => { s with cr := { s.cr with abErr := v } }
  | .hatch => s

/-- The ERR bit beside a GO bit. -/
def State.goErr (s : State) (b : GoBit) : Bool :=
  match b with
  | .frame => s.frame.err
  | .dcache => s.cr.dcErr
  | .replay => s.rpl.ctlErr
  | .ckpt => s.rpl.ckptErr
  | .abort => s.cr.abErr
  | .hatch => false

/-- Has Belore cleared the bit in this cycle, so that a write of it is ignored? -/
def State.goIgnored (s : State) (b : GoBit) : Bool := s.time.now.cleared.contains b

/-- A GO that finds an operation of its register under way sets ERR, unless the operation ends in this cycle. -/
def State.goRefused (s : State) (b : GoBit) : State :=
  let s := if s.goErr b then s
    else { s with time := { s.time with now := { s.time.now with erred := b :: s.time.now.erred } } }
  s.setGoErr b true

/-- An operation has ended: Belore clears its bit, and a write of GO in this cycle has no effect. -/
def State.goCleared (s : State) (b : GoBit) : State :=
  let s := if s.time.now.erred.contains b then s.setGoErr b false else s
  { s with time := { s.time with now := { s.time.now with cleared := b :: s.time.now.cleared } } }

/-- Sets a bit of IRQ_STAT (14 R342). -/
def State.irqSet (s : State) (bit : Nat) : State :=
  { s with hinge := { s.hinge with irqStat := s.hinge.irqStat ||| BitVec.ofNat 13 (2 ^ bit) } }

/-- What an exception record says (R223). -/
structure ExcInfo where
  cause : Nat
  thread : Nat
  ctx : Nat
  status : Nat
  queue : Nat
  bel : Bool
  pc : BitVec 48
  info : Word
  deriving DecidableEq, Repr

/-- The words of a record (R223); EXC3 is CYCLE. -/
def excRecord (cycle : Word) (i : ExcInfo) : ExcRec :=
  { w0 := w64 (i.cause % 256 + ((i.thread % 4) <<< 8) + ((i.ctx % 2) <<< 10) + ((i.status % 256) <<< 11) +
      ((i.queue % 16) <<< 19) + (b2n i.bel <<< 23))
    w1 := i.pc.zeroExtend 64
    w2 := i.info
    w3 := cycle }

/-- The place of a record among those of one cycle (R226): threads in order, then Belore, then HOST_COMMAND. -/
def ExcRec.rank (r : ExcRec) : Nat :=
  if bitsN r.w0.toNat 0 8 = 0x11 then 5 else if r.w0.getLsbD 23 then 4 else bitsN r.w0.toNat 8 2

/-- Puts a record among those of its cycle. -/
def excInsert (x : ExcRec) (l : List ExcRec) : List ExcRec :=
  match l with
  | [] => [x]
  | y :: r => if x.rank < y.rank then x :: y :: r else y :: excInsert x r

/-- Puts a record into the exception queue, among the records of the same cycle in the order of R226. In a full queue the
last of them in that order is dropped and counted in LOST. IRQ_STAT.EXC is set when a record enters (14 R344). -/
def State.excPush (s : State) (i : ExcInfo) : State :=
  let x := excRecord s.time.cycle i
  let q := s.sash.excq
  let n := q.length - s.time.now.recs
  let l := q.take n ++ excInsert x (q.drop n)
  let s := { s with time := { s.time with now := { s.time.now with recs := min s.time.now.recs q.length + 1 } } }
  if q.length < 16 then { s with sash := { s.sash with excq := l } }.irqSet 5
  else
    let s := { s with sash := { s.sash with excq := l.take 16, lost := satInc 16 s.sash.lost } }
    if l.take 16 = q then s else s.irqSet 5

/-! ### Integrity events (16 R391) -/

/-- The mechanism codes of INT_LOG0 (R408). -/
def mechResidue : Nat := 1
def mechLatLockstep : Nat := 2
def mechCasDup : Nat := 3
def mechPaneParity : Nat := 4
def mechSpad : Nat := 5
def mechSill : Nat := 6
def mechTransom : Nat := 7
def mechDmem : Nat := 8
def mechDescCrc : Nat := 9
def mechDcache : Nat := 10
def mechSashLockstep : Nat := 11
def mechNearMem : Nat := 12
def mechLouvre : Nat := 13
def mechControl : Nat := 14
def mechScrub : Nat := 15
def mechDouble : Nat := 16
def mechWatchdog : Nat := 17
def mechLatchPol : Nat := 18
def mechFlag : Nat := 19
def mechDomain : Nat := 20

/-- What an integrity event is attributed to (R389, R408). -/
structure EventInfo where
  mech : Nat
  causeBit : Nat
  stream : Nat
  ctx : Nat
  queue : Nat
  status : Nat
  detail : Option (BitVec 16)
  iseq : BitVec 32
  deriving DecidableEq, Repr

/-- An event of a mechanism and cause bit that no entry is attributed to. -/
def eventOf (mech causeBit : Nat) : EventInfo :=
  { mech := mech, causeBit := causeBit, stream := 0, ctx := 0, queue := 0, status := 0, detail := none, iseq := 0 }

/-- INT_LOG0 of an event. -/
def eventLog0 (i : EventInfo) (detail : BitVec 16) : Word :=
  w64 (i.mech % 32 + ((i.stream % 4) <<< 5) + ((i.ctx % 2) <<< 7) + ((i.queue % 16) <<< 8) +
    ((i.status % 256) <<< 12) + (detail.toNat <<< 20))

/-- The DETAIL of an event: what the check named, or a free value where the spec gives the field no layout for
the mechanism. Log entry 6. -/
def State.eventDetail (s : State) (d : Option (BitVec 16)) : BitVec 16 × State :=
  match d with
  | some x => (x, s)
  | none => (Config.freeDetail s.fresh, s.draw.2)

/-- Does an event of mechanism `mech` take INT_LOG: it is the first of its cycle, or none of a lower mechanism code has
come before it (R391)? -/
def State.logTakes (s : State) (mech : Nat) : Bool :=
  match s.time.now.logged with
  | none => true
  | some m => decide (mech ≤ m)

/-- An integrity event (R391): the log, INT_STAT with ALARM, IRQ_STAT, and the record to thread S while Sash is
on. Of two events of one cycle the log keeps the one with the lower mechanism code. -/
def State.integrity (s : State) (i : EventInfo) : State :=
  let d := s.eventDetail i.detail
  let s := d.2
  let log0 := eventLog0 i d.1
  let stat := s.int.stat ||| BitVec.ofNat 9 (2 ^ i.causeBit) ||| 0x100
  let takes := s.logTakes i.mech
  let s := { s with
    time := { s.time with now := { s.time.now with logged := if takes then some i.mech else s.time.now.logged } }
    int := { s.int with
      log0 := if takes then log0 else s.int.log0
      log1 := if takes then w64 (i.iseq.toNat + ((s.time.cycle.toNat % 2 ^ 32) <<< 32)) else s.int.log1
      stat := stat
      events := satInc 16 s.int.events } }
  let s := s.irqSet 10
  if s.domOn 72 then
    s.excPush { cause := 0x14, thread := 0, ctx := 0, status := 0, queue := 0, bel := true, pc := 0, info := log0 }
  else s

/-- A Class S detection attributed to an entry's stream, context, queue, status and ISEQ. -/
def State.classS (s : State) (mech : Nat) (e : Entry) (status : Nat) (detail : BitVec 16) : State :=
  s.integrity { mech := mech, causeBit := 0, stream := Thread.num e.stream, ctx := e.ctx, queue := e.queue,
                status := status, detail := some detail, iseq := e.iseq }

/-! ### Strikes (16 R377, R378) -/

/-- What the next check of a place meets. -/
def State.upsetAt (s : State) (k : Site) : Upset :=
  match s.int.strikes.find? fun x => x.site = k with
  | some x => x.upset
  | none => .clean

/-- A check has met the first strike of its place. -/
def State.struck (s : State) (k : Site) : State :=
  { s with int := { s.int with strikes := dropFirst (fun x => x.site = k) s.int.strikes } }

/-- A correction of class C (16 R376, R408). -/
def State.corrected (s : State) : State := { s with int := { s.int with ce := satInc 16 s.int.ce } }

/-- The ALARMFLAGS in force: AFLOOR of the Lintel store or the live Frame's field (17 R424). -/
def State.alarmMask (s : State) : Nat :=
  s.frame.fault.alarmFlags.toNat ||| (SMap.look s.lt.shadow LtRec.init 67).data.toNat % 16

/-- Reports raised flags that ALARMFLAGS selects (12 R273, 16 R391). -/
def State.alarmFlags (s : State) (f : Flags) (stream ctx queue : Nat) (iseq : BitVec 32) : State :=
  if (flags4 f &&& s.alarmMask) = 0 then s
  else s.integrity { mech := mechFlag, causeBit := 4, stream := stream, ctx := ctx, queue := queue, status := 0,
                     detail := none, iseq := iseq }

/-! ### Threads -/

/-- The state code of R195. -/
def TState.code (x : TState) : Nat :=
  match x with
  | .idle => 0
  | .run => 1
  | .latch => 2
  | .queue => 3
  | .memory => 4
  | .stopped => 5
  | .halted => 6

/-- Is the thread RUN? -/
def State.isRun (s : State) (t : Thread) : Bool := decide ((s.th t).state = .run)

/-- A wait in LATCH or QUEUE begins with its timer at 0 (11 R260). -/
def State.waitIn (s : State) (t : Thread) (st : TState) (w : Wait) : State :=
  s.modTh t fun x => { x with state := st, wait := w, timer := 0 }

/-- A wait in MEMORY, which is not timed (11 R260). -/
def State.waitMem (s : State) (t : Thread) (w : Wait) : State :=
  s.modTh t fun x => { x with state := .memory, wait := w }

/-- The thread goes to STOPPED. -/
def State.stopped (s : State) (t : Thread) : State :=
  s.modTh t fun x => { x with state := .stopped, wait := .none, stopAsked := false }

/-- The thread leaves a wait: to RUN, or to STOPPED when it was asked to stop at its next boundary (R213). -/
def State.wakeUp (s : State) (t : Thread) : State :=
  if (s.th t).stopAsked then s.stopped t
  else s.modTh t fun x => { x with state := .run, wait := .none }

/-- Stops a thread at its next instruction boundary (R213 TSTOP, R228, 11 R255). A thread in LATCH or QUEUE
abandons its wait, which runs again when the thread is restarted (16 R404); one in MEMORY stops when its access
completes. -/
def State.stopAtBoundary (s : State) (t : Thread) : State :=
  match (s.th t).state with
  | .run => s.stopped t
  | .latch => s.stopped t
  | .queue => s.stopped t
  | .memory => s.modTh t fun x => { x with stopAsked := true }
  | .idle => s
  | .stopped => s
  | .halted => s

/-- A parity error of a Mullion record, a latch count or a Frame plane: every thread but S stops at its next
instruction boundary, and every queue stops (16 R384, R388). -/
def State.controlParity (s : State) (detail : BitVec 16) : State :=
  let s := ((s.stopAtBoundary .F).stopAtBoundary .B).stopAtBoundary .U
  let s := { s with int := { s.int with qstop := 0x7FF } }
  s.integrity { eventOf mechControl 0 with detail := some detail }

/-- A parity error of a tracker record: Class S of core scope, which stops every queue (16 R384, R388). -/
def State.trackerParity (s : State) (d : BitVec 16) : State :=
  ({ s with int := { s.int with qstop := 0x7FF } }).integrity { eventOf mechControl 0 with detail := some d }

/-- A read or an update of a latch count or of a word of a Frame plane checks its parity (16 R384). The value is used as
it is held. -/
def State.parityCheck (s : State) (k : Site) : State :=
  match s.upsetAt k with
  | .clean => s
  | .corrected => s.struck k
  | .fatal d => (s.struck k).controlParity d

/-- A stopping exception (R224): the thread stops, the record names its pc, and in handler mode thread S goes to
HALTED with a double fault (R227). -/
def State.stopExc (s : State) (t : Thread) (cause status : Nat) (info : Word) (pc : BitVec 48) : State :=
  let i : ExcInfo := { cause := cause, thread := Thread.num t, ctx := (s.th t).ctx, status := status, queue := 0,
                       bel := false, pc := pc, info := info }
  if t = .S && s.sash.handler then
    let s := (s.excPush i).modTh .S fun x => { x with state := .halted, wait := .none, stopAsked := false }
    (s.irqSet 6).integrity { eventOf mechDouble 1 with stream := 3, ctx := (s.th .S).ctx }
  else (s.stopped t).excPush i

/-- ILLEGAL (R204, R205): stops at the instruction's pc. -/
def State.illegal (s : State) (t : Thread) : State := s.stopExc t 0x01 0 0 (s.th t).pc

/-- The state of a started context in a slot: a committed Frame whose context runs (12 R263). -/
def State.ctxStarted (s : State) (c : Nat) : Bool :=
  let p := s.plane c
  p.started && !p.finished

/-- The slot of the newest started context: the LIVE plane when its context has started, else the ENDING one
(R225). -/
def State.newestCtx (s : State) : Nat :=
  if s.frame.plane1.state = .live && s.ctxStarted 1 then 1
  else if s.frame.plane0.state = .live && s.ctxStarted 0 then 0
  else if s.ctxStarted 1 then 1 else 0

/-! ### Latches (spec/11) -/

/-- The count of latch k of a bank. -/
def State.latchCount (s : State) (bank k : Nat) : BitVec 8 := SMap.look s.latch.counts 0 (48 * bank + k)

/-- Sets a latch count. -/
def State.setLatch (s : State) (bank k : Nat) (v : BitVec 8) : State :=
  { s with latch := { s.latch with counts := SMap.put s.latch.counts 0 (48 * bank + k) v } }

/-- Where a latch event comes from: `kind` is the source of R255, or 5 for a consumption (16 R397). -/
structure SigSrc where
  kind : Nat
  thread : Thread
  queue : Nat
  pc : BitVec 48
  iseq : BitVec 32
  link : Nat
  deriving DecidableEq, Repr

/-- The LATCH journal word of an event (16 R397). -/
def latchWord (bank k : Nat) (src : SigSrc) : Word :=
  w64 (k % 64 + ((bank % 2) <<< 6) + ((src.kind % 8) <<< 7) + (Thread.num src.thread <<< 10) +
    ((src.link % 8) <<< 12) + (src.iseq.toNat <<< 16))

/-- Adds an accepted signal or a consumption to the latch arrival order of the bank's context (R254). Outside
replay it is what the next LATCH records of the journal hold; in replay it is compared with the journal's. -/
def State.latchEvent (s : State) (bank k : Nat) (src : SigSrc) : State :=
  match s.frameOf bank with
  | some f =>
    if f.journal then s.modPlane bank fun p => { p with jLatch := p.jLatch ++ [latchWord bank k src] } else s
  | none => s

/-- An overflow (R255): the record in LATCH_FAULT, the exception, and the action of LATCHPOL. -/
def State.latchOverflow (s : State) (bank k : Nat) (src : SigSrc) : State :=
  let s := { s with latch := { s.latch with
    fLatch := BitVec.ofNat 6 k, fBank := decide (bank = 1), fSource := BitVec.ofNat 3 src.kind,
    fCount := satInc 16 s.latch.fCount, fPend := true } }
  let local' := decide (src.kind ≤ 2)
  let s := s.excPush { cause := 0x12, thread := if local' then Thread.num src.thread else 0, ctx := bank, status := 0,
                       queue := 0, bel := !local', pc := if src.kind = 2 then src.pc else 0,
                       info := w64 (k % 64 + ((bank % 2) <<< 6) + ((src.kind % 8) <<< 7) +
                         (if src.kind ≤ 1 then (src.queue % 16) <<< 10 else 0)) }
  match s.frame.fault.latchPol with
  | 1 => if local' then s.stopAtBoundary src.thread else s
  | 2 =>
    let stop (s : State) (t : Thread) : State :=
      if (s.th t).ctx = bank && decide ((s.th t).state ≠ .idle) then s.stopAtBoundary t else s
    (stop (stop (stop s .F) .B) .U).integrity { eventOf mechLatchPol 3 with ctx := bank }
  | _ => s

/-- A signal (R252): it adds 1, or overflows at 255. It wakes a parked core (15 R369). The update checks the count's parity
(16 R384). -/
def State.latchSignal (s : State) (bank k : Nat) (src : SigSrc) : State :=
  let s := s.wakeAsk
  let n := s.latchCount bank k
  (if n = 255 then s.latchOverflow bank k src
  else (s.setLatch bank k (n + 1)).latchEvent bank k src).parityCheck .latch

/-- A consumption, when the count is at least 1 (R252). -/
def State.latchConsume (s : State) (bank k : Nat) (src : SigSrc) : State :=
  (s.setLatch bank k (s.latchCount bank k - 1)).latchEvent bank k { src with kind := 5 }

end Sys2Proof.Machine
end

