-- ==== Sys2Proof/Machine/Groups.lean ====
section
/-! DEFINITION. The group table and the group state of a context, and their view in the data space of Sash
(spec/08 R169, R192; spec/09 R199). -/

namespace Sys2Proof.Machine

/-- Word j of group entry g of the context's UPDATE section (R169); zero without one. -/
def State.groupEntry (s : State) (ctx g j : Nat) : Word :=
  match s.frameOf ctx with
  | some f =>
    match f.update with
    | some u => (SMap.look u.groups [] g).getD j 0
    | none => 0
  | none => 0

/-- The state of a group. -/
def State.groupState (s : State) (ctx g : Nat) : GroupState := SMap.look (s.plane ctx).groups GroupState.init g

/-- Replaces the state of a group. -/
def State.setGroup (s : State) (ctx g : Nat) (v : GroupState) : State :=
  s.modPlane ctx fun p => { p with groups := SMap.put p.groups GroupState.init g v }

/-- A field of group entry word G0. -/
def State.g0 (s : State) (ctx g lo len : Nat) : Nat := bitsN (s.groupEntry ctx g 0).toNat lo len

/-- Is the group in use (R169)? -/
def State.groupValid (s : State) (ctx g : Nat) : Bool := s.g0 ctx g 0 1 = 1

/-- The UPD_GROUP word of a group (R192). -/
def groupWord (x : GroupState) : Word :=
  w64 (x.step.toNat + (b2n x.rootFail <<< 32) + (b2n x.fallback <<< 33) + ((x.lastIt % 32) <<< 40) +
    ((x.fails % 65536) <<< 48))

/-- UPD_NORM_STAT (R192). -/
def normStatWord (n : Norm) : Word := w64 (n.step.toNat + ((n.state % 4) <<< 32))

/-- Double-word i of the group-table window (09 R199). -/
def State.groupWindow (s : State) (ctx i : Nat) : Word :=
  let n := (s.plane ctx).norm
  if i < 2048 then s.groupEntry ctx (i / 8) (i % 8)
  else if i < 2304 then groupWord (s.groupState ctx (i - 2048))
  else match i - 2304 with
    | 0 => normStatWord n
    | 1 => n.sum
    | _ => n.kappa

end Sys2Proof.Machine
end

