-- ==== Sys2Proof/Machine/Jamb.lean ====
section
/-! DEFINITION. Requests of the memory port and the request tracker (spec/14 R325 to R332), the instruction cache
(spec/09 R201 to R203) and the descriptor cache (spec/03 R71 to R75). -/

namespace Sys2Proof.Machine

/-! ### Forming requests -/

/-- The pool of a client (R329). -/
def Client.pool (c : Client) : Pool :=
  match c with
  | .descFill => .control
  | .descWriteback => .control
  | .ifetch => .control
  | .mldMst => .control
  | .record => .control
  | .staging => .control
  | .cmpl => .control
  | .sink => .sink
  | .transfer => .general
  | .nearMem => .general
  | .journal => .general

/-- The code of a client in JAMB_FAULT (R344). -/
def Client.code (c : Client) : Nat :=
  match c with
  | .descFill => 0
  | .descWriteback => 1
  | .ifetch => 2
  | .mldMst => 3
  | .record => 4
  | .staging => 5
  | .cmpl => 6
  | .transfer => 7
  | .nearMem => 8
  | .sink => 9
  | .journal => 10

/-- The order of the pools in R330. -/
def Pool.rank (p : Pool) : Nat :=
  match p with
  | .control => 0
  | .sink => 1
  | .general => 2

/-- A read of sectors of a block. -/
def readReq (o : Owner) (c : Client) (block : Nat) (smask : BitVec 8) : JReq :=
  { owner := o, client := c, pool := c.pool, write := false, block := block, smask := smask, cells := [],
    held := false, hold := 0, age := 0, keep := none }

/-- A write of bytes of one block; `held` puts it under the egress hold of 16 R386. -/
def writeReq (o : Owner) (c : Client) (held : Bool) (keep : Option Nat) (block : Nat) (cells : List Host.Cell) :
    JReq :=
  { owner := o, client := c, pool := c.pool, write := true, block := block, smask := 0, cells := cells,
    held := held, hold := if held then 40 else 0, age := 0, keep := keep }

/-- Makes requests ready, in order. -/
def State.jambAdd (s : State) (rs : List JReq) : State := { s with jamb := { s.jamb with reqs := s.jamb.reqs ++ rs } }

/-- The sectors of a block that bytes touch. -/
def sectorMask (as : List Nat) : BitVec 8 :=
  as.foldl (fun m a => m ||| BitVec.ofNat 8 (2 ^ (a % 256 / 32))) 0

/-- Puts a number into an ascending list without repeats. -/
def insertNat (x : Nat) (l : List Nat) : List Nat :=
  match l with
  | [] => [x]
  | y :: r => if x < y then x :: y :: r else if x = y then y :: r else y :: insertNat x r

/-- Blocks in ascending order without repeats. -/
def blocksOf (as : List Nat) : List Nat := as.foldl (fun l a => insertNat (a / 256) l) []

/-- The reads that gather the bytes at a list of addresses. -/
def readReqs (o : Owner) (c : Client) (as : List Nat) : List JReq :=
  (blocksOf as).map fun b => readReq o c b (sectorMask (as.filter fun a => a / 256 = b))

/-- The reads that gather `n` consecutive bytes. -/
def readRange (o : Owner) (c : Client) (a n : Nat) : List JReq :=
  if n = 0 then []
  else
    (List.range ((a + n - 1) / 256 - a / 256 + 1)).map fun i =>
      let b := a / 256 + i
      readReq o c b (BitVec.ofNat 8 ((List.range 8).foldl (fun m j =>
        if decide (256 * b + 32 * j < a + n) && decide (a < 256 * b + 32 * j + 32) then m + 2 ^ j else m) 0))

/-- Cells in the blocks they belong to, each block in ascending order. -/
def cellBlocks (cs : List Host.Cell) : List (Nat × List Host.Cell) :=
  (blocksOf (cs.map fun c => c.1)).map fun b => (b, cs.filter fun c => c.1 / 256 = b)

/-- The writes of a list of cells. -/
def writeReqs (o : Owner) (c : Client) (held : Bool) (cs : List Host.Cell) : List JReq :=
  (cellBlocks cs).map fun b => writeReq o c held none b.1 b.2

/-- The cells of consecutive bytes. -/
def cellsAt (a : Nat) (bs : List Byte) : List Host.Cell :=
  match bs with
  | [] => []
  | b :: r => (a, b) :: cellsAt (a + 1) r

/-- Puts a byte into a list of cells in ascending order; a zero byte stays listed, since it is written. -/
def cellPut (cs : List Host.Cell) (a : Nat) (b : Byte) : List Host.Cell :=
  match cs with
  | [] => [(a, b)]
  | (k, w) :: r => if a < k then (a, b) :: (k, w) :: r else if a = k then (a, b) :: r else (k, w) :: cellPut r a b

/-! ### The request tracker (R328 to R331) -/

/-- Does the request touch half h of its block? -/
def JReq.touches (r : JReq) (h : Nat) : Bool :=
  if r.write then r.cells.any fun c => c.1 % 256 / 128 = h
  else (List.range 4).any fun i => r.smask.getLsbD (4 * h + i)

/-- Two requests that may not be outstanding together (R328). -/
def reqsConflict (a b : JReq) : Bool :=
  decide (a.block = b.block) && (a.write || b.write) && ((a.touches 0 && b.touches 0) || (a.touches 1 && b.touches 1))

/-- The thread of an MLD or MST. -/
def JReq.scalar (r : JReq) : Option Thread :=
  match r.owner with
  | .mld t _ _ => some t
  | .mst t _ => some t
  | _ => none

/-- One thread's MLDs and MSTs are performed in program order (R211). -/
def sameScalar (a b : JReq) : Bool :=
  match a.scalar, b.scalar with
  | some t, some u => decide (t = u)
  | _, _ => false

/-- Must `b` wait for `a`? -/
def mustWait (a b : JReq) : Bool := reqsConflict a b || sameScalar a b

/-- Tags of a pool in use: outstanding, held, or quarantined (R329, R331). -/
def State.poolUsed (s : State) (p : Pool) : Nat :=
  (s.jamb.tags.filter fun t => t.req.pool = p).length + (if p = .general then s.jamb.heldTags.length else 0) +
  (s.jamb.quarantine.filter fun t => t.2 = p).length

/-- Tags of a pool (R329). -/
def State.poolSize (s : State) (p : Pool) : Nat :=
  match p with
  | .control => 256
  | .sink => 1024
  | .general => s.frame.jambTags - 1280

/-- Descriptor fills outstanding (03 R71). -/
def State.fillsOut (s : State) : Nat := (s.jamb.tags.filter fun t => t.req.client = .descFill).length

/-- A fill that misses during a flush of the same set waits until the flush completes (03 R75). -/
def State.fillBlocked (s : State) (r : JReq) : Bool :=
  match r.owner with
  | .fill _ h =>
    decide (32 ≤ s.fillsOut) ||
    ((s.jamb.tags.map fun t => t.req) ++ s.jamb.reqs).any (fun q => match q.owner with
      | .writeback _ g => decide (g % 1024 = h % 1024)
      | _ => false)
  | _ => false

/-- May the tag be used: one of Jamb's, and neither outstanding, held nor quarantined (R329, R331)? -/
def State.tagFree (s : State) (tag : Nat) : Bool :=
  decide (tag < s.frame.jambTags) && !(s.jamb.tags.any fun t => t.tag = tag) && !s.jamb.heldTags.contains tag &&
  !(s.jamb.quarantine.any fun t => t.1 = tag)

/-- May the request be issued, with the earlier waiting requests `before`? -/
def State.reqReady (s : State) (before : List JReq) (r : JReq) : Bool :=
  !r.held && !(s.jamb.tags.any fun t => mustWait t.req r) && !(before.any fun q => mustWait q r) &&
  !s.fillBlocked r && (r.keep.isSome || decide (s.poolUsed r.pool < s.poolSize r.pool))

/-- The positions of the requests that may be issued. -/
def State.readyReqs (s : State) : List (Nat × JReq) :=
  (s.jamb.reqs.zipIdx.filter fun p => s.reqReady (s.jamb.reqs.take p.2) p.1).map fun p => (p.2, p.1)

/-- The ages of requests count thousandths of a JB_CLK cycle since the request became ready, which one under the egress hold
is not yet; 64 cycles make a request go first (R330). -/
def agedAt : Nat := 64000

/-- The request that Jamb issues next (R330): the longest waiter of those that waited 64 cycles, else by pool and
readiness. -/
def State.nextReq (s : State) : Option (Nat × JReq) :=
  let rs := s.readyReqs
  match rs.find? fun p => decide (agedAt ≤ p.2.age) with
  | some p => some p
  | none =>
    match rs.find? fun p => decide (p.2.pool = .control) with
    | some p => some p
    | none =>
      match rs.find? fun p => decide (p.2.pool = .sink) with
      | some p => some p
      | none => rs.head?

/-- Records a Jamb error (R332, R344). -/
def State.jambFault (s : State) (r : JReq) (cause : Nat) : State :=
  ({ s with jamb := { s.jamb with
    faultAddr := BitVec.ofNat 48 (256 * r.block), faultCause := BitVec.ofNat 3 cause,
    faultClient := BitVec.ofNat 4 r.client.code, faultCount := satInc 8 s.jamb.faultCount,
    faultPend := true } }).irqSet 9

/-! ### Instruction fetch (09 R201 to R203) -/

/-- Puts a line in front of the recency order and keeps at most four lines of its set (R201). -/
def icPut (c : List (Nat × List Byte)) (line : Nat) (data : List Byte) : List (Nat × List Byte) :=
  let rest := c.filter fun e => e.1 ≠ line
  let same := rest.filter fun e => e.1 % 128 = line % 128
  let keep := (same.take 3).map fun e => e.1
  (line, data) :: rest.filter fun e => e.1 % 128 ≠ line % 128 || keep.contains e.1

/-- Has the thread a miss outstanding? -/
def State.fetchOut (s : State) (t : Thread) : Bool :=
  let is (r : JReq) : Bool := match r.owner with
    | .ifetch u _ => decide (u = t)
    | _ => false
  s.jamb.reqs.any is || s.jamb.tags.any fun g => is g.req

/-- The 128-byte read of a line; `again` says that the line is fetched a second time (R202). -/
def fetchReq (t : Thread) (again : Bool) (line : Nat) : JReq :=
  readReq (.ifetch t again) .ifetch (line / 2) (if line % 2 = 0 then 0x0F else 0xF0)

/-- The thread waits in MEMORY for a line, which is asked for unless a miss of the thread is outstanding already: then it is
asked for behind that one (R201). -/
def State.fetchAsk (s : State) (t : Thread) (again : Bool) (line : Nat) : State :=
  let s := (s.waitMem t .fetch).modTh t fun x => { x with fetchLine := line }
  if s.fetchOut t then s else s.jambAdd [fetchReq t again line]

/-- Counts a line that is fetched again (R202, R230). -/
def State.refetched (s : State) : State := { s with sash := { s.sash with icRefetch := satInc 16 s.sash.icRefetch } }

/-- A thread that is RUN fetches a word of a line: a hit makes the line the most recent, a miss makes one 128-byte read. A word
that SECDED finds uncorrectable on a hit makes the line invalid, and it is fetched again (R202). -/
def State.fetchAt (s : State) (t : Thread) (line : Nat) : State :=
  if !s.isRun t then s
  else match s.sash.icache.find? fun e => e.1 = line with
    | some e =>
      let hit (s : State) : State := { s with sash := { s.sash with icache := icPut s.sash.icache line e.2 } }
      match s.upsetAt .icache with
      | .clean => hit s
      | .corrected => (hit s).corrected.struck .icache
      | .fatal _ =>
        let s := { s with sash := { s.sash with icache := s.sash.icache.filter fun x => x.1 ≠ line } }
        ((s.struck .icache).refetched).fetchAsk t true line
    | none => s.fetchAsk t false line

/-- Fetches the next instruction of a thread that is RUN. -/
def State.fetchNext (s : State) (t : Thread) : State := s.fetchAt t ((s.th t).pc.toNat / 128)

/-- Sends a thread to an address. -/
def State.goto (s : State) (t : Thread) (pc : BitVec 48) : State :=
  (s.modTh t fun x => { x with pc := pc }).fetchNext t

/-- Completes an instruction of `n` bytes. -/
def State.advance (s : State) (t : Thread) (n : Nat) : State := s.goto t ((s.th t).pc + BitVec.ofNat 48 n)

/-- Completes an instruction that waited: the thread leaves its wait and goes on behind it. -/
def State.resume (s : State) (t : Thread) (n : Nat) : State :=
  let s := s.modTh t fun x => { x with pc := x.pc + BitVec.ofNat 48 n }
  (s.wakeUp t).fetchNext t

/-- Runs a waiting instruction again: the thread leaves its wait at the same pc. -/
def State.retry (s : State) (t : Thread) : State := (s.wakeUp t).fetchNext t

/-! ### The descriptor cache (03 R71 to R75) -/

/-- The cached entry of a handle. -/
def State.dcFind (s : State) (ctx h : Nat) : Option DcEntry := s.dcache.find? fun e => e.ctx = ctx && e.handle = h

/-- Makes an entry the most recent of its set. R71 does not say which accesses count as a use: the model counts every
access that finds the entry, which are a resolution by a thread, the resolution of a packet's handle, the read of Louvre state
at a start, and a Louvre commit (log entry 45). -/
def State.dcTouch (s : State) (ctx h : Nat) : State :=
  match s.dcFind ctx h with
  | some e => { s with dcache := e :: s.dcache.filter fun x => !(x.ctx = ctx && x.handle = h) }
  | none => s

/-- The address of a handle's entry in its context's table (R56). -/
def State.descAddr (s : State) (ctx h : Nat) : Nat :=
  match s.frameOf ctx with
  | some f => f.dtBase + 64 * h
  | none => 0

/-- DT_COUNT of a context. -/
def State.descCount (s : State) (ctx : Nat) : Nat :=
  match s.frameOf ctx with
  | some f => f.dtCount
  | none => 0

/-- The write-back of a dirty entry (R72). -/
def State.dcWriteback (s : State) (e : DcEntry) : State :=
  s.jambAdd (writeReqs (.writeback e.ctx e.handle) .descWriteback false
    (cellsAt (s.descAddr e.ctx e.handle) (descBytes e.desc)))

/-- Places a filled entry in its set of 8 ways; the least recent entry leaves, and is written back when dirty
(R71, R72). -/
def State.dcInsert (s : State) (ctx h : Nat) (d : Desc) : State :=
  let same := s.dcache.filter fun e => e.handle % 1024 = h % 1024
  let s :=
    if same.length < 8 then s
    else
      match same.getLast? with
      | some v =>
        let s := { s with dcache := s.dcache.filter fun x => !(x.ctx = v.ctx && x.handle = v.handle) }
        if v.dirty then s.dcWriteback v else s
      | none => s
  { s with dcache := { ctx := ctx, handle := h, desc := d, dirty := false } :: s.dcache }

/-- Updates the Louvre fields of a cached entry, which becomes dirty and the most recent (R71, R72). -/
def State.dcUpdate (s : State) (ctx h : Nat) (d : Desc) : State :=
  let isIt (e : DcEntry) : Bool := e.ctx = ctx && e.handle = h
  { s with dcache := updFirst isIt (fun e => { e with desc := d, dirty := true }) s.dcache }.dcTouch ctx h

/-- The cached entry of a handle as a reader meets it (R71, 16 R378): SECDED corrects one bit. An entry that it cannot correct
is a Class S detection of mechanism 10; it is invalidated, and read from the table again. -/
def State.dcRead (s : State) (ctx h : Nat) : State × Option DcEntry :=
  match s.dcFind ctx h with
  | none => (s, none)
  | some e =>
    match s.upsetAt .dcache with
    | .clean => (s.dcTouch ctx h, some e)
    | .corrected => (((s.struck .dcache).corrected).dcTouch ctx h, some e)
    | .fatal d =>
      let s := { s with dcache := s.dcache.filter fun x => !(x.ctx = ctx && x.handle = h) }
      ((s.struck .dcache).integrity { eventOf mechDcache 0 with ctx := ctx, detail := some d }, none)

/-- Drops the fills of a context that ends: one that waits is not issued, and the answer of one that is outstanding reaches
nobody (R74). -/
def State.fillsDrop (s : State) (ctx : Nat) : State :=
  let is (r : JReq) : Bool := match r.owner with
    | .fill c _ => decide (c = ctx)
    | _ => false
  { s with jamb := { s.jamb with
    reqs := s.jamb.reqs.filter fun r => !is r
    tags := s.jamb.tags.map fun g => if is g.req then { g with req := { g.req with owner := .dropped } } else g } }

/-- Is a fill of the handle waiting or outstanding? -/
def State.fillPending (s : State) (ctx h : Nat) : Bool :=
  let is (r : JReq) : Bool := decide (r.owner = .fill ctx h)
  s.jamb.reqs.any is || s.jamb.tags.any fun t => is t.req

/-- Asks for a fill, unless one is on its way (R58, R71). -/
def State.fillAsk (s : State) (ctx h : Nat) : State :=
  if s.fillPending ctx h then s
  else s.jambAdd (readRange (.fill ctx h) .descFill (s.descAddr ctx h) 64)

/-- Records a refusal or a failed fill in DESC_FAULT (R59). -/
def State.descFault (s : State) (ctx h status : Nat) : State :=
  s.modCr fun r => { r with
    dfHandle := BitVec.ofNat 20 h, dfCtx := decide (ctx = 1), dfCode := BitVec.ofNat 3 status,
    dfCount := satInc 16 r.dfCount, dfPend := true }

/-- Is a write-back of an entry waiting or outstanding? With no handle, of any entry of the context. -/
def State.wbPending (s : State) (ctx : Nat) (h : Option Nat) : Bool :=
  let is (r : JReq) : Bool :=
    match r.owner with
    | .writeback c g => decide (c = ctx) && (match h with
      | some x => decide (x = g)
      | none => true)
    | _ => false
  s.jamb.reqs.any is || s.jamb.tags.any fun t => is t.req

/-- Flushes one handle: writes the entry back if dirty and invalidates it (R73). -/
def State.dcFlush (s : State) (ctx h : Nat) : State :=
  match s.dcFind ctx h with
  | none => s
  | some e =>
    let s := { s with dcache := s.dcache.filter fun x => !(x.ctx = ctx && x.handle = h) }
    if e.dirty then s.dcWriteback e else s

/-- Writes back the dirty entries of a context; they stay, clean (16 R404). -/
def State.dcClean (s : State) (ctx : Nat) : State :=
  let dirty := s.dcache.filter fun e => e.ctx = ctx && e.dirty
  let s := { s with dcache := s.dcache.map fun e => if e.ctx = ctx then { e with dirty := false } else e }
  dirty.foldl State.dcWriteback s

/-- Flushes every entry of a context (R73, R74). -/
def State.dcFlushAll (s : State) (ctx : Nat) : State :=
  let s := s.dcClean ctx
  { s with dcache := s.dcache.filter fun e => e.ctx ≠ ctx }

end Sys2Proof.Machine
end

