-- ==== Sys2Proof/Machine/Hold.lean ====
section
/-! DEFINITION. The egress hold (spec/16 R386): requests and packets that carry bytes of the scratchpad, and their
withdrawal when a Class S fault of the Casement, the Panes or Sash is detected. -/

namespace Sys2Proof.Machine

/-- Marks an entry that a fault reached: its first fault status stays. -/
def Entry.fail (e : Entry) (status : Nat) : Entry := { e with errStatus := if e.errStatus = 0 then status else e.errStatus }

/-- Ends a checkpoint operation with its RESULT (R408). -/
def State.ckptDone (s : State) (result : Nat) : State :=
  let s := if s.rpl.ckptBusy then s.goCleared .ckpt else s
  { s with rpl := { s.rpl with ckptResult := BitVec.ofNat 8 result, ckptBusy := false, ckptStage := 0, ckptBuf := [] } }

/-- Ends the save of a checkpoint when its last write has been answered. -/
def State.ckptSettle (s : State) : State :=
  if s.rpl.ckptStage = 2 && s.rpl.ckptOut = 0 then s.ckptDone (if s.rpl.ckptFail then 5 else 0) else s

/-- A write of a checkpoint image has been answered, or withdrawn. -/
def State.ckptWrote (s : State) (ok : Bool) : State :=
  { s with rpl := { s.rpl with
    ckptOut := s.rpl.ckptOut - 1, ckptFail := s.rpl.ckptFail || !ok } }.ckptSettle

/-- Withdraws one held Jamb write: it is not issued, and its entry is to complete with MEMORY_FAULT. -/
def State.withdrawReq (s : State) (r : JReq) : State :=
  match r.owner with
  | .entry uid => s.modEntry uid fun e => { (e.fail stMemoryFault) with wrWait := e.wrWait - 1 }
  | .ckpt => s.ckptWrote false
  | _ => s

/-- The engine of an entry reaches its start point. -/
def State.engineOpen (s : State) (q uid : Nat) : State :=
  if (s.engine q).running = some uid then s.modEngine q fun g => { g with running := none, isOpen := true } else s

/-- Takes an entry's packets that have not been sent yet away from every link. -/
def State.unsend (s : State) (uid : Nat) : State :=
  let mine (x : TxItem) : Bool := decide (x.origin = .own uid) && decide (x.sends = 0)
  (List.range 6).foldl (fun s l =>
    let n := ((s.link l).ready.filter mine).length
    (s.modLink l fun k => { k with ready := k.ready.filter fun x => !mine x }).modEntry uid fun e =>
      { e with tagWait := e.tagWait - n }) s

/-- A transfer of which a packet is withdrawn sends nothing more, a terminal packet neither, as when it is aborted (10
R248), and is to complete with REMOTE_FAULT. -/
def State.withdrawSends (s : State) (uid : Nat) : State :=
  let s := (s.unsend uid).modEntry uid fun e => { (e.fail stRemoteFault) with formed := true }
  let s := { s with door := { s.door with reds := s.door.reds.filter fun r => r.uid ≠ uid } }
  match s.entry uid with
  | some e => s.engineOpen e.queue uid
  | none => s

/-- The entries of this core that have held packets on a link. -/
def Link.heldBy (k : Link) : List Nat :=
  (k.ready.filter fun x => x.held).filterMap fun x => match x.origin with
    | .own uid => some uid
    | _ => none

/-- Withdraws every request and packet that is held (R386). A packet that was never sent holds no tag (13 R301). -/
def State.withdrawHeld (s : State) : State :=
  let gone := s.jamb.reqs.filter fun r => r.held
  let s := { s with jamb := { s.jamb with reqs := s.jamb.reqs.filter fun r => !r.held } }
  let s := gone.foldl State.withdrawReq s
  let s := ((List.range 6).flatMap fun l => (s.link l).heldBy).foldl State.withdrawSends s
  (List.range 6).foldl (fun s l => s.modLink l fun k => { k with ready := k.ready.filter fun x => !x.held }) s

/-- A cycle of ACLK of every hold (R386). -/
def State.holdTick (s : State) : State :=
  let s := { s with jamb := { s.jamb with reqs := s.jamb.reqs.map fun r => { r with hold := r.hold - 1 } } }
  (List.range 6).foldl (fun s l =>
    if (s.link l).ready.isEmpty then s
    else s.modLink l fun k => { k with ready := k.ready.map fun x => { x with hold := x.hold - 1 } }) s

/-- EGRESS_HOLD_RELEASE: every request and packet whose 40 cycles have passed may leave (R386). A request becomes ready now,
behind those that were ready before it (14 R330). -/
def execEgressHoldRelease (s : State) : Result :=
  let due (r : JReq) : Bool := r.held && decide (r.hold = 0)
  let freed := (s.jamb.reqs.filter due).map fun r => { r with held := false, age := 0 }
  let s := { s with jamb := { s.jamb with reqs := s.jamb.reqs.filter (fun r => !due r) ++ freed } }
  .next ((List.range 6).foldl (fun s l =>
    s.modLink l fun k => { k with ready := k.ready.map fun x => if x.hold = 0 then { x with held := false } else x }) s)

/-! ### The lockstep pair of Sash (R381, R388) -/

/-- A Sash lockstep mismatch: a Class S detection; every thread stops and S goes to HALTED. The
instruction has no effect, since its comparison did not pass. -/
def State.sashMismatch (s : State) (t : Thread) (detail : BitVec 16) : State :=
  let pc := (s.th t).pc
  let s := (s.stopAtBoundary .F).stopAtBoundary .B
  let s := (s.stopAtBoundary .U).modTh .S fun x => { x with state := .halted, wait := .none, stopAsked := false }
  let s := s.excPush { cause := 0x04, thread := Thread.num t, ctx := (s.th t).ctx, status := 0, queue := 0,
                       bel := false, pc := pc, info := 0 }
  let s := s.irqSet 6
  (s.integrity { eventOf mechSashLockstep 0 with stream := Thread.num t, ctx := (s.th t).ctx,
                                                 detail := some detail }).withdrawHeld

/-- Runs `g` unless the lockstep comparison of this instruction fails. -/
def State.lockstep (s : State) (t : Thread) (u : Upset) (g : State → State) : State :=
  match u with
  | .clean => g s
  | .corrected => g s
  | .fatal d => s.sashMismatch t d

/-- The step of a Sash instruction: it acts only when its thread is RUN, and none of its effects, a register write, a data
access, an issued tensor word or a CSR update, leaves Sash unless the two copies agree (R381). The thread that a command
names is the one that 09 R194 picks: which threads are ready depends on the time that functional units take, which the spec
does not give (log entry 53). -/
def State.ifRun (s : State) (t : Thread) (g : State → State) : State :=
  if s.isRun t then
    let s := { s with sash := { s.sash with lastIssued := t } }
    let u := s.upsetAt .sash
    (if u = .clean then s else s.struck .sash).lockstep t u g
  else s

end Sys2Proof.Machine
end

