-- ==== Sys2Proof/Machine/Words.lean ====
section
/-! DEFINITION. The instruction words of Sash (spec/09 R204, R205): the bit positions of the eight formats, and the command
that a word spells. -/

namespace Sys2Proof.Machine

/-- The major opcode, bits [31:26]. -/
def insMaj (w : BitVec 32) : Nat := bitsN w.toNat 26 6

/-- The first register field, bits [25:21]: rd, or ra of a branch. -/
def insR1 (w : BitVec 32) : Reg := Fin.ofNat 32 (bitsN w.toNat 21 5)

/-- The second register field, bits [20:16]: ra, or rb of a branch. -/
def insR2 (w : BitVec 32) : Reg := Fin.ofNat 32 (bitsN w.toNat 16 5)

/-- rb of the R and R4 formats, bits [15:11]. -/
def insRb (w : BitVec 32) : Reg := Fin.ofNat 32 (bitsN w.toNat 11 5)

/-- rc of the R4 format, bits [10:6]. -/
def insRc (w : BitVec 32) : Reg := Fin.ofNat 32 (bitsN w.toNat 6 5)

/-- A field of `len` bits from bit `lo`. -/
def insFld (w : BitVec 32) (lo len : Nat) : BitVec len := BitVec.ofNat len (bitsN w.toNat lo len)

/-- A word of the SYS major by its SUB field, bits [15:12] (R213). -/
def sysCommand (t : Thread) (w : BitVec 32) : Option Instr :=
  let rd := insR1 w
  let ra := insR2 w
  let n : BitVec 12 := insFld w 0 12
  match bitsN w.toNat 12 4 with
  | 0 => some (.csrr t rd ra n)
  | 1 => some (.csrw t rd ra n)
  | 2 => some (.csrs t rd ra n)
  | 3 => some (.csrc t rd ra n)
  | 4 => some (.trap t rd ra n)
  | 5 => some (.tend t rd ra n)
  | 6 => some (.eret t rd ra n)
  | 7 => some (.tstart t rd ra n)
  | 8 => some (.tstop t rd ra n)
  | 9 => some (.fenceI t rd ra n)
  | 10 => some (.mfence t rd ra n)
  | 11 => some (.sadv t rd ra n)
  | 12 => some (.dfl t rd ra n)
  | 13 => some (.lvRd t rd ra n .clean)
  | 14 => some (.lvClr t rd ra n .clean)
  | _ => none

/-- A word of the LATCH major by its SUB field (R221). -/
def latchCommand (t : Thread) (w : BitVec 32) : Option Instr :=
  let rd := insR1 w
  let ra := insR2 w
  let k : BitVec 6 := insFld w 6 6
  let x : BitVec 6 := insFld w 0 6
  match bitsN w.toNat 12 4 with
  | 0 => some (.lsig t rd ra k x .clean)
  | 1 => some (.lwait t rd ra k x)
  | 2 => some (.ltry t rd ra k x)
  | 3 => some (.lread t rd ra k x)
  | 4 => some (.qsig t rd ra k x)
  | 5 => some (.qwait t rd ra k x)
  | _ => none

/-- A word of the T format by its major opcode (R216). EF bit 0 tells the two forms of TRN apart; DIR, which tells those of
DW.PUT apart, lies in a register. -/
def tensorCommand (t : Thread) (w : BitVec 32) (words : List (BitVec 32)) : Option Instr :=
  let rd := insR1 w
  let ra := insR2 w
  let lat : BitVec 6 := insFld w 10 6
  let ef : BitVec 10 := insFld w 0 10
  match insMaj w with
  | 0x30 => some (.latMM t rd ra lat ef)
  | 0x31 => some (.latMMQ t rd ra lat ef)
  | 0x32 => some (.casw t rd ra lat ef words)
  | 0x33 => some (if ef.getLsbD 0 then .trnTranspose t rd ra lat (insFld w 1 9) else .trnRelayout t rd ra lat (insFld w 1 9))
  | 0x34 => some (.sillSpill t rd ra lat ef)
  | 0x35 => some (.sillDrain t rd ra lat ef)
  | 0x36 => some (.xferCopy t rd ra lat ef)
  | 0x37 => some (.updSsq t rd ra lat ef)
  | 0x38 => some (.dwPut t rd ra lat ef)
  | 0x39 => some (.dwRed t rd ra lat ef)
  | 0x3A => some (.updApply t rd ra lat ef)
  | 0x3B => some (.updAdv t rd ra lat ef)
  | 0x3C => some (.updNorm t rd ra lat ef)
  | 0x3D => some (.updRoot t rd ra lat ef)
  | 0x3E => some (.updRearm t rd ra lat ef)
  | _ => none

/-- A word of the R, R4 or I format by its major opcode (R205). -/
def scalarCommand (t : Thread) (w : BitVec 32) : Option Instr :=
  let rd := insR1 w
  let ra := insR2 w
  let imm : BitVec 16 := insFld w 0 16
  match insMaj w with
  | 0x01 => some (.op t rd ra (insRb w) (insFld w 0 11) .clean)
  | 0x02 => some (.addi t rd ra imm)
  | 0x03 => some (.andi t rd ra imm)
  | 0x04 => some (.ori t rd ra imm)
  | 0x05 => some (.xori t rd ra imm)
  | 0x06 => some (.slti t rd ra imm)
  | 0x07 => some (.sltiu t rd ra imm)
  | 0x08 => some (.shi t rd ra imm)
  | 0x09 => some (.movi t rd ra imm)
  | 0x0A => some (.ins16 t rd ra imm)
  | 0x0B => some (.fp t rd ra (insRb w) (insRc w) (insFld w 0 6) .clean)
  | 0x10 => some (.lb t rd ra imm .clean)
  | 0x11 => some (.lbu t rd ra imm .clean)
  | 0x12 => some (.lh t rd ra imm .clean)
  | 0x13 => some (.lhu t rd ra imm .clean)
  | 0x14 => some (.lw t rd ra imm .clean)
  | 0x15 => some (.lwu t rd ra imm .clean)
  | 0x16 => some (.ld t rd ra imm .clean)
  | 0x17 => some (.sb t rd ra imm .clean)
  | 0x18 => some (.sh t rd ra imm .clean)
  | 0x19 => some (.sw t rd ra imm .clean)
  | 0x1A => some (.sd t rd ra imm .clean)
  | 0x1B => some (.amo t rd ra (insRb w) (insRc w) (insFld w 0 6))
  | 0x1C => some (.mld t rd ra imm)
  | 0x1D => some (.mst t rd ra imm)
  | 0x27 => some (.jalr t rd ra imm)
  | _ => none

/-- A word of the B or J format by its major opcode (R205). -/
def branchCommand (t : Thread) (w : BitVec 32) : Option Instr :=
  let ra := insR1 w
  let rb := insR2 w
  let off : BitVec 16 := insFld w 0 16
  match insMaj w with
  | 0x20 => some (.beq t ra rb off)
  | 0x21 => some (.bne t ra rb off)
  | 0x22 => some (.blt t ra rb off)
  | 0x23 => some (.bge t ra rb off)
  | 0x24 => some (.bltu t ra rb off)
  | 0x25 => some (.bgeu t ra rb off)
  | 0x26 => some (.jal t (insFld w 0 26))
  | _ => none

/-- The command that a word of thread `t` spells, with the Casement words behind it; none is a reserved major opcode or SUB
(R205, R213, R221). What a field of the command makes illegal, its meaning says. -/
def sashCommand (t : Thread) (w : BitVec 32) (words : List (BitVec 32)) : Option Instr :=
  match insMaj w with
  | 0x28 => sysCommand t w
  | 0x29 => latchCommand t w
  | m => if 0x30 ≤ m then tensorCommand t w words else (scalarCommand t w).or (branchCommand t w)

end Sys2Proof.Machine
end

