-- ==== Sys2Proof/Machine/SashScalar.lean ====
section
/-! DEFINITION. The scalar instructions of Sash (spec/09 R198 to R212). -/

namespace Sys2Proof.Machine

/-! ### OP and the immediates (R206, R207) -/

/-- The result of an FN of the OP major; none is reserved (R206). -/
def opResult (fn : Nat) (a b : Word) : Option Word :=
  let sh := b.toNat % 64
  match fn with
  | 0x000 => some (a + b)
  | 0x001 => some (a - b)
  | 0x002 => some (a &&& b)
  | 0x003 => some (a ||| b)
  | 0x004 => some (a ^^^ b)
  | 0x005 => some (a <<< sh)
  | 0x006 => some (a >>> sh)
  | 0x007 => some (a.sshiftRight sh)
  | 0x008 => some (if a.slt b then 1 else 0)
  | 0x009 => some (if a.ult b then 1 else 0)
  | 0x00A => some (a * b)
  | 0x00B => some (w64 ((a.toNat * b.toNat) >>> 64))
  | 0x00C => some (BitVec.ofInt 64 (a.toInt * b.toInt / 2 ^ 64))
  | 0x00D => some (if b = 0 then BitVec.allOnes 64 else a.sdiv b)
  | 0x00E => some (if b = 0 then BitVec.allOnes 64 else a / b)
  | 0x00F => some (if b = 0 then a else a.srem b)
  | 0x010 => some (if b = 0 then a else a % b)
  | 0x011 => some (if a.slt b then a else b)
  | 0x012 => some (if a.slt b then b else a)
  | 0x013 => some (if a.ult b then a else b)
  | 0x014 => some (if a.ult b then b else a)
  | _ => none

/-- Writes rd and goes on. -/
def State.writeRd (s : State) (t : Thread) (rd : Reg) (v : Word) : State := (s.setReg t rd v).advance t 4

/-- OP (R206). -/
def execOp (t : Thread) (rd ra rb : Reg) (fn : BitVec 11) (u : Upset) (s : State) : Result :=
  .next (s.ifRun t fun s => s.lockstep t u fun s =>
    match opResult fn.toNat (s.reg t ra) (s.reg t rb) with
    | some v => s.writeRd t rd v
    | none => s.illegal t)

/-- ADDI (R207). -/
def execAddi (t : Thread) (rd ra : Reg) (imm : BitVec 16) (s : State) : Result :=
  .next (s.ifRun t fun s => s.writeRd t rd (s.reg t ra + imm.signExtend 64))

/-- ANDI (R207). -/
def execAndi (t : Thread) (rd ra : Reg) (imm : BitVec 16) (s : State) : Result :=
  .next (s.ifRun t fun s => s.writeRd t rd (s.reg t ra &&& imm.zeroExtend 64))

/-- ORI (R207). -/
def execOri (t : Thread) (rd ra : Reg) (imm : BitVec 16) (s : State) : Result :=
  .next (s.ifRun t fun s => s.writeRd t rd (s.reg t ra ||| imm.zeroExtend 64))

/-- XORI (R207). -/
def execXori (t : Thread) (rd ra : Reg) (imm : BitVec 16) (s : State) : Result :=
  .next (s.ifRun t fun s => s.writeRd t rd (s.reg t ra ^^^ imm.zeroExtend 64))

/-- SLTI (R207). -/
def execSlti (t : Thread) (rd ra : Reg) (imm : BitVec 16) (s : State) : Result :=
  .next (s.ifRun t fun s => s.writeRd t rd (if (s.reg t ra).slt (imm.signExtend 64) then 1 else 0))

/-- SLTIU (R207): the sign-extended immediate, compared unsigned. -/
def execSltiu (t : Thread) (rd ra : Reg) (imm : BitVec 16) (s : State) : Result :=
  .next (s.ifRun t fun s => s.writeRd t rd (if (s.reg t ra).ult (imm.signExtend 64) then 1 else 0))

/-- The result of SHI; none is a reserved immediate (R207). -/
def shiResult (a : Word) (imm : BitVec 16) : Option Word :=
  let sh := bitsN imm.toNat 0 6
  if bitsN imm.toNat 8 8 ≠ 0 then none
  else match bitsN imm.toNat 6 2 with
    | 0 => some (a <<< sh)
    | 1 => some (a >>> sh)
    | 2 => some (a.sshiftRight sh)
    | _ => none

/-- SHI (R207). -/
def execShi (t : Thread) (rd ra : Reg) (imm : BitVec 16) (s : State) : Result :=
  .next (s.ifRun t fun s =>
    match shiResult (s.reg t ra) imm with
    | some v => s.writeRd t rd v
    | none => s.illegal t)

/-- MOVI (R207): its ra field is 0. -/
def execMovi (t : Thread) (rd ra : Reg) (imm : BitVec 16) (s : State) : Result :=
  .next (s.ifRun t fun s => if ra = 0 then s.writeRd t rd (imm.signExtend 64) else s.illegal t)

/-- `v` with half-word h replaced by imm (R207). -/
def insHalf (v : Word) (h : Nat) (imm : BitVec 16) : Word :=
  (v &&& ~~~((0xFFFF : Word) <<< (16 * h))) ||| (imm.zeroExtend 64 <<< (16 * h))

/-- INS16 (R207): h is ra[1:0], and ra[4:2] is 0. -/
def execIns16 (t : Thread) (rd ra : Reg) (imm : BitVec 16) (s : State) : Result :=
  .next (s.ifRun t fun s =>
    if ra.val < 4 then s.writeRd t rd (insHalf (s.reg t rd) ra.val imm) else s.illegal t)

/-! ### Data memory (R198 to R200, R209) -/

/-- The window of an address: 0 to 3 private, 4 shared, 5 group table; none is unmapped (R198). The size is counted,
since an access near the end of the map must lie inside it. -/
def dataWindow (a n : Nat) : Option Nat :=
  if a + n ≤ 0x30000 then some (a / 0xC000)
  else if 0x30000 ≤ a && decide (a + n ≤ 0x40000) then some 4
  else if 0x40000 ≤ a && decide (a + n ≤ 0x44818) then some 5
  else none

/-- May the thread use the window (R198)? -/
def windowOk (t : Thread) (w : Nat) (write : Bool) : Bool :=
  match w with
  | 4 => true
  | 5 => !write
  | _ => decide (w = Thread.num t) || decide (t = .S)

/-- The cause of a data access that is not performed: alignment first, then the map (R200). -/
def dataCause (t : Thread) (a : Word) (n : Nat) (write : Bool) : Option Nat :=
  if a.toNat % n ≠ 0 then some 0x02
  else match dataWindow a.toNat n with
    | none => some 0x03
    | some w => if windowOk t w write then none else some 0x03

/-- A value read from the data space: the data memory, or the group-table window of the thread's slot (R199). -/
def State.dataRead (s : State) (t : Thread) (a n : Nat) : Nat :=
  if a < 0x40000 then Mem.num s.sash.dmem a n
  else bitsN (s.groupWindow (s.th t).ctx ((a - 0x40000) / 8)).toNat (8 * (a % 8)) (8 * n)

/-- A store into the data memory. -/
def State.dataWrite (s : State) (a n v : Nat) : State :=
  { s with sash := { s.sash with dmem := Mem.putNum s.sash.dmem a n v } }

/-- An uncorrectable data-memory error (R200): SASH_ECC, DMEM_ECC, a Class S detection. -/
def State.dmemUe (s : State) (t : Thread) (a : Word) (detail : BitVec 16) : State :=
  let ctx := (s.th t).ctx
  let s := { s with sash := { s.sash with dmemUe := satInc 16 s.sash.dmemUe, eccPend := true } }
  let s := s.stopExc t 0x04 0 a (s.th t).pc
  (s.integrity { eventOf mechDmem 0 with stream := Thread.num t, ctx := ctx, detail := some detail }).withdrawHeld

/-- A correctable data-memory error is corrected, written back and counted (R200, 16 R376). -/
def State.dmemCe (s : State) : State :=
  { s with sash := { s.sash with dmemCe := satInc 16 s.sash.dmemCe } }.corrected

/-- A load of n bytes, extended by `ext` (R209). -/
def State.load (s : State) (t : Thread) (rd ra : Reg) (imm : BitVec 16) (u : Upset) (n : Nat)
    (ext : Nat → Word) : State :=
  s.ifRun t fun s =>
    let a := s.reg t ra + imm.signExtend 64
    match dataCause t a n false with
    | some c => s.stopExc t c 0 a (s.th t).pc
    | none =>
      match u with
      | .fatal d => s.dmemUe t a d
      | .corrected => s.dmemCe.writeRd t rd (ext (s.dataRead t a.toNat n))
      | .clean => s.writeRd t rd (ext (s.dataRead t a.toNat n))

/-- A store of the low n bytes of the register in the rd field (R209). -/
def State.store (s : State) (t : Thread) (rd ra : Reg) (imm : BitVec 16) (u : Upset) (n : Nat) : State :=
  s.ifRun t fun s =>
    let a := s.reg t ra + imm.signExtend 64
    match dataCause t a n true with
    | some c => s.stopExc t c 0 a (s.th t).pc
    | none => s.lockstep t u fun s => (s.dataWrite a.toNat n (s.reg t rd).toNat).advance t 4

/-- Sign extension of the low w bits of a number. -/
def sext (w v : Nat) : Word := (BitVec.ofNat w v).signExtend 64

/-- LB (R209). -/
def execLb (t : Thread) (rd ra : Reg) (imm : BitVec 16) (u : Upset) (s : State) : Result :=
  .next (s.load t rd ra imm u 1 (sext 8))

/-- LBU (R209). -/
def execLbu (t : Thread) (rd ra : Reg) (imm : BitVec 16) (u : Upset) (s : State) : Result :=
  .next (s.load t rd ra imm u 1 w64)

/-- LH (R209). -/
def execLh (t : Thread) (rd ra : Reg) (imm : BitVec 16) (u : Upset) (s : State) : Result :=
  .next (s.load t rd ra imm u 2 (sext 16))

/-- LHU (R209). -/
def execLhu (t : Thread) (rd ra : Reg) (imm : BitVec 16) (u : Upset) (s : State) : Result :=
  .next (s.load t rd ra imm u 2 w64)

/-- LW (R209). -/
def execLw (t : Thread) (rd ra : Reg) (imm : BitVec 16) (u : Upset) (s : State) : Result :=
  .next (s.load t rd ra imm u 4 (sext 32))

/-- LWU (R209). -/
def execLwu (t : Thread) (rd ra : Reg) (imm : BitVec 16) (u : Upset) (s : State) : Result :=
  .next (s.load t rd ra imm u 4 w64)

/-- LD (R209). -/
def execLd (t : Thread) (rd ra : Reg) (imm : BitVec 16) (u : Upset) (s : State) : Result :=
  .next (s.load t rd ra imm u 8 w64)

/-- SB (R209). -/
def execSb (t : Thread) (rd ra : Reg) (imm : BitVec 16) (u : Upset) (s : State) : Result :=
  .next (s.store t rd ra imm u 1)

/-- SH (R209). -/
def execSh (t : Thread) (rd ra : Reg) (imm : BitVec 16) (u : Upset) (s : State) : Result :=
  .next (s.store t rd ra imm u 2)

/-- SW (R209). -/
def execSw (t : Thread) (rd ra : Reg) (imm : BitVec 16) (u : Upset) (s : State) : Result :=
  .next (s.store t rd ra imm u 4)

/-- SD (R209). -/
def execSd (t : Thread) (rd ra : Reg) (imm : BitVec 16) (u : Upset) (s : State) : Result :=
  .next (s.store t rd ra imm u 8)

/-- The new value of an AMO; none is a reserved FN (R210). Only AMO.CAS reads rc; R210 marks the field 0 for no other
function, so there it is ignored (00 R14). -/
def amoResult (fn : Nat) (old b c : Word) : Option Word :=
  match fn with
  | 0x00 => some (old + b)
  | 0x01 => some b
  | 0x02 => some (if old = c then b else old)
  | 0x03 => some (if old.slt b then b else old)
  | _ => none

/-- AMO (R210). Its read of the data memory is checked like a load's (R200). -/
def execAmo (t : Thread) (rd ra rb rc : Reg) (fn : BitVec 6) (s : State) : Result :=
  .next (s.ifRun t fun s =>
    let a := s.reg t ra
    let old := w64 (s.dataRead t a.toNat 8)
    match amoResult fn.toNat old (s.reg t rb) (s.reg t rc) with
    | none => s.illegal t
    | some v =>
      if a.toNat % 8 ≠ 0 then s.stopExc t 0x02 0 a (s.th t).pc
      else if dataWindow a.toNat 8 ≠ some 4 then s.stopExc t 0x03 0 a (s.th t).pc
      else
        let go (s : State) : State := (s.dataWrite a.toNat 8 v.toNat).writeRd t rd old
        match s.upsetAt .dmem with
        | .clean => go s
        | .corrected => go (s.struck .dmem).dmemCe
        | .fatal d => (s.struck .dmem).dmemUe t a d)

/-! ### Memory behind Jamb (R211) -/

/-- Is the address one that MLD and MST accept: aligned to 8, bits [63:48] zero? -/
def memAddrOk (a : Word) : Bool := decide (a.toNat % 8 = 0) && decide (a.toNat < 2 ^ 48)

/-- MLD (R211): one sector is read, and the thread waits in MEMORY. -/
def execMld (t : Thread) (rd ra : Reg) (imm : BitVec 16) (s : State) : Result :=
  .next (s.ifRun t fun s =>
    let a := s.reg t ra + imm.signExtend 64
    if memAddrOk a then
      let n := (s.th t).accesses
      let s := s.jambAdd (readRange (.mld t a.toNat n) .mldMst a.toNat 8)
      (s.modTh t fun x => { x with accesses := n + 1 }).waitMem t (.mld rd n)
    else s.stopExc t 0x06 0 a (s.th t).pc)

/-- MST (R211): the write is posted and the thread goes on. -/
def execMst (t : Thread) (rd ra : Reg) (imm : BitVec 16) (s : State) : Result :=
  .next (s.ifRun t fun s =>
    let a := s.reg t ra + imm.signExtend 64
    if memAddrOk a then
      let s := s.jambAdd (writeReqs (.mst t (s.th t).pc) .mldMst false
        (cellsAt a.toNat (natLe 8 (s.reg t rd).toNat)))
      (s.modTh t fun x => { x with mstOut := x.mstOut + 1 }).advance t 4
    else s.stopExc t 0x06 0 a (s.th t).pc)

/-! ### Branches and jumps (R212) -/

/-- Jumps to a 64-bit target; any of bits [63:48] set raises IFETCH, before `g` has changed a register. -/
def State.jump (s : State) (t : Thread) (target : Word) (g : State → State) : State :=
  if 2 ^ 48 ≤ target.toNat then s.stopExc t 0x05 0 0 (s.th t).pc
  else (g s).goto t (target.setWidth 48)

/-- PC + 4 × an offset in words. -/
def State.pcRel (s : State) (t : Thread) (off : Word) : Word := (s.th t).pc.zeroExtend 64 + 4 * off

/-- A conditional branch. -/
def State.branch (s : State) (t : Thread) (taken : Bool) (off : BitVec 16) : State :=
  if taken then s.jump t (s.pcRel t (off.signExtend 64)) id else s.advance t 4

/-- BEQ (R212). -/
def execBeq (t : Thread) (ra rb : Reg) (off : BitVec 16) (s : State) : Result :=
  .next (s.ifRun t fun s => s.branch t (decide (s.reg t ra = s.reg t rb)) off)

/-- BNE (R212). -/
def execBne (t : Thread) (ra rb : Reg) (off : BitVec 16) (s : State) : Result :=
  .next (s.ifRun t fun s => s.branch t (decide (s.reg t ra ≠ s.reg t rb)) off)

/-- BLT (R212). -/
def execBlt (t : Thread) (ra rb : Reg) (off : BitVec 16) (s : State) : Result :=
  .next (s.ifRun t fun s => s.branch t ((s.reg t ra).slt (s.reg t rb)) off)

/-- BGE (R212). -/
def execBge (t : Thread) (ra rb : Reg) (off : BitVec 16) (s : State) : Result :=
  .next (s.ifRun t fun s => s.branch t (!(s.reg t ra).slt (s.reg t rb)) off)

/-- BLTU (R212). -/
def execBltu (t : Thread) (ra rb : Reg) (off : BitVec 16) (s : State) : Result :=
  .next (s.ifRun t fun s => s.branch t ((s.reg t ra).ult (s.reg t rb)) off)

/-- BGEU (R212). -/
def execBgeu (t : Thread) (ra rb : Reg) (off : BitVec 16) (s : State) : Result :=
  .next (s.ifRun t fun s => s.branch t (!(s.reg t ra).ult (s.reg t rb)) off)

/-- The address behind a thread's instruction, as a register value. -/
def State.linkAddr (s : State) (t : Thread) : Word := ((s.th t).pc + 4).zeroExtend 64

/-- JAL (R212): s31 takes PC + 4. -/
def execJal (t : Thread) (off : BitVec 26) (s : State) : Result :=
  .next (s.ifRun t fun s => s.jump t (s.pcRel t (off.signExtend 64)) fun s => s.setReg t 31 (s.linkAddr t))

/-- JALR (R212): bits [1:0] of the target are cleared. -/
def execJalr (t : Thread) (rd ra : Reg) (imm : BitVec 16) (s : State) : Result :=
  .next (s.ifRun t fun s =>
    s.jump t ((s.reg t ra + imm.signExtend 64) &&& ~~~3) fun s => s.setReg t rd (s.linkAddr t))

/-- A thread meets a word that is no instruction (R205): ILLEGAL. A word that spells an instruction is run by that
instruction's own row, and this one leaves it alone. -/
def execIllegalInstruction (t : Thread) (word : BitVec 32) (s : State) : Result :=
  .next (s.ifRun t fun s => match sashCommand t word [] with
    | none => s.illegal t
    | some _ => s)

end Sys2Proof.Machine
end

