-- ==== Sys2Proof/Machine/SashFp.lean ====
section
/-! DEFINITION. The FP major of Sash (spec/09 R208) and the minimum, maximum and comparisons it shares with the
Casement (spec/06 R132). -/

namespace Sys2Proof.Machine

/-- Less than for MIN and MAX: −0 lies below +0 (R132). -/
def minLt (a b : Val) : Bool := if a.isZero && b.isZero then a.neg && !b.neg else Val.lt a b

/-- MIN (R132). -/
def valMin (a b : Val) : Val × Flags :=
  if a.isNan || b.isNan then (.nan, flagNanin) else (if minLt b a then b else a, noFlags)

/-- MAX (R132). -/
def valMax (a b : Val) : Val × Flags :=
  if a.isNan || b.isNan then (.nan, flagNanin) else (if minLt a b then b else a, noFlags)

/-- NANIN when either value is a NaN. -/
def nanFlags (a b : Val) : Flags := if a.isNan || b.isNan then flagNanin else noFlags

/-- A conversion to a signed integer of w bits: it saturates with OVERFLOW, and a NaN gives 0 with INVALID
(R135, R208). Reading the NaN raises NANIN. -/
def toSigned (w : Nat) (mode : RMode) (u : Nat) (v : Val) : Int × Flags :=
  let top : Int := 2 ^ (w - 1)
  match v with
  | .nan => (0, { noFlags with invalid := true, nanin := true })
  | .inf s => (if s then -top else top - 1, flagOverflow)
  | .fin s m e =>
    let r := roundAt mode u s m e 0
    let x : Int := if s then -(r.1 : Int) else (r.1 : Int)
    if x < -top then (-top, flagOverflow)
    else if top - 1 < x then (top - 1, flagOverflow)
    else (x, { noFlags with inexact := r.2 })

/-- A rounding of a value to a layout as a register value. -/
def fpRound (l : Layout) (mode : RMode) (v : Val) : Word × Flags :=
  let r := l.ofVal mode 0 v
  (w64 r.1, if v.isNan then { r.2 with nanin := true } else r.2)

/-- The result of an exact operation after its one rounding. -/
def fpExact (l : Layout) (r : Val × Flags) : Word × Flags :=
  let x := l.ofVal .rne 0 r.1
  (w64 x.1, flagsOr r.2 x.2)

/-- A comparison result. -/
def fpCmp (b : Bool) (a c : Val) : Word × Flags := (if b then 1 else 0, nanFlags a c)

/-- The arithmetic functions of one format by the low four bits of FN (R208); none is reserved. -/
def fpArith (l : Layout) (f : Nat) (a b c : Val) : Option (Word × Flags) :=
  match f with
  | 0x0 => some (fpExact l (Val.add a b))
  | 0x1 => some (fpExact l (Val.add a b.negate))
  | 0x2 => some (fpExact l (Val.mul a b))
  | 0x3 => some (fpExact l (Val.div a b))
  | 0x4 => some (fpExact l (Val.sqrt a))
  | 0x5 => some (fpExact l (fmaVal a b c))
  | 0x6 => some (fpExact l (valMin a b))
  | 0x7 => some (fpExact l (valMax a b))
  | 0x8 => some (fpCmp (Val.eq a b) a b)
  | 0x9 => some (fpCmp (Val.lt a b) a b)
  | 0xA => some (fpCmp (Val.lt a b || Val.eq a b) a b)
  | _ => none

/-- An int64 result. -/
def fpToInt (mode : RMode) (v : Val) : Word × Flags :=
  let r := toSigned 64 mode 0 v
  (BitVec.ofInt 64 r.1, r.2)

/-- The conversions (R208); none is reserved. -/
def fpConvert (fn : Nat) (mode : RMode) (a : Word) : Option (Word × Flags) :=
  let d := val64 a
  let f := lFP32.decode (a.toNat % 2 ^ 32)
  let h := lBF16.decode (a.toNat % 2 ^ 16)
  match fn with
  | 0x20 => some (fpRound lFP32 mode d)
  | 0x21 => some (fpRound lFP64 mode f)
  | 0x22 => some (fpRound lFP64 mode (Val.ofInt a.toInt))
  | 0x23 => some (fpToInt mode d)
  | 0x24 => some (fpRound lFP32 mode (Val.ofInt a.toInt))
  | 0x25 => some (fpToInt mode f)
  | 0x26 => some (fpRound lBF16 mode d)
  | 0x27 => some (fpRound lFP64 mode h)
  | _ => none

/-- The result of an FP function; none is a reserved encoding (R208). -/
def fpResult (fn : Nat) (rc : Reg) (a b c : Word) : Option (Word × Flags) :=
  let s32 (x : Word) : Val := lFP32.decode (x.toNat % 2 ^ 32)
  let rcOk := decide (fn % 16 = 5) || decide (rc = 0)
  if fn < 0x10 then (if rcOk then fpArith lFP64 fn (val64 a) (val64 b) (val64 c) else none)
  else if fn < 0x20 then (if rcOk then fpArith lFP32 (fn - 0x10) (s32 a) (s32 b) (s32 c) else none)
  else if rc.val < 4 then fpConvert fn (rmodeOf rc.val) a
  else none

/-- FFLAGS of an operation's flags (R214). -/
def fflagsOf (f : Flags) : BitVec 5 := BitVec.ofNat 5 (flags4 f + 16 * b2n f.divZero)

/-- Raises flags in a thread's FFLAGS, and the alarm where ALARMFLAGS selects one (R208, 12 R273). -/
def State.raiseFflags (s : State) (t : Thread) (f : Flags) : State :=
  let s := s.modTh t fun x => { x with fflags := x.fflags ||| fflagsOf f }
  s.alarmFlags f (Thread.num t) (s.th t).ctx 0 0

/-- FP (R208). -/
def execFp (t : Thread) (rd ra rb rc : Reg) (fn : BitVec 6) (u : Upset) (s : State) : Result :=
  .next (s.ifRun t fun s => s.lockstep t u fun s =>
    match fpResult fn.toNat rc (s.reg t ra) (s.reg t rb) (s.reg t rc) with
    | some r => (s.raiseFflags t r.2).writeRd t rd r.1
    | none => s.illegal t)

end Sys2Proof.Machine
end

