-- ==== Sys2Proof/Machine/CasOps.lean ====
section
/-! DEFINITION. The element operations of the Casement and of the near-memory ALU (spec/06 R130 to R139), on
elements as bits. -/

namespace Sys2Proof.Machine

/-- An element operand's value in a DT of floating point: FP32 or BF16. -/
def dtLayout (dt : Nat) : Layout := if dt = 1 then lBF16 else lFP32

/-- Element width of a DT (R124). -/
def dtBits (dt : Nat) : Nat := if dt = 1 then 16 else 32

/-- Rounds to the element type, RNE, and joins flags (R131). -/
def casRound (dt : Nat) (r : Val × Flags) : Nat × Flags :=
  let x := (dtLayout dt).ofVal .rne 0 r.1
  (x.1, flagsOr r.2 x.2)

/-- Rounds a finite value to at most 12 significant bits and the layout (R133). A value beyond the largest finite
is an infinity with OVERFLOW. -/
def estimateRound (dt : Nat) (v : Val) : Nat × Flags :=
  let l := dtLayout dt
  match v with
  | .fin s m e =>
    if m = 0 then l.ofVal .rne 0 v
    else
      let q := max (log2Floor m e - (min l.mb 11 : Nat)) l.unit
      let r := roundAt .rne 0 s m e q
      let x := l.ofVal .rne 0 (.fin s r.1 q)
      let small := r.2 && (decide (r.1 = 0) || decide (log2Floor r.1 q < l.emin))
      (x.1, { x.2 with underflow := x.2.underflow || small })
  | _ => l.ofVal .rne 0 v

/-- RCP (R133). -/
def casRcp (dt : Nat) (a : Val) : Nat × Flags :=
  let r := Val.div (.fin false 1 0) a
  let x := estimateRound dt r.1
  (x.1, flagsOr r.2 x.2)

/-- RSQ (R133): the square root of the reciprocal, one rounding. The reciprocal keeps 200 bits and a sticky bit, and
so does the root. -/
def casRsq (dt : Nat) (a : Val) : Nat × Flags :=
  match a with
  | .nan => ((dtLayout dt).nan, flagNanin)
  | .inf s => if s then ((dtLayout dt).nan, flagInvalid) else (0, noFlags)
  | .fin s m _ =>
    if m = 0 then ((dtLayout dt).signed s (dtLayout dt).infBits, { noFlags with divZero := true })
    else if s then ((dtLayout dt).nan, flagInvalid)
    else estimateRound dt (Val.sqrt (Val.div (.fin false 1 0) a).1).1

/-- SCALEB: a × 2^n, one rounding (R134). -/
def casScaleb (dt : Nat) (a : Val) (n : Int) : Nat × Flags :=
  match a with
  | .nan => ((dtLayout dt).nan, flagNanin)
  | v => casRound dt (v.scale2 (min (max n (-100000)) 100000), noFlags)

/-- A mask element (R130). -/
def maskBits (dt : Nat) (b : Bool) : Nat := if b then 2 ^ dtBits dt - 1 else 0

/-- The element-wise operations on floating-point elements, DT 0 and 1 (R130 to R134). `n` is SCALEB's shift. -/
def casFloat (op dt a b c : Nat) (n : Int) : Nat × Flags :=
  let l := dtLayout dt
  let va := l.decode a
  let vb := l.decode b
  let vc := l.decode c
  let sign := 2 ^ (dtBits dt - 1)
  match op with
  | 0x01 => casRound dt (Val.add va vb)
  | 0x02 => casRound dt (Val.add va vb.negate)
  | 0x03 => casRound dt (Val.mul va vb)
  | 0x04 => casRound dt (fmaVal va vb vc)
  | 0x05 => casRound dt (fmaVal va vb vc.negate)
  | 0x06 => casRound dt (fmaVal va.negate vb vc)
  | 0x07 => casRound dt (valMin va vb)
  | 0x08 => casRound dt (valMax va vb)
  | 0x09 => (a % sign, noFlags)
  | 0x0A => (a ^^^ sign, noFlags)
  | 0x0B => (b, noFlags)
  | 0x0C => casScaleb dt va n
  | 0x0D => casRcp dt va
  | 0x0E => casRsq dt va
  | 0x10 => (maskBits dt (Val.eq va vb), nanFlags va vb)
  | 0x11 => (maskBits dt (!Val.eq va vb), nanFlags va vb)
  | 0x12 => (maskBits dt (Val.lt va vb), nanFlags va vb)
  | 0x13 => (maskBits dt (Val.lt va vb || Val.eq va vb), nanFlags va vb)
  | 0x14 => (if c ≠ 0 then a else b, noFlags)
  | _ => (0, noFlags)

/-- The element-wise operations on INT32 elements, DT 2 (R130, R131). `idx` is the element's own index. -/
def casInt (op : Nat) (a b c : BitVec 32) (idx : Nat) : Nat :=
  let sh := b.toNat % 32
  match op with
  | 0x01 => (a + b).toNat
  | 0x02 => (a - b).toNat
  | 0x03 => (a * b).toNat
  | 0x07 => (if b.slt a then b else a).toNat
  | 0x08 => (if a.slt b then b else a).toNat
  | 0x09 => (if a.slt 0 then -a else a).toNat
  | 0x0A => (-a).toNat
  | 0x0B => b.toNat
  | 0x10 => maskBits 2 (decide (a = b))
  | 0x11 => maskBits 2 (decide (a ≠ b))
  | 0x12 => maskBits 2 (a.slt b)
  | 0x13 => maskBits 2 (a.sle b)
  | 0x14 => (if c ≠ 0 then a else b).toNat
  | 0x20 => (a &&& b).toNat
  | 0x21 => (a ||| b).toNat
  | 0x22 => (a ^^^ b).toNat
  | 0x23 => (a <<< sh).toNat
  | 0x24 => (a >>> sh).toNat
  | 0x25 => (a.sshiftRight sh).toNat
  | 0x2E => idx
  | _ => 0

/-- One element-wise operation. -/
def casElement (op dt a b c : Nat) (n : Int) (idx : Nat) : Nat × Flags :=
  if dt = 2 then (casInt op (w32 a) (w32 b) (w32 c) idx, noFlags) else casFloat op dt a b c n

/-- CVT.FI: FP32 to INT32 (R135). -/
def casCvtFI (mode : RMode) (u a : Nat) : Nat × Flags :=
  let r := toSigned 32 mode u (lFP32.decode a)
  ((BitVec.ofInt 32 r.1).toNat, r.2)

/-- CVT.IF: INT32 to FP32 (R130): no flags. -/
def casCvtIF (mode : RMode) (u a : Nat) : Nat × Flags :=
  ((lFP32.ofVal mode u (Val.ofInt (signedN a 32))).1, noFlags)

/-- The narrowing of CVT.NB: FP32 to BF16. -/
def casCvtNB (mode : RMode) (u a : Nat) : Nat × Flags :=
  let v := lFP32.decode a
  let r := lBF16.ofVal mode u v
  (r.1, if v.isNan then { r.2 with nanin := true } else r.2)

/-- The exact widening of a BF16 element; a NaN becomes the canonical NaN (02 R37). -/
def casWiden (a : Nat) : Nat := if (lBF16.decode (a % 65536)).isNan then lFP32.nan else (a % 65536) <<< 16

/-! ### Reductions (R137, R138) -/

/-- The identity word of a reduction: RSUM and RSSQ, RMAX, RMIN (R138). -/
def redIdentity (op dt : Nat) : BitVec 32 :=
  if dt = 2 then
    match op with
    | 0x2A => 0x80000000
    | 0x2B => 0x7FFFFFFF
    | _ => 0
  else
    match op with
    | 0x2A => 0xFF800000
    | 0x2B => 0x7F800000
    | _ => 0

/-- One combination of a reduction (R138): result type FP32, or INT32 for DT 2. A NaN that an addition of the tree has created
is a NaN operand of the next level and raises NANIN there (R53); R138 does not say so (DEDUCED, log entry 56). -/
def redCombine (op dt : Nat) (a b : BitVec 32) : BitVec 32 × Flags :=
  if dt = 2 then
    match op with
    | 0x2A => (if a.slt b then b else a, noFlags)
    | 0x2B => (if b.slt a then b else a, noFlags)
    | _ => (a + b, noFlags)
  else
    match op with
    | 0x2A => arith32 (valMax (val32 a) (val32 b))
    | 0x2B => arith32 (valMin (val32 a) (val32 b))
    | _ => add32 a b

/-- One level of the tree: positions (0, 1), (2, 3) and so on. -/
def redLevel (op dt : Nat) (l : List (BitVec 32)) (fl : Flags) : List (BitVec 32) × Flags :=
  match l with
  | a :: b :: r =>
    let c := redCombine op dt a b
    let t := redLevel op dt r (flagsOr fl c.2)
    (c.1 :: t.1, t.2)
  | x => (x, fl)

/-- The tree over 32 or 64 values (R138 step 3), `n` levels. -/
def redTree (op dt n : Nat) (l : List (BitVec 32)) (fl : Flags) : BitVec 32 × Flags :=
  match n with
  | 0 => (l.headD 0, fl)
  | n + 1 =>
    let r := redLevel op dt l fl
    redTree op dt n r.1 r.2

/-- The value a valid element brings to a reduction: BF16 is widened, RSSQ squares with one rounding (R138). -/
def redValue (op dt a : Nat) : BitVec 32 × Flags :=
  let w := if dt = 1 then w32 (casWiden a) else w32 a
  if op = 0x29 then mul32 w w
  else if dt ≠ 2 && (val32 w).isNan then (w, flagNanin) else (w, noFlags)

/-- The tree value of a vector with a valid element (R138 steps 2 and 3). -/
def redVector (op dt : Nat) (vs : List (Nat × Bool)) : BitVec 32 × Flags :=
  let xs := vs.map fun v => if v.2 then redValue op dt v.1 else (redIdentity op dt, noFlags)
  redTree op dt (if vs.length = 64 then 6 else 5) (xs.map fun x => x.1) (flagsAny (xs.map fun x => x.2))

/-! ### Which operations exist (R130) -/

/-- The DTs of an operation; an empty list is a reserved code. -/
def casDts (op : Nat) : List Nat :=
  match op with
  | 0x01 => [0, 1, 2]
  | 0x02 => [0, 1, 2]
  | 0x03 => [0, 1, 2]
  | 0x04 => [0, 1]
  | 0x05 => [0, 1]
  | 0x06 => [0, 1]
  | 0x07 => [0, 1, 2]
  | 0x08 => [0, 1, 2]
  | 0x09 => [0, 1, 2]
  | 0x0A => [0, 1, 2]
  | 0x0B => [0, 1, 2]
  | 0x0C => [0, 1]
  | 0x0D => [0, 1]
  | 0x0E => [0, 1]
  | 0x10 => [0, 1, 2]
  | 0x11 => [0, 1, 2]
  | 0x12 => [0, 1, 2]
  | 0x13 => [0, 1, 2]
  | 0x14 => [0, 1, 2]
  | 0x18 => [0]
  | 0x19 => [0]
  | 0x1A => [0]
  | 0x1B => [0]
  | 0x1C => [0]
  | 0x20 => [2]
  | 0x21 => [2]
  | 0x22 => [2]
  | 0x23 => [2]
  | 0x24 => [2]
  | 0x25 => [2]
  | 0x28 => [0, 1, 2]
  | 0x29 => [0, 1]
  | 0x2A => [0, 1, 2]
  | 0x2B => [0, 1, 2]
  | 0x2C => [0, 2]
  | 0x2D => [0, 2]
  | 0x2E => [2]
  | 0x30 => [0, 1]
  | 0x31 => [0, 1]
  | 0x38 => [0, 1]
  | _ => []

/-- Is it a conversion with RMODE in PC? CVT.WL and CVT.WH are exact but take the field. -/
def casIsConv (op : Nat) : Bool := decide (0x18 ≤ op) && decide (op ≤ 0x1C)

/-- Is it a reduction? -/
def casIsRed (op : Nat) : Bool := decide (0x28 ≤ op) && decide (op ≤ 0x2B)

/-- Does the operation read operand A as a Pane? -/
def casReadsA (op : Nat) : Bool :=
  !(decide (op = 0x0B) || decide (op = 0x2E) || decide (op = 0x30) || decide (op = 0x31) || decide (op = 0x38))

/-- Does the operation read operand B as a Pane or a scalar? -/
def casReadsB (op : Nat) : Bool :=
  (decide (0x01 ≤ op) && decide (op ≤ 0x08)) || decide (op = 0x0B) || decide (op = 0x0C) ||
  (decide (0x10 ≤ op) && decide (op ≤ 0x14)) || decide (op = 0x1A) || (decide (0x20 ≤ op) && decide (op ≤ 0x25)) ||
  decide (op = 0x2D)

/-- Cycles from the start of an operation to that of one that reads its result (R130). -/
def casLatency (op : Nat) : Nat :=
  if op = 0x0D ∨ op = 0x0E then 8
  else if op = 0x1A ∨ op = 0x2D then 6
  else if 0x28 ≤ op ∧ op ≤ 0x2B then 10 else 4

/-- Cycles for which an operation holds the arithmetic unit (R130). -/
def casOccupancy (op : Nat) : Nat := if op = 0x1A ∨ op = 0x2D then 4 else 2

/-- Does the operation read operand C? -/
def casReadsC (op : Nat) : Bool := (decide (0x04 ≤ op) && decide (op ≤ 0x06)) || decide (op = 0x14)

end Sys2Proof.Machine
end

