-- ==== Sys2Proof/Machine/Journal.lean ====
section
/-! DEFINITION. The replay journal: records, ring and latch order (spec/16 R394 to R399). -/

namespace Sys2Proof.Machine

/-- Does the context write a journal now: JOURNAL is 1 and it is not replayed (R401)? -/
def State.journals (s : State) (ctx : Nat) : Bool :=
  match s.frameOf ctx with
  | some f => f.journal && !(s.rpl.active && s.rpl.plane = some ctx)
  | none => false

/-- The bytes of a record: header and words (R397). -/
def recordBytes (type stream ctx : Nat) (step : BitVec 32) (ws : List Word) : List Byte :=
  natLe 8 (type % 16 + ((stream % 4) <<< 4) + ((ctx % 2) <<< 6) + ((ws.length % 256) <<< 8) + (step.toNat <<< 32)) ++
  (ws.map fun w => natLe 8 w.toNat).flatten

/-- The bytes of a ring of `size` bytes from `base` that start at offset `off` (R398). -/
def ringCells (base size off : Nat) (bs : List Byte) : List Host.Cell :=
  bs.zipIdx.map fun p => (base + (off + p.2) % size, p.1)

/-- Writes a record through Jamb's general pool and moves the offset; a wrap at the end is counted and overwrites
the oldest records (R398). -/
def State.journalPut (s : State) (ctx : Nat) (t : Thread) (bs : List Byte) : State :=
  match s.frameOf ctx with
  | none => s
  | some f =>
    let p := s.plane ctx
    let size := f.jSize * 4096
    let s := s.jambAdd (writeReqs (.journal ctx t) .journal false (ringCells f.jBase size p.jOffset bs))
    let next := p.jOffset + bs.length
    s.modPlane ctx fun p => { p with
      jOffset := next % size
      jWraps := if size ≤ next then satInc 16 p.jWraps else p.jWraps }

/-- Writes the latch events gathered so far as LATCH records of at most 16 events, `n` records at most (R397). -/
def State.journalLatch (s : State) (ctx n : Nat) : State :=
  match n with
  | 0 => s
  | n + 1 =>
    let p := s.plane ctx
    if p.jLatch.isEmpty then s
    else
      let ws := p.jLatch.take 16
      let s := s.journalPut ctx .S (recordBytes 3 0 ctx (w32 p.jEvents) ws)
      (s.modPlane ctx fun p => { p with jLatch := p.jLatch.drop 16, jEvents := p.jEvents + ws.length }).journalLatch ctx n

/-- Writes every latch event gathered so far. -/
def State.journalFlush (s : State) (ctx : Nat) : State :=
  if s.journals ctx then s.journalLatch ctx (s.plane ctx).jLatch.length else s

/-- Is a step of the stream being captured (R399)? -/
def Plane.captures (p : Plane) (t : Thread) : Bool := p.capturing.any fun x => decide (x.1 = t)

/-- Writes a record of type 1, 2 or 5 of a stream, behind the latch events before it. -/
def State.journalStream (s : State) (ctx type : Nat) (t : Thread) (step : BitVec 32) (ws : List Word) : State :=
  if s.journals ctx then (s.journalFlush ctx).journalPut ctx t (recordBytes type (Thread.num t) ctx step ws) else s

/-- The digest of a stream step under GRAIN 3: over the grain-0 digests of its entries, in ISEQ order (R394). -/
def gatherDigest (ds : List (Nat × BitVec 32)) : BitVec 32 := crc32c ((ds.map fun d => natLe 4 d.2.toNat).flatten)

/-- STEP_OPEN of a stream's step (R397). Capture applies from the next STEP_OPEN of each stream, which then sets bit
63 of its CHECK word (R399). -/
def State.journalOpen (s : State) (t : Thread) : State :=
  let th := s.th t
  let c := th.ctx
  match s.frameOf c with
  | none => s
  | some f =>
    let pl := s.plane c
    let cap := pl.capture && !pl.captures t && !pl.captured.contains t
    let s := if cap then s.modPlane c fun p => { p with capturing := (t, th.stepno) :: p.capturing } else s
    s.journalStream c 1 t th.stepno
      [w64 (f.ctxid.toNat + (f.serial.toNat <<< 32)),
        w64 (f.check.toNat + ((f.grain % 2 ^ 31) <<< 32) + (b2n cap <<< 63)), f.seed]

/-- Streams with an entry point in a Frame. -/
def frameStreams (f : FrameCfg) : List Thread := allThreads.filter fun t => f.entries.getD (Thread.num t) 0 ≠ 0

/-- STEP_CLOSE of a post (R397), with the digest of GRAIN 3 behind its words (log entry 8). A captured step ends
here; when one has ended for every stream of the context, Belore clears CAPTURE (R399). -/
def State.journalClose (s : State) (t : Thread) (p : Post) : State :=
  match s.frameOf p.ctx with
  | none => s
  | some f =>
    let g3 := if f.grain = 3 then [(gatherDigest p.digs).zeroExtend 64] else []
    let s := s.journalStream p.ctx 5 t p.step
      ([p.digest.zeroExtend 64, w64 p.entries, p.lastIseq.zeroExtend 64] ++ g3)
    if (s.plane p.ctx).capturing.contains (t, p.step) then
      s.modPlane p.ctx fun x =>
        let done := t :: x.captured
        let all := (frameStreams f).all fun u => done.contains u
        { x with
          capturing := x.capturing.filter fun u => u ≠ (t, p.step), capture := x.capture && !all
          captured := if all then [] else done }
    else s

/-- Is a journal record of the stream waiting or outstanding (R398)? -/
def State.journalPending (s : State) (t : Thread) : Bool :=
  let is (r : JReq) : Bool := match r.owner with
    | .journal _ u => decide (u = t)
    | _ => false
  s.jamb.reqs.any is || s.jamb.tags.any fun x => is x.req

/-- Adds the CRC of one handle resolution to the descriptor digest of the stream's step (R396): the handle as 3
bytes, then bytes 0 to 39 of the fields captured at issue as a generation-3 image. -/
def State.digestResolve (s : State) (t : Thread) (h : Nat) (d : Desc) : State :=
  let c := (s.th t).ctx
  let img := (descBody { d with gen := 3, hrun := 0, hstep := 0, hptr := 0, hnf := false, href := 0, hist := [] }).take 40
  let x := crc32c (natLe 3 h ++ img)
  s.modPlane c fun p => { p with
    digestSum := SMap.put p.digestSum 0 (Thread.num t) (SMap.look p.digestSum 0 (Thread.num t) + x) }

/-- An INPUT record (R397): a packet that the context sinks, with its payload when the step is captured (R399). -/
def State.journalInput (s : State) (ctx : Nat) (src cls : Nat) (ctxid : BitVec 32) (handle index b latch : Nat)
    (payload : List Byte) : State :=
  if s.journals ctx then
    let s := s.journalFlush ctx
    let cap := (s.plane ctx).capture && !(s.plane ctx).capturing.isEmpty
    let ws := [w64 (src + (cls <<< 16)), ctxid.zeroExtend 64, w64 (handle + (index <<< 20)),
      w64 (b + (latch <<< 32)), (crc32c payload).zeroExtend 64] ++ (if cap then words64 payload else [])
    let n := (s.plane ctx).jEvents
    (s.journalPut ctx .S (recordBytes 4 0 ctx (w32 n) ws)).modPlane ctx fun p => { p with jEvents := p.jEvents + 1 }
  else s

end Sys2Proof.Machine
end

