-- ==== Sys2Proof/Machine/Post.lean ====
section
/-! DEFINITION. Completion posts (spec/14 R339 to R341) and the step boundary (spec/10 R245). -/

namespace Sys2Proof.Machine

/-- Word 0 of a record (R340). -/
def postWord0 (t : Thread) (p : Post) (valid memErr : Bool) : Word :=
  w64 (b2n valid + (b2n memErr <<< 1) + (Thread.num t <<< 2) + (p.ctx <<< 4) + (p.first <<< 8) + (p.nbad <<< 16) +
    (p.seq.toNat <<< 32))

/-- Words 1 to 3 of a record (R340). -/
def postBody (p : Post) : List Word :=
  [w64 (p.step.toNat + (p.ctxid.toNat <<< 32)), w64 (p.firstIseq.toNat + (p.lastIseq.toNat <<< 32)), p.cycle]

/-- The mailbox slot of a record (R341). -/
def State.postAddr (s : State) (t : Thread) (seq : BitVec 32) : Option Nat :=
  let h := s.hinge
  if h.mboxEn then
    let d := min h.mboxD.toNat 12
    some (h.mboxBase.toNat * 4096 + 32 * (2 ^ d * Thread.num t + seq.toNat % 2 ^ d))
  else none

/-- Changes an open post. -/
def State.modPost (s : State) (t : Thread) (seq : BitVec 32) (g : Post → Post) : State :=
  s.modTh t fun x => { x with posts := updFirst (fun p => p.seq = seq) g x.posts }

/-- Step 3 of R339: the mirror and IRQ_STAT. -/
def State.postDone (s : State) (t : Thread) (p : Post) : State :=
  (s.modTh t fun x => { x with
    posts := x.posts.drop 1
    cmpl0 := postWord0 t p true p.memErr
    cmpl1 := (postBody p).getD 0 0 }).irqSet (Thread.num t)

/-- Starts a post whose entries have completed: its STEP_CLOSE, and words 1 to 3 when EN is 1 (R339). CYCLE is this cycle
(R340). -/
def State.postBegin (s : State) (t : Thread) (p : Post) : State :=
  let p := { p with stage := 1, cycle := s.time.cycle, addr := s.postAddr t p.seq }
  let s := (s.modPost t p.seq fun _ => p).journalClose t p
  match p.addr with
  | some a => s.jambAdd (writeReqs (.cmplBody t p.seq) .cmpl false
      (cellsAt (a + 8) (((postBody p).map fun w => natLe 8 w.toNat).flatten)))
  | none => s.modPost t p.seq fun p => { p with stage := 3 }

/-- Is the request a write of words 1 to 3 of the stream's record? -/
def JReq.isBody (r : JReq) (t : Thread) (seq : BitVec 32) : Bool := decide (r.owner = .cmplBody t seq)

/-- Starts the posts of a stream whose entries have all completed, one behind another open one too. -/
def State.postsBegin (s : State) (t : Thread) : State :=
  ((s.th t).posts.filter fun p => decide (p.stage = 0) && p.waiting.isEmpty).foldl (fun s p => s.postBegin t p) s

/-- Completes the posts of a stream in SADV order, `n` at most: each when its writes and its journal records have been
answered (R339, 16 R398). -/
def State.postsEnd (s : State) (t : Thread) (n : Nat) : State :=
  match n with
  | 0 => s
  | n + 1 =>
    match (s.th t).posts with
    | [] => s
    | p :: _ => if p.stage = 3 && !s.journalPending t then (s.postDone t p).postsEnd t n else s

/-- The posts of a stream, as far as they go. -/
def State.postsGo (s : State) (t : Thread) : State := (s.postsBegin t).postsEnd t (s.th t).posts.length

/-- Memory has answered a write of words 1 to 3: after the last, word 0 is written, unless one failed (R339). -/
def State.postBodyAnswered (s : State) (t : Thread) (seq : BitVec 32) (ok : Bool) : State :=
  let s := if ok then s else s.modPost t seq fun p => { p with memErr := true }
  let more := s.jamb.reqs.any (fun r => r.isBody t seq) || s.jamb.tags.any fun x => x.req.isBody t seq
  if more then s
  else
    match (s.th t).posts.find? fun p => p.seq = seq with
    | none => s
    | some p =>
      if p.memErr then (s.modPost t seq fun p => { p with stage := 3 }).postsGo t
      else
        match p.addr with
        | some a => (s.modPost t seq fun p => { p with stage := 2 }).jambAdd (writeReqs (.cmplHead t seq) .cmpl false
            (cellsAt a (natLe 8 (postWord0 t p true false).toNat)))
        | none => s

/-- Memory has answered word 0 (R339). -/
def State.postHeadAnswered (s : State) (t : Thread) (seq : BitVec 32) (ok : Bool) : State :=
  (s.modPost t seq fun p => { p with stage := 3, memErr := p.memErr || !ok }).postsGo t

/-- The mirror CMPL_t0 as a host reads it (R341): VALID is 0 while a post is open, and both words are 0 before the
first post has completed. -/
def State.mirror0 (s : State) (t : Thread) : Word :=
  let x := s.th t
  if x.posts.isEmpty then x.cmpl0 else x.cmpl0 &&& ~~~1

/-- The sequence number after one (R340). -/
def nextSeq (n : BitVec 32) : BitVec 32 := if n = 0xFFFFFFFF then 1 else n + 1

/-- SADV with room for its post: STEPNO and WSEQ change and the post opens (R339, 09 R213). -/
def State.stepAdvance (s : State) (t : Thread) : State :=
  let th := s.th t
  let pl := s.plane th.ctx
  let open' := (s.eng.lanes.filter fun e => e.stream = t).map fun e => e.uid
  let seq := nextSeq th.seq
  let p : Post :=
    { seq := seq, step := th.stepno, ctx := th.ctx, ctxid := (match s.frameOf th.ctx with
        | some f => f.ctxid
        | none => 0)
      lastIseq := th.iseq - 1, first := th.stepFirst, firstIseq := th.stepFirstIseq, nbad := th.stepNbad
      waiting := open', stage := 0, cycle := 0, memErr := false, addr := none
      digest := SMap.look pl.digestSum 0 (Thread.num t)
      entries := (th.iseq - 1 - th.lastIseq).toNat
      digs := SMap.look pl.stepDigests [] (Thread.num t) }
  let s := s.modPlane th.ctx fun x => { x with
    digestSum := SMap.put x.digestSum 0 (Thread.num t) 0
    stepDigests := SMap.put x.stepDigests [] (Thread.num t) [] }
  let s := s.modTh t fun x => { x with
    stepno := x.stepno + 1, wseq := 0, seq := seq, lastIseq := x.iseq - 1, stepFirst := 0, stepFirstIseq := 0,
    stepNbad := 0, posts := x.posts ++ [p] }
  (s.postsGo t).journalOpen t

/-- Counts a completed entry's status in the post of its step, or in the step in progress (R340): FIRST is the
first in ISEQ order that is not OK. -/
def State.postCount (s : State) (e : Entry) (status : Nat) : State :=
  s.modTh e.stream fun x =>
    let x := { x with posts := x.posts.map fun p => { p with waiting := p.waiting.filter fun u => u ≠ e.uid } }
    if status = 0 then x
    else if x.posts.any fun p => p.step = e.step && p.stage = 0 then
      { x with posts := updFirst (fun p => p.step = e.step && p.stage = 0) (fun p =>
          let first := p.nbad = 0 || (e.iseq - p.firstIseq).toInt < 0
          { p with
            nbad := satInc 16 p.nbad
            first := if first then status else p.first
            firstIseq := if first then e.iseq else p.firstIseq }) x.posts }
    else
      let first := x.stepNbad = 0 || (e.iseq - x.stepFirstIseq).toInt < 0
      { x with
        stepNbad := satInc 16 x.stepNbad
        stepFirst := if first then status else x.stepFirst
        stepFirstIseq := if first then e.iseq else x.stepFirstIseq }

end Sys2Proof.Machine
end

