-- ==== Sys2Proof/Machine/Credit.lean ====
section
/-! DEFINITION. The six links by number, their records in the Frame, the credits this core grants, and the SIG credits
that the pending table of remote signals bounds (spec/13 R288, R291, R297, R299, R310; spec/11 R257). -/

namespace Sys2Proof.Machine

/-! ### Numbers of R291, R292 and R297 -/

/-- Class numbers. -/
def clsRsp : Fin 6 := 0
/-- SIG. -/
def clsSig : Fin 6 := 1
/-- RED. -/
def clsRed : Fin 6 := 2
/-- WR. -/
def clsWr : Fin 6 := 3
/-- RD. -/
def clsRd : Fin 6 := 4
/-- MGT. -/
def clsMgt : Fin 6 := 5

/-- Is it a ring link? -/
def isRing (l : Nat) : Bool := decide (l < 2)

/-- The other link of the same kind. -/
def pairLink (l : Nat) : Nat := if l % 2 = 0 then l + 1 else l - 1

/-- The link record that a link plays (R310). -/
def State.linkRec (s : State) (l : Nat) : Option LinkRec :=
  match s.frame.doorway with
  | some d => d.links[if (s.link l).remapped then pairLink l else l]?
  | none => none

/-- The link that plays a planned link's role (R310). -/
def State.roleLink (s : State) (l : Nat) : Nat := if (s.link l).remapped then pairLink l else l

/-- Is the link UP? -/
def State.linkUp (s : State) (l : Nat) : Bool := decide ((s.link l).state = .up)

/-- The credits that this core grants its peer for a class (R297). -/
def State.grant (s : State) (l c : Nat) : Nat :=
  let far (f : LinkRec → Nat) : Nat := match s.linkRec l with
    | some r => f r
    | none => 0
  if l < 2 then [32, 16, 32, 64, 16, 4].getD c 0
  else if l < 4 then [32, 16, 64, 128, 32, 4].getD c 0
  else match c with
    | 0 => far fun r => r.credRsp
    | 1 => 16
    | 2 => far fun r => r.credRed
    | 3 => far fun r => r.credWr
    | 4 => far fun r => r.credRd
    | _ => 4

/-- Entries of the pending table of remote signals (11 R257). -/
def pendingSize : Nat := 1024

/-- SIG credits that this core has granted in all and not withheld (R299). -/
def State.sigOut (s : State) : Nat :=
  ((List.range 6).map fun l =>
    let k := s.link l
    if k.state = .up || (k.state = .hello && k.helloSent) then s.grant l 1 - k.sigHeld else 0).sum

/-- Returns one buffer's credit in the next trailers. -/
def State.freeBuffer (s : State) (l : Nat) (c : Nat) : State :=
  s.modLink l fun k => { k with freed := SMap.put k.freed 0 c (SMap.look k.freed 0 c + 1) }

/-- Frees a SIG buffer: its credit goes out only against a free entry of the pending table (R299). -/
def State.freeSig (s : State) (l : Nat) : State :=
  let s := s.modLink l fun k => { k with sigHeld := k.sigHeld + 1 }
  if s.sigOut < pendingSize - s.latch.pending.length then
    (s.modLink l fun k => { k with sigHeld := k.sigHeld - 1 }).freeBuffer l 1
  else s

/-- Extends one withheld SIG credit of a link, where an entry of the pending table is free for it. -/
def State.sigExtend (s : State) (l : Nat) : State :=
  if s.linkUp l && decide ((s.link l).sigHeld ≠ 0) && decide (s.sigOut < pendingSize - s.latch.pending.length) then
    (s.modLink l fun k => { k with sigHeld := k.sigHeld - 1 }).freeBuffer l 1
  else s

/-- Extends withheld SIG credits when entries of the pending table have become free. -/
def State.sigRelease (s : State) : State :=
  (List.range 6).foldl (fun s l => (List.range (s.link l).sigHeld).foldl (fun s _ => s.sigExtend l) s) s

end Sys2Proof.Machine
end

