-- ==== Sys2Proof/Machine/Context.lean ====
section
/-! DEFINITION. Starting a thread in a context, and ending a context (spec/09 R196, R197; spec/11 R258;
spec/12 R283; spec/16 R405). -/

namespace Sys2Proof.Machine

/-- The entry point of a thread in a Frame. -/
def FrameCfg.entry (f : FrameCfg) (t : Thread) : BitVec 48 := f.entries.getD (Thread.num t) 0

/-- The STEPNO that a Frame gives a thread. -/
def FrameCfg.step0 (f : FrameCfg) (t : Thread) : BitVec 32 := f.step0s.getD (Thread.num t) 0

/-- What a restored checkpoint holds for a thread of a context (16 R405). -/
def State.savedOf (s : State) (c : Nat) (t : Thread) : Option SavedThread :=
  match (s.plane c).restored with
  | some r => r.threads[Thread.num t]?
  | none => none

/-- Does the context give the thread a place to start: an entry point, or a place in its restored checkpoint? -/
def State.startsIn (s : State) (c : Nat) (t : Thread) (f : FrameCfg) : Bool :=
  match s.savedOf c t with
  | some v => decide (v.code ≠ 0)
  | none => decide (f.entry t ≠ 0)

/-- Starts a thread in a context: at its entry point (R196), the other registers keeping their values, or where its
restored checkpoint has it (16 R405). -/
def State.startThread (s : State) (c : Nat) (t : Thread) (f : FrameCfg) : State :=
  let s := s.modTh t fun x =>
    let x := { x with ctx := c, state := .run, wait := .none, stopAsked := false }
    match s.savedOf c t with
    | some v => { x with
        pc := v.pc, stepno := v.stepno, wseq := v.wseq, regs := v.regs, iseq := v.iseq, lastIseq := v.iseq - 1
        fflags := v.fflags }
    | none => { x with pc := f.entry t, stepno := f.step0 t, wseq := 0 }
  (s.journalOpen t).fetchNext t

/-- The context that a thread enters when it has ended its part in `c`: the other slot's, when that context has
started, has a place for the thread to start, and the thread has not ended its part in it (R197). -/
def State.nextContext (s : State) (t : Thread) (c : Nat) : Option FrameCfg :=
  let o := 1 - c
  match s.frameOf o with
  | some f => if s.ctxStarted o && s.startsIn o t f && !(s.th t).ended.contains o then some f else none
  | none => none

/-- Has every thread of the context ended its part: each thread that it starts, and each thread
that runs in its slot (R197)? A thread S that serves exceptions from IDLE runs in no context. -/
def State.allEnded (s : State) (c : Nat) : Bool :=
  match s.frameOf c with
  | none => false
  | some f =>
    allThreads.all fun t =>
      let x := s.th t
      let serving := decide (t = .S) && s.sash.handler && decide (s.sash.epc = 0)
      (!s.startsIn c t f || x.ended.contains c) &&
      (decide (x.state = .idle) || decide (x.ctx ≠ c) || serving)

/-- Discards the pending remote signals of a slot, each counted as LOSTLINK (11 R257), and extends
the SIG credits withheld for want of their entries (13 R299). -/
def State.dropSignals (s : State) (c : Nat) : State :=
  let gone := s.latch.pending.filter fun p => p.slot = c
  { s with latch := { s.latch with
    pending := s.latch.pending.filter fun p => p.slot ≠ c
    tallies := s.latch.tallies.filter fun y => match s.frameOf c with
      | some f => y.ctxid ≠ f.ctxid
      | none => true
    lostlink := satAdd 16 s.latch.lostlink gone.length } }.sigRelease

/-- Sets a plane EMPTY when the last write-back of its descriptors has been answered (12 R283 step 4). -/
def State.planeEmpty (s : State) (c : Nat) : State :=
  if (s.plane c).finished && !s.wbPending c none then s.modPlane c fun _ => Plane.init else s

/-- Ends a context (12 R283, 11 R258). -/
def State.endContext (s : State) (c : Nat) : State :=
  let s := (s.dropSignals c).fillsDrop c
  let s := { s with
    latch := { s.latch with counts := SMap.drop s.latch.counts fun k => k / 48 = c }
    eng := { s.eng with accums := SMap.drop s.eng.accums fun k => k / 32 = c } }
  let s := (s.journalFlush c).dcFlushAll c
  let s := s.modPlane c fun p => { p with
    groups := [], norm := { step := 0, state := 0, sum := 0, kappa := 0 }, held := none, finished := true }
  let s := if s.rpl.plane = some c then { s with rpl := { s.rpl with plane := none, active := false } } else s
  let s := allThreads.foldl (fun s t =>
    s.modTh t fun x => { x with ended := x.ended.filter fun o => o ≠ c }) s
  s.planeEmpty c

/-- Ends a thread's part in its context: it starts in the other context or becomes IDLE, and the context ends with
its last thread (R197). -/
def State.endPart (s : State) (t : Thread) : State :=
  let c := (s.th t).ctx
  let s := s.modTh t fun x => { x with ended := c :: x.ended.filter fun o => o ≠ c }
  let s := match s.nextContext t c with
    | some f => s.startThread (1 - c) t f
    | none => s.modTh t fun x => { x with state := .idle, wait := .none, stopAsked := false }
  if s.allEnded c then s.endContext c else s

/-- Has the thread work in no lane, and no open completion post (R197, 14 R339)? -/
def State.tendReady (s : State) (t : Thread) : Bool :=
  !(s.eng.lanes.any fun e => decide (e.stream = t)) && (s.th t).posts.isEmpty

end Sys2Proof.Machine
end

