-- ==== Sys2Proof/Machine/Store.lean ====
section
/-! DEFINITION. The Lintel store as other chapters read it, the grade, and the identification and FEATURE registers
(spec/17 R410, R423, R424; spec/18 R430, R431). -/

namespace Sys2Proof.Machine

/-- Record i of the shadow (17 R411). -/
def State.record (s : State) (i : Nat) : LtRec := SMap.look s.lt.shadow LtRec.init i

/-- DATA of record i. -/
def State.recData (s : State) (i : Nat) : Nat := (s.record i).data.toNat

/-- Does index i name a record (17 R410)? -/
def recExists (i : Nat) : Bool := decide (i ≤ 16) || (decide (64 ≤ i) && decide (i ≤ 68)) || (decide (72 ≤ i) && decide (i ≤ 255))

/-- Is the record in the vendor class (17 R410)? -/
def recVendor (i : Nat) : Bool := decide (i < 64)

/-- Is Lattice l enabled (17 R423)? -/
def State.latEnabled (s : State) (l : Nat) : Bool := s.lt.applied.latEn.getLsbD l

/-- Is OP5 permitted (17 R424): PERMIT and BOOSTCAP? -/
def State.boostOk (s : State) : Bool := s.lt.applied.boostCap && decide (s.recData 68 % 2 = 1)

/-- BELORE_ID (18 R430). -/
def beloreId : Word := 0x000059A10B4C0302

/-- FEATURE0 to FEATURE7 (18 R431). -/
def State.feature (s : State) (i : Nat) : Word :=
  let a := s.lt.applied
  match i with
  | 0 => w64 (a.grade + (a.latEn.toNat <<< 4) + (128 <<< 8) + (8 <<< 16) + (0x3FF <<< 32) + (b2n a.boostCap <<< 42))
  | 1 => w64 (20480 + (32 <<< 16) + (2 <<< 22) + (4096 <<< 24) + (256 <<< 40) + (2 <<< 50))
  | 2 => w64 (512 + (32 <<< 12) + (4 <<< 18) + (256 <<< 21) + (64 <<< 30) + (32 <<< 37))
  | 3 => w64 (20 + (8192 <<< 5) + (0xC <<< 19) + (48 <<< 24) + (2 <<< 32) + (1024 <<< 34) + (32 <<< 46))
  | 4 => w64 (64 + (256 <<< 7) + (11 <<< 16) + (256 <<< 20) + (32 <<< 29) + (512 <<< 35) + (0xC <<< 45))
  | 5 => w64 (65536 + (6 <<< 17) + (0xE <<< 20) + (256 <<< 24) + (256 <<< 33) + (128 <<< 42) + (64 <<< 50))
  | 6 => w64 (80 + ((if a.boostCap then 5 else 4) <<< 7) + (1000 <<< 10) + (50 <<< 20) + (100 <<< 28) + (1250 <<< 36))
  | _ => w64 (256 + (100000 <<< 9) + (251 <<< 26) + (1000 <<< 34))

end Sys2Proof.Machine
end

