-- ==== Sys2Proof/Machine/Power.lean ====
section
/-! DEFINITION. The clock sources, the voltage-frequency sequencer and the switching of power domains (spec/15 R346 to
R371), as the commands of other files use them. -/

namespace Sys2Proof.Machine

/-- Raises POWER (R375). -/
def State.powerIrq (s : State) : State := s.irqSet 11

/-! ### Sources (R347 to R352) -/

/-- The code of a source. -/
def srcNum (x : Source) : Nat :=
  match x with
  | .tro => 0
  | .refClk => 1
  | .rref0 => 2
  | .rref1 => 3

/-- The source of a code. -/
def sourceOf (n : Nat) : Source :=
  match n % 4 with
  | 0 => .tro
  | 1 => .refClk
  | 2 => .rref0
  | _ => .rref1

/-- Does a source report ready? -/
def State.srcReady (s : State) (x : Source) : Bool := SMap.look s.clk.ready false (srcNum x)

/-- Are both loops locked? Until then no source is switched. -/
def State.locked (s : State) : Bool := s.clk.lockA && s.clk.lockD

/-- Begins the slew towards a source (R352). -/
def State.slewStart (s : State) (x : Source) : State :=
  { s with clk := { s.clk with slewTo := if x = s.clk.inForce then none else some x } }

/-- Falls back to TRO (R350). -/
def State.fallBack (s : State) : State :=
  ({ s with clk := { s.clk with fallback := true, fell := true, readyTicks := 0 } }.slewStart .tro).powerIrq

/-- Follows the selected source once the loops are locked: at once when it is ready. One that has not been ready since
start-up is taken as soon as it is (R373 and the example of R374); after a fallback SOURCE_RETURN decides (R350). -/
def State.followSource (s : State) : State :=
  let c := s.clk
  if s.locked && c.slewTo.isNone && decide (c.sel ≠ c.inForce) && !c.fell && s.srcReady c.sel then s.slewStart c.sel
  else s

/-- The source in force or the one that is slewed to has stopped being ready: fall back (R350). -/
def State.sourceCheck (s : State) : State :=
  let c := s.clk
  let lost (x : Source) : Bool := decide (x ≠ .tro) && !s.srcReady x
  let next := match c.slewTo with
    | some x => lost x
    | none => false
  if (lost c.inForce && decide (c.slewTo ≠ some .tro)) || next then s.fallBack else s.followSource

/-- Selects a source (R349): it is switched to when it is ready, and otherwise handled as a fallback (R350). -/
def State.selectSource (s : State) (x : Source) : State :=
  let s := { s with clk := { s.clk with sel := x, fell := false } }
  if !s.locked then s
  else if x = .tro || s.srcReady x then s.slewStart x
  else s.fallBack

/-! ### The sequencer (R363 to R365) -/

/-- Begins a move to a higher point: its code is requested, and when VACK shows it already the slew begins. -/
def State.voltUp (s : State) (n : Nat) : State :=
  let p := s.pwr
  let v := BitVec.ofNat 3 n
  { s with pwr := { p with
    moving := if p.vack = v then .slew else .volt, moveTo := n, vreq := v, vackTicks := 0
    confirmed := if p.vack = v then v else p.confirmed } }

/-- Moves toward the target, unless a move is under way: upwards the voltage leads, downwards the frequency. -/
def State.seqGo (s : State) : State :=
  let p := s.pwr
  if p.moving ≠ .none || p.parked || decide (s.boot.stage < 7) then s
  else if p.op < p.target then s.voltUp p.target
  else if p.target < p.op then { s with pwr := { p with moving := .slew, moveTo := p.target } }
  else s

/-- Sets the target and moves. -/
def State.setTarget (s : State) (n : Nat) : State := { s with pwr := { s.pwr with target := n } }.seqGo

/-- The run point changes: an accepted request, an effect point, or the withdrawal of boost permission (R365). A parked
core keeps the target 0. -/
def State.setRunPoint (s : State) (n : Nat) : State :=
  let s := { s with pwr := { s.pwr with runPoint := n } }
  if s.pwr.parked then s else s.setTarget n

/-- A downward slew has ended: the frequency is that of the lower point, and the voltage follows (R363, R364). -/
def State.voltDown (s : State) : State :=
  let p := s.pwr
  let v := BitVec.ofNat 3 p.moveTo
  let s := { s with pwr := { p with
    op := p.moveTo, vreq := v, vackTicks := 0, moving := if p.vack = v then .none else .drop
    confirmed := if p.vack = v then v else p.confirmed } }
  s.seqGo

/-- Begins the wake of a parked core when a wake event has come and the move to OP0 is complete (R369). -/
def State.wakeGo (s : State) : State :=
  let p := s.pwr
  if p.parked && p.waking && decide (p.moving = .none) && decide (p.target = 0) then
    { s with pwr := { p with target := p.runPoint } }.voltUp p.runPoint
  else s

/-! ### Domains (R357 to R359) -/

/-- Starts the next domain of the batch while PSW_GNT is 1; after the last, PSW_REQ falls. -/
def State.batchGo (s : State) : State :=
  let p := s.pwr
  if p.starting.isSome then s
  else match p.batch with
    | [] => { s with pwr := { p with pswReq := false, batchOn := [] } }
    | d :: r =>
      if p.pswGnt then { s with pwr := { p with starting := some d, batch := r, settleTicks := 0 } } else s

/-- Asks for domains in an order: those that are off, not left off, and not already asked for. -/
def State.batchAdd (s : State) (ds : List Nat) : State :=
  let p := s.pwr
  let need := ds.filter fun d => !s.domOn d && !p.leftOff.contains d && !p.batch.contains d && decide (p.starting ≠ some d)
  if need.isEmpty then s
  else { s with pwr := { p with batch := p.batch ++ need, pswReq := true } }.batchGo

/-- The bits of a list of domains. -/
def domMask (ds : List Nat) : BitVec 80 := ds.foldl (fun m d => m ||| BitVec.ofNat 80 (2 ^ d)) 0

/-- Switches domains off, at once. -/
def State.domainsOff (s : State) (ds : List Nat) : State :=
  let p := s.pwr
  { s with pwr := { p with
    on := p.on &&& ~~~(domMask ds), batch := p.batch.filter (fun d => !ds.contains d)
    starting := match p.starting with
      | some d => if ds.contains d then none else some d
      | none => none } }.batchGo

/-- The row bands of Lattices in the order of R367: band 0 of each Lattice in ascending order, then band 1, and so on. -/
def bandOrder (lats : List Nat) : List Nat := (List.range 8).flatMap fun b => lats.map fun l => 8 * l + b

/-- Switches on the row bands of Lattices (R367). -/
def State.bandsOn (s : State) (lats : List Nat) : State := s.batchAdd (bandOrder lats)

/-- Does a domain belong to a block that carries a shutter (R357, R361)? -/
def domShutters (d : Nat) : Bool :=
  decide (d < 32) || decide (d = 48 ∨ d = 49) || (decide (56 ≤ d) && decide (d ≤ 61)) || decide (d = 76 ∨ d = 77)

/-- Takes the values of a CLOCK_POWER section at an effect point (R371, R349, R365). -/
def State.planTaken (s : State) (p : PowerPlan) : State :=
  let s := { s with frame := { s.frame with plan := p } }.selectSource p.src
  s.setRunPoint (if p.opRun = 5 && !s.boostOk then 4 else p.opRun)

/-- The Lattices of which a half is assigned. -/
def assignedLats (assign : BitVec 32) : List Nat :=
  (List.range 4).filter fun l => decide (bitsN assign.toNat (8 * l) 8 ≠ 0xFF)

/-- The Lattice half bits of SHUTTER (R361). -/
def shutLatOf (assign : BitVec 32) : BitVec 8 :=
  BitVec.ofNat 8 (((List.range 8).map fun i => if bitsN assign.toNat (4 * i) 4 = 15 then 2 ^ i else 0).sum)

/-- Follows the partition assignment in force: shutters, and row bands on or off (R361, R367). -/
def State.followAssign (s : State) : State :=
  let a := s.frame.assign
  let lats := assignedLats a
  let s := { s with pwr := { s.pwr with shutLat := shutLatOf a } }
  (s.domainsOff (bandOrder ((List.range 4).filter fun l => !lats.contains l))).bandsOn lats

/-- ACLK of an operating point in MHz (R362). -/
def aclkMhz (op : Nat) : Nat := [0, 500, 700, 850, 1000, 1100].getD op 0

end Sys2Proof.Machine
end

