-- ==== Sys2Proof/Machine/Louvre.lean ====
section
/-! DEFINITION. The Louvres: codes, commits, the history, the proposal and the sums of squares (spec/07). -/

namespace Sys2Proof.Machine

/-- The code of one seen value (R154): 0x00 for a zero, 0xFF for a non-finite value. -/
def lvCodeOf (v : Val) : Nat :=
  match v with
  | .fin _ m e => if m = 0 then 0 else (min (max (log2Floor m e + 127) 1) 254).toNat
  | _ => 0xFF

/-- The code of several values: the largest. A non-finite value has the largest code. -/
def lvCode (vs : List Val) : Nat := vs.foldl (fun c v => max c (lvCodeOf v)) 0

/-- A 4-bit two's-complement offset. -/
def lvOffset (v : Nat) : Int := signedN v 4

/-- The code of entry `i` in generation 3 (R156). -/
def lvEntryCode (d : Desc) (i : Nat) : Nat :=
  (min (max ((d.href : Int) + lvOffset (d.hist.getD i 8)) 1) 254).toNat

/-- The 4-bit encoding of an offset clamped to −7 to 7. -/
def lvClampOffset (x : Int) : Nat := ((min (max x (-7)) 7) % 16).toNat

/-- What a push did beside the descriptor: it rebased, or it set HNF (R165). -/
structure PushInfo where
  rebased : Bool
  nf : Bool
  deriving DecidableEq, Repr

/-- A push of a completed step's code into the history (R156). -/
def lvPush (d : Desc) (c : Nat) : Desc × PushInfo :=
  if c = 0 then (d, { rebased := false, nf := false })
  else if c = 0xFF then ({ d with hnf := true }, { rebased := false, nf := true })
  else if d.gen = 2 then
    let n := (d.hptr + 1) % 8
    ({ d with hptr := n, hist := updAt n (fun _ => c) d.hist }, { rebased := false, nf := false })
  else
    let nxt := (d.hptr + 1) % 16
    let held := (List.range 16).filter fun i => decide (i ≠ nxt) && decide (d.hist.getD i 8 ≠ 8)
    let m := held.foldl (fun m i => max m (lvEntryCode d i)) c
    let rebase := held.isEmpty || decide (d.href + 7 < c) || decide (c + 7 < d.href)
    let r := max (m - 7) 8
    let d' :=
      if rebase then
        { d with
          href := r
          hist := (List.range 16).map fun i =>
            if i ∈ held then lvClampOffset ((lvEntryCode d i : Int) - (r : Int)) else d.hist.getD i 8 }
      else d
    ({ d' with
       hist := updAt nxt (fun _ => lvClampOffset ((c : Int) - (d'.href : Int))) d'.hist
       hptr := nxt },
      { rebased := rebase, nf := false })

/-- A commit of code `c` for the step whose low 8 bits are `s8` (R155). -/
def lvCommit (d : Desc) (c s8 : Nat) : Desc × PushInfo :=
  if c = 0 then (d, { rebased := false, nf := false })
  else if d.hstep = s8 then ({ d with hrun := max d.hrun c }, { rebased := false, nf := false })
  else
    let p := lvPush d d.hrun
    ({ p.1 with hrun := c, hstep := s8 }, p.2)

/-- The proposal of a destination (R158); 0 is no proposal. -/
def lvPropose (d : Desc) (s8 : Nat) : Nat :=
  if !d.lvEn then 0
  else
    let n := if d.gen = 3 then 16 else 8
    let own := decide (d.hstep ≠ s8) && decide (1 ≤ d.hrun) && decide (d.hrun ≤ 0xFE)
    let take := if own then n - 1 else n
    (List.range take).foldl (fun p j =>
      let i := (d.hptr + n - j) % n
      if d.gen = 3 then (if d.hist.getD i 8 = 8 then p else max p (lvEntryCode d i))
      else max p (d.hist.getD i 0)) (if own then d.hrun else 0)

/-- The exponent of the largest binade used by a proposal (R38, R159): 6 for INT8. -/
def propEmax (fmt : Nat) : Int :=
  match fmt with
  | 2 => 8
  | 3 => 15
  | 9 => 6
  | _ => mxEmax fmt

/-- The scale byte of an MX block written with a proposal `p` (R159); none for R38 step 3. The block's own scale
enters when LV_BLK is 1. -/
def propMxScale (d : Desc) (p : Nat) (vs : List Val) : Option Nat :=
  if d.scaleSrc && decide (p ≠ 0) then
    let x := (min (max ((p : Int) - propEmax d.fmt) 0) 254).toNat
    if d.lvBlk then
      match topExp vs with
      | some t => some (min x (mxScaleOf d.fmt t))
      | none => some x
    else some x
  else none

/-- The per-tensor scale of a plain FP8 or INT8 tensor: TSCALE, or 2^(p − 127 − emax) from a proposal (R159, R160).
None when TSCALE violates R33. -/
def plainScale (d : Desc) (p : Nat) : Option Val :=
  if d.scaleSrc && decide (p ≠ 0) then some (.fin false 1 ((p : Int) - 127 - propEmax d.fmt))
  else if scaleOk (w32 d.scale) then some (val32 (w32 d.scale)) else none

/-! ### Sums of squares (R161 to R163) -/

/-- The square of a value in units of 2^−298; the values are FP32, so it is an integer. -/
def squareUnits (v : Val) : Nat :=
  match v with
  | .fin _ m e => shiftBy (m * m) (2 * e + 298)
  | _ => 0

/-- Adds the squares of seen values to an accumulator of 608 bits (R161, R162). -/
def accumAdd (a : Accum) (vs : List Val) : Accum :=
  { value := (a.value + vs.foldl (fun t v => t + squareUnits v) 0) % 2 ^ 608
    inf := a.inf || vs.any fun v => match v with
      | .inf _ => true
      | _ => false
    nan := a.nan || vs.any fun v => v.isNan
    resid := (a.resid + vs.foldl (fun t v => t + squareUnits v) 0) % 251 }

/-- Does the residue of an accumulator match its value (16 R380)? -/
def Accum.sound (a : Accum) : Bool := decide (a.value % 251 = a.resid % 251)

/-- A read of an accumulator as FP64 (R163). -/
def accumRead (a : Accum) : Word :=
  if a.nan then w64 lFP64.nan
  else if a.inf then w64 lFP64.infBits
  else (rne64 (.fin false a.value (-298))).1

/-- The accumulator of a context slot and number 0 to 31. -/
def State.accum (s : State) (ctx n : Nat) : Accum := SMap.look s.eng.accums Accum.init (32 * ctx + n)

/-- Replaces an accumulator. -/
def State.setAccum (s : State) (ctx n : Nat) (a : Accum) : State :=
  { s with eng := { s.eng with accums := SMap.put s.eng.accums Accum.init (32 * ctx + n) a } }

end Sys2Proof.Machine
end

