-- ==== Sys2Proof/Machine/Tensor.lean ====
section
/-! DEFINITION. Reading and writing tensor elements: bits in a byte store, decoding (spec/02 R32, R33, R36), narrowing
writes (R37 to R41, spec/07 R159), the Sill's CLEAR bits (spec/05 R110, R115), and the digest stream of what an entry
writes (spec/16 R395). -/

namespace Sys2Proof.Machine

/-! ### Bits of elements -/

/-- The bytes that hold an element: address of the first, and how many. -/
def elemSpan (d : Desc) (x : Coord) : Nat × Nat :=
  let a := elemAddr d x
  (a.1, (a.2 + fmtBits d.fmt + 7) / 8)

/-- The addresses of the bytes that hold an element. -/
def elemAddrs (d : Desc) (x : Coord) : List Nat :=
  let a := elemSpan d x
  (List.range a.2).map fun i => a.1 + i

/-- The bits of an element in a byte store. -/
def elemBits (m : Mem) (d : Desc) (x : Coord) : Nat :=
  let a := elemAddr d x
  (Mem.num m a.1 (elemSpan d x).2 >>> a.2) % 2 ^ fmtBits d.fmt

/-- The scale byte of an element's block in a byte store. -/
def scaleByte (m : Mem) (d : Desc) (x : Coord) : Nat := Mem.num m (scaleAddr d x) 1

/-- Every element of a tensor in logical order. -/
def coords (d : Desc) : List Coord := (List.range (elemCount d)).map (coordOf d)

/-- Every byte of a tensor: its elements that `p` holds of, and for an MX tensor their scale bytes. -/
def tensorAddrs (d : Desc) (p : Coord → Bool) : List Nat :=
  ((coords d).filter p).flatMap fun x => elemAddrs d x ++ (if isMx d.fmt then [scaleAddr d x] else [])

/-! ### Decoding (02 R36) -/

/-- The scale that a reader of a plain FP8 or INT8 tensor applies: its proposal in place of TSCALE under SCALE_SRC
(07 R160). -/
def readScale (d : Desc) (p : Nat) : Option Val := plainScale d p

/-- An element as FP32 for a reader (02 R36): an FP32 element keeps its bits; a NaN element, or a block under scale
0xFF, raises NANIN (R53). -/
def loadElem (m : Mem) (d : Desc) (p : Nat) (x : Coord) : BitVec 32 × Flags :=
  let b := elemBits m d x
  let v := ofFmt d.fmt b
  let nn := if v.isNan then flagNanin else noFlags
  if d.fmt = 0 then (w32 b, nn)
  else if d.fmt = 1 then ((rne32 v).1, nn)
  else if isMx d.fmt then
    let sv := mxVal d.fmt (scaleByte m d x) b
    if sv.isNan then (nan32, flagNanin) else rne32 sv
  else match readScale d p with
    | none => (nan32, { flagInvalid with nanin := v.isNan })
    | some sc => if v.isNan then (nan32, flagNanin) else arith32 (Val.mul v sc)

/-! ### Narrowing writes (02 R37 to R39) -/

/-- One write of bits: a byte address, the bit it starts at, its width and value, and its place in the digest stream:
the linear index of the element, or of the block's last written element for a scale byte. -/
structure BitWrite where
  addr : Nat
  bit : Nat
  width : Nat
  val : Nat
  lin : Nat
  scale : Bool
  deriving DecidableEq, Repr

/-- A value to be written to an element, with the stochastic-rounding number it draws. -/
structure Item where
  x : Coord
  v : Val
  u : Nat
  deriving DecidableEq, Repr

/-- The write of an element's encoding. -/
def elemWrite (d : Desc) (x : Coord) (b : Nat) : BitWrite :=
  let a := elemAddr d x
  { addr := a.1, bit := a.2, width := fmtBits d.fmt, val := b, lin := linIndex d x, scale := false }

/-- The write of a block's scale byte behind its last written element. -/
def scaleWrite (d : Desc) (x : Coord) (b : Nat) : BitWrite :=
  { addr := scaleAddr d x, bit := 0, width := 8, val := b, lin := linIndex d x, scale := true }

/-- Does a destination take the element: inside its extents and not masked (R66, R67)? -/
def takes (d : Desc) (x : Coord) : Bool := inExtents d x && !masked d x

/-- Puts an item into the block it belongs to; blocks are named by the address of their scale byte. -/
def blockAdd (d : Desc) (i : Item) (l : List (Nat × List Item)) : List (Nat × List Item) :=
  match l with
  | [] => [(scaleAddr d i.x, [i])]
  | (k, is) :: r => if k = scaleAddr d i.x then (k, is ++ [i]) :: r else (k, is) :: blockAdd d i r

/-- One MX block (R38), with the Louvre proposal `p` (07 R159). -/
def narrowBlock (d : Desc) (p : Nat) (items : List Item) : List BitWrite × Flags :=
  let vs := items.map fun i => i.v
  let sc := mxScale d.fmt (propMxScale d p vs) vs
  let es := items.map fun i => (i.x, mxElem d.fmt sc (rmodeOf d.rmode) i.u i.v)
  match items.getLast? with
  | none => ([], noFlags)
  | some l => (es.map (fun e => elemWrite d e.1 e.2.1) ++ [scaleWrite d l.x sc], flagsAny (es.map fun e => e.2.2))

/-- One element of a plain FP8 or INT8 tensor: value divided by its scale, one rounding (R33, R142). -/
def narrowPlain (d : Desc) (sc : Option Val) (i : Item) : Nat × Flags :=
  match sc with
  | none => ((toFmt d.fmt .rne 0 .nan).1, flagInvalid)
  | some c =>
    let v := if i.v.isNan then .nan else (Val.div i.v c).1
    toFmt d.fmt (rmodeOf d.rmode) i.u v

/-- The writes of a list of values to a destination, one rounding each; elements that the destination does not take
are left out. An FP32 NaN that an ST or a SILL.DRAIN writes to an FP32 tensor is converted and becomes the canonical NaN (R37);
whether such a write is a move, which would keep its encoding (R31), the spec does not say (DESIGN CHOICE, log entry 55). -/
def narrowWrites (d : Desc) (p : Nat) (items : List Item) : List BitWrite × Flags :=
  let items := items.filter fun i => takes d i.x
  if isMx d.fmt then
    let bs := (items.foldl (fun l i => blockAdd d i l) []).map fun b => narrowBlock d p b.2
    ((bs.map fun b => b.1).flatten, flagsAny (bs.map fun b => b.2))
  else
    let sc := plainScale d p
    let es := items.map fun i =>
      (i.x, if isPlainScaled d.fmt then narrowPlain d sc i else toFmt d.fmt (rmodeOf d.rmode) i.u i.v)
    (es.map (fun e => elemWrite d e.1 e.2.1), flagsAny (es.map fun e => e.2.2))

/-! ### Performing writes -/

/-- The bytes of a write, with the bits beside it taken from `byteOf`. -/
def writeCells (byteOf : Nat → Byte) (w : BitWrite) : List Host.Cell :=
  let n := (w.bit + w.width + 7) / 8
  let old := leNat ((List.range n).map fun i => byteOf (w.addr + i))
  let mask := (2 ^ w.width - 1) <<< w.bit
  let new := old - (old &&& mask) + ((w.val % 2 ^ w.width) <<< w.bit)
  cellsAt w.addr (natLe n new)

/-- Counts accesses to a shuttered block (15 R360, 16 R393). -/
def State.shutAccess (s : State) (block n : Nat) : State :=
  if n = 0 then s
  else { s with int := { s.int with
    shutCount := satAdd 32 s.int.shutCount n, shutBlock := BitVec.ofNat 4 block, shutPend := true } }

/-- The BLOCK code of SHUT_CNT for a domain that was left off. -/
def shutOffCode : Nat := 7

/-- The BLOCK code of the Sill in SHUT_CNT: shuttered by the host, or left off. -/
def State.sillCode (s : State) : Nat := if s.pwr.shutSill then 3 else shutOffCode

/-- The BLOCK code of the Transom in SHUT_CNT. -/
def State.trnCode (s : State) : Nat := if s.pwr.shutTransom then 4 else shutOffCode

/-- A write into the scratchpad. Bytes in a spare bank that was left off are dropped and counted (15 R357). -/
def State.spadWrite (s : State) (w : BitWrite) : State :=
  let cs := writeCells (fun a => SMap.look s.eng.spad 0 a) w
  let dark := cs.filter fun c => s.bankDark c.1
  let s := s.shutAccess shutOffCode (min dark.length 1)
  let live := cs.filter fun c => !s.bankDark c.1
  { s with eng := { s.eng with spad := live.foldl (fun m c => SMap.put m 0 c.1 c.2) s.eng.spad } }

/-- A write into the Sill: it resets the CLEAR bit of its line (05 R110). A clear line holds zero bytes. -/
def State.sillWrite (s : State) (w : BitWrite) : State :=
  let cs := writeCells (fun a => SMap.look s.eng.sill 0 a) w
  { s with eng := { s.eng with
    sill := cs.foldl (fun m c => SMap.put m 0 c.1 c.2) s.eng.sill
    sillSet := SMap.put s.eng.sillSet false (w.addr / 128) true } }

/-- The byte at an address of a byte list of cells, or of a store. -/
def cellByte (cs : Mem) (m : Mem) (a : Nat) : Byte :=
  match cs.find? fun c => c.1 = a with
  | some c => c.2
  | none => SMap.look m 0 a

/-- A write towards memory, gathered in the entry; the bits beside it are those read from memory. -/
def Entry.memWrite (e : Entry) (w : BitWrite) : Entry :=
  let cs := writeCells (fun a => cellByte e.out e.got a) w
  { e with out := cs.foldl (fun m c => cellPut m c.1 c.2) e.out }

/-- The digest key of a write to destination number `n` (16 R395). -/
def wroteKey (n : Nat) (w : BitWrite) : Nat := n * 2 ^ 96 + 2 * w.lin + b2n w.scale

/-- Notes what an entry of a journalled context writes to its destination number `n`. -/
def State.noteWrite (s : State) (uid n : Nat) (w : BitWrite) : State :=
  match s.entry uid with
  | none => s
  | some e =>
    match s.frameOf e.ctx with
    | some f => if f.journal then
        s.modEntry uid fun e => { e with wrote := SMap.put e.wrote 0 (wroteKey n w) (w.val + 1) } else s
    | none => s

/-- Performs a write of an entry to its destination number `n`, without its digest. -/
def State.place (s : State) (uid : Nat) (d : Desc) (w : BitWrite) : State :=
  match d.space with
  | 1 => s.spadWrite w
  | 2 => if s.sillDark then s.shutAccess s.sillCode 1 else s.sillWrite w
  | _ => s.modEntry uid fun e => e.memWrite w

/-- Performs a write of an entry to its destination number `n`. -/
def State.write1 (s : State) (uid n : Nat) (d : Desc) (w : BitWrite) : State :=
  (s.noteWrite uid n w).place uid d w

/-- Performs the writes of an entry to its destination number `n`. -/
def State.writeAll (s : State) (uid n : Nat) (d : Desc) (ws : List BitWrite) : State :=
  ws.foldl (fun s w => s.write1 uid n d w) s

/-- The byte store an operand lies in: the scratchpad, the Sill, which reads zero while it is shuttered (15 R360), or
the bytes that arrived from memory. -/
def State.bytesOf (s : State) (space : Nat) (got : Mem) : Mem :=
  match space with
  | 1 => s.eng.spad
  | 2 => if s.sillDark then [] else s.eng.sill
  | _ => got

/-- Counts the reads of scratchpad lines that a left-off spare bank answers with zeros (15 R357, 16 R393). -/
def State.linesShut (s : State) (lines : List Nat) : State :=
  if s.pwr.leftOff.isEmpty then s
  else s.shutAccess shutOffCode (lines.filter fun l => s.bankDark (128 * l)).length

/-- Counts the reads of elements that a left-off spare bank of the scratchpad, or a dark Sill, answers with zeros (15 R357,
R360, 16 R393). -/
def State.readShut (s : State) (d : Desc) (xs : List Coord) : State :=
  match d.space with
  | 1 => if s.pwr.leftOff.isEmpty then s
    else s.shutAccess shutOffCode (xs.filter fun x => (elemAddrs d x).any s.bankDark).length
  | 2 => if s.sillDark then s.shutAccess s.sillCode xs.length else s
  | _ => s

/-- Puts arrived bytes into a store of cells. -/
def gotPut (m : Mem) (a : Nat) (bs : List Byte) : Mem :=
  match bs with
  | [] => m
  | b :: r => gotPut (cellPut m a b) (a + 1) r

/-! ### The residues of the accumulators (16 R380, R388, R389) -/

/-- Adds squares that an entry's writes show to an accumulator of its context, and notes the entry as its last user (07 R161,
16 R389). -/
def State.addSquares (s : State) (e : Entry) (sums : Option Nat) (vs : List Val) : State :=
  match sums with
  | some n =>
    let s := s.setAccum e.ctx n (accumAdd (s.accum e.ctx n) vs)
    { s with int := { s.int with
      accUse := SMap.put s.int.accUse 0 (32 * e.ctx + n) (1 + 4 * e.iseq.toNat + Thread.num e.stream) } }
  | none => s

/-- A read, a clear or a contribution checks the residue of an accumulator. A mismatch, of its value or of a copy of the
Louvre that `u` names, is attributed to the entry that added to the accumulator last (R389). -/
def State.accumCheck (s : State) (ctx n : Nat) (u : Upset) : State :=
  let last := SMap.look s.int.accUse 0 (32 * ctx + n) - 1
  let i : EventInfo := { eventOf mechLouvre 0 with stream := last % 4, ctx := ctx, iseq := BitVec.ofNat 32 (last / 4) }
  match u with
  | .fatal d => s.integrity { i with detail := some d }
  | _ => if (s.accum ctx n).sound then s else s.integrity i

/-! ### Clearing Sill elements (05 R115) -/

/-- Clears read-out FP32 elements of the Sill at the given addresses: a line whose every word was read out takes its
CLEAR bit, in any other line +0 is written. -/
def State.sillClear (s : State) (as : List Nat) : State :=
  let words := as.foldl (fun l a => insertNat (a / 4) l) []
  let m := words.foldl (fun m w => (List.range 4).foldl (fun m i => SMap.put m 0 (4 * w + i) 0) m) s.eng.sill
  let lines := words.foldl (fun l w => insertNat (w / 32) l) []
  { s with eng := { s.eng with
    sill := m
    sillSet := lines.foldl (fun f l =>
      SMap.put f false l (decide ((words.filter fun w => w / 32 = l).length < 32))) s.eng.sillSet } }

/-! ### Unspecified contents (log entry 4) -/

/-- Makes every byte that a destination's written elements occupy a free value: the contents that the spec calls
unspecified over the footprint (R120, R187, R248, R332). Memory is outside the block, so this reaches the scratchpad
and the Sill only, and of these what is on (15 R357, R360). -/
def State.freeFootprint (s : State) (d : Desc) : State :=
  let as := (tensorAddrs d fun x => takes d x).filter fun a => !(decide (d.space = 1) && s.bankDark a)
  let put (m : Mem) : Mem := as.foldl (fun m a => SMap.put m 0 a (Config.freeByte s.fresh a)) m
  match d.space with
  | 1 => { s with eng := { s.eng with spad := put s.eng.spad } }.draw.2
  | 2 => if s.sillDark then s
    else { s with eng := { s.eng with
      sill := put s.eng.sill
      sillSet := as.foldl (fun m a => SMap.put m false (a / 128) true) s.eng.sillSet } }.draw.2
  | _ => s

/-! ### Stochastic rounding (02 R41) -/

/-- What is common to the stochastic-rounding numbers of a write. -/
structure SrBase where
  seed : Word
  stream : Nat
  step : BitVec 32
  wseq : BitVec 32
  deriving DecidableEq, Repr

/-- The number of an element; only RMODE 4 draws one. -/
def SrBase.u (b : SrBase) (rmode handle index : Nat) : Nat :=
  if rmode = 4 then srU b.seed b.stream b.step b.wseq handle index else 0

/-- The seed of a context's Frame. -/
def State.seedOf (s : State) (ctx : Nat) : Word :=
  match s.frameOf ctx with
  | some f => f.seed
  | none => 0

/-- The base of an entry's write with the given write_seq. -/
def State.srBase (s : State) (e : Entry) (wseq : BitVec 32) : SrBase :=
  { seed := s.seedOf e.ctx, stream := Thread.num e.stream, step := e.step, wseq := wseq }

/-- The items of a write under R41: index and handle are the destination's. -/
def srItems (b : SrBase) (o : Opnd) (vs : List (Coord × Val)) : List Item :=
  vs.map fun p => { x := p.1, v := p.2, u := b.u o.desc.rmode o.handle (linIndex o.desc p.1) }

/-! ### Tracked destinations (07 R154) -/

/-- Adds a Louvre code to the commits of an entry: one for each destination, the largest code. -/
def commitAdd (c : Commit) (l : List Commit) : List Commit :=
  match l with
  | [] => [c]
  | k :: r => if k.handle = c.handle && k.ctx = c.ctx then { k with code := max k.code c.code } :: r
              else k :: commitAdd c r

/-- The Louvre of a write path sees values of a tracked destination (07 R153, R154). -/
def State.louvreSees (s : State) (uid : Nat) (o : Opnd) (drain : Bool) (vs : List Val) : State :=
  if o.desc.lvEn then
    s.modEntry uid fun e => { e with
      commits := commitAdd { ctx := o.ctx, handle := o.handle, code := lvCode vs, step := e.step, drain := drain }
        e.commits }
  else s

/-- The proposal that an entry read for a handle at its start. -/
def Entry.prop (e : Entry) (h : Nat) : Nat :=
  match e.props.find? fun p => p.1 = h with
  | some p => p.2
  | none => 0

end Sys2Proof.Machine
end

