-- ==== Sys2Proof/Machine/Operands.lean ====
section
/-! DEFINITION. The operands of the T format (spec/09 R215, R216, R218): register groups, handle resolution
(spec/03 R54 to R59), scalar operands, partitions, and the way into a lane (spec/10 R231, R232). -/

namespace Sys2Proof.Machine

/-! ### Queues and lanes (R216, R232) -/

/-- The Casement queue. -/
def qCas : Nat := 8

/-- The Transom queue. -/
def qTrn : Nat := 9

/-- The Jamb-transfer queue. -/
def qJamb : Nat := 10

/-- Entries that a lane of a queue holds. -/
def laneSize (q : Nat) : Nat := if q < 9 then 16 else if q = 9 then 8 else 32

/-- Casement words of a job: an UPD.APPLY or UPD.ROOT step counts none. -/
def Job.words (j : Job) : Nat :=
  match j with
  | .casement u => if u.group.isSome then 0 else u.body.length + b2n u.domain.isSome
  | _ => 0

/-- The entries of a lane that still occupy it. -/
def State.laneHeld (s : State) (q : Nat) (t : Thread) : List Entry :=
  (s.lane q t).filter fun e => decide (e.phase = .queued)

/-- Is there room in a lane for an entry with `w` Casement words? -/
def State.laneFree (s : State) (q : Nat) (t : Thread) (w : Nat) : Bool :=
  let l := s.laneHeld q t
  decide (l.length < laneSize q) && decide ((l.map fun e => e.job.words).sum + w ≤ 256)

/-! ### Partitions (spec/04 R94) -/

/-- The halves of a partition in the assignment in force: Lattice and half. -/
def State.partHalves (s : State) (p : Nat) : List (Nat × Nat) :=
  (List.range 8).filterMap fun i =>
    if bitsN s.frame.assign.toNat (4 * i) 4 = p then some (i / 2, i % 2) else none

/-- Is the partition defined? -/
def State.partDefined (s : State) (p : Nat) : Bool := !(s.partHalves p).isEmpty

/-- Is it a half partition? -/
def State.partHalf (s : State) (p : Nat) : Bool := decide ((s.partHalves p).length = 1)

/-- The Lattices of a partition in ascending order: rank by position (R79). -/
def State.partLats (s : State) (p : Nat) : List Nat := (s.partHalves p).foldl (fun l h => insertNat h.1 l) []

/-! ### Jobs that draw on a lane -/

/-- Is the job a zero-time one (R234)? -/
def Job.zeroTime (j : Job) : Bool :=
  match j with
  | .qsig _ => true
  | .adv _ => true
  | _ => false

/-- A fresh entry of a plan. -/
def State.newEntry (s : State) (t : Thread) (q : Nat) (j : Job) (latch : Option Nat) : Entry :=
  let th := s.th t
  { uid := s.eng.nextUid, stream := t, ctx := th.ctx, queue := q, iseq := th.iseq, step := th.stepno,
    latch := latch, wseq := th.wseq, job := j, phase := .queued, status := 0,
    formed := false, got := [], rdWait := 0, wrWait := 0, tagWait := 0, kept := [], out := [], errStatus := 0, props := [], asked := none,
    commits := [], aborted := false, clip := 0, wrote := [] }

/-- Puts an entry at the end of its lane; one for a partition switches its row bands on (15 R367). -/
def State.laneAdd (s : State) (e : Entry) : State :=
  let s := { s with eng := { s.eng with lanes := s.eng.lanes ++ [e], nextUid := s.eng.nextUid + 1 } }
  if e.queue < 8 then s.bandsOn (s.partLats e.queue) else s

/-- How many UPD.ADV entries of the group have been accepted and have not taken effect (08 R188). -/
def State.advWaiting (s : State) (ctx g : Nat) : Nat :=
  (s.eng.lanes.filter fun e => e.ctx = ctx && e.job = .adv g && e.phase = .queued).length

/-- Is a root computation of the group due (08 R188)? -/
def State.rootDue (s : State) (ctx g : Nat) : Bool :=
  let every := s.g0 ctx g 32 16
  decide (((s.groupState ctx g).step.toNat + s.advWaiting ctx g) % 2 ^ 32 % every = 0)

/-- The lanes that a plan needs: an UPD.ROOT that is due takes a place in its partition's lane as well (08 R189). -/
def State.planRoom (s : State) (t : Thread) (p : Plan) : Bool :=
  s.laneFree p.queue t p.job.words &&
  match p.job with
  | .root r => !s.rootDue (s.th t).ctx r.group || s.laneFree r.part t 0
  | _ => true

/-- Puts a plan into its lane: the entry with its job, and for UPD.ROOT the test of R188 and the place in the
partition's lane. -/
def State.planEnter (s : State) (t : Thread) (p : Plan) : State :=
  match p.job with
  | .root r =>
    let r := { r with due := s.rootDue (s.th t).ctx r.group }
    let s := s.laneAdd (s.newEntry t p.queue (.root r) p.latch)
    if r.due then s.laneAdd (s.newEntry t r.part (.rootPart r) none) else s
  | j => s.laneAdd (s.newEntry t p.queue j p.latch)

/-- Step 4 of R218: the entry, rd, ISEQ and WSEQ; the thread goes on behind the instruction. -/
def State.accept (s : State) (t : Thread) (p : Plan) : State :=
  let s := s.planEnter t p
  let s := if p.tensor then
      (s.setReg t p.rd 0).modTh t fun x => { x with iseq := x.iseq + 1, wseq := x.wseq + BitVec.ofNat 32 p.writes }
    else s
  s.resume t p.bytes

/-- Steps 4 and 5 of R218. A thread that was asked to stop while its handles resolved stops instead of waiting. -/
def State.enter (s : State) (t : Thread) (p : Plan) : State :=
  if s.planRoom t p then s.accept t p
  else if (s.th t).stopAsked then s.stopped t
  else s.waitIn t .queue (.lane p)

/-- Step 3 of R218: a refusal writes its status into rd; with rd = s0 it raises ISSUE_REFUSED, whose INFO is the
ISEQ that the instruction would have had. -/
def State.refuse (s : State) (t : Thread) (rd : Reg) (status bytes : Nat) : State :=
  if rd = 0 then s.stopExc t 0x07 status ((s.th t).iseq.zeroExtend 64) (s.th t).pc
  else (s.setReg t rd (w64 status)).resume t bytes

/-! ### Handles (spec/03 R54 to R58) -/

/-- What comes of resolving one handle. -/
inductive Resolution
  | ok (o : Opnd)
  | bad (status : Nat)
  | miss (handle : Nat)
  deriving DecidableEq, Repr

/-- What resolving a register value in a context comes to, with the cached entry `e` of the handle: R54, R55, R56, then the
cache. A window descriptor named as a destination fails check 3 of R58 (R64). -/
def resolved (ctx v : Nat) (dest : Bool) (e : Option DcEntry) : Resolution :=
  match e with
  | none => .miss v
  | some e => if dest && e.desc.winEn then .bad stBadDesc else .ok { ctx := ctx, handle := v, desc := e.desc }

/-- Resolves a register value in a context. -/
def State.resolve1 (s : State) (ctx v : Nat) (dest : Bool) : State × Resolution :=
  if 2 ^ 20 ≤ v || v = 0 || s.descCount ctx ≤ v then (s, .bad stBadHandle)
  else
    let r := s.dcRead ctx v
    (r.1, resolved ctx v dest r.2)

/-- The handles of an instruction in the order they are resolved: register value and destination. `none` is an
absent operand of an update record. -/
abbrev HandleList := List (Option (Nat × Bool))

/-- Resolves the handles that are still to be resolved, `n` at most. Answers the state, and the resolved operands, a
refusal, or the missing handle. -/
def State.resolveAll (s : State) (t : Thread) (hs : HandleList) (got : List (Option Opnd)) (n : Nat) :
    State × (List (Option Opnd) × Option Resolution) :=
  match n with
  | 0 => (s, (got, none))
  | n + 1 =>
    match hs[got.length]? with
    | none => (s, (got, none))
    | some none => s.resolveAll t hs (got ++ [none]) n
    | some (some (v, dest)) =>
      let ctx := (s.th t).ctx
      let r := s.resolve1 ctx v dest
      let s := r.1
      match r.2 with
      | .ok o => (s.digestResolve t v o.desc).resolveAll t hs (got ++ [some o]) n
      | .bad st => (s.descFault ctx (v % 2 ^ 20) st, (got, some (.bad st)))
      | .miss h => (s.fillAsk ctx h, (got, some (.miss h)))

/-- Waits in MEMORY for the fill of a handle (R218 step 1). -/
def State.waitFill (s : State) (t : Thread) (i : Issue) (h : Nat) : State := s.waitMem t (.resolve i h)

/-! ### Scalar operands (spec/06 R128) -/

/-- A scalar operand of a Casement word from a register value: the element's bits, and the flags of a conversion. -/
def scalarOperand (dt : Nat) (sf : Bool) (v : Word) : BitVec 32 × Flags :=
  if sf && decide (dt ≠ 2) then
    let l := if dt = 1 then lBF16 else lFP32
    let x := val64 v
    let r := l.ofVal .rne 0 x
    (w32 r.1, if x.isNan then { r.2 with nanin := true } else r.2)
  else if dt = 1 then (w32 (v.toNat % 65536), noFlags)
  else (v.setWidth 32, noFlags)

/-- The tile that a register names outside a loop (R140). -/
def tileOf (v : Word) : Nat × Nat × Nat := (bitsN v.toNat 0 20, bitsN v.toNat 20 20, bitsN v.toNat 40 24)

/-! ### Checks in order -/

/-- The status of the first condition that holds. -/
def firstBad (l : List (Bool × Nat)) : Option Nat :=
  match l with
  | [] => none
  | (b, st) :: r => if b then some st else firstBad r

/-- Do two descriptors have the same extents? -/
def sameExtents (a b : Desc) : Bool :=
  decide (a.n0 = b.n0) && decide (a.n1 = b.n1) && decide (a.n2 = b.n2) && decide (a.n3 = b.n3)

/-- One narrowing write when the destination's RMODE is 4 (02 R41). -/
def srCount (d : Desc) : Nat := if d.rmode = 4 then 1 else 0

/-- The update configuration of a context. -/
def State.updCfg (s : State) (ctx : Nat) : Option UpdCfg :=
  match s.frameOf ctx with
  | some f => f.update
  | none => none

/-- A reduction group of the DOORWAY section in force. -/
def State.groupRec (s : State) (g : Nat) : Option GroupRec :=
  match s.frame.doorway with
  | some d => d.groups[g]?
  | none => none

/-- Routes of the DOORWAY section in force. -/
def State.routeCount (s : State) : Nat :=
  match s.frame.doorway with
  | some d => d.routes.length
  | none => 0

end Sys2Proof.Machine
end

