-- ==== Sys2Proof/Machine/CasWords.lean ====
section
/-! DEFINITION. Casement words: their fields (spec/06 R127), the checks of R146 and R168, and the operations they
stand for with what they capture at issue (R128, R135, R140). -/

namespace Sys2Proof.Machine

/-! ### Fields (R127) -/

/-- OP. -/
def cwOp (w : BitVec 32) : Nat := bitsN w.toNat 0 6
/-- DT. -/
def cwDt (w : BitVec 32) : Nat := bitsN w.toNat 6 2
/-- PD. -/
def cwPd (w : BitVec 32) : Nat := bitsN w.toNat 8 5
/-- PA. -/
def cwPa (w : BitVec 32) : Nat := bitsN w.toNat 13 5
/-- PB. -/
def cwPb (w : BitVec 32) : Nat := bitsN w.toNat 18 5
/-- PC. -/
def cwPc (w : BitVec 32) : Nat := bitsN w.toNat 23 5
/-- BSRC: bit 0 says that B is a scalar, bit 1 that C is. -/
def cwBScalar (w : BitVec 32) : Bool := bitN w.toNat 28
/-- BSRC bit 1. -/
def cwCScalar (w : BitVec 32) : Bool := bitN w.toNat 29
/-- SF. -/
def cwSf (w : BitVec 32) : Bool := bitN w.toNat 30
/-- LINK. -/
def cwLink (w : BitVec 32) : Bool := bitN w.toNat 31

/-- Is it an LD? -/
def cwIsLd (w : BitVec 32) : Bool := decide (cwOp w = 0x30)
/-- Is it an ST? -/
def cwIsSt (w : BitVec 32) : Bool := decide (cwOp w = 0x31)
/-- Is it a LOOP? -/
def cwIsLoop (w : BitVec 32) : Bool := decide (cwOp w = 0x38)
/-- Does it name a handle? -/
def cwHandle (w : BitVec 32) : Bool := cwIsLd w || cwIsSt w || cwIsLoop w

/-! ### Checks of one word (R146) -/

/-- Row 1: OP or DT reserved, or DT not in the operation's row. -/
def cwBadOp (w : BitVec 32) : Bool := !(casDts (cwOp w)).contains (cwDt w)

/-- Row 2: a scalar that the operation does not take; SF with DT 2. -/
def cwBadScalar (w : BitVec 32) : Bool :=
  let op := cwOp w
  let never := casIsRed op || decide (op = 0x2C) || decide (op = 0x2D) || decide (op = 0x2E) || cwHandle w
  (cwBScalar w && (never || !casReadsB op)) || (cwCScalar w && (never || !casReadsC op)) ||
  (cwSf w && decide (cwDt w = 2))

/-- Row 3: SEL with a scalar C; SCALEB in DT 1 without a scalar B alone; SCALEB with a scalar B and SF. -/
def cwBadSpecial (w : BitVec 32) : Bool :=
  (decide (cwOp w = 0x14) && cwCScalar w) ||
  (decide (cwOp w = 0x0C) && decide (cwDt w = 1) && (!cwBScalar w || cwCScalar w)) ||
  (decide (cwOp w = 0x0C) && cwBScalar w && cwSf w)

/-- Row 4: RMODE, ACC and unused bits of PC. -/
def cwBadPc (inLoop : Bool) (w : BitVec 32) : Bool :=
  let op := cwOp w
  let pc := cwPc w
  if casReadsC op then false
  else if casIsConv op then
    decide (5 ≤ pc % 8) || decide (8 ≤ pc) || (decide (pc = 4) && !inLoop)
  else if casIsRed op then decide (8 ≤ pc) || decide (pc / 2 = 3)
  else if op = 0x2C || cwIsSt w || cwIsLoop w then decide (2 ≤ pc)
  else decide (pc ≠ 0)

/-- The first part of row 6: a body Pane field above P15. -/
def cwBadPanes (w : BitVec 32) : Bool :=
  let op := cwOp w
  decide (15 < cwPd w) || (casReadsA op && decide (15 < cwPa w)) ||
  (casReadsB op && !cwBScalar w && decide (15 < cwPb w)) || (casReadsC op && !cwCScalar w && decide (15 < cwPc w))

/-- May a program of the UPDATE section hold the word (08 R168)? -/
def cwProgramOk (w : BitVec 32) : Bool :=
  let op := cwOp w
  ((decide (0x01 ≤ op) && decide (op ≤ 0x0E)) || (decide (0x10 ≤ op) && decide (op ≤ 0x14))) &&
  decide (cwDt w = 0) && !cwLink w && !cwBadPanes w && !cwBadOp w && !cwBadScalar w && !cwBadSpecial w &&
  !cwBadPc true w

/-! ### Units (R129, R143) -/

/-- Does a chain's linking hold: every word but the last linked, the last not? -/
def chainOk (ws : List (BitVec 32)) : Bool :=
  match ws with
  | [] => false
  | [w] => !cwLink w
  | w :: r => cwLink w && chainOk r

/-- Do the words form exactly one unit? -/
def oneUnit (ws : List (BitVec 32)) : Bool :=
  match ws with
  | [] => false
  | w :: body => if cwIsLoop w then decide (body.length = cwPb w + 1) else chainOk (w :: body)

/-- Words with the operands that they name, in word order. -/
def pairOpnds (ws : List (BitVec 32)) (os : List (Option Opnd)) : List (BitVec 32 × Option Opnd) :=
  match ws with
  | [] => []
  | w :: r => if cwHandle w then (w, os.headD none) :: pairOpnds r (os.drop 1) else (w, none) :: pairOpnds r os

/-- The checks of R146 on a unit: `dom` is the domain's descriptor for a loop with the LOOP's DT. -/
def unitBad (ws : List (BitVec 32)) (ps : List (BitVec 32 × Option Opnd)) (dom : Option (Desc × Nat)) : Option Nat :=
  let inLoop := dom.isSome
  let body := if inLoop then ws.drop 1 else ws
  let ports := ps.filterMap fun p => if cwIsLd p.1 || cwIsSt p.1 then p.2.map fun o => (p.1, o.desc) else none
  let extentOk (a b : Nat) : Bool := decide (a = b) || decide (a = 1)
  firstBad [
    (ws.any cwBadOp, stBadOperation),
    (ws.any cwBadScalar, stBadOperation),
    (ws.any cwBadSpecial, stBadOperation),
    (ws.any (cwBadPc inLoop), stBadOperation),
    (body.any cwIsLoop || (inLoop && ws.any cwLink) || (!inLoop && decide (32 < ws.length)), stBadOperation),
    ((match dom with
      | some d => body.any fun w => cwBadPanes w || ((cwIsLd w || cwIsSt w) && decide (cwDt w ≠ d.2))
      | none => false), stBadOperation),
    (ports.any fun p => decide (p.2.space ≠ 1), stBadSpace),
    (ports.any fun p => decide (cwDt p.1 = 1) && decide (p.2.fmt ≠ 1), stBadFormat),
    ((match dom with
      | some d => ports.any fun p => !(extentOk p.2.n0 d.1.n0 && extentOk p.2.n1 d.1.n1 &&
          extentOk p.2.n2 d.1.n2 && extentOk p.2.n3 d.1.n3)
      | none => false), stBadShape),
    ((ports.any fun p => p.2.winEn) || (match dom with
      | some d => d.1.winEn
      | none => false), stBadDesc)]

/-! ### Operations with what they capture -/

/-- The narrowing writes under RMODE 4 that a word makes (02 R41, R135). -/
def cwWrites (w : BitVec 32) (o : Option Opnd) : Nat :=
  if casIsConv (cwOp w) then (if cwPc w % 8 = 4 then 1 else 0)
  else if cwIsSt w then (match o with
    | some o => srCount o.desc
    | none => 0)
  else 0

/-- A scalar operand taken from a register of the thread, or the clip factor for the register named by KREG
(08 R175). SCALEB takes bits [31:0] (R134). -/
def State.cwScalar (s : State) (t : Thread) (kreg : Option Nat) (w : BitVec 32) (isScalar : Bool) (r : Nat) :
    Scalar × Flags :=
  if !isScalar then (.pane, noFlags)
  else if kreg = some r then (.clip (cwSf w), noFlags)
  else if cwOp w = 0x0C then (.bits ((s.regN t r).setWidth 32), noFlags)
  else
    let v := scalarOperand (cwDt w) (cwSf w) (s.regN t r)
    (.bits v.1, v.2)

/-- The operation of a word. -/
def State.cwBuild (s : State) (t : Thread) (kreg : Option Nat) (wseq : BitVec 32) (w : BitVec 32) (o : Option Opnd) :
    CasOp × Flags :=
  let b := s.cwScalar t kreg w (cwBScalar w) (cwPb w)
  let c := s.cwScalar t kreg w (cwCScalar w) (cwPc w)
  ({ op := cwOp w, dt := cwDt w, pd := cwPd w, pa := cwPa w, pb := cwPb w, pc := cwPc w, bVal := b.1, cVal := c.1,
     opnd := o, tile := tileOf (s.regN t (cwPb w)), wseq := wseq }, flagsOr b.2 c.2)

/-- The operations of a body from the write_seq of its first narrowing write. -/
def State.cwBody (s : State) (t : Thread) (kreg : Option Nat) (wseq : BitVec 32)
    (ps : List (BitVec 32 × Option Opnd)) : List (CasOp × Flags) :=
  match ps with
  | [] => []
  | p :: r => s.cwBuild t kreg wseq p.1 p.2 ::
      s.cwBody t kreg (wseq + BitVec.ofNat 32 (cwWrites p.1 p.2)) r

/-- The narrowing writes under RMODE 4 of a body. -/
def bodyWrites (ps : List (BitVec 32 × Option Opnd)) : Nat := (ps.map fun p => cwWrites p.1 p.2).sum

/-! ### Flags (R151) -/

/-- The seven flags in the order of CAS_FLAGS. -/
def flags7 (f : Flags) : Nat := flags4 f + 16 * b2n f.range + 32 * b2n f.empty + 64 * b2n f.divZero

/-- Raises Casement flags of a stream. -/
def State.casRaise (s : State) (t : Thread) (ctx : Nat) (iseq : BitVec 32) (f : Flags) : State :=
  if flags7 f = 0 then s
  else
    let s := s.modEr fun r => { r with casFlags := r.casFlags ||| BitVec.ofNat 32 (flags7 f <<< (8 * Thread.num t)) }
    s.alarmFlags f (Thread.num t) ctx qCas iseq

end Sys2Proof.Machine
end

