-- ==== Sys2Proof/Machine/Issue.lean ====
section
/-! DEFINITION. The issue of tensor instructions: the checks of R215 and R216, the refusal tables of the owning
chapters, and the steps of R218 (spec/09). -/

namespace Sys2Proof.Machine

/-! ### Fields of the register group -/

/-- Register k of the group. -/
def State.grp (s : State) (t : Thread) (i : Issue) (k : Nat) : Word := s.regN t (i.ra.val + k)

/-- Registers in the group (R216). -/
def TKind.group (k : TKind) : Nat :=
  match k with
  | .latMM => 3
  | .latMMQ => 3
  | .casw => 0
  | .trn => 2
  | .spill => 2
  | .drain => 2
  | .copy => 2
  | .ssq => 1
  | .put => 2
  | .red => 2
  | .apply => 1
  | .adv => 1
  | .norm => 0
  | .root => 4
  | .rearm => 1

/-- The length of the instruction. -/
def Issue.bytes (i : Issue) : Nat :=
  match i.kind with
  | .casw => 4 * (1 + i.words.length)
  | _ => 4

/-- What raises ILLEGAL before anything is resolved (R215, R216): a group past s31, LAT 48 to 62, an ra field that is
marked 0, more than 33 Casement words. -/
def Issue.illegal (i : Issue) : Bool :=
  decide (32 < i.ra.val + i.kind.group) || (decide (48 ≤ i.lat.toNat) && decide (i.lat.toNat ≤ 62)) ||
  match i.kind with
  | .casw => decide (i.ra ≠ 0) || decide (32 < i.ef.toNat % 64)
  | .norm => decide (i.ra ≠ 0)
  | _ => false

/-- The EF bits that the instruction leaves unused. -/
def TKind.efUnused (k : TKind) (ef : Nat) : Nat :=
  match k with
  | .latMM => bitsN ef 0 5
  | .latMMQ => bitsN ef 5 0
  | .casw => bitsN ef 6 4
  | .trn => bitsN ef 1 9
  | .spill => bitsN ef 1 9
  | .drain => bitsN ef 6 4
  | .copy => ef
  | .ssq => bitsN ef 6 4
  | .put => ef
  | .red => bitsN ef 8 2
  | .apply => ef
  | .adv => ef
  | .norm => bitsN ef 6 4
  | .root => bitsN ef 3 7
  | .rearm => ef

/-- Nonzero unused bits of a register that is not a handle. -/
def State.regUnused (s : State) (t : Thread) (i : Issue) : Bool :=
  match i.kind with
  | .put => decide (2 ^ 35 ≤ (s.grp t i 1).toNat)
  | .apply => decide (2 ^ 24 ≤ (s.grp t i 0).toNat)
  | .adv => decide (2 ^ 8 ≤ (s.grp t i 0).toNat)
  | .root => decide (2 ^ 8 ≤ (s.grp t i 0).toNat)
  | .rearm => decide (2 ^ 8 ≤ (s.grp t i 0).toNat)
  | _ => false

/-- May only threads U and S issue it? -/
def TKind.restricted (k : TKind) : Bool :=
  match k with
  | .apply => true
  | .adv => true
  | .norm => true
  | .root => true
  | .rearm => true
  | _ => false

/-- Is the accumulator number refused (R216)? -/
def Issue.badAccum (i : Issue) : Bool :=
  let n := i.ef.toNat % 64
  match i.kind with
  | .drain => decide (32 ≤ n) && decide (n ≤ 62)
  | .ssq => decide (32 ≤ n)
  | .norm => decide (32 ≤ n)
  | _ => false

/-- The checks of R215 and R216, in the order of R218 step 2. -/
def State.issuePre (s : State) (t : Thread) (i : Issue) : Option Nat :=
  firstBad [
    (decide (i.kind.efUnused i.ef.toNat ≠ 0), stBadOperation),
    (s.regUnused t i, stBadOperation),
    (i.kind.restricted && (decide (t = .F) || decide (t = .B)), stBadOperation),
    (i.badAccum, stBadDesc),
    (decide (i.kind = .casw) && !oneUnit i.words, stBadOperation)]

/-! ### Update records (spec/08 R171 to R173) -/

/-- Handle slot j of a record. -/
def recSlot (bs : List Byte) (j : Nat) : Nat := bitsN (leNat ((bs.drop 4).take 20)) (20 * j) 20

/-- GROUP of a record. -/
def recGroup (bs : List Byte) : Nat := leNat (bs.take 1)

/-- CHECK and the reserved fields of a record. -/
def recOk (bs : List Byte) : Bool :=
  decide (crc32c (bs.take 28) = w32 (leNat ((bs.drop 28).take 4))) && decide (leNat ((bs.drop 1).take 3) = 0) &&
  decide (recSlot bs 7 = 0) && decide (leNat ((bs.drop 24).take 4) = 0)

/-- The program of a group (R172): PROG, or FBPROG of a matrix group in fallback. -/
def State.groupProg (s : State) (ctx g : Nat) : Option UpdProg :=
  match s.updCfg ctx with
  | none => none
  | some u =>
    let fb := decide (s.g0 ctx g 3 1 = 1) && (s.groupState ctx g).fallback
    u.progs[if fb then s.g0 ctx g 21 5 else s.g0 ctx g 16 5]?

/-- Does the program of a record's group write moment 1 or 2? -/
def State.recWrites (s : State) (ctx : Nat) (bs : List Byte) (second : Bool) : Bool :=
  match s.groupProg ctx (recGroup bs) with
  | some p => if second then p.hasM2 else p.hasM1
  | none => false

/-- The handles of a record: slots 2 to 6 may be absent (R55, R171). -/
def State.recHandles (s : State) (ctx : Nat) (bs : List Byte) : HandleList :=
  (List.range 7).map fun j =>
    let h := recSlot bs j
    let dest := match j with
      | 0 => true
      | 3 => s.recWrites ctx bs false
      | 4 => s.recWrites ctx bs true
      | 5 => true
      | 6 => true
      | _ => false
    if decide (2 ≤ j) && decide (h = 0) then none else some (h, dest)

/-- The handles of an instruction in the order of R218 step 1; those of Casement words in word order. -/
def State.handles (s : State) (t : Thread) (i : Issue) : HandleList :=
  let r (k : Nat) (dest : Bool) : Option (Nat × Bool) := some ((s.grp t i k).toNat, dest)
  match i.kind with
  | .latMM => [r 0 false, r 1 false, r 2 true]
  | .latMMQ => [r 0 false, r 1 false, r 2 true]
  | .casw => (i.words.filter cwHandle).map fun w => some ((s.regN t (cwPa w)).toNat, cwIsSt w)
  | .trn => [r 0 false, r 1 true]
  | .spill => [r 0 false, r 1 true]
  | .drain => [r 0 false, r 1 true]
  | .copy => [r 0 false, r 1 true]
  | .ssq => [r 0 false]
  | .put => [r 0 (bitN (s.grp t i 1).toNat 34)]
  | .red => [r 0 false, r 1 true]
  | .root => [r 1 false, r 2 true, r 3 true]
  | .apply => match i.record with
    | some bs => s.recHandles (s.th t).ctx bs
    | none => []
  | .adv => []
  | .norm => []
  | .rearm => []

/-! ### The refusal tables -/

/-- A plan of the instruction. -/
def Issue.plan (i : Issue) (q : Nat) (j : Job) (writes : Nat) : Plan :=
  { job := j, queue := q, writes := writes, rd := i.rd, latch := if i.lat = 63 then none else some i.lat.toNat,
    tensor := true, bytes := i.bytes }

/-- A plan, unless a check fails. -/
def orElsePlan (bad : Option Nat) (p : Plan) : Except Nat Plan :=
  match bad with
  | some st => .error st
  | none => .ok p

/-- The pairings of 02 R34. -/
def pairOk (a b : Nat) : Bool :=
  (isMx a && isMx b) || ((decide (a = 2) || decide (a = 3)) && (decide (b = 2) || decide (b = 3))) ||
  (decide (a = 9) && decide (b = 9)) || (decide (a = 1) && decide (b = 1))

/-- The rows of A or C of a product (04 R77). -/
def latRows (d : Desc) : Nat := if d.winEn then patchRows d else d.n1 * d.n2 * d.n3

/-- The K extent of A. -/
def latK (a : Desc) : Nat := if a.winEn then patchCols a else a.n0

/-- K and N of B under a readout. -/
def latB (trans : Bool) (b : Desc) : Nat × Nat := if trans then (b.n0, b.n1) else (b.n1, b.n0)

/-- R78 of spec/04. -/
def State.latBad (s : State) (p : Nat) (trans accin : Bool) (a b c : Desc) : Option Nat :=
  let kn := latB trans b
  let half := s.partHalf p
  let mLimit := if half then 128 else 128 * (s.partLats p).length
  firstBad [
    (!s.partDefined p, stBadPart),
    (decide (a.space ≠ 1) || decide (b.space ≠ 1), stBadSpace),
    (decide (c.space = 0), stBadSpace),
    (!pairOk a.fmt b.fmt, stBadFormat),
    (decide (c.fmt = 9), stBadFormat),
    (accin && decide (c.fmt ≠ 0), stBadFormat),
    ((isMx a.fmt && a.mxAxis) || (isMx b.fmt && b.mxAxis == trans), stBadFormat),
    (a.winEn && isMx a.fmt && decide (a.n0 % 32 ≠ 0), stBadFormat),
    (decide (b.n2 ≠ 1) || decide (b.n3 ≠ 1), stBadShape),
    (decide (latK a ≠ kn.1) || decide (c.n0 ≠ kn.2) || decide (latRows a ≠ c.n1 * c.n2 * c.n3), stBadShape),
    (decide ((if half && !trans then 64 else 128) < kn.2), stBadShape),
    (decide (mLimit < latRows a), stBadShape),
    (b.winEn, stBadDesc)]

/-- R107 of spec/05, for the Transom and for XFER.COPY (R217). -/
def trnBad (transpose : Bool) (a d : Desc) : Option Nat :=
  firstBad [
    (decide (a.space = 2) || decide (d.space = 2), stBadSpace),
    (decide (a.fmt ≠ d.fmt), stBadFormat),
    (isMx a.fmt && (a.mxAxis == d.mxAxis) == transpose, stBadFormat),
    (if transpose then !(decide (d.n0 = a.n1) && decide (d.n1 = a.n0) && decide (d.n2 = a.n2) && decide (d.n3 = a.n3))
      else !sameExtents a d, stBadShape),
    (a.winEn || d.winEn, stBadDesc)]

/-- R119 of spec/05; the accumulator is checked with R216. -/
def sillBad (drain : Bool) (hs h : Desc) : Option Nat :=
  firstBad [
    (decide (hs.space ≠ 2), stBadSpace),
    (if drain then decide (h.space = 2) else decide (h.space ≠ 0), stBadSpace),
    (!drain && decide (h.fmt ≠ 0), stBadFormat),
    (!sameExtents hs h, stBadShape),
    (hs.winEn || h.winEn, stBadDesc)]

/-- R312 of spec/13. -/
def State.putBad (s : State) (d : Desc) (route : Nat) : Option Nat :=
  let rlatch := bitsN route 28 6
  firstBad [
    (decide (s.routeCount ≤ bitsN route 0 8) || (decide (48 ≤ rlatch) && decide (rlatch ≤ 62)) ||
      (bitN route 34 && decide (rlatch ≠ 63)), stBadOperation),
    (decide (d.space = 2), stBadSpace),
    (d.winEn, stBadDesc)]

/-- R319 of spec/13. -/
def State.redBad (s : State) (g : Nat) (a d : Desc) : Option Nat :=
  match s.groupRec g with
  | none => some stBadOperation
  | some r => firstBad [
    (r.exact, stBadOperation),
    (decide (a.space = 2) || decide (d.space = 2), stBadSpace),
    (decide (a.fmt ≠ r.fmt) || decide (d.fmt ≠ r.fmt), stBadFormat),
    (!sameExtents a d, stBadShape),
    (a.winEn || d.winEn || decide (a.maskMode ≠ 0) || decide (d.maskMode ≠ 0), stBadDesc)]

/-- R180 of spec/08: an UPDATE section, and NORMGRP a defined exact group. -/
def State.normBad (s : State) (ctx : Nat) : Option Nat :=
  match s.updCfg ctx with
  | none => some stBadOperation
  | some u =>
    match s.groupRec u.normGrp with
    | none => some stBadOperation
    | some r => if r.exact then none else some stBadOperation

/-- R188 of spec/08. -/
def State.rootBad (s : State) (ctx g p : Nat) (a q w : Desc) : Option Nat :=
  let n := a.n0
  let square (d : Desc) : Bool := decide (d.n0 = n) && decide (d.n1 = n)
  firstBad [
    (!s.groupValid ctx g || decide (s.g0 ctx g 3 1 = 0), stBadGroup),
    (!s.partDefined p, stBadPart),
    (decide (a.space ≠ 1) || decide (q.space ≠ 1) || decide (w.space ≠ 1), stBadSpace),
    (decide (a.fmt ≠ 0) || decide (q.fmt ≠ 1) || decide (w.fmt ≠ 1), stBadFormat),
    (!(square a && square q && square w) || decide (n % 32 ≠ 0) || decide (n < 32) || decide (512 < n) ||
      decide (w.n2 ≠ (if s.g0 ctx g 26 1 = 1 then 5 else 4)), stBadShape),
    (a.winEn || q.winEn || w.winEn, stBadDesc)]

/-- The table of R173 of spec/08 on the tensors W, G, PG, M1, M2, C1, C2. -/
def State.applyBad (s : State) (ctx g : Nat) (prog : UpdProg) (os : List (Option Opnd)) : Option Nat :=
  let d (j : Nat) : Option Desc := (os.getD j none).map fun o => o.desc
  let present := os.filterMap fun o => o.map fun x => x.desc
  let fmtIs (j lo : Nat) : Bool := match d j with
    | some x => decide (x.fmt ≠ s.g0 ctx g lo 4)
    | none => false
  let near := decide (s.g0 ctx g 2 1 = 1)
  let matrix := decide (s.g0 ctx g 3 1 = 1)
  firstBad [
    ((prog.hasM1 && (d 3).isNone) || (prog.hasM2 && (d 4).isNone), stBadRecord),
    (matrix == (d 2).isNone, stBadRecord),
    (fmtIs 0 4 || fmtIs 3 8 || fmtIs 4 12, stBadFormat),
    ([1, 2].any fun j => match d j with
      | some x => decide (x.fmt = 9)
      | none => false, stBadFormat),
    ((match d 0 with
      | some w => present.any fun x => !sameExtents w x
      | none => true), stBadShape),
    (!near && present.any fun x => decide (x.space ≠ 1), stBadSpace),
    (near && present.any fun x => decide (x.space ≠ 0), stBadSpace),
    (present.any fun x => x.winEn, stBadDesc)]

/-! ### UPD.APPLY as a loop (08 R174, R175) -/

/-- An LD or ST word of the unit; its PA field holds the record's slot. -/
def portWord (op pd slot : Nat) : BitVec 32 := w32 (op + pd * 256 + slot * 8192)

/-- The body of R174: loads, program words, stores. -/
def applyBody (prog : UpdProg) (os : List (Option Opnd)) (grad : Nat) : List (BitVec 32 × Option Opnd) :=
  let o (j : Nat) : Option Opnd := os.getD j none
  let st (j pane : Nat) : List (BitVec 32 × Option Opnd) :=
    if (o j).isSome then [(portWord 0x31 pane j, o j)] else []
  [(portWord 0x30 0 0, o 0), (portWord 0x30 1 grad, o grad)] ++
  (if prog.hasM1 then [(portWord 0x30 2 3, o 3)] else []) ++ (if prog.hasM2 then [(portWord 0x30 3 4, o 4)] else []) ++
  prog.words.map (fun w => (w, none)) ++
  st 0 prog.wOut ++ st 5 prog.wOut ++ st 6 prog.wOut ++
  (if prog.hasM1 then st 3 prog.m1Out else []) ++ (if prog.hasM2 then st 4 prog.m2Out else [])

/-- The plan of an UPD.APPLY whose record and handles have arrived (R173, R174, R186). -/
def State.applyPlan (s : State) (t : Thread) (i : Issue) (bs : List Byte) : Except Nat (Plan × Flags) :=
  let th := s.th t
  let g := recGroup bs
  if !s.groupValid th.ctx g then .error stBadGroup
  else match s.groupProg th.ctx g with
    | none => .error stBadGroup
    | some prog =>
      match s.applyBad th.ctx g prog i.resolved with
      | some st => .error st
      | none =>
        let pg := decide (s.g0 th.ctx g 3 1 = 1) && !(s.groupState th.ctx g).fallback
        let ps := applyBody prog i.resolved (if pg then 2 else 1)
        let body := s.cwBody t (some prog.kreg) th.wseq ps
        let u : CasUnit := { domain := i.resolved.getD 0 none, loopDt := 0, order := 0, body := body.map fun b => b.1,
                             group := some g }
        let near := decide (s.g0 th.ctx g 2 1 = 1)
        .ok (i.plan (if near then qJamb else qCas) (if near then .near u else .casement u) (bodyWrites ps),
          flagsAny (body.map fun b => b.2))

/-! ### CASW -/

/-- The plan of a CASW whose handles are resolved. -/
def State.caswPlan (s : State) (t : Thread) (i : Issue) : Except Nat (Plan × Flags) :=
  let loop := cwIsLoop (i.words.headD 0)
  let ps := pairOpnds i.words i.resolved
  let dom : Option Opnd := if loop then i.resolved.headD none else none
  let w0 := i.words.headD 0
  match unitBad i.words ps (dom.map fun o => (o.desc, cwDt w0)) with
  | some st => .error st
  | none =>
    let bodyPs := if loop then ps.drop 1 else ps
    let body := s.cwBody t none (s.th t).wseq bodyPs
    let u : CasUnit := { domain := dom, loopDt := cwDt w0, order := if loop then cwPc w0 % 2 else 0,
                         body := body.map fun b => b.1, group := none }
    .ok (i.plan qCas (.casement u) (bodyWrites bodyPs), flagsAny (body.map fun b => b.2))

/-! ### The owning chapters -/

/-- A plan without conversion flags. -/
def plain (r : Except Nat Plan) : Except Nat (Plan × Flags) :=
  match r with
  | .ok p => .ok (p, noFlags)
  | .error st => .error st

/-- The checks of the owning chapter, and the plan. -/
def State.issueOwn (s : State) (t : Thread) (i : Issue) : Except Nat (Plan × Flags) :=
  let ctx := (s.th t).ctx
  let ef := i.ef.toNat
  let g := (s.grp t i 0).toNat
  let acc (n : Nat) : Option Nat := if n = 63 then none else some n
  match i.kind, i.resolved with
  | .latMM, [some a, some b, some c] =>
    let p := bitsN ef 7 3
    let none' := decide (latRows a.desc = 0) || decide (c.desc.n0 = 0)
    plain (orElsePlan (s.latBad p (bitN ef 6) (bitN ef 5) a.desc b.desc c.desc)
      (i.plan p (.lattice a b c (bitN ef 6) (bitN ef 5) none) (if none' then 0 else srCount c.desc)))
  | .latMMQ, [some a, some b, some c] =>
    let p := bitsN ef 7 3
    let none' := decide (latRows a.desc = 0) || decide (c.desc.n0 = 0)
    plain (orElsePlan (s.latBad p (bitN ef 6) (bitN ef 5) a.desc b.desc c.desc)
      (i.plan p (.lattice a b c (bitN ef 6) (bitN ef 5) (some (bitsN ef 0 5))) (if none' then 0 else srCount c.desc)))
  | .casw, _ => s.caswPlan t i
  | .trn, [some a, some d] =>
    plain (orElsePlan (trnBad (bitN ef 0) a.desc d.desc) (i.plan qTrn (.transom (bitN ef 0) a d) 0))
  | .spill, [some a, some d] =>
    plain (orElsePlan (sillBad false a.desc d.desc) (i.plan qJamb (.spill a d (bitN ef 0)) 0))
  | .drain, [some a, some d] =>
    plain (orElsePlan (sillBad true a.desc d.desc)
      (i.plan qJamb (.drain a d (acc (bitsN ef 0 6))) (srCount d.desc)))
  | .copy, [some a, some d] =>
    plain (orElsePlan (trnBad false a.desc d.desc) (i.plan qJamb (.copy a d) 0))
  | .ssq, [some a] =>
    plain (orElsePlan (if a.desc.space = 2 then some stBadSpace else none)
      (i.plan qJamb (.ssq a (bitsN ef 0 6)) 0))
  | .put, [some a] =>
    let route := s.grp t i 1
    plain (orElsePlan (s.putBad a.desc route.toNat) (i.plan qJamb (.put a route) 0))
  | .red, [some a, some d] =>
    let grp := bitsN ef 0 8
    plain (orElsePlan (s.redBad grp a.desc d.desc) (i.plan qJamb (.red a d grp) 0))
  | .apply, _ => match i.record with
    | some bs => s.applyPlan t i bs
    | none => .error stBadRecord
  | .adv, _ =>
    if s.groupValid ctx g then
      .ok (i.plan (if s.g0 ctx g 2 1 = 1 then qJamb else qCas) (.adv g) 0, noFlags)
    else .error stBadGroup
  | .norm, _ => plain (orElsePlan (s.normBad ctx) (i.plan qJamb (.norm (bitsN ef 0 6)) 0))
  | .root, [some a, some q, some w] =>
    let p := bitsN ef 0 3
    let g7 := (s.groupEntry ctx g 7).toNat
    let r : RootJob := { group := g, s := a, q := q, w := w, part := p, fourth := decide (s.g0 ctx g 26 1 = 1),
                         maxIt := s.g0 ctx g 27 5, eps := w32 (bitsN g7 0 32), tol := w32 (bitsN g7 32 32),
                         due := false }
    plain (orElsePlan (s.rootBad ctx g p a.desc q.desc w.desc) (i.plan qCas (.root r) 0))
  | .rearm, _ =>
    if s.groupValid ctx g then .ok (i.plan qCas (.rearm g) 0, noFlags) else .error stBadGroup
  | _, _ => .error stBadOperation

/-! ### The steps of R218 -/

/-- Steps 2 to 5 once every handle is resolved. -/
def State.issueChecked (s : State) (t : Thread) (i : Issue) : State :=
  match s.issuePre t i with
  | some st => s.refuse t i.rd st i.bytes
  | none =>
    match s.issueOwn t i with
    | .error st => s.refuse t i.rd st i.bytes
    | .ok p => (s.casRaise t (s.th t).ctx (s.th t).iseq p.2).enter t p.1

/-- Step 1: the handles not yet resolved; then the rest. -/
def State.issueResolve (s : State) (t : Thread) (i : Issue) : State :=
  let hs := s.handles t i
  let r := s.resolveAll t hs i.resolved (hs.length + 1)
  let i := { i with resolved := r.2.1 }
  match r.2.2 with
  | some (.miss h) => r.1.waitFill t i h
  | some (.bad st) => r.1.refuse t i.rd st i.bytes
  | _ => r.1.issueChecked t i

/-- UPD.APPLY before its record has arrived (08 R172, R173): R215 and R216, the index, then the read. -/
def State.issueRecord (s : State) (t : Thread) (i : Issue) : State :=
  let idx := (s.grp t i 0).toNat
  match s.issuePre t i with
  | some st => s.refuse t i.rd st i.bytes
  | none =>
    match s.updCfg (s.th t).ctx with
    | none => s.refuse t i.rd stBadRecord i.bytes
    | some u =>
      if u.listCount ≤ idx then s.refuse t i.rd stBadRecord i.bytes
      else
        let n := (s.th t).accesses
        let s := s.jambAdd (readRange (.record t n) .record (u.listBase + 32 * idx) 32)
        (s.modTh t fun x => { x with accesses := n + 1 }).waitMem t (.record i n)

/-- An update record has arrived; `bs` is none when Jamb reported an error (R332). -/
def State.recordArrived (s : State) (t : Thread) (i : Issue) (bs : Option (List Byte)) : State :=
  match bs with
  | none => s.refuse t i.rd stBadRecord i.bytes
  | some b =>
    if recOk b then s.issueResolve t { i with record := some b } else s.refuse t i.rd stBadRecord i.bytes

/-- The fetch of the words behind the first of a CASW: each line they lie in (R201). -/
def State.fetchWords (s : State) (t : Thread) (i : Issue) : State :=
  let pc := (s.th t).pc.toNat
  if i.words.isEmpty then s
  else (List.range ((pc + i.bytes - 1) / 128 - (pc + 4) / 128 + 1)).foldl
    (fun s j => s.fetchAt t ((pc + 4) / 128 + j)) s

/-- The issue of a tensor instruction. It runs once its words are fetched; a thread that waits for a line of them runs the
instruction again behind the fill. Issue reads words of the Frame plane, whose parity is checked (16 R384). -/
def State.issue (s : State) (t : Thread) (i : Issue) : State :=
  s.ifRun t fun s =>
    if i.illegal then s.illegal t
    else
      let s := s.fetchWords t i
      if !s.isRun t then s
      else (if i.kind = .apply then s.issueRecord t i else s.issueResolve t i).parityCheck .plane

/-- The fields of a T-format word. -/
def issueOf (k : TKind) (rd ra : Reg) (lat : BitVec 6) (ef : BitVec 10) (words : List (BitVec 32)) : Issue :=
  { kind := k, rd := rd, ra := ra, lat := lat, ef := ef, words := words, resolved := [], record := none }

/-! ### The instructions -/

/-- LAT.MM (R216, 04 R77, R78). -/
def execLatMM (t : Thread) (rd ra : Reg) (lat : BitVec 6) (ef : BitVec 10) (s : State) : Result :=
  .next (s.issue t (issueOf .latMM rd ra lat ef []))

/-- LAT.MMQ (R216, 07 R161). -/
def execLatMMQ (t : Thread) (rd ra : Reg) (lat : BitVec 6) (ef : BitVec 10) (s : State) : Result :=
  .next (s.issue t (issueOf .latMMQ rd ra lat ef []))

/-- CASW with its Casement words (R216, 06 R127 to R146). -/
def execCasw (t : Thread) (rd ra : Reg) (lat : BitVec 6) (ef : BitVec 10) (words : List (BitVec 32)) (s : State) :
    Result :=
  .next (s.issue t (issueOf .casw rd ra lat ef words))

/-- TRN.RELAYOUT: EF bit 0 is 0 (R216, 05 R106, R107). -/
def execTrnRelayout (t : Thread) (rd ra : Reg) (lat : BitVec 6) (ef : BitVec 9) (s : State) : Result :=
  .next (s.issue t (issueOf .trn rd ra lat (BitVec.ofNat 10 (2 * ef.toNat)) []))

/-- TRN.TRANSPOSE: EF bit 0 is 1. -/
def execTrnTranspose (t : Thread) (rd ra : Reg) (lat : BitVec 6) (ef : BitVec 9) (s : State) : Result :=
  .next (s.issue t (issueOf .trn rd ra lat (BitVec.ofNat 10 (2 * ef.toNat + 1)) []))

/-- SILL.SPILL (R216, 05 R114 to R119). -/
def execSillSpill (t : Thread) (rd ra : Reg) (lat : BitVec 6) (ef : BitVec 10) (s : State) : Result :=
  .next (s.issue t (issueOf .spill rd ra lat ef []))

/-- SILL.DRAIN (R216, 05 R118, R119). -/
def execSillDrain (t : Thread) (rd ra : Reg) (lat : BitVec 6) (ef : BitVec 10) (s : State) : Result :=
  .next (s.issue t (issueOf .drain rd ra lat ef []))

/-- XFER.COPY (R217). -/
def execXferCopy (t : Thread) (rd ra : Reg) (lat : BitVec 6) (ef : BitVec 10) (s : State) : Result :=
  .next (s.issue t (issueOf .copy rd ra lat ef []))

/-- UPD.SSQ (08 R179). -/
def execUpdSsq (t : Thread) (rd ra : Reg) (lat : BitVec 6) (ef : BitVec 10) (s : State) : Result :=
  .next (s.issue t (issueOf .ssq rd ra lat ef []))

/-- DW.PUT with DIR 0; DIR is in the route word (13 R311, R312). -/
def execDwPut (t : Thread) (rd ra : Reg) (lat : BitVec 6) (ef : BitVec 10) (s : State) : Result :=
  .next (s.issue t (issueOf .put rd ra lat ef []))

/-- DW.PUT with DIR 1, a fetch. -/
def execDwPutFetch (t : Thread) (rd ra : Reg) (lat : BitVec 6) (ef : BitVec 10) (s : State) : Result :=
  .next (s.issue t (issueOf .put rd ra lat ef []))

/-- DW.RED (13 R314, R319). -/
def execDwRed (t : Thread) (rd ra : Reg) (lat : BitVec 6) (ef : BitVec 10) (s : State) : Result :=
  .next (s.issue t (issueOf .red rd ra lat ef []))

/-- UPD.APPLY (08 R172 to R176). -/
def execUpdApply (t : Thread) (rd ra : Reg) (lat : BitVec 6) (ef : BitVec 10) (s : State) : Result :=
  .next (s.issue t (issueOf .apply rd ra lat ef []))

/-- UPD.ADV (08 R177). -/
def execUpdAdv (t : Thread) (rd ra : Reg) (lat : BitVec 6) (ef : BitVec 10) (s : State) : Result :=
  .next (s.issue t (issueOf .adv rd ra lat ef []))

/-- UPD.NORM (08 R180). -/
def execUpdNorm (t : Thread) (rd ra : Reg) (lat : BitVec 6) (ef : BitVec 10) (s : State) : Result :=
  .next (s.issue t (issueOf .norm rd ra lat ef []))

/-- UPD.ROOT (08 R188). -/
def execUpdRoot (t : Thread) (rd ra : Reg) (lat : BitVec 6) (ef : BitVec 10) (s : State) : Result :=
  .next (s.issue t (issueOf .root rd ra lat ef []))

/-- UPD.REARM (08 R191). -/
def execUpdRearm (t : Thread) (rd ra : Reg) (lat : BitVec 6) (ef : BitVec 10) (s : State) : Result :=
  .next (s.issue t (issueOf .rearm rd ra lat ef []))

/-- LANE_ROOM: a thread that waits for a full lane enters it when room appears (R218 step 5, 10 R232). -/
def execLaneRoom (t : Thread) (s : State) : Result :=
  match (s.th t).wait with
  | .lane p => .next (if (s.th t).state = .queue && s.planRoom t p then s.accept t p else s)
  | _ => .next s

end Sys2Proof.Machine
end

