-- ==== Sys2Proof/Machine/Lattice.lean ====
section
/-! DEFINITION. The Lattice partitions: vectors, block completions and drains (spec/04 R76 to R102; spec/02 R42 to
R46). -/

namespace Sys2Proof.Machine

/-! ### Engines in general (spec/10 R233) -/

/-- An entry has finished and waits for its turn to complete (R235). -/
def State.entryDone (s : State) (uid : Nat) : State :=
  match s.entry uid with
  | none => s
  | some e => (s.modEntry uid fun e => { e with phase := .finished }).engineOpen e.queue uid

/-! ### The shape of a product -/

/-- A product as an entry names it. -/
structure Product where
  e : Entry
  a : Opnd
  b : Opnd
  c : Opnd
  trans : Bool
  accin : Bool
  sums : Option Nat
  deriving DecidableEq, Repr

/-- The product of a run. -/
def State.product (s : State) (r : LatRun) : Option Product :=
  match s.entry r.uid with
  | none => none
  | some e =>
    match e.job with
    | .lattice a b c tr accin sums =>
      some { e := e, a := a, b := b, c := c, trans := tr, accin := accin, sums := sums }
    | _ => none

/-- M. -/
def Product.m (x : Product) : Nat := latRows x.a.desc
/-- N. -/
def Product.n (x : Product) : Nat := x.c.desc.n0
/-- K. -/
def Product.k (x : Product) : Nat := latK x.a.desc
/-- BF16 pairs accumulate serially (R45). -/
def Product.serial (x : Product) : Bool := decide (x.a.desc.fmt = 1)
/-- Blocks of 32 of each output element (R44). -/
def Product.blocks (x : Product) : Nat := ceilDiv x.k 32

/-- RT of R80. -/
def State.rt (s : State) (x : Product) : Nat :=
  let rate2 := decide (6 ≤ x.a.desc.fmt) && decide (x.a.desc.fmt ≤ 8) && decide (6 ≤ x.b.desc.fmt) &&
    decide (x.b.desc.fmt ≤ 8)
  let whole := if rate2 then 256 else 128
  if s.partHalf x.e.queue && x.trans then whole / 2 else whole

/-- Passes of the product (R80). -/
def State.passes (s : State) (x : Product) : Nat := ceilDiv x.k (s.rt x)

/-- Rows of each rank's run (R79). -/
def State.rankRun (s : State) (x : Product) : Nat := ceilDiv x.m (s.partLats x.e.queue).length

/-- The rows of a rank (R79). -/
def State.rankRows (s : State) (x : Product) (rank : Nat) : Nat :=
  min x.m ((rank + 1) * s.rankRun x) - min x.m (rank * s.rankRun x)

/-- Ranks with rows. -/
def State.usedRanks (s : State) (x : Product) : List Nat :=
  (List.range (s.partLats x.e.queue).length).filter fun r => decide (0 < s.rankRows x r)

/-- The runs of a partition, oldest first. -/
def State.runs (s : State) (p : Nat) : List (LatRun × Product) :=
  s.eng.lats.filterMap fun r =>
    match s.product r with
    | some x => if x.e.queue = p then some (r, x) else none
    | none => none

/-- Changes a run. -/
def State.modRun (s : State) (uid : Nat) (g : LatRun → LatRun) : State :=
  { s with eng := { s.eng with lats := updFirst (fun r => r.uid = uid) g s.eng.lats } }

/-! ### Operands (R77, R66, R67, R70) -/

/-- Element (row, k) of A as the product reads it; none contributes an exact zero. -/
def latA (d : Desc) (row k : Nat) : Option Coord :=
  if d.winEn then patchCoord d row k
  else
    let x : Coord := { x0 := k, x1 := row % d.n1, x2 := row / d.n1 % d.n2, x3 := row / d.n1 / d.n2 }
    if masked d x then none else some x

/-- Element (k, n) of B. -/
def latBEl (d : Desc) (trans : Bool) (k n : Nat) : Option Coord :=
  let x : Coord := if trans then { x0 := k, x1 := n, x2 := 0, x3 := 0 } else { x0 := n, x1 := k, x2 := 0, x3 := 0 }
  if masked d x then none else some x

/-- Element (row, n) of C. -/
def latC (d : Desc) (row n : Nat) : Coord :=
  { x0 := n, x1 := row % d.n1, x2 := row / d.n1 % d.n2, x3 := row / d.n1 / d.n2 }

/-- The coordinates of the products of block b of output (m, n) that do not contribute an exact zero. -/
def Product.live (x : Product) (m n b : Nat) : List (Coord × Coord) :=
  ((List.range 32).map fun i => 32 * b + i).filterMap fun k =>
    if x.k ≤ k then none
    else match latA x.a.desc m k, latBEl x.b.desc x.trans k n with
      | some p, some q => some (p, q)
      | _, _ => none

/-- The scale byte that a block's elements share. -/
def blockScale (m : Mem) (d : Desc) (x : Option Coord) : Option Nat :=
  match x with
  | some c => if isMx d.fmt then some (scaleByte m d c) else none
  | none => none

/-! ### Flags and faults (R102, R96) -/

/-- Raises Lattice flags of the entry's stream. -/
def State.latRaise (s : State) (e : Entry) (f : Flags) : State :=
  if flags4 f = 0 then s
  else
    let s := s.modEr fun r => { r with
      latAflags := r.latAflags ||| BitVec.ofNat 16 (flags4 f <<< (4 * Thread.num e.stream)) }
    s.alarmFlags f (Thread.num e.stream) e.ctx e.queue e.iseq

/-- Stops a queue (16 R390). -/
def State.queueStop (s : State) (q : Nat) : State :=
  { s with int := { s.int with qstop := s.int.qstop ||| BitVec.ofNat 11 (2 ^ q) } }

/-- With QREL = 1 a stopped queue is released when no faulted entry is left in it (16 R390). -/
def State.queueRelease (s : State) (q : Nat) : State :=
  if s.frame.fault.qrel && !(s.eng.lanes.any fun e => decide (e.queue = q) && isFaultClass e.errStatus) then
    { s with int := { s.int with qstop := s.int.qstop &&& ~~~(BitVec.ofNat 11 (2 ^ q)) } }
  else s

/-- The partitions that use a Lattice. -/
def State.partsOf (s : State) (lat : Nat) : List Nat :=
  (List.range 8).filter fun p => (s.partLats p).contains lat

/-- The run whose vectors stream in any rank of a partition, or the newest one (R91). -/
def State.streamingAny (s : State) (p : Nat) : Option LatRun :=
  match (s.runs p).find? fun r => (s.usedRanks r.2).any fun k =>
      decide (SMap.look r.1.inj 0 k < s.passes r.2 * s.rankRows r.2 k) with
  | some r => some r.1
  | none => (s.runs p).getLast?.map fun r => r.1

/-- Records a Sill fault (05 R121). -/
def State.sillFault (s : State) (line : Option Nat) (cause : Nat) : State :=
  s.modEr fun r => { r with
    sfLine := (match line with
      | some l => BitVec.ofNat 15 l
      | none => r.sfLine)
    sfCause := BitVec.ofNat 4 cause, sfPend := true }

/-- A corrected line of the Sill is counted in SILL_FAULT.CE_COUNT (05 R121). -/
def State.sillCorrected (s : State) : State := (s.modEr fun r => { r with sfCe := satInc 16 r.sfCe }).corrected

/-- An uncorrectable line of the Sill: the entry that reads it completes with SILL_FAULT (05 R120). R120 clears `the Sill
region` and names no region for an accumulate-in read: the model clears hs of a spill or drain, and lets the drain of the
product write C (DESIGN CHOICE, log entry 58). -/
def State.sillLineBad (s : State) (e : Entry) (d : BitVec 16) : State :=
  ((s.modEntry e.uid fun e => e.fail stSillFault).sillFault (some (d.toNat % 32768)) 1).classS mechSill e stSillFault d

/-- Does the product read its prior contents in the Sill? -/
def Product.priorInSill (x : Product) : Bool := x.accin && decide (x.c.desc.space = 2)

/-- A detected Lattice fault (R96, R102, 16 R388): the streaming entry of each partition concerned is flagged, and
the queues stop. `shared` is a unit that serves both halves. -/
def State.latFault (s : State) (x : Product) (lat half : Nat) (shared : Bool) (mech cause : Nat)
    (detail : Option (BitVec 16)) : State :=
  let e := x.e
  let s := s.modEr fun r => { r with
    latFaultPart := BitVec.ofNat 3 e.queue, latFaultLat := BitVec.ofNat 2 lat, latFaultHalf := decide (half = 1),
    latFaultShared := shared, latFaultCause := BitVec.ofNat 4 cause, latFaultCount := satInc 16 r.latFaultCount,
    latFaultPend := true }
  let s := s.modEntry e.uid fun e => e.fail stLatticeFault
  let s := if shared then
      ((s.partsOf lat).filter fun p => p ≠ e.queue).foldl (fun s p =>
        match s.streamingAny p with
        | some r => (s.modEntry r.uid fun e => e.fail stLatticeFault).queueStop p
        | none => s.queueStop p) s
    else s
  (s.queueStop e.queue).integrity
    { mech := mech, causeBit := 0, stream := Thread.num e.stream, ctx := e.ctx, queue := e.queue,
      status := stLatticeFault, detail := detail, iseq := e.iseq }

/-- The half of an output column (R51); a half partition has only its own. -/
def State.halfOf (s : State) (p n : Nat) : Nat :=
  match s.partHalves p with
  | [h] => h.2
  | _ => if n < 64 then 0 else 1

/-! ### VECTOR_SLOT (R86, R87) -/

/-- Vectors that a rank has injected. -/
def LatRun.injected (r : LatRun) (rank : Nat) : Nat := SMap.look r.inj 0 rank

/-- Does the run hold a plane of the rank: fewer than two earlier runs still drain there (R88)? -/
def State.hasPlane (s : State) (p uid rank : Nat) : Bool :=
  let before := (s.runs p).takeWhile fun r => r.1.uid ≠ uid
  decide ((before.filter fun r => decide (0 < s.rankRows r.2 rank) && !r.1.drained.contains rank).length < 2)

/-- Passes of which some rank has injected a vector. -/
def State.passesBegun (s : State) (r : LatRun) (x : Product) : Nat :=
  (s.usedRanks x).foldl (fun n k => max n (ceilDiv (r.injected k) (s.rankRows x k))) 0

/-- The vectors that a rank injects for a run: those of every pass, or for an aborted product those of the passes that have
begun (10 R247). -/
def State.vectorEnd (s : State) (r : LatRun) (x : Product) (rank : Nat) : Nat :=
  (if x.e.aborted then s.passesBegun r x else s.passes x) * s.rankRows x rank

/-- The run whose vectors a rank injects next. -/
def State.streaming (s : State) (p rank : Nat) : Option (LatRun × Product) :=
  (s.runs p).find? fun r => decide (r.1.injected rank < s.vectorEnd r.1 r.2 rank)

/-- Counts a vector slot of a Lattice (R102). -/
def State.slotCount (s : State) (lat : Nat) (valid : Bool) : State :=
  s.modEr fun r =>
    let w := SMap.look r.latCnt 0 lat
    let v : BitVec 32 := w.setWidth 32
    let b : BitVec 32 := (w >>> 32).setWidth 32
    let v := if valid then v + 1 else v
    let b := if valid then b else b + 1
    { r with latCnt := SMap.put r.latCnt 0 lat (v.zeroExtend 64 + (b.zeroExtend 64 <<< 32)) }

/-- Are the row bands of the partition's Lattices on, or left off (15 R367)? An entry's setup waits for them. -/
def State.bandsReady (s : State) (p : Nat) : Bool :=
  (s.partLats p).all fun l => (List.range 8).all fun b => s.domOn (8 * l + b) || s.pwr.leftOff.contains (8 * l + b)

/-! ### Weight registers and feeders (R76, R86, R89, R93, R95) -/

/-- The number of a rank's cells: 2 × Lattice + half, with half 0 for a whole Lattice. -/
def State.cellsOf (s : State) (p rank : Nat) : Nat :=
  match s.partHalves p with
  | [h] => 2 * h.1 + h.2
  | _ => 2 * (s.partLats p).getD rank 0

/-- The cells with a number. -/
def State.weightsAt (s : State) (i : Nat) : Cells := SMap.look s.eng.cells Cells.init i

/-- Changes the cells with a number. -/
def State.modCells (s : State) (i : Nat) (g : Cells → Cells) : State :=
  { s with eng := { s.eng with cells := SMap.put s.eng.cells Cells.init i (g (s.weightsAt i)) } }

/-- Stops the clocks of the cells of the ranks that `stop` holds of, and lets those of the others run (R97). -/
def State.clockRanks (s : State) (p : Nat) (stop : Nat → Bool) : State :=
  (List.range (s.partLats p).length).foldl (fun s rank =>
    s.modCells (s.cellsOf p rank) fun c => { c with gated := stop rank }) s

/-- The element of B in slot `slot` of the weight register of cell (row, col) under pass `pass` (R76, R77): the slots hold
consecutive elements along the reduction axis, which runs down the cell rows under plain readout and across the cell
columns under transposed readout. The second slot is used by rate-2 pairings only. -/
def State.cellWeight (s : State) (x : Product) (pass row col slot : Nat) : Option Coord :=
  let rate := if s.rt x = 256 || (s.partHalf x.e.queue && x.trans && decide (s.rt x = 128)) then 2 else 1
  let k := pass * s.rt x + rate * (if x.trans then col else row) + slot
  let n := if x.trans then row else col
  if rate ≤ slot || (pass + 1) * s.rt x ≤ k || x.k ≤ k || x.n ≤ n then none else latBEl x.b.desc x.trans k n

/-- Entries of a row queue: 16, or 8 in a split Lattice (R86, R95). -/
def State.queueDepth (s : State) (p : Nat) : Nat := if s.partHalf p then 8 else 16

/-- Lines of a reuse store: 32, or 16 for each half of a split Lattice (R86, R95). -/
def State.reuseLines (s : State) (p : Nat) : Nat := if s.partHalf p then 16 else 32

/-- The lines that a vector of A touches (R86, R93): the elements of its row over its pass with their scale bytes; padding
and masked elements touch none. -/
def State.vectorLines (s : State) (x : Product) (rank v : Nat) : List Nat :=
  let rows := s.rankRows x rank
  let row := rank * s.rankRun x + v % rows
  ((List.range (s.rt x)).filterMap fun i =>
      let k := v / rows * s.rt x + i
      if x.k ≤ k then none else latA x.a.desc row k).foldl (fun l c =>
    let l := (elemAddrs x.a.desc c).foldl (fun l a => insertNat (a / 128) l) l
    if isMx x.a.desc.fmt then insertNat (scaleAddr x.a.desc c / 128) l else l) []

/-- Vectors of a rank's run that stand in the row queues. -/
def State.queued (s : State) (r : LatRun) (x : Product) (rank : Nat) : Nat :=
  min (SMap.look r.fed 0 rank) (s.vectorEnd r x rank) - r.injected rank

/-- The run whose vectors the feeder of a rank fetches next: the first with a vector outside the queues. -/
def State.feeding (s : State) (p rank : Nat) : Option (LatRun × Product) :=
  (s.runs p).find? fun r => decide (max (SMap.look r.1.fed 0 rank) (r.1.injected rank) < s.vectorEnd r.1 r.2 rank)

/-- The feeder's part of a slot (R86): the next vector enters the queues when they have room and its lines have arrived, from
the reuse store or, with `ready`, from the banks. The lines become the most recently used. -/
def State.feed (s : State) (p rank : Nat) (ready : Bool) : State :=
  match s.feeding p rank with
  | none => s
  | some (r, x) =>
    let behind := ((s.runs p).takeWhile fun k => k.1.uid ≠ r.uid).foldl (fun n k => n + s.queued k.1 k.2 rank) 0
    let v := max (SMap.look r.fed 0 rank) (r.injected rank)
    let lines := s.vectorLines x rank v
    let held := SMap.look r.reuse [] rank
    if s.queueDepth p ≤ behind + s.queued r x rank then s
    else if ready || lines.all fun l => held.contains l then
      (s.linesShut (lines.filter fun l => !held.contains l)).modRun r.uid fun r => { r with
        fed := SMap.put r.fed 0 rank (v + 1)
        reuse := SMap.put r.reuse [] rank
          ((lines ++ held.filter fun l => !lines.contains l).take (s.reuseLines p)) }
    else s

/-- The tiles of a partition in the order of their passes, from the one that the rank's next vector needs (R80, R91). -/
def State.tilesAhead (s : State) (p rank : Nat) : List Tile :=
  (s.runs p).flatMap fun r =>
    let done := if s.rankRows r.2 rank = 0 then s.passes r.2 else r.1.injected rank / s.rankRows r.2 rank
    ((List.range (s.passes r.2)).drop done).map fun k => { uid := r.1.uid, pass := k }

/-- The lines of B that a tile is read from. -/
def State.tileLines (s : State) (x : Product) (pass : Nat) : List Nat :=
  ((List.range (s.rt x)).flatMap fun i => (List.range x.n).filterMap fun n =>
    let k := pass * s.rt x + i
    if x.k ≤ k then none else latBEl x.b.desc x.trans k n).foldl (fun l c =>
      (elemAddrs x.b.desc c).foldl (fun l a => insertNat (a / 128) l) l) []

/-- Loads a tile into the shadow registers. -/
def State.shadowLoad (s : State) (p i : Nat) (t : Tile) : State :=
  let s := match (s.runs p).find? fun r => r.1.uid = t.uid with
    | some (_, x) => if s.pwr.leftOff.isEmpty then s else s.linesShut (s.tileLines x t.pass)
    | none => s
  s.modCells i fun c => { c with shadow := some t }

/-- The weight source's part of a slot (R89): with `ready` the shadow registers take the first tile that the cells do not
hold, the tile in use or the one behind it. -/
def State.loadTile (s : State) (p rank : Nat) (ready : Bool) : State :=
  let i := s.cellsOf p rank
  let c := s.weightsAt i
  match (s.tilesAhead p rank).take 2 with
  | [] => s
  | t :: l =>
    if !ready || c.shadow = some t then s
    else if c.active ≠ some t then s.shadowLoad p i t
    else match l with
      | t' :: _ => if c.shadow = some t' then s else s.shadowLoad p i t'
      | [] => s

/-- Do the cells hold the tile of the rank's next vector? -/
def State.tileHeld (s : State) (x : Product) (r : LatRun) (p rank : Nat) : Bool :=
  let t : Tile := { uid := r.uid, pass := r.injected rank / s.rankRows x rank }
  let c := s.weightsAt (s.cellsOf p rank)
  c.active = some t || c.shadow = some t

/-- The first vector of a pass selects the shadow registers, which become the active ones (R89). -/
def State.selectTile (s : State) (x : Product) (r : LatRun) (p rank : Nat) : State :=
  let t : Tile := { uid := r.uid, pass := r.injected rank / s.rankRows x rank }
  let i := s.cellsOf p rank
  if (s.weightsAt i).active = some t then s
  else s.modCells i fun c => { c with active := some t, shadow := none }

/-- May the rank inject the next vector of a run (R87): complete in the queues, its tile in the cells, and a plane held? -/
def State.mayInject (s : State) (r : LatRun) (x : Product) (p rank : Nat) : Bool :=
  decide (r.injected rank < SMap.look r.fed 0 rank) && s.tileHeld x r p rank && s.hasPlane p r.uid rank

/-- Injects the next vector of a run. -/
def State.inject (s : State) (r : LatRun) (x : Product) (p rank : Nat) : State :=
  let n := r.injected rank
  let s := (s.selectTile x r p rank).modRun r.uid fun r => { r with inj := SMap.put r.inj 0 rank (n + 1) }
  let s := s.slotCount ((s.partLats p).getD rank 0) true
  if rank = 0 && decide (n = (s.passes x - 1) * s.rankRows x 0) then s.engineOpen p r.uid else s

/-- One vector slot of a rank (R87): the feeder and the weight source go on, and the rank injects the next vector or a
bubble. `ready` says that the banks grant what the feeder and the weight source ask for (R85). A slot without a vector
left to inject, or before the row bands are on, is not counted as a bubble: R102 counts bubbles only `while an instruction
held the Lattice`, and the model takes an instruction to hold it from its first vector to its last (log entry 49). -/
def State.vectorSlot (s : State) (p rank : Nat) (ready : Bool) : State :=
  if !s.bandsReady p then s
  else
    let s := (s.feed p rank ready).loadTile p rank ready
    match s.streaming p rank with
    | none => s
    | some (r, x) =>
      if s.mayInject r x p rank then s.inject r x p rank
      else s.slotCount ((s.partLats p).getD rank 0) false

/-- The cause that a fatal check of a vector slot names in bits [3:0] of its detail: 3 feeder, 4 weight port or
source, otherwise 5, the vector-slot control. -/
def slotCause (d : BitVec 16) : Nat :=
  match d.toNat % 16 with
  | 3 => 3
  | 4 => 4
  | _ => 5

/-- VECTOR_SLOT (R87). -/
def execVectorSlot (p : Fin 8) (rank : Fin 4) (ready : Bool) (u : Upset) (s : State) : Result :=
  .next (match s.streaming p rank with
    | none => s
    | some (_, x) =>
      match u with
      | .clean => s.vectorSlot p rank ready
      | .corrected => (s.vectorSlot p rank ready).corrected
      | .fatal d =>
        let lat := (s.partLats p).getD rank 0
        let cause := slotCause d
        (s.latFault x lat 0 true (if cause = 5 then mechLatLockstep else mechSpad) cause (some d)).vectorSlot
          p rank ready)

/-! ### BLOCK_COMPLETION (R81, R82; 02 R42 to R45, R50 to R52) -/

/-- Have the drains of every earlier run of the partition been accepted (R112)? -/
def State.earlierDrained (s : State) (p uid : Nat) : Bool :=
  (s.runs p).takeWhile (fun r => r.1.uid ≠ uid) |>.isEmpty

/-- May the product read C's prior contents? From the Sill only behind the earlier drains of its queue (R112). -/
def State.priorReady (s : State) (x : Product) : Bool :=
  !x.accin || decide (x.c.desc.space ≠ 2) || s.earlierDrained x.e.queue x.e.uid

/-- The value that an element starts from (R82). -/
def State.priorBits (s : State) (x : Product) (m n : Nat) : BitVec 32 :=
  if x.accin then w32 (elemBits (s.bytesOf x.c.desc.space []) x.c.desc (latC x.c.desc m n)) else 0

/-- Counts n reads of prior contents in the Sill while it is shuttered (15 R360). -/
def State.priorShut (s : State) (x : Product) (n : Nat) : State :=
  if x.accin && decide (x.c.desc.space = 2) && s.sillDark then s.shutAccess s.sillCode n else s

/-- Reading a NaN prior value raises NANIN (R53). -/
def priorFlags (v : BitVec 32) : Flags := if (val32 v).isNan then flagNanin else noFlags

/-- The key of an output element. -/
def accKey (m n : Nat) : Nat := m * 2 ^ 24 + n

/-- The run that an element's next block belongs to, and that block: its vector has been injected. -/
def State.blockRun (s : State) (p rank m n : Nat) : Option (LatRun × Product × Nat) :=
  match (s.runs p).find? fun r =>
      let x := r.2
      let b := SMap.look r.1.blk 0 (accKey m n)
      decide (n < x.n) && decide (rank * s.rankRun x ≤ m) && decide (m < x.m) &&
      decide (m < (rank + 1) * s.rankRun x) && decide (b < x.blocks) &&
      decide (32 * b / s.rt x * s.rankRows x rank + (m - rank * s.rankRun x) < r.1.injected rank) &&
      s.priorReady x with
  | some r => some (r.1, r.2, SMap.look r.1.blk 0 (accKey m n))
  | none => none

/-- The outcome of one block: accumulator value, flags, the comparison of its half as it stands now, and whether that
comparison closed with a mismatch. -/
structure BlockOut where
  acc : BitVec 32
  flags : Flags
  chk : SpareCheck
  mismatch : Bool
  deriving DecidableEq, Repr

/-- BF16: one rounding for each k (R45). R50 checks exact-block pairings only. -/
def serialBlock (ps : List (Val × Val)) (acc : BitVec 32) : BlockOut :=
  ps.foldl (fun o p =>
    let r := arith32 (fmaVal p.1 p.2 (val32 o.acc))
    { o with acc := r.1, flags := flagsOr o.flags r.2 })
    { acc := acc, flags := noFlags, chk := SpareCheck.init, mismatch := false }

/-- The bits that the operands contribute at the given coordinates. -/
def State.pairs (s : State) (x : Product) (l : List (Coord × Coord)) : List (Val × Val) :=
  l.map fun c => (ofFmt x.a.desc.fmt (elemBits s.eng.spad x.a.desc c.1), ofFmt x.b.desc.fmt
    (elemBits s.eng.spad x.b.desc c.2))

/-- The products of a BF16 element in ascending k, an exact zero where an operand contributes one. -/
def State.serialPairs (s : State) (x : Product) (m n b : Nat) : List (Val × Val) :=
  ((List.range 32).map fun i => 32 * b + i).filterMap fun k =>
    if x.k ≤ k then none
    else match latA x.a.desc m k, latBEl x.b.desc x.trans k n with
      | some p, some q => some (lBF16.decode (elemBits s.eng.spad x.a.desc p),
          lBF16.decode (elemBits s.eng.spad x.b.desc q))
      | _, _ => some (Val.zero, Val.zero)

/-- The exact sum of a block of an output element (R42). -/
def State.exactBlock (s : State) (x : Product) (m n b : Nat) : BitVec 72 := blockSum (s.pairs x (x.live m n b))

/-- The columns of the half that output column n lies in (R51). -/
def State.halfCols (s : State) (x : Product) (n : Nat) : List Nat :=
  (List.range x.n).filter fun j => decide (s.halfOf x.e.queue j = s.halfOf x.e.queue n)

/-- The checksum that the spare column, or the spare row's segment, of the half of column n holds for reduction index k:
the residues of the tile's weights over the half's columns (R51). -/
def State.spareWeight (s : State) (x : Product) (n k : Nat) : Nat :=
  ((s.halfCols x n).map fun j => residueOf ((latBEl x.b.desc x.trans k j).map fun c =>
    ofFmt x.b.desc.fmt (elemBits s.eng.spad x.b.desc c))).sum % 251

/-- What the spare column of the half of column n accumulates for row m and block b (R51). -/
def State.spareSum (s : State) (x : Product) (m n b : Nat) : Nat :=
  (((List.range 32).map fun i => 32 * b + i).map fun k =>
    if x.k ≤ k then 0
    else residueOf ((latA x.a.desc m k).map fun c => ofFmt x.a.desc.fmt (elemBits s.eng.spad x.a.desc c)) *
      s.spareWeight x n k).sum % 251

/-- A column's block sum enters the comparison of its half. -/
def SpareCheck.add (c : SpareCheck) (acc : BitVec 72) : SpareCheck :=
  { cols := c.cols + 1, sum := c.sum + accResidue acc }

/-- One block of an output element. `flip` is what an upset inverts in the block accumulator before the residue
comparison, and `chk` the comparison of its half before it: the last column of the half closes the comparison (R51). -/
def State.blockOut (s : State) (x : Product) (m n b : Nat) (acc : BitVec 32) (flip : BitVec 72) (chk : SpareCheck) :
    BlockOut :=
  if x.serial then serialBlock (s.serialPairs x m n b) acc
  else
    let live := x.live m n b
    let ps := s.pairs x live
    let sum := s.exactBlock x m n b ^^^ flip
    let sa := blockScale s.eng.spad x.a.desc (live.head?.map fun c => c.1)
    let sb := blockScale s.eng.spad x.b.desc (live.head?.map fun c => c.2)
    let t := blockResult ps sa sb sum
    let r := add32 acc t.1
    let chk := chk.add sum
    let closes := decide (chk.cols = (s.halfCols x n).length)
    { acc := r.1, flags := flagsOr t.2 { r.2 with nanin := false }, chk := if closes then SpareCheck.init else chk,
      mismatch := closes && decide (chk.sum % 251 ≠ s.spareSum x m n b) }

/-- The key of the comparison of the half of output (m, n) for block b. -/
def State.chkKey (s : State) (x : Product) (m n b : Nat) : Nat :=
  (2 * m + s.halfOf x.e.queue n) * 2 ^ 24 + b

/-- A fatal check at a block completion: the lockstep of the block, or with detail bit 15 the prior contents that an
accumulate-in reads, a line of the Sill (05 R120) or a word of the scratchpad (16 R379). -/
def State.blockFault (s : State) (x : Product) (lat half : Nat) (prior : Bool) (d : BitVec 16) : State :=
  if d.getLsbD 15 && prior && x.accin then
    if x.priorInSill then s.sillLineBad x.e d else s.latFault x lat half false mechSpad 2 (some d)
  else s.latFault x lat half false mechLatLockstep 2 (some d)

/-- BLOCK_COMPLETION (R81): the next block of output (m, n) of a rank. -/
def execBlockCompletion (p : Fin 8) (rank : Fin 4) (m : Nat) (n : Nat) (flip : BitVec 72) (u : Upset) (s : State) :
    Result :=
  .next (match s.blockRun p rank m n with
    | none => s
    | some (r, x, b) =>
      let first := s.priorBits x m n
      let acc := if b = 0 then first else SMap.look r.acc 0 (accKey m n)
      let dark := s.latDark ((s.partLats p).getD rank 0)
      let fl := if b = 0 && !dark then priorFlags first else noFlags
      let key := s.chkKey x m n b
      let o := if dark then { acc := 0, flags := noFlags, chk := SpareCheck.init, mismatch := false }
        else s.blockOut x m n b acc flip (SMap.look r.chk SpareCheck.init key)
      let s := if dark then s.shutAccess shutOffCode 1 else s
      let s := if b = 0 then s.priorShut x 1 else s
      let s := s.modRun r.uid fun r => { r with
        acc := SMap.put r.acc 0 (accKey m n) o.acc, blk := SMap.put r.blk 0 (accKey m n) (b + 1)
        chk := SMap.put r.chk SpareCheck.init key o.chk }
      let s := s.latRaise x.e (flagsOr fl o.flags)
      let lat := (s.partLats p).getD rank 0
      let half := s.halfOf p n
      let s := if o.mismatch then s.latFault x lat half false mechResidue 1 none else s
      match u with
      | .clean => s
      | .corrected => if b = 0 && x.priorInSill then s.sillCorrected else s.corrected
      | .fatal d => s.blockFault x lat half (decide (b = 0)) d)

/-! ### LATTICE_DRAIN (R83, R46, R100) -/

/-- The outputs of a rank in the order of the drain. -/
def State.rankOutputs (s : State) (x : Product) (rank : Nat) : List (Nat × Nat) :=
  (List.range (s.rankRows x rank)).flatMap fun i =>
    (List.range x.n).map fun n => (rank * s.rankRun x + i, n)

/-- Has every output of the rank every block? -/
def State.rankFull (s : State) (r : LatRun) (x : Product) (rank : Nat) : Bool :=
  (s.rankOutputs x rank).all fun o => decide (SMap.look r.blk 0 (accKey o.1 o.2) = x.blocks)

/-- Does the drain scale (R46)? Not after K = 0 (R100). -/
def Product.scaled (x : Product) : Bool := isPlainScaled x.a.desc.fmt && decide (x.k ≠ 0)

/-- The combined scale of a plain FP8 or INT8 product, and the product's flags: UNDERFLOW for a subnormal scale, exact or
not, as for one that is zero and inexact. None, with INVALID, when a scale breaks R33 (R46). -/
def Product.scale (x : Product) : Option (BitVec 32) × Flags :=
  match plainScale x.a.desc (x.e.prop x.a.handle), plainScale x.b.desc (x.e.prop x.b.handle) with
  | some u, some v =>
    let r := arith32 (Val.mul u v)
    (some r.1, { r.2 with underflow := r.2.underflow || (decide (r.1 ≠ 0) && decide (r.1.toNat < 2 ^ 23)) })
  | _, _ => (none, flagInvalid)

/-- The flags that the product raises for its scales, whatever elements of C are written. -/
def Product.scaleFlags (x : Product) : Flags := if x.scaled then x.scale.2 else noFlags

/-- The FP32 value of an output at the drain (R46). Two readings of the spec are the model's (log entry 50). Of an infinite
accumulator value and a combined scale of +0 R46 says both that IEEE 754 rules hold and that any accumulator value
times +0 gives a zero: the model takes the sentence on +0, for every value that is not a NaN. Under accumulate-in the prior
contents are a part of the accumulator value (R82) and are scaled with it, so the identity of R47 holds for
a combined scale of 1. -/
def Product.drained (x : Product) (acc : BitVec 32) : BitVec 32 × Flags :=
  if x.scaled then
    match x.scale.1 with
    | some c =>
      if c = 0 then (if (val32 acc).isNan then nan32 else acc &&& 0x80000000, noFlags)
      else
        let r := mul32 acc c
        (r.1, { r.2 with nanin := false })
    | none => (nan32, noFlags)
  else (acc, noFlags)

/-- The value that an output's plane entry holds at the drain. -/
def State.planeValue (s : State) (r : LatRun) (x : Product) (m n : Nat) : BitVec 32 :=
  if x.k = 0 then s.priorBits x m n else SMap.look r.acc 0 (accKey m n)

/-- The rows of other ranks that share an MX block along D1 with a row of the rank. R48 gives the same bits whatever the
number of Lattices, so such a block has one scale, formed from all of its rows; the spec does not state the case
(log entry 51). -/
def State.sharedRows (s : State) (x : Product) (rank : Nat) : List Nat :=
  let d := x.c.desc
  if isMx d.fmt && d.mxAxis then
    let lo := rank * s.rankRun x
    let hi := lo + s.rankRows x rank
    let block (row : Nat) : Nat × Nat := (row / d.n1, row % d.n1 / 32)
    (List.range x.m).filter fun row =>
      (decide (row < lo) && decide (block row = block lo)) || (decide (hi ≤ row) && decide (block row = block (hi - 1)))
  else []

/-- The outputs of the shared rows. -/
def State.sharedOutputs (s : State) (x : Product) (rank : Nat) : List (Nat × Nat) :=
  (s.sharedRows x rank).flatMap fun row => (List.range x.n).map fun n => (row, n)

/-- Has every output that the rank's drain narrows every block? -/
def State.drainFull (s : State) (r : LatRun) (x : Product) (rank : Nat) : Bool :=
  s.rankFull r x rank &&
  (s.sharedOutputs x rank).all fun o => decide (SMap.look r.blk 0 (accKey o.1 o.2) = x.blocks)

/-- The run that a rank drains next. A product without passes has waited for the row bands of its partition all the same
(15 R367). -/
def State.drainRun (s : State) (p rank : Nat) : Option (LatRun × Product) :=
  match (s.runs p).find? fun r => decide (0 < s.rankRows r.2 rank) && !r.1.drained.contains rank with
  | some (r, x) =>
    if !x.e.aborted && s.bandsReady p && s.drainFull r x rank && (decide (x.k ≠ 0) || s.priorReady x) then some (r, x) else none
  | none => none

/-- The values that the drain of a rank forms for outputs that C takes, by element. A Lattice whose row band was left off
gives zeros (15 R357). -/
def State.drainVals (s : State) (r : LatRun) (x : Product) (rank : Nat) (outs : List (Nat × Nat)) :
    List (Coord × BitVec 32 × Flags) :=
  let dark := s.latDark ((s.partLats x.e.queue).getD rank 0)
  (outs.filter fun o => takes x.c.desc (latC x.c.desc o.1 o.2)).map fun o =>
    (latC x.c.desc o.1 o.2, if dark then (0, noFlags) else x.drained (s.planeValue r x o.1 o.2))

/-- The writes of a rank's drain and their flags. After K = 0 prior contents keep their bits, and a zero start writes +0
whatever the scales are (R100). The elements of shared rows enter the blocks of R38 and are written by their own rank. -/
def State.drainWrites (s : State) (r : LatRun) (x : Product) (rank : Nat) : List BitWrite × Flags :=
  let d := x.c.desc
  let own := s.drainVals r x rank (s.rankOutputs x rank)
  if x.k = 0 && x.accin then
    (own.map fun v => elemWrite d v.1 v.2.1.toNat, flagsAny (own.map fun v => priorFlags v.2.1))
  else if x.k = 0 && !isMx d.fmt then (own.map fun v => elemWrite d v.1 0, noFlags)
  else
    let shared := s.sharedRows x rank
    let lo := rank * s.rankRun x
    let below := (s.sharedOutputs x rank).filter fun o => decide (o.1 < lo)
    let above := (s.sharedOutputs x rank).filter fun o => decide (lo ≤ o.1)
    let vals := s.drainVals r x rank below ++ own ++ s.drainVals r x rank above
    let w := narrowWrites d (x.e.prop x.c.handle)
      (srItems (s.srBase x.e x.e.wseq) x.c (vals.map fun v => (v.1, val32 v.2.1)))
    (w.1.filter fun w => w.scale || !shared.contains (w.lin / d.n0), w.2)

/-- The drain of a rank: scale, Louvre, narrowing, write. -/
def State.drainRank (s : State) (r : LatRun) (x : Product) (rank : Nat) : State :=
  let vals := s.drainVals r x rank (s.rankOutputs x rank)
  let vs := vals.map fun v => val32 v.2.1
  let w := s.drainWrites r x rank
  let s := (s.louvreSees x.e.uid x.c true vs).addSquares x.e x.sums vs
  let s := if x.k = 0 && x.accin then s.priorShut x vals.length else s
  let s := s.writeAll x.e.uid 0 x.c.desc w.1
  s.latRaise x.e (flagsOr x.scaleFlags (flagsOr w.2 (flagsAny (vals.map fun v => v.2.2))))

/-- Has an aborted product reached its cut point, the start of the next pass (10 R247): every vector of the passes that have
begun is injected and its blocks are complete? -/
def State.atPass (s : State) (r : LatRun) (x : Product) : Bool :=
  let blocks := min x.blocks (ceilDiv (s.passesBegun r x * s.rt x) 32)
  (s.usedRanks x).all fun k =>
    decide (s.vectorEnd r x k ≤ r.injected k) &&
    (s.rankOutputs x k).all fun o => decide (blocks ≤ SMap.look r.blk 0 (accKey o.1 o.2))

/-- Ends a run whose ranks have all drained. -/
def State.runEnd (s : State) (uid : Nat) : State :=
  ({ s with eng := { s.eng with lats := s.eng.lats.filter fun r => r.uid ≠ uid } }).entryDone uid

/-- A fatal check at the drain (16 R380): detail bit 15 names the Louvre, whose fault stops no queue, or the line of the
Sill that a product without passes reads (05 R120), bit 14 the word of the scratchpad that it reads (16 R379); otherwise the
drain's lockstep pair. -/
def State.drainFault (s : State) (x : Product) (rank : Nat) (d : BitVec 16) : State :=
  if d.getLsbD 15 && decide (x.k = 0) && x.priorInSill then s.sillLineBad x.e d
  else if d.getLsbD 15 then
    (s.modEntry x.e.uid fun e => e.fail stLatticeFault).classS mechLouvre x.e stLatticeFault d
  else
    let word := d.getLsbD 14 && decide (x.k = 0) && x.accin
    s.latFault x ((s.partLats x.e.queue).getD rank 0) (d.toNat % 2) false (if word then mechSpad else mechLatLockstep) 2 (some d)

/-- LATTICE_DRAIN (R83): the whole drain of a rank. -/
def execLatticeDrain (p : Fin 8) (rank : Fin 4) (u : Upset) (s : State) : Result :=
  .next (match s.drainRun p rank with
    | none => s
    | some (r, x) =>
      let s := match u with
        | .clean => s
        | .corrected => if x.k = 0 && x.priorInSill then s.sillCorrected else s.corrected
        | .fatal d => s.drainFault x rank d
      let s := (s.drainRank r x rank).modRun r.uid fun r => { r with drained := rank.val :: r.drained }
      if (s.usedRanks x).all fun k => k = rank.val || r.drained.contains k then s.runEnd r.uid else s)

/-! ### The start of a product (R82, R99) -/

/-- Starts a product: an empty run, or with no output at once the end (R99). The clocks of the ranks with rows run again
(R97). -/
def State.latStart (s : State) (e : Entry) : State :=
  let r : LatRun := { uid := e.uid, plane := 0, acc := [], blk := [], inj := [], fed := [], reuse := [], chk := [],
                      drained := [] }
  match s.product r with
  | none => s
  | some x =>
    if x.m = 0 || x.n = 0 then s.entryDone e.uid
    else
      let plane := match (s.runs e.queue).getLast? with
        | some q => 1 - q.1.plane
        | none => 0
      let s := { s with eng := { s.eng with lats := s.eng.lats ++ [{ r with plane := plane }] } }
      s.clockRanks e.queue fun rank => (s.weightsAt (s.cellsOf e.queue rank)).gated && decide (s.rankRows x rank = 0)

end Sys2Proof.Machine
end

