-- ==== Sys2Proof/Machine/Casement.lean ====
section
/-! DEFINITION. The Casement: Panes, operations, loads, stores and loops (spec/06 R124 to R151), and its idle replay
(spec/16 R382). Units run their iterations one after another, which R145 makes the outcome of every interleaving. -/

namespace Sys2Proof.Machine

/-! ### Panes (R124, R125) -/

/-- Columns of a Pane in a DT. -/
def paneCols (dt : Nat) : Nat := if dt = 1 then 64 else 32

/-- The word of element (r, c) of a Pane. -/
def paneWord (dt pane r c : Nat) : Nat := 1024 * pane + 32 * r + (if dt = 1 then c / 2 else c)

/-- An element of a Pane and its valid bit. -/
def State.paneEl (s : State) (dt pane r c : Nat) : Nat × Bool :=
  let w := (SMap.look s.eng.panes 0 (paneWord dt pane r c)).toNat
  let v := SMap.look s.eng.pvalid 0 (paneWord dt pane r c)
  if dt = 1 then (bitsN w (16 * (c % 2)) 16, v.getLsbD (c % 2)) else (w, decide (v = 3))

/-- A result element: position, bits and valid bit. -/
structure PaneOut where
  r : Nat
  c : Nat
  v : Nat
  valid : Bool
  deriving DecidableEq, Repr

/-- Writes an element of a Pane; a 32-bit write sets both valid bits alike. -/
def State.paneSet (s : State) (dt pane : Nat) (o : PaneOut) : State :=
  let k := paneWord dt pane o.r o.c
  let w := (SMap.look s.eng.panes 0 k).toNat
  let b := SMap.look s.eng.pvalid 0 k
  let sh := 16 * (o.c % 2)
  let w' := if dt = 1 then w32 (w - (bitsN w sh 16 <<< sh) + ((o.v % 65536) <<< sh)) else w32 o.v
  let m := BitVec.ofNat 2 (2 ^ (o.c % 2))
  let b' : BitVec 2 := if dt = 1 then (if o.valid then b ||| m else b &&& ~~~m) else if o.valid then 3 else 0
  { s with eng := { s.eng with panes := SMap.put s.eng.panes 0 k w', pvalid := SMap.put s.eng.pvalid 0 k b' } }

/-- Writes a list of elements. -/
def State.paneSets (s : State) (dt pane : Nat) (os : List PaneOut) : State :=
  os.foldl (fun s o => s.paneSet dt pane o) s

/-- The positions of a Pane's elements. -/
def panePos (dt : Nat) : List (Nat × Nat) :=
  (List.range 32).flatMap fun r => (List.range (paneCols dt)).map fun c => (r, c)

/-! ### Where a unit stands (R143, R144) -/

/-- The place of an operation in its unit: the tile, the iteration's parity, and the ends of the run. -/
structure CasAt where
  e : Entry
  u : CasUnit
  inLoop : Bool
  t0 : Nat
  t1 : Nat
  x2 : Nat
  x3 : Nat
  odd : Bool
  first : Bool
  last : Bool
  final : Bool
  deriving DecidableEq, Repr

/-- W of R140. -/
def tileWidth (dt : Nat) : Nat := if dt = 1 then 64 else 32

/-- The iterations of a unit; a chain has one. -/
def CasUnit.iters (u : CasUnit) : Nat :=
  match u.domain with
  | none => 1
  | some o => ceilDiv o.desc.n0 (tileWidth u.loopDt) * ceilDiv o.desc.n1 32 * o.desc.n2 * o.desc.n3

/-- Iteration i of a unit, and in a chain the tile of the operation (R140, R143). -/
def CasUnit.at (u : CasUnit) (e : Entry) (i : Nat) (op : CasOp) : CasAt :=
  match u.domain with
  | none => { e := e, u := u, inLoop := false, t0 := op.tile.1, t1 := op.tile.2.1, x2 := op.tile.2.2, x3 := 0,
              odd := false, first := true, last := true, final := true }
  | some o =>
    let n0 := ceilDiv o.desc.n0 (tileWidth u.loopDt)
    let n1 := ceilDiv o.desc.n1 32
    let t0 := if u.order = 0 then i % n0 else i / n1 % n0
    let t1 := if u.order = 0 then i / n0 % n1 else i % n1
    let inner := if u.order = 0 then t0 else t1
    let most := if u.order = 0 then n0 else n1
    { e := e, u := u, inLoop := true, t0 := t0, t1 := t1, x2 := i / (n0 * n1) % o.desc.n2,
      x3 := i / (n0 * n1) / o.desc.n2, odd := decide (i % 2 = 1), first := decide (inner = 0),
      last := decide (inner + 1 = most), final := decide (i + 1 = u.iters) }

/-- ACC of a reduction word. -/
def CasOp.acc (o : CasOp) : Nat := o.pc / 2 % 4

/-- Is Pane n an accumulator of the unit's body (R144)? -/
def CasUnit.accumulator (u : CasUnit) (n : Nat) : Bool :=
  u.body.any fun o => casIsRed o.op && decide (o.pd = n) && (decide (o.acc = 1) || decide (o.acc = 2))

/-- The Pane that a body names (R144). -/
def CasAt.pane (x : CasAt) (n : Nat) : Nat :=
  if x.inLoop && x.odd && !x.u.accumulator n then n + 16 else n

/-- The bits of a scalar operand (R128, 08 R175). -/
def CasAt.scalar (x : CasAt) (op : CasOp) (v : Scalar) : Nat :=
  match v with
  | .pane => 0
  | .bits b => b.toNat
  | .clip sf => if op.op = 0x0C then x.e.clip.toNat % 2 ^ 32 else (scalarOperand op.dt sf x.e.clip).1.toNat

/-- An operand's element: from a Pane, or a scalar, which counts as valid. -/
def State.casOperand (s : State) (x : CasAt) (op : CasOp) (v : Scalar) (pane dt r c : Nat) : Nat × Bool :=
  match v with
  | .pane => s.paneEl dt (x.pane pane) r c
  | w => (x.scalar op w, true)

/-! ### Stochastic rounding of conversions (R135) -/

/-- The random number of a conversion's element; `b` says that CVT.NB takes the element from B. -/
def State.convU (s : State) (x : CasAt) (op : CasOp) (r c : Nat) (b : Bool) : Nat :=
  match x.u.domain with
  | none => 0
  | some o =>
    let pos : Coord := { x0 := tileWidth x.u.loopDt * x.t0 + c, x1 := 32 * x.t1 + r, x2 := x.x2, x3 := x.x3 }
    let i := linIndex o.desc pos + (if b then 2 ^ 43 else 0)
    (s.srBase x.e op.wseq).u (op.pc % 8) o.handle i

/-! ### Element-wise operations and conversions (R130 to R136) -/

/-- The shift of SCALEB: the INT32 word of B at the position, or of the register (R134). -/
def State.scalebShift (s : State) (x : CasAt) (op : CasOp) (r c : Nat) : Int :=
  if op.op = 0x0C then signedN (s.casOperand x op op.bVal op.pb 0 r c).1 32 else 0

/-- An element-wise result with its flags. -/
def State.casEl (s : State) (x : CasAt) (op : CasOp) (r c : Nat) : PaneOut × Flags :=
  let a := if casReadsA op.op then s.casOperand x op .pane op.pa op.dt r c else (0, true)
  let b := if casReadsB op.op then s.casOperand x op op.bVal op.pb op.dt r c else (0, true)
  let c' := if casReadsC op.op then s.casOperand x op op.cVal op.pc op.dt r c else (0, true)
  let o := casElement op.op op.dt a.1 b.1 c'.1 (s.scalebShift x op r c) (32 * r + c)
  ({ r := r, c := c, v := o.1, valid := a.2 && b.2 && c'.2 }, o.2)

/-- A conversion's result with its flags (R135). -/
def State.casConv (s : State) (x : CasAt) (op : CasOp) (r c : Nat) : PaneOut × Flags :=
  let mode := rmodeOf (op.pc % 8)
  match op.op with
  | 0x18 =>
    let a := s.casOperand x op .pane op.pa 0 r c
    let o := casCvtFI mode (s.convU x op r c false) a.1
    ({ r := r, c := c, v := o.1, valid := a.2 }, o.2)
  | 0x19 =>
    let a := s.casOperand x op .pane op.pa 0 r c
    let o := casCvtIF mode (s.convU x op r c false) a.1
    ({ r := r, c := c, v := o.1, valid := a.2 }, o.2)
  | 0x1A =>
    let fromB := decide (32 ≤ c)
    let a := if fromB then s.casOperand x op op.bVal op.pb 0 r (c - 32) else s.casOperand x op .pane op.pa 0 r c
    let o := casCvtNB mode (s.convU x op r (if fromB then c - 32 else c) fromB) a.1
    ({ r := r, c := c, v := o.1, valid := a.2 }, o.2)
  | _ =>
    let a := s.casOperand x op .pane op.pa 1 r (if op.op = 0x1C then c + 32 else c)
    ({ r := r, c := c, v := casWiden a.1, valid := a.2 }, noFlags)

/-- PERM (R136). -/
def State.casPerm (s : State) (x : CasAt) (op : CasOp) (r c : Nat) : PaneOut × Flags :=
  let b := s.casOperand x op .pane op.pb 0 r c
  if 1024 ≤ b.1 then ({ r := r, c := c, v := 0, valid := b.2 }, { noFlags with range := true })
  else
    let a := s.casOperand x op .pane op.pa 0 (b.1 / 32) (b.1 % 32)
    ({ r := r, c := c, v := a.1, valid := a.2 && b.2 }, noFlags)

/-- BCST (R130). -/
def State.casBcst (s : State) (x : CasAt) (op : CasOp) (r c : Nat) : PaneOut × Flags :=
  let a := if op.pc % 2 = 0 then s.casOperand x op .pane op.pa 0 r 0 else s.casOperand x op .pane op.pa 0 0 c
  ({ r := r, c := c, v := a.1, valid := a.2 }, noFlags)

/-- The results of an operation that writes its whole Pane, with the DT of the writes. -/
def State.casResults (s : State) (x : CasAt) (op : CasOp) : Nat × List (PaneOut × Flags) :=
  if casIsConv op.op then
    let dt := if op.op = 0x1A then 1 else 0
    (dt, (panePos dt).map fun p => s.casConv x op p.1 p.2)
  else if op.op = 0x2D then (0, (panePos 0).map fun p => s.casPerm x op p.1 p.2)
  else if op.op = 0x2C then (0, (panePos 0).map fun p => s.casBcst x op p.1 p.2)
  else (op.dt, (panePos op.dt).map fun p => s.casEl x op p.1 p.2)

/-! ### Reductions (R137 to R139) -/

/-- The result element's place. -/
def redPlace (axis j : Nat) : Nat × Nat := if axis = 0 then (j, 0) else (j / 32, j % 32)

/-- The vector of result j. -/
def State.redVec (s : State) (x : CasAt) (op : CasOp) (axis j : Nat) : List (Nat × Bool) :=
  if axis = 0 then (List.range (paneCols op.dt)).map fun c => s.casOperand x op .pane op.pa op.dt j c
  else (List.range 32).map fun r => s.casOperand x op .pane op.pa op.dt r j

/-- Does the reduction replace the element (R137)? -/
def CasAt.replaces (x : CasAt) (op : CasOp) : Bool :=
  match op.acc with
  | 0 => true
  | 2 => !x.inLoop || x.first
  | _ => false

/-- Is the vector's position inside the domain's extents, and the run complete (R139)? -/
def CasAt.emptyCounts (x : CasAt) (op : CasOp) (axis j : Nat) : Bool :=
  match x.u.domain with
  | none => true
  | some o =>
    (if axis = 0 then decide (32 * x.t1 + j < o.desc.n1)
      else decide (tileWidth x.u.loopDt * x.t0 + j < o.desc.n0)) &&
    (match op.acc with
      | 0 => true
      | 2 => x.last
      | _ => x.final)

/-- One result of a reduction: the element, or none where it stays unchanged, and the flags. A combining reduction of a vector
with a valid element whose result element is not valid stores the tree value, and the result becomes valid; step 4 of R138 names
valid result elements and replacing reductions only (DEDUCED, log entry 56). -/
def State.redOne (s : State) (x : CasAt) (op : CasOp) (axis j : Nat) : Option PaneOut × Flags :=
  let place := redPlace axis j
  let vs := s.redVec x op axis j
  let old := s.paneEl 0 (x.pane op.pd) place.1 place.2
  let empty (valid : Bool) : Flags := { noFlags with empty := !valid && x.emptyCounts op axis j }
  if vs.any fun v => v.2 then
    let t := redVector op.op op.dt vs
    let r := if x.replaces op || !old.2 then t
      else
        let c := redCombine op.op op.dt (w32 old.1) t.1
        (c.1, flagsOr t.2 c.2)
    (some { r := place.1, c := place.2, v := r.1.toNat, valid := true }, r.2)
  else if x.replaces op then
    (some { r := place.1, c := place.2, v := (redIdentity op.op op.dt).toNat, valid := false }, empty false)
  else (none, empty old.2)

/-- A reduction: every result element. -/
def State.casReduce (s : State) (x : CasAt) (op : CasOp) : List (Option PaneOut × Flags) :=
  let axis := op.pc % 2
  (List.range (if axis = 0 then 32 else paneCols op.dt)).map fun j => s.redOne x op axis j

/-! ### One arithmetic operation -/

/-- Performs an arithmetic operation; flags come from valid results only (R125), and EMPTY from R139. -/
def State.casArith (s : State) (x : CasAt) (op : CasOp) : State :=
  if casIsRed op.op then
    let rs := s.casReduce x op
    let s := s.paneSets 0 (x.pane op.pd) (rs.filterMap fun r => r.1)
    s.casRaise x.e.stream x.e.ctx x.e.iseq (flagsAny (rs.map fun r => r.2))
  else
    let rs := s.casResults x op
    let s := s.paneSets rs.1 (x.pane op.pd) (rs.2.map fun r => r.1)
    s.casRaise x.e.stream x.e.ctx x.e.iseq (flagsAny ((rs.2.filter fun r => r.1.valid).map fun r => r.2))

/-! ### Loads and stores (R140 to R142) -/

/-- A coordinate under the broadcast rule. -/
def bcast (n v : Nat) : Nat := if n = 1 then 0 else v

/-- The tensor element of Pane position (r, c) (R140); D2 and D3 are broadcast inside a loop only. -/
def CasAt.coord (x : CasAt) (d : Desc) (dt r c : Nat) : Coord :=
  { x0 := bcast d.n0 (tileWidth dt * x.t0 + c), x1 := bcast d.n1 (32 * x.t1 + r),
    x2 := if x.inLoop then bcast d.n2 x.x2 else x.x2, x3 := if x.inLoop then bcast d.n3 x.x3 else x.x3 }

/-- The value of a masked element (R67). -/
def maskFillBits (d : Desc) (dt : Nat) : Nat :=
  if d.maskFill then (if dt = 1 then 0xFF80 else 0xFF800000) else 0

/-- One element of an LD (R141). -/
def State.ldOne (s : State) (x : CasAt) (d : Desc) (p dt r c : Nat) : PaneOut × Flags :=
  let q := x.coord d dt r c
  if !inExtents d q then ({ r := r, c := c, v := 0, valid := false }, noFlags)
  else if masked d q then ({ r := r, c := c, v := maskFillBits d dt, valid := false }, noFlags)
  else if dt = 1 then
    let b := elemBits s.eng.spad d q
    ({ r := r, c := c, v := b, valid := true }, if (lBF16.decode b).isNan then flagNanin else noFlags)
  else
    let v := loadElem s.eng.spad d p q
    ({ r := r, c := c, v := v.1.toNat, valid := true }, v.2)

/-- LD (R141). -/
def State.casLd (s : State) (x : CasAt) (op : CasOp) (o : Opnd) : State :=
  let rs := (panePos op.dt).map fun q => s.ldOne x o.desc (x.e.prop o.handle) op.dt q.1 q.2
  let s := s.readShut o.desc (((panePos op.dt).map fun q => x.coord o.desc op.dt q.1 q.2).filter fun q => takes o.desc q)
  let s := s.paneSets op.dt (x.pane op.pd) (rs.map fun r => r.1)
  s.casRaise x.e.stream x.e.ctx x.e.iseq (flagsAny (rs.map fun r => r.2))

/-- Pane positions that an ST writes from: column 0 or row 0 along a broadcast dimension (R142). -/
def stPos (d : Desc) (dt : Nat) : List (Nat × Nat) :=
  (if d.n1 = 1 then [0] else List.range 32).flatMap fun r =>
    (if d.n0 = 1 then [0] else List.range (paneCols dt)).map fun c => (r, c)

/-- The random number of an element of an ST: of the destination (02 R41), or for an UPD.APPLY of the loop's domain
(08 R174). -/
def State.stU (s : State) (x : CasAt) (op : CasOp) (o : Opnd) (q : Coord) : Nat :=
  let b := s.srBase x.e op.wseq
  match x.u.group, x.u.domain with
  | some _, some w => b.u o.desc.rmode w.handle (linIndex w.desc q)
  | _, _ => b.u o.desc.rmode o.handle (linIndex o.desc q)

/-- The elements that an ST writes, with their Pane bits. -/
def State.stElems (s : State) (x : CasAt) (op : CasOp) (d : Desc) : List (Coord × Nat) :=
  ((stPos d op.dt).map fun q => (x.coord d op.dt q.1 q.2, (s.paneEl op.dt (x.pane op.pd) q.1 q.2).1)).filter
    fun q => takes d q.1

/-- The lockstep pair of the egress Louvre, for a write of an entry that passes it (16 R380): a mismatch flags the entry with
its engine's fault status and stops no queue (16 R388). -/
def State.egressCheck (s : State) (e : Entry) (d : Desc) (status : Nat) : State :=
  if !d.lvEn then s
  else match s.upsetAt .louvre with
    | .clean => s
    | .corrected => s.struck .louvre
    | .fatal x => ((s.struck .louvre).modEntry e.uid fun e => e.fail status).classS mechLouvre e status x

/-- ST (R142): narrowing, the egress Louvre, the write. A NaN element that it stores is a NaN element read (02 R53). -/
def State.casSt (s : State) (x : CasAt) (op : CasOp) (o : Opnd) : State :=
  if x.inLoop && decide (op.pc % 2 = 1) && !x.last then s
  else
    let els := s.stElems x op o.desc
    let val (b : Nat) : Val := if op.dt = 1 then lBF16.decode b else lFP32.decode b
    let w := if op.dt = 1 then (els.map fun q => elemWrite o.desc q.1 q.2, noFlags)
      else narrowWrites o.desc (x.e.prop o.handle) (els.map fun q => { x := q.1, v := val q.2, u := s.stU x op o q.1 })
    let s := s.louvreSees x.e.uid o false (els.map fun q => val q.2)
    let s := (s.writeAll x.e.uid op.pa o.desc w.1).egressCheck x.e o.desc stCasementFault
    s.casRaise x.e.stream x.e.ctx x.e.iseq { w.2 with nanin := w.2.nanin || els.any fun q => (val q.2).isNan }

/-! ### The running unit (R147) -/

/-- The unit in progress and its next operation; an aborted loop stops behind a pair of iterations (10 R247). -/
def State.casNext (s : State) : Option (CasRun × CasAt × CasOp) :=
  match s.eng.cas with
  | none => none
  | some r =>
    match s.entry r.uid with
    | none => none
    | some e =>
      match e.job with
      | .casement u =>
        if u.iters ≤ r.iter || (e.aborted && decide (r.pos = 0) && decide (r.iter % 2 = 0)) then none
        else match u.body[r.pos]? with
          | some op => some (r, u.at e r.iter op, op)
          | none => none
      | _ => none

/-- Is it a load or a store? -/
def CasOp.isPort (o : CasOp) : Bool := decide (o.op = 0x30) || decide (o.op = 0x31)

/-- The Panes that an arithmetic operation reads. -/
def CasAt.reads (x : CasAt) (op : CasOp) : List Nat :=
  (if casReadsA op.op then [x.pane op.pa] else []) ++
  (if casReadsB op.op && decide (op.bVal = .pane) then [x.pane op.pb] else []) ++
  (if casReadsC op.op && decide (op.cVal = .pane) then [x.pane op.pc] else []) ++
  (if casIsRed op.op && !x.replaces op then [x.pane op.pd] else [])

/-- The present cycle. -/
def State.nowCycle (s : State) : Nat := s.time.cycle.toNat

/-- An arithmetic operation starts: how long it holds the unit, and when its Pane is ready (R130, R147). -/
def State.casTimed (s : State) (x : CasAt) (op : CasOp) : State :=
  { s with eng := { s.eng with
    casFree := s.nowCycle + casOccupancy op.op
    casReady := SMap.put s.eng.casReady 0 (x.pane op.pd) (s.nowCycle + casLatency op.op)
    casRed := if casIsRed op.op then some (x.pane op.pd) else none } }

/-- The last line of an LD has arrived: its Pane is ready 8 cycles later (R147). -/
def State.casLoaded (s : State) (x : CasAt) (op : CasOp) : State :=
  { s with eng := { s.eng with casReady := SMap.put s.eng.casReady 0 (x.pane op.pd) (s.nowCycle + 8) } }

/-- Is a Pane that an operation reads ready: its producer's latency is over, or the reduction just before wrote the
accumulator that this one combines into (R147)? -/
def State.paneReady (s : State) (x : CasAt) (op : CasOp) (p : Nat) : Bool :=
  decide (SMap.look s.eng.casReady 0 p ≤ s.nowCycle) ||
  (casIsRed op.op && decide (x.pane op.pd = p) && decide (s.eng.casRed = some p))

/-- Does the arithmetic unit, free of the previous operation, wait for a Pane of the chain's next arithmetic operation: one not
ready, or one that an LD in front of it has still to fill (R147, R151)? -/
def State.casWaiting (s : State) (r : CasRun) (x : CasAt) : Bool :=
  let rest := x.u.body.drop r.pos
  let loads := (rest.takeWhile CasOp.isPort).filter fun o => o.op = 0x30
  match (rest.dropWhile CasOp.isPort).head? with
  | none => false
  | some op =>
    decide (s.eng.casFree ≤ s.nowCycle) &&
    (x.reads op).any fun p => !s.paneReady x op p || loads.any fun o => decide (x.pane o.pd = p)

/-- Moves the unit behind its operation; behind the last one the engine reaches its start point (R233). -/
def State.casStep (s : State) (r : CasRun) (u : CasUnit) : State :=
  let r' := if r.pos + 1 < u.body.length then { r with pos := r.pos + 1 } else { r with pos := 0, iter := r.iter + 1 }
  if r'.iter < u.iters then { s with eng := { s.eng with cas := some r' } }
  else ({ s with eng := { s.eng with cas := none } }).engineOpen qCas r.uid

/-- Records a Casement fault (R151). -/
def State.casFault (s : State) (e : Entry) (cause pane group : Nat) : State :=
  s.modEr fun r => { r with
    casFaultPane := BitVec.ofNat 5 pane, casFaultGroup := BitVec.ofNat 5 group,
    casFaultStream := BitVec.ofNat 2 (Thread.num e.stream), casFaultCause := BitVec.ofNat 4 cause,
    casFaultCount := satInc 16 r.casFaultCount, casFaultPend := true }

/-- Stops the unit of an entry, if it still runs, and flags the entry with CASEMENT_FAULT (R150). -/
def State.casStop (s : State) (uid : Nat) : State :=
  match s.entry uid with
  | none => s
  | some e =>
    let s := s.modEntry uid fun e => e.fail stCasementFault
    if e.phase = .running then
      let s := if (s.eng.cas.map fun r => r.uid) = some uid then { s with eng := { s.eng with cas := none } } else s
      s.entryDone uid
    else s

/-- The consequences of a Class S fault that the Casement detects (R150, 16 R388). An entry that has completed keeps its
status, and the event shows none (16 R389). -/
def State.casDetect (s : State) (e : Entry) (mech : Nat) (d : BitVec 16) : State :=
  let status := if (s.entry e.uid).isSome then stCasementFault else 0
  (((s.casStop e.uid).queueStop qCas).queueRelease qCas).classS mech e status d

/-- The causes that a fatal check of the arithmetic unit names in bits [15:14] of its detail: 0 duplication mismatch,
1 Pane data parity, otherwise valid-bit parity, of Pane [9:5]. -/
def casCause (d : BitVec 16) : Nat :=
  match d.toNat / 2 ^ 14 with
  | 0 => 3
  | 1 => 1
  | _ => 2

/-- The lane group that the spare duplicates in this cycle (R149). -/
def State.spareGroup (s : State) : Nat := s.time.sinceCommit % 32

/-- A fatal check of the arithmetic unit or a Pane. A mismatch is one of the group that the spare duplicates. Held requests and
packets are withdrawn (16 R386). -/
def State.casFatal (s : State) (e : Entry) (d : BitVec 16) : State :=
  let cause := casCause d
  let s := s.casFault e cause (bitsN d.toNat 5 5) (if cause = 3 then s.spareGroup else 0)
  (s.casDetect e (if cause = 3 then mechCasDup else mechPaneParity) d).withdrawHeld

/-- The arithmetic unit starts or replays an operation in this cycle (16 R382). -/
def State.casBusy (s : State) : State := { s with time := { s.time with now := { s.time.now with casBusy := true } } }

/-- CASEMENT_OPERATION_START (R147): the arithmetic unit performs the unit's next operation. -/
def execCasementOperationStart (u : Upset) (s : State) : Result :=
  .next (match s.casNext with
    | none => s
    | some (r, x, op) =>
      if op.isPort then s
      else
        let s := ({ s with eng := { s.eng with casLast := some (x.e, op), casIdle := 0 } }.casTimed x op).casBusy
        match u with
        | .fatal d => s.casFatal x.e d
        | _ =>
          let s := ((s.casArith x op).modEr fun g => { g with casOps := g.casOps + 1 }).casStep r x.u
          if u = .corrected then s.corrected else s)

/-- CASEMENT_PORT_ACCESS (R148): the port unit performs the unit's next LD or ST. A fatal check is an uncorrectable
scratchpad error for an LD (16 R388), and Pane parity for an ST (R149). -/
def execCasementPortAccess (u : Upset) (s : State) : Result :=
  .next (match s.casNext with
    | none => s
    | some (r, x, op) =>
      match op.isPort, op.opnd with
      | true, some o =>
        let load := decide (op.op = 0x30)
        match u with
        | .fatal d =>
          if load then s.casDetect x.e mechSpad d
          else ((s.casFault x.e (if d.getLsbD 14 then 2 else 1) (x.pane op.pd) 0).casDetect x.e mechPaneParity d).withdrawHeld
        | _ =>
          let s := (if load then (s.casLd x op o).casLoaded x op else s.casSt x op o).casStep r x.u
          if u = .corrected then s.corrected else s
      | _, _ => s)

/-- Units whose operations are done and whose last latency and write are outstanding. -/
def State.casEnding (s : State) : Option Entry :=
  s.eng.lanes.find? fun e =>
    decide (e.phase = .running) && !(s.eng.skipHold.any fun h => h.1 = e.uid) &&
    decide ((s.eng.cas.map fun r => r.uid) ≠ some e.uid) &&
    match e.job with
    | .casement _ => true
    | _ => false

/-- CASEMENT_UNIT_COMPLETE (R147): the last operation's latency and the last write are over. -/
def execCasementUnitComplete (s : State) : Result :=
  .next (match s.casEnding with
    | some e => s.entryDone e.uid
    | none => s)

/-- Does this cycle replay the most recent operation: ACLK runs, none has started or been replayed in it, and at most 32
cycles have passed since that operation (16 R382)? -/
def State.replayCycle (s : State) : Bool :=
  s.clk.aclkOn && !s.time.now.casBusy && decide (1 ≤ s.eng.casIdle) && decide (s.eng.casIdle ≤ 32)

/-- IDLE_REPLAY (16 R382): a cycle in which no operation starts replays the most recent one for the comparison. A mismatch is
attributed to the entry of that operation (R389). -/
def execIdleReplay (u : Upset) (s : State) : Result :=
  .next (match s.eng.casLast with
    | none => s
    | some (e, _) =>
      if !s.replayCycle then s
      else
        let s := s.casBusy
        match u with
        | .fatal d => s.casFatal e d
        | .corrected => s.corrected
        | .clean => s)

/-- Starts a unit; a loop without an iteration has no operation (R143). -/
def State.casStart (s : State) (e : Entry) (u : CasUnit) : State :=
  if u.iters = 0 || u.body.isEmpty then s.engineOpen qCas e.uid
  else { s with eng := { s.eng with cas := some { uid := e.uid, iter := 0, pos := 0 } } }

end Sys2Proof.Machine
end

