-- ==== Sys2Proof/Machine/Transfer.lean ====
section
/-! DEFINITION. The Transom, the Sill instructions, memory copies, UPD.SSQ and near-memory updates (spec/05 R106 to
R121; spec/08 R179, R186, R187; spec/09 R217; spec/14 R332 to R334). -/

namespace Sys2Proof.Machine

/-! ### Jamb work of an entry -/

/-- The client that a job's memory requests belong to (R332). -/
def Job.client (j : Job) : Client :=
  match j with
  | .spill _ _ _ => .nearMem
  | .near _ => .nearMem
  | _ => .transfer

/-- The status of a Jamb error on a job's request (R332). -/
def Job.memStatus (j : Job) : Nat :=
  match j with
  | .spill _ _ _ => stSpillFault
  | .near _ => stSpillFault
  | _ => stMemoryFault

/-- The destinations whose contents are unspecified when the entry completes with MEMORY_FAULT, TRANSOM_FAULT or
ABORTED (R108, R248, R332). -/
def Job.dests (j : Job) : List Opnd :=
  match j with
  | .lattice _ _ c _ _ _ => [c]
  | .casement u => (u.body.filter fun o => o.op = 0x31).filterMap fun o => o.opnd
  | .transom _ _ d => [d]
  | .drain _ d _ => [d]
  | .copy _ d => [d]
  | .put d route => if bitN route.toNat 34 then [d] else []
  | .red _ d _ => [d]
  | .root r => [r.q, r.w]
  | _ => []

/-- Does the job write memory after it has read (R233)? -/
def Job.writesMem (j : Job) : Bool :=
  match j with
  | .ssq _ _ => false
  | .copy _ d => decide (d.desc.space = 0)
  | .drain _ d _ => decide (d.desc.space = 0)
  | _ => true

/-- Forms the reads of a list of bytes for an entry. -/
def State.askReads (s : State) (uid : Nat) (as : List Nat) : State :=
  match s.entry uid with
  | none => s
  | some e =>
    let rs := readReqs (.entry uid) e.job.client as
    (s.modEntry uid fun e => { e with rdWait := e.rdWait + rs.length }).jambAdd rs

/-- The tag that a near-memory write goes under (R329). -/
def Entry.keptTag (e : Entry) (block : Nat) : Option Nat := (e.kept.find? fun k => k.1 = block).map fun k => k.2

/-- Forms the writes of the bytes gathered in `out`; `held` says that they come from the scratchpad (16 R386). -/
def State.emitOut (s : State) (uid : Nat) (held : Bool) : State :=
  match s.entry uid with
  | none => s
  | some e =>
    let rs := (cellBlocks e.out).map fun b =>
      writeReq (.entry uid) e.job.client held (e.keptTag b.1) b.1 b.2
    (s.modEntry uid fun e => { e with out := [], wrWait := e.wrWait + rs.length }).jambAdd rs

/-- An entry with nothing left to do ends; with a fault on its moves, or aborted, its destination is unspecified. -/
def State.entryEnd (s : State) (uid : Nat) : State :=
  match s.entry uid with
  | none => s
  | some e =>
    let s := if e.aborted || e.errStatus = stMemoryFault || e.errStatus = stTransomFault then
        e.job.dests.foldl (fun s d => s.freeFootprint d.desc) s else s
    s.entryDone uid

/-- Has the entry nothing outstanding? -/
def Entry.settled (e : Entry) : Bool := decide (e.rdWait = 0) && decide (e.wrWait = 0) && decide (e.tagWait = 0)

/-- Ends a running entry whose requests have all been formed and answered (R333). -/
def State.entrySettle (s : State) (uid : Nat) : State :=
  match s.entry uid with
  | none => s
  | some e => if e.formed && e.settled && decide (e.phase = .running) then s.entryEnd uid else s

/-! ### Bytes of memory that are written in part -/

/-- The bits of each byte that the elements at some coordinates cover. -/
def coverBits (d : Desc) (xs : List Coord) : SMap Nat :=
  xs.foldl (fun m x =>
    let a := elemAddr d x
    let n := (elemSpan d x).2
    let bits := (2 ^ fmtBits d.fmt - 1) <<< a.2
    (List.range n).foldl (fun m i =>
      SMap.put m 0 (a.1 + i) (SMap.look m 0 (a.1 + i) ||| bitsN bits (8 * i) 8)) m) []

/-- The bytes of a destination in memory that its written elements cover in part: they are read before they are
written, since memory takes whole bytes (R327). -/
def partialAddrs (d : Desc) (xs : List Coord) : List Nat :=
  if d.space = 0 && decide (fmtBits d.fmt < 8) then
    ((coverBits d xs).filter fun p => p.2 ≠ 255).map fun p => p.1
  else []

/-- The coordinates that a destination takes. -/
def takenCoords (d : Desc) : List Coord := (coords d).filter fun x => takes d x

/-! ### Moves (05 R106) -/

/-- The source coordinates of a destination element. -/
def moveCoord (tr : Bool) (x : Coord) : Coord := if tr then { x with x0 := x.x1, x1 := x.x0 } else x

/-- Do two ranges meet? -/
def rangesMeet (a b : Nat × Nat) : Bool := decide (a.1 < b.2) && decide (b.1 < a.2)

/-- The footprint of a descriptor (03 R65) and its scale array (R68). -/
def footRanges (d : Desc) : List (Nat × Nat) :=
  if elemCount d = 0 then []
  else (d.base, footprintEnd d) ::
    (if isMx d.fmt then [(d.base + d.scale, d.base + d.scale + scaleCount d)] else [])

/-- Do the footprints of source and destination overlap? -/
def footOverlap (a b : Desc) : Bool :=
  decide (a.space = b.space) && (footRanges a).any fun p => (footRanges b).any fun q => rangesMeet p q

/-- The element writes of a move. -/
def moveWrites (m : Mem) (tr : Bool) (src dst : Desc) : List BitWrite :=
  (takenCoords dst).map fun x => elemWrite dst x (elemBits m src (moveCoord tr x))

/-- One more than the index of the last written element of each block, by the address of its scale byte. -/
def lastLins (dst : Desc) : SMap Nat :=
  (takenCoords dst).foldl (fun m x => SMap.put m 0 (scaleAddr dst x) (linIndex dst x + 1)) []

/-- One more than the scale byte of each block of the destination, by its address. -/
def moveScales (m : Mem) (tr : Bool) (src dst : Desc) : SMap Nat :=
  (coords dst).foldl (fun b x => SMap.put b 0 (scaleAddr dst x) (scaleByte m src (moveCoord tr x) + 1)) []

/-- Writes the scale bytes of a move; a block without a written element has no place in the digest (16 R395). -/
def State.scaleMoves (s : State) (uid : Nat) (d : Desc) (bs : SMap Nat) : State :=
  let lins := lastLins d
  bs.foldl (fun s b =>
    let l := SMap.look lins 0 b.1
    let w : BitWrite := { addr := b.1, bit := 0, width := 8, val := b.2 - 1, lin := l - 1, scale := true }
    if l = 0 then s.place uid d w else s.write1 uid 0 d w) s

/-- A free value of 32 bits named by the counter and a number. Log entry 4. -/
def freeBits (fresh k : Nat) : Nat := leNat ((List.range 4).map fun i => Config.freeByte fresh (4 * k + i))

/-- A move whose footprints overlap: the destination's contents are unspecified (R106). -/
def State.moveFree (s : State) (uid : Nat) (d : Desc) : State :=
  let n := s.fresh
  let s := s.draw.2
  let s := s.writeAll uid 0 d ((takenCoords d).map fun x => elemWrite d x (freeBits n (2 * linIndex d x)))
  if isMx d.fmt then
    s.scaleMoves uid d ((moveScales [] false d d).map fun b => (b.1, freeBits n (2 * b.1 + 1) % 256 + 1))
  else s

/-- Moves a tensor. `dark` says that the Transom is shuttered: its buffers read zero (15 R360). -/
def State.move (s : State) (uid : Nat) (tr : Bool) (src dst : Desc) (dark : Bool) : State :=
  match s.entry uid with
  | none => s
  | some e =>
    let m := if dark then [] else s.bytesOf src.space e.got
    let s := if dark then s else s.readShut src ((takenCoords dst).map (moveCoord tr))
    if footOverlap src dst then s.moveFree uid dst
    else
      let scales := moveScales m tr src dst
      let s := s.writeAll uid 0 dst (moveWrites m tr src dst)
      if isMx dst.fmt then s.scaleMoves uid dst scales else s

/-- The bytes that a move reads from memory: the source, and the bytes of the destination written in part. -/
def moveReads (src dst : Desc) : List Nat :=
  (if src.space = 0 then tensorAddrs src fun _ => true else []) ++ partialAddrs dst (takenCoords dst)

/-! ### Transom (R106, R108) -/

/-- Starts a Transom instruction: it asks for what it reads from memory. -/
def State.transomStart (s : State) (e : Entry) (src dst : Opnd) : State :=
  s.askReads e.uid (moveReads src.desc dst.desc)

/-- The bytes that a move writes (R121, R108). -/
def moveBytes (d : Desc) : Nat :=
  ((takenCoords d).length * fmtBits d.fmt + 7) / 8 + (if isMx d.fmt then scaleCount d else 0)

/-- The running Transom instruction. -/
def State.transomRun (s : State) : Option (Entry × Bool × Opnd × Opnd) :=
  match s.eng.lanes.find? fun e => e.queue = qTrn && decide (e.phase = .running) with
  | some e =>
    match e.job with
    | .transom tr a d => some (e, tr, a, d)
    | _ => none
  | none => none

/-- Bytes of a buffer of the Transom (R108). -/
def trnBuffer : Nat := 262144

/-- The bytes that the Transom's buffers hold and that are not yet written: the source's bytes in memory, once they have
arrived (R121). -/
def State.trnHolds (s : State) : Nat :=
  match s.transomRun with
  | some (e, _, _, _) => if e.formed then 0 else e.got.length
  | none => 0

/-- The Transom's buffers have filled and empty into the destination. R121 counts bytes written in units of 256 without saying
what becomes of a fraction: the model rounds each instruction up to whole units (DESIGN CHOICE, log entry 57). A dark Transom
counts and buffers nothing (15 R359). -/
def State.transomMove (s : State) (e : Entry) (tr : Bool) (a d : Opnd) : State :=
  let n := moveBytes d.desc
  let dark := s.transomDark
  let s := if dark then s.shutAccess s.trnCode (2 * (takenCoords d.desc).length) else s
  let s := (s.move e.uid tr a.desc d.desc dark).modEntry e.uid fun e => { e with formed := true }
  let s := if dark then s else s.modEr fun r => { r with trnUnits := r.trnUnits + BitVec.ofNat 32 (ceilDiv n 256) }
  if d.desc.space = 0 then
    let s := if dark then s else { s with eng := { s.eng with trnFull0 := true, trnFull1 := decide (trnBuffer < n) } }
    s.emitOut e.uid (decide (a.desc.space = 1))
  else s

/-- Ends the Transom instruction when its writes have been answered. -/
def State.transomEnd (s : State) (uid : Nat) : State :=
  match s.entry uid with
  | none => s
  | some e =>
    if e.formed && e.settled then
      let s := { s with eng := { s.eng with trnFull0 := false, trnFull1 := false } }
      s.entryEnd uid
    else s

/-- The cut of an aborted Transom instruction: the end of the buffer being written (10 R247). What the first buffer holds is
written, and nothing behind it. -/
def State.transomCut (s : State) (e : Entry) (tr : Bool) (a d : Opnd) : State :=
  let s := s.modEntry e.uid fun e => { e with formed := true }
  if s.transomDark || footOverlap a.desc d.desc || decide (e.errStatus ≠ 0) then s.transomEnd e.uid
  else
    let ws := (moveWrites (s.bytesOf a.desc.space e.got) tr a.desc d.desc).take (trnBuffer * 8 / fmtBits d.desc.fmt)
    let s := s.writeAll e.uid 0 d.desc ws
    let s := s.modEr fun r => { r with trnUnits := r.trnUnits + BitVec.ofNat 32 (trnBuffer / 256) }
    if d.desc.space = 0 then
      let s := { s with eng := { s.eng with trnFull0 := true } }
      s.emitOut e.uid (decide (a.desc.space = 1))
    else s.transomEnd e.uid

/-- An uncorrectable error in the Transom's buffers, or with detail bit 15 in the scratchpad words that it reads
(R108, 16 R388). -/
def State.transomFault (s : State) (e : Entry) (d : BitVec 16) : State :=
  let s := s.modEntry e.uid fun e => { (e.fail stTransomFault) with formed := true }
  (s.modEr fun r => { r with trnFault := true }).classS
    (if d.getLsbD 15 then mechSpad else mechTransom) e stTransomFault d

/-- TRANSOM_COMPLETE (R108): the running instruction's buffers have filled and are written; it completes when memory
has answered its writes. -/
def execTransomComplete (u : Upset) (s : State) : Result :=
  .next (match s.transomRun with
    | none => s
    | some (e, tr, a, d) =>
      if e.aborted || decide (e.rdWait ≠ 0) then s
      else
        let s := if u = .corrected then s.corrected else s
        match u with
        | .fatal x => (s.transomFault e x).transomEnd e.uid
        | _ =>
          if e.formed then s.transomEnd e.uid
          else if e.errStatus ≠ 0 then
            (s.modEntry e.uid fun e => { e with formed := true }).transomEnd e.uid
          else (s.transomMove e tr a d).transomEnd e.uid)

/-! ### The flags of Jamb (R334, 05 R118) -/

/-- Raises flags in JAMB_AFLAGS for the stream of an entry. -/
def State.jambRaise (s : State) (e : Entry) (f : Flags) : State :=
  let n := flags4 f + 16 * b2n f.divZero
  if n = 0 then s
  else
    let s := { s with jamb := { s.jamb with
      aflags := s.jamb.aflags ||| BitVec.ofNat 32 (n <<< (8 * Thread.num e.stream)) } }
    s.alarmFlags f (Thread.num e.stream) e.ctx e.queue e.iseq

/-! ### XFER.COPY and UPD.SSQ -/

/-- The bytes of a copy have arrived: it moves them. -/
def State.copyMove (s : State) (uid : Nat) (a d : Opnd) : State :=
  let s := if (s.entry uid).any fun e => e.errStatus ≠ 0 then s
    else
      let s := s.move uid false a.desc d.desc false
      if d.desc.space = 0 then s.emitOut uid (decide (a.desc.space = 1)) else s
  (s.modEntry uid fun e => { e with formed := true }).entrySettle uid

/-- Starts an XFER.COPY (R217). -/
def State.copyStart (s : State) (e : Entry) (a d : Opnd) : State :=
  let as := moveReads a.desc d.desc
  if as.isEmpty then s.copyMove e.uid a d else s.askReads e.uid as

/-- The squares of an UPD.SSQ (08 R179), with the flags of the elements it reads (02 R36, R53). -/
def State.ssqAdd (s : State) (uid : Nat) (a : Opnd) (acc : Nat) : State :=
  match s.entry uid with
  | none => s
  | some e =>
    let s := if e.errStatus ≠ 0 then s
      else
        let m := s.bytesOf a.desc.space e.got
        let xs := takenCoords a.desc
        let els := xs.map fun x => loadElem m a.desc (e.prop a.handle) x
        ((s.readShut a.desc xs).addSquares e (some acc) (els.map fun v => val32 v.1)).jambRaise e (flagsAny (els.map fun v => v.2))
    (s.modEntry uid fun e => { e with formed := true }).entrySettle uid

/-- Starts an UPD.SSQ. -/
def State.ssqStart (s : State) (e : Entry) (a : Opnd) (acc : Nat) : State :=
  let as := if a.desc.space = 0 then tensorAddrs a.desc fun x => takes a.desc x else []
  if as.isEmpty then s.ssqAdd e.uid a acc else s.askReads e.uid as

/-! ### The Sill instructions (R114 to R120) -/

/-- The elements that a Sill instruction reads out. -/
def sillElems (hs : Desc) : List Coord := takenCoords hs

/-- The bits of a Sill element. -/
def State.sillBits (s : State) (hs : Desc) (x : Coord) : BitVec 32 := w32 (elemBits (s.bytesOf 2 []) hs x)

/-- Clears what has been read out (R115 step 2); a shuttered Sill drops the writes. -/
def State.sillTake (s : State) (hs : Desc) (xs : List Coord) : State :=
  if s.sillDark then s.shutAccess s.sillCode (2 * xs.length)
  else s.sillClear (xs.map fun x => (elemAddr hs x).1)

/-- The addends of a spill towards memory, in ascending logical index: at its home address each has 4 bytes of value
and 8 bytes of logical index. The same home address may occur several times. -/
def State.addends (s : State) (hs hm : Desc) (xs : List Coord) : List Host.Cell :=
  (xs.filter fun x => takes hm x).flatMap fun x =>
    let a := (elemAddr hm x).1
    (natLe 4 (s.sillBits hs x).toNat ++ natLe 8 (linIndex hm x)).map fun b => (a, b)

/-- An addend: home address, logical index and value. -/
structure Addend where
  addr : Nat
  lin : Nat
  val : BitVec 32
  deriving DecidableEq, Repr

/-- The addends of a list of cells. -/
def addendList (cs : List Host.Cell) : List Addend :=
  (List.range (cs.length / 12)).map fun i =>
    let c := (cs.drop (12 * i)).take 12
    let bs := c.map fun p => p.2
    { addr := (c.headD (0, 0)).1, lin := leNat (bs.drop 4), val := w32 (leNat (bs.take 4)) }

/-- The home elements after their additions, one rounding each (R114, R116): their bytes, the value that each addend
gave, and the flags. `m` holds what memory answered. With `store`, the home counts as +0. -/
def addendSums (store : Bool) (m : Mem) (as : List Addend) : List Host.Cell × List (Nat × BitVec 32) × Flags :=
  as.foldl (fun o a =>
    let old := if store then 0 else w32 (leNat ((List.range 4).map fun i => cellByte o.1 m (a.addr + i)))
    let r := add32 old a.val
    ((cellsAt a.addr (natLe 4 r.1.toNat)).foldl (fun c p => cellPut c p.1 p.2) o.1, o.2.1 ++ [(a.lin, r.1)],
      flagsOr o.2.2 r.2)) ([], [], noFlags)

/-- Notes the values of home elements for the entry's digest (16 R395). -/
def State.noteSums (s : State) (uid : Nat) (vs : List (Nat × BitVec 32)) : State :=
  vs.foldl (fun s v =>
    s.noteWrite uid 0 { addr := 0, bit := 0, width := 32, val := v.2.toNat, lin := v.1, scale := false }) s

/-- Does the near-memory ALU's pair disagree at its next use (16 R383)? -/
def State.aluBad (s : State) : Bool :=
  match s.upsetAt .alu with
  | .fatal _ => true
  | _ => false

/-- A spill STORE whose values the ALU's copies do not agree on: none of them leaves Jamb, and the entry completes with
SPILL_FAULT (14 R334, 16 R383). -/
def State.spillAlu (s : State) (e : Entry) : State :=
  let d : BitVec 16 := match s.upsetAt .alu with
    | .fatal d => d
    | _ => 0
  let s := (s.struck .alu).modEntry e.uid fun e => { (e.fail stSpillFault) with formed := true }
  (s.classS mechNearMem e stSpillFault d).entrySettle e.uid

/-- The read-out of a spill: STORE forms its writes, ADD the reads of the homes. -/
def State.spillOut (s : State) (e : Entry) (hs hm : Desc) (store : Bool) (xs : List Coord) : State :=
  let as := s.addends hs hm xs
  if store && s.aluBad then s.spillAlu e
  else if store then
    let r := addendSums true [] (addendList as)
    let s := (s.modEntry e.uid fun e => { e with out := r.1, formed := true }).jambRaise e r.2.2
    ((s.noteSums e.uid r.2.1).emitOut e.uid false).entrySettle e.uid
  else
    let s := (s.modEntry e.uid fun e => { e with out := as, formed := true }).askReads e.uid (as.map fun c => c.1)
    s.entrySettle e.uid

/-- The read-out of a drain: Louvre, squares, narrowing and write (R118). A NaN that it reads raises NANIN (02 R53). -/
def State.drainOut (s : State) (e : Entry) (hs hd : Opnd) (acc : Option Nat) (xs : List Coord) : State :=
  let vals := (xs.filter fun x => takes hd.desc x).map fun x => (x, val32 (s.sillBits hs.desc x))
  let w := narrowWrites hd.desc (e.prop hd.handle) (srItems (s.srBase e e.wseq) hd vals)
  let s := (s.louvreSees e.uid hd false (vals.map fun v => v.2)).addSquares e acc (vals.map fun v => v.2)
  let fl := { w.2 with nanin := w.2.nanin || vals.any fun v => v.2.isNan }
  let s := ((s.writeAll e.uid 0 hd.desc w.1).jambRaise e fl).modEntry e.uid fun e => { e with formed := true }
  (if hd.desc.space = 0 then s.emitOut e.uid false else s).entrySettle e.uid

/-- Starts a drain: bytes of memory that it writes in part are read first. -/
def State.drainStart (s : State) (e : Entry) (hs hd : Opnd) : State :=
  s.askReads e.uid (partialAddrs hd.desc ((sillElems hs.desc).filter fun x => takes hd.desc x))

/-- The Sill instruction whose read-out is due: one at a time (R117). -/
def State.sillReader (s : State) : Option Entry :=
  s.eng.lanes.find? fun e =>
    decide (e.phase = .running) && !e.formed && !e.aborted && decide (e.rdWait = 0) &&
    match e.job with
    | .spill _ _ _ => true
    | .drain _ _ _ => true
    | _ => false

/-- A fatal check of the read-out: an uncorrectable line (R120), or with detail bit 15 the egress Louvre's lockstep
pair, which flags a drain with the fault status of the Jamb-transfer engine (16 R388). -/
def State.readOutFault (s : State) (e : Entry) (d : BitVec 16) : State :=
  let drain := match e.job with
    | .drain _ _ _ => true
    | _ => false
  if d.getLsbD 15 && drain then
    (s.modEntry e.uid fun e => e.fail stMemoryFault).classS mechLouvre e stMemoryFault d
  else s.sillLineBad e d

/-- The line that a fatal check names as uncorrectable. -/
def badLine (drain : Bool) (u : Upset) : Option Nat :=
  match u with
  | .fatal d => if d.getLsbD 15 && drain then none else some (d.toNat % 32768)
  | _ => none

/-- Is the element outside the line in error? -/
def lineGood (bad : Option Nat) (hs : Desc) (x : Coord) : Bool := decide (bad ≠ some ((elemAddr hs x).1 / 128))

/-- SILL_READ_OUT (R115, R118): the whole read-out of the next spill or drain. A corrected line is counted in
SILL_FAULT.CE_COUNT. -/
def execSillReadOut (u : Upset) (s : State) : Result :=
  .next (match s.sillReader with
    | none => s
    | some e =>
      let s := match u with
        | .clean => s
        | .corrected => s.sillCorrected
        | .fatal d => s.readOutFault e d
      match e.job with
      | .spill hs hm store =>
        let xs := sillElems hs.desc
        let out := s.spillOut e hs.desc hm.desc store (xs.filter (lineGood (badLine false u) hs.desc))
        out.sillTake hs.desc xs
      | .drain hs hd acc =>
        let xs := sillElems hs.desc
        let out := s.drainOut e hs hd acc (xs.filter (lineGood (badLine true u) hs.desc))
        out.sillTake hs.desc xs
      | _ => s)

/-- A read of a spill's home block has been answered: the additions, and the write under the same tag (R328, R334). -/
def State.spillBlock (s : State) (e : Entry) (tag block : Nat) : State :=
  let mine := e.out.filter fun c => c.1 / 256 = block
  let r := addendSums false e.got (addendList mine)
  let s := s.modEntry e.uid fun e => { e with out := e.out.filter (fun c => c.1 / 256 ≠ block), wrWait := e.wrWait + 1 }
  let s := { s with jamb := { s.jamb with heldTags := tag :: s.jamb.heldTags } }
  ((s.noteSums e.uid r.2.1).jambAdd [writeReq (.entry e.uid) .nearMem false (some tag) block r.1]).jambRaise e r.2.2

/-! ### Near-memory updates (08 R186) -/

/-- The lanes' registers and what an element's pass through the program has produced. -/
structure NearAcc where
  panes : SMap (Option (Nat × Bool))
  flags : Flags
  outs : List (CasOp × Opnd × Item)
  deriving DecidableEq, Repr

/-- A scalar of a program word. -/
def nearScalar (e : Entry) (op : CasOp) (v : Scalar) : Nat :=
  match v with
  | .pane => 0
  | .bits b => b.toNat
  | .clip sf => if op.op = 0x0C then e.clip.toNat % 2 ^ 32 else (scalarOperand op.dt sf e.clip).1.toNat

/-- An operand of a program word: a register of the lane, which is free before anything is written to it (log
entry 4), or a scalar. -/
def nearOperand (fresh : Nat) (e : Entry) (op : CasOp) (a : NearAcc) (v : Scalar) (pane : Nat) : Nat × Bool :=
  match v with
  | .pane => (SMap.look a.panes none pane).getD (freeBits fresh pane, true)
  | w => (nearScalar e op w, true)

/-- One load of an element. -/
def nearLoad (e : Entry) (op : CasOp) (o : Opnd) (x : Coord) (a : NearAcc) : NearAcc :=
  if masked o.desc x then { a with panes := SMap.put a.panes none op.pd (some (maskFillBits o.desc 0, false)) }
  else
    let v := loadElem e.got o.desc (e.prop o.handle) x
    { a with panes := SMap.put a.panes none op.pd (some (v.1.toNat, true)), flags := flagsOr a.flags v.2 }

/-- One operation of the body on one element. -/
def State.nearStep (s : State) (e : Entry) (w : Opnd) (x : Coord) (a : NearAcc) (op : CasOp) : NearAcc :=
  match op.op, op.opnd with
  | 0x30, some o => nearLoad e op o x a
  | 0x31, some o =>
    let v := nearOperand s.fresh e op a .pane op.pd
    if takes o.desc x then
      { a with outs := a.outs ++ [(op, o,
          { x := x, v := val32 (w32 v.1),
            u := (s.srBase e op.wseq).u o.desc.rmode w.handle (linIndex w.desc x) })] }
    else a
  | _, _ =>
    let p := if casReadsA op.op then nearOperand s.fresh e op a .pane op.pa else (0, true)
    let q := if casReadsB op.op then nearOperand s.fresh e op a op.bVal op.pb else (0, true)
    let r := if casReadsC op.op then nearOperand s.fresh e op a op.cVal op.pc else (0, true)
    let n : Int := if op.op = 0x0C then signedN q.1 32 else 0
    let o := casElement op.op op.dt p.1 q.1 r.1 n (32 * (x.x1 % 32) + x.x0 % 32)
    let valid := p.2 && q.2 && r.2
    { a with
      panes := SMap.put a.panes none op.pd (some (o.1, valid))
      flags := if valid then flagsOr a.flags o.2 else a.flags }

/-- Every element of the update, in ascending logical index. -/
def State.nearAll (s : State) (e : Entry) (u : CasUnit) (w : Opnd) : List NearAcc :=
  (coords w.desc).map fun x =>
    u.body.foldl (s.nearStep e w x) { panes := [], flags := noFlags, outs := [] }

/-- The writes of one store of the body. -/
def State.nearStore (s : State) (e : Entry) (op : CasOp) (o : Opnd) (rs : List NearAcc) : State :=
  let items := rs.flatMap fun r => (r.outs.filter fun q => q.1 = op).map fun q => q.2.2
  let w := narrowWrites o.desc (e.prop o.handle) items
  (s.writeAll e.uid op.pa o.desc w.1).jambRaise e { w.2 with nanin := w.2.nanin || items.any fun i => i.v.isNan }

/-- The operands of a near-memory update have arrived: the program runs and its writes are formed. -/
def State.nearRun (s : State) (uid : Nat) (u : CasUnit) : State :=
  match s.entry uid, u.domain with
  | some e, some w =>
    let s := if e.errStatus ≠ 0 then s
      else
        let rs := s.nearAll e u w
        let s := s.draw.2.jambRaise e (flagsAny (rs.map fun r => r.flags))
        let s := u.body.foldl (fun s op => match op.op, op.opnd with
          | 0x31, some o => s.nearStore e op o rs
          | _, _ => s) s
        s.emitOut uid false
    (s.modEntry uid fun e => { e with formed := true }).entrySettle uid
  | _, _ => s

/-- Starts a near-memory update: the reads of its operands. -/
def State.nearStart (s : State) (e : Entry) (u : CasUnit) : State :=
  let as := u.body.flatMap fun op => match op.op, op.opnd with
    | 0x30, some o => tensorAddrs o.desc fun x => takes o.desc x
    | 0x31, some o => partialAddrs o.desc (takenCoords o.desc)
    | _, _ => []
  if as.isEmpty then s.nearRun e.uid u else s.askReads e.uid as

/-- Does the update write bytes of the block? Its read then keeps its tag for the write (R329). -/
def nearWrites (u : CasUnit) (block : Nat) : Bool :=
  u.body.any fun op => match op.op, op.opnd with
    | 0x31, some o => (tensorAddrs o.desc fun x => takes o.desc x).any fun a => a / 256 = block
    | _, _ => false

end Sys2Proof.Machine
end

