-- ==== Sys2Proof/Machine/Root.lean ====
section
/-! DEFINITION. The inverse root of a statistics matrix, UPD.ROOT (spec/08 R188 to R191). -/

namespace Sys2Proof.Machine

/-! ### The slot in force and the lanes (10 R239, R240) -/

/-- The Mullion record of an engine in force. -/
def State.mulRec (s : State) (q : Nat) : Option MulRec := s.frame.mullion.find? fun r => r.engine = q

/-- The OWNER of the slot in force: floor(w / 256) mod NSLOTS (R239). -/
def State.slotNow (s : State) (r : MulRec) : Nat := s.eng.weave.toNat / 256 % r.nslots

/-- The code of the owner: 0 to 3, or 7. -/
def State.ownerNow (s : State) (r : MulRec) : Nat := r.owners.getD (s.slotNow r) 7

/-- Is the entry an UPD.ROOT, or its place in its partition's lane? -/
def Job.isRoot (j : Job) : Bool :=
  match j with
  | .root _ => true
  | .rootPart _ => true
  | _ => false

/-- The head of a lane: its first entry that has not started and needs the engine; zero-time entries do not hold it
back (R234). Behind a root computation that is not over the lane has none (08 R189). -/
def State.laneHead (s : State) (q : Nat) (t : Thread) : Option Entry :=
  if (s.lane q t).any fun e => decide (e.phase = .running) && e.job.isRoot then none
  else (s.lane q t).find? fun e => decide (e.phase = .queued) && !e.job.zeroTime

/-! ### Matrices -/

/-- A matrix of BF16 encodings, by rows. -/
abbrev Matrix := List (List Nat)

/-- Element (i, j). -/
def matEl (m : Matrix) (i j : Nat) : Nat := (m.getD i []).getD j 0

/-- Builds a matrix with its flags from its elements. -/
def matOf (n : Nat) (f : Nat → Nat → Nat × Flags) : Matrix × Flags :=
  let rows := (List.range n).map fun i => (List.range n).map fun j => f i j
  (rows.map fun r => r.map fun x => x.1, flagsAny (rows.map fun r => flagsAny (r.map fun x => x.2)))

/-- Rounds to BF16, RNE. -/
def toBf16 (v : Val) : Nat × Flags := lBF16.ofVal .rne 0 v

/-- One output of a Lattice BF16 product (02 R45). -/
def matOut (n : Nat) (a b : Matrix) (i j : Nat) : BlockOut :=
  serialBlock ((List.range n).map fun k => (lBF16.decode (matEl a i k), lBF16.decode (matEl b k j))) 0

/-- A Lattice BF16 product drained to BF16. The rows that `dark` names come from a Lattice that reads as zeros (15 R357). -/
def matMul (dark : Nat → Bool) (n : Nat) (a b : Matrix) : Matrix × Flags :=
  matOf n fun i j =>
    if dark i then (0, noFlags)
    else
      let o := matOut n a b i j
      let r := toBf16 (val32 o.acc)
      (r.1, flagsOr o.flags r.2)

/-- The FP32 values that the drain of a product presents to its Louvre (07 R153). -/
def matSeen (dark : Nat → Bool) (n : Nat) (a b : Matrix) : List Val :=
  (List.range n).flatMap fun i => (List.range n).map fun j =>
    if dark i then Val.zero else val32 (matOut n a b i j).acc

/-- The values of a matrix in BF16. -/
def matVals (m : Matrix) : List Val := m.flatMap fun r => r.map lBF16.decode

/-- T: delta (p + 1) / p − M / p, exact before one rounding. -/
def matT (n : Nat) (fourth : Bool) (m : Matrix) : Matrix × Flags :=
  matOf n fun i j =>
    let d : Int := if i = j then (if fourth then 5 else 3) else 0
    let v := (Val.add (Val.ofInt d) (lBF16.decode (matEl m i j)).negate).1
    toBf16 (v.scale2 (if fourth then -2 else -1))

/-- Is every element finite? -/
def matFinite (m : Matrix) : Bool :=
  m.all fun r => r.all fun x => match lBF16.decode x with
    | .fin _ _ _ => true
    | _ => false

/-- Is every |M(i, j) − delta(i, j)| at most the tolerance? -/
def matClose (n : Nat) (tol : Val) (m : Matrix) : Bool :=
  (List.range n).all fun i => (List.range n).all fun j =>
    let v := (Val.add (lBF16.decode (matEl m i j)) (Val.ofInt (if i = j then -1 else 0))).1.abs
    !Val.lt tol v && !v.isNan

/-- The slices of the workspace. -/
def slX : Nat := 0
/-- M. -/
def slM : Nat := 1
/-- T. -/
def slT : Nat := 2
/-- Y. -/
def slY : Nat := 3
/-- Z. -/
def slZ : Nat := 4

/-- Position (i, j) of a slice. -/
def sliceCoord (sl i j : Nat) : Coord := { x0 := j, x1 := i, x2 := sl, x3 := 0 }

/-- Reads a slice of the workspace; a masked element counts as zero (03 R67). -/
def State.sliceRead (s : State) (w : Desc) (n sl : Nat) : Matrix :=
  (List.range n).map fun i => (List.range n).map fun j =>
    let x := sliceCoord sl i j
    if masked w x then 0 else elemBits s.eng.spad w x

/-- Writes a matrix into a slice of destination number `k`. -/
def State.sliceWrite (s : State) (uid k : Nat) (d : Desc) (sl : Nat) (m : Matrix) : State :=
  let n := m.length
  let cs := (List.range n).flatMap fun i => (List.range n).map fun j => (i, j)
  s.writeAll uid k d ((cs.filter fun c => takes d (sliceCoord sl c.1 c.2)).map fun c =>
    elemWrite d (sliceCoord sl c.1 c.2) (matEl m c.1 c.2))

/-- The element of S as a Casement read gives it. -/
def State.rootS (s : State) (d : Desc) (i j : Nat) : BitVec 32 :=
  let x : Coord := { x0 := j, x1 := i, x2 := 0, x3 := 0 }
  if masked d x then w32 (maskFillBits d 0) else w32 (elemBits s.eng.spad d x)

/-- a: S with the damping on its diagonal. -/
def State.rootA (s : State) (r : RootJob) (i j : Nat) : BitVec 32 × Flags :=
  let v := s.rootS r.s.desc i j
  if i = j then add32 v r.eps else (v, noFlags)

/-- The starting matrices M and X with the flags of their steps; none when the norm is zero or not finite. -/
def State.rootInit (s : State) (r : RootJob) : Option (Matrix × Matrix) × Flags :=
  let n := r.s.desc.n0
  let a := (List.range n).flatMap fun i => (List.range n).map fun j => s.rootA r i j
  let fa := flagsAny (a.map fun x => x.2)
  let sum := accumRead (accumAdd Accum.init (a.map fun x => val32 x.1))
  let q := arith64 (Val.sqrt (val64 sum))
  match val64 q.1 with
  | .fin _ m _ =>
    if m = 0 then (none, fa)
    else
      let inv := arith64 (Val.div (Val.ofInt 1) (val64 q.1))
      let rr := rne32 (val64 inv.1)
      let root := if r.fourth then arith64 (Val.sqrt (val64 (arith64 (Val.sqrt (val64 q.1))).1))
        else arith64 (Val.sqrt (val64 q.1))
      let x0 := arith64 (Val.div (Val.ofInt 1) (val64 root.1))
      let mm := matOf n fun i j => toBf16 (Val.mul (val32 (s.rootA r i j).1) (val32 rr.1)).1
      let xx := matOf n fun i j => if i = j then toBf16 (val64 x0.1) else (0, noFlags)
      (some (mm.1, xx.1), flagsAny [fa, rr.2, mm.2, xx.2])
  | _ => (none, fa)

/-- Changes a root computation. -/
def State.modRoot (s : State) (uid : Nat) (f : RootRun → RootRun) : State :=
  { s with eng := { s.eng with roots := updFirst (fun q => q.uid = uid) f s.eng.roots } }

/-- Removes an entry that has no completion of its own. -/
def State.dropEntry (s : State) (uid : Nat) : State :=
  match s.entry uid with
  | none => s
  | some e =>
    let s := s.engineOpen e.queue uid
    let s := { s with eng := { s.eng with lanes := s.eng.lanes.filter fun x => x.uid ≠ uid } }
    s.modTh e.stream fun x => { x with
      posts := x.posts.map fun p => { p with waiting := p.waiting.filter fun u => u ≠ uid } }

/-- Ends a root computation: its work leaves both engines. -/
def State.rootEnd (s : State) (uid partUid status : Nat) : State :=
  let s := { s with eng := { s.eng with roots := s.eng.roots.filter fun r => r.uid ≠ uid } }
  ((s.dropEntry partUid).modEntry uid fun e => { e with status := status }).entryDone uid

/-- A failed computation (R190). -/
def State.rootFail (s : State) (e : Entry) (r : RootJob) (run : RootRun) (it : Nat) : State :=
  let g := s.groupState e.ctx r.group
  let g := { g with
    rootFail := true, lastIt := it, fallback := g.fallback || decide (g.fails = 0), fails := satInc 16 g.fails }
  let s := s.setGroup e.ctx r.group g
  s.rootEnd run.uid run.partUid stRootFail

/-- A write of a root computation passes a Louvre: that of the drain for a product, the egress Louvre for a Casement step
(07 R152, R153). -/
def State.rootSees (s : State) (e : Entry) (o : Opnd) (drain : Bool) (vs : List Val) : State :=
  if o.desc.lvEn then s.louvreSees e.uid o drain vs else s

/-- A converged computation (R189): Q takes X. -/
def State.rootOk (s : State) (e : Entry) (r : RootJob) (run : RootRun) (it : Nat) (x : Matrix) : State :=
  let s := (s.rootSees e r.q false (matVals x)).sliceWrite e.uid 0 r.q.desc 0 x
  let g := s.groupState e.ctx r.group
  (s.setGroup e.ctx r.group { g with lastIt := it }).rootEnd run.uid run.partUid stOk

/-- Does row i of an n-row product on a partition come from a Lattice that behaves as shuttered? An instruction takes 128 rows
for each Lattice at most (04 R77, R79). -/
def State.rootDark (s : State) (part n i : Nat) : Bool :=
  let ls := s.partLats part
  let most := 128 * ls.length
  let rows := min most (n - i / most * most)
  s.latDark (ls.getD (i % most / ceilDiv rows ls.length) 0)

/-- Other streams' entries may start on both engines between the steps of a root computation, each of which is work of its own
(R189, 10 R233). -/
def State.rootOpen (s : State) (run : RootRun) (part : Nat) : State :=
  (s.engineOpen qCas run.uid).engineOpen part run.partUid

/-- One iteration and its test. -/
def State.rootIterate (s : State) (e : Entry) (r : RootJob) (run : RootRun) : State :=
  let n := r.s.desc.n0
  let w := r.w.desc
  let it := run.iter + 1
  let dark := s.rootDark r.part n
  let m := s.sliceRead w n slM
  let t := matT n r.fourth m
  let x0 := s.sliceRead w n slX
  let x := matMul dark n x0 t.1
  let y := matMul dark n t.1 t.1
  let z := if r.fourth then matMul dark n y.1 y.1 else y
  let m' := matMul dark n z.1 m
  let s := if (List.range n).any dark then s.shutAccess shutOffCode (if r.fourth then 4 else 3) else s
  let s := s.rootSees e r.w false (matVals t.1)
  let s := s.rootSees e r.w true (matSeen dark n x0 t.1 ++ matSeen dark n t.1 t.1 ++
    (if r.fourth then matSeen dark n y.1 y.1 else []) ++ matSeen dark n z.1 m)
  let s := (s.sliceWrite e.uid 1 w slT t.1).sliceWrite e.uid 1 w slX x.1
  let s := s.sliceWrite e.uid 1 w slY y.1
  let s := if r.fourth then s.sliceWrite e.uid 1 w slZ z.1 else s
  let s := s.sliceWrite e.uid 1 w slM m'.1
  let s := s.casRaise e.stream e.ctx e.iseq t.2
  let s := s.latRaise { e with queue := r.part } (flagsAny [x.2, y.2, z.2, m'.2])
  let s := s.modRoot run.uid fun q => { q with iter := it, begun := true }
  if !(matFinite x.1 && matFinite m'.1) then s.rootFail e r run it
  else if matClose n (val32 r.tol) m'.1 then s.rootOk e r run it x.1
  else if r.maxIt ≤ it then s.rootFail e r run it
  else s.rootOpen run r.part

/-- May a step of a root computation use an engine: the engine is open for it or its own, its queue is not stopped, and the
slot in force is its stream's, or lent to it (10 R233, R238, R240)? -/
def State.stepMay (s : State) (q uid : Nat) (t : Thread) : Bool :=
  let g := s.engine q
  decide (g.running = some uid) || (g.isOpen && !s.int.qstop.getLsbD q && match s.mulRec q with
    | none => true
    | some r =>
      let o := s.ownerNow r
      decide (o = Thread.num t) || (r.lend && (decide (4 ≤ o) || (s.laneHead q (threadOf o)).isNone)))

/-- The root computation of a stream whose next step may run on both its engines. The row bands of its partition are on
(15 R367). -/
def State.rootReady (s : State) (t : Thread) : Option (RootRun × Entry × RootJob) :=
  match s.eng.roots.find? fun r => match s.entry r.uid, s.entry r.partUid with
      | some e, some p => decide (e.stream = t) && decide (p.phase = .running) && !e.aborted &&
          s.bandsReady p.queue && s.stepMay qCas r.uid t && s.stepMay p.queue r.partUid t
      | _, _ => false with
  | none => none
  | some run =>
    match s.entry run.uid with
    | some e => match e.job with
      | .root r => some (run, e, r)
      | _ => none
    | none => none

/-- An uncorrectable scratchpad word that a step reads (16 R379, R388): the feeders of the Lattices with detail bit 15, else
the port unit of the Casement. The computation ends with the fault status of that unit, whose queues stop. -/
def State.rootFault (s : State) (e : Entry) (r : RootJob) (run : RootRun) (d : BitVec 16) : State :=
  let lat := d.getLsbD 15
  let st := if lat then stLatticeFault else stCasementFault
  let s := (s.modEntry e.uid fun e => e.fail st).queueStop (if lat then r.part else qCas)
  let s := (s.classS mechSpad e st d).rootEnd run.uid run.partUid stOk
  s.queueRelease (if lat then r.part else qCas)

/-- The scratchpad words that a step reads are checked, and the step runs unless one is bad. -/
def State.rootChecked (s : State) (e : Entry) (r : RootJob) (run : RootRun) (g : State → State) : State :=
  match s.upsetAt .spad with
  | .clean => g s
  | .corrected => g (s.struck .spad).corrected
  | .fatal d => (s.struck .spad).rootFault e r run d

/-- ROOT_ITERATION_CHECK (R189, R190): the next iteration of the stream's root computation, before the first one the
scaling of S. -/
def execRootIterationCheck (t : Thread) (s : State) : Result :=
  .next (match s.rootReady t with
    | none => s
    | some (run, e, r) => s.rootChecked e r run fun s =>
      if run.begun then s.rootIterate e r run
      else match s.rootInit r with
        | (none, f) => (s.casRaise e.stream e.ctx e.iseq f).rootFail e r run 0
        | (some (m, x), f) =>
          let s := s.rootSees e r.w false (matVals m ++ matVals x)
          let s := (s.sliceWrite e.uid 1 r.w.desc slM m).sliceWrite e.uid 1 r.w.desc slX x
          (s.casRaise e.stream e.ctx e.iseq f).rootIterate e r run)

/-- Starts the Casement part of an UPD.ROOT: nothing when it is not due (R188). -/
def State.rootStart (s : State) (e : Entry) (r : RootJob) : State :=
  if r.due then
    { s with eng := { s.eng with
      roots := s.eng.roots ++ [{ uid := e.uid, partUid := e.uid + 1, iter := 0, begun := false : RootRun }] } }
  else (s.modEntry e.uid fun e => { e with status := stRootNotDue }).entryDone e.uid

/-- UPD.REARM (R191): FALLBACK is cleared, FAILS stays. -/
def State.rearm (s : State) (e : Entry) (g : Nat) : State :=
  (s.setGroup e.ctx g { s.groupState e.ctx g with fallback := false }).entryDone e.uid

end Sys2Proof.Machine
end

