-- ==== Sys2Proof/Machine/Wire.lean ====
section
/-! DEFINITION. Packets as their bytes (spec/13 R288, R289, R291 to R295, R309, R322): header, payload and trailer words, the
CRC of a packet, reserved bits, and the flits of a port. -/

namespace Sys2Proof.Machine

/-! ### Words of a packet -/

/-- Bytes rounded up to whole flits of 32 bytes. -/
def wholeFlits (n : Nat) : Nat := 32 * ((n + 31) / 32)

/-- A 64-bit little-endian word at a byte of a packet. -/
def wireWord (w : Wire) (i : Nat) : Nat := leNat ((w.drop i).take 8)

/-- A field of header word H`i` (R291). -/
def wireHead (w : Wire) (i lo len : Nat) : Nat := bitsN (wireWord w (8 * i)) lo len

/-- PLEN. -/
def wirePlen (w : Wire) : Nat := wireHead w 0 8 9

/-- A field of trailer word T`i` (R293): the trailer follows the padded payload. -/
def wireTail (w : Wire) (i lo len : Nat) : Nat := bitsN (wireWord w (32 + wholeFlits (wirePlen w) + 8 * i)) lo len

/-- The CRC of a packet that has as many flits as PLEN says matches every earlier byte (R293, R294). -/
def wireCrcOk (w : Wire) : Bool :=
  decide (w.length = 64 + wholeFlits (wirePlen w)) &&
  decide (wireTail w 3 32 32 = (crc32c (w.take (w.length - 4))).toNat)

/-- The kinds of a class that R292 lists. -/
def kindListed (cls kind : Nat) : Bool :=
  match cls with
  | 0 => decide (kind ≤ 1)
  | 1 => decide (kind = 0)
  | 2 => decide (kind ≤ 1)
  | 3 => decide (kind = 0)
  | 4 => decide (kind = 0)
  | 5 => decide (kind ≤ 3)
  | _ => false

/-- Are reserved bits of H2 or H3 set (R292)? -/
def wordsResv (cls h2 h3 : Nat) : Bool :=
  match cls with
  | 0 => decide (h2 ≠ 0) || decide (h3 ≠ 0)
  | 1 => decide (bitsN h3 42 22 ≠ 0)
  | 3 => decide (bitsN h3 36 28 ≠ 0)
  | 4 => decide (bitsN h3 9 23 ≠ 0) || decide (bitsN h3 36 28 ≠ 0)
  | _ => false

/-- Does a packet hold a reserved CLASS, KIND or field (R291 to R294)? -/
def wireResv (w : Wire) : Bool :=
  let cls := wireHead w 0 0 3
  !kindListed cls (wireHead w 0 4 4) || decide (256 < wirePlen w) ||
  decide (wireHead w 0 3 1 ≠ 0) || decide (wireHead w 0 24 8 ≠ 0) || wordsResv cls (wireWord w 16) (wireWord w 24) ||
  decide (wireTail w 0 40 24 ≠ 0) || decide (wireTail w 2 32 32 ≠ 0) || decide (wireTail w 3 0 32 ≠ 0) ||
  (decide (wireTail w 0 3 1 = 1) && decide (5 < wireTail w 0 0 3)) ||
  (decide (wireTail w 0 23 1 = 1) && decide (5 < wireTail w 0 20 3))

/-- The header fields and the payload of a packet. -/
def wirePacket (w : Wire) : Packet :=
  { cls := Fin.ofNat 6 (wireHead w 0 0 3), kind := BitVec.ofNat 4 (wireHead w 0 4 4)
    hops := BitVec.ofNat 6 (wireHead w 0 17 6), err := decide (wireHead w 0 23 1 = 1)
    dst := BitVec.ofNat 16 (wireHead w 0 32 16), src := BitVec.ofNat 16 (wireHead w 0 48 16)
    seq := BitVec.ofNat 16 (wireHead w 1 0 16), tag := BitVec.ofNat 16 (wireHead w 1 16 16)
    ctxid := BitVec.ofNat 32 (wireHead w 1 32 32), h2 := w64 (wireWord w 16), h3 := w64 (wireWord w 24)
    payload := (w.drop 32).take (wirePlen w) }

/-- An empty trailer. -/
def Trailer.none : Trailer := { ack := Option.none, nak := Option.none, credits := [] }

/-- The trailer of a packet (R293). -/
def wireTrailer (w : Wire) : Trailer :=
  { ack := if wireTail w 0 3 1 = 1 then some (Fin.ofNat 6 (wireTail w 0 0 3), BitVec.ofNat 16 (wireTail w 0 4 16)) else none
    nak := if wireTail w 0 23 1 = 1 then
      some (Fin.ofNat 6 (wireTail w 0 20 3), BitVec.ofNat 16 (wireTail w 0 24 16)) else none
    credits := (List.range 6).map fun c => BitVec.ofNat 16 (wireTail w (1 + c / 4) (16 * (c % 4)) 16) }

/-- Header word H0 of a packet. -/
def packetH0 (p : Packet) : Nat :=
  p.cls.val + (p.kind.toNat <<< 4) + (p.payload.length <<< 8) + (p.hops.toNat <<< 17) + (b2n p.err <<< 23) +
  (p.dst.toNat <<< 32) + (p.src.toNat <<< 48)

/-- Header word H1 of a packet. -/
def packetH1 (p : Packet) : Nat := p.seq.toNat + (p.tag.toNat <<< 16) + (p.ctxid.toNat <<< 32)

/-- A class and SEQ of an acknowledgement or a NAK with its valid bit. -/
def ackBits (a : Option (Fin 6 × BitVec 16)) : Nat :=
  match a with
  | some x => x.1.val + 8 + (x.2.toNat <<< 4)
  | none => 0

/-- The credit returns of four classes. -/
def creditBits (cs : List (BitVec 16)) (first : Nat) : Nat :=
  ((List.range 4).map fun c => (cs.getD (first + c) 0).toNat <<< (16 * c)).sum

/-- The bytes of a packet with its trailer, without the CRC. -/
def packetBody (p : Packet) (t : Trailer) : List Byte :=
  natLe 8 (packetH0 p) ++ natLe 8 (packetH1 p) ++ natLe 8 p.h2.toNat ++ natLe 8 p.h3.toNat ++
  p.payload ++ List.replicate (wholeFlits p.payload.length - p.payload.length) (0 : Byte) ++
  natLe 8 (ackBits t.ack + (ackBits t.nak <<< 20)) ++ natLe 8 (creditBits t.credits 0) ++
  natLe 8 (creditBits t.credits 4) ++ natLe 4 0

/-- A packet as it is sent (R293): the CRC covers every earlier byte. -/
def packetWire (p : Packet) (t : Trailer) : Wire :=
  let b := packetBody p t
  b ++ natLe 4 (crc32c b).toNat

/-! ### HELLO and REPOINT messages -/

/-- The payload of a HELLO: generations, RESET, and the initial credits of the classes; the identity is SRC. Log entry 10. -/
def helloBytes (h : HelloMsg) : List Byte :=
  let cs : List (List Byte) := (List.range 6).map fun c => natLe 2 (h.credits.getD c 0).toNat
  natLe 1 h.gens.toNat ++ natLe 1 (b2n h.reset) ++ cs.flatten

/-- The content of a HELLO. -/
def wireHello (w : Wire) : HelloMsg :=
  let p := wirePacket w
  { node := p.src, gens := BitVec.ofNat 4 (leNat (p.payload.take 1)), reset := bitN (leNat ((p.payload.drop 1).take 1)) 0
    credits := (List.range 6).map fun c => BitVec.ofNat 16 (leNat ((p.payload.drop (2 + 2 * c)).take 2)) }

/-- The payload of a REPOINT message: X, V and the epoch, in this order. Log entry 12. -/
def repointBytes (x v : BitVec 16) (epoch : BitVec 24) : List Byte :=
  natLe 2 x.toNat ++ natLe 2 v.toNat ++ natLe 3 epoch.toNat

/-! ### The port (R288, R289) -/

/-- Flits that a link carries in each cycle of DCLK. -/
def flitsPerCycle (l : Nat) : Nat := if l < 2 then 8 else if l < 4 then 4 else 2

/-- DW_L_TX_DATA and DW_L_TX_VALID in the cycles in which a packet travels: its flits in ascending order, those of one cycle in
the lowest positions. -/
def txCycles (l : Nat) (w : Wire) : List (Nat × Nat) :=
  let f := flitsPerCycle l
  (List.range ((w.length / 32 + f - 1) / f)).map fun k =>
    let bs := (w.drop (32 * f * k)).take (32 * f)
    (leNat bs, 2 ^ (bs.length / 32) - 1)

end Sys2Proof.Machine
end

