-- ==== Sys2Proof/Machine/Fabric.lean ====
section
/-! DEFINITION. The links of the Doorway: roles and routes, packets to be sent, acknowledgement and credit, forwarding
and the forced reset (spec/13 R288 to R302, R308, R320, R321). -/

namespace Sys2Proof.Machine

/-- A route of the table in force. -/
def State.route (s : State) (r : Nat) : Route := SMap.look s.door.routes Route.init r

/-- The link that a route leaves by. -/
def State.routeLink (s : State) (r : Nat) : Nat := s.roleLink (s.route r).link

/-- May a transfer start on the route (R312)? -/
def State.routeOpen (s : State) (r : Nat) : Bool := s.linkUp (s.routeLink r) && !(s.route r).unreach

/-- Counts the start of a transfer on a near or far link that is shuttered or was left off (15 R360, 16 R393). -/
def State.linkShutCount (s : State) (l : Nat) : State :=
  if l = 2 || l = 3 then
    if s.pwr.shutNear then s.shutAccess 5 1 else if s.leftOffIn 76 1 then s.shutAccess shutOffCode 1 else s
  else if 4 ≤ l then
    if s.pwr.shutFar then s.shutAccess 6 1 else if s.leftOffIn 77 1 then s.shutAccess shutOffCode 1 else s
  else s

/-- TIMEOUT of a link in units of 128 DCLK cycles (R304). -/
def State.linkTimeout (s : State) (l : Nat) : Nat :=
  let v := match s.linkRec l with
    | some r => r.timeout
    | none => 0
  if v ≠ 0 then v else if l < 2 then 8 else if l < 4 then 32 else 400

/-- RETRYMAX of a link (R304). -/
def State.retryMax (s : State) (l : Nat) : Nat :=
  let v := match s.linkRec l with
    | some r => r.retryMax
    | none => 0
  if v ≠ 0 then v else 8

/-! ### Packets to be sent -/

/-- A packet that this core forms. -/
def State.packet (s : State) (cls : Fin 6) (kind dst : Nat) (tag : BitVec 16) (ctxid : BitVec 32) (h2 h3 : Nat)
    (payload : List Byte) : Packet :=
  { cls := cls, kind := BitVec.ofNat 4 kind, hops := 0, err := false, dst := BitVec.ofNat 16 dst,
    src := s.door.node, seq := 0, tag := tag, ctxid := ctxid, h2 := w64 h2, h3 := w64 h3, payload := payload }

/-- Puts packets behind those that are ready on a link. -/
def State.txAdd (s : State) (l : Nat) (xs : List TxItem) : State :=
  s.modLink l fun k => { k with ready := k.ready ++ xs }

/-- A packet to be sent. -/
def txItem (p : Packet) (o : TxOrigin) (held : Bool) : TxItem :=
  { pkt := p, origin := o, held := held, hold := if held then 40 else 0, sends := 0, slot := none }

/-- Puts an entry's packets on a link; each is counted until its tag is freed. In replay nothing is sent (16 R401). -/
def State.sendOwn (s : State) (uid l : Nat) (held : Bool) (ps : List Packet) : State :=
  if s.rpl.active then s
  else
    let s := s.modEntry uid fun e => { e with tagWait := e.tagWait + ps.length }
    s.txAdd l (ps.map fun p => txItem p (.own uid) held)

/-- Answers a packet: on the link on which it arrived. -/
def State.answer (s : State) (l : Nat) (p : Packet) (kind : Nat) (err held : Bool) (payload : List Byte) : State :=
  if s.linkUp l then
    let r := s.packet clsRsp kind p.src.toNat p.tag p.ctxid 0 0 payload
    s.txAdd l [txItem { r with err := err } .answer held]
  else s

/-- Answers a dropped packet that is not an RSP with an error (R302). -/
def State.dropAnswer (s : State) (l : Nat) (p : Packet) : State :=
  if p.cls = clsRsp then s else s.answer l p 0 true false []

/-! ### Buffers -/

/-- A receive buffer of a class is free (R297, R299). -/
def State.bufferFree (s : State) (l c : Nat) : State := if c = clsSig.val then s.freeSig l else s.freeBuffer l c

/-! ### The receive area of a far link (R297, R304) -/

/-- Credits of the classes whose buffers lie in the area, in the order RSP, RED, WR, RD. Log entry 60. -/
def LinkRec.areaCredits (r : LinkRec) : List (Nat × Nat) :=
  [(clsRsp.val, r.credRsp), (clsRed.val, r.credRed), (clsWr.val, r.credWr), (clsRd.val, r.credRd)]

/-- The number of a class's first buffer in the area. -/
def LinkRec.areaFirst (r : LinkRec) (c : Nat) : Nat :=
  ((r.areaCredits.takeWhile fun p => p.1 ≠ c).map fun p => p.2).sum

/-- Buffers of the class in the area. -/
def LinkRec.areaCount (r : LinkRec) (c : Nat) : Nat :=
  ((r.areaCredits.filter fun p => p.1 = c).map fun p => p.2).sum

/-- Is a buffer of the link's area full: its packet waits to be sunk, or to be injected onto the ring? -/
def State.areaUsed (s : State) (l n : Nat) : Bool :=
  (s.door.sinks.any fun x => decide (x.link = l) && decide (x.slot = some n)) ||
  (List.range 2).any fun m => (s.link m).ready.any fun x => decide (x.origin = .inject l) && decide (x.slot = some n)

/-- The buffer that a packet of a class fills: the first free one of its class. -/
def State.areaSlot (s : State) (l c : Nat) : Option Nat :=
  if l < 4 then none
  else match s.linkRec l with
    | none => none
    | some r => ((List.range (r.areaCount c)).map fun k => r.areaFirst c + k).find? fun n => !s.areaUsed l n

/-- Writes a received packet into its buffer. While ACLK stands the scratchpad holds (01 R23). -/
def State.areaWrite (s : State) (l : Nat) (slot : Option Nat) (w : Wire) : State :=
  match slot, s.linkRec l with
  | some n, some r =>
    if s.clk.aclkOn then
      s.spadWrite { addr := r.area + 384 * n, bit := 0, width := 8 * w.length, val := leNat w, lin := 0, scale := false }
    else s
  | _, _ => s

/-- Replaces the element of a class in a list of (class, value). -/
def dueAdd (l : List (Nat × BitVec 16)) (c : Nat) (v : BitVec 16) : List (Nat × BitVec 16) :=
  l.filter (fun x => x.1 ≠ c) ++ [(c, v)]

/-- Is sequence number `a` before `b` modulo 2^16? -/
def seqBefore (a b : BitVec 16) : Bool := (a - b).msb

/-- An acknowledgement: the class's packets before ACKSEQ need not be sent again. -/
def State.ackTaken (s : State) (l c : Nat) (seq : BitVec 16) : State :=
  s.modLink l fun k =>
    let kept := k.sent.filter fun x => !(decide (x.pkt.cls.val = c) && seqBefore x.pkt.seq seq)
    { k with
      sent := kept
      ackTicks := if kept.length < k.sent.length then SMap.put k.ackTicks 0 c 0 else k.ackTicks }

/-- Credit returns: cumulative counts (R293). -/
def State.creditsTaken (s : State) (l : Nat) (cs : List (BitVec 16)) : State :=
  s.modLink l fun k =>
    (List.range cs.length).foldl (fun k c =>
      let v := cs.getD c 0
      let d := v - SMap.look k.creditSeen 0 c
      { k with
        credit := SMap.put k.credit 0 c (SMap.look k.credit 0 c + d.toNat)
        creditSeen := SMap.put k.creditSeen 0 c v }) k

/-! ### States of a link (R308) -/

/-- A link has changed its state: EVENT and the interrupt (R310). -/
def State.linkEvent (s : State) : State := { s with door := { s.door with event := true } }.irqSet 7

/-- Is DW_L_EN 1 on entry to the state? -/
def LinkState.en (x : LinkState) : Bool :=
  match x with
  | .off => false
  | .down => false
  | _ => true

/-- Brings a link to a state. -/
def State.linkTo (s : State) (l : Nat) (st : LinkState) : State :=
  (s.modLink l fun k => { k with state := st, en := st.en, ticks := 0 }).linkEvent

/-- Brings a link to WAIT with nothing of its past but its counters. -/
def State.linkWait (s : State) (l : Nat) : State :=
  s.modLink l (fun k => { k with gen := 0, bypass := false, helloSent := false, helloSeen := none }) |>.linkTo l .wait

/-! ### The forced reset (R320, R321) -/

/-- Counts the loss of pending remote signals and discards them (11 R257). -/
def State.signalsLost (s : State) (p : Pending → Bool) : State :=
  let gone := s.latch.pending.filter p
  { s with latch := { s.latch with
    pending := s.latch.pending.filter fun x => !p x
    lostlink := satAdd 16 s.latch.lostlink gone.length } }

/-- Fails an entry with REMOTE_FAULT and takes `n` of its packets away. -/
def State.remoteFail (s : State) (uid n : Nat) : State :=
  s.modEntry uid fun e => { (e.fail stRemoteFault) with tagWait := e.tagWait - n }

/-- The link on which a packet that this core passes on has arrived. -/
def TxItem.cameBy (x : TxItem) (l : Nat) : Option Nat :=
  match x.origin with
  | .forward => some (pairLink l)
  | .inject f => some f
  | _ => none

/-- Drops a packet that waited for a link that has left UP (R302 step 7, R321). -/
def State.lostPacket (s : State) (l : Nat) (x : TxItem) : State :=
  match x.origin with
  | .own uid => s.remoteFail uid 1
  | .forward => (s.dropAnswer (pairLink l) x.pkt).bufferFree (pairLink l) x.pkt.cls.val
  | .inject f => (s.dropAnswer f x.pkt).bufferFree f x.pkt.cls.val
  | .answer => s
  | .management => s

/-- The tracker sweep of R321: every tag whose packet was sent on the link ends as an error. -/
def State.sweep (s : State) (l : Nat) : State :=
  let gone := s.door.tags.filter fun g => g.link = l
  let s := { s with door := { s.door with
    tags := s.door.tags.filter fun g => g.link ≠ l
    swept := satAdd 16 s.door.swept gone.length } }
  gone.foldl (fun s g => s.remoteFail g.uid 1) s

/-- Does a reduction use the link for SUCC or PRED? -/
def State.redUses (s : State) (r : RedRun) (l : Nat) : Bool :=
  match s.groupRec r.group with
  | some g => decide (s.routeLink g.succ = l) || decide (s.routeLink g.pred = l)
  | none => true

/-- Are packets of the entry still to be sent for the first time? -/
def State.ownWaiting (s : State) (uid : Nat) : Bool :=
  (List.range 6).any fun l => (s.link l).ready.any fun x => decide (x.origin = .own uid) && decide (x.sends = 0)

/-- A transfer has formed its last packet: behind the last one sent the Jamb-transfer engine opens (10 R233), and the
entry ends when its packets have been answered. -/
def State.redFormed (s : State) (uid : Nat) : State :=
  let s := s.modEntry uid fun e => { e with formed := true }
  let s := match s.entry uid with
    | some e => if s.ownWaiting uid then s else s.engineOpen e.queue uid
    | none => s
  s.entrySettle uid

/-- Ends a reduction: it is not running any more. -/
def State.redEnd (s : State) (uid : Nat) : State :=
  { s with door := { s.door with reds := s.door.reds.filter fun r => r.uid ≠ uid } }.redFormed uid

/-- A reduction that fails with a status: it sends nothing more. -/
def State.redFail (s : State) (uid status : Nat) : State :=
  ((s.unsend uid).modEntry uid fun e => e.fail status).redEnd uid

/-- Fails the reductions that use a link (R320 step 6). -/
def State.redsOff (s : State) (l : Nat) : State :=
  (s.door.reds.filter fun r => s.redUses r l).foldl (fun s r => s.redFail r.uid stRemoteFault) s

/-- Ends every entry that was waiting for packets only. -/
def State.settleAll (s : State) : State := (s.eng.lanes.map fun e => e.uid).foldl State.entrySettle s

/-- Discards the packets in a link's receive buffers that wait to leave by another link (R320 step 2). -/
def State.passingClear (s : State) (l : Nat) : State :=
  (List.range 6).foldl (fun s m =>
    s.modLink m fun k => { k with
      ready := k.ready.filter fun x => !(decide (x.sends = 0) && decide (x.cameBy m = some l)) }) s

/-- Everything of a link is discarded: buffers, waiting packets, credits, sequence numbers, pending signals, tags and
the reductions that use it (R320 steps 2 to 6). -/
def State.linkClear (s : State) (l : Nat) : State :=
  let lk := s.link l
  let s := s.modLink l fun k => { k with
    ready := [], sent := [], credit := [], creditSeen := [], freed := [], sigHeld := 0, txSeq := [], rxSeq := [],
    ackDue := [], nakDue := [], ackTicks := [], credTicks := [], helloSent := false, helloSeen := none }
  let s := { s with door := { s.door with sinks := s.door.sinks.filter fun x => x.link ≠ l } }
  let s := s.passingClear l
  let s := (lk.ready.filter fun x => x.sends = 0).foldl (fun s x => s.lostPacket l x) s
  let s := s.signalsLost fun p => p.link = l
  let s := { s with latch := { s.latch with tallies := s.latch.tallies.filter fun y => y.link ≠ l } }
  ((s.sweep l).redsOff l).settleAll.sigRelease

/-- A forced reset with its cause code (R320, R324). -/
def State.forceReset (s : State) (l cause : Nat) : State :=
  let s := (s.modLink l fun k => { k with cause := BitVec.ofNat 4 cause, bypass := false, resetFlag := true }).linkTo l .reset
  let s := { s with door := { s.door with
    resets := satInc 16 s.door.resets, faultLink := BitVec.ofNat 3 l, faultPend := true } }
  s.linkClear l

/-- Cause codes of DW_LINKn. -/
def causeNoRdy : Nat := 1
def causeNoHello : Nat := 2
def causeIdentity : Nat := 3
def causeNoGen : Nat := 4
def causeRetry : Nat := 5
def causeCredit : Nat := 6
def causeProtocol : Nat := 7
def causePeerReset : Nat := 8
def causeChanged : Nat := 9
def causeHost : Nat := 10

/-- Turns a link off: nothing of it stays but its counters. A shuttered or unpowered link is OFF (15 R361). -/
def State.linkOff (s : State) (l : Nat) : State :=
  if (s.link l).state = .off then s
  else ((s.modLink l fun k => { k with gen := 0, bypass := false }).linkTo l .off).linkClear l

/-! ### Sending again (R300) -/

/-- Sends packets of a class again, from SEQ onward; a packet that has been sent RETRYMAX + 1 times resets the
link. -/
def State.resend (s : State) (l c : Nat) (seq : BitVec 16) : State :=
  let lk := s.link l
  let again (x : TxItem) : Bool := decide (x.pkt.cls.val = c) && !seqBefore x.pkt.seq seq
  let xs := lk.sent.filter again
  if xs.isEmpty then s
  else if xs.any fun x => decide (s.retryMax l + 1 ≤ x.sends) then s.forceReset l causeRetry
  else s.modLink l fun k => { k with
    sent := k.sent.filter fun x => !again x
    ready := xs ++ k.ready
    retries := satAdd 16 k.retries xs.length
    ackTicks := SMap.put k.ackTicks 0 c 0 }

/-! ### Transmission (R296, R297, R301, R302) -/

/-- Does the packet enter the ring here, so that it needs two credits? -/
def TxItem.enters (x : TxItem) (l : Nat) : Bool := isRing l && decide (x.origin ≠ .forward)

/-- May the packet be sent with the credits held? A packet sent again uses the credit of its first sending. -/
def TxItem.creditOk (x : TxItem) (k : Link) (l : Nat) : Bool :=
  decide (x.sends ≠ 0) ||
  decide ((if x.enters l then 2 else 1) ≤ SMap.look k.credit 0 x.pkt.cls.val)

/-- Bytes of a packet. -/
def packetSize (p : Packet) : Nat := 64 + wholeFlits p.payload.length

/-- Does the packet come from another core, so that a ring link keeps a copy of it (R300)? -/
def TxItem.passing (x : TxItem) : Bool :=
  match x.origin with
  | .forward => true
  | .inject _ => true
  | _ => false

/-- Bytes of the ring replay buffer. -/
def replayRoom : Nat := 49152

/-- Bytes that a link's replay buffer holds: packets of other cores that were sent and are not acknowledged. -/
def Link.replayUsed (k : Link) : Nat :=
  (((k.sent ++ k.ready.filter fun x => decide (x.sends ≠ 0)).filter fun x => x.passing).map fun x => packetSize x.pkt).sum

/-- Does the packet take a tag when it is sent (R301)? -/
def TxItem.needsTag (x : TxItem) : Bool :=
  decide (x.sends = 0) &&
  match x.origin with
  | .own _ => true
  | _ => false

/-- May the packet be sent now: it is not held, it has its credit, a tag when it takes one, and room in the replay buffer
when that has to keep it (R296, R297, R300 to R302)? `free` says that a tag is free. -/
def TxItem.canGo (x : TxItem) (k : Link) (l : Nat) (free : Bool) : Bool :=
  !x.held && x.creditOk k l && (!x.needsTag || free) &&
  (decide (x.sends ≠ 0) || !x.passing || decide (k.replayUsed + packetSize x.pkt ≤ replayRoom))

/-- The packet that a transmitter sends next: drain order, and within a class the first that may be sent (R296). -/
def Link.nextTx (k : Link) (l : Nat) (free : Bool) : Option TxItem :=
  ((List.range 6).filterMap fun c => k.ready.find? fun x => decide (x.pkt.cls.val = c) && x.canGo k l free).head?

/-- Tags of the Doorway's share that are not in use (14 R329). -/
def State.doorTagFree (s : State) (tag : Nat) : Bool :=
  decide (s.frame.jambTags ≤ tag) && decide (tag < 65536) && !(s.door.tags.any fun g => g.tag = tag)

/-- The trailer of the next packet: one acknowledgement, one NAK and every credit count. -/
def Link.trailerNow (k : Link) : Trailer :=
  { ack := k.ackDue.head?.map fun a => (Fin.ofNat 6 a.1, a.2)
    nak := k.nakDue.head?.map fun a => (Fin.ofNat 6 a.1, a.2)
    credits := (List.range 6).map fun c => SMap.look k.freed 0 c }

/-- Drives a packet with its trailer onto the link. -/
def State.drive (s : State) (l : Nat) (p : Packet) : State :=
  s.modLink l fun k => { k with
    ackDue := k.ackDue.drop 1, nakDue := k.nakDue.drop 1, lastTx := some (packetWire p k.trailerNow) }

/-- What a DoorTag keeps of a packet: the index and the bytes of a fetch (R301). -/
def doorTagOf (tag l uid : Nat) (p : Packet) : DoorTag :=
  { tag := tag, link := l, uid := uid, index := bitsN p.h2.toNat 20 44,
    bytes := if p.cls = clsRd then bitsN p.h3.toNat 0 9 else 0 }

/-- A packet of another core has left for the first time: its receive buffer is free (R302). -/
def State.forwarded (s : State) (l : Nat) (x : TxItem) : State :=
  if x.sends ≠ 0 then s
  else match x.cameBy l with
    | some f => s.bufferFree f x.pkt.cls.val
    | none => s

/-- Sends a packet: its sequence number, credit and tag at the first sending. -/
def State.sendNow (s : State) (l tag : Nat) (x : TxItem) : State :=
  let k := s.link l
  let c := x.pkt.cls.val
  let first := decide (x.sends = 0)
  let p := if first then { x.pkt with seq := SMap.look k.txSeq 0 c } else x.pkt
  let p := if x.needsTag then { p with tag := BitVec.ofNat 16 tag } else p
  let s := if x.needsTag then
      match x.origin with
      | .own uid => { s with door := { s.door with tags := s.door.tags ++ [doorTagOf tag l uid p] } }
      | _ => s
    else s
  let s := s.modLink l fun k => { k with
    ready := dropFirst (fun y => decide (y = x)) k.ready
    sent := k.sent ++ [{ x with pkt := p, sends := x.sends + 1, slot := none }]
    txSeq := if first then SMap.put k.txSeq 0 c (SMap.look k.txSeq 0 c + 1) else k.txSeq
    credit := if first then SMap.put k.credit 0 c (SMap.look k.credit 0 c - 1) else k.credit }
  (s.forwarded l x).drive l p

/-- The start point of the Jamb-transfer engine behind a transfer's last packet (10 R233). -/
def State.sentOpens (s : State) (x : TxItem) : State :=
  match x.origin with
  | .own uid =>
    match s.entry uid with
    | some e => if e.formed && !s.ownWaiting uid then s.engineOpen e.queue uid else s
    | none => s
  | _ => s

/-- PACKET_TRANSMIT (R296): the next packet of a link, under `tag` when it takes one; a NULL when nothing can be
sent. A packet that finds no free tag waits, and others go before it (R301). -/
def execPacketTransmit (link : Fin 6) (tag : BitVec 16) (s : State) : Result :=
  .next (
    if !s.linkUp link then s
    else match (s.link link).nextTx link (s.doorTagFree tag.toNat) with
      | none => s.drive link (s.packet clsMgt 0 (s.link link).peer.toNat 0 0 0 0 [])
      | some x => (s.sendNow link tag.toNat x).sentOpens x)

/-! ### Receiving (R294, R300, R302) -/

/-- Sends a NAK for the next SEQ of a class. -/
def State.nak (s : State) (l c : Nat) : State :=
  s.modLink l fun k => { k with nakDue := dueAdd k.nakDue c (SMap.look k.rxSeq 0 c) }

/-- The acknowledgement, NAK and credit fields of a trailer. A NAK also acknowledges what lies before it. -/
def State.trailerTaken (s : State) (l : Nat) (t : Trailer) : State :=
  let s := s.creditsTaken l t.credits
  let s := match t.ack with
    | some a => s.ackTaken l a.1.val a.2
    | none => s
  match t.nak with
  | some a => (s.ackTaken l a.1.val a.2).resend l a.1.val a.2
  | none => s

/-- Takes a packet in sequence: the next expected SEQ rises and is acknowledged. -/
def State.seqTaken (s : State) (l c : Nat) : State :=
  s.modLink l fun k =>
    let n := SMap.look k.rxSeq 0 c + 1
    { k with rxSeq := SMap.put k.rxSeq 0 c n, ackDue := dueAdd k.ackDue c n }

/-- The ring link that an injection takes (R302 step 3). -/
def State.injectLink (s : State) : Option Nat :=
  if s.linkUp 0 then some 0 else if s.linkUp 1 then some 1 else none

/-- A packet that is not for this core (R302 steps 3 to 7). It keeps its receive buffer until it has left. -/
def State.passOn (s : State) (l : Nat) (p : Packet) (slot : Option Nat) : State :=
  let drop := (s.dropAnswer l p).bufferFree l p.cls.val
  if isRing l then
    if p.hops.toNat = 32 || !s.linkUp (pairLink l) then drop
    else s.txAdd (pairLink l) [{ txItem { p with hops := p.hops + 1 } .forward false with slot := slot }]
  else match s.injectLink with
    | some r => s.txAdd r [{ txItem p (.inject l) false with slot := slot }]
    | none => drop

/-- The Wicket of a core that is in reset: what arrives on a ring link leaves on the other, unchanged (R290). -/
def State.wicket (s : State) (l : Nat) (w : Wire) : State :=
  if isRing l then s.modLink (pairLink l) fun k => { k with lastTx := some w } else s

/-- A packet whose CRC fails (R294): it is discarded and counted. On an UP link every class may have lost a packet. -/
def State.crcFailed (s : State) (l : Nat) : State :=
  let s := s.modLink l fun k => { k with crcErr := satInc 16 k.crcErr }
  if s.linkUp l then (List.range 6).foldl (fun s c => s.nak l c) s else s

/-- Is a packet for this core (R302 step 2)? Identities 0x0000 and 0xFFFF belong to no core (R291). -/
def State.isMine (s : State) (p : Packet) : Bool :=
  decide (p.dst = s.door.node) && decide (p.dst ≠ 0) && decide (p.dst ≠ 0xFFFF)

/-- A packet with the class and kind of its row. -/
def asRow (p : Packet) (c : Fin 6) (kind : Nat) : Packet := { p with cls := c, kind := BitVec.ofNat 4 kind }

/-- Receives a packet of a row's class and kind on a link, and hands it with its buffer to `g` when it is in sequence and for
this core. -/
def State.receive (s : State) (l : Nat) (w : Wire) (c : Fin 6) (kind : Nat)
    (g : Packet → Option Nat → State → State) : State :=
  if s.door.held then s.wicket l w
  else if !s.linkUp l then s
  else if !wireCrcOk w then s.crcFailed l
  else if wireResv w then s.forceReset l causeProtocol
  else
    let s := s.trailerTaken l (wireTrailer w)
    let p := asRow (wirePacket w) c kind
    if !s.linkUp l then s
    else if SMap.look (s.link l).rxSeq 0 c.val ≠ p.seq then s.nak l c
    else
      let s := s.seqTaken l c
      let slot := s.areaSlot l c
      let s := s.areaWrite l slot w
      if s.isMine p || decide (c = clsMgt) then g p slot s else s.passOn l p slot

end Sys2Proof.Machine
end

