-- ==== Sys2Proof/Machine/Reduce.lean ====
section
/-! DEFINITION. Payloads of transfers, the chained reductions and the norm operation (spec/13 R311, R314 to R319;
spec/08 R180 to R183). -/

namespace Sys2Proof.Machine

/-! ### Payloads -/

/-- Elements packed at their width in ascending order. -/
def packBits (w : Nat) (es : List Nat) : List Byte :=
  natLe ((es.length * w + 7) / 8) (es.foldr (fun e a => e % 2 ^ w + 2 ^ w * a) 0)

/-- Element k of packed bytes. -/
def unpackEl (w : Nat) (bs : List Byte) (k : Nat) : Nat := bitsN (leNat bs) (w * k) w

/-- Elements of a packet: as many as fill the largest payload of the generation (R295); in an MX tensor the scale
bytes of the blocks that begin in the packet follow the elements. Log entry 9. -/
def chunkOf (fmt gen : Nat) : Nat :=
  if isMx fmt then (if gen = 1 then 64 else 128) else (if gen = 1 then 128 else 256) * 8 / fmtBits fmt

/-- Is the element the first of its block? -/
def blockFirst (d : Desc) (x : Coord) : Bool := if d.mxAxis then x.x1 % 32 = 0 else x.x0 % 32 = 0

/-- The coordinates of a run of elements. -/
def runCoords (d : Desc) (i n : Nat) : List Coord := (List.range n).map fun k => coordOf d (i + k)

/-- The elements of a run whose scale bytes travel with it. -/
def runScales (d : Desc) (i n : Nat) : List Coord :=
  if isMx d.fmt then (runCoords d i n).filter (blockFirst d) else []

/-- The payload of a run of elements. -/
def runPayload (m : Mem) (d : Desc) (i n : Nat) : List Byte :=
  packBits (fmtBits d.fmt) ((runCoords d i n).map fun x => elemBits m d x) ++
  (runScales d i n).map fun x => BitVec.ofNat 8 (scaleByte m d x)

/-- Bytes of the payload of a run. -/
def runBytes (d : Desc) (i n : Nat) : Nat := (n * fmtBits d.fmt + 7) / 8 + (runScales d i n).length

/-- The elements that a payload of `len` bytes from index i holds; none when no count fits the descriptor. -/
def runCount (d : Desc) (i len : Nat) : Option Nat :=
  (List.range 513).find? fun n => decide (0 < n) && decide (i + n ≤ elemCount d) && decide (runBytes d i n = len)

/-- The bytes that hold a run, its scale bytes included. -/
def runAddrs (d : Desc) (i n : Nat) : List Nat :=
  ((runCoords d i n).flatMap fun x => elemAddrs d x) ++ (runScales d i n).map fun x => scaleAddr d x

/-- The writes of a run's payload to a destination. -/
def runWrites (d : Desc) (i n : Nat) (bs : List Byte) : List BitWrite :=
  let w := fmtBits d.fmt
  let es := ((List.range n).map fun k => (coordOf d (i + k), unpackEl w bs k)).filter fun p => takes d p.1
  let ss := bs.drop ((n * w + 7) / 8)
  es.map (fun p => elemWrite d p.1 p.2) ++
  ((runScales d i n).zip ss).map fun p => scaleWrite d p.1 p.2.toNat

/-- Element and scale bytes of a tensor, as B counts them (R311). -/
def transferBytes (d : Desc) : Nat := (elemCount d * fmtBits d.fmt + 7) / 8 + (if isMx d.fmt then scaleCount d else 0)

/-- The runs that a transfer is cut into: first index and length. -/
def chunks (first count size : Nat) : List (Nat × Nat) :=
  (List.range (ceilDiv count size)).map fun k => (first + k * size, min size (count - k * size))

/-! ### Reductions (R314 to R316) -/

/-- The shard size. -/
def shardSize (e g : Nat) : Nat := 32 * ceilDiv e (32 * g)

/-- Elements of shard j. -/
def shardLen (e g j : Nat) : Nat := min e ((j + 1) * shardSize e g) - min e (j * shardSize e g)

/-- The step at which member i treats shard j. -/
def chainStep (g i j : Nat) : Nat := (i + 2 * g - j - 1) % g

/-- The running operation of an entry. -/
def State.redOf (s : State) (uid : Nat) : Option RedRun := s.door.reds.find? fun r => r.uid = uid

/-- Changes a running operation. -/
def State.modRed (s : State) (uid : Nat) (f : RedRun → RedRun) : State :=
  { s with door := { s.door with reds := updFirst (fun r => r.uid = uid) f s.door.reds } }

/-- A RED packet to SUCC. -/
def State.redPacket (s : State) (g : GroupRec) (r : RedRun) (kind i : Nat) (payload : List Byte) : Packet :=
  let t := s.route g.succ
  s.packet clsRed kind t.dest.toNat 0 t.ctxid (g.gid.toNat + (r.elems <<< 32))
    (i + (g.fmt <<< 44) + (r.opno.toNat <<< 48)) payload

/-- Sends values of consecutive elements to SUCC. -/
def State.redSend (s : State) (g : GroupRec) (r : RedRun) (kind i : Nat) (vs : List Nat) (held : Bool) : State :=
  let l := s.routeLink g.succ
  let w := fmtBits g.fmt
  s.sendOwn r.uid l held ((chunks 0 vs.length (chunkOf g.fmt (s.link l).gen)).map fun c =>
    s.redPacket g r kind (i + c.1) (packBits w ((vs.drop c.1).take c.2)))

/-- The payload of an exact contribution (R317). -/
def exactPayload (a : Accum) : List Byte :=
  natLe 76 a.value ++ natLe 1 (b2n a.inf + 2 * b2n a.nan) ++ natLe 3 0

/-- An exact contribution. -/
def exactOf (bs : List Byte) : Accum :=
  { value := leNat (bs.take 76), resid := leNat (bs.take 76) % 251, inf := bitN (leNat (bs.drop 76)) 0, nan := bitN (leNat (bs.drop 76)) 1 }

/-- The exact sum of two contributions. -/
def exactAdd (a b : Accum) : Accum :=
  { value := (a.value + b.value) % 2 ^ 608, resid := (a.resid + b.resid) % 251, inf := a.inf || b.inf, nan := a.nan || b.nan }

/-- Sends the sum of an exact group to SUCC. -/
def State.exactSend (s : State) (g : GroupRec) (r : RedRun) (kind : Nat) : State :=
  s.sendOwn r.uid (s.routeLink g.succ) false [s.redPacket g r kind 0 (exactPayload r.sum)]

/-- Values that a member has to sink before its operation is over: its final values (R316, R317). Under REDUCE_SCATTER
the last shard that it works through is its own (R314), so these are the elements of every shard but the one that it only
sends; a member whose own shard is empty still sinks the others. DEDUCED, log entry 25. -/
def redNeeds (g : GroupRec) (r : RedRun) : Nat :=
  if g.exact then 1
  else if g.scatter then r.elems - shardLen r.elems g.size ((g.pos + g.size - 1) % g.size)
  else r.elems

/-- Ends an operation that holds its final values. UPD.NORM keeps its sum until it completes. -/
def State.redCheck (s : State) (g : GroupRec) (uid : Nat) : State :=
  match s.redOf uid with
  | none => s
  | some r =>
    if r.ready && decide (redNeeds g r ≤ r.finals.length) then
      (if g.exact then s.redFormed uid else s.redEnd uid)
    else s

/-- Does a link carry what the group needs (R295)? -/
def State.redFeature (s : State) (g : GroupRec) (l : Nat) : Bool :=
  if g.exact || decide (g.fmt = 1) then decide (2 ≤ (s.link l).gen) else true

/-- May an operation start on the group (R319)? -/
def State.redOpen (s : State) (g : GroupRec) : Bool :=
  s.rpl.active ||
  (s.routeOpen g.succ && s.routeOpen g.pred && s.redFeature g (s.routeLink g.succ) && s.redFeature g (s.routeLink g.pred))

/-- The next OPNO of a group (R318): the first operation is number 1. -/
def State.nextOpno (s : State) (grp : Nat) : BitVec 16 × State :=
  let n := SMap.look s.door.opnos 0 grp + 1
  (n, { s with door := { s.door with opnos := SMap.put s.door.opnos 0 grp n } })

/-- Puts an operation among the running ones. -/
def State.redAdd (s : State) (r : RedRun) : State := { s with door := { s.door with reds := s.door.reds ++ [r] } }

/-- Counts the start of an operation on shuttered links of its group (16 R393). -/
def State.redShutCount (s : State) (g : GroupRec) : State :=
  (s.linkShutCount (s.routeLink g.succ)).linkShutCount (s.routeLink g.pred)

/-- An operation that cannot start: REMOTE_FAULT, and nothing is sent (R312, R319). -/
def State.startFault (s : State) (uid : Nat) : State :=
  (s.modEntry uid fun e => { (e.fail stRemoteFault) with formed := true }).entrySettle uid

/-- The Doorway checks the scratchpad words that an entry sends (16 R379, R388, R393). -/
def State.egressRead (s : State) (e : Entry) (d : Desc) : State :=
  if d.space ≠ 1 then s
  else
    let s := s.readShut d (coords d)
    match s.upsetAt .spad with
    | .clean => s
    | .corrected => (s.struck .spad).corrected
    | .fatal x => ((s.struck .spad).modEntry e.uid fun e => e.fail stRemoteFault).classS mechSpad e stRemoteFault x

/-- The fault status that an entry will complete with: 0 none. -/
def State.errOf (s : State) (uid : Nat) : Nat :=
  match s.entry uid with
  | some e => e.errStatus
  | none => 0

/-- The source of a DW.RED has been read: the member's own first shard goes to SUCC (R314). -/
def State.redBegin (s : State) (uid : Nat) (src : Opnd) : State :=
  match s.entry uid, s.redOf uid with
  | some e, some r =>
    let s := s.egressRead e src.desc
    if s.errOf uid ≠ 0 then s.redFail uid (s.errOf uid)
    else match s.groupRec r.group with
      | none => s.redFail uid stRemoteFault
      | some g =>
        let m := s.bytesOf src.desc.space e.got
        let vs := (coords src.desc).map fun x => elemBits m src.desc x
        let tab := vs.zipIdx.foldl (fun t v => SMap.put t 0 v.2 v.1) []
        let s := s.modRed uid fun r => { r with ready := true, vals := tab }
        let j := (g.pos + g.size - 1) % g.size
        let i := j * shardSize r.elems g.size
        let s := s.redSend g r 0 i ((vs.drop i).take (shardLen r.elems g.size j)) (decide (src.desc.space = 1))
        s.redCheck g uid
  | _, _ => s

/-- Starts a DW.RED. -/
def State.redStart (s : State) (e : Entry) (src : Opnd) (grp : Nat) : State :=
  match s.groupRec grp with
  | none => s.startFault e.uid
  | some g =>
    let o := s.nextOpno grp
    let s := o.2
    if !s.redOpen g then (s.redShutCount g).startFault e.uid
    else
      let s := s.redAdd { uid := e.uid, group := grp, opno := o.1, elems := elemCount src.desc, ready := false,
                          vals := [], finals := [], sum := Accum.init }
      let as := if src.desc.space = 0 then tensorAddrs src.desc fun _ => true else []
      if as.isEmpty then s.redBegin e.uid src else s.askReads e.uid as

/-! ### UPD.NORM (08 R180 to R183) -/

/-- Takes the contribution of an UPD.NORM: the held one for a retry, else the accumulator's, which is cleared. -/
def State.takeContribution (s : State) (e : Entry) (acc : Nat) : Accum × State :=
  let fresh : Accum × State :=
    let a := s.accum e.ctx acc
    (a, (s.setAccum e.ctx acc Accum.init).modPlane e.ctx fun p => { p with held := some (a, e.step) })
  match (s.plane e.ctx).held with
  | some (a, st) => if st = e.step then (a, s) else fresh
  | none => fresh

/-- A contribution whose residue does not match: a Class S detection that the UPD.NORM itself meets (16 R380, R388). -/
def State.louvreFault (s : State) (e : Entry) : State :=
  s.integrity { mech := mechLouvre, causeBit := 0, stream := Thread.num e.stream, ctx := e.ctx, queue := e.queue,
                status := stRemoteFault, detail := none, iseq := e.iseq }

/-- While an UPD.NORM runs, STATE is 1 for its step. -/
def State.normPending (s : State) (e : Entry) : State :=
  s.modPlane e.ctx fun p => { p with norm := { p.norm with step := e.step, state := 1 } }

/-- Starts an UPD.NORM. `bad` says that the accumulator's residue did not match (16 R380, R388). -/
def State.normStart (s : State) (e : Entry) (acc : Nat) (bad : Bool) : State :=
  match s.updCfg e.ctx with
  | none => s.startFault e.uid
  | some u =>
    match s.groupRec u.normGrp with
    | none => (s.normPending e).startFault e.uid
    | some g =>
      let c := s.takeContribution e acc
      let c := if c.1.sound then c else (c.1, c.2.louvreFault e)
      let o := (c.2.normPending e).nextOpno u.normGrp
      let s := o.2
      if bad || !c.1.sound || !s.redOpen g then (s.redShutCount g).startFault e.uid
      else
        let r : RedRun := { uid := e.uid, group := u.normGrp, opno := o.1, elems := 1, ready := true, vals := [],
                            finals := [], sum := c.1 }
        let s := s.redAdd r
        if g.pos = 0 then s.exactSend g r 0 else s

/-- The norm state that a reduced sum gives (R182). -/
def normOf (old : Norm) (step : BitVec 32) (clipMax : Word) (a : Accum) : Norm :=
  let sum := accumRead a
  if a.nan || a.inf then { old with step := step, state := 3, sum := sum }
  else
    let n := (arith64 (Val.sqrt (val64 sum))).1
    let k := if Val.lt (val64 clipMax) (val64 n) then (arith64 (Val.div (val64 clipMax) (val64 n))).1
      else 0x3FF0000000000000
    { step := step, state := 2, sum := sum, kappa := k }

/-- The completion of an UPD.NORM that holds the final sum: its norm state and status. -/
def State.normSet (s : State) (e : Entry) : State :=
  match s.redOf e.uid, s.updCfg e.ctx with
  | some r, some u =>
    let n := normOf (s.plane e.ctx).norm e.step u.clipMax r.sum
    let s := s.modPlane e.ctx fun p => { p with norm := n }
    let s := if n.state = 3 then s.modEntry e.uid fun e => { e with status := stNormNonfinite } else s
    { s with door := { s.door with reds := s.door.reds.filter fun q => q.uid ≠ e.uid } }
  | _, _ => s

/-! ### Sinking RED packets (R314 to R318) -/

/-- What a received RED packet has to do with this core. -/
inductive RedMatch
  | wait
  | bad (fail : List Nat)
  | sink (r : RedRun) (g : GroupRec)
  deriving DecidableEq, Repr

/-- The group of a GID. -/
def State.groupOfGid (s : State) (gid : Nat) : Option (Nat × GroupRec) :=
  match s.frame.doorway with
  | none => none
  | some d => (d.groups.zipIdx.find? fun p => p.1.gid.toNat = gid).map fun p => (p.2, p.1)

/-- OPNO of a RED packet. -/
def redOpno (p : Packet) : BitVec 16 := BitVec.ofNat 16 (bitsN p.h3.toNat 48 16)

/-- INDEX of a RED packet. -/
def redIndex (p : Packet) : Nat := bitsN p.h3.toNat 0 44

/-- Matches a RED packet with the member's operations (R318). An OPNO that lies behind is answered with an error. -/
def State.redMatch (s : State) (p : Packet) : RedMatch :=
  match s.groupOfGid (bitsN p.h2.toNat 0 32) with
  | none => .bad (s.door.reds.map fun r => r.uid)
  | some (n, g) =>
    match s.door.reds.find? fun r => r.group = n && r.opno = redOpno p with
    | some r =>
      if r.elems ≠ bitsN p.h2.toNat 32 32 || g.fmt ≠ bitsN p.h3.toNat 44 4 then .bad [r.uid]
      else if r.ready then .sink r g else .wait
    | none => if seqBefore (SMap.look s.door.opnos 0 n) (redOpno p) then .wait else .bad []

/-- One addition of a reduction in FMT (R314). -/
def redAddEl (fmt a b : Nat) : Nat :=
  if fmt = 0 then (add32 (w32 a) (w32 b)).1.toNat
  else (lBF16.ofVal .rne 0 (Val.add (lBF16.decode a) (lBF16.decode b)).1).1

/-- The values that a packet's elements take here. -/
def redValues (r : RedRun) (g : GroupRec) (p : Packet) : List Nat :=
  let w := fmtBits g.fmt
  let n := p.payload.length * 8 / w
  (List.range n).map fun k =>
    let v := unpackEl w p.payload k
    if p.kind = 0 then redAddEl g.fmt v (SMap.look r.vals 0 (redIndex p + k)) else v

/-- Does the packet hold elements of one shard that this member may receive? -/
def redShape (r : RedRun) (g : GroupRec) (p : Packet) : Bool :=
  let n := p.payload.length * 8 / fmtBits g.fmt
  let q := shardSize r.elems g.size
  let j := redIndex p / q
  let t := chainStep g.size g.pos j
  decide (0 < n) && decide (redIndex p + n ≤ r.elems) && decide ((redIndex p + n - 1) / q = j) &&
  (if p.kind = 0 then decide (t ≠ 0) else decide (j ≠ g.pos) && !g.scatter)

/-- The packet's values have been written: they go on along the chain, and those that `redNeeds` counts are noted. -/
def State.redOnward (s : State) (r : RedRun) (g : GroupRec) (p : Packet) (held : Bool) : State :=
  let vs := redValues r g p
  let i := redIndex p
  let j := i / shardSize r.elems g.size
  let t := chainStep g.size g.pos j
  let final := p.kind ≠ 0 || decide (t + 1 = g.size)
  let s := if final || g.scatter then s.modRed r.uid fun r => { r with
      finals := (List.range vs.length).foldl (fun l k => insertNat (i + k) l) r.finals } else s
  let s := if !final then s.redSend g r 0 i vs held
    else if g.scatter || decide (p.kind ≠ 0 ∧ (g.pos + 1) % g.size = j) then s
    else s.redSend g r 1 i vs held
  s.redCheck g r.uid

/-- An exact contribution or the final sum (R317). -/
def State.exactSink (s : State) (r : RedRun) (g : GroupRec) (p : Packet) : State :=
  let a := exactOf p.payload
  let final := decide (p.kind ≠ 0) || decide (g.pos + 1 = g.size)
  let r' := { r with sum := if p.kind = 0 then exactAdd a r.sum else a, finals := if final then [0] else r.finals }
  let s := s.modRed r.uid fun _ => r'
  let s := if !final then s.exactSend g r' 0
    else if p.kind ≠ 0 && decide (g.pos + 2 = g.size) then s
    else s.exactSend g r' 1
  s.redCheck g r.uid

end Sys2Proof.Machine
end

