-- ==== Sys2Proof/Machine/Sinks.lean ====
section
/-! DEFINITION. Transfers over the Doorway: the packets of a DW.PUT, and the sinking of received packets (spec/13 R298,
R299, R311 to R313; spec/11 R256). -/

namespace Sys2Proof.Machine

/-! ### Fields of R292 -/

/-- HANDLE. -/
def pktHandle (p : Packet) : Nat := bitsN p.h2.toNat 0 20

/-- INDEX. -/
def pktIndex (p : Packet) : Nat := bitsN p.h2.toNat 20 44

/-- B. -/
def pktB (p : Packet) : Nat := bitsN p.h3.toNat 0 32

/-- FMT. -/
def pktFmt (p : Packet) : Nat := bitsN p.h3.toNat 32 4

/-- LATCH of a SIG packet. -/
def pktLatch (p : Packet) : Nat := bitsN p.h3.toNat 36 6

/-- Bytes that the packet moves: its payload, or what an RD asks. -/
def pktBytes (p : Packet) : Nat := if p.cls = clsRd then bitsN p.h3.toNat 0 9 else p.payload.length

/-- The elements of the packet, when they lie inside the descriptor. -/
def pktRun (d : Desc) (p : Packet) : Option Nat :=
  if pktBytes p = 0 then (if pktIndex p ≤ elemCount d then some 0 else none)
  else runCount d (pktIndex p) (pktBytes p)

/-! ### DW.PUT (R311, R312) -/

/-- A field of the route word. -/
def routeFld (route : Word) (lo len : Nat) : Nat := bitsN route.toNat lo len

/-- The packets of a put: WR packets, the last one a SIG TERMINAL when a remote latch is named. An empty transfer
consists of the terminal packet alone. -/
def State.putPackets (s : State) (loc : Opnd) (route : Word) (m : Mem) : List Packet :=
  let d := loc.desc
  let r := s.route (routeFld route 0 8)
  let latch := routeFld route 28 6
  let b := transferBytes d
  let runs := chunks 0 (elemCount d) (chunkOf d.fmt (s.link (s.routeLink (routeFld route 0 8))).gen)
  let runs := if runs.isEmpty && decide (latch ≠ 63) then [(0, 0)] else runs
  runs.zipIdx.map fun c =>
    let last := decide (c.2 + 1 = runs.length) && decide (latch ≠ 63)
    s.packet (if last then clsSig else clsWr) 0 r.dest.toNat 0 r.ctxid (routeFld route 8 20 + (c.1.1 <<< 20))
      (b + (d.fmt <<< 32) + (if last then latch <<< 36 else 0)) (runPayload m d c.1.1 c.1.2)

/-- The bytes of a put have been gathered: its packets become ready. In replay nothing is sent (16 R401). -/
def State.putSend (s : State) (uid : Nat) (loc : Opnd) (route : Word) : State :=
  match s.entry uid with
  | none => s
  | some e =>
    let s := s.egressRead e loc.desc
    let s := if s.errOf uid ≠ 0 then s
      else s.sendOwn uid (s.routeLink (routeFld route 0 8)) (decide (loc.desc.space = 1))
        (s.putPackets loc route (s.bytesOf loc.desc.space e.got))
    s.redFormed uid

/-- The RD packets of a fetch. -/
def State.fetchPackets (s : State) (loc : Opnd) (route : Word) : List Packet :=
  let d := loc.desc
  let r := s.route (routeFld route 0 8)
  (chunks 0 (elemCount d) (chunkOf d.fmt (s.link (s.routeLink (routeFld route 0 8))).gen)).map fun c =>
    s.packet clsRd 0 r.dest.toNat 0 r.ctxid (routeFld route 8 20 + (c.1 <<< 20))
      (runBytes d c.1 c.2 + (d.fmt <<< 32)) []

/-- Starts a fetch; in replay its data comes from the journal, counted by elements. -/
def State.fetchStart (s : State) (e : Entry) (loc : Opnd) (route : Word) : State :=
  if s.rpl.active then
    (s.modEntry e.uid fun e => { e with tagWait := elemCount loc.desc }).redFormed e.uid
  else
    (s.sendOwn e.uid (s.routeLink (routeFld route 0 8)) false (s.fetchPackets loc route)).redFormed e.uid

/-- Starts a DW.PUT. -/
def State.putStart (s : State) (e : Entry) (loc : Opnd) (route : Word) : State :=
  if !s.rpl.active && !s.routeOpen (routeFld route 0 8) then
    (s.linkShutCount (s.routeLink (routeFld route 0 8))).startFault e.uid
  else if bitN route.toNat 34 then s.fetchStart e loc route
  else
    let as := if loc.desc.space = 0 then tensorAddrs loc.desc fun _ => true else []
    if as.isEmpty then s.putSend e.uid loc route else s.askReads e.uid as

/-! ### Contexts and latches of received packets -/

/-- Does a plane hold the context: live, ending or staged (R313, 11 R256)? -/
def Plane.holds (p : Plane) (ctxid : BitVec 32) : Bool :=
  !p.finished &&
  (match p.state with
    | .staged => true
    | .live => true
    | .ending => true
    | .commitWait => true
    | .empty => false
    | .staging => false) &&
  match p.frame with
  | some f => decide (f.ctxid = ctxid)
  | none => false

/-- The slot of a context identity; a live plane goes before the other. -/
def State.ctxSlot (s : State) (ctxid : BitVec 32) : Option Nat :=
  let is (c : Nat) (live : Bool) : Bool :=
    (s.plane c).holds ctxid && (!live || decide ((s.plane c).state = .live))
  if is 0 true then some 0 else if is 1 true then some 1
  else if is 0 false then some 0 else if is 1 false then some 1 else none

/-- Does the context's latch allocation accept remote signals on the latch (11 R251, R256)? -/
def State.latchRemote (s : State) (c k : Nat) : Bool :=
  match s.frameOf c with
  | some f => (f.latches.getD k (0, false)).2
  | none => false

/-- Counts a dropped remote signal (11 R256). -/
def State.signalDropped (s : State) (stale : Bool) : State :=
  { s with latch := { s.latch with
    stale := if stale then satInc 16 s.latch.stale else s.latch.stale
    refused := if stale then s.latch.refused else satInc 16 s.latch.refused } }

/-- Is the pending entry that of the packet's transfer, with bytes missing? The header does not name a transfer; the command
does (log entry 59). -/
def Pending.takes (q : Pending) (x : Sink) : Bool :=
  decide (q.link = x.link) && decide (q.src = x.pkt.src) && decide (q.xfer = x.xfer) && decide (q.tally < q.bytes)

/-- Is the tally that of the packet's transfer? -/
def Tally.is (y : Tally) (x : Sink) : Bool :=
  decide (y.link = x.link) && decide (y.src = x.pkt.src) && decide (y.xfer = x.xfer)

/-- Bytes already written of the packet's transfer. -/
def State.tallyOf (s : State) (x : Sink) : Nat :=
  match s.latch.tallies.find? fun y => y.is x with
  | some y => y.bytes
  | none => 0

/-- Ends the tally of the packet's transfer. -/
def State.tallyEnd (s : State) (x : Sink) : State :=
  { s with latch := { s.latch with tallies := s.latch.tallies.filter fun y => !y.is x } }

/-- Counts the written bytes of a WR packet (11 R256 step 4): for the pending signal of its transfer, else until its
terminal packet arrives. -/
def State.tallyAdd (s : State) (x : Sink) : State :=
  let p := x.pkt
  let n := p.payload.length
  let u := s.latch
  if u.pending.any fun q => q.takes x then
    { s with latch := { u with
      pending := updFirst (fun q => q.takes x) (fun q => { q with tally := q.tally + n }) u.pending } }
  else
    let old := s.tallyOf x
    let s := s.tallyEnd x
    let y : Tally := { link := x.link, src := p.src, xfer := x.xfer, ctxid := p.ctxid, handle := pktHandle p,
                       total := pktB p, bytes := old + n }
    if pktB p ≤ old + n then s
    else { s with latch := { s.latch with tallies := s.latch.tallies ++ [y] } }

/-- Places a terminal packet's signal in the pending table with the bytes already written (11 R256 step 3). -/
def State.pendingAdd (s : State) (x : Sink) (c : Nat) : State :=
  let p := x.pkt
  let q : Pending := { link := x.link, src := p.src, xfer := x.xfer, tag := p.tag, slot := c, ctxid := p.ctxid,
                       latch := pktLatch p, handle := pktHandle p, bytes := pktB p, tally := s.tallyOf x }
  let s := s.tallyEnd x
  { s with latch := { s.latch with pending := s.latch.pending ++ [q] } }

/-- Is the pending entry that of the terminal packet itself? -/
def Pending.isOf (q : Pending) (l : Nat) (p : Packet) : Bool :=
  decide (q.link = l) && decide (q.src = p.src) && decide (q.tag = p.tag) && decide (q.ctxid = p.ctxid)

/-! ### The sinks -/

/-- Changes a sink. -/
def State.modSink (s : State) (id : Nat) (f : Sink → Sink) : State :=
  { s with door := { s.door with sinks := updFirst (fun x => x.id = id) f s.door.sinks } }

/-- Takes a received packet into its class's buffers. -/
def State.sinkAdd (s : State) (l : Nat) (p : Packet) (xfer : Nat) (slot : Option Nat) : State :=
  let x : Sink := { id := s.door.nextSink, link := l, pkt := p, xfer := xfer, slot := slot, waiting := 0, fill := none, got := [], err := false,
                    begun := false, reading := false, fillBad := false, work := none }
  { s with door := { s.door with sinks := s.door.sinks ++ [x], nextSink := s.door.nextSink + 1 } }

/-- A packet has been sunk: its buffer is free. -/
def State.sinkGone (s : State) (x : Sink) : State :=
  let s := { s with door := { s.door with sinks := s.door.sinks.filter fun y => y.id ≠ x.id } }
  s.bufferFree x.link x.pkt.cls.val

/-- A terminal packet's signal that is dropped: it is counted once, and the tally of its transfer ends (11 R256). -/
def State.terminalDropped (s : State) (x : Sink) (stale : Bool) : State := (s.signalDropped stale).tallyEnd x

/-- Answers a packet with an error (R313); a terminal packet places no signal, and is counted unless it was when its latch
turned it away. -/
def State.sinkFail (s : State) (x : Sink) : State :=
  let mine (q : Pending) : Bool := q.isOf x.link x.pkt
  let s := if x.pkt.cls = clsSig && (!x.begun || s.latch.pending.any mine) then
      let s := s.terminalDropped x (s.ctxSlot x.pkt.ctxid).isNone
      { s with latch := { s.latch with pending := dropFirst mine s.latch.pending } }
    else s
  (s.answer x.link x.pkt 0 true false []).sinkGone x

/-- The journal's INPUT record of a sunk packet of a context (16 R397). -/
def State.sinkJournal (s : State) (x : Sink) (c handle index b latch : Nat) : State :=
  s.journalInput c x.pkt.src.toNat x.pkt.cls.val x.pkt.ctxid handle index b latch x.pkt.payload

/-- A packet of a put has been written (R298). -/
def State.putDone (s : State) (x : Sink) : State :=
  let p := x.pkt
  let sig := decide (p.cls = clsSig)
  let s := if sig then
      { s with latch := { s.latch with
        pending := updFirst (fun q => q.isOf x.link p)
          (fun q => { q with tally := q.tally + p.payload.length }) s.latch.pending } }
    else if s.rpl.active then s
    else s.tallyAdd x
  let s := match s.ctxSlot p.ctxid with
    | some c => s.sinkJournal x c (pktHandle p) (pktIndex p) (pktB p) (if sig then pktLatch p else 63)
    | none => s
  (s.answer x.link p 0 false false []).sinkGone x

/-- The job of an entry. -/
def State.jobOf (s : State) (uid : Nat) : Option Job :=
  match s.entry uid with
  | some e => some e.job
  | none => none

/-- The entry that a Doorway tag belongs to, and its tag. -/
def State.tagEntry (s : State) (tag : Nat) : Option (DoorTag × Entry) :=
  match s.door.tags.find? fun g => g.tag = tag with
  | none => none
  | some g => (s.entry g.uid).map fun e => (g, e)

/-- A response ends its tag (R298, R301): without one it is discarded. -/
def State.rspEnd (s : State) (x : Sink) (status : Nat) : State :=
  let s := match s.tagEntry x.pkt.tag.toNat with
    | none => s
    | some (g, e) =>
      let s := { s with door := { s.door with tags := s.door.tags.filter fun y => y.tag ≠ g.tag } }
      let s := s.modEntry e.uid fun e => { e with tagWait := e.tagWait - 1 }
      let s := if status = 0 then s
        else if (s.redOf e.uid).isSome then s.redFail e.uid status
        else s.modEntry e.uid fun e => e.fail status
      s.entrySettle e.uid
  s.sinkGone x

/-- The data of a fetch have been written. -/
def State.fetchDone (s : State) (x : Sink) : State :=
  match s.tagEntry x.pkt.tag.toNat with
  | none => s.rspEnd x 0
  | some (g, e) =>
    let h := match e.job with
      | .put loc _ => loc.handle
      | _ => 0
    (s.sinkJournal x e.ctx h g.index g.bytes 63).rspEnd x 0

/-- A reduction packet has been written: onward, and its answer. -/
def State.redDone (s : State) (x : Sink) : State :=
  match s.redMatch x.pkt with
  | .sink r g =>
    let c := (s.entry r.uid).map fun e => e.ctx
    let s := match c with
      | some c => s.sinkJournal x c r.group (redIndex x.pkt) (r.opno.toNat + (x.pkt.kind.toNat <<< 16)) 63
      | none => s
    let held := match s.jobOf r.uid with
      | some (.red _ d _) => decide (d.desc.space = 1)
      | _ => false
    let s := if g.exact then s.exactSink r g x.pkt else s.redOnward r g x.pkt held
    (s.answer x.link x.pkt 0 false false []).sinkGone x
  | _ => s.sinkFail x

/-- The bytes that an RD asked for are here (R298). A scratchpad word that the Doorway cannot correct is answered with an
error (16 R379, R388). -/
def State.rdDone (s : State) (x : Sink) (d : Desc) (n : Nat) : State :=
  let good (s : State) : State :=
    let pay := runPayload (s.bytesOf d.space x.got) d (pktIndex x.pkt) n
    (s.answer x.link x.pkt 1 false (decide (d.space = 1)) pay).sinkGone x
  if d.space ≠ 1 then good s
  else
    let s := s.readShut d (runCoords d (pktIndex x.pkt) n)
    match s.upsetAt .spad with
    | .clean => good s
    | .corrected => good (s.struck .spad).corrected
    | .fatal u =>
      let c := (s.ctxSlot x.pkt.ctxid).getD 0
      ((s.struck .spad).integrity { eventOf mechSpad 0 with ctx := c, detail := some u }).sinkFail x

/-- The packet's data have been written. -/
def State.sinkDone (s : State) (x : Sink) : State :=
  if x.pkt.cls = clsRsp then s.fetchDone x
  else if x.pkt.cls = clsRed then s.redDone x
  else s.putDone x

/-- Performs the writes of a packet into the scratchpad, or forms those towards memory. -/
def State.sinkWrite (s : State) (x : Sink) (d : Desc) (ws : List BitWrite) : State :=
  if d.space = 1 then (ws.foldl State.spadWrite s).sinkDone x
  else
    let cs := ws.foldl (fun cs w =>
      (writeCells (fun a => cellByte cs x.got a) w).foldl (fun m c => cellPut m c.1 c.2) cs) []
    let rs := writeReqs (.sink x.id) .sink false cs
    if rs.isEmpty then s.sinkDone x
    else (s.modSink x.id fun y => { y with begun := true, reading := false, waiting := rs.length }).jambAdd rs

/-- Reads bytes of memory for a sink, or goes on with `g` when there are none. -/
def State.sinkRead (s : State) (x : Sink) (d : Desc) (i n : Nat) (as : List Nat) (g : State → State) : State :=
  if as.isEmpty then g s
  else
    let rs := readReqs (.sink x.id) .sink as
    (s.modSink x.id fun y => { y with
      begun := true, reading := true, waiting := rs.length, work := some (d, i, n) }).jambAdd rs

/-- The coordinates of a run that the destination takes. -/
def runTaken (d : Desc) (i n : Nat) : List Coord := (runCoords d i n).filter fun x => takes d x

/-- What a packet has to do once it is checked. -/
inductive SinkWork
  | fail
  | drop
  | wait
  /-- data for a destination: first index and elements, and whose write it is -/
  | data (d : Desc) (i n : Nat) (uid : Option Nat)
  | red (r : RedRun) (g : GroupRec) (d : Desc)
  | exact (r : RedRun) (g : GroupRec)
  | read (d : Desc) (i n : Nat)
  | fill (c h : Nat)
  | refuse (c h st : Nat)
  | redBad (uids : List Nat)
  deriving DecidableEq, Repr

/-- The work of a WR, SIG or RD packet whose handle resolves to a descriptor (R313). -/
def putRun (p : Packet) (d : Desc) : SinkWork :=
  if 1 < d.space || d.fmt ≠ pktFmt p || (p.cls ≠ clsRd && decide (transferBytes d ≠ pktB p)) then .fail
  else match pktRun d p with
    | none => .fail
    | some n => if p.cls = clsRd then .read d (pktIndex p) n else .data d (pktIndex p) n none

/-- The work of a WR, SIG or RD packet (R313). -/
def State.putWork (s : State) (x : Sink) : State × SinkWork :=
  let p := x.pkt
  match s.ctxSlot p.ctxid with
  | none => (s, .fail)
  | some c =>
    if x.fillBad then (s, .fail)
    else
      let r := s.resolve1 c (pktHandle p) (decide (p.cls ≠ clsRd))
      (r.1, match r.2 with
        | .miss h => .fill c h
        | .bad st => .refuse c (pktHandle p) st
        | .ok o => putRun p o.desc)

/-- The work of a RED packet (R314 to R318). -/
def State.redWork (s : State) (p : Packet) : SinkWork :=
  match s.redMatch p with
  | .wait => .wait
  | .bad l => .redBad l
  | .sink r g =>
    match s.jobOf r.uid with
    | some (.red _ d _) => if redShape r g p then .red r g d.desc else .redBad [r.uid]
    | some (.norm _) => if p.payload.length = 80 then .exact r g else .redBad [r.uid]
    | _ => .redBad [r.uid]

/-- The work of an RSP packet: the data of a fetch, or the end of its tag. -/
def State.rspWork (s : State) (p : Packet) : SinkWork :=
  match s.tagEntry p.tag.toNat with
  | none => .drop
  | some (g, e) =>
    if p.err then .fail
    else match e.job with
      | .put loc route =>
        if bitN route.toNat 34 then
          (if p.kind = 1 && decide (p.payload.length = g.bytes) then
            match runCount loc.desc g.index g.bytes with
            | some n => .data loc.desc g.index n (some e.uid)
            | none => .fail
          else .fail)
        else .drop
      | _ => .drop

/-- The work of a packet. -/
def State.sinkWork (s : State) (x : Sink) : State × SinkWork :=
  if x.pkt.cls = clsRsp then (s, s.rspWork x.pkt)
  else if x.pkt.cls = clsRed then (s, s.redWork x.pkt)
  else s.putWork x

/-- Records of the response table in use: answers that are not acknowledged, and reads under way (R300). -/
def State.responses (s : State) : Nat :=
  ((List.range 6).map fun l =>
    let k := s.link l
    ((k.ready ++ k.sent).filter fun x => x.origin = .answer).length).sum +
  (s.door.sinks.filter fun x => x.begun && decide (x.pkt.cls = clsRd)).length

/-- Notes the writes of a destination number 0 of an entry for its digest (16 R395). -/
def State.noteAll (s : State) (uid : Option Nat) (ws : List BitWrite) : State :=
  match uid with
  | some u => ws.foldl (fun s w => s.noteWrite u 0 w) s
  | none => s

/-- The writes of a RED packet. -/
def redWrites (r : RedRun) (g : GroupRec) (d : Desc) (p : Packet) : List BitWrite :=
  (redValues r g p).zipIdx.map fun v => elemWrite d (coordOf d (redIndex p + v.2)) v.1

/-- Writes the data of a packet whose checks have passed; a terminal packet takes its place in the pending table when
its latch accepts remote signals. -/
def State.sinkData (s : State) (x : Sink) (d : Desc) (i n : Nat) (uid : Option Nat) : State :=
  let s := if x.pkt.cls = clsSig then
      match s.ctxSlot x.pkt.ctxid with
      | some c => if s.latchRemote c (pktLatch x.pkt) then s.pendingAdd x c else s.terminalDropped x false
      | none => s
    else s
  s.sinkRead x d i n (partialAddrs d (runTaken d i n)) fun s =>
    let ws := runWrites d i n x.pkt.payload
    (s.noteAll uid ws).sinkWrite x d ws

/-- A record of the Doorway's tracker that fails its parity ends its tag as a swept one (16 R384, R388; R321). -/
def State.tagSwept (s : State) (x : Sink) (d : BitVec 16) : State :=
  let s := (s.struck .doorTracker).trackerParity d
  { s with door := { s.door with swept := satInc 16 s.door.swept } }.rspEnd x stRemoteFault

/-- Does a packet end a tag that this core holds? -/
def State.endsTag (s : State) (p : Packet) : Bool := decide (p.cls = clsRsp) && (s.tagEntry p.tag.toNat).isSome

/-- Does an RSP meet a parity error in the record of its tag? -/
def State.tagBad (s : State) (p : Packet) : Option (BitVec 16) :=
  if s.endsTag p then
    match s.upsetAt .doorTracker with
    | .fatal d => some d
    | _ => none
  else none

/-- Does the sinking of a packet need a domain of VDD_CORE (15 R369)? An RSP that ends no tag does not. -/
def State.needsCore (s : State) (p : Packet) : Bool := decide (p.cls ≠ clsRsp) || s.endsTag p

/-- Does the work of a packet. -/
def State.sinkDo (s : State) (x : Sink) (k : SinkWork) : State :=
  match k with
  | .wait => s
  | .fail => if x.pkt.cls = clsRsp then s.rspEnd x stRemoteFault else s.sinkFail x
  | .drop => s.rspEnd x 0
  | .fill c h => (s.fillAsk c h).modSink x.id fun y => { y with fill := some (c, h) }
  | .refuse c h st => (s.descFault c h st).sinkFail x
  | .redBad l => (l.foldl (fun s u => s.redFail u stRemoteFault) s).sinkFail x
  | .exact _ _ => s.redDone x
  | .red r g d =>
    let ws := redWrites r g d x.pkt
    (s.noteAll (some r.uid) ws).sinkWrite x d ws
  | .data d i n uid => s.sinkData x d i n uid
  | .read d i n =>
    if 4096 ≤ s.responses then s
    else s.sinkRead x d i n (if d.space = 0 then runAddrs d i n else []) fun s => s.rdDone x d n

/-- Begins to sink a packet, as far as its local resources allow (R298). While ACLK stands it waits in its buffer, and a ring or
near packet wakes a parked core (01 R23, 15 R369). -/
def State.sinkTry (s : State) (x : Sink) : State :=
  if s.needsCore x.pkt && !s.clk.aclkOn then (if x.link < 4 then s.wakeAsk else s)
  else match s.tagBad x.pkt with
    | some d => s.tagSwept x d
    | none => (s.sinkWork x).1.sinkDo x (s.sinkWork x).2

/-- May the sink begin: it is the first of its link and class that has not; a RED packet waits for the one before it to
end, since a member sends its partials in order (R314)? -/
def State.sinkFirst (s : State) (x : Sink) : Bool :=
  !x.begun &&
  !((s.door.sinks.takeWhile fun y => y.id ≠ x.id).any fun y =>
    decide (y.link = x.link) && decide (y.pkt.cls = x.pkt.cls) && (!y.begun || decide (y.pkt.cls = clsRed)))

/-- A sink by its name. -/
def State.sinkOf (s : State) (id : Nat) : Option Sink := s.door.sinks.find? fun x => x.id = id

/-- One sink, if it may begin. -/
def State.sinkStep (s : State) (id : Nat) : State :=
  match s.sinkOf id with
  | some x => if s.sinkFirst x then s.sinkTry x else s
  | none => s

/-- Every sink that may begin, in order. -/
def State.sinksGo (s : State) : State := (s.door.sinks.map fun x => x.id).foldl State.sinkStep s

/-! ### Answers of memory for sinks -/

/-- A memory error for a sink: RSP with ERR (14 R332), and MEMORY_FAULT for the entry whose access it was. -/
def State.sinkMemFail (s : State) (x : Sink) : State :=
  if x.pkt.cls = clsRsp then s.rspEnd x stMemoryFault
  else if x.pkt.cls = clsRed then
    match s.redMatch x.pkt with
    | .sink r _ => (s.redFail r.uid stMemoryFault).sinkFail x
    | _ => s.sinkFail x
  else s.sinkFail x

/-- The bytes that a sink read have arrived. -/
def State.sinkGot (s : State) (x : Sink) : State :=
  match x.work with
  | none => s
  | some (d, i, n) =>
    if x.pkt.cls = clsRd then s.rdDone x d n
    else
      let ws := runWrites d i n x.pkt.payload
      let uid := if x.pkt.cls = clsRsp then (s.tagEntry x.pkt.tag.toNat).map fun g => g.2.uid else none
      (s.noteAll uid ws).sinkWrite x d ws

/-- Memory has answered a request of a sink. -/
def State.sinkAnswered (s : State) (id : Nat) (got : List Host.Cell) (ok : Bool) : State :=
  let s := s.modSink id fun y => { y with
    waiting := y.waiting - 1, err := y.err || !ok, got := got.foldl (fun m c => cellPut m c.1 c.2) y.got }
  match s.sinkOf id with
  | none => s
  | some x =>
    if x.waiting ≠ 0 then s
    else (if x.err then s.sinkMemFail x else if x.reading then s.sinkGot x else s.sinkDone x).sinksGo

/-- A descriptor fill has ended: the sinks that wait for it try again. -/
def State.sinksFilled (s : State) (c h : Nat) (ok : Bool) : State :=
  let upd (x : Sink) : Sink :=
    if x.fill = some (c, h) then { x with fill := none, fillBad := x.fillBad || !ok } else x
  { s with door := { s.door with sinks := s.door.sinks.map upd } }.sinksGo

end Sys2Proof.Machine
end

