-- ==== Sys2Proof/Machine/DoorExec.lean ====
section
/-! DEFINITION. The events of the Doorway's links: received packets, discovery, timeouts, re-point and remote signals
(spec/13 R294 to R300, R308 to R322; spec/11 R256, R257). -/

namespace Sys2Proof.Machine

/-! ### Packets of the traffic classes -/

/-- Receives a packet that this core sinks. Its trailer may have made room for a read that waits (R300). -/
def State.sunk (s : State) (l : Nat) (w : Wire) (xfer : Nat) (c : Fin 6) (kind : Nat) : State :=
  if s.linkUp l then (s.receive l w c kind fun p slot s => s.sinkAdd l p xfer slot).sinksGo
  else s.receive l w c kind fun _ _ s => s

/-- RSP_ACK: an acknowledgement frees its tag (R298, R301). -/
def execRspAck (link : Fin 6) (w : Wire) (s : State) : Result := .next (s.sunk link w 0 clsRsp 0)

/-- RSP_DATA: the answer to an RD (R298, R311). -/
def execRspData (link : Fin 6) (w : Wire) (s : State) : Result := .next (s.sunk link w 0 clsRsp 1)

/-- SIG_TERMINAL: the last data of a put with its remote signal (R311, 11 R256). -/
def execSigTerminal (link : Fin 6) (p : PutPacket) (s : State) : Result := .next (s.sunk link p.wire p.xfer clsSig 0)

/-- RED_PARTIAL (R314). -/
def execRedPartial (link : Fin 6) (w : Wire) (s : State) : Result := .next (s.sunk link w 0 clsRed 0)

/-- RED_FINAL (R316). -/
def execRedFinal (link : Fin 6) (w : Wire) (s : State) : Result := .next (s.sunk link w 0 clsRed 1)

/-- WR_DATA: data of a put (R311, R313). -/
def execWrData (link : Fin 6) (p : PutPacket) (s : State) : Result := .next (s.sunk link p.wire p.xfer clsWr 0)

/-- RD_READ: a fetch asks for data (R311, R313). -/
def execRdRead (link : Fin 6) (w : Wire) (s : State) : Result := .next (s.sunk link w 0 clsRd 0)

/-! ### Management packets -/

/-- MGT_NULL: a packet without SEQ that carries a trailer only (R292, R293). -/
def execMgtNull (link : Fin 6) (w : Wire) (s : State) : Result :=
  .next (
    if s.door.held then s.wicket link w
    else if !s.linkUp link then s
    else if !wireCrcOk w then s.crcFailed link
    else if wireResv w then s.forceReset link causeProtocol
    else (s.trailerTaken link (wireTrailer w)).sinksGo)

/-- The near or far link that is UP with the peer (R322). -/
def State.peerLink (s : State) (v : BitVec 16) : Option Nat :=
  [2, 3, 4, 5].find? fun l => s.linkUp l && decide ((s.link l).peer = v)

/-- A route entry under a REPOINT (R322); its LINK is kept in the numbering of the plan. -/
def State.repointed (s : State) (x v : BitVec 16) (r : Route) : Route :=
  if r.dest = x && !isRing r.link then
    let n := match s.peerLink v with
      | some l => { r with link := s.roleLink l, unreach := false }
      | none => { r with unreach := true }
    if n = r then r else { n with repointed := true }
  else r

/-- Applies an accepted REPOINT and sends it on every UP link of generation 3 but the one it came on (R322). -/
def State.repoint (s : State) (x v : BitVec 16) (epoch : BitVec 24) (via : Option Nat) : State :=
  let n := s.routeCount
  let s := { s with door := { s.door with
    epoch := epoch
    routes := (List.range n).foldl (fun m r => SMap.put m Route.init r (s.repointed x v (s.route r))) s.door.routes } }
  (List.range 6).foldl (fun s l =>
    if s.linkUp l && decide ((s.link l).gen = 3) && decide (via ≠ some l) then
      s.txAdd l [txItem (s.packet clsMgt 2 (s.link l).peer.toNat 0 0 0 0 (repointBytes x v epoch)) .management false]
    else s) s

/-- REPOINT (R322): accepted when its epoch is above the last one; on a link below generation 3 the message does not
exist (R295). `x`, `v` and `epoch` are what the message says; no rule gives their places in its payload (log entry 12). -/
def execRepoint (link : Fin 6) (x v : BitVec 16) (epoch : BitVec 24) (w : Wire) (s : State) : Result :=
  .next (s.receive link w clsMgt 2 fun _ _ s =>
    if (s.link link).gen ≠ 3 then s.forceReset link causeProtocol
    else
      let s := s.freeBuffer link 5
      if s.door.epoch < epoch then s.repoint x v epoch (some link) else s)

/-- MGT_RESET: the peer resets its side of the link. -/
def execMgtReset (link : Fin 6) (w : Wire) (s : State) : Result :=
  .next (s.receive link w clsMgt 3 fun _ _ s => s.forceReset link causePeerReset)

/-! ### Discovery (R308 to R310) -/

/-- Does the link stay OFF: its kind shuttered or left off, the Doorway held in reset, the core without an identity, or
in Hatch (15 R361, R357; 17 R424, R419)? -/
def State.linkShut (s : State) (l : Nat) : Bool :=
  s.door.held || decide (s.door.node = 0) || s.lt.hatchActive ||
  (decide (l = 2 ∨ l = 3) && (s.pwr.shutNear || s.leftOffIn 76 1)) || (decide (4 ≤ l) && (s.pwr.shutFar || s.leftOffIn 77 1))

/-- EXPECT of the link's record. -/
def State.expects (s : State) (l : Nat) : Bool :=
  match s.linkRec l with
  | some r => r.expect
  | none => false

/-- The highest generation in a bitmap and in this core's own. -/
def commonGen (gens : BitVec 4) : Nat := ([3, 2, 1].find? fun g => gens.getLsbD g).getD 0

/-- Records why discovery failed. -/
def State.linkCause (s : State) (l cause : Nat) : State :=
  s.modLink l fun k => { k with cause := BitVec.ofNat 4 cause }

/-- Negotiates a generation with an acceptable peer (R310). -/
def State.negotiate (s : State) (l : Nat) (h : HelloMsg) (r : LinkRec) : State :=
  let g := commonGen h.gens
  if g = 0 || decide (g < r.minGen) then (s.linkCause l causeNoGen).linkTo l .quarantine
  else
    (s.modLink l fun k => { k with
      gen := g, bypass := isRing l && decide (h.node ≠ r.peer)
      credit := (List.range 6).foldl (fun m c => SMap.put m 0 c (h.credits.getD c 0).toNat) []
      creditSeen := [], freed := [], txSeq := [], rxSeq := [], ready := [], sent := [], ackDue := [], nakDue := []
      ackTicks := [], credTicks := [] }).linkTo l .up

/-- Is the identity the planned peer, or on a ring link ALT? -/
def peerOk (l : Nat) (r : LinkRec) (node : BitVec 16) : Bool :=
  decide (node = r.peer) || (isRing l && decide (r.alt ≠ 0) && decide (node = r.alt))

/-- May the two links of a kind exchange their roles? -/
def State.mayRemap (s : State) (l : Nat) : Bool :=
  match s.linkRec l, s.linkRec (pairLink l) with
  | some a, some b => a.remap && b.remap
  | _, _ => false

/-- Do both links see the other's planned peer? -/
def State.crossed (s : State) (l : Nat) : Bool :=
  match s.linkRec l, s.linkRec (pairLink l), (s.link l).helloSeen, (s.link (pairLink l)).helloSeen with
  | some a, some b, some h, some g => decide (h.node = b.peer) && decide (g.node = a.peer)
  | _, _, _, _ => false

/-- The decision of R310 for a link that has seen a HELLO. `late` says that the time to wait for the other link of
the kind is over. -/
def State.decideLink (s : State) (l : Nat) (late : Bool) : State :=
  match (s.link l).helloSeen, s.linkRec l with
  | some h, some r =>
    if !r.expect then s.linkTo l .idle
    else if peerOk l r h.node then s.negotiate l h r
    else
      let o := pairLink l
      let seen := (s.link o).helloSeen
      if s.mayRemap l && seen.isSome then
        if s.crossed l && decide ((s.link o).state = .hello) then
          let s := s.modLink l fun k => { k with remapped := !k.remapped }
          let s := s.modLink o fun k => { k with remapped := !k.remapped }
          match seen, s.linkRec l, s.linkRec o with
          | some g, some a, some b => (s.negotiate l h a).negotiate o g b
          | _, _, _ => s
        else (s.linkCause l causeIdentity).linkTo l .quarantine
      else if s.mayRemap l && !late then s
      else (s.linkCause l causeIdentity).linkTo l .quarantine
  | _, _ => s

/-- A link that has exchanged HELLOs decides; so does the other link of its kind when it waited for this one. -/
def State.discover (s : State) (l : Nat) : State :=
  let ready (s : State) (l : Nat) : Bool :=
    let k := s.link l
    decide (k.state = .hello) && k.helloSent && k.helloSeen.isSome
  let s := if ready s l then s.decideLink l false else s
  let o := pairLink l
  if ready s o then s.decideLink o false else s

/-- The generations that Belore accepts: 1 to 3 (R295, R309). -/
def ownGens : BitVec 4 := 14

/-- The initial credits that a HELLO grants (R297): those of SIG as far as the pending table has room (R299). -/
def State.helloCredits (s : State) (l give : Nat) : List (BitVec 16) :=
  (List.range 6).map fun c => BitVec.ofNat 16 (if c = clsSig.val then give else s.grant l c)

/-- Sends a HELLO: identity, generations, initial credits, and RESET once after a reset (R309, R320). -/
def State.helloOut (s : State) (l : Nat) : State :=
  let free := pendingSize - s.latch.pending.length
  let reset := (s.link l).resetFlag
  let s := s.modLink l fun k => { k with
    sigHeld := s.grant l 1, helloSent := true, resetFlag := false, helloTicks := 0 }
  let give := min (s.grant l 1) (free - s.sigOut)
  let s := s.modLink l fun k => { k with sigHeld := s.grant l 1 - give }
  let h : HelloMsg := { node := s.door.node, gens := ownGens, credits := s.helloCredits l give, reset := reset }
  s.drive l (s.packet clsMgt 1 (s.link l).peer.toNat 0 0 0 0 (helloBytes h))

/-- A hundred microseconds in ticks of the always-on clock. -/
def helloEvery : Nat := 100

/-- HELLO_SEND (R309): the first HELLO as soon as the link is in HELLO, the next ones every 100 µs. -/
def execHelloSend (link : Fin 6) (s : State) : Result :=
  let k := s.link link
  .next (if k.state = .hello && (!k.helloSent || decide (helloEvery ≤ k.helloTicks)) then
    (s.helloOut link).discover link else s)

/-- The effect of a HELLO that passed its checks, by the state of the link (R309, R310, R320, R324). -/
def State.helloTaken (s : State) (l : Nat) (h : HelloMsg) (t : Trailer) : State :=
  let k := s.link l
  match k.state with
  | .hello =>
    let first := k.helloSeen.isNone
    let s := s.modLink l fun k => { k with
      helloSeen := some h, peer := h.node, ticks := if first && s.mayRemap l then 0 else k.ticks }
    s.discover l
  | .up =>
    let seen := s.modLink l fun k => { k with peer := h.node }
    if h.reset then seen.forceReset l causePeerReset
    else if h.node ≠ k.peer then seen.forceReset l causeChanged
    else (s.trailerTaken l t).sinksGo
  | .quarantine => (s.modLink l fun k => { k with peer := h.node }).helloOut l
  | _ => s

/-- HELLO (R309, R310, R320). -/
def execHello (link : Fin 6) (w : Wire) (s : State) : Result :=
  let k := s.link link
  .next (
    if s.door.held then s.wicket link w
    else if k.state ≠ .hello && k.state ≠ .up && k.state ≠ .quarantine then s
    else if !wireCrcOk w then s.crcFailed link
    else if wireResv w then s.forceReset link causeProtocol
    else s.helloTaken link (wireHello w) (wireTrailer w))

/-- LINK_RDY: the integrator's link is trained, or is not any more (R289, R308). -/
def execLinkRdy (link : Fin 6) (level : Bool) (s : State) : Result :=
  let s := s.modLink link fun k => { k with rdy := level }
  .next (if level && decide ((s.link link).state = .wait) then s.linkTo link .hello else s)

/-- Ten milliseconds, a millisecond in ticks of the always-on clock. -/
def tenMs : Nat := 10000
/-- A millisecond. -/
def oneMs : Nat := 1000

/-- DISCOVERY_TIMEOUT: ten milliseconds without RDY or HELLO (R309, R310). -/
def execDiscoveryTimeout (link : Fin 6) (s : State) : Result :=
  let k := s.link link
  let lost (cause : Nat) : State :=
    let s := s.linkCause link cause
    if s.expects link then s.linkTo link .down else s.linkOff link
  .next (
    if k.ticks < tenMs then s
    else match k.state with
      | .wait => lost causeNoRdy
      | .hello => if k.helloSeen.isSome then s.decideLink link true else lost causeNoHello
      | _ => s)

/-- IDLE_LINK_DISABLE: an IDLE link's enable falls a millisecond after entry (R308). -/
def execIdleLinkDisable (link : Fin 6) (s : State) : Result :=
  let k := s.link link
  .next (if k.state = .idle && decide (oneMs ≤ k.ticks) then s.modLink link fun k => { k with en := false } else s)

/-- LINK_RESET_END: a millisecond after a forced reset the link enters WAIT (R320); a link trained already goes on to
HELLO. -/
def execLinkResetEnd (link : Fin 6) (s : State) : Result :=
  let k := s.link link
  .next (
    if k.state = .reset && decide (oneMs ≤ k.ticks) then
      let s := s.linkWait link
      if k.rdy then s.linkTo link .hello else s
    else s)

/-! ### Timeouts of a link that is UP (R300, R320) -/

/-- Has a time of `n` TIMEOUTs of the link passed in `ticks` ticks of the always-on clock? DCLK runs at 1,250 MHz. -/
def State.linkTimedOut (s : State) (l n ticks : Nat) : Bool := decide (n * s.linkTimeout l * 128 ≤ ticks * 1250)

/-- The oldest unacknowledged SEQ of a class. -/
def Link.oldest (k : Link) (c : Nat) : Option (BitVec 16) :=
  (k.sent.find? fun x => decide (x.pkt.cls.val = c)).map fun x => x.pkt.seq

/-- ACK_TIMEOUT: no acknowledgement of the class has advanced within TIMEOUT (R300). -/
def execAckTimeout (link : Fin 6) (c : Fin 6) (s : State) : Result :=
  let k := s.link link
  .next (match k.oldest c.val with
    | some q =>
      if s.linkUp link && s.linkTimedOut link 1 (SMap.look k.ackTicks 0 c.val) then s.resend link c.val q else s
    | none => s)

/-- Has the class a packet waiting and no credit? -/
def Link.starved (k : Link) (c : Nat) : Bool :=
  decide (SMap.look k.credit 0 c = 0) &&
  k.ready.any fun x => decide (x.pkt.cls.val = c) && !x.held && decide (x.sends = 0)

/-- CREDIT_TIMEOUT: a packet has waited without credit for 64 TIMEOUTs (R320). -/
def execCreditTimeout (link : Fin 6) (c : Fin 6) (s : State) : Result :=
  let k := s.link link
  .next (
    if s.linkUp link && k.starved c.val && s.linkTimedOut link 64 (SMap.look k.credTicks 0 c.val) then
      s.forceReset link causeCredit
    else s)

/-! ### The commit of a DOORWAY section (R308) -/

/-- Brings every link to WAIT under the section in force; a shuttered link stays OFF, and in replay every link does
(15 R361, 16 R401). -/
def State.doorRestart (s : State) : State :=
  let routes := match s.frame.doorway with
    | some d => d.routes
    | none => []
  let s := { s with door := { s.door with
    routes := routes.zipIdx.foldl (fun m r => SMap.put m Route.init r.2 r.1) [] } }
  (List.range 6).foldl (fun s l =>
    let s := (s.linkClear l).modLink l fun k => { k with remapped := false }
    if s.linkShut l || s.frame.doorway.isNone || s.rpl.active then s.linkOff l
    else
      let s := s.linkWait l
      if (s.link l).rdy then s.linkTo l .hello else s) s

/-- A forced reset by the host (R321). A link stays OFF while no DOORWAY section is in force, while it is shuttered and
in replay (R308, 15 R361, 16 R401). -/
def State.hostReset (s : State) (l : Nat) : State :=
  if s.linkShut l || s.frame.doorway.isNone || s.rpl.active then s else s.forceReset l causeHost

/-! ### Remote signals (11 R256, R257) -/

/-- REMOTE_SIGNAL_APPLY: every byte of the transfer is written and the context has started (11 R256 step 5). -/
def execRemoteSignalApply (link : Fin 6) (src : BitVec 16) (tag : BitVec 16) (s : State) : Result :=
  let is (q : Pending) : Bool :=
    decide (q.link = link.val) && decide (q.src = src) && decide (q.tag = tag) && decide (q.tally = q.bytes) &&
    s.ctxStarted q.slot
  .next (match s.latch.pending.find? is with
    | none => s
    | some q =>
      if !s.clk.aclkOn then s.wakeAsk else
      let s := { s with latch := { s.latch with pending := dropFirst is s.latch.pending } }
      (s.latchSignal q.slot q.latch
        { kind := 3, thread := .F, queue := 0, pc := 0, iseq := 0, link := link.val }).sigRelease)

end Sys2Proof.Machine
end

