-- ==== Sys2Proof/Machine/Starts.lean ====
section
/-! DEFINITION. The start of an entry on its engine: the choice of the Mullion tables, the Louvre state, the norm check
(spec/10 R233 to R241; spec/03 R57; spec/08 R175, R184). -/

namespace Sys2Proof.Machine

/-! ### Which entry starts (R238, R240) -/

/-- The head of the first non-empty lane of a list of streams. -/
def State.firstHead (s : State) (q : Nat) (ts : List Thread) : Option Entry := (ts.filterMap (s.laneHead q)).head?

/-- `n` streams in the order F, B, U, S from number `k` on. -/
def streamsFrom (k n : Nat) : List Thread := (List.range n).map fun i => threadOf (k + i)

/-- The entry that an engine with a record starts, and whether the start is lent (R240). -/
def State.weaveChoice (s : State) (q : Nat) (r : MulRec) : Option (Entry × Bool) :=
  let o := s.ownerNow r
  let own := if o < 4 then s.laneHead q (threadOf o) else none
  match own with
  | some e => some (e, false)
  | none =>
    if r.lend then (s.firstHead q (if o < 4 then streamsFrom (o + 1) 3 else streamsFrom 0 4)).map fun e => (e, true)
    else none

/-- The entry that an open-woven engine starts (R238). -/
def State.openChoice (s : State) (q : Nat) : Option Entry :=
  s.firstHead q (streamsFrom (Thread.num (s.engine q).last + 1) 4)

/-- May the engine start an entry: it is open, and its queue is not stopped (R233, 16 R390)? -/
def State.startable (s : State) (q : Nat) : Bool := (s.engine q).isOpen && !s.int.qstop.getLsbD q

/-! ### The Louvre state read at the start (03 R57, 07 R158, R160) -/

/-- The tracked operands whose Louvre state a job reads: its destinations, and sources that are read with a proposal. -/
def Job.tracked (j : Job) : List Opnd :=
  let src (o : Opnd) : List Opnd := if o.desc.lvEn && o.desc.scaleSrc && isPlainScaled o.desc.fmt then [o] else []
  let dst (o : Opnd) : List Opnd := if o.desc.lvEn then [o] else []
  let body (u : CasUnit) : List Opnd := u.body.flatMap fun o => match o.op, o.opnd with
    | 0x30, some x => src x
    | 0x31, some x => dst x
    | _, _ => []
  match j with
  | .lattice a b c _ _ _ => src a ++ src b ++ dst c
  | .casement u => body u
  | .near u => body u
  | .drain _ d _ => dst d
  | .ssq a _ => src a
  | _ => []

/-- The fields captured at issue with the Louvre state of the cached entry (R57): HRUN, HSTEP, HPTR, HNF, HREF and HIST. -/
def Desc.withLouvre (d c : Desc) : Desc :=
  { d with hrun := c.hrun, hstep := c.hstep, hptr := c.hptr, hnf := c.hnf, href := c.href, hist := c.hist }

/-- The proposals of an entry's tracked operands, or the first handle that is not cached. -/
def State.readProps (s : State) (e : Entry) (os : List Opnd) : Except (Nat × Nat) (List (Nat × Nat)) :=
  match os with
  | [] => .ok e.props
  | o :: r =>
    if e.props.any fun p => p.1 = o.handle then s.readProps e r
    else match s.dcFind o.ctx o.handle with
      | some c => s.readProps { e with
          props := (o.handle, lvPropose (o.desc.withLouvre c.desc) (e.step.toNat % 256)) :: e.props } r
      | none => .error (o.ctx, o.handle)

/-- Reads the cached entries of a list of operands: each becomes the most recent, and its SECDED is checked (R71). -/
def State.propsRead (s : State) (os : List Opnd) : State :=
  os.foldl (fun s o => (s.dcRead o.ctx o.handle).1) s

/-- A fill that the start of an entry asked for failed a check: this start takes no proposal for the handle. The spec does not
say what such a start does (log entry 54). -/
def State.propFailed (s : State) (ctx h : Nat) : State :=
  let upd (e : Entry) : Entry :=
    if e.phase = .queued && decide (e.asked = some (ctx, h)) then { e with props := (h, 0) :: e.props, asked := none } else e
  { s with eng := { s.eng with lanes := s.eng.lanes.map upd } }

/-! ### The norm check of UPD.APPLY (08 R175, R184) -/

/-- The status with which the unit ends at once: SKIPPED or NORM_STALE. -/
def State.applyStop (s : State) (e : Entry) (g : Nat) : Option Nat :=
  let policy := match s.updCfg e.ctx with
    | some u => u.nfPolicy
    | none => false
  let n := (s.plane e.ctx).norm
  if s.g0 e.ctx g 1 1 = 1 || policy then
    if n.step = e.step && decide (n.state = 2) then none
    else if n.step = e.step && decide (n.state = 3) then some stSkipped
    else some stNormStale
  else none

/-- FP64 1.0. -/
def one64 : Word := 0x3FF0000000000000

/-- The clip factor (08 R175). -/
def State.clipFactor (s : State) (ctx g : Nat) : Word :=
  if s.g0 ctx g 1 1 = 1 then (s.plane ctx).norm.kappa else one64

/-- The flags of the conversions of a clip factor that the words of a body with SF = 1 make (06 R128). -/
def clipFlags (body : List CasOp) (clip : Word) : Flags :=
  flagsAny (body.flatMap fun o => [o.bVal, o.cVal].map fun v => match v with
    | .clip true => if o.op = 0x0C then noFlags else (scalarOperand o.dt true clip).2
    | _ => noFlags)

/-- The body of an update's unit. -/
def Job.body (j : Job) : List CasOp :=
  match j with
  | .casement u => u.body
  | .near u => u.body
  | _ => []

/-- Starts the unit of an UPD.APPLY by `run`, or holds the engine for two cycles. The clip factor is converted now, and its
flags are raised in the issuing stream (R175, 06 R128). -/
def State.applyStart (s : State) (uid g : Nat) (run : State → Entry → State) : State :=
  match s.entry uid with
  | none => s
  | some e =>
    match s.applyStop e g with
    | some st =>
      let s := s.modEntry uid fun e => { e with status := st }
      { s with eng := { s.eng with skipHold := s.eng.skipHold ++ [(uid, 2)] } }
    | none =>
      let c := s.clipFactor e.ctx g
      let s := s.casRaise e.stream e.ctx e.iseq (clipFlags e.job.body c)
      run (s.modEntry uid fun e => { e with clip := c }) { e with clip := c }

/-! ### Detected faults at a start (16 R384, R388) -/

/-- The status of an uncorrectable scratchpad word that a Jamb-transfer entry reads; none when it reads none
(16 R388). -/
def Job.spadStatus (j : Job) : Option Nat :=
  let of' (o : Opnd) (st : Nat) : Option Nat := if o.desc.space = 1 then some st else none
  match j with
  | .copy a _ => of' a stMemoryFault
  | .ssq a _ => of' a stMemoryFault
  | .put a route => if bitN route.toNat 34 then none else of' a stRemoteFault
  | .red a _ _ => of' a stRemoteFault
  | _ => none

/-- What a fatal check of a start concerns, in bits [15:14] of its detail. -/
inductive StartUpset
  | none
  | record
  | read
  | accum
  deriving DecidableEq, Repr

/-- The unit that a start's check names. -/
def startUpset (u : Upset) : StartUpset :=
  match u with
  | .fatal d => match d.toNat / 2 ^ 14 with
    | 1 => .read
    | 2 => .accum
    | _ => .record
  | _ => .none

/-- The detail of a fatal check. -/
def upsetDetail (u : Upset) : BitVec 16 :=
  match u with
  | .fatal d => d
  | _ => 0

/-! ### The start -/

/-- Starts the job of an entry. `bad` says that the accumulator's residue did not match. -/
def State.jobStart (s : State) (e : Entry) (bad : Bool) : State :=
  match e.job with
  | .lattice _ _ _ _ _ _ => s.latStart e
  | .casement u => match u.group with
    | some g => s.applyStart e.uid g fun s e => s.casStart e u
    | none => s.casStart e u
  | .transom _ a d => s.transomStart e a d
  | .spill _ _ _ => s
  | .drain a d _ => s.drainStart e a d
  | .copy a d => s.copyStart e a d
  | .ssq a n => s.ssqStart e a n
  | .put a route => s.putStart e a route
  | .red a _ g => s.redStart e a g
  | .near u => match u.group with
    | some g => s.applyStart e.uid g fun s e => s.nearStart e u
    | none => s.nearStart e u
  | .norm n => s.normStart e n bad
  | .root r => s.rootStart e r
  | .rootPart _ => s
  | .rearm g => s.rearm e g
  | .adv _ => s
  | .qsig _ => s

/-- An engine starts an entry whose Louvre state is at hand (R233, R242). -/
def State.startOn (s : State) (q : Nat) (e : Entry) (lent : Bool) (props : List (Nat × Nat)) (u : Upset) : State :=
  let s := s.modEngine q fun g => { g with
    running := some e.uid, isOpen := false, last := e.stream, lastLent := lent, everStarted := true, gated := false }
  let s := s.modEntry e.uid fun e => { e with phase := .running, props := props }
  let k := startUpset u
  let s := match k, e.job.spadStatus with
    | .read, some st => (s.modEntry e.uid fun e => e.fail st).classS mechSpad e st (upsetDetail u)
    | _, _ => s
  let norm := match e.job with
    | .norm _ => true
    | _ => false
  let bad := decide (k = .accum) && norm
  let s := if bad then s.classS mechLouvre e stRemoteFault (upsetDetail u) else s
  let s := if u = .corrected then s.corrected else s
  match s.entry e.uid with
  | some e => (s.jobStart e bad).sinksGo
  | none => s

/-- Starts the chosen entry, or asks for the Louvre state that is not cached (R75). -/
def State.startEntry (s : State) (q : Nat) (e : Entry) (lent : Bool) (u : Upset) : State :=
  let s := s.propsRead e.job.tracked
  match s.readProps e e.job.tracked with
  | .error k => (s.modEntry e.uid fun e => { e with asked := some k }).fillAsk k.1 k.2
  | .ok props => s.startOn q e lent props u

/-- WEAVE_START (R240): an open engine with a record starts the owner's head, or another stream's under LEND. -/
def execWeaveStart (q : Fin 11) (u : Upset) (s : State) : Result :=
  .next (match s.mulRec q with
    | none => s
    | some r =>
      if startUpset u = .record then s.controlParity (upsetDetail u)
      else if s.startable q then
        match s.weaveChoice q r with
        | some c => s.startEntry q c.1 c.2 u
        | none => s
      else s)

/-- OPEN_WOVEN_START (R238): an engine without a record. -/
def execOpenWovenStart (q : Fin 11) (u : Upset) (s : State) : Result :=
  .next (
    if (s.mulRec q).isNone && s.startable q then
      match s.openChoice q with
      | some e => s.startEntry q e false u
      | none => s
    else s)

end Sys2Proof.Machine
end

