-- ==== Sys2Proof/Machine/Digest.lean ====
section
/-! DEFINITION. The digests of an entry and its ENTRY record of the journal (spec/16 R394, R395, R397). -/

namespace Sys2Proof.Machine

/-- The destinations of a job by their digest number, in the order of the handle registers: number and descriptor. An
UPD.APPLY takes the order of its record's slots. -/
def Job.digestDests (j : Job) : List (Nat × Desc) :=
  let stores (u : CasUnit) : List (Nat × Desc) :=
    let l := u.body.filterMap fun o => match o.op, o.opnd with
      | 0x31, some x => some (o.pa, x.desc)
      | _, _ => none
    let ks := l.foldl (fun ks p => insertNat p.1 ks) []
    ks.filterMap fun k => l.find? fun p => p.1 = k
  match j with
  | .lattice _ _ c _ _ _ => [(0, c.desc)]
  | .casement u => stores u
  | .near u => stores u
  | .transom _ _ d => [(0, d.desc)]
  | .spill _ m _ => [(0, m.desc)]
  | .drain _ d _ => [(0, d.desc)]
  | .copy _ d => [(0, d.desc)]
  | .put d route => if bitN route.toNat 34 then [(0, d.desc)] else []
  | .red _ d _ => [(0, d.desc)]
  | .root r => [(0, r.q.desc), (1, r.w.desc)]
  | _ => []

/-- Bytes that an element's encoding contributes. -/
def digestWidth (fmt : Nat) : Nat := if fmt = 0 then 4 else if fmt = 1 then 2 else 1

/-- The digest stream of destination number `n` (R395). -/
def digestStream (w : SMap Nat) (n : Nat) (d : Desc) : List Byte :=
  (w.filter fun p => p.1 / 2 ^ 96 = n).flatMap fun p =>
    natLe (if p.1 % 2 = 1 then 1 else digestWidth d.fmt) (p.2 - 1)

/-- The bytes that an entry contributes for each destination; `dead` is a skipped, stale or aborted entry. -/
def State.digestBytes (s : State) (e : Entry) (dead : Bool) : List (List Byte) :=
  match e.job with
  | .norm _ =>
    let n := (s.plane e.ctx).norm
    [if dead || e.errStatus ≠ 0 then [] else natLe 8 n.sum.toNat ++ natLe 8 n.kappa.toNat]
  | j => j.digestDests.map fun d => if dead then [] else digestStream e.wrote d.1 d.2

/-- The digests of a stream of bytes under a granularity of `size` bytes. -/
def cutDigests (size : Nat) (bs : List Byte) : List (BitVec 32) :=
  (List.range (ceilDiv bs.length size)).map fun i => crc32c ((bs.drop (size * i)).take size)

/-- The digests of an ENTRY record (R394). -/
def entryDigests (grain : Nat) (ds : List (List Byte)) : List (BitVec 32) :=
  match grain with
  | 0 => ds.map crc32c
  | 1 => ds.flatMap (cutDigests 65536)
  | 2 => ds.flatMap (cutDigests 4096)
  | _ => []

/-- Two digests in each word. -/
def digestWords (ds : List (BitVec 32)) : List Word := words64 ((ds.map fun d => natLe 4 d.toNat).flatten)

/-- Does a status make an entry contribute nothing (R395)? -/
def deadStatus (st : Nat) : Bool := decide (st = stSkipped ∨ st = stNormStale ∨ st = stAborted)

/-- Puts a digest behind those of smaller ISEQ. -/
def iseqInsert (x : Nat × BitVec 32) (l : List (Nat × BitVec 32)) : List (Nat × BitVec 32) :=
  match l with
  | [] => [x]
  | y :: r => if (w32 x.1 - w32 y.1).msb then x :: y :: r else y :: iseqInsert x r

/-- Keeps the grain-0 digests of an entry for the digest of its stream step under GRAIN 3: in the post of its step, or
in the step in progress. -/
def State.stepDigest (s : State) (e : Entry) (ds : List (BitVec 32)) : State :=
  let add (l : List (Nat × BitVec 32)) : List (Nat × BitVec 32) :=
    ds.foldl (fun l d => iseqInsert (e.iseq.toNat, d) l) l
  let is (p : Post) : Bool := p.step = e.step && p.stage = 0 && p.waiting.contains e.uid
  if (s.th e.stream).posts.any is then
    s.modTh e.stream fun x => { x with posts := updFirst is (fun p => { p with digs := add p.digs }) x.posts }
  else
    s.modPlane e.ctx fun p => { p with
      stepDigests := SMap.put p.stepDigests [] (Thread.num e.stream)
        (add (SMap.look p.stepDigests [] (Thread.num e.stream))) }

/-- Is the entry one of a tensor instruction, with an ISEQ of its own? -/
def Job.hasIseq (j : Job) : Bool :=
  match j with
  | .qsig _ => false
  | .rootPart _ => false
  | _ => true

/-- Digests that one ENTRY record can hold: NWORDS has 8 bits, and its first word is not a digest. -/
def entryRoom : Nat := 508

/-- The words of the ENTRY records of an entry behind their headers (R397): one record, or as many as its digests need
(log entry 61). -/
def entryWords (e : Entry) (status : Nat) (ds : List (BitVec 32)) : List (List Word) :=
  (List.range (max 1 (ceilDiv ds.length entryRoom))).map fun k =>
    w64 (e.iseq.toNat + (e.queue <<< 32) + (status <<< 36)) :: digestWords ((ds.drop (entryRoom * k)).take entryRoom)

/-- Writes the ENTRY records of an entry. -/
def State.journalEntry (s : State) (e : Entry) (status : Nat) : State :=
  match s.frameOf e.ctx with
  | none => s
  | some f =>
    if f.journal && e.job.hasIseq then
      let bs := s.digestBytes e (deadStatus status)
      let s := if f.grain = 3 then s.stepDigest e (bs.map crc32c) else s
      (entryWords e status (entryDigests f.grain bs)).foldl (fun s ws => s.journalStream e.ctx 2 e.stream e.step ws) s
    else s

end Sys2Proof.Machine
end

