-- ==== Sys2Proof/Machine/Replay.lean ====
section
/-! DEFINITION. Replay mode (spec/16 R400 to R402): reading a journal, sinking its inputs and remote signals, and
comparing digests and latch order. -/

namespace Sys2Proof.Machine

/-! ### Reading a journal (R397) -/

/-- A record of a journal. -/
structure JRec where
  type : Nat
  stream : Nat
  step : BitVec 32
  words : List Word
  deriving DecidableEq, Repr

/-- The records of a buffer from an offset on, `n` at most; a header of no type ends the journal. -/
def journalRecs (m : Mem) (size off n : Nat) : List JRec :=
  match n with
  | 0 => []
  | n + 1 =>
    let h := Mem.num m off 8
    let type := bitsN h 0 4
    let k := bitsN h 8 8
    if type = 0 || decide (5 < type) || decide (size < off + 8 + 8 * k) then []
    else
      { type := type, stream := bitsN h 4 2, step := w32 (bitsN h 32 32), words := words64 (Mem.bytes m (off + 8) (8 * k)) } ::
        journalRecs m size (off + 8 + 8 * k) n

/-- The records that the buffer of the replayed plane holds. -/
def State.rplRecs (s : State) : List JRec :=
  match s.rpl.plane with
  | none => []
  | some c =>
    match s.frameOf c with
    | some f => journalRecs s.rpl.buf (f.jSize * 4096) 0 (f.jSize * 512)
    | none => []

/-- Is it the STEP_OPEN record of a stream's step? -/
def JRec.opens (r : JRec) (t : Thread) (step : BitVec 32) : Bool :=
  decide (r.type = 1) && decide (r.stream = Thread.num t) && decide (r.step = step)

/-- Does a STEP_OPEN record carry the identity of a Frame? -/
def JRec.isOf (r : JRec) (f : FrameCfg) : Bool :=
  decide (r.words.getD 0 0 = w64 (f.ctxid.toNat + (f.serial.toNat <<< 32))) &&
  decide (bitsN (r.words.getD 1 0).toNat 0 32 = f.check.toNat)

/-- The RESULT that the journal's check gives: 1 running, 5 NO_CAPTURE, 6 BAD_JOURNAL (R400). -/
def journalCheck (rs : List JRec) (f : FrameCfg) (step : BitVec 32) : BitVec 3 :=
  let opens := (frameStreams f).map fun t => rs.find? fun r => r.opens t step
  if opens.any fun o => match o with
      | some r => !bitN (r.words.getD 1 0).toNat 63
      | none => false then 5
  else if opens.all fun o => match o with
      | some r => r.isOf f
      | none => false then 1
  else 6

/-- The records behind the last STEP_OPEN of the step. -/
def afterOpens (rs : List JRec) (step : BitVec 32) : List JRec :=
  match rs with
  | [] => []
  | _ :: rest => if rs.any fun q => decide (q.type = 1) && decide (q.step = step) then afterOpens rest step else rs

/-- What a replay works through: inputs, and latch events with their event count. -/
inductive RItem
  | input (r : JRec)
  | latch (count : Nat) (w : Word)
  deriving DecidableEq, Repr

/-- The items of records, in order. -/
def itemsOf (rs : List JRec) : List RItem :=
  rs.flatMap fun r =>
    if r.type = 4 then [RItem.input r]
    else if r.type = 3 then r.words.zipIdx.map fun w => RItem.latch (r.step.toNat + w.2) w.1
    else []

/-- The items of the step that is replayed. -/
def State.rplItems (s : State) : List RItem := itemsOf (afterOpens s.rplRecs s.rpl.armed)

/-! ### Inputs (R401) -/

/-- The payload of an INPUT record: the padding of its last word is what the payload digest leaves out. -/
def JRec.payload (r : JRec) : List Byte :=
  let bs := ((r.words.drop 5).map fun w => natLe 8 w.toNat).flatten
  let n := bs.length
  let ok (k : Nat) : Bool := decide (crc32c (bs.take (n - k)) = (r.words.getD 4 0).setWidth 32)
  match (List.range (min 8 (n + 1))).find? ok with
  | some k => bs.take (n - k)
  | none => bs

/-- The fetch that waits for data of a local handle. -/
def State.fetchFor (s : State) (c handle : Nat) : Option Entry :=
  s.eng.lanes.find? fun e =>
    decide (e.phase = .running) && decide (e.ctx = c) && decide (e.tagWait ≠ 0) &&
    match e.job with
    | .put loc route => bitN route.toNat 34 && decide (loc.handle = handle)
    | _ => false

/-- The packet of an INPUT record as the sinks take it, and the fetch it answers; none while the operation that it
belongs to has not started. A terminal packet counts as a WR packet, since its signal is a latch event of its own. -/
def State.rplPacket (s : State) (c : Nat) (r : JRec) : Option (Packet × Option Entry) :=
  let w (i : Nat) : Nat := (r.words.getD i 0).toNat
  let cls := bitsN (w 0) 16 3
  let handle := bitsN (w 2) 0 20
  let index := bitsN (w 2) 20 44
  let b := bitsN (w 3) 0 32
  let p := s.packet clsWr 0 s.door.node.toNat 0 (w32 (bitsN (w 1) 0 32)) (handle + (index <<< 20)) b r.payload
  let p := { p with src := BitVec.ofNat 16 (bitsN (w 0) 0 16) }
  match cls with
  | 0 =>
    match s.fetchFor c handle with
    | some e => some ({ p with cls := clsRsp, kind := 1, tag := 0xFFFF }, some e)
    | none => none
  | 2 =>
    match s.groupRec handle, s.door.reds.find? fun q => q.group = handle && q.opno = BitVec.ofNat 16 b with
    | some g, some q =>
      if q.ready then
        some ({ p with
          cls := clsRed, kind := BitVec.ofNat 4 (b >>> 16), h2 := w64 (g.gid.toNat + (q.elems <<< 32))
          h3 := w64 (index + (g.fmt <<< 44) + (q.opno.toNat <<< 48)) }, none)
      else none
    | _, _ => none
  | _ =>
    match s.dcFind c handle with
    | some e => some ({ p with h3 := w64 (b + (e.desc.fmt <<< 32)) }, none)
    | none => none

/-- The Doorway tag under which a replayed answer is sunk: one for its fetch, whose count of missing elements falls by
those of the answer. -/
def State.rplTag (s : State) (p : Packet) (e : Entry) : State :=
  let loc := match e.job with
    | .put o _ => some o.desc
    | _ => none
  let i := pktIndex p
  let n := match loc with
    | some d => (runCount d i p.payload.length).getD 1
    | none => 1
  let g : DoorTag := { tag := 0xFFFF, link := 6, uid := e.uid, index := i, bytes := p.payload.length }
  let s := { s with door := { s.door with tags := s.door.tags ++ [g] } }
  s.modEntry e.uid fun e => { e with tagWait := e.tagWait + 1 - n }

/-- Asks for the descriptor of a WR input that is not cached. -/
def State.rplFill (s : State) (c : Nat) (r : JRec) : State :=
  let cls := bitsN (r.words.getD 0 0).toNat 16 3
  let h := bitsN (r.words.getD 2 0).toNat 0 20
  if cls = 0 || cls = 2 || decide (s.descCount c ≤ h) || (s.dcFind c h).isSome then s else s.fillAsk c h

/-! ### Latch order -/

/-- A latch word without its bank. -/
def latchKey (w : Word) : Nat := w.toNat - (bitsN w.toNat 6 1 <<< 6)

/-- The digest words of the ENTRY records of an instruction, with the position of the first. -/
def State.rplEntry (s : State) (t : Thread) (iseq : BitVec 32) : Option (List Word × Nat) :=
  let rs := (s.rplRecs.zipIdx).filter fun r =>
    decide (r.1.type = 2) && decide (r.1.stream = Thread.num t) && decide (r.1.step = s.rpl.armed) &&
    decide (bitsN (r.1.words.getD 0 0).toNat 0 32 = iseq.toNat)
  rs.head?.map fun r => ((rs.map fun r => r.1.words.drop 1).flatten, r.2)

/-- The STEP_CLOSE record of a stream's step, with its position. -/
def State.rplClose (s : State) (t : Thread) : Option (JRec × Nat) :=
  (s.rplRecs.zipIdx).find? fun r =>
    decide (r.1.type = 5) && decide (r.1.stream = Thread.num t) && decide (r.1.step = s.rpl.armed)

/-- The journal position of a difference: that of its ENTRY record, or under GRAIN 3 of the STEP_CLOSE. -/
def State.diffPos (s : State) (d : Thread × Nat × BitVec 32) : Nat :=
  match s.rplEntry d.1 d.2.2 with
  | some r => r.2
  | none => match s.rplClose d.1 with
    | some r => r.2
    | none => 0

/-- Of the first differences of the streams, the one with the lowest journal position (R402). -/
def State.firstDivergence (s : State) : Option (Thread × Nat × BitVec 32) :=
  s.rpl.digestDiff.foldl (fun b d => match b with
    | none => some d
    | some x => if s.diffPos d < s.diffPos x then some d else b) none

/-- Posts RESULT; the first one ends the operation (18 R429). -/
def State.rplPost (s : State) (r : Replay) : State :=
  let t := { s with rpl := r }
  if s.rpl.result = 1 then t.goCleared .replay else t

/-- The RESULT of a replay as far as it is known, in the precedence of R402. -/
def State.rplReport (s : State) : State :=
  let r := s.rpl
  match s.firstDivergence with
  | some d => s.rplPost { r with
      result := 3, stream := BitVec.ofNat 2 (Thread.num d.1), index := BitVec.ofNat 11 d.2.1, whereField := d.2.2 }
  | none =>
    match r.latchDiff with
    | some n => s.rplPost { r with result := 4, whereField := w32 n }
    | none => s

/-- Notes a digest that differs: of each stream the one of the lowest ISEQ stays (R402). -/
def State.rplDiffer (s : State) (t : Thread) (i : Nat) (iseq : BitVec 32) : State :=
  let l := s.rpl.digestDiff
  let l := match l.find? fun d => d.1 = t with
    | none => l ++ [(t, i, iseq)]
    | some d => if (iseq - d.2.2).msb then (l.filter fun d => d.1 ≠ t) ++ [(t, i, iseq)] else l
  { s with rpl := { s.rpl with digestDiff := l } }.rplReport

/-- Compares the replay's own next latch event with the journal's. -/
def State.rplCompare (s : State) (c count : Nat) (w : Word) : State :=
  let mine := (s.plane c).jLatch.getD s.rpl.latchSeen 0
  let s := { s with rpl := { s.rpl with inputPos := s.rpl.inputPos + 1, latchSeen := s.rpl.latchSeen + 1 } }
  if latchKey mine = latchKey w || s.rpl.latchDiff.isSome then s
  else { s with rpl := { s.rpl with latchDiff := some count } }.rplReport

/-- Passes an item: a remote signal that overflowed is no event. -/
def State.rplSkip (s : State) : State := { s with rpl := { s.rpl with inputPos := s.rpl.inputPos + 1 } }

/-- Passes a latch event of the journal: a remote signal is applied, a local event waits until the replay's own has
occurred (R401); none while it has not. -/
def State.rplLatch (s : State) (c count : Nat) (w : Word) : Option State :=
  let due (s : State) : Bool := decide ((s.plane c).jLatch.length ≤ s.rpl.latchSeen)
  if decide (bitsN w.toNat 7 3 = 3) && due s then
    let s := s.latchSignal c (bitsN w.toNat 0 6)
      { kind := 3, thread := .F, queue := 0, pc := 0, iseq := 0, link := bitsN w.toNat 12 3 }
    some (if due s then s.rplSkip else s.rplCompare c count w)
  else if due s then none
  else some (s.rplCompare c count w)

/-- Passes the latch events that come next in the journal, `n` at most. -/
def State.rplSignals (s : State) (c : Nat) (items : List RItem) (n : Nat) : State :=
  match n with
  | 0 => s
  | n + 1 =>
    match items[s.rpl.inputPos]? with
    | some (.latch count w) =>
      match s.rplLatch c count w with
      | some s => s.rplSignals c items n
      | none => s
    | _ => s

/-- Before a local latch event a replay applies every remote signal that the journal places ahead of it (R401). -/
def State.signalsAhead (s : State) : State :=
  match s.rpl.active, s.rpl.plane with
  | true, some c =>
    let items := s.rplItems
    s.rplSignals c items (items.length + 1)
  | _, _ => s

/-- Works through the journal's items, `n` at most, as far as the replay has come: inputs and remote signals are
applied in order; a local latch event waits until the replay's own occurs (R401). -/
def State.rplRun (s : State) (c : Nat) (items : List RItem) (n : Nat) : State :=
  match n with
  | 0 => s
  | n + 1 =>
    if !s.door.sinks.isEmpty then s
    else match items[s.rpl.inputPos]? with
      | none => s
      | some (.input r) =>
        match s.rplPacket c r with
        | none => s.rplFill c r
        | some (p, e) =>
          let s := match e with
            | some e => s.rplTag p e
            | none => s
          let s := { s with rpl := { s.rpl with inputPos := s.rpl.inputPos + 1 } }
          ((s.sinkAdd 0 p 0 none).sinksGo).rplRun c items n
      | some (.latch count w) =>
        match s.rplLatch c count w with
        | some s => s.rplRun c items n
        | none => s

/-- Has every stream reached its stop, with its work done? -/
def State.rplDone (s : State) (c : Nat) : Bool :=
  match s.frameOf c with
  | none => false
  | some f => (frameStreams f).all fun t =>
      s.rpl.stopped.contains t && !(s.eng.lanes.any fun e => decide (e.stream = t))

/-- Under GRAIN 3 the digest of each stream's step is compared when the replay is done: a difference is reported with the
step's last ISEQ and index 0 (log entry 8). -/
def State.rplSteps (s : State) (c : Nat) : State :=
  match s.frameOf c with
  | none => s
  | some f =>
    if f.grain ≠ 3 then s
    else (frameStreams f).foldl (fun s t =>
      let own := gatherDigest (SMap.look (s.plane c).stepDigests [] (Thread.num t))
      match s.rplClose t with
      | some r => if (r.1.words.getD 3 0).setWidth 32 = own then s
        else s.rplDiffer t 0 ((r.1.words.getD 2 0).setWidth 32)
      | none => s) s

/-- Moves the replay on (R401, R402); nothing outside replay. -/
def State.replayGo (s : State) : State :=
  if s.rpl.active then
    match s.rpl.plane with
    | some c =>
      let items := s.rplItems
      let s := s.rplRun c items (items.length + 1)
      if s.rplDone c then
        let s := s.rplSteps c
        if s.rpl.result = 1 then s.rplPost { s.rpl with result := 2 } else s
      else s
    | none => s
  else s

/-! ### Digests (R402) -/

/-- The first differing digest of two lists of words. -/
def firstDiff (a b : List Word) : Option Nat :=
  let d (l : List Word) (i : Nat) : Nat := bitsN (l.getD (i / 2) 0).toNat (32 * (i % 2)) 32
  (List.range (2 * max a.length b.length)).find? fun i => d a i ≠ d b i

/-- Compares the digests of a completing entry with the journal's (R402). -/
def State.rplDigest (s : State) (e : Entry) (status : Nat) : State :=
  if !(s.rpl.active && decide (s.rpl.plane = some e.ctx) && e.job.hasIseq && decide (e.step = s.rpl.armed)) then s
  else match s.frameOf e.ctx, s.rplEntry e.stream e.iseq with
    | some f, some (old, _) =>
      let ws := ((entryWords e status (entryDigests f.grain (s.digestBytes e (deadStatus status)))).map fun r => r.drop 1).flatten
      match firstDiff ws old with
      | none => s
      | some i => s.rplDiffer e.stream i e.iseq
    | _, _ => s

/-! ### Arming (R400) -/

/-- The staged plane, the lower one of two. -/
def State.stagedPlane (s : State) : Option Nat :=
  if s.frame.plane0.state = .staged then some 0 else if s.frame.plane1.state = .staged then some 1 else none

/-- Is a replay being armed or run? -/
def State.rplBusy (s : State) : Bool :=
  decide (s.rpl.readsOut ≠ 0) || (s.rpl.active && decide (s.rpl.result = 1))

/-- The journal has been read: its check. -/
def State.rplChecked (s : State) : State :=
  match s.rpl.plane with
  | none => s
  | some c =>
    match s.frameOf c with
    | none => s
    | some f =>
      let r := if s.rpl.bufErr then 6 else journalCheck s.rplRecs f s.rpl.armed
      let s := { s with rpl := { s.rpl with result := r, plane := if r = 1 then some c else none } }
      if r = 1 then s else s.goCleared .replay

/-- A write of RPL_CTL (R408): STEP, and with GO the reads of the journal. -/
def State.replayArm (s : State) (step : BitVec 32) (go : Bool) : State :=
  let s := { s with rpl := { s.rpl with step := step } }
  if !go || s.goIgnored .replay then s
  else if s.rplBusy then s.goRefused .replay
  else match s.stagedPlane with
    | none => { s with rpl := { s.rpl with ctlErr := true } }
    | some c =>
      let size := match s.frameOf c with
        | some f => f.jSize * 4096
        | none => 0
      let rs := readRange (.replay s.rpl.addr.toNat) .journal s.rpl.addr.toNat size
      let s := { s with rpl := { s.rpl with
        armed := step, plane := some c, active := false, buf := [], readsOut := rs.length, bufErr := false, stopped := []
        latchSeen := 0, latchDiff := none, digestDiff := [], inputPos := 0, result := 0, stream := 0, index := 0
        whereField := 0 } }
      if rs.isEmpty then s.rplChecked else s.jambAdd rs

/-- Memory has answered a read of the journal at `base`. -/
def State.replayGot (s : State) (base : Nat) (bs : List Host.Cell) (ok : Bool) : State :=
  let s := { s with rpl := { s.rpl with
    readsOut := s.rpl.readsOut - 1, bufErr := s.rpl.bufErr || !ok
    buf := bs.foldl (fun m c => if base ≤ c.1 then SMap.put m 0 (c.1 - base) c.2 else m) s.rpl.buf } }
  if s.rpl.readsOut = 0 then s.rplChecked else s

/-- Sets OPNO of each group to the number before the first that the journal names, so that the replay's operations
meet their inputs. -/
def State.rplOpnos (s : State) : State :=
  let firsts := (s.rplItems.filterMap fun i => match i with
    | .input r =>
      if bitsN (r.words.getD 0 0).toNat 16 3 = 2 then
        some (bitsN (r.words.getD 2 0).toNat 0 20, BitVec.ofNat 16 (r.words.getD 3 0).toNat)
      else none
    | .latch _ _ => none).reverse
  firsts.foldl (fun s f =>
    { s with door := { s.door with opnos := SMap.put s.door.opnos 0 f.1 (f.2 - 1) } }) s

/-- The effect point of a commit begins the replay of the armed plane. -/
def State.replayBegin (s : State) (c : Nat) : State :=
  if decide (s.rpl.plane = some c) && decide (s.rpl.result = 1) then
    ({ s with rpl := { s.rpl with active := true } }).rplOpnos
  else s

end Sys2Proof.Machine
end

