-- ==== Sys2Proof/Machine/Completion.lean ====
section
/-! DEFINITION. The completion of entries in lane order (spec/09 R219; spec/10 R234, R235; spec/07 R155; spec/03 R72). -/

namespace Sys2Proof.Machine

/-! ### Louvre commits (07 R154 to R156, 03 R72) -/

/-- Counts what a commit did (07 R165). -/
def State.commitCount (s : State) (i : PushInfo) : State :=
  s.modCr fun r => { r with
    lvCommits := r.lvCommits + 1
    lvRebases := if i.rebased then r.lvRebases + 1 else r.lvRebases
    lvNfPush := if i.nf then satInc 16 r.lvNfPush else r.lvNfPush
    lvNfPend := r.lvNfPend || i.nf }

/-- One commit to a cached entry; the entry is dirty when the commit changed it. -/
def State.commit1 (s : State) (c : Commit) (d : DcEntry) : State :=
  let r := lvCommit d.desc c.code (c.step.toNat % 256)
  let s := if r.1 = d.desc then s else s.dcUpdate c.ctx c.handle r.1
  s.commitCount r.2

/-- Makes commits in order; one whose entry is not cached asks for a fill and stays. Answers what stays. A commit reads its
entry, which becomes the most recent and whose SECDED is checked (03 R71). -/
def State.commitRun (s : State) (cs : List Commit) : State × List Commit :=
  match cs with
  | [] => (s, [])
  | c :: r =>
    if c.code = 0 then s.commitRun r
    else
      let q := s.dcRead c.ctx c.handle
      match q.2 with
      | some d => (q.1.commit1 c d).commitRun r
      | none => (q.1.fillAsk c.ctx c.handle, c :: r)

/-- The commits of an entry, the drain Louvre's first (R155). Answers whether all are made. -/
def State.commits (s : State) (uid : Nat) : State × Bool :=
  match s.entry uid with
  | none => (s, true)
  | some e =>
    let cs := (e.commits.filter fun c => c.drain) ++ e.commits.filter fun c => !c.drain
    let r := s.commitRun (if e.aborted then [] else cs)
    (r.1.modEntry uid fun e => { e with commits := r.2 }, r.2.isEmpty)

/-- Commits of a handle that wait for its fill (03 R59, R72). -/
def State.commitsWaiting (s : State) (ctx h : Nat) : Nat :=
  ((s.eng.lanes.filter fun e => decide (e.phase = .finished)).flatMap fun e =>
    e.commits.filter fun c => decide (c.ctx = ctx) && decide (c.handle = h)).length

/-- A fill for a commit failed a check: the commit is lost (03 R72). -/
def State.commitLost (s : State) (ctx h : Nat) : State :=
  let upd (e : Entry) : Entry :=
    if e.phase = .finished then { e with commits := e.commits.filter fun c => !(c.ctx = ctx && c.handle = h) } else e
  { s with eng := { s.eng with lanes := s.eng.lanes.map upd } }

/-! ### Status, latch and error record (09 R219) -/

/-- The status that an entry completes with. -/
def Entry.finalStatus (e : Entry) : Nat :=
  if e.aborted then stAborted else if e.errStatus ≠ 0 then e.errStatus else e.status

/-- QERR after one more status: [7:0] STATUS, [39:8] ISEQ, [55:40] COUNT, [63] PEND. -/
def qerrWord (old : Word) (status : Nat) (iseq : BitVec 32) : Word :=
  w64 (status % 256 + (iseq.toNat <<< 8) + (satInc 16 (bitsN old.toNat 40 16) <<< 40) + 2 ^ 63)

/-- Posts a status that is not OK to QERR of its thread and queue; one of the fault class raises COMPLETION_FAULT. Its EXC1
is 0: no instruction raises it when it is recorded (R223, as 11 R255 has it for a completion; DEDUCED, log entry 41). -/
def State.postStatus (s : State) (e : Entry) (status : Nat) : State :=
  if status = 0 then s
  else
    let s := s.modTh e.stream fun x => { x with
      qerr := SMap.put x.qerr 0 e.queue (qerrWord (SMap.look x.qerr 0 e.queue) status e.iseq) }
    if isFaultClass status then
      s.excPush { cause := 0x10, thread := Thread.num e.stream, ctx := e.ctx, status := status, queue := e.queue,
                  bel := false, pc := 0, info := e.iseq.zeroExtend 64 }
    else s

/-- The signals of a completion, whatever its status: the LAT latch, and the latch of a QSIG (09 R219, 11 R253). -/
def State.completionSignal (s : State) (e : Entry) : State :=
  let src (kind : Nat) : SigSrc :=
    { kind := kind, thread := e.stream, queue := e.queue, pc := 0, iseq := e.iseq, link := 0 }
  let s := match e.latch with
    | some k => s.latchSignal e.ctx k (src 0)
    | none => s
  match e.job with
  | .qsig k => s.latchSignal e.ctx k (src 1)
  | _ => s

/-- The effect of an UPD.ADV (08 R177). -/
def State.advEffect (s : State) (e : Entry) : State :=
  match e.job with
  | .adv g =>
    if e.aborted then s
    else
      let x := s.groupState e.ctx g
      s.setGroup e.ctx g { x with step := x.step + 1 }
  | _ => s

/-- The counts of UPD_STAT of a context slot (08 R192). -/
def State.updStat (s : State) (ctx : Nat) : UpdStat := SMap.look s.cr.upd UpdStat.init ctx

/-- Counts the completion of an update unit. -/
def UpdStat.applied (u : UpdStat) (status : Nat) : UpdStat :=
  { u with
    applies := if status = 0 then u.applies + 1 else u.applies
    skips := if status = stSkipped || status = stNormStale then u.skips + 1 else u.skips }

/-- Counts the completion of a root computation. -/
def UpdStat.rooted (u : UpdStat) (status : Nat) : UpdStat :=
  { u with
    roots := if status = 0 then u.roots + 1 else u.roots
    rootFails := if status = stRootFail then u.rootFails + 1 else u.rootFails }

/-- The counts of SILL_STAT, which stand while the Sill is dark (15 R359), and of the UPD_STAT of the entry's context. -/
def State.completionCount (s : State) (e : Entry) (status : Nat) : State :=
  let upd (g : UpdStat → Nat → UpdStat) : State := s.modCr fun r => { r with
    upd := SMap.put r.upd UpdStat.init e.ctx (g (s.updStat e.ctx) status) }
  match e.job with
  | .spill _ _ _ => if s.sillDark then s else s.modEr fun r => { r with spills := r.spills + 1 }
  | .drain _ _ _ => if s.sillDark then s else s.modEr fun r => { r with drains := r.drains + 1 }
  | .casement u => if u.group.isSome then upd UpdStat.applied else s
  | .near _ => upd UpdStat.applied
  | .root _ => upd UpdStat.rooted
  | _ => s

/-- The tensors of a job. -/
def Job.tensors (j : Job) : List Opnd :=
  match j with
  | .lattice a b c _ _ _ => [a, b, c]
  | .casement u => u.body.filterMap fun o => o.opnd
  | .near u => u.body.filterMap fun o => o.opnd
  | .transom _ a d => [a, d]
  | .spill a d _ => [a, d]
  | .drain a d _ => [a, d]
  | .copy a d => [a, d]
  | .ssq a _ => [a]
  | .put o _ => [o]
  | .red a d _ => [a, d]
  | .root r => [r.s, r.q, r.w]
  | _ => []

/-- Notes the tensors of a completing entry as those that it used last (16 R389): of each the newest use stays. -/
def State.usesNoted (s : State) (e : Entry) : State :=
  let os := e.job.tensors
  let old := s.int.uses.filter fun u => !(os.any fun o => decide (o.ctx = u.opnd.ctx) && decide (o.handle = u.opnd.handle))
  { s with int := { s.int with
    uses := (os.map fun o => { opnd := o, stream := Thread.num e.stream, iseq := e.iseq : LastUse }) ++ old } }

/-- Notes the completion of an entry that an abort named (10 R249). -/
def State.abortNote (s : State) (e : Entry) : State :=
  if s.cr.abNamed.contains e.uid then
    let s := s.modCr fun r => { r with
      abNamed := r.abNamed.filter fun u => u ≠ e.uid
      abCount := if e.aborted then (r.abCount + 1) % 2 ^ 14 else r.abCount }
    if s.cr.abNamed.isEmpty then s.goCleared .abort else s
  else s

/-- Releases the queues that the entry's fault stopped (16 R390). -/
def State.faultReleased (s : State) (e : Entry) : State :=
  if isFaultClass e.errStatus then
    let s := s.queueRelease e.queue
    if e.queue < 8 && decide (e.errStatus = stLatticeFault) then
      ((List.range 8).filter fun p => (s.partLats p).any fun l => (s.partLats e.queue).contains l).foldl
        State.queueRelease s
    else s
  else s

/-! ### COMPLETION -/

/-- The completion of a lane's head that has made its commits. -/
def State.completeNow (s : State) (e : Entry) : State :=
  let st := e.finalStatus
  let s := (s.advEffect e).signalsAhead.completionSignal e
  let s := (s.postStatus e st).completionCount e st
  let s := (((s.rplDigest e st).journalEntry e st).postCount e st).usesNoted e
  let s := { s with eng := { s.eng with lanes := s.eng.lanes.filter fun x => x.uid ≠ e.uid } }
  (((s.abortNote e).faultReleased e).postsGo e.stream).replayGo

/-- The norm state of an UPD.NORM that completes, or the end of its reduction (08 R182, R183). -/
def State.normComplete (s : State) (e : Entry) : State :=
  match e.job with
  | .norm _ =>
    if e.errStatus = 0 && !e.aborted then s.normSet e
    else { s with door := { s.door with reds := s.door.reds.filter fun r => r.uid ≠ e.uid } }
  | _ => s

/-- Ends what only waits for its completion: a skipped update, a transfer whose packets or requests were withdrawn, a
reduction that has failed. -/
def State.completePrepare (s : State) (e : Entry) : State :=
  let s := if s.eng.skipHold.any fun h => h.1 = e.uid then
      ({ s with eng := { s.eng with skipHold := s.eng.skipHold.filter fun h => h.1 ≠ e.uid } }).entryDone e.uid
    else s
  let s := if e.errStatus ≠ 0 && (s.redOf e.uid).isSome && decide (e.phase = .running) then
      s.redFail e.uid e.errStatus
    else s
  s.entrySettle e.uid

/-- May the head of a lane complete: it has finished, or it takes effect in no time (R234)? -/
def Entry.mayComplete (e : Entry) : Bool := decide (e.phase = .finished) || e.job.zeroTime

/-- COMPLETION (09 R219): the head of a lane completes. -/
def execCompletion (q : Fin 11) (t : Thread) (s : State) : Result :=
  .next (match (s.lane q t).head? with
    | none => s
    | some e =>
      let s := s.completePrepare e
      match s.entry e.uid with
      | none => s
      | some e =>
        if e.mayComplete then
          let r := s.commits e.uid
          if r.2 then
            let s := r.1.normComplete e
            match s.entry e.uid with
            | some e => s.completeNow e
            | none => s
          else r.1
        else s)

end Sys2Proof.Machine
end

