-- ==== Sys2Proof/Machine/Abort.lean ====
section
/-! DEFINITION. Aborts through STRM_ABORT and their cut points (spec/10 R247 to R249). -/

namespace Sys2Proof.Machine

/-! ### What an abort finds (R247) -/

/-- Has a transfer's entry a request or a packet left: one that is not formed, not issued, or not sent? -/
def State.requestLeft (s : State) (e : Entry) : Bool :=
  !e.formed || s.ownWaiting e.uid || s.jamb.reqs.any fun r => decide (r.owner = .entry e.uid)

/-- Has a started entry work left after its next cut point? -/
def State.workLeft (s : State) (e : Entry) : Bool :=
  match e.job with
  | .lattice _ _ _ _ _ _ =>
    match (s.runs e.queue).find? fun r => r.1.uid = e.uid with
    | some (r, x) => decide (s.passesBegun r x < s.passes x)
    | none => false
  | .casement u =>
    match s.eng.cas with
    | some r => decide (r.uid = e.uid) && u.domain.isSome && decide (2 * (r.iter / 2) + 2 < u.iters)
    | none => false
  | .transom _ _ d => !e.formed && decide (trnBuffer < moveBytes d.desc)
  | .root _ => true
  | .rootPart _ => true
  | _ => s.requestLeft e && !(s.eng.skipHold.any fun h => h.1 = e.uid)

/-- The entry that an UPD.ROOT's place in its partition's lane stands for is the UPD.ROOT itself. -/
def State.abortTarget (s : State) (e : Entry) : Entry :=
  match e.job with
  | .rootPart _ => (s.entry (e.uid - 1)).getD e
  | _ => e

/-- The outcomes for a named entry. -/
def State.willAbort (s : State) (e : Entry) : Bool :=
  match e.phase with
  | .queued => true
  | .running => s.workLeft e
  | .finished => false

/-- The entries that the written STRM_ABORT names, without repeats. -/
def State.abortNames (s : State) : List Entry :=
  let r := s.cr
  let t := threadOf r.abStream.toNat
  let q := r.abQueue.toNat
  let l := s.eng.lanes.filter fun e =>
    decide (e.stream = t) && (decide (q = 15) || decide (e.queue = q)) &&
    (r.abMode || (decide (e.iseq = r.abIseq) && e.job.hasIseq) || (decide (e.iseq = r.abIseq) &&
      match e.job with
      | .rootPart _ => true
      | _ => false))
  (l.map s.abortTarget).foldl (fun l e => if l.any fun x => x.uid = e.uid then l else l ++ [e]) []

/-- Is the ISEQ within 2^31 before the thread's ISEQ count? -/
def State.iseqPast (s : State) (t : Thread) (iseq : BitVec 32) : Bool :=
  let d := ((s.th t).iseq - iseq).toNat
  decide (0 < d) && decide (d ≤ 2 ^ 31)

/-! ### CUT_POINT -/

/-- Withdraws the requests of an entry that have not been issued, with the tags that they hold. -/
def State.dropReqs (s : State) (e : Entry) : State :=
  let mine (r : JReq) : Bool := decide (r.owner = .entry e.uid)
  let gone := s.jamb.reqs.filter mine
  let tags := gone.filterMap (fun r => r.keep) ++ e.kept.map fun k => k.2
  let s := { s with jamb := { s.jamb with
    reqs := s.jamb.reqs.filter (fun r => !mine r), heldTags := s.jamb.heldTags.filter fun t => !tags.contains t } }
  s.modEntry e.uid fun e => { e with
    rdWait := e.rdWait - (gone.filter fun r => !r.write).length
    wrWait := e.wrWait - (gone.filter fun r => r.write).length, kept := [], out := [] }

/-- Has the running unit of an aborted loop reached the end of a pair of iterations? -/
def State.pairEnd (s : State) (e : Entry) : Bool :=
  match s.eng.cas with
  | some r => decide (r.uid = e.uid) && decide (r.pos = 0) && decide (r.iter % 2 = 0)
  | none => false

/-- Stops a transfer: what is not issued or sent is withdrawn, and the entry ends when the rest has been answered. -/
def State.cutTransfer (s : State) (e : Entry) : State :=
  let s := (s.dropReqs e).unsend e.uid
  let s := { s with door := { s.door with reds := s.door.reds.filter fun r => r.uid ≠ e.uid } }
  let s := s.modEntry e.uid fun e => { e with formed := true }
  (s.engineOpen e.queue e.uid).entrySettle e.uid

/-- Has an aborted product reached the start of its next pass? -/
def State.cutReady (s : State) (e : Entry) : Bool :=
  match (s.runs e.queue).find? fun r => r.1.uid = e.uid with
  | some (r, x) => s.atPass r x
  | none => true

/-- Ends an aborted entry at its cut point. -/
def State.cutEntry (s : State) (e : Entry) : State :=
  match e.job with
  | .lattice _ _ c _ _ _ =>
    let drained := s.eng.lats.any fun r => r.uid = e.uid && !r.drained.isEmpty
    if s.cutReady e then (if drained then s.freeFootprint c.desc else s).runEnd e.uid else s
  | .casement _ =>
    if s.pairEnd e then ({ s with eng := { s.eng with cas := none } }).entryEnd e.uid else s
  | .transom tr a d =>
    if e.rdWait ≠ 0 then s
    else if e.formed then s.transomEnd e.uid
    else s.transomCut e tr a d
  | .root _ =>
    let part := (s.eng.roots.find? fun r => r.uid = e.uid).map fun r => r.partUid
    let s := { s with eng := { s.eng with roots := s.eng.roots.filter fun r => r.uid ≠ e.uid } }
    let s := match part with
      | some p => s.dropEntry p
      | none => s
    s.entryEnd e.uid
  | _ => s.cutTransfer e

/-- Aborts one named entry as R247 says: one that has not started leaves the lane at its completion; a started one stops
at its cut point, which for a transfer is its next request: none is issued, and no packet sent, from now on. -/
def State.abortOne (s : State) (e : Entry) : State :=
  if !s.willAbort e then s
  else
    let s := s.modEntry e.uid fun e => { e with aborted := true }
    match e.phase, e.job with
    | .queued, .root r =>
      let s := if r.due then s.dropEntry (e.uid + 1) else s
      s.modEntry e.uid fun e => { e with phase := .finished }
    | .queued, _ => s.modEntry e.uid fun e => { e with phase := .finished }
    | _, .lattice _ _ _ _ _ _ => s
    | _, .casement _ => s
    | _, .transom _ _ _ => s
    | _, .root _ => s
    | _, .rootPart _ => s
    | _, _ => s.cutTransfer e

/-- A write of GO (R247, R249). -/
def State.abortGo (s : State) : State :=
  let r := s.cr
  let t := threadOf r.abStream.toNat
  let q := r.abQueue.toNat
  let bad := (decide (11 ≤ q) && decide (q ≤ 14)) || (decide (q = 15) && !r.abMode)
  let es := s.abortNames
  if s.goIgnored .abort then s
  else if !r.abNamed.isEmpty && !bad then s.goRefused .abort
  else if bad || (!r.abMode && es.isEmpty && !s.iseqPast t r.abIseq) then s.modCr fun r => { r with abErr := true }
  else
    let any := es.any s.willAbort
    let res := if any then stAborted else if r.abMode then stOk else stAlreadyComplete
    let s := s.modCr fun r => { r with
      abNamed := es.map fun e => e.uid, abCount := 0, abResult := BitVec.ofNat 8 res }
    es.foldl State.abortOne s

/-- CUT_POINT: the aborted entry that runs for the stream in the queue reaches its cut point (R247, R248). -/
def execCutPoint (q : Fin 11) (t : Thread) (s : State) : Result :=
  .next (match (s.lane q t).find? fun e => e.aborted && decide (e.phase = .running) with
    | some e => s.cutEntry e
    | none => s)

end Sys2Proof.Machine
end

