-- ==== Sys2Proof/Machine/FrameParse.lean ====
section
/-! DEFINITION. The Frame bitstream: its layout and the checks of staging (spec/12 R265 to R278, R433; spec/08 R166 to
R170; spec/10 R236, R237; spec/13 R303 to R307; spec/15 R370). -/

namespace Sys2Proof.Machine

/-! ### Reading a Frame (R265, R267) -/

/-- A little-endian number of `n` bytes at an offset. -/
def numAt (bs : List Byte) (off n : Nat) : Nat := leNat ((bs.drop off).take n)

/-- A section: TYPE, the offset of its header and LEN. -/
structure Sect where
  type : Nat
  off : Nat
  len : Nat
  deriving DecidableEq, Repr

/-- The section whose header is at an offset. -/
def sectAt (bs : List Byte) (off : Nat) : Sect :=
  let h := numAt bs off 8
  { type := bitsN h 0 8, off := off, len := bitsN h 16 24 }

/-- The `n` sections from an offset on. -/
def sectsFrom (bs : List Byte) (off n : Nat) : List Sect :=
  match n with
  | 0 => []
  | n + 1 =>
    let s := sectAt bs off
    s :: sectsFrom bs (off + 8 + s.len) n

/-- The sections of a Frame. -/
def frameSects (bs : List Byte) : List Sect := sectsFrom bs 64 (numAt bs 24 2)

/-- The body of a section. -/
def Sect.body (s : Sect) (bs : List Byte) : List Byte := (bs.drop (s.off + 8)).take s.len

/-- Its 64-bit words. -/
def wordsOf (bs : List Byte) : List Nat := (words64 bs).map fun w => w.toNat

/-- A section by its TYPE. -/
def findSect (ss : List Sect) (t : Nat) : Option Sect := ss.find? fun s => s.type = t

/-- The words of a section's body; none when it is absent. -/
def sectWords (bs : List Byte) (ss : List Sect) (t : Nat) : List Nat :=
  match findSect ss t with
  | some s => wordsOf (s.body bs)
  | none => []

/-- A condition of staging: does it fail, the RESULT, and WHERE. -/
abbrev Fail := Bool × Nat × Nat

/-- The first condition that fails (R278). -/
def firstFail (l : List Fail) : Option (Nat × Nat) := (l.find? fun f => f.1).map fun f => f.2

/-! ### RESULT (R278) -/

def frPlaneBusy : Nat := 0x01
def frBadLength : Nat := 0x02
def frMemory : Nat := 0x03
def frMagic : Nat := 0x04
def frCrc : Nat := 0x05
def frGen : Nat := 0x06
def frVersion : Nat := 0x07
def frGrade : Nat := 0x08
def frIdInUse : Nat := 0x09
def frSection : Nat := 0x0A
def frField : Nat := 0x0B
def frContext : Nat := 0x0C
def frPartition : Nat := 0x0D
def frRegion : Nat := 0x0E
def frMullion : Nat := 0x0F
def frFault : Nat := 0x10
def frDoorway : Nat := 0x11
def frClock : Nat := 0x12
def frUpdate : Nat := 0x13
def frReplay : Nat := 0x14
def frTracker : Nat := 0x15

/-! ### Row 11: sections (R267, R268, R433, R276) -/

/-- Does LEN break the part of R433 that row 11 checks? -/
def lenBad (t len : Nat) : Bool :=
  match t with
  | 1 => decide (len ≠ 72)
  | 2 => decide (len ≠ 8)
  | 3 => decide (len < 8)
  | 4 => decide (len % 40 ≠ 0)
  | 5 => decide (len ≠ 96)
  | 6 => decide (len ≠ 8)
  | 7 => decide (len < 200)
  | 8 => decide (len ≠ 8)
  | 9 => decide (len < 32)
  | 10 => decide (len ≠ 32)
  | _ => decide (len ≠ 8)

/-- Does a section's own header fail row 11, with the TYPE before it? -/
def sectBad (bs : List Byte) (total fgen prev : Nat) (s : Sect) : Bool :=
  let h := numAt bs s.off 8
  decide (total < s.off + 8) || decide (bitsN h 8 8 ≠ 0) || decide (bitsN h 40 24 ≠ 0) ||
  decide (s.type ≤ prev) || decide (11 < s.type) || decide (s.len % 8 ≠ 0) || decide (total < s.off + 8 + s.len) ||
  lenBad s.type s.len || (decide (fgen = 2) && decide (s.type = 11))

/-- The header of the first section that fails, or of the last when its body does not end at TOTAL_LEN. -/
def sectsBad (bs : List Byte) (total fgen prev : Nat) (ss : List Sect) : Option Nat :=
  match ss with
  | [] => none
  | s :: r =>
    if sectBad bs total fgen prev s then some s.off
    else if r.isEmpty && decide (s.off + 8 + s.len ≠ total) then some s.off
    else sectsBad bs total fgen s.type r

/-- The required sections. -/
def requiredSects : List Nat := [1, 2, 3, 5, 10]

/-- WHERE of an absent section: the first section of higher TYPE, or the last section. -/
def absentAt (ss : List Sect) (t : Nat) : Nat :=
  match ss.find? fun s => decide (t < s.type) with
  | some s => s.off
  | none => match ss.getLast? with
    | some s => s.off
    | none => 64

/-- Row 11. -/
def row11 (bs : List Byte) (total fgen : Nat) : Option Nat :=
  let n := numAt bs 24 2
  if n = 0 || decide (11 < n) then some 24
  else
    let ss := frameSects bs
    match sectsBad bs total fgen 0 ss with
    | some w => some w
    | none => (requiredSects.find? fun t => (findSect ss t).isNone).map (absentAt ss)

/-! ### Rows 12 and 13 by section

Each list gives the reserved fields of row 12 and then the limits of row 13, with WHERE from the section's header
offset `o`. -/

/-- Reserved fields (word, low bit, width) that are not zero: BAD_FIELD at the lowest byte of each. -/
def rsvFails (o : Nat) (ws : List Nat) (fs : List (Nat × Nat × Nat)) : List Fail :=
  fs.map fun f => (decide (bitsN (ws.getD f.1 0) f.2.1 f.2.2 ≠ 0), frField, o + 8 + 8 * f.1 + f.2.1 / 8)

/-- CONTEXT (R269). -/
def contextFails (o : Nat) (w : List Nat) : List Fail :=
  let g (i : Nat) : Nat := w.getD i 0
  rsvFails o w ([(0, 48, 16), (1, 21, 43)] ++ ((List.range 5).map fun i => (i + 2, 48, 16))) ++
  [(decide (bitsN (g 0) 0 12 ≠ 0), frContext, o + 8),
    (decide (g 1 = 0) || decide (1048576 < g 1), frContext, o + 16)] ++
  ((List.range 5).map fun i => (decide (g (i + 2) % 4 ≠ 0), frContext, o + 8 + 8 * (i + 2))) ++
  [((List.range 4).all fun i => decide (g (i + 2) = 0), frContext, o + 48)]

/-- Does an assignment meet R94 for a set of enabled Lattices? A reserved number does not (04 R102). -/
def assignOk (assign : Nat) (latEn : BitVec 4) (gen2 : Bool) : Bool :=
  let f (i : Nat) : Nat := bitsN assign (4 * i) 4
  let used (p : Nat) : Nat := ((List.range 8).filter fun i => f i = p).length
  (List.range 8).all (fun i => decide (f i < 8) || decide (f i = 15)) &&
  (List.range 4).all fun l =>
    let a := f (2 * l)
    let b := f (2 * l + 1)
    (latEn.getLsbD l || (decide (a = 15) && decide (b = 15))) &&
    (decide (a = b) ||
      (!gen2 && (decide (a = 15) || decide (used a = 1)) && (decide (b = 15) || decide (used b = 1))))

/-- PARTITION (R270, R94, R276). -/
def partitionFails (o : Nat) (w : List Nat) (latEn : BitVec 4) (gen2 : Bool) : List Fail :=
  rsvFails o w [(0, 32, 32)] ++ [(!assignOk (bitsN (w.getD 0 0) 0 32) latEn gen2, frPartition, o + 8)]

/-- A region entry of its two words (R271). -/
def regionOf (e0 e1 : Nat) : Region :=
  { base := bitsN e0 0 32, size := bitsN e0 32 32, space := bitsN e1 0 2, shared := bitN e1 2, save := bitN e1 3,
    tag := bitsN e1 32 32 }

/-- The regions of a REGIONS body, as far as it reaches. -/
def regionsOf (w : List Nat) : List Region :=
  (List.range (min (bitsN (w.getD 0 0) 0 7) ((w.length - 1) / 2))).map fun i =>
    regionOf (w.getD (1 + 2 * i) 0) (w.getD (2 + 2 * i) 0)

/-- Do two regions overlap? -/
def regionsMeet (a b : Region) : Bool :=
  decide (a.space = b.space) && decide (a.base < b.base + b.size) && decide (b.base < a.base + a.size)

/-- The limits of one region, with those before it. -/
def regionFails (e : Nat) (before : List Region) (r : Region) : List Fail :=
  [(decide (r.base % 128 ≠ 0), frRegion, e),
    (decide (r.size = 0) || decide (r.size % 128 ≠ 0), frRegion, e + 4),
    (decide (r.space = 0) || decide (r.space = 3), frRegion, e + 8),
    (decide (r.tag = 0) == r.shared, frRegion, e + 12),
    (decide (spaceLimit r.space < r.base + r.size), frRegion, e),
    (before.any (regionsMeet r), frRegion, e),
    (r.shared && before.any (fun q => q.shared && decide (q.tag = r.tag)), frRegion, e)]

/-- REGIONS (R271, R433). -/
def regionsFails (o : Nat) (w : List Nat) : List Fail :=
  let rs := regionsOf w
  let n := bitsN (w.getD 0 0) 0 7
  rsvFails o w ((0, 7, 57) :: ((List.range rs.length).map fun i => (2 + 2 * i, 4, 28))) ++
  [(decide (64 < n), frRegion, o + 8), (decide (w.length ≠ 1 + 2 * n), frRegion, o + 8)] ++
  (rs.zipIdx.flatMap fun r => regionFails (o + 16 + 16 * r.2) (rs.take r.2) r.1)

/-- A Mullion record from its header and its 256-bit slot field (R236). -/
def mulOf (h slots : Nat) : MulRec :=
  let n := bitsN h 4 7
  { engine := bitsN h 0 4, nslots := n, lend := bitN h 11,
    owners := (List.range (min n 64)).map fun i => bitsN slots (4 * i) 3 }

/-- The records of a MULLION body. -/
def mullionOf (bs : List Byte) : List MulRec :=
  (List.range (bs.length / 40)).map fun i => mulOf (numAt bs (40 * i) 8) (numAt bs (40 * i + 8) 32)

/-- The slots of a record that break R236: a reserved OWNER, or one at NSLOTS or above that is not 0. -/
def slotBad (h slots i : Nat) : Bool :=
  let o := bitsN slots (4 * i) 3
  if i < bitsN h 4 7 then decide (4 ≤ o) && decide (o ≤ 6) else decide (o ≠ 0)

/-- Is the queue an engine of the Frame: a partition it defines, or queue 8, 9 or 10 (R237, R278)? -/
def engineUsed (assign q : Nat) : Bool :=
  decide (8 ≤ q) && decide (q ≤ 10) || (decide (q < 8) && (List.range 8).any fun i => decide (bitsN assign (4 * i) 4 = q))

/-- Row 12 of a Mullion record. -/
def mulRsv (e h slots : Nat) : List Fail :=
  (decide (bitsN h 12 52 ≠ 0), frField, e + 1) ::
  (List.range 64).map fun i => (bitN slots (4 * i + 3), frField, e + 8 + i / 2)

/-- Row 13 of a Mullion record, with the engines named before it. A rule that CYCDET joins fails at CYCDET, the later field
(R278), whose byte is `cycAt`. -/
def mulLimits (e h slots assign cycAt : Nat) (before : List Nat) (gen2 cyc : Bool) : List Fail :=
  let q := bitsN h 0 4
  let n := bitsN h 4 7
  [(before.contains q || !engineUsed assign q, frMullion, e), (decide (n = 0) || decide (64 < n), frMullion, e),
    (bitN h 11 && gen2, frMullion, e + 1), (bitN h 11 && cyc, frMullion, cycAt)] ++
  (List.range 64).map fun i => (slotBad h slots i, frMullion, e + 8 + i / 2)

/-- MULLION (R236, R237, R276). An absent section counts as one without records. -/
def mullionFails (o : Nat) (bs : List Byte) (assign cycAt : Nat) (gen2 cyc : Bool) : List Fail :=
  let n := bs.length / 40
  let h (i : Nat) : Nat := numAt bs (40 * i) 8
  let sl (i : Nat) : Nat := numAt bs (40 * i + 8) 32
  let names := (List.range n).map fun i => bitsN (h i) 0 4
  ((List.range n).flatMap fun i => mulRsv (o + 8 + 40 * i) (h i) (sl i)) ++
  ((List.range n).flatMap fun i => mulLimits (o + 8 + 40 * i) (h i) (sl i) assign cycAt (names.take i) gen2 cyc) ++
  [(cyc && (List.range 11).any (fun q => engineUsed assign q && !names.contains q), frMullion, cycAt)]

/-- LATCHES (R272). -/
def latchesFails (o : Nat) (bs : List Byte) : List Fail :=
  (List.range 48).map fun j => (decide (2 ≤ numAt bs (2 * j + 1) 1), frField, o + 8 + 2 * j + 1)

/-- FAULT (R273). -/
def faultFails (o : Nat) (w : List Nat) : List Fail :=
  let v := w.getD 0 0
  let p := bitsN v 0 32
  rsvFails o w [(0, 41, 23)] ++
  [(decide (p ≠ 0) && (decide (p < 1000) || decide (60000000 < p)), frFault, o + 8),
    (decide (bitsN v 32 2 = 3), frFault, o + 12), (decide (bitsN v 34 2 = 3), frFault, o + 12)]

/-- The FAULT section. -/
def faultOf (v : Nat) : FaultCfg :=
  { wdPeriod := bitsN v 0 32, wdPol := bitsN v 32 2, latchPol := bitsN v 34 2, qrel := bitN v 36,
    alarmFlags := BitVec.ofNat 4 (bitsN v 37 4) }

/-- A link record (13 R304). -/
def linkOf (k0 k1 k2 k3 : Nat) : LinkRec :=
  { expect := bitN k0 0, remap := bitN k0 1, minGen := bitsN k0 2 2, peer := BitVec.ofNat 16 (bitsN k0 8 16),
    alt := BitVec.ofNat 16 (bitsN k0 24 16), timeout := bitsN k1 0 16, retryMax := bitsN k1 16 4, area := bitsN k2 0 32,
    credRsp := bitsN k3 0 16, credRed := bitsN k3 16 16, credWr := bitsN k3 32 16, credRd := bitsN k3 48 16 }

/-- Does a far link's receive area lie within a shared scratchpad region (13 R304)? -/
def areaOk (rs : List Region) (k : LinkRec) : Bool :=
  rs.any fun r => r.shared && decide (r.space = 1) && decide (r.base ≤ k.area) &&
    decide (k.area + 384 * (k.credRsp + k.credRed + k.credWr + k.credRd) ≤ r.base + r.size)

/-- The limits of link record `l` at offset `e`. -/
def linkFails (e l : Nat) (k : LinkRec) (rs : List Region) : List Fail :=
  let far := decide (4 ≤ l)
  let credBad (c : Nat) : Bool := if far then decide (c < 8) else decide (c ≠ 0)
  [(decide (k.minGen = 0), frDoorway, e), (k.expect && decide (k.peer = 0), frDoorway, e + 1),
    (decide (2 ≤ l) && decide (k.alt ≠ 0), frDoorway, e + 3),
    (if far then decide (k.area % 128 ≠ 0) else decide (k.area ≠ 0), frDoorway, e + 16),
    (credBad k.credRsp, frDoorway, e + 24), (credBad k.credRed, frDoorway, e + 26), (credBad k.credWr, frDoorway, e + 28),
    (credBad k.credRd, frDoorway, e + 30), (far && !areaOk rs k, frDoorway, e + 30)]

/-- A group record (13 R306). -/
def groupOf (q0 q1 : Nat) : GroupRec :=
  { size := bitsN q0 0 13, pos := bitsN q0 13 12, scatter := decide (bitsN q0 25 2 = 1), exact := bitN q0 27,
    fmt := bitsN q0 28 4, succ := bitsN q0 32 8, pred := bitsN q0 40 8, gid := w32 (bitsN q1 0 32) }

/-- The limits of a group record at offset `e`, with the identities before it. -/
def groupFails (e q0 q1 nroute : Nat) (before : List (BitVec 32)) : List Fail :=
  let g := groupOf q0 q1
  let mode := bitsN q0 25 2
  [(decide (g.size < 2) || decide (4096 < g.size), frDoorway, e), (decide (g.size ≤ g.pos), frDoorway, e + 1),
    (decide (2 ≤ mode) || (g.exact && decide (mode ≠ 0)), frDoorway, e + 3),
    (if g.exact then decide (g.fmt ≠ 0) else decide (2 ≤ g.fmt), frDoorway, e + 3),
    (decide (nroute ≤ g.succ), frDoorway, e + 4), (decide (nroute ≤ g.pred), frDoorway, e + 5),
    (decide (g.gid = 0), frDoorway, e + 8), (before.contains g.gid, frDoorway, e)]

/-- The DOORWAY section (13 R303 to R306). -/
def doorOf (bs : List Byte) : DoorCfg :=
  let w := wordsOf bs
  let g (i : Nat) : Nat := w.getD i 0
  let nr := bitsN (g 0) 0 9
  let ng := bitsN (g 0) 9 6
  { links := (List.range 6).map fun l => linkOf (g (1 + 4 * l)) (g (2 + 4 * l)) (g (3 + 4 * l)) (g (4 + 4 * l))
    routes := (List.range nr).map fun r =>
      let v := g (25 + r)
      { dest := BitVec.ofNat 16 (bitsN v 0 16), ctxid := w32 (bitsN v 16 32), link := bitsN v 48 3, unreach := false,
        repointed := false }
    groups := (List.range ng).map fun k => groupOf (g (25 + nr + 2 * k)) (g (26 + nr + 2 * k))
    raw := bs }

/-- DOORWAY (13 R303 to R307, R433). -/
def doorwayFails (o : Nat) (bs : List Byte) (rs : List Region) : List Fail :=
  let w := wordsOf bs
  let g (i : Nat) : Nat := w.getD i 0
  let nr := bitsN (g 0) 0 9
  let ng := bitsN (g 0) 9 6
  let b := o + 8
  let d := doorOf bs
  let inside (i : Nat) : Bool := decide (i < w.length)
  rsvFails o w
    ((0, 15, 49) ::
      ((List.range 6).flatMap fun l =>
        [(1 + 4 * l, 4, 4), (1 + 4 * l, 40, 24), (2 + 4 * l, 20, 44), (3 + 4 * l, 32, 32)]) ++
      (((List.range nr).map fun r => (25 + r, 51, 13)).filter fun f => inside f.1) ++
      (((List.range ng).flatMap fun k => [(25 + nr + 2 * k, 48, 16), (26 + nr + 2 * k, 32, 32)]).filter
        fun f => inside f.1)) ++
  [(decide (256 < nr), frDoorway, b), (decide (32 < ng), frDoorway, b + 1),
    (decide (w.length ≠ 25 + nr + 2 * ng), frDoorway, b + 1)] ++
  (d.links.zipIdx.flatMap fun k => linkFails (b + 8 + 32 * k.2) k.2 k.1 rs) ++
  ((List.range nr).flatMap fun r =>
    let v := g (25 + r)
    [(decide (bitsN v 0 16 = 0) || decide (bitsN v 0 16 = 0xFFFF), frDoorway, b + 200 + 8 * r),
      (decide (5 < bitsN v 48 3), frDoorway, b + 200 + 8 * r + 6)]) ++
  ((List.range ng).flatMap fun k =>
    groupFails (b + 200 + 8 * nr + 16 * k) (g (25 + nr + 2 * k)) (g (26 + nr + 2 * k)) nr
      ((d.groups.take k).map fun x => x.gid))

/-- The CLOCK_POWER section (15 R370). -/
def powerOf (v : Nat) : PowerPlan :=
  { src := match bitsN v 0 2 with
      | 0 => .tro
      | 1 => .refClk
      | 2 => .rref0
      | _ => .rref1
    opRun := bitsN v 2 3, opMax := bitsN v 5 3, park := bitN v 8
    parkDelay := if bitsN v 9 16 = 0 then 1000 else bitsN v 9 16
    latOff := bitsN v 25 16 }

/-- CLOCK_POWER (15 R370). -/
def powerFails (o : Nat) (w : List Nat) (boost : Bool) : List Fail :=
  let p := powerOf (w.getD 0 0)
  rsvFails o w [(0, 41, 23)] ++
  [(decide (p.opRun = 0) || decide (5 < p.opRun), frClock, o + 8),
    (decide (p.opMax < p.opRun) || decide (5 < p.opMax) || (decide (p.opMax = 5) && !boost), frClock, o + 8)]

/-! ### UPDATE (08 R166 to R169) -/

/-- The header offset in the body, and NOPS, of each of `n` programs from an offset on. -/
def progsFrom (bs : List Byte) (off n : Nat) : List (Nat × Nat) :=
  match n with
  | 0 => []
  | n + 1 =>
    let k := bitsN (numAt bs off 8) 0 6
    (off, k) :: progsFrom bs (off + alignUp (8 + 4 * k) 8) n

/-- The programs of an UPDATE body. -/
def progsAt (bs : List Byte) : List (Nat × Nat) := progsFrom bs 32 (bitsN (numAt bs 0 8) 0 6)

/-- One past the last program. -/
def progsEnd (bs : List Byte) : Nat :=
  match (progsAt bs).getLast? with
  | some p => p.1 + alignUp (8 + 4 * p.2) 8
  | none => 32

/-- Where the last count that the length of the body depends on has its place: NOPS of the last program whose header lies
in the body, else NPROG. -/
def lastCount (bs : List Byte) : Nat :=
  match ((progsAt bs).filter fun p => decide (p.1 + 8 ≤ bs.length)).getLast? with
  | some p => p.1
  | none => 0

/-- A program (R167). -/
def progOf (bs : List Byte) (p : Nat × Nat) : UpdProg :=
  let h := numAt bs p.1 8
  { wOut := bitsN h 6 5, m1Out := bitsN h 11 5, m2Out := bitsN h 16 5, kreg := bitsN h 21 5, hasM1 := bitN h 26,
    hasM2 := bitN h 27, words := (List.range p.2).map fun i => w32 (numAt bs (p.1 + 8 + 4 * i) 4) }

/-- The eight words of group entry `k`, which starts at `at0 + 64 × k`. -/
def groupWords (bs : List Byte) (at0 k : Nat) : List Nat :=
  (List.range 8).map fun j => numAt bs (at0 + 64 * k + 8 * j) 8

/-- Is NOPS of a program within its limits (R167)? -/
def progNops (p : Nat × Nat) : Bool := decide (1 ≤ p.2) && decide (p.2 ≤ 32)

/-- Row 12 of a program: its header, and the padding of its last word. -/
def progRsv (b : Nat) (bs : List Byte) (p : Nat × Nat) : List Fail :=
  let pad := p.1 + 8 + 4 * p.2
  [(decide (bitsN (numAt bs p.1 8) 28 36 ≠ 0), frField, b + p.1 + 3),
    (progNops p && decide (p.2 % 2 = 1) && decide (numAt bs pad 4 ≠ 0), frField, b + pad)]

/-- Row 13 of a program but for NOPS (R167, R168). -/
def progLimits (b : Nat) (bs : List Byte) (p : Nat × Nat) : List Fail :=
  let g := progOf bs p
  let e := b + p.1
  [(decide (15 < g.wOut), frUpdate, e), (decide (15 < g.m1Out), frUpdate, e + 1), (decide (15 < g.m2Out), frUpdate, e + 2),
    (decide (g.kreg = 0), frUpdate, e + 2)] ++
  g.words.zipIdx.map fun w => (!cwProgramOk w.1, frUpdate, e + 8 + 4 * w.2)

/-- Row 12 of a group entry (R169, R14). -/
def groupRsv (e : Nat) (w : List Nat) : List Fail :=
  [(decide (bitsN (w.getD 0 0) 48 16 ≠ 0), frField, e + 6), (decide (bitsN (w.getD 1 0) 32 32 ≠ 0), frField, e + 12)]

/-- Is an FP32 constant positive and finite? -/
def posFinite32 (v : Nat) : Bool := decide (0 < v) && decide (v < 0x7F800000)

/-- Row 13 of a group entry (R169, R276). -/
def groupLimits (e : Nat) (w : List Nat) (nprog : Nat) (gen2 : Bool) : List Fail :=
  let g0 := w.getD 0 0
  let g7 := w.getD 7 0
  let fmtBad (lo : Nat) : Bool :=
    decide (9 < bitsN g0 lo 4) || (bitN g0 2 && decide (1 < bitsN g0 lo 4))
  let mat := bitN g0 3
  let gen := if gen2 then
      [(mat, frUpdate, e), (decide (bitsN g0 21 27 ≠ 0), frUpdate, e + 2), (decide (g7 ≠ 0), frUpdate, e + 56)]
    else []
  gen ++
  (if !bitN g0 0 then []
    else
      [(mat && bitN g0 2, frUpdate, e), (fmtBad 4, frUpdate, e), (fmtBad 8, frUpdate, e + 1), (fmtBad 12, frUpdate, e + 1),
        (decide (nprog ≤ bitsN g0 16 5), frUpdate, e + 2)] ++
      (if mat then
        [(decide (nprog ≤ bitsN g0 21 5), frUpdate, e + 2),
          (decide (bitsN g0 27 5 = 0) || decide (20 < bitsN g0 27 5), frUpdate, e + 3),
          (decide (bitsN g0 32 16 = 0), frUpdate, e + 4), (!posFinite32 (bitsN g7 0 32), frUpdate, e + 56),
          (!posFinite32 (bitsN g7 32 32), frUpdate, e + 60)]
      else
        [(decide (bitsN g0 21 5 ≠ 0), frUpdate, e + 2), (decide (bitsN g0 26 1 ≠ 0), frUpdate, e + 3),
          (decide (bitsN g0 27 5 ≠ 0), frUpdate, e + 3), (decide (bitsN g0 32 16 ≠ 0), frUpdate, e + 4),
          (decide (bitsN g7 0 32 ≠ 0), frUpdate, e + 56), (decide (bitsN g7 32 32 ≠ 0), frUpdate, e + 60)]))

/-- Does a group in use clip (R169)? -/
def clipped (bs : List Byte) : Bool :=
  (List.range 256).any fun k =>
    let g0 := (groupWords bs (progsEnd bs) k).getD 0 0
    bitN g0 0 && bitN g0 1

/-- UPDATE (08 R166 to R170; R276, R278, 13 R307), with the reduction groups of the DOORWAY section. Row 12 takes the
fields whose place NPROG and the NOPS before them fix: behind one that breaks its limit no field has a place (DEDUCED,
log entry 40). -/
def updateFails (o : Nat) (bs : List Byte) (gen2 : Bool) (groups : List GroupRec) : List Fail :=
  let b := o + 8
  let w := wordsOf bs
  let n := bitsN (w.getD 0 0) 0 6
  let count := decide (1 ≤ n) && decide (n ≤ 32)
  let ps := progsAt bs
  let placed := if count then ps.take ((ps.takeWhile progNops).length + 1) else []
  let at0 := progsEnd bs
  let whole := if count && ps.all progNops then
      (List.range 256).filter fun k => decide (at0 + 64 * k + 64 ≤ bs.length)
    else []
  let clip := w.getD 1 0
  let normBad := match groups[bitsN (w.getD 0 0) 8 8]? with
    | some g => !g.exact
    | none => true
  rsvFails o w [(0, 7, 1), (0, 16, 48), (2, 48, 16), (3, 24, 40)] ++
  (placed.flatMap fun p => if p.1 + alignUp (8 + 4 * p.2) 8 ≤ bs.length then progRsv b bs p else []) ++
  (whole.flatMap fun k => groupRsv (b + at0 + 64 * k) (groupWords bs at0 k)) ++
  [(decide (n = 0) || decide (32 < n), frUpdate, b)] ++
  (ps.map fun p => (decide (p.2 = 0) || decide (32 < p.2), frUpdate, b + p.1)) ++
  [(decide (bs.length ≠ at0 + 16384), frUpdate, b + lastCount bs),
    (decide (clip = 0) || decide (0x7FF0000000000000 < clip), frUpdate, b + 8),
    (decide (bitsN (w.getD 2 0) 0 5 ≠ 0), frUpdate, b + 16), (decide (1048576 < bitsN (w.getD 3 0) 0 24), frUpdate, b + 24)] ++
  (ps.flatMap (progLimits b bs)) ++
  ((List.range 256).flatMap fun k => groupLimits (b + at0 + 64 * k) (groupWords bs at0 k) n gen2) ++
  [(clipped bs && normBad, frUpdate, b + 1)]

/-- The UPDATE section. -/
def updateOf (bs : List Byte) : UpdCfg :=
  let w := wordsOf bs
  let u0 := w.getD 0 0
  let at0 := progsEnd bs
  { nfPolicy := bitN u0 6, normGrp := bitsN u0 8 8, clipMax := w64 (w.getD 1 0), listBase := bitsN (w.getD 2 0) 0 48,
    listCount := bitsN (w.getD 3 0) 0 24, progs := (progsAt bs).map (progOf bs),
    groups := (List.range 256).foldl (fun m k =>
      let g := (groupWords bs at0 k).map w64
      SMap.put m [] k (if g.all fun x => decide (x = 0) then [] else g)) [] }

/-- REPLAY (R274). -/
def replayFails (o : Nat) (w : List Nat) : List Fail :=
  let p1 := w.getD 1 0
  rsvFails o w [(1, 6, 58), (2, 48, 16), (3, 32, 32)] ++
  [(decide (3 < bitsN p1 2 4), frReplay, o + 16), (decide (bitsN (w.getD 2 0) 0 12 ≠ 0), frReplay, o + 24),
    (bitN p1 1 && decide (bitsN (w.getD 3 0) 0 32 = 0), frReplay, o + 32)]

/-- TRACKER (R275). -/
def trackerFails (o : Nat) (w : List Nat) : List Fail :=
  let j := bitsN (w.getD 0 0) 0 32
  let d := bitsN (w.getD 0 0) 32 32
  [(decide (j % 1024 ≠ 0) || decide (j < 8192), frTracker, o + 8),
    (decide (d % 1024 ≠ 0) || decide (d < 4096) || decide (j + d ≠ 65536), frTracker, o + 12)]

/-! ### The whole check (R278, rows 4 to 13) -/

/-- What the checks use of the core: the grade, the enabled Lattices, boost permission, and the identities of the other
planes. -/
structure FrameEnv where
  grade : Nat
  latEn : BitVec 4
  boost : Bool
  others : List (BitVec 32)
  deriving DecidableEq, Repr

/-- The section of a type with its header offset, if it is there. -/
def withSect (ss : List Sect) (t : Nat) (f : Sect → List Fail) : List Fail :=
  match findSect ss t with
  | some s => f s
  | none => []

/-- Rows 12 and 13 of every section in ascending TYPE. -/
def sectionFails (bs : List Byte) (ss : List Sect) (gen2 : Bool) (env : FrameEnv) : List Fail :=
  let w (s : Sect) : List Nat := wordsOf (s.body bs)
  let assign := bitsN ((sectWords bs ss 2).getD 0 0) 0 32
  let regions := regionsOf (sectWords bs ss 3)
  let cyc := bitN ((sectWords bs ss 10).getD 1 0) 0
  let cycAt := match findSect ss 10 with
    | some s => s.off + 16
    | none => 0
  let groups := match findSect ss 7 with
    | some s => (doorOf (s.body bs)).groups
    | none => []
  withSect ss 1 (fun s => contextFails s.off (w s)) ++
  withSect ss 2 (fun s => partitionFails s.off (w s) env.latEn gen2) ++
  withSect ss 3 (fun s => regionsFails s.off (w s)) ++
  (match findSect ss 4 with
    | some s => mullionFails s.off (s.body bs) assign cycAt gen2 cyc
    | none => mullionFails 0 [] assign cycAt gen2 cyc) ++
  withSect ss 5 (fun s => latchesFails s.off (s.body bs)) ++
  withSect ss 6 (fun s => faultFails s.off (w s)) ++
  withSect ss 7 (fun s => doorwayFails s.off (s.body bs) regions) ++
  withSect ss 8 (fun s => powerFails s.off (w s) env.boost) ++
  withSect ss 9 (fun s => updateFails s.off (s.body bs) gen2 groups) ++
  withSect ss 10 (fun s => replayFails s.off (w s)) ++
  withSect ss 11 (fun s => trackerFails s.off (w s))

/-- CHECK as R266 computes it. -/
def frameCheck (bs : List Byte) : BitVec 32 := crc32c (bs.take 12 ++ [0, 0, 0, 0] ++ bs.drop 16)

/-- Rows 4 to 10, on the header. -/
def headerFails (bs : List Byte) (env : FrameEnv) : List Fail :=
  let g (off n : Nat) : Nat := numAt bs off n
  [(decide (g 0 4 ≠ 0x4D524642), frMagic, 0), (decide (g 8 4 ≠ bs.length), frBadLength, 0),
    (decide (frameCheck bs ≠ w32 (g 12 4)), frCrc, 12), (decide (g 4 1 ≠ 2) && decide (g 4 1 ≠ 3), frGen, 4),
    (decide (g 6 1 ≠ 3), frVersion, 6), (decide (2 < g 7 1), frVersion, 7),
    (decide (g 5 1 < 2) || decide (4 < g 5 1) || decide (env.grade < g 5 1), frGrade, 5),
    (decide (g 16 4 = 0) || env.others.contains (w32 (g 16 4)), frIdInUse, 16)]

/-- Rows 4 to 13: the RESULT and WHERE of the first check that fails. -/
def frameFault (bs : List Byte) (env : FrameEnv) : Option (Nat × Nat) :=
  match firstFail (headerFails bs env) with
  | some f => some f
  | none =>
    let gen := numAt bs 4 1
    match row11 bs bs.length gen with
    | some w => some (frSection, w)
    | none =>
      if (bs.drop 26).take 38 |>.any fun b => decide (b ≠ 0) then some (frField, 26)
      else firstFail (sectionFails bs (frameSects bs) (decide (gen = 2)) env)

/-! ### The Frame as the core holds it -/

/-- The context digest (16 R404). -/
def contextDigest (bs : List Byte) (ss : List Sect) : BitVec 32 :=
  crc32c ([1, 5, 9, 10].flatMap fun t => match findSect ss t with
    | some s => s.body bs
    | none => [])

/-- A checked Frame. -/
def frameOfBytes (bs : List Byte) : FrameCfg :=
  let ss := frameSects bs
  let c := sectWords bs ss 1
  let cx (i : Nat) : Nat := c.getD i 0
  let r := sectWords bs ss 10
  let body (t : Nat) : Option (List Byte) := (findSect ss t).map fun s => s.body bs
  { ctxid := w32 (numAt bs 16 4), check := w32 (numAt bs 12 4), serial := w32 (numAt bs 20 4), minGrade := numAt bs 5 1
    dtBase := bitsN (cx 0) 0 48, dtCount := bitsN (cx 1) 0 21
    entries := (List.range 4).map fun i => BitVec.ofNat 48 (cx (i + 2))
    evec := BitVec.ofNat 48 (cx 6)
    step0s := [w32 (bitsN (cx 7) 0 32), w32 (bitsN (cx 7) 32 32), w32 (bitsN (cx 8) 0 32), w32 (bitsN (cx 8) 32 32)]
    assign := w32 ((sectWords bs ss 2).getD 0 0)
    regions := regionsOf (sectWords bs ss 3)
    mullion := mullionOf ((body 4).getD [])
    latches := (List.range 48).map fun j =>
      let b := (body 5).getD []
      (numAt b (2 * j) 1, decide (numAt b (2 * j + 1) 1 % 2 = 1))
    fault := faultOf ((sectWords bs ss 6).getD 0 0)
    doorway := (body 7).map doorOf
    power := (body 8).map fun b => powerOf (numAt b 0 8)
    update := (body 9).map updateOf
    seed := w64 (r.getD 0 0), cycDet := bitN (r.getD 1 0) 0, journal := bitN (r.getD 1 0) 1, grain := bitsN (r.getD 1 0) 2 4
    jBase := bitsN (r.getD 2 0) 0 48, jSize := bitsN (r.getD 3 0) 0 32
    tracker := match body 11 with
      | some b => (numAt b 0 4, numAt b 4 4)
      | none => (49152, 16384)
    digest := contextDigest bs ss }

end Sys2Proof.Machine
end

