-- ==== Sys2Proof/Machine/Startup.lean ====
section
/-! DEFINITION. The resets and the stages of start-up (spec/15 R372 to R374), and the events of the clocks, the
sequencer and the power domains (R346 to R369). -/

namespace Sys2Proof.Machine

/-! ### The resets (R372) -/

/-- The links after a reset: OFF, with RDY as the integrator drives it. -/
def State.linksReset (s : State) : SMap Link :=
  (List.range 6).foldl (fun m l => SMap.put m Link.init l { Link.init with rdy := (s.link l).rdy }) []

/-- Is the value a watchdog period of R259? -/
def wdOk (v : Nat) : Bool := decide (1000 ≤ v) && decide (v ≤ 60000000)

/-- The watchdog period and its source (11 R259), for a WDPERIOD and the Lintel default. -/
def wdPeriodOf (frame store : Nat) : BitVec 32 × BitVec 2 :=
  if wdOk frame then (w32 frame, 0) else if wdOk store then (w32 store, 1) else (100000, 2)

/-- Sets the watchdog period. -/
def State.wdSet (s : State) (frame store : Nat) : State :=
  let r := wdPeriodOf frame store
  { s with wd := { s.wd with period := r.1, src := r.2 } }

/-- AON_RST_N low: every part is reset. The levels that the integrator drives on pins stay. -/
def State.aonReset (s : State) : State :=
  let r := State.reset
  { r with
    boot := { r.boot with coreRst := s.boot.coreRst }
    clk := { r.clk with refRdy := s.clk.refRdy }
    pwr := { r.pwr with vack := s.pwr.vack, pswGnt := s.pwr.pswGnt }
    lt := { r.lt with pfail := s.lt.pfail }
    door := { r.door with links := s.linksReset }
    hinge := { r.hinge with rspReady := s.hinge.rspReady }
    fresh := s.fresh, pending := s.pending }

/-- CORE_RST_N low: every switched domain is reset and switched off, and the always-on region keeps its state. The
loops lose their lock, and the plan of R371 and the watchdog's defaults hold again. -/
def State.coreReset (s : State) : State :=
  let r := State.reset
  { r with
    boot := { s.boot with stage := min s.boot.stage 2, pdFail := false }
    clk := { s.clk with slewTo := none, inForce := .tro, fell := false, lockA := false, lockD := false, aclkOn := false }
    pwr := { s.pwr with
      op := 0, target := 0, runPoint := 1, moving := .none, moveTo := 0, vreq := 0, confirmed := 0, vackTicks := 0
      parked := false, parkTicks := 0, waking := false, on := 0, batch := [], starting := none, batchOn := []
      settleTicks := 0, pswReq := false, leftOff := [], shutLat := 0xFF, casGated := false, sashGated := false
      louvreGated := 0 }
    int := { r.int with
      stat := s.int.stat, events := s.int.events, log0 := s.int.log0, log1 := s.int.log1
      shutCount := s.int.shutCount, shutBlock := s.int.shutBlock, shutPend := s.int.shutPend }
    frame := { r.frame with plan := { PowerPlan.init with src := s.lt.applied.source } }
    door := { r.door with links := s.linksReset, node := s.lt.applied.node }
    wd := s.wd
    lt := { s.lt with hatchActive := false }
    hinge := s.hinge
    time := { s.time with cycle := 0, sub := 0 }
    fresh := s.fresh, pending := s.pending }

/-! ### The stages (R373) -/

/-- The domains that stage 5 switches on: 32 to 78 but for shuttered ones. -/
def State.startDomains (s : State) : List Nat :=
  let p := s.pwr
  ((List.range 47).map fun i => 32 + i).filter fun d =>
    !((decide (d = 48) && p.shutSpare.getLsbD 0) || (decide (d = 49) && p.shutSpare.getLsbD 1) ||
      (decide (56 ≤ d) && decide (d ≤ 59) && p.shutSill) || (decide (d = 60 ∨ d = 61) && p.shutTransom) ||
      (decide (d = 76) && p.shutNear) || (decide (d = 77) && p.shutFar))

/-- Moves to a stage. -/
def State.toStage (s : State) (n : Nat) : State := { s with boot := { s.boot with stage := n } }

/-- Stage 1 ends when the store has been read and TRO is ready. The watchdog's default of the store holds from now on (11 R259). -/
def State.endAon (s : State) : State :=
  if s.boot.stage = 1 && s.boot.lintelDone && s.srcReady .tro then (s.toStage 2).wdSet 0 s.lt.applied.wdDefault else s

/-- Stage 2 ends when CORE_RST_N is 1: domain 79 is switched on. -/
def State.endOpen (s : State) : State :=
  if s.boot.stage = 2 && !s.boot.coreRst && !s.lt.hatchActive then (s.toStage 3).batchAdd [79] else s

/-- Stage 3 ends when both loops are locked: the selected source is followed, and VREQ is set to 1. -/
def State.endPll (s : State) : State :=
  if s.boot.stage = 3 && s.locked && !s.boot.pdFail then
    { (s.toStage 4).followSource with pwr := { s.pwr with vreq := 1 } }
  else s

/-- Stage 4 ends when VACK is 1: the domains are switched on. -/
def State.endRail (s : State) : State :=
  if s.boot.stage = 4 && decide (s.pwr.vack = 1) then
    let s := { s.toStage 5 with pwr := { s.pwr with confirmed := 1 } }
    s.batchAdd s.startDomains
  else s

/-- Stage 5 ends when the last domain has settled: ACLK runs at OP1. -/
def State.endDomains (s : State) : State :=
  if s.boot.stage = 5 && s.pwr.batch.isEmpty && s.pwr.starting.isNone && !s.boot.pdFail then
    { s.toStage 6 with
      pwr := { s.pwr with op := 1, target := 1 }, clk := { s.clk with aclkOn := true } }
  else s

/-- Start-up goes on as far as its conditions hold. -/
def State.stageGo (s : State) : State := ((((s.endAon).endOpen).endPll).endRail).endDomains

/-- Begins stage 1: the store is read (R373, 17 R411), behind a write that the port still has. -/
def State.stageOne (s : State) : State :=
  let reads := (List.range 256).map LtReq.read
  { s with
    boot := { s.boot with stage := 1, lintelDone := false, trimApplied := false }
    lt := { s.lt with reqs := s.lt.reqs ++ reads }
    time := { s.time with bootTicks := 0 } }

/-- AON_RST_N_ASSERT. -/
def execAonRstNAssert (s : State) : Result := .next s.aonReset

/-- AON_RST_N_RELEASE: stage 1 begins. -/
def execAonRstNRelease (s : State) : Result :=
  .next (if s.boot.aonRst then
      { s with boot := { s.boot with aonRst := false, cause := 0 } }.stageOne
    else s)

/-- CORE_RST_N_ASSERT. Hatch ends, and start-up waits in stage 2; one that is in stage 1 goes on. -/
def execCoreRstNAssert (s : State) : Result :=
  let s := { s with boot := { s.boot with coreRst := true } }
  .next (if s.boot.aonRst then s
    else
      let s := if s.lt.hatchActive then s.irqSet 12 else s
      let s := { s with boot := { s.boot with cause := 1 } }.coreReset
      s.wdSet 0 (if 2 ≤ s.boot.stage then s.lt.applied.wdDefault else 0))

/-- CORE_RST_N_RELEASE: start-up resumes at stage 3. -/
def execCoreRstNRelease (s : State) : Result :=
  let s := { s with boot := { s.boot with coreRst := false } }
  .next (if s.boot.aonRst then s else s.stageGo)

/-- STARTUP_INIT_DONE: the domains are initialised, which their state already shows, and the core is READY. -/
def execStartupInitDone (s : State) : Result :=
  .next (if s.boot.stage = 6 then (s.toStage 7).setRunPoint s.pwr.runPoint else s)

/-! ### The always-on clock and the references (R346 to R350) -/

/-- AON_CLK_LOST: TRO divided by 50 takes the place of AON_CLK. -/
def execAonClkLost (s : State) : Result :=
  .next (if s.boot.aonRst || s.clk.aonLost then s
    else { s with clk := { s.clk with aonLost := true, aonOk := false, aonLostBit := true } }.powerIrq)

/-- AON_CLK_RESTORED. -/
def execAonClkRestored (s : State) : Result :=
  .next (if s.boot.aonRst then s else { s with clk := { s.clk with aonLost := false, aonOk := true } })

/-- Does a count of reference edges over 64 ticks pass (R348)? -/
def State.countOk (s : State) (n : Nat) : Bool :=
  let w := if s.clk.aonLost then 192 else 384
  decide (6400 - w ≤ n) && decide (n ≤ 6400 + w)

/-- A count of a source: two passes in a row make it ready, a failure ends that. -/
def State.sourceCount (s : State) (x : Source) (ok : Bool) : State :=
  let n := if ok then min 2 (SMap.look s.clk.passes 0 (srcNum x) + 1) else 0
  { s with clk := { s.clk with
    passes := SMap.put s.clk.passes 0 (srcNum x) n, ready := SMap.put s.clk.ready false (srcNum x) (decide (n = 2)) } }

/-- FREQUENCY_CHECK: the counts of REF_CLK, RREF0 and RREF1 and the level of REF_RDY. A count of REF_CLK passes only
with REF_RDY at 1. -/
def execFrequencyCheck (ref r0 r1 : Nat) (refRdy : Bool) (s : State) : Result :=
  .next (if s.boot.aonRst then s
    else
      let s := { s with clk := { s.clk with refRdy := refRdy } }
      ((((s.sourceCount .refClk (refRdy && s.countOk ref)).sourceCount .rref0 (s.countOk r0)).sourceCount
        .rref1 (s.countOk r1))).sourceCheck)

/-- REF_RDY_FALL. -/
def execRefRdyFall (s : State) : Result :=
  let s := { s with clk := { s.clk with refRdy := false } }
  .next (if s.boot.aonRst then s else (s.sourceCount .refClk false).sourceCheck)

/-- SOURCE_RETURN: the selected source has been ready for 1,000 ticks since a fallback. -/
def execSourceReturn (s : State) : Result :=
  let c := s.clk
  .next (if c.fell && c.slewTo.isNone && decide (c.sel ≠ c.inForce) && s.srcReady c.sel && decide (1000 ≤ c.readyTicks) then
      { s with clk := { c with fell := false } }.slewStart c.sel
    else s)

/-- SOURCE_SWITCH_DONE (R352). -/
def execSourceSwitchDone (s : State) : Result :=
  .next (match s.clk.slewTo with
    | some x => { s with clk := { s.clk with inForce := x, slewTo := none } }.sourceCheck
    | none => s)

/-- TRO_READY: 20 µs after its trim was applied (R347). -/
def execTroReady (s : State) : Result :=
  .next (if s.boot.trimApplied then
      { s with
        clk := { s.clk with ready := SMap.put s.clk.ready false 0 true }, boot := { s.boot with troReady := true } }.stageGo
    else s)

/-- A write of CLK_CTL (R349): SRC, and with GO the selection. -/
def State.clkCtl (s : State) (src : Source) (go : Bool) : State :=
  let s := { s with clk := { s.clk with ctlSrc := BitVec.ofNat 2 (srcNum src) } }.wakeAsk
  if !go then s
  else if s.clk.slewTo.isSome then { s with clk := { s.clk with result := 2 } }
  else if !s.srcReady src then { s with clk := { s.clk with result := 1 } }
  else { s with clk := { s.clk with result := 0 } }.selectSource src

/-! ### The PLL and the sequencer (R351, R362 to R369) -/

/-- ACLK of a parked core restarts (R369). The target is then the run point (R365), which may have changed during the
move. What waited in the buffers of the Doorway goes on. -/
def State.wakeDone (s : State) : State :=
  { s with
    pwr := { s.pwr with
      op := s.pwr.moveTo, target := s.pwr.runPoint, moving := .none, parked := false, waking := false, parkTicks := 0
      wakes := satInc 16 s.pwr.wakes }
    clk := { s.clk with aclkOn := true } }.seqGo.sinksGo

/-- PLL_LOCK. -/
def execPllLock (loopA : Bool) (s : State) : Result :=
  .next (if !s.domOn 79 then s
    else if s.boot.stage = 3 then
      { s with clk := { s.clk with lockA := s.clk.lockA || loopA, lockD := s.clk.lockD || !loopA } }.stageGo
    else if loopA && s.pwr.parked && s.pwr.waking && decide (s.pwr.moving = .slew) then
      { s with clk := { s.clk with lockA := true } }.wakeDone
    else s)

/-- VACK: the regulator drives a code. -/
def execVack (code : BitVec 3) (s : State) : Result :=
  let s := { s with pwr := { s.pwr with vack := code } }
  let p := s.pwr
  .next (if s.boot.stage = 4 then s.stageGo
    else if code ≠ p.vreq then s
    else match p.moving with
      | .volt => { s with pwr := { p with confirmed := code, moving := .slew } }
      | .drop => ({ s with pwr := { p with confirmed := code, moving := .none } }.seqGo).wakeGo
      | .slew => s
      | .none => { s with pwr := { p with confirmed := code } })

/-- VACK_TIMEOUT: 500 µs without the requested code end the move (R364). A target that changed during the move is moved to
now (R365); the target of the move itself is not tried again. -/
def execVackTimeout (s : State) : Result :=
  let p := s.pwr
  .next (if (p.moving = .volt || p.moving = .drop) && decide (500 ≤ p.vackTicks) then
      let s := { s with pwr := { p with
        moving := .none, vreq := p.confirmed, vtimeout := true
        target := if p.parked then 0 else p.target
        op := if p.parked then 0 else min p.confirmed.toNat p.moveTo } }.powerIrq
      if p.parked || decide (p.target = p.moveTo) then s else s.seqGo
    else s)

/-- ACLK_SLEW_DONE: the frequency of the point is reached. -/
def execAclkSlewDone (s : State) : Result :=
  let p := s.pwr
  .next (if p.moving ≠ .slew || p.parked then s
    else if p.op < p.moveTo then { s with pwr := { p with op := p.moveTo, moving := .none } }.seqGo
    else s.voltDown)

/-- A write of PWR_CTL (R365): OP, and with GO the request. -/
def State.pwrCtl (s : State) (pt : BitVec 3) (go : Bool) : State :=
  let s := { s with pwr := { s.pwr with ctlOp := pt } }.wakeAsk
  if !go then s
  else if pt = 0 || decide (s.frame.plan.opMax < pt.toNat) then { s with pwr := { s.pwr with result := 1 } }
  else if pt = 5 && !s.boostOk then { s with pwr := { s.pwr with result := 2 } }
  else { s with pwr := { s.pwr with result := 0 } }.setRunPoint pt.toNat

/-- The run point of a core whose boost permission is withdrawn (R365). -/
def State.boostCheck (s : State) : State := if s.pwr.runPoint = 5 && !s.boostOk then s.setRunPoint 4 else s

/-- May the core park now (R368)? -/
def State.parkIdle (s : State) : Bool :=
  s.frame.plan.park && decide (s.boot.stage = 8) && !s.pwr.parked &&
  (allThreads.all fun t =>
    let x := s.th t
    (decide (x.state = .idle) || decide (x.state = .latch)) && x.posts.isEmpty) && !s.sash.handler &&
  s.eng.lanes.isEmpty && s.jamb.tags.isEmpty && s.jamb.reqs.isEmpty && s.door.tags.isEmpty && !s.frame.busy &&
  s.frame.effect.isNone && !s.linkUp 4 && !s.linkUp 5

/-- PARK: the conditions have held for PARKDELAY ticks (R368). -/
def execPark (s : State) : Result :=
  let p := s.pwr
  .next (if s.parkIdle && decide (s.frame.plan.parkDelay ≤ p.parkTicks) && decide (p.moving = .none) then
      { s with
        pwr := { p with
          parked := true, waking := false, target := 0, moveTo := 0, op := 0, vreq := 0, vackTicks := 0
          moving := if p.vack = 0 then .none else .drop, confirmed := if p.vack = 0 then 0 else p.confirmed }
        clk := { s.clk with lockA := false, aclkOn := false } }
    else s)

/-- WAKE: a wake event has come (R369). -/
def execWake (s : State) : Result := .next s.wakeGo

/-! ### Domains and shutters (R357 to R361, R366, R367) -/

/-- PSW_GNT. -/
def execPswGnt (level : Bool) (s : State) : Result :=
  let s := { s with pwr := { s.pwr with pswGnt := level } }
  .next (if level && s.pwr.pswReq then s.batchGo else s)

/-- A near or far link whose domain comes on enters WAIT under the DOORWAY section in force. -/
def State.linkBack (s : State) (l : Nat) : State :=
  if s.linkShut l || s.frame.doorway.isNone || s.rpl.active || decide ((s.link l).state ≠ .off) then s
  else
    let s := s.linkWait l
    if (s.link l).rdy then s.linkTo l .hello else s

/-- The Sill is initialised: its CLEAR bits are set and its registers take their reset values (R359). -/
def State.sillLost (s : State) : State :=
  { s with
    eng := { s.eng with sill := [], sillSet := [] }
    er := { s.er with spills := 0, drains := 0, sfLine := 0, sfCause := 0, sfCe := 0, sfPend := false } }

/-- The Transom is initialised (R359). -/
def State.transomLost (s : State) : State :=
  { s with
    eng := { s.eng with trnFull0 := false, trnFull1 := false }
    er := { s.er with trnUnits := 0, trnFault := false } }

/-- The weight registers of a Lattice lose their tiles with a row band. -/
def State.cellsLost (s : State) (l : Nat) : State :=
  let lost (c : Cells) : Cells := { c with active := none, shadow := none }
  (s.modCells (2 * l) lost).modCells (2 * l + 1) lost

/-- A settled domain is initialised before any access (R359); what start-up switches on has its reset state already. -/
def State.domainBack (s : State) (d : Nat) : State :=
  if d < 32 then s.cellsLost (d / 8)
  else if 56 ≤ d && d ≤ 59 then s.sillLost
  else if d = 60 || d = 61 then s.transomLost
  else if d = 76 then (s.linkBack 2).linkBack 3
  else if d = 77 then (s.linkBack 4).linkBack 5
  else s

/-- DOMAIN_SETTLED: the domain in progress is on and initialised, and the next is started. -/
def execDomainSettled (d : Fin 80) (s : State) : Result :=
  let p := s.pwr
  .next (if p.starting = some d.val then
      let s := { s with pwr := { p with
        on := p.on ||| domMask [d.val], starting := none, batchOn := p.batchOn ++ [d.val] } }.batchGo
      (s.domainBack d.val).stageGo
    else s)

/-- A domain without a shutter failed: start-up stops (R358). -/
def State.domainFail (s : State) : State :=
  let p := s.pwr
  let s := { s with
    pwr := { p with
      batch := [], starting := none, on := p.on &&& ~~~(domMask p.batchOn), batchOn := [], pswReq := false }
    boot := { s.boot with pdFail := true } }
  s.integrity { eventOf mechDomain 6 with detail := none }

/-- DOMAIN_SETTLE_TIMEOUT: 100 µs have passed (R357, R358). -/
def execDomainSettleTimeout (d : Fin 80) (s : State) : Result :=
  let p := s.pwr
  .next (if p.starting = some d.val && decide (100 ≤ p.settleTicks) then
      let s := { s with pwr := { p with pdFail := BitVec.ofNat 7 d.val, pdFailV := true } }.powerIrq
      if domShutters d.val then
        ({ s with pwr := { s.pwr with starting := none, leftOff := s.pwr.leftOff ++ [d.val] } }.batchGo).stageGo
      else s.domainFail
    else s)

/-- Opens the switches of a block that the host shutters; a domain of it that was left off is tried again when the
shutter opens. -/
def State.shutOff (s : State) (ds : List Nat) : State :=
  let s := s.domainsOff ds
  { s with pwr := { s.pwr with leftOff := s.pwr.leftOff.filter fun d => !ds.contains d } }

/-- Switches a block on again; before stage 5 start-up does it. -/
def State.shutOn (s : State) (ds : List Nat) : State := if s.boot.stage < 5 then s else s.batchAdd ds

/-- A write of SHUTTER (R360, R361). -/
def State.shutterSet (s : State) (sill transom near far : Bool) : State :=
  let p := s.pwr
  let sillDs := [56, 57, 58, 59]
  let s := { s with pwr := { p with shutSill := sill, shutTransom := transom, shutNear := near, shutFar := far } }
  let s := if sill = p.shutSill then s else if sill then (s.shutOff sillDs).sillLost else s.shutOn sillDs
  let s := if transom = p.shutTransom then s
    else if transom then (s.shutOff [60, 61]).transomLost
    else s.shutOn [60, 61]
  let down (s : State) (l : Nat) : State := (s.linkClear l).linkOff l
  let s := if near = p.shutNear then s
    else if near then (([2, 3].foldl down s)).shutOff [76] else s.shutOn [76]
  if far = p.shutFar then s
  else if far then (([4, 5].foldl down s)).shutOff [77] else s.shutOn [77]

/-- Does a SILL.DRAIN run, whose values the egress Louvre sees (07 R152)? -/
def State.drainRuns (s : State) : Bool :=
  s.eng.lanes.any fun e => decide (e.phase = .running) && match e.job with
    | .drain _ _ _ => true
    | _ => false

/-- Is the unit idle, so that its ACLK branch may be gated (R366)? A partition's queue holds no entry and its drains are
complete (04 R97). -/
def State.unitIdle (s : State) (u : GateUnit) : Bool :=
  let free (q : Nat) : Bool :=
    (s.engine q).running.isNone && !(s.eng.lanes.any fun e => decide (e.queue = q) && decide (e.phase = .running))
  match u with
  | .partition p => free p.val && (s.runs p.val).isEmpty &&
      !(s.eng.lanes.any fun e => decide (e.queue = p.val) && decide (e.phase = .queued))
  | .casement => s.eng.cas.isNone && s.eng.roots.isEmpty && (s.eng.casLast.isNone || decide (32 ≤ s.eng.casIdle))
  | .transom => free 9
  | .jambTransfer => free 10
  | .drainLouvre => s.eng.lats.isEmpty && s.eng.roots.isEmpty
  | .egressLouvre => s.eng.cas.isNone && s.eng.roots.isEmpty && !s.drainRuns
  | .sash => allThreads.all fun t =>
      decide ((s.th t).state = .idle) || decide ((s.th t).state = .latch) || decide ((s.th t).state = .queue)

/-- A partition that is not idle stops the clocks of the ranks to which none of its products gives a row (04 R97). -/
def State.spareRanksOff (s : State) (p : Nat) : State :=
  if (s.runs p).isEmpty then s
  else s.clockRanks p fun rank =>
    (s.weightsAt (s.cellsOf p rank)).gated || (s.runs p).all fun r => decide (s.rankRows r.2 rank = 0)

/-- IDLE_GATE: the unit gates its branch of ACLK; the passing of time opens it again when work has come. -/
def execIdleGate (unit : GateUnit) (s : State) : Result :=
  .next (if !s.unitIdle unit then
      match unit with
      | .partition p => s.spareRanksOff p.val
      | _ => s
    else match unit with
      | .partition p => (s.modEngine p.val fun g => { g with gated := true }).clockRanks p.val fun _ => true
      | .casement => { s with pwr := { s.pwr with casGated := true } }
      | .transom => s.modEngine 9 fun g => { g with gated := true }
      | .jambTransfer => s.modEngine 10 fun g => { g with gated := true }
      | .drainLouvre => { s with pwr := { s.pwr with louvreGated := s.pwr.louvreGated ||| 1 } }
      | .egressLouvre => { s with pwr := { s.pwr with louvreGated := s.pwr.louvreGated ||| 2 } }
      | .sash => { s with pwr := { s.pwr with sashGated := true } })

/-- The Frame of the LIVE plane. -/
def State.liveFrame (s : State) : Option FrameCfg :=
  if s.frame.plane0.state = .live then s.frame.plane0.frame
  else if s.frame.plane1.state = .live then s.frame.plane1.frame else none

/-- Has the partition's queue been empty, and its drains complete, for LATOFF ticks? -/
def State.bandIdle (s : State) (p : Nat) : Bool :=
  let off := s.frame.plan.latOff
  decide (off ≠ 0) && decide (off ≤ (s.engine p).idleTicks) && !(s.eng.lanes.any fun e => decide (e.queue = p))

/-- LATTICE_BAND_OFF (R367). The bands of a split Lattice stay on while its other half's partition needs them. -/
def execLatticeBandOff (p : Fin 8) (s : State) : Result :=
  let det := match s.liveFrame with
    | some f => f.cycDet
    | none => true
  .next (if s.bandIdle p && !det then
      s.domainsOff (bandOrder ((s.partLats p).filter fun l => (s.partsOf l).all s.bandIdle))
    else s)

/-! ### Scrubbing (16 R385) -/

/-- The slot of the context whose Frame holds a region with the line; 0 without one. -/
def State.regionOwner (s : State) (space a : Nat) : Nat :=
  let has (c : Nat) : Bool := match s.frameOf c with
    | some f => f.regions.any fun r => decide (r.space = space) && decide (r.base ≤ a) && decide (a < r.base + r.size)
    | none => false
  if has 0 then 0 else if has 1 then 1 else 0

/-- Does a tensor lie on a line of the scratchpad or the Sill? -/
def Opnd.onLine (o : Opnd) (space line : Nat) : Bool :=
  decide (o.desc.space = space) && (tensorAddrs o.desc fun _ => true).any fun a => decide (a / 128 = line)

/-- The attribution of an uncorrectable error that a scrub finds on a line: the owner of its region, and the entry that used
the line last (R385, R389). -/
def State.scrubEvent (s : State) (space line : Nat) : EventInfo :=
  let i : EventInfo := { eventOf mechScrub 0 with ctx := s.regionOwner space (128 * line) }
  match s.int.uses.find? fun u => u.opnd.onLine space line with
  | some u => { i with stream := u.stream, iseq := u.iseq }
  | none => i

/-- Cycles between two scrubs of a bank. -/
def scrubEvery : Nat := 4096

/-- Is the next scrub of a bank due: the bank has read fewer lines since the commit than its schedule has come to (R385)? -/
def State.scrubDue (s : State) (unit : ScrubUnit) : Bool :=
  let n := match unit with
    | .scratchpad b => SMap.look s.int.doneSpad 0 b.val
    | .sill b => SMap.look s.int.doneSill 0 b.val
  decide (n < s.time.sinceCommit / scrubEvery)

/-- SCRUB: a bank whose time has come reads its next line, and corrects it or records an uncorrectable error. -/
def execScrub (unit : ScrubUnit) (u : Upset) (s : State) : Result :=
  .next (if !s.clk.aclkOn || s.pwr.parked || !s.scrubDue unit then s
    else
      let i := s.int
      let r := match unit with
        | .scratchpad b =>
          let n := SMap.look i.scrubSpad 0 b.val
          ({ i with
            scrubSpad := SMap.put i.scrubSpad 0 b.val ((n + 1) % 5120)
            doneSpad := SMap.put i.doneSpad 0 b.val (SMap.look i.doneSpad 0 b.val + 1) }, 1, 32 * n + b.val)
        | .sill b =>
          let n := SMap.look i.scrubSill 0 b.val
          ({ i with
            scrubSill := SMap.put i.scrubSill 0 b.val ((n + 1) % 2048)
            doneSill := SMap.put i.doneSill 0 b.val (SMap.look i.doneSill 0 b.val + 1) }, 2, 16 * n + b.val)
      let s := { s with int := r.1 }
      if decide (r.2.1 = 2) && s.sillDark then s
      else match u with
        | .clean => s
        | .corrected => if r.2.1 = 2 then s.sillCorrected else s.corrected
        | .fatal d => s.integrity { s.scrubEvent r.2.1 r.2.2 with detail := some d })

end Sys2Proof.Machine
end

