-- ==== Sys2Proof/Machine/Lintel.lean ====
section
/-! DEFINITION. The Lintel store behind its port, the Deadbolt and Hatch (spec/17 R409 to R425). -/

namespace Sys2Proof.Machine

/-! ### Hinge responses that wait for a Lintel write (14 R335, R338) -/

/-- The responses at the head of the order that are decided are presented, and taken while HG_RSP_READY is 1. One that is not
taken is held, and counts among the 16 requests that Belore holds. -/
def State.hgFlush (s : State) : State :=
  let h := s.hinge
  match h.rspReady, h.waiting.takeWhile fun r => r.done with
  | false, _ => s
  | _, [] => s
  | true, rs => { s with hinge := { h with answered := rs, waiting := h.waiting.dropWhile fun r => r.done } }

/-- Counts a request answered DENIED (14 R344). -/
def State.hgDenied (s : State) : State :=
  { s with hinge := { s.hinge with denied := satInc 16 s.hinge.denied, pend := true } }

/-- Decides the response of the oldest request that waits for its Lintel write: 0 OK or 2 DENIED. -/
def State.hgDecide (s : State) (code : BitVec 2) : State :=
  let s := { s with hinge := { s.hinge with
    waiting := updFirst (fun r => !r.done) (fun r => { r with code := code, done := true }) s.hinge.waiting } }
  (if code = 2 then s.hgDenied else s).hgFlush

/-! ### Records (R409, R411) -/

/-- The record of 16 bytes that the port delivers; none when its CHECK fails. -/
def ltParse (rdata : BitVec 128) : Option LtRec :=
  let bs := natLe 16 rdata.toNat
  if crc32c (bs.take 12) = w32 (leNat (bs.drop 12)) then
    some { data := w64 (leNat (bs.take 8)), count := bitsN (leNat ((bs.drop 8).take 4)) 0 17, bad := false }
  else none

/-- The 16 bytes of a record (R409): DATA, COUNT and CHECK. -/
def ltBytes (data : Word) (count : Nat) : List Byte :=
  let b := natLe 8 data.toNat ++ natLe 4 count
  b ++ natLe 4 (crc32c b).toNat

/-- The bits of a record's DATA that have a meaning (R425); the other bits of these indices are reserved, and read as 0 and
ignore a write (00 R14). -/
def ltMask (i : Nat) : Word :=
  match i with
  | 0 => 0x0000FFFFFFFF00FF
  | 1 => 0x3FF
  | 2 => 0x3F3F
  | 16 => 0xFFFFFFFF
  | 64 => 0x1FFFF
  | 65 => 0x3
  | 66 => 0xFFFFFFFF
  | 67 => 0xF
  | 68 => 0x1
  | _ => 0xFFFFFFFFFFFFFFFF

/-- A bad record (R411). -/
def ltBad : LtRec := { data := 0, count := 90000, bad := true }

/-- COUNT at which a record is near its end, and at which it is worn (R416). -/
def ltWarnAt : Nat := 90000
/-- R416. -/
def ltWornAt : Nat := 100000

/-- Logs an event of a record (R425). -/
def State.ltLog (s : State) (index cause event : Nat) : State :=
  { s with lt := { s.lt with
    logIndex := BitVec.ofNat 8 index, logCause := BitVec.ofNat 4 cause, logEvent := BitVec.ofNat 4 event
    logCount := (s.record index).count } }

/-- Raises LINTEL (R425). -/
def State.ltIrq (s : State) : State := s.irqSet 12

/-- Puts a record into the shadow. -/
def State.setRecord (s : State) (i : Nat) (r : LtRec) : State :=
  { s with lt := { s.lt with shadow := SMap.put s.lt.shadow LtRec.init i r } }

/-- A record that is bad or breaks its rule: LT_STAT.BAD and the log (R411, R423). -/
def State.ltBadSeen (s : State) (i : Nat) : State :=
  ({ s with lt := { s.lt with bad := true } }.ltLog i 0 4).ltIrq

/-- Takes a record as read; a bad one stands at once under the warning of R416 (R411). -/
def State.ltTake (s : State) (i : Nat) (r : Option LtRec) : State :=
  match r with
  | some r => s.setRecord i r
  | none => { s.setRecord i ltBad with lt := { (s.setRecord i ltBad).lt with warn := true } }.ltBadSeen i

/-- A denied or failed write (R412, R414): DENY, the count and the log. -/
def State.ltDeny (s : State) (index cause event : Nat) : State :=
  ({ s with lt := { s.lt with deny := true, denies := satInc 16 s.lt.denies } }.ltLog index cause event).ltIrq

/-! ### Applying the records at stage 1 (R423, R424) -/

/-- LT_GRADE: the working Lattices, their enable bits and BOOSTCAP; none when the rule breaks. -/
def gradeOf (r : LtRec) : Option (Nat × BitVec 4 × Bool) :=
  let v := r.data.toNat
  let dis := bitsN v 0 4
  let n := ((List.range 4).filter fun i => bitN dis i).length
  let g := bitsN v 4 3
  if !r.bad && decide (2 ≤ g) && decide (g ≤ 4) && decide (n = 4 - g) then some (g, BitVec.ofNat 4 (15 - dis), bitN v 7)
  else none

/-- LT_SPARE: the logical banks on the spares; none when the rule breaks. -/
def spareOf (r : LtRec) : Option (Option (Fin 32) × Option (Fin 32)) :=
  let v := r.data.toNat
  let a := if bitN v 5 then some (Fin.ofNat 32 (bitsN v 0 5)) else none
  let b := if bitN v 13 then some (Fin.ofNat 32 (bitsN v 8 5)) else none
  if r.bad || (a.isSome && decide (a = b)) then none else some (a, b)

/-- The identity of a core: 0xFFFF is reserved and stands for none. -/
def nodeOf (v : Nat) : BitVec 16 := if bitsN v 0 16 = 0xFFFF then 0 else BitVec.ofNat 16 v

/-- What stage 1 leaves of a set of applied values: identity, selected source, spare shutters, watchdog, trim. -/
def State.applied (s : State) (a : Applied) : State :=
  { s with
    lt := { s.lt with applied := a }
    door := { s.door with node := a.node }
    clk := { s.clk with sel := a.source }
    frame := { s.frame with plan := { s.frame.plan with src := a.source } }
    pwr := { s.pwr with shutSpare := BitVec.ofNat 2 (b2n a.spare0.isNone + 2 * b2n a.spare1.isNone) }
    boot := { s.boot with lintelDone := true, trimApplied := true } }

/-- Applies the vendor and owner records of the shadow. -/
def State.applyRecords (s : State) : State :=
  let g := gradeOf (s.record 0)
  let sp := spareOf (s.record 2)
  let s := if g.isNone then s.ltBadSeen 0 else s
  let s := if sp.isNone then s.ltBadSeen 2 else s
  let g := g.getD (0, 0, false)
  let sp := sp.getD (none, none)
  s.applied
    { grade := g.1, latEn := g.2.1, boostCap := g.2.2, spare0 := sp.1, spare1 := sp.2
      trim := if (s.record 1).bad then 512 else BitVec.ofNat 10 (s.recData 1)
      source := sourceOf (bitsN (s.recData 65) 0 2), wdDefault := bitsN (s.recData 66) 0 32
      node := nodeOf (s.recData 64), spareCore := bitN (s.recData 64) 16 }

/-- Start-up without the store (15 R374): nothing of it counts as read. -/
def State.noStore (s : State) : State :=
  let isRead (q : LtReq) : Bool := match q with
    | .read _ => true
    | _ => false
  let s := { s with
    boot := { s.boot with lintelErr := true }
    lt := { s.lt with shadow := [], reqs := s.lt.reqs.filter fun q => !isRead q } }
  (s.applied Applied.init).ltIrq

/-! ### Writes (R412 to R416) -/

/-- The first condition of R412 that a write breaks: its CAUSE. -/
def State.ltRefuses (s : State) (bcast : Bool) (i : Nat) : Option Nat :=
  if bcast then some 8
  else if !s.lt.asserted then some 1
  else if recVendor i && !s.lt.hatchActive then some 2
  else if !recVendor i && s.lt.hatchActive then some 3
  else if i = 16 then some 2
  else if ltWornAt ≤ (s.record i).count then some 4
  else if s.lt.pfail then some 5
  else none

/-- Sends a request to the port, behind those that wait. -/
def State.ltSend (s : State) (q : LtReq) : State := { s with lt := { s.lt with reqs := s.lt.reqs ++ [q] } }

/-- Replaces the outstanding request by another, which is not taken yet. -/
def State.ltNext (s : State) (q : Option LtReq) : State :=
  { s with lt := { s.lt with reqs := q.toList ++ s.lt.reqs.drop 1, ticks := 0, taken := false } }

/-- What the Lintel port shows (R417). -/
structure LtPort where
  valid : Bool
  write : Bool
  index : Nat
  wdata : Nat
  deriving DecidableEq, Repr

/-- The record that a write sends: its DATA, the shadow COUNT plus 1, and a fresh CHECK (R413). -/
def State.ltWdata (s : State) (i : Nat) (d : Word) : Nat := leNat (ltBytes d ((s.record i).count + 1))

/-- LT_REQ_VALID, WRITE, INDEX and WDATA: the request at the head is shown until it is taken, and none while a request that
timed out is still outstanding (R414, R417). -/
def State.ltPort (s : State) : LtPort :=
  let off : LtPort := { valid := false, write := false, index := 0, wdata := 0 }
  if s.lt.late || s.lt.taken then off
  else match s.lt.reqs.head? with
    | some (.write i d) => { valid := true, write := true, index := i, wdata := s.ltWdata i d }
    | some .hatch => { valid := true, write := true, index := 16, wdata := s.ltWdata 16 ((s.record 16).data + 1) }
    | some (.readBack i _) => { off with valid := true, index := i }
    | some (.read i) => { off with valid := true, index := i }
    | none => off

/-- A write of a record retires (R413, R416). -/
def State.ltRetire (s : State) (i : Nat) (d : Word) : State :=
  let n := (s.record i).count + 1
  let s := s.setRecord i { data := d, count := n, bad := false }
  let s := { s with lt := { s.lt with writes := satInc 16 s.lt.writes } }
  let s := if n = ltWarnAt then ({ s with lt := { s.lt with warn := true } }.ltLog i 0 3).ltIrq else s
  if i = 68 then s.boostCheck else s

/-- A read-back (R414). -/
def State.ltResolve (s : State) (i : Nat) (d : Word) (r : Option LtRec) : State :=
  let s := { s with lt := { s.lt with resolved := true, landed := match r with
    | some r => decide (r.data = d)
    | none => false } }
  let s := (s.ltLog i 0 5).ltIrq
  let s := match r with
    | some r => (s.setRecord i r).ltLog i 0 5
    | none => s.ltTake i none
  if i = 68 then s.boostCheck else s

/-! ### Hatch (R419 to R422) -/

/-- Entry is refused with a RESULT; none where the spec gives no code and RESULT keeps its value. -/
def State.hatchRefuse (s : State) (result : Option (BitVec 8)) : State :=
  { s with lt := { s.lt with
    hatchReq := false, hatchErr := true, hatchResult := result.getD s.lt.hatchResult } }

/-- Enters Hatch: threads are IDLE, both planes EMPTY, every link OFF and the Wicket closed (R419, R421). A staging that a host
began behind the procedure's check ends with its plane. -/
def State.hatchEnter (s : State) : State :=
  let s := { s with lt := { s.lt with
    hatchReq := false, hatchResult := 0, hatchActive := true, hatchSince := true } }.ltIrq
  let s := allThreads.foldl (fun s t =>
    s.modTh t fun x => { x with state := .idle, wait := .none, stopAsked := false }) s
  let s := { s with frame := { s.frame with plane0 := Plane.init, plane1 := Plane.init, busy := false } }
  let s := { s with door := { s.door with held := true } }
  (List.range 6).foldl (fun s l => (s.linkClear l).linkOff l) s

/-- Hatch ends: start-up begins again at stage 1, and the store is read again (R422). Until that stage completes the watchdog
has its reset period (11 R259). -/
def State.hatchEnd (s : State) : State := if s.lt.hatchActive then ((s.coreReset.stageOne).wdSet 0 0).ltIrq else s

/-- The increment of LT_HATCHCNT that Hatch entry makes first (R421). -/
def State.hatchCount (s : State) : Word := (s.record 16).data + 1

/-- Are both planes EMPTY? -/
def State.planesEmpty (s : State) : Bool :=
  decide (s.frame.plane0.state = .empty) && decide (s.frame.plane1.state = .empty)

/-- Is an increment for Hatch entry under way? -/
def State.hatchWriting (s : State) : Bool := s.lt.reqs.contains .hatch

/-- HATCH_PROCEDURE_COMPLETE. A plane that was not EMPTY when REQ was written breaks step 1 of R420 as one that is not now. -/
def execHatchProcedureComplete (s : State) : Result :=
  .next (if !s.lt.hatchReq || s.hatchWriting || decide (1000000 < s.lt.hatchTicks) then s
    else if !s.lt.asserted then s.hatchRefuse none
    else if !s.lt.hatchArmed || !s.planesEmpty then s.hatchRefuse (some 1)
    else if ltWornAt ≤ (s.record 16).count then s.hatchRefuse (some 2)
    else s.ltSend .hatch)

/-- HATCH_TIMEOUT: the procedure has not been completed in time (R420). -/
def execHatchTimeout (s : State) : Result :=
  .next (if s.lt.hatchReq && !s.hatchWriting && decide (1000000 ≤ s.lt.hatchTicks) then
      { s with lt := { s.lt with hatchReq := false } }.goCleared .hatch
    else s)

/-- HATCH_PROCEDURE_END. -/
def execHatchProcedureEnd (s : State) : Result := .next s.hatchEnd

/-! ### The port -/

/-- LINTEL_RESPONSE: the port answers the outstanding request. After a timeout the late answer only frees the port
for the read-back (R414, R417). -/
def execLintelResponse (code : BitVec 2) (rdata : BitVec 128) (s : State) : Result :=
  let ok := decide (code = 0)
  .next (
    if s.lt.late then { s with lt := { s.lt with late := false, taken := false, ticks := 0 } }
    else match s.lt.reqs.head? with
      | none => s
      | some (.write i d) =>
        if ok then ((s.ltNext none).ltRetire i d).hgDecide 0
        else ((s.ltNext (some (.readBack i d))).ltDeny i 6 2).hgDecide 2
      | some .hatch =>
        let d := s.hatchCount
        if ok then
          let s := (s.ltNext none).ltRetire 16 d
          if s.lt.asserted then s.hatchEnter else s.hatchRefuse none
        else ((s.ltNext (some (.readBack 16 d))).ltDeny 16 6 2).hatchRefuse (some 3)
      | some (.readBack i d) => (s.ltNext none).ltResolve i d (if ok then ltParse rdata else none)
      | some (.read i) =>
        if !ok then ((s.ltNext none).noStore).stageGo
        else
          let s := (s.ltNext none).ltTake i (ltParse rdata)
          if i = 255 then (s.applyRecords).stageGo else s)

/-- LINTEL_TIMEOUT: the port has not answered a write within 50 ticks of taking it (R414). -/
def execLintelTimeout (s : State) : Result :=
  .next (
    if s.lt.late || !s.lt.taken || decide (s.lt.ticks < 50) then s
    else match s.lt.reqs.head? with
      | some (.write i d) =>
        let s := ((s.ltNext (some (.readBack i d))).ltDeny i 7 2).hgDecide 2
        { s with lt := { s.lt with late := true } }
      | some .hatch =>
        let d := s.hatchCount
        let s := ((s.ltNext (some (.readBack 16 d))).ltDeny 16 7 2).hatchRefuse (some 3)
        { s with lt := { s.lt with late := true } }
      | _ => s)

/-- LINTEL_READ_TIMEOUT: 2 ms without a complete read of the store (15 R374). -/
def execLintelReadTimeout (s : State) : Result :=
  .next (if s.boot.stage = 1 && !s.boot.lintelDone && decide (2000 ≤ s.time.bootTicks) then
      let out := match s.lt.reqs.head? with
        | some (.read _) => s.lt.taken
        | _ => s.lt.late
      let s := { s.noStore with lt := { s.noStore.lt with late := out, taken := s.lt.taken && !out } }
      (s.toStage 2).stageGo
    else s)

/-- DEADBOLT_ASSERT: 16 consecutive low samples (R418). There cannot be so many before 16 ticks have passed since the last high
one, or since AON_RST_N. -/
def execDeadboltAssert (s : State) : Result :=
  .next (if s.boot.aonRst || decide (s.lt.lowTicks < 16) then s else { s with lt := { s.lt with asserted := true, seen := true } })

/-- DEADBOLT_RELEASE: the first high sample; it ends Hatch (R418, R422). -/
def execDeadboltRelease (s : State) : Result := .next ({ s with lt := { s.lt with asserted := false, lowTicks := 0 } }.hatchEnd)

/-- LT_PFAIL_N. -/
def execLtPfailN (level : Bool) (s : State) : Result := .next { s with lt := { s.lt with pfail := !level } }

end Sys2Proof.Machine
end

