-- ==== Sys2Proof/Machine/Frame.lean ====
section
/-! DEFINITION. Staging, commit, effect point, discard and forced end of a Frame (spec/12 R277 to R286). -/

namespace Sys2Proof.Machine

/-! ### Results -/

/-- Posts the RESULT of an operation: BUSY falls and FRAME is raised (R277, 14 R344). WHERE names the
failing field of a staging result and is 0 for every other result (R278, R286; DEDUCED, log entry 39). -/
def State.framePost (s : State) (result : Nat) (at0 : Option Nat) : State :=
  ({ s with frame := { s.frame with
    result := BitVec.ofNat 8 result, busy := false
    whereField := match at0 with
      | some w => BitVec.ofNat 16 w
      | none => 0 } }).irqSet 4 |> fun t => if s.frame.busy then t.goCleared .frame else t

/-- GO did nothing (R284 to R286). -/
def State.frameErr (s : State) : State := { s with frame := { s.frame with err := true } }

/-- RESULT of R279 to R285. -/
def frNotStaged : Nat := 0x20
def frOverlap : Nat := 0x21
def frClockNotReady : Nat := 0x22
def frNotQuiescent : Nat := 0x23
def frCancelled : Nat := 0x24

/-! ### Staging (R277, R278) -/

/-- OP 1: rows 1 and 2 of R278, then the reads of the Frame into the EMPTY plane. -/
def State.frameStage (s : State) : State :=
  let len := s.frame.len.toNat
  let e0 := decide (s.frame.plane0.state = .empty)
  let e1 := decide (s.frame.plane1.state = .empty)
  if !e0 && !e1 then s.framePost frPlaneBusy (some 0)
  else if decide (len % 8 ≠ 0) || decide (len < 64) || decide (65536 < len) then s.framePost frBadLength (some 0)
  else
    let p := if e0 then 0 else 1
    let rs := readRange (.staging p s.frame.addr.toNat) .staging s.frame.addr.toNat len
    let s := { s with frame := { s.frame with busy := true } }
    (s.modPlane p fun _ => { Plane.init with
      state := .staging, image := List.replicate len 0, readsOut := rs.length }).jambAdd rs

/-- Memory has answered a read of the Frame at `base`: its bytes, in ascending order, take their place. -/
def State.stagingGot (s : State) (p base : Nat) (cs : List Host.Cell) (ok : Bool) : State :=
  s.modPlane p fun x =>
    let mine := cs.filter fun c => decide (base ≤ c.1) && decide (c.1 < base + x.image.length)
    let image := match mine with
      | [] => x.image
      | c :: _ => x.image.take (c.1 - base) ++ mine.map (fun c => c.2) ++ x.image.drop (c.1 - base + mine.length)
    { x with image := image, readsOut := x.readsOut - 1, imageErr := x.imageErr || !ok }

/-- The plane that is STAGING. -/
def State.stagingPlane (s : State) : Option Nat :=
  if s.frame.plane0.state = .staging then some 0 else if s.frame.plane1.state = .staging then some 1 else none

/-- What the checks of plane p take from the core. -/
def State.frameEnv (s : State) (p : Nat) : FrameEnv :=
  { grade := s.lt.applied.grade, latEn := s.lt.applied.latEn, boost := s.boostOk
    others := match s.frameOf (1 - p) with
      | some f => [f.ctxid]
      | none => [] }

/-- A refused Frame leaves the plane EMPTY. -/
def State.stageRefused (s : State) (p result at0 : Nat) : State :=
  (s.modPlane p fun _ => Plane.init).framePost result (some at0)

/-- FRAME_STAGING_RESULT: every byte of the Frame has arrived, and rows 3 to 13 of R278 decide. -/
def execFrameStagingResult (s : State) : Result :=
  .next (match s.stagingPlane with
    | none => s
    | some p =>
      let x := s.plane p
      if x.readsOut ≠ 0 then s
      else if x.imageErr then s.stageRefused p frMemory 0
      else match frameFault x.image (s.frameEnv p) with
        | some r => s.stageRefused p r.1 r.2
        | none =>
          (s.modPlane p fun x => { x with
            state := .staged, frame := some (frameOfBytes x.image), image := [] }).framePost 0 none)

/-! ### Commit (R279 to R282) -/

/-- The plane that a commit or a discard takes: the one STAGED, of two the one that SLOT names. -/
def State.stagedBy (s : State) (slot : Nat) : Option Nat :=
  match decide (s.frame.plane0.state = .staged), decide (s.frame.plane1.state = .staged) with
  | true, true => some slot
  | true, false => some 0
  | false, true => some 1
  | false, false => none

/-- Rows 2 and 3 of R279. -/
def State.commitBad (s : State) (f : FrameCfg) : Option Nat :=
  let a := s.lt.applied
  if decide (a.grade < f.minGrade) || !assignOk f.assign.toNat a.latEn false then some frGrade
  else match f.power with
    | some p => if s.srcReady p.src then none else some frClockNotReady
    | none => none

/-- Rule 1 of R280. -/
def assignKept (old new : BitVec 32) : Bool :=
  let h (v : BitVec 32) (i : Nat) : Nat := bitsN v.toNat (4 * i) 4
  (List.range 8).all fun i =>
    if h old i = 15 then decide (h new i = 15) || (List.range 8).all fun j => decide (h old j ≠ h new i)
    else decide (h new i = h old i)

/-- Is the region shared, with its TAG shared in the other Frame too? -/
def sharedTag (rs : List Region) (r : Region) : Bool := r.shared && rs.any fun q => q.shared && decide (q.tag = r.tag)

/-- The rules of R280. -/
def overlapOk (old new : FrameCfg) : Bool :=
  assignKept old.assign new.assign &&
  (new.regions.all fun r =>
    if sharedTag old.regions r then
      old.regions.all fun q => !(q.shared && decide (q.tag = r.tag)) ||
        (decide (q.space = r.space) && decide (q.base = r.base) && decide (q.size = r.size))
    else old.regions.all fun q => !regionsMeet r q) &&
  decide ((old.doorway.map fun d => d.raw) = new.doorway.map fun d => d.raw) && decide (old.tracker = new.tracker)

/-- Does the other plane hold a committed context that has not ended? -/
def State.otherRuns (s : State) (p : Nat) : Bool :=
  let o := s.plane (1 - p)
  (decide (o.state = .live) || decide (o.state = .ending)) && !o.finished

/-- The group store at commit (08 R170). -/
def commitGroups (f : FrameCfg) : SMap GroupState :=
  match f.update with
  | some u => u.groups.foldl (fun m g =>
      SMap.put m GroupState.init g.1 { GroupState.init with step := (g.2.getD 1 0).setWidth 32 }) []
  | none => []

/-- A bank with the INIT values of a Frame (11 R251). -/
def bankInit (m : SMap (BitVec 8)) (bank : Nat) (f : FrameCfg) : SMap (BitVec 8) :=
  f.latches.zipIdx.foldl (fun m l => SMap.put m 0 (48 * bank + l.2) (BitVec.ofNat 8 l.1.1))
    (SMap.drop m fun k => k / 48 = bank)

/-- The cycles that the spare lane group and the scrubs count start again with a commit (06 R149, 16 R385). -/
def State.commitCounts (s : State) : State :=
  { s with time := { s.time with sinceCommit := 0 }, int := { s.int with doneSpad := [], doneSill := [] } }

/-- The commit cycle (R281). A parked core restarts ACLK. -/
def State.commitTo (s : State) (p : Nat) (f : FrameCfg) : State :=
  let s := s.commitCounts
  let s := s.modPlane (1 - p) fun x => if x.state = .live then { x with state := .ending } else x
  let s := s.modPlane p fun x => { x with
    state := .live, started := false, finished := false, groups := commitGroups f, norm := Norm.init, held := none }
  let s := { s with
    latch := { s.latch with counts := bankInit s.latch.counts p f }
    frame := { s.frame with effect := some p, effectDue := false } }
  (s.framePost 0 none).wakeAsk

/-- OP 2 (R279, R280, R282). -/
def State.frameCommit (s : State) : State :=
  match s.stagedBy (b2n s.frame.slotField) with
  | none => s.framePost frNotStaged none
  | some p =>
    match s.frameOf p with
    | none => s
    | some f =>
      match s.commitBad f with
      | some r => s.framePost r none
      | none =>
        let meets := match s.frameOf (1 - p) with
          | some o => !s.otherRuns p || overlapOk o f
          | none => true
        if meets then s.commitTo p f
        else if s.frame.waitField then
          { s with frame := { s.frame with busy := true } }.modPlane p fun x => { x with state := .commitWait }
        else s.framePost frOverlap none

/-- The plane in COMMIT_WAIT. -/
def State.waitingPlane (s : State) : Option Nat :=
  if s.frame.plane0.state = .commitWait then some 0
  else if s.frame.plane1.state = .commitWait then some 1 else none

/-- COMMIT_WAIT_RESOLVE: the other context has ended (R282). -/
def execCommitWaitResolve (s : State) : Result :=
  .next (match s.waitingPlane with
    | none => s
    | some p =>
      if s.otherRuns p then s
      else match s.frameOf p with
        | none => s
        | some f =>
          match s.commitBad f with
          | some r => (s.modPlane p fun x => { x with state := .staged }).framePost r none
          | none => s.commitTo p f)

/-! ### The effect point (R281, R239) -/

/-- The counts of the weave restart (10 R249), and so does the weave counter. -/
def State.weaveRestart (s : State) : State :=
  let s := (List.range 11).foldl (fun s q => s.modEngine q fun g => { g with
    used := 0, idle := 0, overrun := 0, lentCount := 0 }) s
  { s with eng := { s.eng with weave := 0 } }

/-- The DOORWAY section takes effect: the links start again under another section, or when none of them is running. -/
def State.doorTaken (s : State) (f : FrameCfg) : State :=
  let raw (d : Option DoorCfg) : Option (List Byte) := d.map fun d => d.raw
  let off := (List.range 6).all fun l => decide ((s.link l).state = .off)
  let again := decide (raw s.frame.doorway ≠ raw f.doorway) || off || s.rpl.active
  let s := { s with
    frame := { s.frame with doorway := f.doorway }
    door := { s.door with held := s.door.held && f.doorway.isNone } }
  if again then s.doorRestart else s

/-- The core-wide sections of the LIVE plane take effect (R264, R281, 11 R259, 15 R361, R371). -/
def State.coreWide (s : State) (f : FrameCfg) : State :=
  let s := { s with frame := { s.frame with
    assign := f.assign, mullion := f.mullion, fault := f.fault, jambTags := f.tracker.1 } }
  let s := (s.wdSet f.fault.wdPeriod (bitsN (s.recData 66) 0 32)).followAssign
  let s := match f.power with
    | some p => s.planTaken p
    | none => s
  s.doorTaken f

/-- The clock of a partition that the effect point assigns stands until its first instruction (04 R97). A partition that the
context before it still has keeps its clock (DEDUCED, log entry 49). -/
def State.clocksAssigned (s : State) (old : BitVec 32) (alone : Bool) : State :=
  let halves (a : BitVec 32) (p : Nat) : List Nat := (List.range 8).filter fun i => decide (bitsN a.toNat (4 * i) 4 = p)
  (List.range 8).foldl (fun s p =>
    let now := halves s.frame.assign p
    if now.isEmpty || (!alone && decide (now = halves old p)) then s
    else (s.modEngine p fun g => { g with gated := true }).clockRanks p fun _ => true) s

/-- A restored checkpoint gives the context its latches, group and norm state and accumulators (16 R405). -/
def State.restoreTaken (s : State) (c : Nat) (r : Restored) : State :=
  let s := s.modPlane c fun p => { p with groups := r.groups, norm := r.norm }
  let counts := r.latches.zipIdx.foldl (fun m l => SMap.put m 0 (48 * c + l.2) l.1) s.latch.counts
  let accums := r.accums.foldl (fun m a => SMap.put m Accum.init (32 * c + a.1) a.2)
    (SMap.drop s.eng.accums fun k => k / 32 = c)
  let s := { s with latch := { s.latch with counts := counts }, eng := { s.eng with accums := accums } }
  match r.threads[3]? with
  | some v => { s with sash := { s.sash with evec := v.evec, epc := v.epc } }
  | none => s

/-- A context starts: EVEC is set, and each IDLE thread with a place in it starts (R281, 09 R196). A thread whose
checkpoint has it IDLE has ended its part. -/
def State.contextStart (s : State) (c : Nat) : State :=
  match s.frameOf c with
  | none => s
  | some f =>
    let s := s.modPlane c fun p => { p with started := true }
    let s := { s with sash := { s.sash with evec := f.evec } }
    let s := match (s.plane c).restored with
      | some r => s.restoreTaken c r
      | none => s
    allThreads.foldl (fun s t =>
      if (s.th t).state = .idle && s.startsIn c t f then s.startThread c t f else s) s

/-- Does the plane hold a committed context that has not started? -/
def Plane.due (p : Plane) (st : PlaneState) : Bool := decide (p.state = st) && !p.started && !p.finished

/-- The committed contexts that start now, the superseded one first. -/
def State.startsDue (s : State) : List Nat :=
  [0, 1].filter (fun c => (s.plane c).due .ending) ++ [0, 1].filter fun c => (s.plane c).due .live

/-- EFFECT_POINT: a commit takes effect in the first later cycle in which the weave counter is a multiple of 256. -/
def execEffectPoint (s : State) : Result :=
  .next (match s.frame.effect with
    | none => s
    | some p =>
      if !s.frame.effectDue || !s.clk.aclkOn then s
      else match s.frameOf p with
        | none => s
        | some f =>
          let s := { s with
            frame := { s.frame with effect := none, effectDue := false }
            boot := { s.boot with stage := if s.boot.stage = 7 then 8 else s.boot.stage } }
          let old := s.frame.assign
          let s := (((s.weaveRestart).replayBegin p).coreWide f).clocksAssigned old (!s.otherRuns p)
          (s.startsDue.foldl State.contextStart s).replayGo)

/-! ### Discard and forced end (R284, R285) -/

/-- OP 3. A COMMIT_WAIT is cancelled. -/
def State.frameDiscard (s : State) : State :=
  match s.waitingPlane with
  | some p => (s.endContext p).framePost frCancelled none
  | none =>
    match s.stagedBy (b2n s.frame.slotField) with
    | some p => (s.endContext p).framePost 0 none
    | none => s.frameErr

/-- Is the context quiescent (R285)? -/
def State.quiescent (s : State) (c : Nat) : Bool :=
  (allThreads.all fun t =>
    let x := s.th t
    decide (x.ctx ≠ c) || decide (x.state = .idle) || decide (x.state = .stopped)) &&
  !(s.eng.lanes.any fun e => decide (e.ctx = c))

/-- OP 4. A commit that waits for its effect point ends with its context. A plane whose context has ended and whose
write-backs are still out is LIVE or ENDING (R263, R283): nothing is left to end (log entry 22). -/
def State.frameForce (s : State) : State :=
  let c := b2n s.frame.slotField
  let p := s.plane c
  if !(decide (p.state = .live) || decide (p.state = .ending)) then s.frameErr
  else if !s.quiescent c then s.framePost frNotQuiescent none
  else if p.finished then s.framePost 0 none
  else
    let s := allThreads.foldl (fun s t =>
      if (s.th t).ctx = c && (s.th t).state = .stopped then
        s.modTh t fun x => { x with state := .idle, wait := .none }
      else s) s
    let s := if s.frame.effect = some c then { s with frame := { s.frame with effect := none, effectDue := false } } else s
    (s.endContext c).framePost 0 none

/-! ### FRAME_CTL (R286, R287) -/

/-- A write of FRAME_CTL: the fields, and with GO the operation. -/
def State.frameCtl (s : State) (len : BitVec 17) (op : BitVec 3) (wait slot go : Bool) : State :=
  let s := { s with frame := { s.frame with len := len, opField := op, waitField := wait, slotField := slot } }.wakeAsk
  let cancel := decide (op = 3) && s.waitingPlane.isSome
  if !go || s.goIgnored .frame then s
  else if decide (5 ≤ op.toNat) then s.frameErr
  else if s.frame.busy && !cancel then s.goRefused .frame
  else match op.toNat with
    | 1 => s.frameStage
    | 2 => s.frameCommit
    | 3 => s.frameDiscard
    | 4 => s.frameForce
    | _ => s

end Sys2Proof.Machine
end

