-- ==== Sys2Proof/Machine/Checkpoint.lean ====
section
/-! DEFINITION. Checkpoints and takeover (spec/16 R403 to R406). -/

namespace Sys2Proof.Machine

/-! ### The image (R403) -/

/-- MAGIC. -/
def ckptMagic : Nat := 0x54504B43

/-- Bytes before the regions. -/
def ckptFixed : Nat := 0x41800

/-- The regions that a checkpoint saves. -/
def savedRegions (f : FrameCfg) : List Region := f.regions.filter fun r => r.save

/-- The header; its fields stand in the order of R403, each in 4 bytes but the length in 8 (log entry 30). -/
def ckptHeader (s : State) (f : FrameCfg) (len crc : Nat) : List Byte :=
  natLe 4 ckptMagic ++ natLe 4 1 ++ natLe 4 f.ctxid.toNat ++ natLe 4 f.digest.toNat ++
  (allThreads.flatMap fun t => natLe 4 (s.th t).stepno.toNat) ++ natLe 8 len ++ natLe 4 crc ++ natLe 20 0

/-- The block of a thread: registers, PC, state, STEPNO and WSEQ, ISEQ and FFLAGS, EVEC and EPC (log entry 30). -/
def ckptThread (s : State) (c : Nat) (t : Thread) : List Byte :=
  let x := s.th t
  let code := if x.ctx = c then x.state.code else 0
  ((List.range 32).flatMap fun r => natLe 8 (SMap.look x.regs 0 r).toNat) ++ natLe 8 x.pc.toNat ++ natLe 8 code ++
  natLe 4 x.stepno.toNat ++ natLe 4 x.wseq.toNat ++ natLe 4 x.iseq.toNat ++ natLe 4 x.fflags.toNat ++
  (if t = .S then natLe 8 s.sash.evec.toNat ++ natLe 8 s.sash.epc.toNat else natLe 16 0) ++ natLe 16 0

/-- The bytes of a region. -/
def State.regionBytes (s : State) (r : Region) : List Byte := Mem.bytes (s.bytesOf r.space []) r.base r.size

/-- The image behind its header. -/
def State.ckptBody (s : State) (c : Nat) (f : FrameCfg) : List Byte :=
  let n := (s.plane c).norm
  (allThreads.flatMap fun t => ckptThread s c t) ++
  ((List.range 48).flatMap fun k => natLe 1 (s.latchCount c k).toNat) ++ natLe 16 0 ++
  ((List.range 256).flatMap fun g => natLe 8 (groupWord (s.groupState c g)).toNat) ++
  natLe 8 (normStatWord n).toNat ++ natLe 8 n.sum.toNat ++ natLe 8 n.kappa.toNat ++ natLe 8 0 ++
  ((List.range 32).flatMap fun a => exactPayload (SMap.look s.eng.accums Accum.init (32 * c + a))) ++ natLe 96 0 ++
  Mem.bytes s.sash.dmem 0 262144 ++ ((savedRegions f).flatMap fun r => s.regionBytes r)

/-- The length of the image. -/
def ckptLength (f : FrameCfg) : Nat := ckptFixed + ((savedRegions f).map fun r => r.size).sum

/-- The image with its CRC. -/
def State.ckptImage (s : State) (c : Nat) (f : FrameCfg) : List Byte :=
  let n := ckptLength f
  let body := s.ckptBody c f
  let crc := crc32c (ckptHeader s f n 0 ++ body)
  ckptHeader s f n crc.toNat ++ body

/-! ### Saving (R404) -/

/-- Counts the accesses to a region's lines that a dark Sill or a left-off bank answers (15 R357, R360, 16 R393). -/
def State.regionShut (s : State) (r : Region) : State :=
  let n := ceilDiv r.size 128
  if r.space = 1 then s.linesShut ((List.range n).map fun i => r.base / 128 + i)
  else if s.sillDark then s.shutAccess s.sillCode n else s

/-- Do bytes of the scratchpad lie between two offsets of an image, whose regions begin at `off`? -/
def spadBetween (rs : List Region) (off lo hi : Nat) : Bool :=
  match rs with
  | [] => false
  | r :: rest =>
    (decide (r.space = 1) && decide (off < hi) && decide (lo < off + r.size)) || spadBetween rest (off + r.size) lo hi

/-- The writes of the image. Those of scratchpad bytes come under the egress hold (R386). -/
def State.ckptWrite (s : State) : State :=
  let c := b2n s.rpl.ckptPlane
  match s.frameOf c with
  | none => s.ckptDone 1
  | some f =>
    let base := s.rpl.ckptBase
    let holds (r : JReq) : Bool :=
      spadBetween (savedRegions f) ckptFixed (256 * r.block - base) (256 * (r.block + 1) - base)
    let rs := (writeReqs .ckpt .journal false (cellsAt base (s.ckptImage c f))).map fun r =>
      { r with held := holds r, hold := if holds r then 40 else 0 }
    let s := (savedRegions f).foldl State.regionShut s
    { s with rpl := { s.rpl with ckptStage := 2, ckptOut := rs.length, ckptFail := false } }.jambAdd rs

/-- The image follows once the context's dirty descriptor entries have been written back. -/
def State.ckptGo (s : State) : State :=
  if s.rpl.ckptStage = 1 && !s.wbPending (b2n s.rpl.ckptPlane) none then s.ckptWrite else s

/-- May the context be saved: it runs, is quiescent (R285), and has no open completion post? -/
def State.ckptReady (s : State) (c : Nat) : Bool :=
  let p := s.plane c
  (decide (p.state = .live) || decide (p.state = .ending)) && !p.finished && s.quiescent c &&
  !(allThreads.any fun t => (s.th t).posts.any fun q => decide (q.ctx = c))

/-- OP 1. -/
def State.ckptSave (s : State) : State :=
  let c := b2n s.rpl.ckptPlane
  if !s.ckptReady c then s.ckptDone 1
  else ({ s with rpl := { s.rpl with ckptBusy := true, ckptStage := 1, ckptBase := s.rpl.ckptAddr.toNat } }.dcClean c).ckptGo

/-! ### Restoring (R405) -/

/-- OP 2: reads the header of the image. -/
def State.ckptRestore (s : State) : State :=
  let base := s.rpl.ckptAddr.toNat
  let rs := readRange .ckpt .journal base 64
  { s with rpl := { s.rpl with
    ckptBusy := true, ckptStage := 3, ckptBase := base, ckptLen := 64, ckptOut := rs.length, ckptFail := false, ckptBuf := [] } }.jambAdd rs

/-- A thread of an image. -/
def savedThread (m : Mem) (t : Thread) : SavedThread :=
  let o := 0x40 + 320 * Thread.num t
  let n (off k : Nat) : Nat := Mem.num m (o + off) k
  { regs := (List.range 31).foldl (fun r i => SMap.put r 0 (i + 1) (w64 (n (8 * (i + 1)) 8))) []
    pc := BitVec.ofNat 48 (n 256 8), code := n 264 8, stepno := w32 (n 272 4), wseq := w32 (n 276 4)
    iseq := w32 (n 280 4), fflags := BitVec.ofNat 5 (n 284 4), evec := BitVec.ofNat 48 (n 288 8)
    epc := BitVec.ofNat 48 (n 296 8) }

/-- The group state of a UPD_GROUP word. -/
def groupOfWord (w : Nat) : GroupState :=
  { step := w32 w, rootFail := bitN w 32, fallback := bitN w 33, lastIt := bitsN w 40 5, fails := bitsN w 48 16 }

/-- What an image holds beside memories. -/
def restoredOf (m : Mem) : Restored :=
  { threads := allThreads.map (savedThread m)
    latches := (List.range 48).map fun k => SMap.look m 0 (0x540 + k)
    groups := (List.range 256).foldl (fun g i => SMap.put g GroupState.init i (groupOfWord (Mem.num m (0x580 + 8 * i) 8))) []
    norm :=
      let st := Mem.num m 0xD80 8
      { step := w32 st, state := bitsN st 32 2, sum := w64 (Mem.num m 0xD88 8), kappa := w64 (Mem.num m 0xD90 8) }
    accums := (List.range 32).foldl (fun a i =>
      SMap.put a Accum.init i (exactOf (Mem.bytes m (0xDA0 + 80 * i) 80))) [] }

/-- Writes the bytes of a region; banks and Sills that are dark drop them. -/
def State.regionPut (s : State) (r : Region) (bs : List Byte) : State :=
  let cells := cellsAt r.base bs
  if r.space = 1 then
    { s with eng := { s.eng with
      spad := (cells.filter fun c => !s.bankDark c.1).foldl (fun m c => SMap.put m 0 c.1 c.2) s.eng.spad } }
  else if s.sillDark then s
  else
    { s with eng := { s.eng with
      sill := cells.foldl (fun m c => SMap.put m 0 c.1 c.2) s.eng.sill
      sillSet := cells.foldl (fun m c => SMap.put m false (c.1 / 128) true) s.eng.sillSet } }

/-- Writes the regions of an image from an offset on. -/
def State.regionsPut (s : State) (m : Mem) (off : Nat) (rs : List Region) : State :=
  match rs with
  | [] => s
  | r :: rest => ((s.regionShut r).regionPut r (Mem.bytes m off r.size)).regionsPut m (off + r.size) rest

/-- Is the image whole: MAGIC, version and CRC? -/
def imageOk (m : Mem) (len : Nat) : Bool :=
  decide (Mem.num m 0 4 = ckptMagic) && decide (Mem.num m 4 4 = 1) &&
  decide (crc32c (Mem.bytes m 0 40 ++ natLe 4 0 ++ Mem.bytes m 44 (len - 44)) = w32 (Mem.num m 40 4))

/-- The checks of R405 on an image that has been read, and its effect. -/
def State.ckptTake (s : State) : State :=
  let c := b2n s.rpl.ckptPlane
  let m := s.rpl.ckptBuf
  if s.rpl.ckptFail then s.ckptDone 5
  else if !imageOk m s.rpl.ckptLen then s.ckptDone 2
  else match s.frameOf c with
    | none => s.ckptDone 3
    | some f =>
      if decide ((s.plane c).state ≠ .staged) || decide (Mem.num m 8 4 ≠ f.ctxid.toNat) ||
          decide (Mem.num m 12 4 ≠ f.digest.toNat) || decide (s.rpl.ckptLen ≠ ckptLength f) then s.ckptDone 3
      else if (s.plane (1 - c)).state ≠ .empty then s.ckptDone 4
      else
        let s := { s with sash := { s.sash with dmem := Mem.putBytes [] 0 (Mem.bytes m 0x1800 262144) } }
        let s := s.regionsPut m ckptFixed (savedRegions f)
        (s.modPlane c fun p => { p with restored := some (restoredOf m) }).ckptDone 0

/-- The header has been read: the rest of the image follows, unless it cannot be an image. -/
def State.ckptHead (s : State) : State :=
  let m := s.rpl.ckptBuf
  let len := Mem.num m 32 8
  let base := s.rpl.ckptBase
  if s.rpl.ckptFail then s.ckptDone 5
  else if decide (Mem.num m 0 4 ≠ ckptMagic) || decide (Mem.num m 4 4 ≠ 1) || decide (len < ckptFixed) ||
      decide (ckptFixed + spadSize + sillSize < len) then s.ckptDone 2
  else
    let rs := readRange .ckpt .journal base len
    { s with rpl := { s.rpl with ckptStage := 4, ckptLen := len, ckptOut := rs.length, ckptBuf := [] } }.jambAdd rs

/-- Memory has answered a read of an image. -/
def State.ckptGot (s : State) (cs : List Host.Cell) (ok : Bool) : State :=
  let r := s.rpl
  let base := r.ckptBase
  let put (m : Mem) (c : Host.Cell) : Mem :=
    if decide (base ≤ c.1) && decide (c.1 < base + r.ckptLen) then SMap.put m 0 (c.1 - base) c.2 else m
  let s := { s with rpl := { r with
    ckptOut := r.ckptOut - 1, ckptFail := r.ckptFail || !ok, ckptBuf := cs.foldl put r.ckptBuf } }
  if s.rpl.ckptOut ≠ 0 then s else if s.rpl.ckptStage = 3 then s.ckptHead else s.ckptTake

/-! ### Registers (R406, R408) -/

/-- A write of CKPT_CTL: OP and SLOT, and with GO the operation on the plane that SLOT names. -/
def State.ckptCtl (s : State) (op : BitVec 2) (slot go : Bool) : State :=
  let s := { s with rpl := { s.rpl with ckptOp := op, ckptSlot := slot } }
  if !go || s.goIgnored .ckpt then s
  else if op = 3 then { s with rpl := { s.rpl with ckptErr := true } }
  else if s.rpl.ckptBusy then s.goRefused .ckpt
  else
    let s := { s with rpl := { s.rpl with ckptPlane := slot } }
    match op.toNat with
    | 1 => s.ckptSave
    | 2 => s.ckptRestore
    | _ => s

/-- A write of NODE_ADOPT. -/
def State.adopt (s : State) (node : BitVec 16) (go : Bool) : State :=
  let held (p : Plane) : Bool := decide (p.state = .live) || decide (p.state = .ending)
  let s := { s with rpl := { s.rpl with adoptNode := node } }
  if !go then s
  else if !s.lt.applied.spareCore || held s.frame.plane0 || held s.frame.plane1 || node = 0 || node = 0xFFFF then
    { s with rpl := { s.rpl with adoptErr := true } }
  else { s with door := { s.door with node := node } }

end Sys2Proof.Machine
end

