-- ==== Sys2Proof/Machine/JambExec.lean ====
section
/-! DEFINITION. The commands of the memory port: issue, responses and timeouts, and what each client does with its
answer (spec/14 R325 to R334; spec/03 R58, R72; spec/09 R202, R211; spec/16 R384, R388). -/

namespace Sys2Proof.Machine

/-! ### Tags -/

/-- Frees an outstanding tag. -/
def State.tagEnd (s : State) (tag : Nat) : State :=
  { s with jamb := { s.jamb with tags := s.jamb.tags.filter fun t => t.tag ≠ tag } }

/-- The outstanding request of a tag. -/
def State.tagOf (s : State) (tag : Nat) : Option JTag := s.jamb.tags.find? fun t => t.tag = tag

/-- A response without an outstanding request: it ends a quarantine, and counts as STRAY (R331, R344). -/
def State.strayRsp (s : State) (tag : Nat) : State :=
  { s with jamb := { s.jamb with
    quarantine := s.jamb.quarantine.filter fun t => t.1 ≠ tag, stray := satInc 14 s.jamb.stray } }

/-- The bytes that a response brings for a read. -/
def JReq.gotCells (r : JReq) (data : List Byte) : List Host.Cell :=
  (data.zipIdx.filter fun p => r.smask.getLsbD (p.2 / 32)).map fun p => (256 * r.block + p.2, p.1)

/-! ### Descriptor fills (03 R58, R72) -/

/-- The threads that wait for a fill, with their instructions. -/
def State.fillWaiters (s : State) (c h : Nat) : List (Thread × Issue) :=
  allThreads.filterMap fun t =>
    match (s.th t).wait with
    | .resolve i g => if g = h && (s.th t).ctx = c && (s.th t).state = .memory then some (t, i) else none
    | _ => none

/-- A fill that passed its checks: the entry is cached, and what waited goes on. -/
def State.fillDone (s : State) (c h : Nat) (d : Desc) : State :=
  let ws := s.fillWaiters c h
  let s := s.dcInsert c h d
  (ws.foldl (fun s w => s.issueResolve w.1 w.2) s).sinksFilled c h true

/-- A fill that failed with a status: the instructions that wait are refused, and so are the packets; a commit is
lost, and a start takes no proposal. Each refused instruction and packet, and the failed fill of each commit (R59, R72),
counts in DESC_FAULT, and a fill without one counts once. -/
def State.fillFailed (s : State) (c h st : Nat) : State :=
  let s := if st = stBadDescCrc then s.integrity { eventOf mechDescCrc 5 with ctx := c } else s
  let ws := s.fillWaiters c h
  let sinks := (s.door.sinks.filter fun x => x.fill = some (c, h)).length
  let n := max 1 (ws.length + sinks + s.commitsWaiting c h)
  let s := (List.range n).foldl (fun s _ => s.descFault c h st) s
  let s := ws.foldl (fun s w => s.refuse w.1 w.2.rd st w.2.bytes) s
  ((s.commitLost c h).propFailed c h).sinksFilled c h false

/-- The answer of a fill. One that arrives when its context has ended is dropped. -/
def State.fillArrived (s : State) (c h : Nat) (bs : List Byte) (ok : Bool) : State :=
  if (s.frameOf c).isNone || (s.plane c).finished then s.sinksFilled c h false
  else if !ok then s.fillFailed c h stBadDesc
  else match descFill bs with
    | .ok d => s.fillDone c h d
    | .error st => s.fillFailed c h st

/-! ### Sash (09 R201, R202, R211) -/

/-- The line that a fetch reads. -/
def JReq.line (r : JReq) : Nat := 2 * r.block + b2n (r.smask.getLsbD 4)

/-- Does the thread wait for a fetch? -/
def State.waitsFetch (s : State) (t : Thread) : Bool :=
  decide ((s.th t).wait = .fetch) && decide ((s.th t).state = .memory)

/-- Does the thread wait for a line? -/
def State.waitsLine (s : State) (t : Thread) (line : Nat) : Bool :=
  s.waitsFetch t && decide ((s.th t).fetchLine = line)

/-- A line has arrived. `bad` says that a word of it is uncorrectable: the line is fetched once more. A thread that was
stopped in this fetch and started again waits for its own line, which is asked for now (R201). -/
def State.fetchArrived (s : State) (t : Thread) (again : Bool) (r : JReq) (bs : List Byte) (ok bad : Bool) : State :=
  let waits := s.waitsLine t r.line
  let s := if ok && !bad then { s with sash := { s.sash with icache := icPut s.sash.icache r.line bs } } else s
  if !waits then
    if s.waitsFetch t then (s.wakeUp t).fetchAt t (s.th t).fetchLine else s
  else if ok && !bad then s.wakeUp t
  else if ok && !again then s.refetched.jambAdd [{ r with owner := .ifetch t true, age := 0 }]
  else s.stopExc t 0x05 0 0 (s.th t).pc

/-- The answer of MLD number `n`. -/
def State.mldArrived (s : State) (t : Thread) (a n : Nat) (cs : List Host.Cell) (ok : Bool) : State :=
  match (s.th t).wait with
  | .mld rd m =>
    if m ≠ n then s
    else if ok then
      let bs := (cs.filter fun c => decide (a ≤ c.1) && decide (c.1 < a + 8)).map fun c => c.2
      (s.setReg t rd (w64 (leNat bs))).resume t 4
    else s.stopExc t 0x06 0 (w64 a) (s.th t).pc
  | _ => s

/-- Is the thread able to be stopped: not IDLE, STOPPED or HALTED? -/
def State.active (s : State) (t : Thread) : Bool :=
  match (s.th t).state with
  | .idle => false
  | .stopped => false
  | .halted => false
  | _ => true

/-- The answer of an MST. An error names the pc of the MST, where the thread stops. -/
def State.mstAnswered (s : State) (t : Thread) (r : JReq) (pc : BitVec 48) (ok : Bool) : State :=
  let s := s.modTh t fun x => { x with mstOut := x.mstOut - 1 }
  let a := w64 ((r.cells.map fun c => c.1).headD 0)
  let s := if ok then s
    else if s.active t then (s.modTh t fun x => { x with pc := pc }).stopExc t 0x06 0 a pc
    else s.excPush { cause := 0x06, thread := Thread.num t, ctx := (s.th t).ctx, status := 0, queue := 0, bel := false,
                     pc := pc, info := a }
  if (s.th t).wait = .mfence && (s.th t).mstOut = 0 && (s.th t).state = .memory then s.resume t 4 else s

/-- The answer of update-record read number `n`. -/
def State.recordAnswered (s : State) (t : Thread) (n : Nat) (bs : List Byte) (ok : Bool) : State :=
  match (s.th t).wait with
  | .record i m => if m ≠ n then s else s.recordArrived t i (if ok then some bs else none)
  | _ => s

/-! ### Entries of the engines -/

/-- The Jamb-transfer engine's start point: the running entry has issued its last request (10 R233). -/
def State.issuedOpens (s : State) (uid : Nat) : State :=
  match s.entry uid with
  | none => s
  | some e =>
    let more := s.jamb.reqs.any fun r => decide (r.owner = .entry uid)
    if e.queue = qJamb && !more && (decide (e.rdWait = 0) || !e.job.writesMem) then s.engineOpen qJamb uid else s

/-- Frees the tags that a near-memory update has kept and does not use for a write. -/
def State.keptFree (s : State) (uid : Nat) : State :=
  match s.entry uid with
  | none => s
  | some e =>
    let used (t : Nat) : Bool := s.jamb.reqs.any fun r => decide (r.keep = some t)
    let free := (e.kept.filter fun k => !used k.2).map fun k => k.2
    let s := { s with jamb := { s.jamb with heldTags := s.jamb.heldTags.filter fun t => !free.contains t } }
    s.modEntry uid fun e => { e with kept := [] }

/-- The last read of an entry has been answered: its job goes on. -/
def State.readsDone (s : State) (e : Entry) : State :=
  match e.job with
  | .copy a d => s.copyMove e.uid a d
  | .ssq a n => s.ssqAdd e.uid a n
  | .put a route => s.putSend e.uid a route
  | .red a _ _ => (s.redBegin e.uid a).sinksGo
  | .near u => (s.nearRun e.uid u).keptFree e.uid
  | _ => s

/-- A near-memory read-modify-write keeps its tag (R329). -/
def State.keepTag (s : State) (e : Entry) (tag block : Nat) : State :=
  match e.job with
  | .near u =>
    if nearWrites u block && !e.aborted then
      { s with jamb := { s.jamb with heldTags := tag :: s.jamb.heldTags } }.modEntry e.uid fun e => { e with
        kept := (block, tag) :: e.kept }
    else s
  | _ => s

/-- The block of a spill ADD has been read: the additions, unless the read failed or its ALU did (R334). -/
def State.spillGot (s : State) (e : Entry) (tag block : Nat) (ok : Bool) (fault : Option (BitVec 16)) : State :=
  let drop (s : State) : State := s.modEntry e.uid fun e => { e with out := e.out.filter fun c => c.1 / 256 ≠ block }
  if e.aborted || !ok then drop s
  else match fault with
    | some d => ((drop s).modEntry e.uid fun e => e.fail stSpillFault).classS mechNearMem e stSpillFault d
    | none => s.spillBlock e tag block

/-- The answer of a read of an entry. A fatal check is one of the near-memory ALU for the commands that use it. -/
def State.entryRead (s : State) (uid tag : Nat) (r : JReq) (cs : List Host.Cell) (ok : Bool)
    (fault : Option (BitVec 16)) : State :=
  let s := s.modEntry uid fun e =>
    let e := { e with rdWait := e.rdWait - 1, got := cs.foldl (fun m c => cellPut m c.1 c.2) e.got }
    if ok then e else e.fail e.job.memStatus
  match s.entry uid with
  | none => s
  | some e =>
    let s := match e.job, fault with
      | .near _, some d => (s.modEntry uid fun e => e.fail stSpillFault).classS mechNearMem e stSpillFault d
      | _, _ => s
    let s := match e.job with
      | .spill _ _ false => s.spillGot e tag r.block ok fault
      | _ => s.keepTag e tag r.block
    let s := if e.rdWait = 0 && !e.aborted then s.readsDone e else s
    s.entrySettle uid

/-- The answer of a write of an entry. -/
def State.entryWrote (s : State) (uid : Nat) (ok : Bool) : State :=
  let s := s.modEntry uid fun e =>
    let e := { e with wrWait := e.wrWait - 1 }
    if ok then e else e.fail e.job.memStatus
  match s.jobOf uid with
  | some (.transom _ _ _) => s.transomEnd uid
  | _ => s.entrySettle uid

/-! ### Descriptor write-backs (03 R72 to R74; 12 R283) -/

/-- DCACHE_CTL.BUSY falls with the operation's last write-back (03 R73). -/
def State.dcBusyEnd (s : State) : State :=
  match s.cr.dcRun with
  | none => s
  | some (c, h) => if s.wbPending c h then s else (s.modCr fun r => { r with dcRun := none }).goCleared .dcache

/-- A DFL whose write-backs have been acknowledged completes. -/
def State.flushEnd (s : State) (t : Thread) : State :=
  match (s.th t).wait with
  | .flush h => if s.wbPending (s.th t).ctx (some h) then s else s.resume t 4
  | _ => s

/-- Memory has answered a write-back. -/
def State.wroteBack (s : State) (c h : Nat) (ok : Bool) : State :=
  let s := if ok then s
    else { s with dcache := s.dcache.filter fun e => !(e.ctx = c && e.handle = h) }
  (allThreads.foldl State.flushEnd s.dcBusyEnd).ckptGo.planeEmpty c

/-! ### Delivery -/

/-- Delivers the answer of a read: its bytes, whether it is without error, and a fatal check. -/
def State.deliverRead (s : State) (tag : Nat) (r : JReq) (cs : List Host.Cell) (ok : Bool)
    (fault : Option (BitVec 16)) : State :=
  let bs := cs.map fun c => c.2
  match r.owner with
  | .fill c h => s.fillArrived c h bs ok
  | .ifetch t again => s.fetchArrived t again r bs ok fault.isSome
  | .mld t a n => s.mldArrived t a n cs ok
  | .record t n => s.recordAnswered t n bs ok
  | .staging p base => s.stagingGot p base cs ok
  | .entry uid => s.entryRead uid tag r cs ok fault
  | .sink id => s.sinkAnswered id cs ok
  | .ckpt => s.ckptGot cs ok
  | .replay base => s.replayGot base cs ok
  | _ => s

/-- Delivers the answer of a write. -/
def State.deliverWrite (s : State) (r : JReq) (ok : Bool) : State :=
  match r.owner with
  | .writeback c h => s.wroteBack c h ok
  | .mst t pc => s.mstAnswered t r pc ok
  | .cmplBody t seq => s.postBodyAnswered t seq ok
  | .cmplHead t seq => s.postHeadAnswered t seq ok
  | .entry uid => s.entryWrote uid ok
  | .sink id => s.sinkAnswered id [] ok
  | .journal _ t => s.postsGo t
  | .ckpt => s.ckptWrote ok
  | _ => s

/-- The line of the first Sill element whose home a request of a spill touches. -/
def spillLine (hs hm : Desc) (r : JReq) : Option Nat :=
  ((takenCoords hs).find? fun x =>
    let a := (elemAddr hm x).1
    takes hm x && decide (a / 256 = r.block) && (r.smask.getLsbD (a % 256 / 32) || r.cells.any fun c => decide (c.1 = a))).map
    fun x => (elemAddr hs x).1 / 128

/-- A Jamb error on a spill is recorded in SILL_FAULT, with the line of the first element concerned (05 R121). -/
def State.spillError (s : State) (r : JReq) : State :=
  match r.owner with
  | .entry uid => match s.jobOf uid with
    | some (.spill hs hm _) => s.sillFault (spillLine hs.desc hm.desc r) 2
    | _ => s
  | _ => s

/-- Completes a request with a Jamb error (R332). -/
def State.deliverError (s : State) (tag : Nat) (r : JReq) (cause : Nat) : State :=
  let s := (s.jambFault r cause).spillError r
  (if r.write then s.deliverWrite r false else s.deliverRead tag r [] false none).replayGo

/-- Does the near-memory ALU or the instruction cache check the data of the read? -/
def State.dataChecked (s : State) (r : JReq) : Bool :=
  match r.owner with
  | .ifetch _ _ => true
  | .entry uid => match s.jobOf uid with
    | some (.spill _ _ _) => true
    | some (.near _) => true
    | _ => false
  | _ => false

/-- The cause of a response code; 0 without an error (R325, R344). -/
def rspCause (code : BitVec 2) : Nat :=
  match code.toNat with
  | 0 => 0
  | 2 => 2
  | _ => 1

/-- Is the Jamb domain on and out of reset, which ends with stage 6 (15 R373)? Otherwise every Jamb input is ignored (R343). -/
def State.jambLive (s : State) : Bool := s.domOn 78 && decide (7 ≤ s.boot.stage)

/-- Does Jamb take part in the core's work: its domain is on, and the core is not in Hatch? -/
def State.jambOn (s : State) : Bool := s.jambLive && !s.lt.hatchActive

/-- The parity check of a tracker record when a response meets it (16 R384): none, or the detail of an error. -/
def State.trackerCheck (s : State) : Option (BitVec 16) :=
  match s.upsetAt .tracker with
  | .fatal d => some d
  | _ => none

/-- JB_R_RESPONSE (R325, R327, R331). A fatal check belongs to the near-memory ALU or the instruction cache, and else
to the tracker's record, which ends the request with an error (16 R384). -/
def execJbRResponse (tag : BitVec 16) (data : List Byte) (code : BitVec 2) (u : Upset) (s : State) : Result :=
  .next (if !s.jambLive then s
    else match s.tagOf tag.toNat with
      | none => s.strayRsp tag.toNat
      | some g =>
        if g.req.write then s.strayRsp tag.toNat
        else
          let s := (s.tagEnd tag.toNat)
          let s := if u = .corrected then s.corrected else s
          if s.trackerCheck.isSome then
            ((s.struck .tracker).trackerParity (s.trackerCheck.getD 0)).deliverError g.tag g.req 1
          else if rspCause code ≠ 0 then s.deliverError g.tag g.req (rspCause code)
          else match u with
            | .fatal d =>
              if s.dataChecked g.req then
                (s.deliverRead g.tag g.req (g.req.gotCells data) true (some d)).replayGo
              else (s.trackerParity d).deliverError g.tag g.req 1
            | _ => (s.deliverRead g.tag g.req (g.req.gotCells data) true none).replayGo)

/-- JB_B_RESPONSE (R325, R327, R331). -/
def execJbBResponse (tag : BitVec 16) (code : BitVec 2) (s : State) : Result :=
  .next (if !s.jambLive then s
    else match s.tagOf tag.toNat with
      | none => s.strayRsp tag.toNat
      | some g =>
        if !g.req.write then s.strayRsp tag.toNat
        else
          let s := s.tagEnd tag.toNat
          if s.trackerCheck.isSome then
            ((s.struck .tracker).trackerParity (s.trackerCheck.getD 0)).deliverError g.tag g.req 1
          else if rspCause code ≠ 0 then s.deliverError g.tag g.req (rspCause code)
          else (s.deliverWrite g.req true).replayGo)

/-- TAG_TIMEOUT (R331, R344): a request without an answer for TIMEOUT ticks. -/
def execTagTimeout (tag : BitVec 16) (s : State) : Result :=
  .next (match s.tagOf tag.toNat with
    | none => s
    | some g =>
      if g.ticks < max 10 s.jamb.timeout.toNat then s
      else
        let s := s.tagEnd g.tag
        let s := match s.trackerCheck with
          | some d => (s.struck .tracker).trackerParity d
          | none => s
        { s with jamb := { s.jamb with
          quarantine := (g.tag, g.req.pool) :: s.jamb.quarantine } }.deliverError g.tag g.req 3)

/-! ### Issue (R326, R328 to R330) -/

/-- Issues the request at a position under a tag. -/
def State.issueReq (s : State) (i : Nat) (r : JReq) (tag : Nat) : State :=
  let g : JTag := { tag := tag, req := r, ticks := 0 }
  let s := { s with jamb := { s.jamb with
    reqs := s.jamb.reqs.eraseIdx i, tags := s.jamb.tags ++ [g], lastIssued := some g
    heldTags := s.jamb.heldTags.filter fun t => t ≠ tag
    reads := if r.write then s.jamb.reads else s.jamb.reads + 1
    writes := if r.write then s.jamb.writes + 1 else s.jamb.writes } }
  match r.owner with
  | .entry uid => s.issuedOpens uid
  | _ => s

/-- A fatal check at issue: the bytes of an entry's write fail theirs at the egress (16 R379, R388), and anything else
is the parity of the tracker's record. The request is not issued. -/
def State.issueFault (s : State) (i : Nat) (r : JReq) (tag : Nat) (d : BitVec 16) : State :=
  let s := { s with jamb := { s.jamb with
    reqs := s.jamb.reqs.eraseIdx i, heldTags := s.jamb.heldTags.filter fun t => decide (r.keep ≠ some t) } }
  let entry := match r.owner with
    | .entry uid => if r.write then s.entry uid else none
    | _ => none
  match entry with
  | some e => (s.classS mechSpad e e.job.memStatus d).entryWrote e.uid false
  | none => (s.trackerParity d).deliverError tag r 1

/-- May the request go out under a tag (R329)? A fresh tag is free; a kept one is that of a read that has ended. -/
def State.tagMay (s : State) (r : JReq) (tag : Nat) : Bool :=
  if r.keep.isSome then s.jamb.tags.all fun g => decide (g.tag ≠ tag) else s.tagFree tag

/-- JAMB_REQUEST_ISSUE (R330): the next ready request is taken under `tag`; a near-memory write under the tag of its
read. -/
def execJambRequestIssue (tag : BitVec 16) (u : Upset) (s : State) : Result :=
  .next (if !s.jambOn then s
    else match s.nextReq with
      | none => s
      | some (i, r) =>
        let t := r.keep.getD tag.toNat
        if !s.tagMay r t then s
        else
          let s := if u = .corrected then s.corrected else s
          match u with
          | .fatal d => s.issueFault i r t d
          | _ => s.issueReq i r t)

end Sys2Proof.Machine
end

