-- ==== Sys2Proof/Machine/LatchOps.lean ====
section
/-! DEFINITION. The latch and queue instructions, the host signal and the watchdog (spec/09 R221; spec/11 R252 to
R262). -/

namespace Sys2Proof.Machine

/-- A latch event of an instruction of a thread. -/
def State.instrSrc (s : State) (t : Thread) (kind : Nat) : SigSrc :=
  { kind := kind, thread := t, queue := 0, pc := (s.th t).pc, iseq := (s.th t).iseq, link := 0 }

/-- Runs a function that reads K (R221): K 48 to 63, or a nonzero X where X is 0, raises ILLEGAL. -/
def State.latchFn (s : State) (t : Thread) (k : BitVec 6) (bad : Bool) (g : State → State) : State :=
  s.ifRun t fun s => if decide (48 ≤ k.toNat) || bad then s.illegal t else g s

/-- The signal of LSIG. Under LATCHPOL 1 an overflowing LSIG counts as not issued, and the thread has stopped
(R255). -/
def State.lsigGo (s : State) (t : Thread) (k : Nat) : State :=
  let s := s.signalsAhead
  let bank := (s.th t).ctx
  let full := decide (s.latchCount bank k = 255)
  let s := s.latchSignal bank k (s.instrSrc t 2)
  if full && decide (s.frame.fault.latchPol = 1) then s else s.advance t 4

/-- LSIG. A fatal check is a parity error of the latch count (16 R384). -/
def execLsig (t : Thread) (_rd _ra : Reg) (k x : BitVec 6) (u : Upset) (s : State) : Result :=
  .next (s.latchFn t k (decide (x ≠ 0)) fun s =>
    let s := s.lsigGo t k.toNat
    match u with
    | .fatal d => s.controlParity d
    | _ => s)

/-- LWAIT: consumes one count, or waits in LATCH. -/
def execLwait (t : Thread) (_rd _ra : Reg) (k x : BitVec 6) (s : State) : Result :=
  .next (s.latchFn t k (decide (x ≠ 0)) fun s =>
    let s := s.signalsAhead
    let c := (s.th t).ctx
    (if s.latchCount c k.toNat = 0 then s.waitIn t .latch (.latch k.toNat)
    else (s.latchConsume c k.toNat (s.instrSrc t 5)).advance t 4).parityCheck .latch)

/-- Does the thread wait in LATCH for a latch that can be consumed? -/
def State.latchReady (s : State) (t : Thread) : Bool :=
  match (s.th t).wait with
  | .latch k => decide ((s.th t).state = .latch) && decide (s.latchCount (s.th t).ctx k ≠ 0)
  | _ => false

/-- The threads in the order in which R194 picks them: the one behind the thread that issued last comes first. -/
def State.issueOrder (s : State) : List Thread :=
  (List.range 4).map fun i => threadOf (Thread.num s.sash.lastIssued + 1 + i)

/-- Do two threads wait for the same latch? -/
def State.sameLatch (s : State) (t u : Thread) : Bool :=
  decide ((s.th t).wait = (s.th u).wait) && decide ((s.th t).ctx = (s.th u).ctx)

/-- Is a thread the first in issue order of those that wait for its latch (R254)? -/
def State.firstWaiter (s : State) (t : Thread) : Bool :=
  decide ((s.issueOrder.find? fun u => s.latchReady u && s.sameLatch t u) = some t)

/-- LATCH_WAIT_READY: a thread in LATCH consumes its count and goes on (R254). -/
def execLatchWaitReady (t : Thread) (s : State) : Result :=
  let s := s.signalsAhead
  .next (match (s.th t).wait with
    | .latch k =>
      if s.clk.aclkOn && s.latchReady t && s.firstWaiter t then
        let s := { s with sash := { s.sash with lastIssued := t } }
        ((s.latchConsume (s.th t).ctx k (s.instrSrc t 5)).resume t 4).parityCheck .latch
      else s
    | _ => s)

/-- LTRY. -/
def execLtry (t : Thread) (rd _ra : Reg) (k x : BitVec 6) (s : State) : Result :=
  .next (s.latchFn t k (decide (x ≠ 0)) fun s =>
    let s := s.signalsAhead
    let c := (s.th t).ctx
    (if s.latchCount c k.toNat = 0 then (s.setReg t rd 0).advance t 4
    else ((s.latchConsume c k.toNat (s.instrSrc t 5)).setReg t rd 1).advance t 4).parityCheck .latch)

/-- LREAD. -/
def execLread (t : Thread) (rd _ra : Reg) (k x : BitVec 6) (s : State) : Result :=
  .next (s.latchFn t k (decide (x ≠ 0)) fun s =>
    ((s.setReg t rd ((s.latchCount (s.th t).ctx k.toNat).zeroExtend 64)).advance t 4).parityCheck .latch)

/-- Is X a queue of QSIG and QWAIT: bits [5:4] 0, and [3:0] not 11 to 14? -/
def queueField (x : BitVec 6) : Bool := decide (x.toNat < 11) || decide (x.toNat = 15)

/-- QSIG: an entry that signals latch K. It takes no ISEQ and writes no register. -/
def execQsig (t : Thread) (_rd _ra : Reg) (k x : BitVec 6) (s : State) : Result :=
  .next (s.latchFn t k (!decide (x.toNat < 11)) fun s =>
    s.enter t { job := .qsig k.toNat, queue := x.toNat, writes := 0, rd := 0, latch := none, tensor := false,
                bytes := 4 })

/-- Has the thread no entry in a queue, or in any of the eleven? -/
def State.queueEmpty (s : State) (t : Thread) (q : Option Nat) : Bool :=
  match q with
  | some q => (s.lane q t).isEmpty
  | none => !(s.eng.lanes.any fun e => decide (e.stream = t))

/-- QWAIT. -/
def execQwait (t : Thread) (_rd _ra : Reg) (_k x : BitVec 6) (s : State) : Result :=
  .next (s.ifRun t fun s =>
    if !queueField x then s.illegal t
    else
      let q := if x.toNat = 15 then none else some x.toNat
      if s.queueEmpty t q then s.advance t 4 else s.waitIn t .queue (.queue q))

/-- QUEUE_WAIT_DONE: the entries that a QWAIT waits for have completed. -/
def execQueueWaitDone (t : Thread) (s : State) : Result :=
  .next (match (s.th t).wait with
    | .queue q => if (s.th t).state = .queue && s.queueEmpty t q then s.resume t 4 else s
    | _ => s)

/-! ### LATCH_HSIG (R262) -/

/-- A write of LATCH_HSIG. -/
def State.latchHsig (s : State) (k bank : Nat) (go : Bool) : State :=
  if !go then s
  else if decide (48 ≤ k) || !s.ctxStarted bank then { s with latch := { s.latch with hsigErr := true } }
  else s.signalsAhead.latchSignal bank k { kind := 4, thread := .F, queue := 0, pc := 0, iseq := 0, link := 0 }

/-! ### The watchdog (R260, R261) -/

/-- Is the thread timed: in LATCH or QUEUE? -/
def State.timed (s : State) (t : Thread) : Bool :=
  decide ((s.th t).state = .latch) || decide ((s.th t).state = .queue)

/-- TARGET of a wait in QUEUE (R261). -/
def State.waitTarget (s : State) (t : Thread) : Nat :=
  match (s.th t).wait with
  | .queue (some q) => q
  | .lane p => p.queue
  | .post => 12
  | .tend => if s.eng.lanes.any fun e => decide (e.stream = t) then 15 else 12
  | _ => 15

/-- WD_THREAD of a reported thread. -/
def State.wdWord (s : State) (t : Thread) : Word :=
  let x := s.th t
  let base := x.state.code + ((x.ctx % 2) <<< 11) + (x.timer <<< 32)
  match x.wait with
  | .latch k => w64 (base + (k <<< 5) + ((s.latchCount x.ctx k).toNat <<< 12))
  | _ => w64 (base + (1 <<< 4) + (s.waitTarget t <<< 5))

/-- WDPOL (R261). -/
def State.wdPolicy (s : State) (ts : List Thread) : State :=
  let stop (s : State) (t : Thread) : State := if t = .S then s else s.stopAtBoundary t
  match s.frame.fault.wdPol with
  | 1 => ts.foldl stop s
  | 2 =>
    let cs := ts.map fun t => (s.th t).ctx
    let us := allThreads.filter fun t => cs.contains (s.th t).ctx && decide ((s.th t).state ≠ .idle)
    (us.foldl stop s).integrity (eventOf mechWatchdog 2)
  | _ => s

/-- WATCHDOG_FIRE: a wait timer has reached the period. -/
def execWatchdogFire (s : State) : Result :=
  let ts := allThreads.filter s.timed
  .next (if !(ts.any fun t => decide (s.wd.period.toNat ≤ (s.th t).timer)) then s
    else
      let again := s.wd.pend
      let mask := (ts.map fun t => 2 ^ Thread.num t).sum
      let fires := satInc 16 s.wd.fires
      let words := ts.foldl (fun m t => SMap.put m 0 (Thread.num t) (s.wdWord t)) []
      let s := ({ s with wd := { s.wd with
        mask := BitVec.ofNat 4 mask, fires := fires, pend := true, threads := words } }.irqSet 8).wakeAsk
      let s := if again then s.integrity (eventOf mechWatchdog 2) else s
      let s := s.excPush { cause := 0x13, thread := 0, ctx := 0, status := 0, queue := 0, bel := true, pc := 0,
                           info := w64 (mask + (fires <<< 16)) }
      let s := ts.foldl (fun s t => s.modTh t fun x => { x with timer := 0 }) s
      s.wdPolicy ts)

end Sys2Proof.Machine
end

