-- ==== Sys2Proof/Machine/SashSystem.lean ====
section
/-! DEFINITION. The system instructions of Sash, its CSRs and handler mode (spec/09 R203, R211 to R214, R225; spec/14
R339; spec/03 R73). -/

namespace Sys2Proof.Machine

/-! ### CSRs (R214) -/

/-- Is the number that of a CSR which the thread may access? -/
def csrOk (t : Thread) (n : Nat) : Bool :=
  decide (n ≤ 6) || decide (n = 0x0F) || (decide (0x10 ≤ n) && decide (n ≤ 0x17)) ||
  (decide (0x20 ≤ n) && decide (n ≤ 0x2A)) || (decide (0x40 ≤ n) && decide (n ≤ 0x48) && decide (t = .S))

/-- May the CSR be written? -/
def csrWritable (n : Nat) : Bool :=
  decide (n = 6) || (decide (0x20 ≤ n) && decide (n ≤ 0x2A)) || decide (n = 0x40) || decide (n = 0x41) || decide (n = 0x46)

/-- TSTATE, and the same field of SASH_STAT. -/
def State.tstate (s : State) : Nat := (allThreads.map fun t => (s.th t).state.code <<< (4 * Thread.num t)).sum

/-- A word of the head record of the exception queue; 0 when the queue is empty. -/
def State.excWord (s : State) (i : Nat) : Word :=
  match s.sash.excq with
  | [] => 0
  | r :: _ =>
    match i with
    | 0 => r.w0
    | 1 => r.w1
    | 2 => r.w2
    | _ => r.w3

/-- The value of a CSR; EXCPOP reads 0. -/
def State.csrValue (s : State) (t : Thread) (n : Nat) : Word :=
  let x := s.th t
  match n with
  | 0x00 => w64 (Thread.num t + ((x.ctx % 2) <<< 2))
  | 0x01 => x.stepno.zeroExtend 64
  | 0x02 => x.wseq.zeroExtend 64
  | 0x03 => x.iseq.zeroExtend 64
  | 0x04 => s.time.cycle
  | 0x05 => s.time.aonTime
  | 0x06 => x.fflags.zeroExtend 64
  | 0x0F => beloreId
  | 0x40 => s.sash.evec.zeroExtend 64
  | 0x41 => s.sash.epc.zeroExtend 64
  | 0x42 => s.excWord 0
  | 0x43 => s.excWord 1
  | 0x44 => s.excWord 2
  | 0x45 => s.excWord 3
  | 0x46 => 0
  | 0x47 => w64 (s.sash.excq.length + (b2n s.sash.handler <<< 5) + (s.sash.lost <<< 16))
  | 0x48 => w64 s.tstate
  | _ =>
    if decide (0x10 ≤ n) && decide (n ≤ 0x17) then s.feature (n - 0x10)
    else SMap.look x.qerr 0 (n - 0x20)

/-- The bits of a QERR word that are fields (R219). -/
def qerrMask : Word := ~~~(0x7F00000000000000 : Word)

/-- Writes a CSR. -/
def State.csrSet (s : State) (t : Thread) (n : Nat) (v : Word) : State :=
  match n with
  | 0x06 => s.modTh t fun x => { x with fflags := v.setWidth 5 }
  | 0x40 => { s with sash := { s.sash with evec := v.setWidth 48 } }
  | 0x41 => { s with sash := { s.sash with epc := v.setWidth 48 } }
  | 0x46 => { s with sash := { s.sash with excq := s.sash.excq.drop 1 } }
  | _ => s.modTh t fun x => { x with qerr := SMap.put x.qerr 0 (n - 0x20) (v &&& qerrMask) }

/-- CSRR. -/
def execCsrr (t : Thread) (rd _ra : Reg) (n : BitVec 12) (s : State) : Result :=
  .next (s.ifRun t fun s =>
    if csrOk t n.toNat then (s.setReg t rd (s.csrValue t n.toNat)).advance t 4 else s.illegal t)

/-- The write of CSRW, CSRS and CSRC: `f` gives the new value from the old one, and `old` says that rd takes the old
one. -/
def State.csrWrite (s : State) (t : Thread) (rd : Reg) (n : BitVec 12) (old : Bool) (f : Word → Word) : State :=
  s.ifRun t fun s =>
    if csrOk t n.toNat && csrWritable n.toNat then
      let v := s.csrValue t n.toNat
      let s := s.csrSet t n.toNat (f v)
      (if old then s.setReg t rd v else s).advance t 4
    else s.illegal t

/-- CSRW. -/
def execCsrw (t : Thread) (rd ra : Reg) (n : BitVec 12) (s : State) : Result :=
  .next (s.csrWrite t rd n false fun _ => s.reg t ra)

/-- CSRS. -/
def execCsrs (t : Thread) (rd ra : Reg) (n : BitVec 12) (s : State) : Result :=
  .next (s.csrWrite t rd n true fun v => v ||| s.reg t ra)

/-- CSRC. -/
def execCsrc (t : Thread) (rd ra : Reg) (n : BitVec 12) (s : State) : Result :=
  .next (s.csrWrite t rd n true fun v => v &&& ~~~(s.reg t ra))

/-! ### Threads (R213, R197, R225) -/

/-- TRAP: the thread stops behind the instruction, which EXC1 names (R224). -/
def execTrap (t : Thread) (_rd _ra : Reg) (n : BitVec 12) (s : State) : Result :=
  .next (s.ifRun t fun s =>
    let s := s.pcAdd t 4
    s.stopExc t 0x08 0 (n.zeroExtend 64) (s.th t).pc)

/-- TEND: ends the thread's part, or waits for its work and its posts (R197, 14 R339). -/
def execTend (t : Thread) (_rd _ra : Reg) (_n : BitVec 12) (s : State) : Result :=
  .next (s.ifRun t fun s => if s.tendReady t then s.endPart t else s.waitIn t .queue .tend)

/-- TEND_COMPLETE: the work and the posts that a TEND waits for are complete. -/
def execTendComplete (t : Thread) (s : State) : Result :=
  .next (if (s.th t).state = .queue && (s.th t).wait = .tend && s.tendReady t then s.endPart t else s)

/-- A pc from a 48-bit register; its low two bits are 0. -/
def pcOf (v : BitVec 48) : BitVec 48 := v &&& ~~~3

/-- ERET: leaves handler mode and resumes at EPC, or ends in IDLE (R213, R225). -/
def execEret (t : Thread) (_rd _ra : Reg) (_n : BitVec 12) (s : State) : Result :=
  .next (s.ifRun t fun s =>
    if t ≠ .S then s.illegal t
    else
      let s := { s with sash := { s.sash with handler := false } }
      if s.sash.epc = 0 then s.modTh .S fun x => { x with state := .idle, wait := .none }
      else s.goto .S (pcOf s.sash.epc))

/-- TSTART: the state of the thread decides first, then the address. -/
def execTstart (t : Thread) (rd ra : Reg) (n : BitVec 12) (s : State) : Result :=
  .next (s.ifRun t fun s =>
    if t ≠ .S then s.illegal t
    else
      let u := threadOf n.toNat
      let x := s.th u
      let a := s.reg t ra
      if x.state ≠ .idle && x.state ≠ .stopped then (s.setReg t rd 1).advance t 4
      else if decide (a.toNat % 4 ≠ 0) || decide (2 ^ 48 ≤ a.toNat) then (s.setReg t rd 2).advance t 4
      else
        let ctx := if x.state = .idle then (s.th t).ctx else x.ctx
        let s := (s.setReg t rd 0).modTh u fun x => { x with
          ctx := ctx, pc := a.setWidth 48, state := .run, wait := .none, stopAsked := false }
        (s.fetchNext u).advance t 4)

/-- TSTOP. -/
def execTstop (t : Thread) (_rd _ra : Reg) (n : BitVec 12) (s : State) : Result :=
  .next (s.ifRun t fun s =>
    let u := threadOf n.toNat
    if t ≠ .S || u = .S then s.illegal t else (s.stopAtBoundary u).advance t 4)

/-- Invalidates every line of the instruction cache (R203). -/
def State.icFlush (s : State) : State := { s with sash := { s.sash with icache := [] } }

/-- FENCE.I. -/
def execFenceI (t : Thread) (_rd _ra : Reg) (_n : BitVec 12) (s : State) : Result :=
  .next (s.ifRun t fun s => s.icFlush.advance t 4)

/-- MFENCE (R211). -/
def execMfence (t : Thread) (_rd _ra : Reg) (_n : BitVec 12) (s : State) : Result :=
  .next (s.ifRun t fun s => if (s.th t).mstOut = 0 then s.advance t 4 else s.waitMem t .mfence)

/-! ### The step boundary (R213, 14 R339, 16 R401) -/

/-- Is it the SADV that ends the replayed step? -/
def State.replayStop (s : State) (t : Thread) : Bool :=
  s.rpl.active && decide (s.rpl.plane = some (s.th t).ctx) && decide ((s.th t).stepno = s.rpl.armed)

/-- SADV: STEPNO and WSEQ, with a completion post; a fifth open post waits. In replay the stream stops at the SADV of
its step. -/
def execSadv (t : Thread) (_rd _ra : Reg) (_n : BitVec 12) (s : State) : Result :=
  .next (s.ifRun t fun s =>
    if s.replayStop t then
      let s := s.stopped t
      { s with rpl := { s.rpl with stopped := t :: s.rpl.stopped.filter fun u => u ≠ t } }.replayGo
    else if 4 ≤ (s.th t).posts.length then s.waitIn t .queue .post
    else (s.stepAdvance t).advance t 4)

/-- POST_ROOM: the oldest post of a waiting SADV has completed. -/
def execPostRoom (t : Thread) (s : State) : Result :=
  .next (if (s.th t).state = .queue && (s.th t).wait = .post && decide ((s.th t).posts.length < 4) then
      (s.stepAdvance t).resume t 4
    else s)

/-! ### Descriptor flush and accumulators (R213, 03 R73, 07 R163) -/

/-- Runs a function whose unused bits of N are 0. -/
def State.nChecked (s : State) (t : Thread) (bad : Bool) (g : State → State) : State :=
  s.ifRun t fun s => if bad then s.illegal t else g s

/-- DFL: flushes a handle, and waits until its write-backs have been acknowledged. -/
def execDfl (t : Thread) (_rd ra : Reg) (n : BitVec 12) (s : State) : Result :=
  .next (s.nChecked t (decide (n ≠ 0)) fun s =>
    let c := (s.th t).ctx
    let h := bitsN (s.reg t ra).toNat 0 20
    let s := s.dcFlush c h
    if s.wbPending c (some h) then s.waitMem t (.flush h) else s.advance t 4)

/-- LV.RD. -/
def execLvRd (t : Thread) (rd _ra : Reg) (n : BitVec 12) (u : Upset) (s : State) : Result :=
  .next (s.nChecked t (decide (32 ≤ n.toNat)) fun s =>
    let s := s.accumCheck (s.th t).ctx n.toNat u
    (s.setReg t rd (accumRead (s.accum (s.th t).ctx n.toNat))).advance t 4)

/-- LV.CLR. -/
def execLvClr (t : Thread) (_rd _ra : Reg) (n : BitVec 12) (u : Upset) (s : State) : Result :=
  .next (s.nChecked t (decide (32 ≤ n.toNat)) fun s =>
    let s := s.accumCheck (s.th t).ctx n.toNat u
    (s.setAccum (s.th t).ctx n.toNat Accum.init).advance t 4)

/-! ### Handler mode (R225) -/

/-- May handler mode be entered? -/
def State.handlerDue (s : State) : Bool :=
  let st := (s.th .S).state
  s.clk.aclkOn && !s.lt.hatchActive && decide (s.sash.evec ≠ 0) && !s.sash.excq.isEmpty && !s.sash.handler &&
  (decide (st = .run) || decide (st = .latch) || decide (st = .queue) || decide (st = .idle))

/-- HANDLER_ENTRY: EPC takes the next pc, or 0 from IDLE, and S starts at EVEC. A wait of S in LATCH or QUEUE is
abandoned. -/
def execHandlerEntry (s : State) : Result :=
  .next (if !s.handlerDue then s
    else
      let idle := decide ((s.th .S).state = .idle)
      let ctx := if idle then s.newestCtx else (s.th .S).ctx
      let s := { s with sash := { s.sash with
        handler := true, epc := if idle then 0 else (s.th .S).pc } }
      let s := s.modTh .S fun x => { x with ctx := ctx, state := .run, wait := .none, stopAsked := false }
      s.goto .S (pcOf s.sash.evec))

end Sys2Proof.Machine
end

