-- ==== Sys2Proof/Machine/Regs.lean ====
section
/-! DEFINITION. The Hinge register window: which register an offset names, its power domain, and what a read of it
returns (spec/18 R426 to R432 and the register tables that R432 names). -/

namespace Sys2Proof.Machine

/-- The registers of the window. -/
inductive HReg
  | beloreId | feature (i : Nat)
  | dcacheCtl | descFault
  | latPart | latAflags | latFault | latCnt (l : Nat)
  | sillStat | sillFault | trnStat
  | casFlags | casFault | casCnt
  | lvStat | lvAccCtl | lvAccData
  | updSel | updNormStat | updNormSum | updNormKappa | updStat | updGroup (g : Nat)
  | sashStat | sashPc (t : Thread) | sashDoorbell | sashCtl | sashEcc
  | weaveCtr | mulSel | mulPos | mulCnt0 | mulCnt1 | strmLanes | strmAbort
  | latchCnt (i : Nat) | latchHsig | latchStat | latchFault
  | wdCfg | wdStat | wdThread (t : Thread)
  | frameAddr | frameCtl | frameStat | frameId (p : Nat)
  | dwStat | dwLink (l : Nat) | dwLinkCtl | dwFault | dwRepoint | dwRoute (r : Nat)
  | jambStat | jambFault | jambCfg | jambAflags | jambCnt
  | irqStat | irqEn | hgBcast | hgStat | mboxCfg | cmpl0 (t : Thread) | cmpl1 (t : Thread)
  | clkStat | clkCtl | pwrStat | pwrCtl | pdStat0 | pdStat1 | shutter | bootStat
  | intQstop | jnlStat | jnlCtl | rplAddr | rplCtl | rplStat | ckptAddr | ckptCtl | nodeAdopt
  | intStat | intLog0 | intLog1 | shutCnt
  | lintel (i : Nat) | ltStat | ltLog | ltWear | deadboltStat | hatchStat | hatchCtl
  deriving DecidableEq, Repr

/-! ### The map (R426, R432); `i` is the offset inside the block in units of 8 -/

/-- Blocks 0x0 and 0x1, written with 0x0010_0000 added. -/
def regsLow (block i : Nat) : Option HReg :=
  if block = 0 then match i with
    | 0 => some .intQstop
    | 1 => some .jnlStat
    | 2 => some .jnlCtl
    | 3 => some .rplAddr
    | 4 => some .rplCtl
    | 5 => some .rplStat
    | 6 => some .ckptAddr
    | 7 => some .ckptCtl
    | 8 => some .nodeAdopt
    | 4096 => some .intStat
    | 4097 => some .intLog0
    | 4098 => some .intLog1
    | 4099 => some .shutCnt
    | _ => none
  else if i < 256 then (if recExists i then some (.lintel i) else none)
  else match i with
    | 256 => some .ltStat
    | 257 => some .ltLog
    | 258 => some .ltWear
    | 259 => some .deadboltStat
    | 260 => some .hatchStat
    | 261 => some .hatchCtl
    | _ => none

/-- Blocks 0x2 to 0x8. -/
def regsEngines (block i : Nat) : Option HReg :=
  match block, i with
  | 2, 0 => some .beloreId
  | 2, i => if i ≤ 8 then some (.feature (i - 1)) else none
  | 3, 0 => some .dcacheCtl
  | 3, 1 => some .descFault
  | 4, 0 => some .latPart
  | 4, 1 => some .latAflags
  | 4, 2 => some .latFault
  | 4, i => if 4 ≤ i ∧ i ≤ 7 then some (.latCnt (i - 4)) else none
  | 5, 0 => some .sillStat
  | 5, 1 => some .sillFault
  | 5, 2 => some .trnStat
  | 6, 0 => some .casFlags
  | 6, 1 => some .casFault
  | 6, 2 => some .casCnt
  | 7, 0 => some .lvStat
  | 7, 1 => some .lvAccCtl
  | 7, 2 => some .lvAccData
  | 8, 0 => some .updSel
  | 8, 1 => some .updNormStat
  | 8, 2 => some .updNormSum
  | 8, 3 => some .updNormKappa
  | 8, 4 => some .updStat
  | 8, i => if 256 ≤ i ∧ i ≤ 511 then some (.updGroup (i - 256)) else none
  | _, _ => none

/-- Blocks 0x9 to 0xF. -/
def regsControl (block i : Nat) : Option HReg :=
  match block, i with
  | 9, 0 => some .sashStat
  | 9, 5 => some .sashDoorbell
  | 9, 6 => some .sashCtl
  | 9, 7 => some .sashEcc
  | 9, i => if i ≤ 4 then some (.sashPc (threadOf (i - 1))) else none
  | 10, 0 => some .weaveCtr
  | 10, 1 => some .mulSel
  | 10, 2 => some .mulPos
  | 10, 3 => some .mulCnt0
  | 10, 4 => some .mulCnt1
  | 10, 5 => some .strmLanes
  | 10, 6 => some .strmAbort
  | 11, 12 => some .latchHsig
  | 11, 13 => some .latchStat
  | 11, 14 => some .latchFault
  | 11, 15 => some .wdCfg
  | 11, 16 => some .wdStat
  | 11, i => if i ≤ 11 then some (.latchCnt i) else if 17 ≤ i ∧ i ≤ 20 then some (.wdThread (threadOf (i - 17))) else none
  | 12, 0 => some .frameAddr
  | 12, 1 => some .frameCtl
  | 12, 2 => some .frameStat
  | 12, 3 => some (.frameId 0)
  | 12, 4 => some (.frameId 1)
  | 13, 0 => some .dwStat
  | 13, 7 => some .dwLinkCtl
  | 13, 8 => some .dwFault
  | 13, 9 => some .dwRepoint
  | 13, i => if i ≤ 6 then some (.dwLink (i - 1)) else if 256 ≤ i ∧ i ≤ 511 then some (.dwRoute (i - 256)) else none
  | 14, 0 => some .jambStat
  | 14, 1 => some .jambFault
  | 14, 2 => some .jambCfg
  | 14, 3 => some .jambAflags
  | 14, 4 => some .jambCnt
  | 14, 4096 => some .irqStat
  | 14, 4097 => some .irqEn
  | 14, 4098 => some .hgBcast
  | 14, 4099 => some .hgStat
  | 14, 4100 => some .mboxCfg
  | 14, i =>
    if 4104 ≤ i ∧ i ≤ 4111 then
      (let t := threadOf ((i - 4104) / 2)
      if i % 2 = 0 then some (.cmpl0 t) else some (.cmpl1 t))
    else none
  | 15, 0 => some .clkStat
  | 15, 1 => some .clkCtl
  | 15, 2 => some .pwrStat
  | 15, 3 => some .pwrCtl
  | 15, 4 => some .pdStat0
  | 15, 5 => some .pdStat1
  | 15, 6 => some .shutter
  | 15, 7 => some .bootStat
  | _, _ => none

/-- The register that an offset names: bits [19:3] of it reach the port (R426, 14 R335). -/
def hregOf (off : Nat) : Option HReg :=
  let block := bitsN off 16 4
  let i := bitsN off 3 13
  if block < 2 then regsLow block i else if block < 9 then regsEngines block i else regsControl block i

/-- The switched power domain of a register; none for the always-on region (R428, R432). -/
def HReg.domain (r : HReg) : Option Nat :=
  match r with
  | .sillStat | .sillFault => some 56
  | .trnStat => some 60
  | .casFlags | .casFault | .casCnt => some 62
  | .lvStat => some 70
  | .lvAccCtl | .lvAccData => some 71
  | .dwStat | .dwLink _ | .dwLinkCtl | .dwFault | .dwRepoint | .dwRoute _ => some 74
  | .jambStat | .jambFault | .jambCfg | .jambAflags | .jambCnt => some 78
  | .beloreId | .feature _ | .wdCfg | .wdStat | .wdThread _ => none
  | .irqStat | .irqEn | .hgBcast | .hgStat | .mboxCfg | .cmpl0 _ | .cmpl1 _ => none
  | .clkStat | .clkCtl | .pwrStat | .pwrCtl | .pdStat0 | .pdStat1 | .shutter | .bootStat => none
  | .intStat | .intLog0 | .intLog1 | .shutCnt => none
  | .lintel _ | .ltStat | .ltLog | .ltWear | .deadboltStat | .hatchStat | .hatchCtl => none
  | _ => some 72

/-! ### Read values -/

/-- A register word from its fields: lowest bit, width and value. -/
def pack (fs : List (Nat × Nat × Nat)) : Word :=
  match fs with
  | [] => 0
  | (lo, len, v) :: r => fld v lo len ||| pack r

/-- A field of one bit. -/
def bitAt (i : Nat) (b : Bool) : Nat × Nat × Nat := (i, 1, b2n b)

/-- The running entries whose job `p` holds of. -/
def State.anyRunning (s : State) (p : Entry → Bool) : Bool :=
  s.eng.lanes.any fun e => decide (e.phase = .running) && p e

/-- Is it a SILL.SPILL that reads out or awaits acknowledgements? -/
def Entry.spills (e : Entry) : Bool :=
  match e.job with
  | .spill _ _ _ => true
  | _ => false

/-- Is it a SILL.DRAIN that reads out? -/
def Entry.drains (e : Entry) : Bool :=
  match e.job with
  | .drain _ _ _ => !e.formed
  | _ => false

/-- MUL_POS of the queue selected (10 R249). A partition without Lattices is not open. -/
def State.mulPosWord (s : State) (q : Nat) : Word :=
  let g := s.engine q
  let rec0 := s.mulRec q
  let isOpen := g.isOpen && !(decide (q < 8) && (s.partLats q).isEmpty)
  let pos : List (Nat × Nat × Nat) := match rec0 with
    | some r => [(0, 6, s.slotNow r), (6, 7, r.nslots), bitAt 13 r.lend, (14, 3, s.ownerNow r)]
    | none => []
  let last := if g.everStarted then Thread.num g.last else 0
  pack (pos ++ [(17, 2, last), bitAt 19 g.lastLent, bitAt 20 isOpen])

/-- DW_STAT.DEGRADED (13 R310): an expected link is DOWN or in QUARANTINE, or one that was UP is in RESET. -/
def State.degraded (s : State) : Bool :=
  (List.range 6).any fun l =>
    let k := s.link l
    ((decide (k.state = .down) || decide (k.state = .quarantine)) && s.expects l) ||
    (decide (k.state = .reset) && decide (k.gen ≠ 0))

/-- The code of a link state (13 R308). -/
def LinkState.code (x : LinkState) : Nat :=
  match x with
  | .off => 0
  | .wait => 1
  | .hello => 2
  | .up => 3
  | .idle => 4
  | .down => 5
  | .quarantine => 6
  | .reset => 7

/-- The code of a plane state (12 R263). -/
def PlaneState.code (x : PlaneState) : Nat :=
  match x with
  | .empty => 0
  | .staging => 1
  | .staged => 2
  | .live => 3
  | .ending => 4
  | .commitWait => 5

/-- FRAME_IDp (12 R287). -/
def Plane.idWord (p : Plane) : Word :=
  match p.state, p.frame with
  | .empty, _ => 0
  | .staging, _ => 0
  | _, some f => pack [(0, 32, f.ctxid.toNat), (32, 32, f.check.toNat)]
  | _, none => 0

/-- Reads of the engine registers, blocks 0x3 to 0x8. -/
def State.readEngine (s : State) (r : HReg) : Word :=
  let e := s.er
  let c := s.cr
  let u := b2n c.updSel
  match r with
  | .dcacheCtl =>
    pack [(0, 20, c.dcHandle.toNat), bitAt 20 c.dcCtx, (21, 2, c.dcOp.toNat), bitAt 24 c.dcRun.isSome, bitAt 25 c.dcErr]
  | .descFault =>
    pack [(0, 20, c.dfHandle.toNat), bitAt 20 c.dfCtx, (21, 3, c.dfCode.toNat), (32, 16, c.dfCount), bitAt 63 c.dfPend]
  | .latPart => pack [(0, 32, s.frame.assign.toNat), (32, 4, s.lt.applied.latEn.toNat)]
  | .latAflags => pack [(0, 16, e.latAflags.toNat)]
  | .latFault =>
    pack [(0, 3, e.latFaultPart.toNat), (4, 2, e.latFaultLat.toNat), bitAt 6 e.latFaultHalf, bitAt 7 e.latFaultShared,
      (8, 4, e.latFaultCause.toNat), (32, 16, e.latFaultCount), bitAt 63 e.latFaultPend]
  | .latCnt l => SMap.look e.latCnt 0 l
  | .sillStat =>
    pack [(0, 16, e.spills.toNat), (16, 16, e.drains.toNat), (32, 16, 32768 - s.eng.sillSet.length),
      bitAt 48 (s.anyRunning Entry.spills), bitAt 49 (s.anyRunning Entry.drains)]
  | .sillFault =>
    pack [(0, 15, e.sfLine.toNat), (16, 4, e.sfCause.toNat), (32, 16, e.sfCe), bitAt 63 e.sfPend]
  | .trnStat =>
    pack [(0, 32, e.trnUnits.toNat), bitAt 32 (s.engine 9).running.isSome, bitAt 33 (s.eng.trnFull0 || decide (0 < s.trnHolds)), bitAt 34 (s.eng.trnFull1 || decide (trnBuffer < s.trnHolds)),
      bitAt 35 e.trnFault]
  | .casFlags => pack [(0, 31, e.casFlags.toNat)]
  | .casFault =>
    pack [(0, 5, e.casFaultPane.toNat), (5, 5, e.casFaultGroup.toNat), (10, 2, e.casFaultStream.toNat),
      (12, 4, e.casFaultCause.toNat), (32, 16, e.casFaultCount), bitAt 63 e.casFaultPend]
  | .casCnt => pack [(0, 32, e.casOps.toNat), (32, 32, e.casWaits.toNat)]
  | .lvStat => pack [(0, 16, c.lvCommits.toNat), (16, 16, c.lvRebases.toNat), (32, 16, c.lvNfPush), bitAt 63 c.lvNfPend]
  | .lvAccCtl =>
    pack [(0, 5, c.accIndex.toNat), bitAt 5 c.accCtx, (6, 2, c.accOp.toNat), bitAt 9 c.accInf, bitAt 10 c.accNan,
      bitAt 11 c.accErr]
  | .lvAccData => c.accData
  | .updSel => pack [bitAt 0 c.updSel]
  | .updNormStat => normStatWord (s.plane u).norm
  | .updNormSum => (s.plane u).norm.sum
  | .updNormKappa => (s.plane u).norm.kappa
  | .updStat =>
    let u := s.updStat (b2n c.updSel)
    pack [(0, 16, u.applies.toNat), (16, 16, u.skips.toNat), (32, 16, u.roots.toNat), (48, 16, u.rootFails.toNat)]
  | .updGroup g => groupWord (s.groupState u g)
  | _ => 0

/-- Reads of the registers of Sash, the weave, the latches and the Frame, blocks 0x9 to 0xC. -/
def State.readControl (s : State) (r : HReg) : Word :=
  let c := s.cr
  let q := c.mulSel.toNat
  match r with
  | .sashStat =>
    pack [(0, 16, s.tstate), (16, 4, (allThreads.map fun t => ((s.th t).ctx % 2) <<< Thread.num t).sum),
      bitAt 20 s.sash.handler, (21, 5, s.sash.excq.length), (32, 16, s.sash.lost)]
  | .sashPc t => pack [(0, 48, (s.th t).pc.toNat)]
  | .sashDoorbell => pack [bitAt 32 (decide (16 ≤ s.sash.excq.length))]
  | .sashEcc =>
    pack [(0, 16, s.sash.dmemCe), (16, 16, s.sash.icRefetch), (32, 16, s.sash.dmemUe), bitAt 63 s.sash.eccPend]
  | .weaveCtr => s.eng.weave
  | .mulSel => pack [(0, 4, q)]
  | .mulPos => if q < 11 then s.mulPosWord q else 0
  | .mulCnt0 => if q < 11 then pack [(0, 32, (s.engine q).used.toNat), (32, 32, (s.engine q).idle.toNat)] else 0
  | .mulCnt1 => if q < 11 then pack [(0, 32, (s.engine q).overrun.toNat), (32, 32, (s.engine q).lentCount.toNat)] else 0
  | .strmLanes => pack (allThreads.map fun t => (8 * Thread.num t, 8, (s.lane q t).length))
  | .strmAbort =>
    pack [(0, 32, c.abIseq.toNat), (32, 2, c.abStream.toNat), (34, 4, c.abQueue.toNat), bitAt 38 c.abMode,
      bitAt 40 !c.abNamed.isEmpty, bitAt 41 c.abErr, (42, 8, c.abResult.toNat), (50, 14, c.abCount)]
  | .latchCnt i =>
    pack ((List.range 8).map fun j => (8 * j, 8, (s.latchCount (i / 6) (8 * (i % 6) + j)).toNat))
  | .latchHsig => pack [bitAt 8 s.latch.hsigErr]
  | .latchStat =>
    pack [(0, 11, s.latch.pending.length), (16, 16, s.latch.stale), (32, 16, s.latch.refused), (48, 16, s.latch.lostlink)]
  | .latchFault =>
    pack [(0, 6, s.latch.fLatch.toNat), bitAt 6 s.latch.fBank, (7, 3, s.latch.fSource.toNat), (32, 16, s.latch.fCount),
      bitAt 63 s.latch.fPend]
  | .wdCfg =>
    pack [(0, 32, s.wd.period.toNat), (32, 2, s.wd.src.toNat), (34, 2, s.frame.fault.wdPol), (36, 2, s.frame.fault.latchPol)]
  | .wdStat => pack [(0, 4, s.wd.mask.toNat), (16, 16, s.wd.fires), bitAt 63 s.wd.pend]
  | .wdThread t => SMap.look s.wd.threads 0 (Thread.num t)
  | .frameAddr => pack [(0, 48, s.frame.addr.toNat)]
  | .frameCtl =>
    pack [(0, 17, s.frame.len.toNat), (17, 3, s.frame.opField.toNat), bitAt 20 s.frame.waitField,
      bitAt 21 s.frame.slotField, bitAt 23 s.frame.busy, bitAt 24 s.frame.err]
  | .frameStat =>
    pack [(0, 8, s.frame.result.toNat), (8, 16, s.frame.whereField.toNat), (24, 3, s.frame.plane0.state.code),
      (27, 3, s.frame.plane1.state.code), bitAt 30 (decide (s.frame.plane1.state = .live))]
  | .frameId p => (s.plane p).idWord
  | _ => 0

/-- Reads of the registers of the ports, blocks 0xD and 0xE. -/
def State.readPort (s : State) (r : HReg) : Word :=
  let d := s.door
  let j := s.jamb
  let h := s.hinge
  match r with
  | .dwStat =>
    pack [bitAt 0 s.degraded, bitAt 1 d.event, (2, 16, d.node.toNat), (18, 17, d.tags.length),
      (35, 17, 65536 - s.frame.jambTags)]
  | .dwLink l =>
    let k := s.link l
    pack [(0, 4, k.state.code), (4, 2, if k.state = .up then k.gen else 0), bitAt 6 k.bypass, bitAt 7 k.remapped,
      (8, 16, k.peer.toNat), (24, 4, k.cause.toNat), (32, 16, k.retries), (48, 16, k.crcErr)]
  | .dwLinkCtl => pack [(0, 3, d.ctlLink.toNat), bitAt 4 d.ctlErr]
  | .dwFault => pack [(0, 16, d.swept), (16, 16, d.resets), (32, 3, d.faultLink.toNat), bitAt 63 d.faultPend]
  | .dwRepoint => pack [(0, 16, d.rpX.toNat), (16, 16, d.rpV.toNat), (32, 24, d.rpEpoch.toNat), bitAt 57 d.rpErr]
  | .dwRoute i =>
    if i < s.routeCount then
      pack [(0, 16, (s.route i).dest.toNat), (16, 3, s.routeLink i), bitAt 19 (s.route i).unreach,
        bitAt 20 (s.route i).repointed]
    else 0
  | .jambStat =>
    pack [(0, 17, j.tags.length + j.heldTags.length), (17, 17, s.frame.jambTags), (34, 16, j.quarantine.length),
      (50, 14, j.stray)]
  | .jambFault =>
    pack [(0, 48, j.faultAddr.toNat), (48, 3, j.faultCause.toNat), (51, 4, j.faultClient.toNat), (55, 8, j.faultCount),
      bitAt 63 j.faultPend]
  | .jambCfg => pack [(0, 24, j.timeout.toNat)]
  | .jambAflags => pack [(0, 32, j.aflags.toNat)]
  | .jambCnt => pack [(0, 32, j.reads.toNat), (32, 32, j.writes.toNat)]
  | .irqStat => pack [(0, 13, h.irqStat.toNat)]
  | .irqEn => pack [(0, 13, h.irqEn.toNat)]
  | .hgBcast => pack [bitAt 0 true, (1, 15, h.bcast.toNat)]
  | .hgStat => pack [(0, 16, h.decErr), (16, 16, h.off), (32, 16, h.denied), bitAt 63 h.pend]
  | .mboxCfg => pack [bitAt 0 h.mboxEn, (1, 4, h.mboxD.toNat), (12, 36, h.mboxBase.toNat)]
  | .cmpl0 t => s.mirror0 t
  | .cmpl1 t => (s.th t).cmpl1
  | _ => 0

/-- Reads of the clock, power, integrity, replay and Lintel registers, blocks 0xF, 0x0 and 0x1. -/
def State.readSystem (s : State) (r : HReg) : Word :=
  let k := s.clk
  let p := s.pwr
  let x := s.rpl
  let l := s.lt
  match r with
  | .clkStat =>
    pack ([(0, 2, srcNum k.inForce), (2, 2, srcNum k.sel)] ++
      ([Source.tro, .refClk, .rref0, .rref1].map fun x => bitAt (4 + srcNum x) (s.srcReady x)) ++
      [bitAt 8 k.aonOk, bitAt 9 s.locked, bitAt 10 k.fallback, bitAt 11 k.aonLostBit, bitAt 12 k.slewTo.isSome,
        (16, 8, k.result.toNat)])
  | .clkCtl => pack [(0, 2, k.ctlSrc.toNat)]
  | .pwrStat =>
    pack [(0, 3, p.op), (3, 3, p.target), bitAt 6 (decide (p.moving ≠ .none)), (7, 3, p.vreq.toNat), (10, 3, p.vack.toNat),
      bitAt 13 p.parked, bitAt 14 p.vtimeout, bitAt 15 (p.pswReq && !p.pswGnt), (16, 8, p.result.toNat), (32, 16, p.wakes)]
  | .pwrCtl => pack [(0, 3, p.ctlOp.toNat)]
  | .pdStat0 => p.on.setWidth 64
  | .pdStat1 => pack [(0, 16, p.on.toNat / 2 ^ 64), (16, 7, p.pdFail.toNat), bitAt 23 p.pdFailV]
  | .shutter =>
    pack [(0, 8, p.shutLat.toNat), (8, 2, p.shutSpare.toNat), bitAt 10 p.shutSill, bitAt 11 p.shutTransom,
      bitAt 12 p.shutNear, bitAt 13 p.shutFar]
  | .bootStat => pack [(0, 4, s.boot.stage), (4, 2, s.boot.cause.toNat), bitAt 6 s.boot.lintelErr, bitAt 7 s.boot.pdFail]
  | .intQstop => pack [(0, 11, s.int.qstop.toNat), (32, 16, s.int.ce)]
  | .jnlStat =>
    let q := s.plane (b2n x.jnlCtx)
    pack [(0, 32, q.jOffset), (32, 16, q.jWraps)]
  | .jnlCtl => pack [bitAt 0 x.jnlCtx, bitAt 1 (s.plane (b2n x.jnlCtx)).capture]
  | .rplAddr => pack [(0, 48, x.addr.toNat)]
  | .rplCtl => pack [(0, 32, x.step.toNat), bitAt 33 x.ctlErr]
  | .rplStat => pack [(0, 3, x.result.toNat), (3, 2, x.stream.toNat), (5, 11, x.index.toNat), (32, 32, x.whereField.toNat)]
  | .ckptAddr => pack [(0, 48, x.ckptAddr.toNat)]
  | .ckptCtl =>
    pack [(0, 2, x.ckptOp.toNat), bitAt 2 x.ckptSlot, bitAt 4 x.ckptBusy, bitAt 5 x.ckptErr, (6, 8, x.ckptResult.toNat)]
  | .nodeAdopt =>
    pack [(0, 16, x.adoptNode.toNat), bitAt 17 x.adoptErr, bitAt 18 (decide (s.door.node ≠ l.applied.node))]
  | .intStat => pack [(0, 9, s.int.stat.toNat), (32, 16, s.int.events)]
  | .intLog0 => s.int.log0
  | .intLog1 => s.int.log1
  | .shutCnt => pack [(0, 32, s.int.shutCount), (32, 4, s.int.shutBlock.toNat), bitAt 63 s.int.shutPend]
  | .lintel i => (s.record i).data &&& ltMask i
  | .ltStat =>
    pack [bitAt 0 (!l.reqs.isEmpty || l.late), bitAt 1 l.warn, bitAt 2 l.bad, bitAt 3 l.deny, bitAt 4 l.resolved,
      bitAt 5 l.landed, bitAt 6 l.pfail, (16, 16, l.denies), (32, 16, l.writes)]
  | .ltLog => pack [(0, 8, l.logIndex.toNat), (8, 4, l.logCause.toNat), (12, 4, l.logEvent.toNat), (16, 17, l.logCount)]
  | .ltWear =>
    let n := (s.record l.wear.toNat).count
    pack [(0, 8, l.wear.toNat), (16, 17, n), bitAt 33 (decide (n = ltWornAt))]
  | .deadboltStat => pack [bitAt 0 l.asserted, bitAt 1 l.seen]
  | .hatchStat => pack [bitAt 0 l.hatchActive, bitAt 1 l.hatchSince, (16, 32, s.recData 16)]
  | .hatchCtl => pack [bitAt 0 l.hatchReq, bitAt 1 l.hatchErr, (2, 8, l.hatchResult.toNat)]
  | _ => 0

/-- What a read of a register returns. Each register is known to one of the four tables, and the others hold 0 for
it. -/
def State.regRead (s : State) (r : HReg) : Word :=
  match r with
  | .beloreId => beloreId
  | .feature i => s.feature i
  | _ => s.readEngine r ||| s.readControl r ||| s.readPort r ||| s.readSystem r

end Sys2Proof.Machine
end

