-- ==== Sys2Proof/Machine/RegWrite.lean ====
section
/-! DEFINITION. What a performed write of a Hinge register does (spec/00 R18 and the register tables that spec/18 R432
names). A write sets the RW fields, clears W1C bits where it carries a 1, and acts on GO. -/

namespace Sys2Proof.Machine

/-- A W1C field of `w` bits from bit `lo` on (R18). -/
def w1c {w : Nat} (x : BitVec w) (d : Word) (lo : Nat) : BitVec w := x &&& ~~~(d.extractLsb' lo w)

/-- A W1C bit (R18). -/
def w1cBit (x : Bool) (d : Word) (i : Nat) : Bool := x && !d.getLsbD i

/-- A field of a written word. -/
def wfld (d : Word) (lo w : Nat) : BitVec w := d.extractLsb' lo w

/-- DCACHE_CTL (03 R73): one flush at a time. -/
def State.dcacheCtl (s : State) (handle : BitVec 20) (ctx : Bool) (op : BitVec 2) (go : Bool) : State :=
  let s := s.modCr fun r => { r with dcHandle := handle, dcCtx := ctx, dcOp := op }
  let c := b2n ctx
  let run (s : State) (h : Option Nat) : State :=
    if s.wbPending c h then s.modCr fun r => { r with dcRun := some (c, h) } else s
  if !go || s.goIgnored .dcache then s
  else if op = 3 then s.modCr fun r => { r with dcErr := true }
  else if s.cr.dcRun.isSome then s.goRefused .dcache
  else match op.toNat with
    | 1 => run (s.dcFlush c handle.toNat) (some handle.toNat)
    | 2 => run (s.dcFlushAll c) none
    | _ => s

/-- LV_ACC_CTL (07 R165, R163); a read or a clear checks the residue (16 R380). -/
def State.lvAccCtl (s : State) (index : BitVec 5) (ctx : Bool) (op : BitVec 2) (go : Bool) : State :=
  let s := s.modCr fun r => { r with accIndex := index, accCtx := ctx, accOp := op }
  if !go then s
  else
    let a := s.accum (b2n ctx) index.toNat
    match op.toNat with
    | 0 => s
    | 1 => (s.accumCheck (b2n ctx) index.toNat .clean).modCr fun r => { r with
        accData := accumRead a, accInf := a.inf, accNan := a.nan }
    | 2 => (s.accumCheck (b2n ctx) index.toNat .clean).setAccum (b2n ctx) index.toNat Accum.init
    | _ => s.modCr fun r => { r with accErr := true }

/-- UPD_GROUPg: the W1C bits of the group of the context that UPD_SEL shows (08 R192). -/
def State.groupClear (s : State) (g : Nat) (d : Word) : State :=
  let c := b2n s.cr.updSel
  let x := s.groupState c g
  s.setGroup c g { x with rootFail := w1cBit x.rootFail d 32, fallback := w1cBit x.fallback d 33 }

/-- SASH_DOORBELL: raises HOST_COMMAND with the code (09 R224, R230). -/
def State.doorbell (s : State) (code : BitVec 32) : State :=
  s.excPush { cause := 0x11, thread := 0, ctx := 0, status := 0, queue := 0, bel := true, pc := 0, info := code.zeroExtend 64 }

/-- SRESET (09 R227, R228): out of HALTED with an empty queue, out of STOPPED with the queue kept. -/
def State.sreset (s : State) : State :=
  let idle (s : State) : State :=
    { s.modTh .S fun x => { x with state := .idle, wait := .none, stopAsked := false } with
      sash := { s.sash with handler := false } }
  match (s.th .S).state with
  | .halted =>
    let s := idle s
    { s with sash := { s.sash with excq := [] } }
  | .stopped => idle s
  | _ => s

/-- SASH_CTL (09 R230). -/
def State.sashCtl (s : State) (iflush sreset : Bool) (stop : BitVec 4) : State :=
  let s := if iflush then s.icFlush else s
  let s := if sreset then s.sreset else s
  allThreads.foldl (fun s t => if stop.getLsbD (Thread.num t) then s.stopAtBoundary t else s) s

/-- STRM_ABORT (10 R249). -/
def State.strmAbort (s : State) (iseq : BitVec 32) (stream : BitVec 2) (queue : BitVec 4) (mode go : Bool) : State :=
  let s := s.modCr fun r => { r with abIseq := iseq, abStream := stream, abQueue := queue, abMode := mode }
  if go then s.abortGo else s

/-- DW_LINK_CTL (13 R321, R324). -/
def State.dwLinkCtl (s : State) (link : BitVec 3) (go : Bool) : State :=
  let s := { s with door := { s.door with ctlLink := link } }
  if !go then s
  else if 6 ≤ link.toNat then { s with door := { s.door with ctlErr := true } }
  else s.hostReset link.toNat

/-- DW_REPOINT (13 R322, R324): applied here and sent on every UP link of generation 3. -/
def State.dwRepoint (s : State) (x v : BitVec 16) (epoch : BitVec 24) (go : Bool) : State :=
  let s := { s with door := { s.door with rpX := x, rpV := v, rpEpoch := epoch } }
  let reserved (n : BitVec 16) : Bool := decide (n = 0) || decide (n = 0xFFFF)
  if !go then s
  else if reserved x || reserved v || decide (epoch ≤ s.door.epoch) then { s with door := { s.door with rpErr := true } }
  else s.repoint x v epoch none

/-- Writes of the engine registers, blocks 0x3 to 0x8. -/
def State.writeEngine (s : State) (r : HReg) (d : Word) : State :=
  let pend := d.getLsbD 63
  match r with
  | .dcacheCtl =>
    (s.modCr fun r => { r with dcErr := w1cBit r.dcErr d 25 }).dcacheCtl (wfld d 0 20) (d.getLsbD 20) (wfld d 21 2)
      (d.getLsbD 23)
  | .descFault => if pend then s.modCr fun r => { r with dfPend := false, dfCount := 0, dfCode := 0 } else s
  | .latAflags => s.modEr fun r => { r with latAflags := w1c r.latAflags d 0 }
  | .latFault =>
    if pend then s.modEr fun r => { r with latFaultPend := false, latFaultCount := 0, latFaultCause := 0 } else s
  | .sillFault => if pend then s.modEr fun r => { r with sfPend := false, sfCe := 0, sfCause := 0 } else s
  | .trnStat => s.modEr fun r => { r with trnFault := w1cBit r.trnFault d 35 }
  | .casFlags => s.modEr fun r => { r with casFlags := w1c r.casFlags d 0 }
  | .casFault =>
    if pend then s.modEr fun r => { r with casFaultPend := false, casFaultCount := 0, casFaultCause := 0 } else s
  | .lvStat => if pend then s.modCr fun r => { r with lvNfPend := false, lvNfPush := 0 } else s
  | .lvAccCtl =>
    (s.modCr fun r => { r with accErr := w1cBit r.accErr d 11 }).lvAccCtl (wfld d 0 5) (d.getLsbD 5) (wfld d 6 2)
      (d.getLsbD 8)
  | .updSel => s.modCr fun r => { r with updSel := d.getLsbD 0 }
  | .updGroup g => s.groupClear g d
  | _ => s

/-- Writes of the registers of Sash, the weave, the latches and the Frame, blocks 0x9 to 0xC. -/
def State.writeControl (s : State) (r : HReg) (d : Word) : State :=
  let pend := d.getLsbD 63
  match r with
  | .sashDoorbell => s.doorbell (wfld d 0 32)
  | .sashCtl => s.sashCtl (d.getLsbD 0) (d.getLsbD 1) (wfld d 2 4)
  | .sashEcc =>
    if pend then { s with sash := { s.sash with eccPend := false, dmemCe := 0, icRefetch := 0, dmemUe := 0 } } else s
  | .mulSel => s.modCr fun r => { r with mulSel := wfld d 0 4 }
  | .strmAbort =>
    (s.modCr fun r => { r with abErr := w1cBit r.abErr d 41 }).strmAbort (wfld d 0 32) (wfld d 32 2) (wfld d 34 4)
      (d.getLsbD 38) (d.getLsbD 39)
  | .latchHsig =>
    { s with latch := { s.latch with hsigErr := w1cBit s.latch.hsigErr d 8 } }.latchHsig (wfld d 0 6).toNat
      (b2n (d.getLsbD 6)) (d.getLsbD 7)
  | .latchFault => if pend then { s with latch := { s.latch with fPend := false, fCount := 0 } } else s
  | .wdStat => { s with wd := { s.wd with pend := w1cBit s.wd.pend d 63 } }
  | .frameAddr => { s with frame := { s.frame with addr := wfld d 0 48 &&& ~~~7 } }
  | .frameCtl =>
    { s with frame := { s.frame with err := w1cBit s.frame.err d 24 } }.frameCtl (wfld d 0 17) (wfld d 17 3)
      (d.getLsbD 20) (d.getLsbD 21) (d.getLsbD 22)
  | _ => s

/-- Writes of the registers of the ports, blocks 0xD and 0xE. -/
def State.writePort (s : State) (r : HReg) (d : Word) : State :=
  let pend := d.getLsbD 63
  match r with
  | .dwStat => { s with door := { s.door with event := w1cBit s.door.event d 1 } }
  | .dwLinkCtl =>
    { s with door := { s.door with ctlErr := w1cBit s.door.ctlErr d 4 } }.dwLinkCtl (wfld d 0 3) (d.getLsbD 3)
  | .dwFault => if pend then { s with door := { s.door with faultPend := false, swept := 0, resets := 0 } } else s
  | .dwRepoint =>
    { s with door := { s.door with rpErr := w1cBit s.door.rpErr d 57 } }.dwRepoint (wfld d 0 16) (wfld d 16 16)
      (wfld d 32 24) (d.getLsbD 56)
  | .jambFault => if pend then { s with jamb := { s.jamb with faultPend := false, faultCount := 0, faultCause := 0 } } else s
  | .jambCfg => { s with jamb := { s.jamb with timeout := wfld d 0 24 } }
  | .jambAflags => { s with jamb := { s.jamb with aflags := w1c s.jamb.aflags d 0 } }
  | .irqStat => { s with hinge := { s.hinge with irqStat := w1c s.hinge.irqStat d 0 } }
  | .irqEn => { s with hinge := { s.hinge with irqEn := wfld d 0 13 } }
  | .hgBcast => { s with hinge := { s.hinge with bcast := wfld d 1 15 } }
  | .hgStat => if pend then { s with hinge := { s.hinge with pend := false, decErr := 0, off := 0, denied := 0 } } else s
  | .mboxCfg =>
    { s with hinge := { s.hinge with mboxEn := d.getLsbD 0, mboxD := wfld d 1 4, mboxBase := wfld d 12 36 } }
  | _ => s

/-- HATCH_CTL with Deadbolt asserted, or with REQ at 0 (17 R418, R420). REQ is ignored in the tick in which it times out
(18 R429). -/
def State.hatchCtl (s : State) (d : Word) : State :=
  let s := { s with lt := { s.lt with hatchErr := w1cBit s.lt.hatchErr d 1 } }
  let due := s.lt.hatchReq && decide (1000000 ≤ s.lt.hatchTicks)
  if d.getLsbD 0 && !due && !s.goIgnored .hatch then
    { s with lt := { s.lt with hatchReq := true, hatchArmed := s.planesEmpty, hatchTicks := 0 } }
  else s

/-- Writes of the clock, power, integrity, replay and Lintel registers, blocks 0xF, 0x0 and 0x1. LINTEL registers are
written through the port (`State.lintelReq`). -/
def State.writeSystem (s : State) (r : HReg) (d : Word) : State :=
  let pend := d.getLsbD 63
  match r with
  | .clkStat =>
    { s with clk := { s.clk with fallback := w1cBit s.clk.fallback d 10, aonLostBit := w1cBit s.clk.aonLostBit d 11 } }
  | .clkCtl => s.clkCtl (sourceOf (wfld d 0 2).toNat) (d.getLsbD 2)
  | .pwrStat => { s with pwr := { s.pwr with vtimeout := w1cBit s.pwr.vtimeout d 14 } }
  | .pwrCtl => s.pwrCtl (wfld d 0 3) (d.getLsbD 3)
  | .pdStat1 => { s with pwr := { s.pwr with pdFailV := w1cBit s.pwr.pdFailV d 23 } }
  | .shutter => s.shutterSet (d.getLsbD 10) (d.getLsbD 11) (d.getLsbD 12) (d.getLsbD 13)
  | .intQstop => { s with int := { s.int with qstop := w1c s.int.qstop d 0, ce := if pend then 0 else s.int.ce } }
  | .jnlCtl =>
    { s with rpl := { s.rpl with jnlCtx := d.getLsbD 0 } }.modPlane (b2n (d.getLsbD 0)) fun p => { p with
      capture := d.getLsbD 1, captured := if p.capture then p.captured else []
      capturing := if d.getLsbD 1 then p.capturing else [] }
  | .rplAddr => { s with rpl := { s.rpl with addr := wfld d 0 48 &&& ~~~7 } }
  | .rplCtl =>
    { s with rpl := { s.rpl with ctlErr := w1cBit s.rpl.ctlErr d 33 } }.replayArm (wfld d 0 32) (d.getLsbD 32)
  | .ckptAddr => { s with rpl := { s.rpl with ckptAddr := wfld d 0 48 &&& ~~~0xFFF } }
  | .ckptCtl =>
    { s with rpl := { s.rpl with ckptErr := w1cBit s.rpl.ckptErr d 5 } }.ckptCtl (wfld d 0 2) (d.getLsbD 2) (d.getLsbD 3)
  | .nodeAdopt =>
    { s with rpl := { s.rpl with adoptErr := w1cBit s.rpl.adoptErr d 17 } }.adopt (wfld d 0 16) (d.getLsbD 16)
  | .intStat => { s with int := { s.int with stat := w1c s.int.stat d 0 } }
  | .shutCnt => if pend then { s with int := { s.int with shutPend := false, shutCount := 0 } } else s
  | .ltStat =>
    { s with lt := { s.lt with
      warn := w1cBit s.lt.warn d 1, bad := w1cBit s.lt.bad d 2, deny := w1cBit s.lt.deny d 3
      resolved := w1cBit s.lt.resolved d 4 } }
  | .ltWear => { s with lt := { s.lt with wear := wfld d 0 8 } }
  | .deadboltStat => { s with lt := { s.lt with seen := w1cBit s.lt.seen d 1 } }
  | .hatchCtl => s.hatchCtl d
  | _ => s

/-- A performed write of a register. Each register is written by at most one of the four tables, and the others leave
the state as it is. -/
def State.regWrite (s : State) (r : HReg) (d : Word) : State :=
  (((s.writeEngine r d).writeControl r d).writePort r d).writeSystem r d

end Sys2Proof.Machine
end

