-- ==== Sys2Proof/Machine/Hinge.lean ====
section
/-! DEFINITION. The host port: which request is performed and how it is answered (spec/14 R335 to R337; spec/17 R412,
R418), and the commands that are writes or reads of a register. -/

namespace Sys2Proof.Machine

/-! ### Answers (14 R335, R336) -/

/-- OK, OFF, DENIED and DECERR. -/
def hgOk : BitVec 2 := 0
/-- R335. -/
def hgOff : BitVec 2 := 1
/-- R335. -/
def hgDeniedCode : BitVec 2 := 2
/-- R335. -/
def hgDecErr : BitVec 2 := 3

/-- Is HG_REQ_READY 1: the port answers from stage 2 on, and holds fewer than 16 requests (R335, 15 R372, R373)? -/
def State.hgReady (s : State) : Bool := !s.boot.aonRst && decide (2 ≤ s.boot.stage) && decide (s.hinge.waiting.length < 16)

/-- Counts an answer that is not OK in HG_STAT (R344). -/
def State.hgCount (s : State) (code : BitVec 2) : State :=
  let h := s.hinge
  match code.toNat with
  | 0 => s
  | 1 => { s with hinge := { h with off := satInc 16 h.off, pend := true } }
  | 2 => s.hgDenied
  | _ => { s with hinge := { h with decErr := satInc 16 h.decErr, pend := true } }

/-- Takes a request's response into the order; `done` is false while its Lintel write has not retired. -/
def State.hgQueue (s : State) (m : HgMeta) (rdata : Word) (code : BitVec 2) (done : Bool) : State :=
  let r : HgRsp := { id := m.id, rdata := rdata, code := code, done := done }
  { s with hinge := { s.hinge with waiting := s.hinge.waiting ++ [r] } }.hgFlush

/-- Answers a request. -/
def State.hgRsp (s : State) (m : HgMeta) (rdata : Word) (code : BitVec 2) : State :=
  (s.hgCount code).hgQueue m rdata code true

/-! ### The rows of R336 -/

/-- The BLOCK code under which an access to a shuttered register is counted; none when its block is not shuttered
(row 3, 18 R428, 15 R357). -/
def State.regShut (s : State) (r : HReg) : Option Nat :=
  match r.domain with
  | some 56 => if s.sillDark then some s.sillCode else none
  | some 60 => if s.transomDark then some s.trnCode else none
  | _ => none

/-- Is the register's domain off or in reset, or the core in Hatch (row 4)? -/
def State.regOff (s : State) (r : HReg) : Bool :=
  match r.domain with
  | none => false
  | some d => decide (s.boot.stage < 7) || !s.domOn d || s.lt.hatchActive || (decide (d = 74) && s.door.held)

/-- A request to a register in domains 0 to 73 wakes a parked core (18 R428, 15 R369). -/
def State.regWake (s : State) (r : HReg) : State :=
  match r.domain with
  | some d => if d ≤ 73 then s.wakeAsk else s
  | none => s

/-- A write of a LINTEL register: checked, then sent to the port; its response waits for the store (17 R412, R413). -/
def State.lintelReq (s : State) (m : HgMeta) (i : Nat) (d : Word) : State :=
  match s.ltRefuses m.bcast i with
  | some cause => (s.ltDeny i cause 1).hgRsp m 0 hgDeniedCode
  | none => (s.ltSend (.write i (d &&& ltMask i))).hgQueue m 0 hgOk false

/-- An RWD write that is denied (17 R418). -/
def State.rwdDenied (s : State) (m : HgMeta) : State :=
  ({ s with lt := { s.lt with deny := true, denies := satInc 16 s.lt.denies } }.ltIrq).hgRsp m 0 hgDeniedCode

/-- A write that rows 1 to 4 do not end (rows 5 and 6). -/
def State.hgWrite (s : State) (m : HgMeta) (r : HReg) (d : Word) : State :=
  match r with
  | .lintel i => s.lintelReq m i d
  | .hatchCtl => if d.getLsbD 0 && !s.lt.asserted then s.rwdDenied m else (s.regWrite r d).hgRsp m 0 hgOk
  | _ => (s.regWrite r d).hgRsp m 0 hgOk

/-- A core outside the broadcast group of a request (R337). -/
def State.hgOutside (s : State) (m : HgMeta) : Bool := m.bcast && !((s.hinge.bcast ++ (1 : BitVec 1)).getLsbD m.group.toNat)

/-- A request of the host: a read, or a write of a word. With it comes the level that HG_RSP_READY has from now on. -/
def State.hgRequest (s : State) (m : HgMeta) (off : Nat) (data : Option Word) : State :=
  let s := { s with hinge := { s.hinge with rspReady := m.ready } }.hgFlush
  if !s.hgReady then s
  else if m.bcast && data.isNone then s.hgRsp m 0 hgDecErr
  else if s.hgOutside m then s.hgRsp m 0 hgOk
  else match hregOf off with
    | none => s.hgRsp m 0 hgDecErr
    | some r =>
      let s := s.regWake r
      match s.regShut r with
      | some code => (s.shutAccess code 1).hgRsp m 0 hgOk
      | none =>
        if s.regOff r then s.hgRsp m 0 hgOff
        else match data with
          | none => s.hgRsp m (s.regRead r) hgOk
          | some d => s.hgWrite m r d

/-! ### Pins (14 R342, 16 R392) -/

/-- IRQ_N: low while a set bit of IRQ_STAT is enabled. -/
def State.irqN (s : State) : Bool := decide (s.hinge.irqStat &&& s.hinge.irqEn = 0)

/-- ALARM_N: low while INT_STAT.ALARM is 1. -/
def State.alarmN (s : State) : Bool := !s.int.stat.getLsbD 8

/-! ### The commands -/

/-- HINGE_REGISTER_WRITE. -/
def execHingeRegisterWrite (h : HgMeta) (off : BitVec 21) (data : Word) (s : State) : Result :=
  .next (s.hgRequest h off.toNat (some data))

/-- HINGE_REGISTER_READ. -/
def execHingeRegisterRead (h : HgMeta) (off : BitVec 21) (s : State) : Result :=
  .next (s.hgRequest h off.toNat none)

/-- DCACHE_FLUSH_HANDLE: DCACHE_CTL with OP 1 and GO (03 R73). -/
def execDcacheFlushHandle (h : HgMeta) (handle : BitVec 20) (ctx : Fin 2) (s : State) : Result :=
  .next (s.hgRequest h 0x30000 (some (pack [(0, 20, handle.toNat), (20, 1, ctx.val), (21, 2, 1), (23, 1, 1)])))

/-- DCACHE_FLUSH_CONTEXT: DCACHE_CTL with OP 2 and GO. -/
def execDcacheFlushContext (h : HgMeta) (ctx : Fin 2) (s : State) : Result :=
  .next (s.hgRequest h 0x30000 (some (pack [(20, 1, ctx.val), (21, 2, 2), (23, 1, 1)])))

/-- LV_ACC_READ: LV_ACC_CTL with OP 1 and GO (07 R165). -/
def execLvAccRead (h : HgMeta) (index : BitVec 5) (ctx : Fin 2) (s : State) : Result :=
  .next (s.hgRequest h 0x70008 (some (pack [(0, 5, index.toNat), (5, 1, ctx.val), (6, 2, 1), (8, 1, 1)])))

/-- LV_ACC_CLEAR: LV_ACC_CTL with OP 2 and GO. -/
def execLvAccClear (h : HgMeta) (index : BitVec 5) (ctx : Fin 2) (s : State) : Result :=
  .next (s.hgRequest h 0x70008 (some (pack [(0, 5, index.toNat), (5, 1, ctx.val), (6, 2, 2), (8, 1, 1)])))

/-- SASH_DOORBELL (09 R230). -/
def execSashDoorbell (h : HgMeta) (code : BitVec 32) (s : State) : Result :=
  .next (s.hgRequest h 0x90028 (some (pack [(0, 32, code.toNat)])))

/-- IFLUSH: bit 0 of SASH_CTL. -/
def execIflush (h : HgMeta) (s : State) : Result := .next (s.hgRequest h 0x90030 (some (pack [(0, 1, 1)])))

/-- SRESET: bit 1 of SASH_CTL. -/
def execSreset (h : HgMeta) (s : State) : Result := .next (s.hgRequest h 0x90030 (some (pack [(1, 1, 1)])))

/-- STOP: bit 2 + t of SASH_CTL. -/
def execStop (h : HgMeta) (t : Thread) (s : State) : Result :=
  .next (s.hgRequest h 0x90030 (some (pack [(2 + Thread.num t, 1, 1)])))

/-- STRM_ABORT_ENTRY: STRM_ABORT with MODE 0 and GO (10 R249). -/
def execStrmAbortEntry (h : HgMeta) (t : Thread) (q : BitVec 4) (iseq : BitVec 32) (s : State) : Result :=
  .next (s.hgRequest h 0xA0030
    (some (pack [(0, 32, iseq.toNat), (32, 2, Thread.num t), (34, 4, q.toNat), (39, 1, 1)])))

/-- STRM_ABORT_STREAM: STRM_ABORT with MODE 1 and GO. -/
def execStrmAbortStream (h : HgMeta) (t : Thread) (q : BitVec 4) (s : State) : Result :=
  .next (s.hgRequest h 0xA0030 (some (pack [(32, 2, Thread.num t), (34, 4, q.toNat), (38, 1, 1), (39, 1, 1)])))

/-- LATCH_HSIG with GO (11 R262). -/
def execLatchHsig (h : HgMeta) (k : BitVec 6) (bank : Fin 2) (s : State) : Result :=
  .next (s.hgRequest h 0xB0060 (some (pack [(0, 6, k.toNat), (6, 1, bank.val), (7, 1, 1)])))

/-- FRAME_STAGE: FRAME_CTL with OP 1 and GO (12 R287). -/
def execFrameStage (h : HgMeta) (len : BitVec 17) (s : State) : Result :=
  .next (s.hgRequest h 0xC0008 (some (pack [(0, 17, len.toNat), (17, 3, 1), (22, 1, 1)])))

/-- FRAME_COMMIT: OP 2. -/
def execFrameCommit (h : HgMeta) (wait : Bool) (slot : Fin 2) (s : State) : Result :=
  .next (s.hgRequest h 0xC0008 (some (pack [(17, 3, 2), bitAt 20 wait, (21, 1, slot.val), (22, 1, 1)])))

/-- FRAME_DISCARD: OP 3. -/
def execFrameDiscard (h : HgMeta) (slot : Fin 2) (s : State) : Result :=
  .next (s.hgRequest h 0xC0008 (some (pack [(17, 3, 3), (21, 1, slot.val), (22, 1, 1)])))

/-- FRAME_FORCE_END: OP 4. -/
def execFrameForceEnd (h : HgMeta) (slot : Fin 2) (s : State) : Result :=
  .next (s.hgRequest h 0xC0008 (some (pack [(17, 3, 4), (21, 1, slot.val), (22, 1, 1)])))

/-- HOST_LINK_RESET: DW_LINK_CTL with GO (13 R321, R324). -/
def execHostLinkReset (h : HgMeta) (link : BitVec 3) (s : State) : Result :=
  .next (s.hgRequest h 0xD0038 (some (pack [(0, 3, link.toNat), (3, 1, 1)])))

/-- DW_REPOINT with GO (13 R322, R324). -/
def execDwRepoint (h : HgMeta) (x v : BitVec 16) (epoch : BitVec 24) (s : State) : Result :=
  .next (s.hgRequest h 0xD0048
    (some (pack [(0, 16, x.toNat), (16, 16, v.toNat), (32, 24, epoch.toNat), (56, 1, 1)])))

/-- CLK_SELECT: CLK_CTL with GO (15 R349). -/
def execClkSelect (h : HgMeta) (src : Source) (s : State) : Result :=
  .next (s.hgRequest h 0xF0008 (some (pack [(0, 2, srcNum src), (2, 1, 1)])))

/-- PWR_REQUEST: PWR_CTL with GO (15 R365). -/
def execPwrRequest (h : HgMeta) (pt : BitVec 3) (s : State) : Result :=
  .next (s.hgRequest h 0xF0018 (some (pack [(0, 3, pt.toNat), (3, 1, 1)])))

/-- SHUTTER_WRITE (15 R360). -/
def execShutterWrite (h : HgMeta) (sill transom near far : Bool) (s : State) : Result :=
  .next (s.hgRequest h 0xF0030 (some (pack [bitAt 10 sill, bitAt 11 transom, bitAt 12 near, bitAt 13 far])))

/-- QUEUE_RELEASE: INT_QSTOP (16 R390). -/
def execQueueRelease (h : HgMeta) (mask : BitVec 11) (s : State) : Result :=
  .next (s.hgRequest h 0x100000 (some (pack [(0, 11, mask.toNat)])))

/-- REPLAY_ARM: RPL_CTL with GO (16 R400). -/
def execReplayArm (h : HgMeta) (step : BitVec 32) (s : State) : Result :=
  .next (s.hgRequest h 0x100020 (some (pack [(0, 32, step.toNat), (32, 1, 1)])))

/-- CHECKPOINT_SAVE: CKPT_CTL with OP 1 and GO (16 R404). -/
def execCheckpointSave (h : HgMeta) (slot : Fin 2) (s : State) : Result :=
  .next (s.hgRequest h 0x100038 (some (pack [(0, 2, 1), (2, 1, slot.val), (3, 1, 1)])))

/-- CHECKPOINT_RESTORE: OP 2 (16 R405). -/
def execCheckpointRestore (h : HgMeta) (slot : Fin 2) (s : State) : Result :=
  .next (s.hgRequest h 0x100038 (some (pack [(0, 2, 2), (2, 1, slot.val), (3, 1, 1)])))

/-- NODE_ADOPT with GO (16 R406). -/
def execNodeAdopt (h : HgMeta) (node : BitVec 16) (s : State) : Result :=
  .next (s.hgRequest h 0x100040 (some (pack [(0, 16, node.toNat), (16, 1, 1)])))

/-- HATCH_REQUEST: REQ of HATCH_CTL (17 R420). -/
def execHatchRequest (h : HgMeta) (s : State) : Result := .next (s.hgRequest h 0x110828 (some (pack [(0, 1, 1)])))

/-- LINTEL_WRITE (17 R412). -/
def execLintelWrite (h : HgMeta) (index : BitVec 8) (data : Word) (s : State) : Result :=
  .next (s.hgRequest h (0x110000 + 8 * index.toNat) (some data))

end Sys2Proof.Machine
end

