-- ==== Sys2Proof/Machine/Dispatch.lean ====
section
/-! DEFINITION. Which meaning each command has: one arm for each constructor of Instr, one constructor for each
row of spec/opcode_table.json. -/

namespace Sys2Proof.Machine

/-- The effect of a command on everything but the queue of waiting commands. -/
def exec (i : Instr) (s : State) : Host.Outcome State Fault Refusal :=
  match i with
  | .op t rd ra rb fn u => Sys2Proof.Machine.execOp t rd ra rb fn u s
  | .addi t rd ra imm => Sys2Proof.Machine.execAddi t rd ra imm s
  | .andi t rd ra imm => Sys2Proof.Machine.execAndi t rd ra imm s
  | .ori t rd ra imm => Sys2Proof.Machine.execOri t rd ra imm s
  | .xori t rd ra imm => Sys2Proof.Machine.execXori t rd ra imm s
  | .slti t rd ra imm => Sys2Proof.Machine.execSlti t rd ra imm s
  | .sltiu t rd ra imm => Sys2Proof.Machine.execSltiu t rd ra imm s
  | .shi t rd ra imm => Sys2Proof.Machine.execShi t rd ra imm s
  | .movi t rd ra imm => Sys2Proof.Machine.execMovi t rd ra imm s
  | .ins16 t rd ra imm => Sys2Proof.Machine.execIns16 t rd ra imm s
  | .fp t rd ra rb rc fn u => Sys2Proof.Machine.execFp t rd ra rb rc fn u s
  | .lb t rd ra imm u => Sys2Proof.Machine.execLb t rd ra imm u s
  | .lbu t rd ra imm u => Sys2Proof.Machine.execLbu t rd ra imm u s
  | .lh t rd ra imm u => Sys2Proof.Machine.execLh t rd ra imm u s
  | .lhu t rd ra imm u => Sys2Proof.Machine.execLhu t rd ra imm u s
  | .lw t rd ra imm u => Sys2Proof.Machine.execLw t rd ra imm u s
  | .lwu t rd ra imm u => Sys2Proof.Machine.execLwu t rd ra imm u s
  | .ld t rd ra imm u => Sys2Proof.Machine.execLd t rd ra imm u s
  | .sb t rd ra imm u => Sys2Proof.Machine.execSb t rd ra imm u s
  | .sh t rd ra imm u => Sys2Proof.Machine.execSh t rd ra imm u s
  | .sw t rd ra imm u => Sys2Proof.Machine.execSw t rd ra imm u s
  | .sd t rd ra imm u => Sys2Proof.Machine.execSd t rd ra imm u s
  | .amo t rd ra rb rc fn => Sys2Proof.Machine.execAmo t rd ra rb rc fn s
  | .mld t rd ra imm => Sys2Proof.Machine.execMld t rd ra imm s
  | .mst t rd ra imm => Sys2Proof.Machine.execMst t rd ra imm s
  | .beq t ra rb off => Sys2Proof.Machine.execBeq t ra rb off s
  | .bne t ra rb off => Sys2Proof.Machine.execBne t ra rb off s
  | .blt t ra rb off => Sys2Proof.Machine.execBlt t ra rb off s
  | .bge t ra rb off => Sys2Proof.Machine.execBge t ra rb off s
  | .bltu t ra rb off => Sys2Proof.Machine.execBltu t ra rb off s
  | .bgeu t ra rb off => Sys2Proof.Machine.execBgeu t ra rb off s
  | .jal t off => Sys2Proof.Machine.execJal t off s
  | .jalr t rd ra imm => Sys2Proof.Machine.execJalr t rd ra imm s
  | .csrr t rd ra n => Sys2Proof.Machine.execCsrr t rd ra n s
  | .csrw t rd ra n => Sys2Proof.Machine.execCsrw t rd ra n s
  | .csrs t rd ra n => Sys2Proof.Machine.execCsrs t rd ra n s
  | .csrc t rd ra n => Sys2Proof.Machine.execCsrc t rd ra n s
  | .trap t rd ra n => Sys2Proof.Machine.execTrap t rd ra n s
  | .tend t rd ra n => Sys2Proof.Machine.execTend t rd ra n s
  | .tendComplete t => Sys2Proof.Machine.execTendComplete t s
  | .eret t rd ra n => Sys2Proof.Machine.execEret t rd ra n s
  | .tstart t rd ra n => Sys2Proof.Machine.execTstart t rd ra n s
  | .tstop t rd ra n => Sys2Proof.Machine.execTstop t rd ra n s
  | .fenceI t rd ra n => Sys2Proof.Machine.execFenceI t rd ra n s
  | .mfence t rd ra n => Sys2Proof.Machine.execMfence t rd ra n s
  | .sadv t rd ra n => Sys2Proof.Machine.execSadv t rd ra n s
  | .postRoom t => Sys2Proof.Machine.execPostRoom t s
  | .dfl t rd ra n => Sys2Proof.Machine.execDfl t rd ra n s
  | .lvRd t rd ra n u => Sys2Proof.Machine.execLvRd t rd ra n u s
  | .lvClr t rd ra n u => Sys2Proof.Machine.execLvClr t rd ra n u s
  | .lsig t rd ra k x u => Sys2Proof.Machine.execLsig t rd ra k x u s
  | .lwait t rd ra k x => Sys2Proof.Machine.execLwait t rd ra k x s
  | .latchWaitReady t => Sys2Proof.Machine.execLatchWaitReady t s
  | .ltry t rd ra k x => Sys2Proof.Machine.execLtry t rd ra k x s
  | .lread t rd ra k x => Sys2Proof.Machine.execLread t rd ra k x s
  | .qsig t rd ra k x => Sys2Proof.Machine.execQsig t rd ra k x s
  | .qwait t rd ra k x => Sys2Proof.Machine.execQwait t rd ra k x s
  | .queueWaitDone t => Sys2Proof.Machine.execQueueWaitDone t s
  | .laneRoom t => Sys2Proof.Machine.execLaneRoom t s
  | .latMM t rd ra lat ef => Sys2Proof.Machine.execLatMM t rd ra lat ef s
  | .latMMQ t rd ra lat ef => Sys2Proof.Machine.execLatMMQ t rd ra lat ef s
  | .casw t rd ra lat ef words => Sys2Proof.Machine.execCasw t rd ra lat ef words s
  | .trnRelayout t rd ra lat ef => Sys2Proof.Machine.execTrnRelayout t rd ra lat ef s
  | .trnTranspose t rd ra lat ef => Sys2Proof.Machine.execTrnTranspose t rd ra lat ef s
  | .sillSpill t rd ra lat ef => Sys2Proof.Machine.execSillSpill t rd ra lat ef s
  | .sillDrain t rd ra lat ef => Sys2Proof.Machine.execSillDrain t rd ra lat ef s
  | .xferCopy t rd ra lat ef => Sys2Proof.Machine.execXferCopy t rd ra lat ef s
  | .updSsq t rd ra lat ef => Sys2Proof.Machine.execUpdSsq t rd ra lat ef s
  | .dwPut t rd ra lat ef => Sys2Proof.Machine.execDwPut t rd ra lat ef s
  | .dwPutFetch t rd ra lat ef => Sys2Proof.Machine.execDwPutFetch t rd ra lat ef s
  | .dwRed t rd ra lat ef => Sys2Proof.Machine.execDwRed t rd ra lat ef s
  | .updApply t rd ra lat ef => Sys2Proof.Machine.execUpdApply t rd ra lat ef s
  | .updAdv t rd ra lat ef => Sys2Proof.Machine.execUpdAdv t rd ra lat ef s
  | .updNorm t rd ra lat ef => Sys2Proof.Machine.execUpdNorm t rd ra lat ef s
  | .updRoot t rd ra lat ef => Sys2Proof.Machine.execUpdRoot t rd ra lat ef s
  | .updRearm t rd ra lat ef => Sys2Proof.Machine.execUpdRearm t rd ra lat ef s
  | .handlerEntry => Sys2Proof.Machine.execHandlerEntry s
  | .weaveStart q u => Sys2Proof.Machine.execWeaveStart q u s
  | .openWovenStart q u => Sys2Proof.Machine.execOpenWovenStart q u s
  | .vectorSlot p rank ready u => Sys2Proof.Machine.execVectorSlot p rank ready u s
  | .blockCompletion p rank m n flip u => Sys2Proof.Machine.execBlockCompletion p rank m n flip u s
  | .latticeDrain p rank u => Sys2Proof.Machine.execLatticeDrain p rank u s
  | .casementOperationStart u => Sys2Proof.Machine.execCasementOperationStart u s
  | .casementPortAccess u => Sys2Proof.Machine.execCasementPortAccess u s
  | .casementUnitComplete => Sys2Proof.Machine.execCasementUnitComplete s
  | .idleReplay u => Sys2Proof.Machine.execIdleReplay u s
  | .transomComplete u => Sys2Proof.Machine.execTransomComplete u s
  | .sillReadOut u => Sys2Proof.Machine.execSillReadOut u s
  | .completion q t => Sys2Proof.Machine.execCompletion q t s
  | .rootIterationCheck t => Sys2Proof.Machine.execRootIterationCheck t s
  | .cutPoint q t => Sys2Proof.Machine.execCutPoint q t s
  | .remoteSignalApply link src tag => Sys2Proof.Machine.execRemoteSignalApply link src tag s
  | .jambRequestIssue tag u => Sys2Proof.Machine.execJambRequestIssue tag u s
  | .jbRResponse tag data code u => Sys2Proof.Machine.execJbRResponse tag data code u s
  | .jbBResponse tag code => Sys2Proof.Machine.execJbBResponse tag code s
  | .tagTimeout tag => Sys2Proof.Machine.execTagTimeout tag s
  | .packetTransmit link tag => Sys2Proof.Machine.execPacketTransmit link tag s
  | .rspAck link w => Sys2Proof.Machine.execRspAck link w s
  | .rspData link w => Sys2Proof.Machine.execRspData link w s
  | .sigTerminal link p => Sys2Proof.Machine.execSigTerminal link p s
  | .redPartial link w => Sys2Proof.Machine.execRedPartial link w s
  | .redFinal link w => Sys2Proof.Machine.execRedFinal link w s
  | .wrData link p => Sys2Proof.Machine.execWrData link p s
  | .rdRead link w => Sys2Proof.Machine.execRdRead link w s
  | .mgtNull link w => Sys2Proof.Machine.execMgtNull link w s
  | .hello link w => Sys2Proof.Machine.execHello link w s
  | .repoint link x v epoch w => Sys2Proof.Machine.execRepoint link x v epoch w s
  | .mgtReset link w => Sys2Proof.Machine.execMgtReset link w s
  | .ackTimeout link c => Sys2Proof.Machine.execAckTimeout link c s
  | .creditTimeout link c => Sys2Proof.Machine.execCreditTimeout link c s
  | .linkResetEnd link => Sys2Proof.Machine.execLinkResetEnd link s
  | .linkRdy link level => Sys2Proof.Machine.execLinkRdy link level s
  | .helloSend link => Sys2Proof.Machine.execHelloSend link s
  | .discoveryTimeout link => Sys2Proof.Machine.execDiscoveryTimeout link s
  | .idleLinkDisable link => Sys2Proof.Machine.execIdleLinkDisable link s
  | .watchdogFire => Sys2Proof.Machine.execWatchdogFire s
  | .hingeRegisterWrite h off data => Sys2Proof.Machine.execHingeRegisterWrite h off data s
  | .dcacheFlushHandle h handle ctx => Sys2Proof.Machine.execDcacheFlushHandle h handle ctx s
  | .dcacheFlushContext h ctx => Sys2Proof.Machine.execDcacheFlushContext h ctx s
  | .lvAccRead h index ctx => Sys2Proof.Machine.execLvAccRead h index ctx s
  | .lvAccClear h index ctx => Sys2Proof.Machine.execLvAccClear h index ctx s
  | .sashDoorbell h code => Sys2Proof.Machine.execSashDoorbell h code s
  | .iflush h => Sys2Proof.Machine.execIflush h s
  | .sreset h => Sys2Proof.Machine.execSreset h s
  | .stop h t => Sys2Proof.Machine.execStop h t s
  | .strmAbortEntry h t q iseq => Sys2Proof.Machine.execStrmAbortEntry h t q iseq s
  | .strmAbortStream h t q => Sys2Proof.Machine.execStrmAbortStream h t q s
  | .latchHsig h k bank => Sys2Proof.Machine.execLatchHsig h k bank s
  | .frameStage h len => Sys2Proof.Machine.execFrameStage h len s
  | .frameStagingResult => Sys2Proof.Machine.execFrameStagingResult s
  | .frameCommit h wait slot => Sys2Proof.Machine.execFrameCommit h wait slot s
  | .commitWaitResolve => Sys2Proof.Machine.execCommitWaitResolve s
  | .effectPoint => Sys2Proof.Machine.execEffectPoint s
  | .frameDiscard h slot => Sys2Proof.Machine.execFrameDiscard h slot s
  | .frameForceEnd h slot => Sys2Proof.Machine.execFrameForceEnd h slot s
  | .hostLinkReset h link => Sys2Proof.Machine.execHostLinkReset h link s
  | .dwRepoint h x v epoch => Sys2Proof.Machine.execDwRepoint h x v epoch s
  | .clkSelect h src => Sys2Proof.Machine.execClkSelect h src s
  | .pwrRequest h pt => Sys2Proof.Machine.execPwrRequest h pt s
  | .shutterWrite h sill transom near far => Sys2Proof.Machine.execShutterWrite h sill transom near far s
  | .queueRelease h mask => Sys2Proof.Machine.execQueueRelease h mask s
  | .replayArm h step => Sys2Proof.Machine.execReplayArm h step s
  | .checkpointSave h slot => Sys2Proof.Machine.execCheckpointSave h slot s
  | .checkpointRestore h slot => Sys2Proof.Machine.execCheckpointRestore h slot s
  | .nodeAdopt h node => Sys2Proof.Machine.execNodeAdopt h node s
  | .hatchRequest h => Sys2Proof.Machine.execHatchRequest h s
  | .hatchProcedureComplete => Sys2Proof.Machine.execHatchProcedureComplete s
  | .hatchTimeout => Sys2Proof.Machine.execHatchTimeout s
  | .lintelWrite h index data => Sys2Proof.Machine.execLintelWrite h index data s
  | .lintelResponse code rdata => Sys2Proof.Machine.execLintelResponse code rdata s
  | .lintelTimeout => Sys2Proof.Machine.execLintelTimeout s
  | .lintelReadTimeout => Sys2Proof.Machine.execLintelReadTimeout s
  | .deadboltAssert => Sys2Proof.Machine.execDeadboltAssert s
  | .deadboltRelease => Sys2Proof.Machine.execDeadboltRelease s
  | .aonClkLost => Sys2Proof.Machine.execAonClkLost s
  | .aonClkRestored => Sys2Proof.Machine.execAonClkRestored s
  | .frequencyCheck ref r0 r1 refRdy => Sys2Proof.Machine.execFrequencyCheck ref r0 r1 refRdy s
  | .sourceReturn => Sys2Proof.Machine.execSourceReturn s
  | .refRdyFall => Sys2Proof.Machine.execRefRdyFall s
  | .sourceSwitchDone => Sys2Proof.Machine.execSourceSwitchDone s
  | .troReady => Sys2Proof.Machine.execTroReady s
  | .pllLock loopA => Sys2Proof.Machine.execPllLock loopA s
  | .vack code => Sys2Proof.Machine.execVack code s
  | .vackTimeout => Sys2Proof.Machine.execVackTimeout s
  | .aclkSlewDone => Sys2Proof.Machine.execAclkSlewDone s
  | .pswGnt level => Sys2Proof.Machine.execPswGnt level s
  | .domainSettled d => Sys2Proof.Machine.execDomainSettled d s
  | .domainSettleTimeout d => Sys2Proof.Machine.execDomainSettleTimeout d s
  | .idleGate unit => Sys2Proof.Machine.execIdleGate unit s
  | .latticeBandOff p => Sys2Proof.Machine.execLatticeBandOff p s
  | .park => Sys2Proof.Machine.execPark s
  | .wake => Sys2Proof.Machine.execWake s
  | .aonRstNAssert => Sys2Proof.Machine.execAonRstNAssert s
  | .aonRstNRelease => Sys2Proof.Machine.execAonRstNRelease s
  | .coreRstNAssert => Sys2Proof.Machine.execCoreRstNAssert s
  | .coreRstNRelease => Sys2Proof.Machine.execCoreRstNRelease s
  | .startupInitDone => Sys2Proof.Machine.execStartupInitDone s
  | .scrub unit u => Sys2Proof.Machine.execScrub unit u s
  | .egressHoldRelease => Sys2Proof.Machine.execEgressHoldRelease s
  | .illegalInstruction t word => Sys2Proof.Machine.execIllegalInstruction t word s
  | .hingeRegisterRead h off => Sys2Proof.Machine.execHingeRegisterRead h off s
  | .hatchProcedureEnd => Sys2Proof.Machine.execHatchProcedureEnd s
  | .ltPfailN level => Sys2Proof.Machine.execLtPfailN level s

end Sys2Proof.Machine
end

