-- ==== Sys2Proof/Machine/Tick.lean ====
section
/-! DEFINITION. The passing of time: one cycle of ACLK, and every so many of them one tick of the always-on clock
(spec/00 R17; spec/10 R239, R242; spec/11 R260). Nothing else happens here: what a reached time allows is a command. -/

namespace Sys2Proof.Machine

/-! ### One tick of the always-on clock -/

/-- The wait timer of a thread in LATCH or QUEUE (11 R260). -/
def State.timerTick (s : State) (t : Thread) : State :=
  if s.timed t then s.modTh t fun x => { x with timer := x.timer + 1 } else s

/-- A table of times: those of the keys 0 to n - 1 that `p` holds of go on, the others start again. -/
def ticksWhile (m : SMap Nat) (n : Nat) (p : Nat → Bool) : SMap Nat :=
  (List.range n).foldl (fun m i => SMap.put m 0 i (if p i then SMap.look m 0 i + 1 else 0)) m

/-- The times of a link: in its state, since an acknowledgement, without credit, since the last HELLO (13 R300, R308, R309,
R320). -/
def State.linkTick (s : State) (l : Nat) : State :=
  let k := s.link l
  s.modLink l fun x => { x with
    ticks := x.ticks + 1
    ackTicks := ticksWhile x.ackTicks 6 fun c => (k.oldest c).isSome
    credTicks := ticksWhile x.credTicks 6 fun c => k.starved c
    helloTicks := x.helloTicks + 1 }

/-- How long a partition's queue has been empty (15 R367). -/
def State.idleTick (s : State) (p : Nat) : State :=
  let used := s.eng.lanes.any fun e => decide (e.queue = p)
  s.modEngine p fun g => { g with idleTicks := if used then 0 else g.idleTicks + 1 }

/-- The times of the clocks and of power (15 R346, R350, R358, R364, R368). -/
def State.powerTick (s : State) : State :=
  let c := s.clk
  let idle := s.parkIdle
  { s with
    clk := { c with
      aonOk := c.aonOk || !c.aonLost
      readyTicks := if c.fell && s.srcReady c.sel then c.readyTicks + 1 else 0 }
    pwr := { s.pwr with
      vackTicks := s.pwr.vackTicks + 1, settleTicks := s.pwr.settleTicks + 1
      parkTicks := if idle then s.pwr.parkTicks + 1 else 0 } }

/-- A tick of the Lintel port: a request that it shows is taken when LT_REQ_READY is 1 (17 R417). -/
def State.portTick (s : State) : State :=
  if s.ltPort.valid then
    let (n, s) := s.draw
    if Config.freeReady n then { s with lt := { s.lt with taken := true, ticks := 0 } } else s
  else { s with lt := { s.lt with ticks := s.lt.ticks + 1 } }

/-- The times of the Lintel port, the Deadbolt and Hatch (17 R414, R418, R420, R425). -/
def State.lintelTick (s : State) : State :=
  let s := s.portTick
  { s with lt := { s.lt with
    hatchTicks := s.lt.hatchTicks + 1, lowTicks := min 16 (s.lt.lowTicks + 1), seen := s.lt.seen || s.lt.asserted } }

/-- One tick of the always-on clock. -/
def State.aonTick (s : State) : State :=
  let s := { s with time := { s.time with aonTime := s.time.aonTime + 1, bootTicks := s.time.bootTicks + 1 } }
  let s := allThreads.foldl State.timerTick s
  let s := { s with jamb := { s.jamb with tags := s.jamb.tags.map fun g => { g with ticks := g.ticks + 1 } } }
  let s := (List.range 6).foldl State.linkTick s
  let s := (List.range 8).foldl State.idleTick s
  s.powerTick.lintelTick

/-! ### One cycle of ACLK -/

/-- The stream of a root computation that goes on at an engine, between two of its steps (08 R189). -/
def State.rootStream (s : State) (q : Nat) : Option Thread :=
  s.eng.roots.findSome? fun r => match s.entry r.uid, s.entry r.partUid with
    | some e, some p => if p.phase = .running && (decide (q = qCas) || decide (q = p.queue)) then some e.stream else none
    | _, _ => none

/-- The stream whose entry runs at an engine, and whether a lent start began it (R242). -/
def State.streamOn (s : State) (q : Nat) : Option (Thread × Bool) :=
  let g := s.engine q
  match g.running, s.rootStream q with
  | some _, _ => some (g.last, g.lastLent)
  | none, some t => some (t, g.lastLent && decide (g.last = t))
  | none, none => none

/-- The class of R242 in which the cycle of an engine with a record counts. -/
def State.slotCycle (s : State) (r : MulRec) : State :=
  let own := s.ownerNow r
  match s.streamOn r.engine with
  | none => s.modEngine r.engine fun g => { g with idle := g.idle + 1 }
  | some (t, lent) => s.modEngine r.engine fun g =>
    if Thread.num t = own then { g with used := g.used + 1 }
    else if lent then { g with lentCount := g.lentCount + 1 }
    else { g with overrun := g.overrun + 1 }

/-- The weave counter; the cycle after it reaches a multiple of 256 may be an effect point (10 R239, 12 R281). -/
def State.weaveTick (s : State) : State :=
  let w := s.eng.weave + 1
  { s with
    eng := { s.eng with weave := w }
    frame := { s.frame with effectDue := s.frame.effect.isSome && decide (w.toNat % 256 = 0) } }

/-- The age of ready requests in thousandths of a DCLK cycle (14 R330). -/
def State.ageTick (s : State) : State :=
  let d := 1250000 / aclkMhz s.pwr.op
  { s with jamb := { s.jamb with reqs := s.jamb.reqs.map fun r =>
    if r.held then r else { r with age := r.age + d } } }

/-- A cycle of the skipped updates that hold their engine (08 R184). -/
def State.skipTick (s : State) : State :=
  let ended := s.eng.skipHold.filter fun h => decide (h.2 ≤ 1)
  let held := (s.eng.skipHold.filter fun h => decide (1 < h.2)).map fun h => (h.1, h.2 - 1)
  (ended.map fun h => h.1).foldl State.entryDone { s with eng := { s.eng with skipHold := held } }

/-- A cycle in which the arithmetic unit of the Casement holds a unit and waits for a Pane counts in WAITS (06 R147, R151).
Of a loop, whose port unit runs ahead, it is left free whether a cycle is one (log entry 13). -/
def State.casWaitTick (s : State) : State :=
  let wait (s : State) : State := s.modEr fun r => { r with casWaits := r.casWaits + 1 }
  match s.casNext with
  | none => s
  | some (r, x, _) =>
    if x.u.domain.isNone then if s.casWaiting r x then wait s else s
    else
      let (n, s) := s.draw
      if Config.freeStall n then wait s else s

/-- The counters of a cycle move on, and what the cycle noted is over (06 R149, 16 R382, R385). -/
def State.cycleEnd (s : State) : State :=
  let s := { s with eng := { s.eng with casIdle := s.eng.casIdle + 1 } }
  { s with time := { s.time with
    cycle := s.time.cycle + 1, sinceCommit := s.time.sinceCommit + 1, now := CycleNote.init } }

/-- Units to which work has come open their branch of ACLK (15 R366); an engine does so when it starts an entry. -/
def State.ungate (s : State) : State :=
  let p := s.pwr
  let louvre (u : GateUnit) (b : BitVec 2) : BitVec 2 := if s.unitIdle u then 3 else ~~~b
  { s with pwr := { p with
    casGated := p.casGated && s.unitIdle .casement, sashGated := p.sashGated && s.unitIdle .sash
    louvreGated := p.louvreGated &&& louvre .drainLouvre 1 &&& louvre .egressLouvre 2 } }

/-- One cycle of ACLK. A replay goes on in it (16 R401). -/
def State.aclkCycle (s : State) : State :=
  let s := s.casWaitTick.cycleEnd
  let s := s.frame.mullion.foldl State.slotCycle s
  s.weaveTick.ageTick.holdTick.skipTick.ungate.replayGo

/-- The passing of time on an empty queue: a cycle of ACLK, with a tick of the always-on clock after every
microsecond of them; while ACLK is stopped, a tick. Nothing happens while AON_RST_N is low. -/
def State.tick (s : State) : State :=
  if s.boot.aonRst then s
  else if !s.clk.aclkOn then { s with time := { s.time with now := CycleNote.init } }.aonTick
  else
    let s := s.aclkCycle
    if s.time.sub + 1 < aclkMhz s.pwr.op then { s with time := { s.time with sub := s.time.sub + 1 } }
    else { s with time := { s.time with sub := 0 } }.aonTick

end Sys2Proof.Machine
end

