-- ==== Sys2Proof/Safety.lean ====
section
/-! DEFINITION. What statements about runs are made of: the frames that say what a command leaves as it is, and the
invariants of the block. -/

namespace Sys2Proof.Machine

/-- The state with thread `t` as the one that issued last (09 R194). -/
def State.issuedBy (s : State) (t : Thread) : State := { s with sash := { s.sash with lastIssued := t } }

/-- The command answers a next state, of which `P` holds. -/
def Completes (c : Instr) (s : State) (P : State → Prop) : Prop := ∃ s', exec c s = .next s' ∧ P s'

/-- No disturbance waits for a check (16 R377, log entry 52). -/
def State.calm (s : State) : Prop := s.int.strikes = []

/-! ### Frames of Sash instructions (spec/09) -/

/-- Nothing but the requests that wait for the port has changed in Jamb, and these have only grown by fetches of
instruction lines (09 R202). -/
structure OnlyFetches (j j' : Jamb) : Prop where
  rest : { j' with reqs := j.reqs } = j
  more : ∃ rs, j'.reqs = j.reqs ++ rs ∧ ∀ r ∈ rs, r.client = .ifetch

/-- What an instruction of thread `t` that acts only on its thread leaves as it is: every other thread and every other
part of the block. Fetching the thread's next instruction may touch the instruction cache and send a read. -/
structure ThreadFrame (t : Thread) (s s' : State) : Prop where
  threads : ∀ u, u ≠ t → s'.th u = s.th u
  sash : { s'.sash with icache := s.sash.icache, lastIssued := s.sash.lastIssued } = s.sash
  jamb : OnlyFetches s.jamb s'.jamb
  rest : { s' with f := s.f, b := s.b, u := s.u, s := s.s, sash := s.sash, jamb := s.jamb } = s

/-- The thread itself keeps everything but its registers, its pc and whether it runs or waits for the fetch of a line. -/
structure RegFrame (t : Thread) (s s' : State) : Prop extends ThreadFrame t s s' where
  own : { s'.th t with
      regs := (s.th t).regs, pc := (s.th t).pc, state := (s.th t).state, wait := (s.th t).wait,
      fetchLine := (s.th t).fetchLine } = s.th t
  runs : (s'.th t).state = .run ∨ ((s'.th t).state = .memory ∧ (s'.th t).wait = .fetch)

/-- Only register rd of thread `t` has changed, to `v`; s0 discards the write (09 R193). The pc is `pc`. -/
structure WritesRd (t : Thread) (rd : Reg) (v : Word) (pc : BitVec 48) (s s' : State) : Prop
    extends RegFrame t s s' where
  regs : ∀ r, s'.reg t r = if r = rd ∧ rd ≠ 0 then v else s.reg t r
  pcNow : (s'.th t).pc = pc

/-- A 4-byte instruction that writes no register: the thread goes on behind it. -/
def GoesOn (t : Thread) (s s' : State) : Prop := WritesRd t 0 0 ((s.th t).pc + 4) s s'

/-- The thread waits at its instruction in LATCH or QUEUE, its wait timer at 0 (11 R260), and nothing else happens. -/
def WaitsIn (t : Thread) (st : TState) (w : Wait) (s s' : State) : Prop :=
  s' = (s.issuedBy t).setTh t { s.th t with state := st, wait := w, timer := 0 }

/-- The thread leaves its wait behind its 4-byte instruction: it runs or fetches, or stops where it was asked to
(09 R213). -/
structure Resumes (t : Thread) (s s' : State) : Prop where
  pcNow : (s'.th t).pc = (s.th t).pc + 4
  state : if (s.th t).stopAsked then (s'.th t).state = .stopped
    else (s'.th t).state = .run ∨ ((s'.th t).state = .memory ∧ (s'.th t).wait = .fetch)
  threads : ∀ u, u ≠ t → s'.th u = s.th u

/-- An instruction that stores the bytes `bs` at address `a` of the data memory of Sash (09 R198, R209): every other
byte of it and every register is as before. -/
structure StoresTo (t : Thread) (a : Nat) (bs : List Byte) (s s' : State) : Prop where
  frame : RegFrame t { s with sash := { s.sash with dmem := s'.sash.dmem } } s'
  regs : ∀ r, s'.reg t r = s.reg t r
  pcNow : (s'.th t).pc = (s.th t).pc + 4
  stored : ∀ i, i < bs.length → SMap.look s'.sash.dmem 0 (a + i) = bs.getD i 0
  others : ∀ b, b < a ∨ a + bs.length ≤ b → SMap.look s'.sash.dmem 0 b = SMap.look s.sash.dmem 0 b

/-- Where a record enters the exception queue (09 R226): behind `a` and before `b`, which are records of this cycle that
come after it in the order of R226. -/
structure EntersAt (s : State) (x : ExcRec) (a b : List ExcRec) : Prop where
  split : s.sash.excq = a ++ b
  cycle : b.length ≤ s.time.now.recs
  order : ∀ y ∈ b.head?, x.rank < y.rank

/-- A record of which `P` holds has entered the exception queue at its place. -/
def Enters (P : ExcRec → Prop) (s s' : State) : Prop :=
  ∃ a x b, EntersAt s x a b ∧ s'.sash.excq = a ++ x :: b ∧ P x

/-- The exception queue holds one record more of which `P` holds; others may have entered with it. -/
def Gains (P : ExcRec → Prop) (s s' : State) : Prop := ∃ x, P x ∧ s.sash.excq.count x < s'.sash.excq.count x

/-- Only the record `i` has been offered to the exception queue (09 R226). With room it enters at its place and IRQ_STAT.EXC is
set. A full queue counts one in LOST, and drops the last of them in the order of R226. -/
structure Records (i : ExcInfo) (s s' : State) : Prop where
  queue : ∃ a b, EntersAt s (excRecord s.time.cycle i) a b ∧
    (s.sash.excq.length < 16 → s'.sash = { s.sash with excq := a ++ excRecord s.time.cycle i :: b } ∧
      s'.hinge = { s.hinge with irqStat := s.hinge.irqStat ||| 0x20 }) ∧
    (s.sash.excq.length = 16 →
      s'.sash = { s.sash with excq := (a ++ excRecord s.time.cycle i :: b).take 16, lost := satInc 16 s.sash.lost } ∧
      (b = [] → s'.hinge = s.hinge))
  time : { s'.time with now := { s'.time.now with recs := s.time.now.recs } } = s.time
  rest : { s' with sash := s.sash, hinge := s.hinge, time := s.time } = s

/-- Thread `t` stops with the record `i` and its pc at the record's, and nothing else happens (09 R224). -/
def StopsWith (t : Thread) (i : ExcInfo) (s s' : State) : Prop :=
  Records i ((s.issuedBy t).modTh t fun x =>
    { x with state := .stopped, wait := .none, stopAsked := false, pc := i.pc }) s'

/-- The record of an exception of an instruction of thread `t` (09 R223). -/
def excOf (s : State) (t : Thread) (cause : Nat) (pc : BitVec 48) (info : Word) : ExcInfo :=
  { cause := cause, thread := Thread.num t, ctx := (s.th t).ctx, status := 0, queue := 0, bel := false, pc := pc, info := info }

/-- An exception of thread S in handler mode is a double fault and halts it (09 R227). -/
def doubleFault (s : State) (t : Thread) : Bool := decide (t = .S) && s.sash.handler

/-! ### The host port (spec/14) -/

/-- With no other response waiting, a request is answered with a code and a value: the response is taken, or held while HG_RSP_READY
is 0 (14 R335). -/
def Answers (h : HgMeta) (code : BitVec 2) (v : Word) (s s' : State) : Prop :=
  let r : HgRsp := { id := h.id, rdata := v, code := code, done := true }
  if h.ready then s'.hinge.answered = [r] ∧ s'.hinge.waiting = []
  else s'.hinge.answered = s.hinge.answered ∧ s'.hinge.waiting = [r]

/-! ### Power (spec/15) -/

/-- The conditions of 15 R368, in its order: PARK is 1 in a READY core that runs; every thread is IDLE or in LATCH, and S is not in
handler mode; no lane holds an entry; no post is open; no tag is in use; no FRAME_CTL operation is in progress; no far link is UP. -/
structure ParkConditions (s : State) : Prop where
  park : s.frame.plan.park = true ∧ s.boot.stage = 8 ∧ s.pwr.parked = false
  threads : ∀ t, (s.th t).state = .idle ∨ (s.th t).state = .latch
  handler : s.sash.handler = false
  lanes : s.eng.lanes = []
  posts : ∀ t, (s.th t).posts = []
  tags : s.jamb.tags = [] ∧ s.jamb.reqs = [] ∧ s.door.tags = []
  frame : s.frame.busy = false ∧ s.frame.effect = none
  far : (s.link 4).state ≠ .up ∧ (s.link 5).state ≠ .up
  delay : s.frame.plan.parkDelay ≤ s.pwr.parkTicks
  still : s.pwr.moving = .none

/-- The state in which an upward move to point `n` has begun: its code is requested, and the slew waits for VACK to show it (15 R363). -/
def rising (n : Nat) (s : State) : State :=
  { s with pwr := { s.pwr with
    moveTo := n, vreq := BitVec.ofNat 3 n, vackTicks := 0
    moving := if s.pwr.vack = BitVec.ofNat 3 n then .slew else .volt
    confirmed := if s.pwr.vack = BitVec.ofNat 3 n then BitVec.ofNat 3 n else s.pwr.confirmed } }

/-- A running core with no move under way begins one when its target lies elsewhere: upwards the voltage leads, downwards the frequency
(15 R363, R365). -/
def TowardTarget (s s' : State) : Prop :=
  (s.pwr.op < s.pwr.target → s' = rising s.pwr.target s) ∧
  (s.pwr.target < s.pwr.op → s' = { s with pwr := { s.pwr with moving := .slew, moveTo := s.pwr.target } }) ∧
  (s.pwr.target = s.pwr.op → s' = s)

/-! ### Links (spec/13) -/

/-- The packet commands that a link brings, each with the packet as its row reads it (13 R292). -/
def packetCommands (l : Fin 6) (x : Nat) (w : Wire) : List (Instr × Packet) :=
  let p := wirePacket w
  [(.rspAck l w, asRow p clsRsp 0), (.rspData l w, asRow p clsRsp 1), (.sigTerminal l ⟨x, w⟩, asRow p clsSig 0),
   (.redPartial l w, asRow p clsRed 0), (.redFinal l w, asRow p clsRed 1), (.wrData l ⟨x, w⟩, asRow p clsWr 0),
   (.rdRead l w, asRow p clsRd 0), (.mgtReset l w, asRow p clsMgt 3)]

/-- A whole packet without acknowledgement or NAK arrives on an UP link of a core whose Doorway is out of reset (13 R290, R293,
R294). -/
structure Arrives (l : Nat) (w : Wire) (s : State) : Prop where
  out : s.door.held = false
  up : (s.link l).state = .up
  crc : wireCrcOk w = true
  resv : wireResv w = false
  ack : (wireTrailer w).ack = none
  nak : (wireTrailer w).nak = none

/-- Link `l` has gone through a forced reset with a cause (13 R320, R321, R324): it is in RESET with nothing of its
past but its counters, its tags, its received packets and its pending signals are gone, and DW_FAULT holds it. -/
structure WasReset (l : Nat) (cause : Nat) (s s' : State) : Prop where
  state : (s'.link l).state = .reset ∧ (s'.link l).cause = BitVec.ofNat 4 cause ∧ (s'.link l).resetFlag = true
  empty : (s'.link l).ready = [] ∧ (s'.link l).sent = [] ∧ (s'.link l).credit = [] ∧ (s'.link l).txSeq = [] ∧
    (s'.link l).rxSeq = []
  tags : ∀ g ∈ s'.door.tags, g.link ≠ l
  sinks : ∀ x ∈ s'.door.sinks, x.link ≠ l
  signals : ∀ q ∈ s'.latch.pending, q.link ≠ l
  fault : s'.door.faultPend = true ∧ s'.door.faultLink = BitVec.ofNat 3 l ∧ s'.door.resets = satInc 16 s.door.resets

/-! ### Jobs -/

/-- Is the job a transfer: one whose cut point is its next request (10 R247)? -/
def Job.transfers (j : Job) : Bool :=
  match j with
  | .lattice _ _ _ _ _ _ => false
  | .casement _ => false
  | .transom _ _ _ => false
  | .root _ => false
  | .rootPart _ => false
  | _ => true

/-! ### The storage of the block -/

/-- The commands that may change a byte of the scratchpad, the Sill or the data memory. Every register write of the host
stands among them, since one address range serves them all; 09 R206 and R212, 07 R174, 14 R325 and 12 R270 to R274 are
rules of those that do. -/
def mayStore : Instr → Bool
  | .sb _ _ _ _ _ | .sh _ _ _ _ _ | .sw _ _ _ _ _ | .sd _ _ _ _ _ | .amo _ _ _ _ _ _ | .sadv _ _ _ _ |
    .weaveStart _ _ | .openWovenStart _ _ | .latticeDrain _ _ _ | .casementPortAccess _ | .transomComplete _ |
    .sillReadOut _ | .completion _ _ | .rootIterationCheck _ | .cutPoint _ _ | .jambRequestIssue _ _ |
    .jbRResponse _ _ _ _ | .jbBResponse _ _ | .tagTimeout _ | .rspAck _ _ | .rspData _ _ | .sigTerminal _ _ |
    .redPartial _ _ | .redFinal _ _ | .wrData _ _ | .rdRead _ _ | .mgtNull _ _ | .hello _ _ | .repoint _ _ _ _ _ |
    .mgtReset _ _ | .ackTimeout _ _ | .creditTimeout _ _ | .discoveryTimeout _ | .hingeRegisterWrite _ _ _ |
    .dcacheFlushHandle _ _ _ | .dcacheFlushContext _ _ | .lvAccRead _ _ _ | .lvAccClear _ _ _ | .sashDoorbell _ _ |
    .iflush _ | .sreset _ | .stop _ _ | .strmAbortEntry _ _ _ _ | .strmAbortStream _ _ _ | .latchHsig _ _ _ |
    .frameStage _ _ | .frameCommit _ _ _ | .effectPoint | .frameDiscard _ _ | .frameForceEnd _ _ |
    .hostLinkReset _ _ | .dwRepoint _ _ _ _ | .clkSelect _ _ | .pwrRequest _ _ | .shutterWrite _ _ _ _ _ |
    .queueRelease _ _ | .replayArm _ _ | .checkpointSave _ _ | .checkpointRestore _ _ | .nodeAdopt _ _ |
    .hatchRequest _ | .lintelWrite _ _ _ | .lintelResponse _ _ | .deadboltRelease | .aonRstNAssert |
    .coreRstNAssert | .hingeRegisterRead _ _ | .hatchProcedureEnd | .pllLock _ | .domainSettled _ => true
  | _ => false

/-- Of the block's byte stores only bytes of the elements of a tensor that `p` holds of, with the scale bytes of an MX
tensor, have changed, in the space of the tensor. -/
structure OnlyTensor (d : Desc) (p : Coord → Bool) (s s' : State) : Prop where
  spad : ∀ a, d.space ≠ 1 ∨ a ∉ tensorAddrs d p → SMap.look s'.eng.spad 0 a = SMap.look s.eng.spad 0 a
  sill : ∀ a, d.space ≠ 2 ∨ a ∉ tensorAddrs d p → SMap.look s'.eng.sill 0 a = SMap.look s.eng.sill 0 a
  dmem : s'.sash.dmem = s.sash.dmem

/-- The byte stores have their canonical form, so that equal contents are equal data. -/
structure State.storageWf (s : State) : Prop where
  dmem : Memory.wf s.sash.dmem
  spad : Memory.wf s.eng.spad
  sill : Memory.wf s.eng.sill

/-- The exception queue holds at most sixteen records (09 R226). -/
def State.excBound (s : State) : Prop := s.sash.excq.length ≤ 16

/-- The watchdog's period is a period of 11 R259. -/
def State.periodOk (s : State) : Prop := wdOk s.wd.period.toNat = true

/-- No two outstanding requests of the memory port have one tag (14 R325, R329). -/
def State.tagsOnce (s : State) : Prop := (s.jamb.tags.map fun g => g.tag).Nodup

/-- At most one plane is LIVE (12 R263). -/
def State.oneLive (s : State) : Prop := s.frame.plane0.state = .live → s.frame.plane1.state ≠ .live

end Sys2Proof.Machine
end

