-- ==== Sys2Proof/Certificates/Slice0/Obligations.lean ====
section
/-! DEFINITION. The statements for the provers. Each docstring names the rules of spec/ that it formalises. -/

open Sys2Proof Sys2Proof.Machine

/-! ### The queue and the machine as a whole -/

/-- A step takes the command at the front of the queue and runs it with the queue's rest; with an empty queue time
passes by one ACLK cycle or one tick of AON_CLK (the model's choice, log entry 1). -/
def Obligations.StepRunsFrontCommand : Prop :=
  (∀ (s : State) (c : Instr) (rest : List Instr), s.pending = c :: rest →
    step s = exec c { s with pending := rest }) ∧
  ∀ s : State, s.pending = [] → step s = .next s.tick

/-- The invariants of the block hold in the state after reset: the byte stores have their canonical form, the exception
queue is within its depth, the watchdog's period is one of R259, no tag is used twice, at most one plane is LIVE. -/
def Obligations.ResetInvariants : Prop :=
  State.reset.storageWf ∧ State.reset.excBound ∧ State.reset.periodOk ∧ State.reset.tagsOnce ∧ State.reset.oneLive

/-- Every step, of a command or of time, keeps the canonical form of the data memory of Sash, of the scratchpad and
of the Sill. -/
def Obligations.StepKeepsStorage : Prop :=
  ∀ s s' : State, s.storageWf → step s = .next s' → s'.storageWf

/-- Every step keeps the exception queue within sixteen records (R226), the watchdog's period between 1,000 and 60,000,000 ticks
(R259), the tags of the outstanding requests of the memory port different from each other (R329), and at most one plane LIVE (R263). -/
def Obligations.StepKeepsInvariants : Prop :=
  ∀ s s' : State, step s = .next s' →
    (s.excBound → s'.excBound) ∧ (s.periodOk → s'.periodOk) ∧ (s.tagsOnce → s'.tagsOnce) ∧ (s.oneLive → s'.oneLive)

/-- Every command answers a next state and leaves the queue of those that wait as it is (the model's own queue, log entry 1); one that
`mayStore` does not name changes no byte of the scratchpad, the Sill and the data memory of Sash. -/
def Obligations.CommandFrames : Prop :=
  ∀ (c : Instr) (s : State), Completes c s fun s' => s'.pending = s.pending ∧
    (mayStore c = false → s'.eng.spad = s.eng.spad ∧ s'.eng.sill = s.eng.sill ∧ s'.sash.dmem = s.sash.dmem)

/-- What the spec states for reset: the threads IDLE with both planes EMPTY, every link OFF and every latch 0, the
data memory of Sash, the scratchpad, the Sill and the exception queue empty, the switched domains off, the shutters of the
Lattices and of the spare banks closed and those of the Sill, the Transom and the links open, and the reset values of
JAMB_CFG, WD_CFG and IRQ_STAT. -/
def Obligations.ResetState : Prop :=
  (∀ t, (State.reset.th t).state = .idle) ∧ State.reset.frame.plane0.state = .empty ∧
  State.reset.frame.plane1.state = .empty ∧ (∀ l, (State.reset.link l).state = .off) ∧
  (∀ b k, State.reset.latchCount b k = 0) ∧ State.reset.sash.excq = [] ∧ State.reset.sash.handler = false ∧
  State.reset.sash.dmem = [] ∧ State.reset.pwr.shutLat = 0xFF ∧ State.reset.pwr.shutSpare = 3 ∧
  State.reset.pwr.shutSill = false ∧ State.reset.pwr.shutTransom = false ∧ State.reset.pwr.shutNear = false ∧
  State.reset.pwr.shutFar = false ∧ State.reset.eng.spad = [] ∧ State.reset.eng.sill = [] ∧ State.reset.eng.lanes = [] ∧ State.reset.dcache = [] ∧
  State.reset.jamb.tags = [] ∧ State.reset.jamb.timeout = 1000 ∧ State.reset.wd.period = 100000 ∧
  State.reset.wd.src = 2 ∧ State.reset.hinge.irqStat = 0 ∧ State.reset.hinge.irqEn = 0 ∧ State.reset.pwr.on = 0 ∧
  State.reset.boot.stage = 0 ∧ State.reset.frame.assign = 0xFFFFFFFF ∧ State.reset.pending = []

/-! ### Scalar instructions of Sash (spec/09) -/

/-- The immediate instructions of R207 for a thread that is RUN: what each writes to rd, with the pc behind it and
nothing else of the block changed. MOVI has ra 0, INS16 a half-word number below 4 and SHI a kind below 3 in bits
[7:6] with bits [15:8] zero; the other forms raise ILLEGAL. -/
def Obligations.ImmediateInstructions : Prop :=
  ∀ (s : State) (t : Thread) (rd ra : Reg) (imm : BitVec 16), s.calm → (s.th t).state = .run →
    let a := s.reg t ra
    let next := (s.th t).pc + 4
    Completes (.addi t rd ra imm) s (WritesRd t rd (a + imm.signExtend 64) next s) ∧
    Completes (.andi t rd ra imm) s (WritesRd t rd (a &&& imm.zeroExtend 64) next s) ∧
    Completes (.ori t rd ra imm) s (WritesRd t rd (a ||| imm.zeroExtend 64) next s) ∧
    Completes (.xori t rd ra imm) s (WritesRd t rd (a ^^^ imm.zeroExtend 64) next s) ∧
    Completes (.slti t rd ra imm) s (WritesRd t rd (if a.toInt < imm.toInt then 1 else 0) next s) ∧
    Completes (.sltiu t rd ra imm) s
      (WritesRd t rd (if a.toNat < (imm.signExtend 64 : Word).toNat then 1 else 0) next s) ∧
    Completes (.movi t rd 0 imm) s (WritesRd t rd (imm.signExtend 64) next s) ∧
    (∀ h : Fin 4, Completes (.ins16 t rd ⟨h.val, by omega⟩ imm) s fun s' => ∃ v : Word,
      WritesRd t rd v next s s' ∧ ∀ i : Fin 4, v.extractLsb' (16 * i.val) 16 =
        if i = h then imm else (s.reg t rd).extractLsb' (16 * i.val) 16) ∧
    (imm.toNat / 256 = 0 →
      (imm.toNat / 64 % 4 = 0 → Completes (.shi t rd ra imm) s (WritesRd t rd (a <<< (imm.toNat % 64)) next s)) ∧
      (imm.toNat / 64 % 4 = 1 → Completes (.shi t rd ra imm) s (WritesRd t rd (a >>> (imm.toNat % 64)) next s)) ∧
      (imm.toNat / 64 % 4 = 2 →
        Completes (.shi t rd ra imm) s (WritesRd t rd (a.sshiftRight (imm.toNat % 64)) next s))) ∧
    (doubleFault s t = false →
      let stops := StopsWith t (excOf s t 0x01 (s.th t).pc 0) s
      (imm.toNat / 256 ≠ 0 ∨ imm.toNat / 64 % 4 = 3 → Completes (.shi t rd ra imm) s stops) ∧
      (ra ≠ 0 → Completes (.movi t rd ra imm) s stops) ∧ (4 ≤ ra.val → Completes (.ins16 t rd ra imm) s stops))

/-- The value that an FN of the OP major gives (R206). -/
def opTable (fn : Nat) (a b : Word) : Word :=
  [a + b, a - b, a &&& b, a ||| b, a ^^^ b, a <<< (b.toNat % 64), a >>> (b.toNat % 64), a.sshiftRight (b.toNat % 64),
   if a.toInt < b.toInt then 1 else 0, if a.toNat < b.toNat then 1 else 0, a * b,
   BitVec.ofNat 64 (a.toNat * b.toNat / 2 ^ 64), BitVec.ofInt 64 (a.toInt * b.toInt / 2 ^ 64),
   if b = 0 then -1 else BitVec.ofInt 64 (Int.tdiv a.toInt b.toInt),
   if b = 0 then -1 else BitVec.ofNat 64 (a.toNat / b.toNat),
   if b = 0 then a else BitVec.ofInt 64 (Int.tmod a.toInt b.toInt),
   if b = 0 then a else BitVec.ofNat 64 (a.toNat % b.toNat),
   if a.toInt < b.toInt then a else b, if a.toInt < b.toInt then b else a,
   if a.toNat < b.toNat then a else b, if a.toNat < b.toNat then b else a].getD fn 0

/-- OP for a thread that is RUN and whose lockstep comparison passes: FN 0x000 to 0x014 write the value of R206 to rd,
with the pc behind the instruction and nothing else of the block changed; another FN raises ILLEGAL. -/
def Obligations.OpResults : Prop :=
  ∀ (s : State) (t : Thread) (rd ra rb : Reg) (fn : BitVec 11) (u : Upset), s.calm → (s.th t).state = .run →
    (∀ d, u ≠ .fatal d) →
    (fn.toNat ≤ 0x14 → Completes (.op t rd ra rb fn u) s
      (WritesRd t rd (opTable fn.toNat (s.reg t ra) (s.reg t rb)) ((s.th t).pc + 4) s)) ∧
    (0x14 < fn.toNat → doubleFault s t = false → Completes (.op t rd ra rb fn .clean) s
      (StopsWith t (excOf s t 0x01 (s.th t).pc 0) s))

/-- The FP encodings that R208 reserves: another FN, an rc field that is not 0 in a function that neither reads it nor takes an
RMODE, and an rc field above 3 in a conversion. -/
def fpReserved (fn : Nat) (rc : Reg) : Prop :=
  (0x0B ≤ fn ∧ fn < 0x10) ∨ (0x1B ≤ fn ∧ fn < 0x20) ∨ 0x28 ≤ fn ∨ (fn < 0x20 ∧ fn % 16 ≠ 5 ∧ rc ≠ 0) ∨
    (0x20 ≤ fn ∧ 4 ≤ rc.val)

/-- The major opcodes that R205 lists. -/
def majors : List Nat := (List.range 0x0C).drop 1 ++ (List.range 0x1E).drop 0x10 ++ (List.range 0x2A).drop 0x20 ++
  (List.range 0x3F).drop 0x30

/-- A reserved encoding raises ILLEGAL: the thread stops at the instruction's pc with a record of cause 0x01 (R204, R205, R208, R210,
R213, R221). A word with a major opcode that R205 does not list, SUB 15 of SYS or SUB 6 to 15 of LATCH is no instruction. Thread S in
handler mode is left out: its exception is a double fault. A word that spells an instruction is run by that instruction's own
command, and ILLEGAL_INSTRUCTION leaves it alone. -/
def Obligations.ReservedEncodings : Prop :=
  ∀ (s : State) (t : Thread) (rd ra rb rc : Reg) (k x : BitVec 6) (u : Upset), s.calm → (s.th t).state = .run →
    let stops := StopsWith t (excOf s t 0x01 (s.th t).pc 0) s
    (∀ w : BitVec 32, w.toNat / 2 ^ 26 ∈ majors → (w.toNat / 2 ^ 26 = 0x28 → w.toNat / 2 ^ 12 % 16 ≠ 15) →
      (w.toNat / 2 ^ 26 = 0x29 → w.toNat / 2 ^ 12 % 16 ≤ 5) →
      Completes (.illegalInstruction t w) s fun s' => s' = s.issuedBy t) ∧
    (doubleFault s t = false →
      (∀ fn : BitVec 6, 3 < fn.toNat → Completes (.amo t rd ra rb rc fn) s stops) ∧
      (∀ fn : BitVec 6, fpReserved fn.toNat rc → Completes (.fp t rd ra rb rc fn .clean) s stops) ∧
      (∀ w : BitVec 32, w.toNat / 2 ^ 26 ∉ majors ∨ (w.toNat / 2 ^ 26 = 0x28 ∧ w.toNat / 2 ^ 12 % 16 = 15) ∨
        (w.toNat / 2 ^ 26 = 0x29 ∧ 6 ≤ w.toNat / 2 ^ 12 % 16) → Completes (.illegalInstruction t w) s stops) ∧
      (48 ≤ k.toNat ∨ x ≠ 0 → Completes (.lsig t rd ra k x u) s stops ∧ Completes (.lwait t rd ra k x) s stops ∧
        Completes (.ltry t rd ra k x) s stops ∧ Completes (.lread t rd ra k x) s stops) ∧
      (48 ≤ k.toNat ∨ 11 ≤ x.toNat → Completes (.qsig t rd ra k x) s stops) ∧
      (11 ≤ x.toNat ∧ x ≠ 15 → Completes (.qwait t rd ra k x) s stops))

/-- FP for a thread that is RUN and whose lockstep comparison passes, where the encoding is one of R208 and no raised
flag is one that ALARMFLAGS selects: rd takes the rounded result, the flags are added to FFLAGS, and nothing else of the
block changes. -/
def FpInstructions : Prop :=
  ∀ (s : State) (t : Thread) (rd ra rb rc : Reg) (fn : BitVec 6) (u : Upset) (v : Word) (f : Flags),
    s.calm → (s.th t).state = .run → (∀ d, u ≠ .fatal d) →
    fpResult fn.toNat rc (s.reg t ra) (s.reg t rb) (s.reg t rc) = some (v, f) → flags4 f &&& s.alarmMask = 0 →
    Completes (.fp t rd ra rb rc fn u) s
      (WritesRd t rd v ((s.th t).pc + 4) (s.modTh t fun x => { x with fflags := x.fflags ||| fflagsOf f }))

/-- The operands that an FP function reads. -/
def fpOperands (fn : Nat) (a b c : Val) : List Val :=
  match fn % 16 with
  | 4 => [a]
  | 5 => [a, b, c]
  | _ => [a, b]

/-- The exact results of FADD, FSUB, FMUL and FMA, by their FN in a format. -/
def fpExactValues (a b c : Val) : List (Nat × Val) :=
  [(0, (Val.add a b).1), (1, (Val.add a b.negate).1), (2, (Val.mul a b).1), (5, (fmaVal a b c).1)]

/-- What R208 says of the .D functions and of FCVT.LD: an arithmetic result is its exact value rounded once, RNE; a NaN among the
operands read, rb and rc among them, gives the canonical NaN (R31) and a comparison 0; a nonzero finite value divided by +0 or -0
is an infinity of the sign of the quotient, with DIVZERO; the root of a value below -0 is the canonical NaN with INVALID; NaN
converts to 0 with INVALID, and a value out of range saturates to 2^63 - 1 or -2^63 with OVERFLOW. -/
def FpDouble : Prop :=
  ∀ (fn : Nat) (rc : Reg) (a b c : Word), fn = 5 ∨ rc = 0 →
    let reads := fpOperands fn (val64 a) (val64 b) (val64 c)
    let gives := fun (fn : Nat) (v : Word) (P : Flags → Prop) => ∃ f : Flags, fpResult fn rc a b c = some (v, f) ∧ P f
    (∀ v, (fn, v) ∈ fpExactValues (val64 a) (val64 b) (val64 c) →
      gives fn (BitVec.ofNat 64 (lFP64.ofVal .rne 0 v).1) fun f => flagsOr f (lFP64.ofVal .rne 0 v).2 = f) ∧
    (fn ≤ 7 → (reads.any fun v => v.isNan) = true → gives fn 0x7FF8000000000000 fun _ => True) ∧
    (8 ≤ fn → fn ≤ 10 → (reads.any fun v => v.isNan) = true → gives fn 0 fun f => f.nanin = true) ∧
    (fn = 3 → (val64 a).isZero = false → a.toNat / 2 ^ 52 % 2 ^ 11 ≠ 0x7FF → b = 0 ∨ b.toNat = 2 ^ 63 →
      gives 3 (if decide (2 ^ 63 ≤ a.toNat) = decide (b = 0) then 0xFFF0000000000000 else 0x7FF0000000000000)
        fun f => f.divZero = true) ∧
    (fn = 4 → 2 ^ 63 < a.toNat → a.toNat ≤ 0xFFF0000000000000 → gives 4 0x7FF8000000000000 fun f => f.invalid = true) ∧
    (rc.val < 4 →
      ((val64 a).isNan = true → gives 0x23 0 fun f => f.invalid = true) ∧
      (0x43E0000000000000 ≤ a.toNat → a.toNat ≤ 0x7FF0000000000000 →
        gives 0x23 0x7FFFFFFFFFFFFFFF fun f => f.overflow = true) ∧
      (0xC3E0000000000000 < a.toNat → a.toNat ≤ 0xFFF0000000000000 →
        gives 0x23 0x8000000000000000 fun f => f.overflow = true))

/-- The same of the .S functions, FN 16 higher on the low halves of the registers, and of FCVT.LS; bits [63:32] of rd are 0. -/
def FpSingle : Prop :=
  ∀ (fn : Nat) (rc : Reg) (a b c : Word), fn = 5 ∨ rc = 0 →
    let low := fun v : Word => v.toNat % 2 ^ 32
    let val := fun v : Word => lFP32.decode (low v)
    let reads := fpOperands fn (val a) (val b) (val c)
    let gives := fun (fn : Nat) (v : Word) (P : Flags → Prop) => ∃ f : Flags, fpResult fn rc a b c = some (v, f) ∧ P f
    (∀ v, (fn, v) ∈ fpExactValues (val a) (val b) (val c) →
      gives (16 + fn) (BitVec.ofNat 64 (lFP32.ofVal .rne 0 v).1) fun f => flagsOr f (lFP32.ofVal .rne 0 v).2 = f) ∧
    (fn ≤ 7 → (reads.any fun v => v.isNan) = true → gives (16 + fn) 0x7FC00000 fun _ => True) ∧
    (8 ≤ fn → fn ≤ 10 → (reads.any fun v => v.isNan) = true → gives (16 + fn) 0 fun f => f.nanin = true) ∧
    (fn = 3 → (val a).isZero = false → low a / 2 ^ 23 % 2 ^ 8 ≠ 0xFF → low b = 0 ∨ low b = 2 ^ 31 →
      gives 0x13 (if decide (2 ^ 31 ≤ low a) = decide (low b = 0) then 0xFF800000 else 0x7F800000)
        fun f => f.divZero = true) ∧
    (fn = 4 → 2 ^ 31 < low a → low a ≤ 0xFF800000 → gives 0x14 0x7FC00000 fun f => f.invalid = true) ∧
    (rc.val < 4 →
      ((val a).isNan = true → gives 0x25 0 fun f => f.invalid = true) ∧
      (0x5F000000 ≤ low a → low a ≤ 0x7F800000 → gives 0x25 0x7FFFFFFFFFFFFFFF fun f => f.overflow = true) ∧
      (0xDF000000 < low a → low a ≤ 0xFF800000 → gives 0x25 0x8000000000000000 fun f => f.overflow = true))

/-- The FP major: results, corners and flags (R208). -/
def Obligations.FloatingPoint : Prop := FpInstructions ∧ FpDouble ∧ FpSingle

/-- The check of a data access (R198, R200): a misaligned one raises MISALIGNED first; then one outside the map, one
to a window the thread may not use and a write to the group-table window raise DMEM_ACCESS; any other is performed. -/
def Obligations.DataAccessRules : Prop :=
  ∀ (t : Thread) (a : Word) (n : Nat) (write : Bool), n = 1 ∨ n = 2 ∨ n = 4 ∨ n = 8 →
    (a.toNat % n ≠ 0 → dataCause t a n write = some 0x02) ∧
    (a.toNat % n = 0 → 0x44818 ≤ a.toNat → dataCause t a n write = some 0x03) ∧
    (a.toNat % n = 0 → 0x40000 ≤ a.toNat → a.toNat < 0x44818 →
      dataCause t a n write = if write then some 0x03 else none) ∧
    (a.toNat % n = 0 → 0x30000 ≤ a.toNat → a.toNat < 0x40000 → dataCause t a n write = none) ∧
    (a.toNat % n = 0 → a.toNat < 0x30000 →
      dataCause t a n write = if a.toNat / 0xC000 = Thread.num t ∨ t = .S then none else some 0x03)

/-- A load of a thread that is RUN whose address passes the checks, and whose word is sound or corrected: rd takes the
addressed bytes in little-endian order, extended as R209 says. A correction counts in SASH_ECC and INT_STAT. -/
def LoadInstructions : Prop :=
  ∀ (s : State) (t : Thread) (rd ra : Reg) (imm : BitVec 16), s.calm → (s.th t).state = .run →
    let a := s.reg t ra + imm.signExtend 64
    let next := (s.th t).pc + 4
    let value := fun n => s.dataRead t a.toNat n
    (dataCause t a 1 false = none →
      Completes (.lb t rd ra imm .clean) s (WritesRd t rd ((BitVec.ofNat 8 (value 1)).signExtend 64) next s) ∧
      Completes (.lbu t rd ra imm .clean) s (WritesRd t rd (BitVec.ofNat 64 (value 1)) next s)) ∧
    (dataCause t a 2 false = none →
      Completes (.lh t rd ra imm .clean) s (WritesRd t rd ((BitVec.ofNat 16 (value 2)).signExtend 64) next s) ∧
      Completes (.lhu t rd ra imm .clean) s (WritesRd t rd (BitVec.ofNat 64 (value 2)) next s)) ∧
    (dataCause t a 4 false = none →
      Completes (.lw t rd ra imm .clean) s (WritesRd t rd ((BitVec.ofNat 32 (value 4)).signExtend 64) next s) ∧
      Completes (.lwu t rd ra imm .clean) s (WritesRd t rd (BitVec.ofNat 64 (value 4)) next s)) ∧
    (dataCause t a 8 false = none →
      Completes (.ld t rd ra imm .clean) s (WritesRd t rd (BitVec.ofNat 64 (value 8)) next s) ∧
      Completes (.ld t rd ra imm .corrected) s (WritesRd t rd (BitVec.ofNat 64 (value 8)) next
        { s with sash := { s.sash with dmemCe := satInc 16 s.sash.dmemCe },
                 int := { s.int with ce := satInc 16 s.int.ce } }))

/-- The bytes that a data read returns (R199): below 0x40000 those of the data memory, and above it the words of the
group-table window of the thread's context slot. -/
def DataReadValue : Prop :=
  ∀ (s : State) (t : Thread) (a : Nat),
    (∀ n : Nat, a < 0x40000 → s.dataRead t a n =
      ((List.range n).map fun i => (SMap.look s.sash.dmem 0 (a + i)).toNat * 256 ^ i).sum) ∧
    (∀ g j : Nat, g < 256 → j < 8 →
      s.dataRead t (0x40000 + 64 * g + 8 * j) 8 = (s.groupEntry (s.th t).ctx g j).toNat) ∧
    (∀ g : Nat, g < 256 → s.dataRead t (0x44000 + 8 * g) 8 = (groupWord (s.groupState (s.th t).ctx g)).toNat) ∧
    s.dataRead t 0x44800 8 = (normStatWord (s.plane (s.th t).ctx).norm).toNat ∧
    s.dataRead t 0x44808 8 = (s.plane (s.th t).ctx).norm.sum.toNat ∧
    s.dataRead t 0x44810 8 = (s.plane (s.th t).ctx).norm.kappa.toNat

/-- Loads from the data memory of Sash and the values that they read (R198, R209). -/
def Obligations.DataLoads : Prop := LoadInstructions ∧ DataReadValue

/-- A store of a thread that is RUN whose address passes the checks and whose comparison passes writes the low bytes of
the register in the rd field, in little-endian order, and no other byte. -/
def Obligations.StoreInstructions : Prop :=
  ∀ (s : State) (t : Thread) (rd ra : Reg) (imm : BitVec 16) (u : Upset), s.calm → (s.th t).state = .run → (∀ d, u ≠ .fatal d) →
    let a := s.reg t ra + imm.signExtend 64
    let bytes := fun n => (List.range n).map fun i => (s.reg t rd).extractLsb' (8 * i) 8
    (dataCause t a 1 true = none → Completes (.sb t rd ra imm u) s (StoresTo t a.toNat (bytes 1) s)) ∧
    (dataCause t a 2 true = none → Completes (.sh t rd ra imm u) s (StoresTo t a.toNat (bytes 2) s)) ∧
    (dataCause t a 4 true = none → Completes (.sw t rd ra imm u) s (StoresTo t a.toNat (bytes 4) s)) ∧
    (dataCause t a 8 true = none → Completes (.sd t rd ra imm u) s (StoresTo t a.toNat (bytes 8) s))

/-- A load or store whose address fails the check of R200 stops its thread with that cause and the address as INFO;
the access is not performed. -/
def Obligations.DataAccessStops : Prop :=
  ∀ (s : State) (t : Thread) (rd ra : Reg) (imm : BitVec 16) (u : Upset), s.calm → (s.th t).state = .run →
    doubleFault s t = false →
    let a := s.reg t ra + imm.signExtend 64
    let stops := fun c => StopsWith t (excOf s t c (s.th t).pc a) s
    (∀ c, dataCause t a 1 false = some c → Completes (.lb t rd ra imm u) s (stops c) ∧ Completes (.lbu t rd ra imm u) s (stops c)) ∧
    (∀ c, dataCause t a 2 false = some c → Completes (.lh t rd ra imm u) s (stops c) ∧ Completes (.lhu t rd ra imm u) s (stops c)) ∧
    (∀ c, dataCause t a 4 false = some c → Completes (.lw t rd ra imm u) s (stops c) ∧ Completes (.lwu t rd ra imm u) s (stops c)) ∧
    (∀ c, dataCause t a 8 false = some c → Completes (.ld t rd ra imm u) s (stops c)) ∧
    (∀ c, dataCause t a 1 true = some c → Completes (.sb t rd ra imm u) s (stops c)) ∧
    (∀ c, dataCause t a 2 true = some c → Completes (.sh t rd ra imm u) s (stops c)) ∧
    (∀ c, dataCause t a 4 true = some c → Completes (.sw t rd ra imm u) s (stops c)) ∧
    (∀ c, dataCause t a 8 true = some c → Completes (.sd t rd ra imm u) s (stops c))

/-- AMO of a thread that is RUN (R210). At an aligned address of the shared window the word takes the new value of the function, rd the
old one, and no other byte changes; only AMO.CAS reads rc. An address that is not a multiple of 8 raises
MISALIGNED, any other one outside the shared window DMEM_ACCESS, and another function ILLEGAL. -/
def Obligations.AmoInstruction : Prop :=
  ∀ (s : State) (t : Thread) (rd ra rb rc : Reg) (fn : BitVec 6), s.calm → (s.th t).state = .run →
    let at' := s.reg t ra
    let a := at'.toNat
    let old : Word := BitVec.ofNat 64 (Mem.num s.sash.dmem a 8)
    let b := s.reg t rb
    let new : Word := [old + b, b, if old = s.reg t rc then b else old, if old.toInt < b.toInt then b else old].getD fn.toNat 0
    let stops := fun cause info => Completes (.amo t rd ra rb rc fn) s (StopsWith t (excOf s t cause (s.th t).pc info) s)
    (fn.toNat ≤ 3 →
      (0x30000 ≤ a → a < 0x40000 → a % 8 = 0 → Completes (.amo t rd ra rb rc fn) s fun s' =>
        WritesRd t rd old ((s.th t).pc + 4) { s with sash := { s.sash with dmem := s'.sash.dmem } } s' ∧
        Mem.num s'.sash.dmem a 8 = new.toNat ∧
        ∀ x, x < a ∨ a + 8 ≤ x → SMap.look s'.sash.dmem 0 x = SMap.look s.sash.dmem 0 x) ∧
      (doubleFault s t = false → (a % 8 ≠ 0 → stops 0x02 at') ∧
        (a % 8 = 0 → a < 0x30000 ∨ 0x40000 ≤ a → stops 0x03 at'))) ∧
    (doubleFault s t = false → 3 < fn.toNat → stops 0x01 0)

/-- MLD and MST of a thread that is RUN at an address that R211 accepts: MLD asks Jamb for the 32-byte sector that holds
the 8 bytes and waits in MEMORY; MST posts the 8 bytes of the register in the rd field and goes on. MFENCE goes on with no
unacknowledged MST, and else waits in MEMORY. -/
def Obligations.MemoryInstructions : Prop :=
  ∀ (s : State) (t : Thread) (rd ra : Reg) (imm : BitVec 16) (n : BitVec 12), s.calm → (s.th t).state = .run →
    let a := s.reg t ra + imm.signExtend 64
    let waits := fun w => (s.issuedBy t).setTh t { s.th t with state := .memory, wait := w }
    (a.toNat % 8 = 0 → a.toNat < 2 ^ 48 →
      (Completes (.mld t rd ra imm) s fun s' => ∃ r : JReq,
        s' = { (s.issuedBy t).setTh t { s.th t with
            state := .memory, wait := .mld rd (s.th t).accesses, accesses := (s.th t).accesses + 1 } with
          jamb := { s.jamb with reqs := s.jamb.reqs ++ [r] } } ∧
        r.owner = .mld t a.toNat (s.th t).accesses ∧ r.client = .mldMst ∧ r.write = false ∧ r.block = a.toNat / 256 ∧
        r.smask = BitVec.ofNat 8 (2 ^ (a.toNat % 256 / 32))) ∧
      (Completes (.mst t rd ra imm) s fun s' => ∃ r : JReq,
        RegFrame t ({ s with jamb := { s.jamb with reqs := s.jamb.reqs ++ [r] } }.modTh t fun x =>
          { x with mstOut := x.mstOut + 1 }) s' ∧
        (∀ k, s'.reg t k = s.reg t k) ∧ (s'.th t).pc = (s.th t).pc + 4 ∧
        r.owner = .mst t (s.th t).pc ∧ r.client = .mldMst ∧ r.write = true ∧ r.block = a.toNat / 256 ∧
        r.cells = (List.range 8).map fun i => (a.toNat + i, (s.reg t rd).extractLsb' (8 * i) 8))) ∧
    ((s.th t).mstOut = 0 → Completes (.mfence t rd ra n) s fun s' =>
      RegFrame t s s' ∧ (∀ k, s'.reg t k = s.reg t k) ∧ (s'.th t).pc = (s.th t).pc + 4) ∧
    ((s.th t).mstOut ≠ 0 → Completes (.mfence t rd ra n) s fun s' => s' = waits .mfence) ∧
    (doubleFault s t = false → a.toNat % 8 ≠ 0 ∨ 2 ^ 48 ≤ a.toNat →
      Completes (.mld t rd ra imm) s (StopsWith t (excOf s t 0x06 (s.th t).pc a) s) ∧
      Completes (.mst t rd ra imm) s (StopsWith t (excOf s t 0x06 (s.th t).pc a) s))

/-- A branch of a thread that is RUN goes to PC + 4 × sext(off16) when its condition holds and behind itself when it does
not; it writes no register. A taken branch to an address with any of bits [63:48] set raises IFETCH. -/
def BranchInstructions : Prop :=
  ∀ (s : State) (t : Thread) (ra rb : Reg) (off : BitVec 16), s.calm → (s.th t).state = .run →
    let a := s.reg t ra
    let b := s.reg t rb
    let target : Word := (s.th t).pc.zeroExtend 64 + 4 * off.signExtend 64
    let goes := fun (c : Prop) (i : Instr) =>
      (¬c → Completes i s (WritesRd t 0 0 ((s.th t).pc + 4) s)) ∧
      (c → target.toNat < 2 ^ 48 → Completes i s (WritesRd t 0 0 (target.setWidth 48) s)) ∧
      (c → 2 ^ 48 ≤ target.toNat → doubleFault s t = false →
        Completes i s (StopsWith t (excOf s t 0x05 (s.th t).pc 0) s))
    goes (a = b) (.beq t ra rb off) ∧ goes (a ≠ b) (.bne t ra rb off) ∧
    goes (a.toInt < b.toInt) (.blt t ra rb off) ∧ goes (b.toInt ≤ a.toInt) (.bge t ra rb off) ∧
    goes (a.toNat < b.toNat) (.bltu t ra rb off) ∧ goes (b.toNat ≤ a.toNat) (.bgeu t ra rb off)

/-- JAL of a thread that is RUN writes PC + 4 to s31 and goes to PC + 4 × sext(off26); JALR writes PC + 4 to rd and goes
to (ra + sext(imm16)) with bits [1:0] cleared. A target with any of bits [63:48] set raises IFETCH and writes no register. -/
def JumpInstructions : Prop :=
  ∀ (s : State) (t : Thread) (rd ra : Reg) (off : BitVec 26) (imm : BitVec 16), s.calm → (s.th t).state = .run →
    let link : Word := ((s.th t).pc + 4).zeroExtend 64
    let near : Word := (s.th t).pc.zeroExtend 64 + 4 * off.signExtend 64
    let far : Word := (s.reg t ra + imm.signExtend 64) &&& ~~~3
    (near.toNat < 2 ^ 48 → Completes (.jal t off) s (WritesRd t 31 link (near.setWidth 48) s)) ∧
    (far.toNat < 2 ^ 48 → Completes (.jalr t rd ra imm) s (WritesRd t rd link (far.setWidth 48) s)) ∧
    (doubleFault s t = false →
      (2 ^ 48 ≤ near.toNat → Completes (.jal t off) s (StopsWith t (excOf s t 0x05 (s.th t).pc 0) s)) ∧
      (2 ^ 48 ≤ far.toNat → Completes (.jalr t rd ra imm) s (StopsWith t (excOf s t 0x05 (s.th t).pc 0) s)))

/-- Branches and jumps (R212). -/
def Obligations.ControlTransfers : Prop := BranchInstructions ∧ JumpInstructions

/-! ### System instructions (spec/09) -/

/-- What a CSR reads (R214), by its number: the thread's own registers, the times, the identity and feature words, the
completion errors, and for thread S the exception registers. -/
def CsrValues : Prop :=
  ∀ (s : State) (t : Thread), let x := s.th t
    s.csrValue t 0x000 = BitVec.ofNat 64 (Thread.num t + 4 * (x.ctx % 2)) ∧ s.csrValue t 0x001 = x.stepno.zeroExtend 64 ∧
    s.csrValue t 0x002 = x.wseq.zeroExtend 64 ∧ s.csrValue t 0x003 = x.iseq.zeroExtend 64 ∧
    s.csrValue t 0x004 = s.time.cycle ∧ s.csrValue t 0x005 = s.time.aonTime ∧
    s.csrValue t 0x006 = x.fflags.zeroExtend 64 ∧ s.csrValue t 0x00F = beloreId ∧
    (∀ i, i < 8 → s.csrValue t (0x010 + i) = s.feature i) ∧
    (∀ q, q < 11 → s.csrValue t (0x020 + q) = SMap.look x.qerr 0 q) ∧
    s.csrValue t 0x040 = s.sash.evec.zeroExtend 64 ∧ s.csrValue t 0x041 = s.sash.epc.zeroExtend 64 ∧
    (∀ r rest, s.sash.excq = r :: rest → s.csrValue t 0x042 = r.w0 ∧ s.csrValue t 0x043 = r.w1 ∧
      s.csrValue t 0x044 = r.w2 ∧ s.csrValue t 0x045 = r.w3) ∧
    s.csrValue t 0x047 = BitVec.ofNat 64 (s.sash.excq.length + (if s.sash.handler then 32 else 0) + s.sash.lost * 65536) ∧
    s.csrValue t 0x048 = BitVec.ofNat 64 (s.f.state.code + 16 * s.b.state.code + 256 * s.u.state.code +
      4096 * s.s.state.code)

/-- The CSR instructions of a thread that is RUN. CSRR gives rd the CSR; CSRW, CSRS and CSRC write it with ra, with the old
value or ra, with the old value and not ra, the last two giving rd the old value. A number that R214 does not list, one from
0x040 on in a thread other than S, and a write of a read-only CSR raise ILLEGAL. -/
def CsrInstructions : Prop :=
  ∀ (s : State) (t : Thread) (rd ra : Reg) (n : BitVec 12), s.calm → (s.th t).state = .run →
    let k := n.toNat
    let listed := k ≤ 6 ∨ k = 0x0F ∨ (0x10 ≤ k ∧ k ≤ 0x17) ∨ (0x20 ≤ k ∧ k ≤ 0x2A) ∨ (0x40 ≤ k ∧ k ≤ 0x48 ∧ t = .S)
    let writable := k = 6 ∨ (0x20 ≤ k ∧ k ≤ 0x2A) ∨ k = 0x40 ∨ k = 0x41 ∨ k = 0x46
    let a := s.reg t ra
    let old := s.csrValue t k
    let next := (s.th t).pc + 4
    let stops := StopsWith t (excOf s t 0x01 (s.th t).pc 0) s
    (listed → Completes (.csrr t rd ra n) s (WritesRd t rd old next s)) ∧
    (listed → writable → Completes (.csrw t rd ra n) s (WritesRd t 0 0 next (s.csrSet t k a)) ∧
      Completes (.csrs t rd ra n) s (WritesRd t rd old next (s.csrSet t k (old ||| a))) ∧
      Completes (.csrc t rd ra n) s (WritesRd t rd old next (s.csrSet t k (old &&& ~~~a)))) ∧
    (doubleFault s t = false → ¬listed → Completes (.csrr t rd ra n) s stops) ∧
    (doubleFault s t = false → ¬(listed ∧ writable) → Completes (.csrw t rd ra n) s stops ∧
      Completes (.csrs t rd ra n) s stops ∧ Completes (.csrc t rd ra n) s stops)

/-- What a write of a CSR changes (R214): FFLAGS, EVEC and EPC take the value, EXCPOP removes the head record whatever is
written, and a QERR word takes the bits that are fields of R219. -/
def CsrWriteEffects : Prop :=
  ∀ (s : State) (t : Thread) (v : Word),
    s.csrSet t 0x006 v = s.setTh t { s.th t with fflags := v.setWidth 5 } ∧
    s.csrSet t 0x040 v = { s with sash := { s.sash with evec := v.setWidth 48 } } ∧
    s.csrSet t 0x041 v = { s with sash := { s.sash with epc := v.setWidth 48 } } ∧
    s.csrSet t 0x046 v = { s with sash := { s.sash with excq := s.sash.excq.drop 1 } } ∧
    ∀ q, q < 11 → (∀ p, SMap.look ((s.csrSet t (0x020 + q) v).th t).qerr 0 p =
        if p = q then v &&& 0x80FFFFFFFFFFFFFF else SMap.look (s.th t).qerr 0 p) ∧
      { (s.csrSet t (0x020 + q) v).th t with qerr := (s.th t).qerr } = s.th t ∧
      ∀ u, u ≠ t → (s.csrSet t (0x020 + q) v).th u = s.th u

/-- The control and status registers: their values, the instructions that reach them, and what a write does (R214). -/
def Obligations.CsrAccess : Prop := CsrValues ∧ CsrInstructions ∧ CsrWriteEffects

/-- TRAP of a thread that is RUN raises TRAP with code N; the thread stops behind the instruction, and EXC1 holds the
address of the next one (R213, R224). -/
def TrapInstruction : Prop :=
  ∀ (s : State) (t : Thread) (rd ra : Reg) (n : BitVec 12), s.calm → (s.th t).state = .run → doubleFault s t = false →
    Completes (.trap t rd ra n) s (StopsWith t (excOf s t 0x08 ((s.th t).pc + 4) (n.zeroExtend 64)) s)

/-- A stopping exception of thread S in handler mode is a double fault (R227): S goes to HALTED, the other threads go on,
and the event is an integrity event with IRQ_STAT bit 6 and ALARM of INT_STAT set. -/
def DoubleFaultHalts : Prop :=
  ∀ (s : State) (rd ra : Reg) (n : BitVec 12), s.calm → s.s.state = .run → s.sash.handler = true →
    Completes (.trap .S rd ra n) s fun s' =>
      s'.s.state = .halted ∧ s'.f = s.f ∧ s'.b = s.b ∧ s'.u = s.u ∧
      s'.hinge.irqStat.getLsbD 6 = true ∧ s'.int.stat.getLsbD 8 = true ∧ s'.int.stat.getLsbD 1 = true

/-- An instruction whose copies disagree has no effect (R381, R388): no register, no byte of the data memory and no lane changes and
no ISEQ is taken; S goes to HALTED, a thread that was RUN, in LATCH or in QUEUE is STOPPED, and the event is a Class S detection with
IRQ_STAT bit 6, and ALARM and bit 0 of INT_STAT set. -/
def LockstepHalts : Prop :=
  ∀ (s : State) (t : Thread) (rd ra rb rc : Reg) (imm : BitVec 16) (lat fn k x : BitVec 6) (ef : BitVec 10) (f11 : BitVec 11)
    (n : BitVec 12) (off : BitVec 26) (d : BitVec 16), (s.th t).state = .run → s.upsetAt .sash = .fatal d →
    ∀ c ∈ [Instr.addi t rd ra imm, .op t rd ra rb f11 .clean, .fp t rd ra rb rc fn .clean, .lw t rd ra imm .clean,
        .ld t rd ra imm .clean, .sw t rd ra imm .clean, .sd t rd ra imm .clean, .amo t rd ra rb rc fn, .mld t rd ra imm,
        .mst t rd ra imm, .jal t off, .csrr t rd ra n, .csrw t rd ra n, .sadv t rd ra n, .tend t rd ra n, .lsig t rd ra k x .clean,
        .qsig t rd ra k x, .latMM t rd ra lat ef, .sillSpill t rd ra lat ef, .updApply t rd ra lat ef],
      Completes c s fun s' => s'.s.state = .halted ∧
        (∀ u, u ≠ .S → (s.th u).state = .run ∨ (s.th u).state = .latch ∨ (s.th u).state = .queue →
          (s'.th u).state = .stopped) ∧
        (∀ u, (s'.th u).regs = (s.th u).regs ∧ (s'.th u).pc = (s.th u).pc ∧ (s'.th u).iseq = (s.th u).iseq ∧
          (s'.th u).fflags = (s.th u).fflags) ∧
        s'.sash.dmem = s.sash.dmem ∧ s'.latch.counts = s.latch.counts ∧ s'.eng.lanes.length = s.eng.lanes.length ∧
        s'.hinge.irqStat.getLsbD 6 = true ∧ s'.int.stat.getLsbD 8 = true ∧ s'.int.stat.getLsbD 0 = true

/-- TRAP, the double fault of thread S, and the lockstep pair (R213, R224, R227, R381, R388). -/
def Obligations.TrapsAndDoubleFaults : Prop := TrapInstruction ∧ DoubleFaultHalts ∧ LockstepHalts

/-- TEND of a thread that is RUN (R197). With an entry of the thread in a lane or an open post it waits in QUEUE. Else it
ends the thread's part: without a context to go to and with a thread of its context still at work the thread becomes IDLE; with a
started context in the other slot that names an entry point for it, the thread starts there at that address with the
Frame's STEPNO and WSEQ 0. TEND_COMPLETE does the same for a thread that waits once the condition holds. -/
def Obligations.TendInstruction : Prop :=
  ∀ (s : State) (t : Thread) (rd ra : Reg) (n : BitVec 12), s.calm →
    let c := (s.th t).ctx
    let done := s.eng.lanes.any (fun e => decide (e.stream = t)) = false ∧ (s.th t).posts = []
    let begins := ∀ i : Instr, i = .tend t rd ra n ∧ (s.th t).state = .run ∨
      i = .tendComplete t ∧ (s.th t).state = .queue ∧ (s.th t).wait = .tend →
      (s.nextContext t c = none → Completes i s fun s' => (s'.th t).state = .idle ∧
        ((s.setTh t { s.th t with state := .idle, ended := c :: (s.th t).ended.filter fun o => o ≠ c }).allEnded c = false →
          (s'.th t).ended = c :: (s.th t).ended.filter fun o => o ≠ c)) ∧
      (∀ f, s.nextContext t c = some f → s.savedOf (1 - c) t = none → c ≤ 1 → Completes i s fun s' =>
        (s'.th t).ctx = 1 - c ∧ (s'.th t).pc = f.entry t ∧ (s'.th t).stepno = f.step0 t ∧ (s'.th t).wseq = 0 ∧
        ∀ r, s'.reg t r = s.reg t r)
    (¬done → (s.th t).state = .run → Completes (.tend t rd ra n) s (WaitsIn t .queue .tend s)) ∧ (done → begins)

/-- ERET, TSTART and TSTOP of thread S (R213, R225). ERET clears handler mode and goes on at EPC, its low two bits cleared (the
model's reading, log entry 35), or makes S IDLE when EPC is 0. TSTART starts an IDLE thread in the slot of S and a STOPPED one in
its own at the address in ra with rd 0; a thread in another state gives 1 and a bad address 2, and nothing else happens.
TSTOP stops a thread that is RUN. Another thread that issues one of them, and TSTOP that names S, raise ILLEGAL. -/
def Obligations.ThreadControl : Prop :=
  ∀ (s : State) (rd ra : Reg) (n : BitVec 12) (t : Thread), s.calm →
    let u := threadOf n.toNat
    let a := s.reg .S ra
    (s.s.state = .run →
      (s.sash.epc = 0 → Completes (.eret .S rd ra n) s fun s' => s'.s = { s.s with state := .idle, wait := .none } ∧
        s'.sash = { s.sash with handler := false, lastIssued := .S }) ∧
      (s.sash.epc ≠ 0 → Completes (.eret .S rd ra n) s
        (WritesRd .S 0 0 (s.sash.epc &&& ~~~3) { s with sash := { s.sash with handler := false } })) ∧
      ((s.th u).state ≠ .idle → (s.th u).state ≠ .stopped →
        Completes (.tstart .S rd ra n) s (WritesRd .S rd 1 (s.s.pc + 4) s)) ∧
      ((s.th u).state = .idle ∨ (s.th u).state = .stopped → a.toNat % 4 ≠ 0 ∨ 2 ^ 48 ≤ a.toNat →
        Completes (.tstart .S rd ra n) s (WritesRd .S rd 2 (s.s.pc + 4) s)) ∧
      ((s.th u).state = .idle ∨ (s.th u).state = .stopped → a.toNat % 4 = 0 → a.toNat < 2 ^ 48 →
        Completes (.tstart .S rd ra n) s fun s' => s'.reg .S rd = 0 ∧ s'.s.pc = s.s.pc + 4 ∧
          (s'.th u).pc = a.setWidth 48 ∧ (s'.th u).regs = (s.th u).regs ∧
          ((s'.th u).state = .run ∨ ((s'.th u).state = .memory ∧ (s'.th u).wait = .fetch)) ∧
          (s'.th u).ctx = if (s.th u).state = .idle then s.s.ctx else (s.th u).ctx) ∧
      (u ≠ .S → (s.th u).state = .run → Completes (.tstop .S rd ra n) s (GoesOn .S (s.setTh u
        { s.th u with state := .stopped, wait := .none, stopAsked := false })))) ∧
    ((s.th t).state = .run → doubleFault s t = false →
      let stops := StopsWith t (excOf s t 0x01 (s.th t).pc 0) s
      (t ≠ .S → Completes (.eret t rd ra n) s stops ∧ Completes (.tstart t rd ra n) s stops) ∧
      (t ≠ .S ∨ u = .S → Completes (.tstop t rd ra n) s stops))

/-- FENCE.I of a thread that is RUN invalidates every line of the instruction cache (R203), so that its next fetch reads
memory; LV.RD gives rd the accumulator N of the thread's context and LV.CLR clears it (R213); an N above 31 raises ILLEGAL. An
accumulator whose residue does not match is reported as an integrity event (16 R380), and the instruction goes on. -/
def FenceAndAccumulators : Prop :=
  ∀ (s : State) (t : Thread) (rd ra : Reg) (n : BitVec 12) (u : Upset), s.calm → (s.th t).state = .run →
    let c := (s.th t).ctx
    (Completes (.fenceI t rd ra n) s fun s' => s'.sash.icache = [] ∧ (s'.th t).state = .memory ∧
      (s'.th t).wait = .fetch ∧ GoesOn t s s') ∧
    ((∀ d, u ≠ .fatal d) → n.toNat < 32 → (s.accum c n.toNat).sound = true →
      Completes (.lvRd t rd ra n u) s (WritesRd t rd (accumRead (s.accum c n.toNat)) ((s.th t).pc + 4) s) ∧
      Completes (.lvClr t rd ra n u) s fun s' => GoesOn t (s.setAccum c n.toNat Accum.init) s' ∧
        s'.accum c n.toNat = Accum.init) ∧
    (n.toNat < 32 → ((∃ d, u = .fatal d) ∨ (s.accum c n.toNat).sound = false) →
      let seen := fun s' : State => s'.int.stat.getLsbD 0 = true ∧ s'.int.stat.getLsbD 8 = true ∧
        s'.int.events = satInc 16 s.int.events ∧ (s'.th t).pc = (s.th t).pc + 4
      Completes (.lvRd t rd ra n u) s (fun s' => seen s' ∧ (rd ≠ 0 → s'.reg t rd = accumRead (s.accum c n.toNat))) ∧
      Completes (.lvClr t rd ra n u) s fun s' => seen s' ∧ s'.accum c n.toNat = Accum.init) ∧
    (doubleFault s t = false → 32 ≤ n.toNat →
      Completes (.lvRd t rd ra n u) s (StopsWith t (excOf s t 0x01 (s.th t).pc 0) s) ∧
      Completes (.lvClr t rd ra n u) s (StopsWith t (excOf s t 0x01 (s.th t).pc 0) s))

/-- DFL of a thread that is RUN (R73, R213) takes the entry of handle ra[19:0] of the thread's context out of the cache.
Without an entry, or with a clean one, and with no write-back of the handle still to be acknowledged, the thread goes on; a
dirty entry is written back at its address in the descriptor table, and the thread waits in MEMORY for it. -/
def DescriptorFlush : Prop :=
  ∀ (s : State) (t : Thread) (rd ra : Reg), s.calm → (s.th t).state = .run →
    let c := (s.th t).ctx
    let h := (s.reg t ra).toNat % 2 ^ 20
    let without := { s with dcache := s.dcache.filter fun x => !(x.ctx = c && x.handle = h) }
    (s.dcFind c h = none → s.wbPending c (some h) = false → Completes (.dfl t rd ra 0) s (GoesOn t s)) ∧
    (∀ e, s.dcFind c h = some e → e.dirty = false → s.wbPending c (some h) = false →
      Completes (.dfl t rd ra 0) s (GoesOn t without)) ∧
    (∀ e, s.dcFind c h = some e → e.dirty = true → Completes (.dfl t rd ra 0) s fun s' =>
      s'.dcache = without.dcache ∧ (s'.th t).state = .memory ∧ (s'.th t).wait = .flush h ∧ (s'.th t).pc = (s.th t).pc ∧
      ∃ rs, s'.jamb.reqs = s.jamb.reqs ++ rs ∧ rs ≠ [] ∧ (∀ r ∈ rs, r.write = true ∧ r.owner = .writeback c h) ∧
        ∀ b v, (b, v) ∈ rs.flatMap (fun r => r.cells) ↔ (b, v) ∈ cellsAt (s.descAddr c h) (descBytes e.desc))

/-- Fences, accumulators and descriptor flushes (R203, R211, R163, R73, R213). -/
def Obligations.FencesAndFlushes : Prop := FenceAndAccumulators ∧ DescriptorFlush

/-- SADV of a thread that is RUN, outside the replay of its step (R213, 14 R339): with four open posts it waits in QUEUE;
else STEPNO grows by 1 modulo 2^32, WSEQ becomes 0 and a completion post with the next sequence number opens for the step
that ends. While entries of the thread are in the lanes, and no earlier post may complete, the post stands behind the open ones, with
the fields of 14 R340 and those entries to wait for. Without entries, an earlier post, a mailbox and a journal it completes at
once: the mirror holds its words and IRQ_STAT has the thread's bit. POST_ROOM does the same for a thread that waits once a post has
completed. -/
def Obligations.StepAdvance : Prop :=
  ∀ (s : State) (t : Thread) (rd ra : Reg) (n : BitVec 12), s.calm →
    let x := s.th t
    let seq := if x.seq = 0xFFFFFFFF then 1 else x.seq + 1
    let entries := (s.eng.lanes.filter fun e => e.stream = t).map fun e => e.uid
    let ctxid := match s.frameOf x.ctx with
      | some f => f.ctxid
      | none => 0
    let steps := fun s' : State => (s'.th t).stepno = x.stepno + 1 ∧ (s'.th t).wseq = 0 ∧
      (s'.th t).seq = seq ∧ (s'.th t).pc = x.pc + 4 ∧ (s'.th t).regs = x.regs ∧ (s'.th t).iseq = x.iseq ∧
      (entries ≠ [] → (∀ p ∈ x.posts, p.stage ≠ 3 ∧ (p.stage = 0 → p.waiting ≠ [])) → ∃ p : Post,
        (s'.th t).posts = x.posts ++ [p] ∧ p.seq = seq ∧ p.step = x.stepno ∧ p.ctx = x.ctx ∧ p.ctxid = ctxid ∧
        p.lastIseq = x.iseq - 1 ∧ p.waiting = entries ∧ p.stage = 0 ∧ p.nbad = x.stepNbad ∧ p.first = x.stepFirst ∧
        p.memErr = false) ∧
      (entries = [] → x.posts = [] → s.hinge.mboxEn = false → s.journals x.ctx = false → s.journalPending t = false →
        (s'.th t).posts = [] ∧ s'.hinge.irqStat.getLsbD (Thread.num t) = true ∧
        (s'.th t).cmpl0 = BitVec.ofNat 64 (1 + 4 * Thread.num t + 16 * x.ctx + 2 ^ 8 * x.stepFirst + 2 ^ 16 * x.stepNbad +
          2 ^ 32 * seq.toNat) ∧
        (s'.th t).cmpl1 = BitVec.ofNat 64 (x.stepno.toNat + 2 ^ 32 * ctxid.toNat))
    ((s.th t).state = .run → s.replayStop t = false → (s.th t).posts.length < 4 → Completes (.sadv t rd ra n) s steps) ∧
    ((s.th t).state = .run → s.replayStop t = false → 4 ≤ (s.th t).posts.length →
      Completes (.sadv t rd ra n) s (WaitsIn t .queue .post s)) ∧
    ((s.th t).state = .queue → (s.th t).wait = .post → (s.th t).posts.length < 4 → Completes (.postRoom t) s steps)

/-- HANDLER_ENTRY (R225): when handler mode is due, S starts at EVEC, EPC takes the address it would have gone on at or 0 from
IDLE, and an IDLE S runs in the slot of the newest started context. When it is not due nothing happens. -/
def Obligations.HandlerEntry : Prop :=
  ∀ s : State,
    (s.clk.aclkOn = true → s.lt.hatchActive = false → s.sash.evec ≠ 0 → s.sash.excq ≠ [] → s.sash.handler = false →
      (s.s.state = .run ∨ s.s.state = .latch ∨ s.s.state = .queue ∨ s.s.state = .idle) →
      Completes .handlerEntry s fun s' => s'.sash.handler = true ∧ s'.s.pc = s.sash.evec &&& ~~~3 ∧
        s'.sash.epc = (if s.s.state = .idle then 0 else s.s.pc) ∧
        s'.s.ctx = (if s.s.state = .idle then s.newestCtx else s.s.ctx) ∧ s'.s.regs = s.s.regs ∧
        s'.sash.excq = s.sash.excq ∧ (s'.s.state = .run ∨ (s'.s.state = .memory ∧ s'.s.wait = .fetch)) ∧
        s'.f = s.f ∧ s'.b = s.b ∧ s'.u = s.u) ∧
    (s.clk.aclkOn = false ∨ s.lt.hatchActive = true ∨ s.sash.evec = 0 ∨ s.sash.excq = [] ∨ s.sash.handler = true ∨
      s.s.state = .memory ∨ s.s.state = .stopped ∨ s.s.state = .halted → Completes .handlerEntry s fun s' => s' = s)

/-! ### Latches and queues (spec/09, spec/11) -/

/-- The latch instructions of a thread that is RUN, on a latch K below 48 with X 0 (R221, R252): LSIG adds 1 to a count below
255; LWAIT takes 1 from a count above 0 and else waits in LATCH; LTRY takes 1 and gives rd 1, or gives rd 0; LREAD gives rd
the count. No other latch changes. LATCH_WAIT_READY lets the first waiting thread in issue order take its count. Outside replay
r is s; in replay r is s with the remote signals applied that the journal places ahead (R401). -/
def LatchInstructions : Prop :=
  ∀ (s : State) (t : Thread) (rd ra : Reg) (k : BitVec 6) (u : Upset), k.toNat < 48 →
    s.calm →
    let r := s.signalsAhead
    let c := (r.th t).ctx
    let n := r.latchCount c k.toNat
    let only := fun (v : BitVec 8) (s' : State) => ∀ b j, b < 2 → j < 48 →
      s'.latchCount b j = if b = c ∧ j = k.toNat then v else r.latchCount b j
    let goes := fun s' : State => (s'.th t).pc = (r.th t).pc + 4
    (s.rpl.active = false → r = s) ∧
    ((s.th t).state = .run → c < 2 → (∀ d, u ≠ .fatal d) → n ≠ 255 →
      Completes (.lsig t rd ra k 0 u) s fun s' => only (n + 1) s' ∧ goes s' ∧ ∀ x, s'.reg t x = r.reg t x) ∧
    ((s.th t).state = .run → c < 2 → n ≠ 0 →
      (Completes (.lwait t rd ra k 0) s fun s' => only (n - 1) s' ∧ goes s' ∧ ∀ x, s'.reg t x = r.reg t x) ∧
      Completes (.ltry t rd ra k 0) s fun s' => only (n - 1) s' ∧ goes s' ∧
        ∀ x, s'.reg t x = if x = rd ∧ rd ≠ 0 then 1 else r.reg t x) ∧
    ((s.th t).state = .run → n = 0 → Completes (.lwait t rd ra k 0) s (WaitsIn t .latch (.latch k.toNat) r) ∧
      ((r.th t).state = .run → Completes (.ltry t rd ra k 0) s (WritesRd t rd 0 ((r.th t).pc + 4) r))) ∧
    ((s.th t).state = .run → Completes (.lread t rd ra k 0) s
      (WritesRd t rd ((s.latchCount (s.th t).ctx k.toNat).zeroExtend 64) ((s.th t).pc + 4) s)) ∧
    (r.clk.aclkOn = true → (r.th t).state = .latch → (r.th t).wait = .latch k.toNat → c < 2 → n ≠ 0 →
      r.firstWaiter t = true → Completes (.latchWaitReady t) s fun s' => only (n - 1) s' ∧ Resumes t r s')

/-- A signal to a latch whose count is 255 is an overflow (R252, R255): the count stays, LATCH_FAULT names the latch, the bank
and the source, and a record of cause LATCH_FAULT is offered to the exception queue. Under LATCHPOL 0 the LSIG goes on; under
LATCHPOL 1 its thread stops at the instruction. r is as in `LatchInstructions`. -/
def LatchOverflow : Prop :=
  ∀ (s : State) (t : Thread) (rd ra : Reg) (k : BitVec 6), s.calm → k.toNat < 48 → (s.th t).state = .run →
    let r := s.signalsAhead
    let c := (r.th t).ctx
    (r.th t).state = .run → c < 2 → r.latchCount c k.toNat = 255 → r.frame.fault.latchPol ≤ 1 →
    Completes (.lsig t rd ra k 0 .clean) s fun s' =>
      s'.latch.counts = r.latch.counts ∧ s'.latch.fLatch = k ∧ s'.latch.fBank = decide (c = 1) ∧ s'.latch.fSource = 2 ∧
      s'.latch.fPend = true ∧ s'.latch.fCount = satInc 16 r.latch.fCount ∧
      (r.sash.excq.length < 16 → Enters (fun x => x.w0.toNat % 256 = 0x12) r s') ∧
      (r.sash.excq.length = 16 → s'.sash.excq.length = 16 ∧ s'.sash.lost = satInc 16 r.sash.lost ∧
        (r.time.now.recs = 0 → s'.sash.excq = r.sash.excq)) ∧
      (r.frame.fault.latchPol = 0 → (s'.th t).pc = (r.th t).pc + 4) ∧
      (r.frame.fault.latchPol = 1 → (s'.th t).pc = (r.th t).pc ∧ (s'.th t).state = .stopped)

/-- Latch instructions and the overflow of a latch (R250 to R255). -/
def Obligations.Latches : Prop := LatchInstructions ∧ LatchOverflow

/-- QSIG and QWAIT of a thread that is RUN, and the end of their waits (R218, R221). QSIG with room in the lane enters it behind
the thread's earlier entries, taking no ISEQ and writing no register; without room it waits in QUEUE. QWAIT goes on when
the thread has no entry in the queue X, or in any for X 15, and else waits in QUEUE; QUEUE_WAIT_DONE ends that wait. LANE_ROOM
enters the plan of a thread that waits for its lane. -/
def Obligations.QueueInstructions : Prop :=
  ∀ (s : State) (t : Thread) (rd ra : Reg) (k x : BitVec 6), s.calm →
    let plan : Plan := { job := .qsig k.toNat, queue := x.toNat, writes := 0, rd := 0, latch := none, tensor := false,
                         bytes := 4 }
    let q := if x.toNat = 15 then none else some x.toNat
    ((s.th t).state = .run → k.toNat < 48 → x.toNat < 11 →
      (s.planRoom t plan = true → Completes (.qsig t rd ra k x) s fun s' => ∃ e : Entry,
        s'.eng.lanes = s.eng.lanes ++ [e] ∧ e.job = .qsig k.toNat ∧ e.queue = x.toNat ∧ e.stream = t ∧ e.latch = none ∧
        e.phase = .queued ∧ (s'.th t).iseq = (s.th t).iseq ∧ (s'.th t).regs = (s.th t).regs ∧
        (s'.th t).pc = (s.th t).pc + 4) ∧
      (s.planRoom t plan = false → (s.th t).stopAsked = false →
        Completes (.qsig t rd ra k x) s (WaitsIn t .queue (.lane plan) s))) ∧
    ((s.th t).state = .run → x.toNat < 11 ∨ x.toNat = 15 →
      (s.queueEmpty t q = true → Completes (.qwait t rd ra k x) s (GoesOn t s)) ∧
      (s.queueEmpty t q = false → Completes (.qwait t rd ra k x) s (WaitsIn t .queue (.queue q) s))) ∧
    ((s.th t).state = .queue → (s.th t).wait = .queue q → s.queueEmpty t q = true →
      Completes (.queueWaitDone t) s (Resumes t s)) ∧
    ((s.th t).state = .queue → ∀ p : Plan, (s.th t).wait = .lane p → s.planRoom t p = true →
      (∀ r, p.job ≠ .root r) → Completes (.laneRoom t) s fun s' => ∃ e : Entry,
        s'.eng.lanes = s.eng.lanes ++ [e] ∧ e.job = p.job ∧ e.queue = p.queue ∧ e.latch = p.latch ∧
        e.iseq = (s.th t).iseq ∧ (s'.th t).pc = (s.th t).pc + BitVec.ofNat 48 p.bytes ∧
        (p.tensor = true → (s'.th t).iseq = (s.th t).iseq + 1 ∧ (p.rd ≠ 0 → s'.reg t p.rd = 0)))

/-! ### The issue of tensor instructions (spec/09) -/

/-- The tensor instructions that resolve their handles at once (R216, R217), each with the fields that R218 works on. UPD.APPLY
reads its record first. -/
def tensorCommands (t : Thread) (rd ra : Reg) (lat : BitVec 6) (ef : BitVec 10) (ef9 : BitVec 9)
    (words : List (BitVec 32)) : List (Instr × Issue) :=
  [(.latMM t rd ra lat ef, issueOf .latMM rd ra lat ef []), (.latMMQ t rd ra lat ef, issueOf .latMMQ rd ra lat ef []),
   (.casw t rd ra lat ef words, issueOf .casw rd ra lat ef words),
   (.trnRelayout t rd ra lat ef9, issueOf .trn rd ra lat (BitVec.ofNat 10 (2 * ef9.toNat)) []),
   (.trnTranspose t rd ra lat ef9, issueOf .trn rd ra lat (BitVec.ofNat 10 (2 * ef9.toNat + 1)) []),
   (.sillSpill t rd ra lat ef, issueOf .spill rd ra lat ef []), (.sillDrain t rd ra lat ef, issueOf .drain rd ra lat ef []),
   (.xferCopy t rd ra lat ef, issueOf .copy rd ra lat ef []), (.updSsq t rd ra lat ef, issueOf .ssq rd ra lat ef []),
   (.dwPut t rd ra lat ef, issueOf .put rd ra lat ef []), (.dwPutFetch t rd ra lat ef, issueOf .put rd ra lat ef []),
   (.dwRed t rd ra lat ef, issueOf .red rd ra lat ef []), (.updAdv t rd ra lat ef, issueOf .adv rd ra lat ef []),
   (.updNorm t rd ra lat ef, issueOf .norm rd ra lat ef []), (.updRoot t rd ra lat ef, issueOf .root rd ra lat ef []),
   (.updRearm t rd ra lat ef, issueOf .rearm rd ra lat ef [])]

/-- The state in which an instruction of thread `t` has fetched its words; only those of a CASW lie behind its first one (R201). -/
def fetchedAt (s : State) (t : Thread) (i : Issue) : State := (s.issuedBy t).fetchWords t i

/-- The state and the operands after step 1 of R218 for an instruction of thread `t`. -/
def resolvedAt (s : State) (t : Thread) (i : Issue) : State × (List (Option Opnd) × Option Resolution) :=
  let z := fetchedAt s t i
  z.resolveAll t (z.handles t i) [] ((z.handles t i).length + 1)

/-- An accepted tensor instruction (R218 steps 1, 2 and 4): its handles resolve, no check refuses it and its lane has room. Its
entry goes behind every entry of the lanes, with the LAT latch and the ISEQ of the instruction; rd takes 0 and no other
register changes; ISEQ grows by 1 and WSEQ by the RMODE-4 writes; the thread goes on behind its words. UPD.ROOT may take a
second place and is stated for the entries that it adds. A CASW with a word outside the instruction cache waits in MEMORY for its
line first (R201). -/
def Obligations.TensorIssueAccepted : Prop :=
  ∀ (s : State) (t : Thread) (rd ra : Reg) (lat : BitVec 6) (ef : BitVec 10) (ef9 : BitVec 9) (words : List (BitVec 32)),
    ∀ c ∈ tensorCommands t rd ra lat ef ef9 words, s.calm → (s.th t).state = .run → c.2.illegal = false →
    let r := resolvedAt s t c.2
    let i := { c.2 with resolved := r.2.1 }
    (((fetchedAt s t c.2).th t).state ≠ .run → Completes c.1 s fun s' => (s'.th t).state = .memory ∧ (s'.th t).wait = .fetch ∧
      (s'.th t).pc = (s.th t).pc ∧ (s'.th t).regs = (s.th t).regs ∧ (s'.th t).iseq = (s.th t).iseq ∧
      s'.eng.lanes = s.eng.lanes) ∧
    (((fetchedAt s t c.2).th t).state = .run → r.2.2 = none → r.1.issuePre t i = none →
    ∀ (p : Plan) (f : Flags), r.1.issueOwn t i = .ok (p, f) → r.1.planRoom t p = true →
    Completes c.1 s fun s' =>
      (∃ e : Entry, ∃ more, s'.eng.lanes = s.eng.lanes ++ e :: more ∧ e.stream = t ∧ e.iseq = (s.th t).iseq ∧
        e.queue = p.queue ∧ e.phase = .queued ∧ e.latch = p.latch ∧ more.length ≤ 1 ∧
        ((∀ j, p.job ≠ .root j) → e.job = p.job ∧ more = [])) ∧
      (s'.th t).iseq = (s.th t).iseq + 1 ∧ (s'.th t).wseq = (s.th t).wseq + BitVec.ofNat 32 p.writes ∧
      (∀ k, s'.reg t k = if k = p.rd then 0 else s.reg t k) ∧
      (s'.th t).pc = (s.th t).pc + BitVec.ofNat 48 p.bytes ∧ p.rd = rd)

/-- A refused tensor instruction (R218 step 3): a status that step 1 or a check gives goes into rd, no lane and no count
changes and the thread goes on behind its words; with rd = s0 it raises ISSUE_REFUSED with the status and, as INFO, the ISEQ
count of the thread. -/
def Obligations.TensorIssueRefused : Prop :=
  ∀ (s : State) (t : Thread) (rd ra : Reg) (lat : BitVec 6) (ef : BitVec 10) (ef9 : BitVec 9) (words : List (BitVec 32)),
    ∀ c ∈ tensorCommands t rd ra lat ef ef9 words, s.calm → (s.th t).state = .run → c.2.illegal = false →
    ((fetchedAt s t c.2).th t).state = .run →
    let r := resolvedAt s t c.2
    let i := { c.2 with resolved := r.2.1 }
    ∀ st : Nat, r.2.2 = some (.bad st) ∨ (r.2.2 = none ∧ (r.1.issuePre t i = some st ∨
      (r.1.issuePre t i = none ∧ r.1.issueOwn t i = .error st))) →
    (rd ≠ 0 → Completes c.1 s fun s' => s'.eng.lanes = s.eng.lanes ∧ (s'.th t).iseq = (s.th t).iseq ∧
      (s'.th t).wseq = (s.th t).wseq ∧ (∀ k, s'.reg t k = if k = rd then BitVec.ofNat 64 st else s.reg t k) ∧
      (s'.th t).pc = (s.th t).pc + BitVec.ofNat 48 i.bytes) ∧
    (rd = 0 → doubleFault s t = false → Completes c.1 s fun s' => s'.eng.lanes = s.eng.lanes ∧
      (s'.th t).state = .stopped ∧ (s'.th t).pc = (s.th t).pc ∧ (s'.th t).iseq = (s.th t).iseq ∧
      (s.sash.excq.length < 16 → Enters (fun x => x.w0.toNat % 256 = 0x07 ∧
        x.w0.toNat / 2 ^ 11 % 256 = st % 256 ∧ x.w2 = (s.th t).iseq.zeroExtend 64) s s'))

/-- UPD.APPLY that R215 and R216 pass and whose record index is below the list's count reads its 32-byte record and waits in
MEMORY for it (R172, R173); an index at or above the count, or a context without an UPDATE section, is refused BAD_RECORD. -/
def Obligations.UpdApplyIssue : Prop :=
  ∀ (s : State) (t : Thread) (rd ra : Reg) (lat : BitVec 6) (ef : BitVec 10), s.calm → (s.th t).state = .run →
    let i := issueOf .apply rd ra lat ef []
    let x := (s.reg t ra).toNat
    i.illegal = false → s.issuePre t i = none →
    (∀ u, s.updCfg (s.th t).ctx = some u → x < u.listCount → Completes (.updApply t rd ra lat ef) s fun s' =>
      (s'.th t).state = .memory ∧ (s'.th t).wait = .record i (s.th t).accesses ∧ (s'.th t).pc = (s.th t).pc ∧
      (s'.th t).regs = (s.th t).regs ∧ s'.eng.lanes = s.eng.lanes ∧
      s'.jamb.reqs = s.jamb.reqs ++ readRange (.record t (s.th t).accesses) .record (u.listBase + 32 * x) 32) ∧
    (rd ≠ 0 → (∀ u, s.updCfg (s.th t).ctx = some u → u.listCount ≤ x) → Completes (.updApply t rd ra lat ef) s fun s' =>
      s'.eng.lanes = s.eng.lanes ∧ (s'.th t).iseq = (s.th t).iseq ∧ s'.reg t rd = 0x0A)

/-! ### Engines and the Mullion (spec/10) -/

/-- What a start leaves before the entry's job acts (R233, R242): the engine holds the entry, and the entry runs with the Louvre
proposals read for it. -/
def started (s : State) (q : Nat) (e : Entry) (lent : Bool) (props : List (Nat × Nat)) : State :=
  (s.modEngine q fun g => { g with
    running := some e.uid, isOpen := false, last := e.stream, lastLent := lent, everStarted := true, gated := false }).modEntry
      e.uid fun x => { x with phase := .running, props := props }

/-- The state after the start of an entry (R233, R71). The cached entries of its tracked operands are read: `props` are the
proposals. A tracked operand that is not cached leaves the entry queued: it asks for the fill (R75). -/
def StartsEntry (i : Instr) (s : State) (q : Nat) (e : Entry) (lent : Bool) : Prop :=
  let z := s.propsRead e.job.tracked
  (∀ props e', z.readProps e e.job.tracked = .ok props → (started z q e lent props).entry e.uid = some e' →
    Completes i s fun s' => s' = ((started z q e lent props).jobStart e' false).sinksGo) ∧
  (∀ c h, z.readProps e e.job.tracked = .error (c, h) → Completes i s fun s' =>
    s' = (z.modEntry e.uid fun x => { x with asked := some (c, h) }).fillAsk c h ∧ s'.eng.engs = s.eng.engs ∧
    s'.fillPending c h = true)

/-- WEAVE_START of an open engine with a record whose queue is not stopped (R233, R240): it starts the head of the lane of the
stream that owns the slot in force; when that lane is empty and LEND is 1, the head of the first non-empty lane in the order of
R240 as a lent start; else nothing. The slot in force is floor(w / 256) mod NSLOTS (R239). -/
def WeaveStart : Prop :=
  ∀ (s : State) (q : Fin 11) (r : MulRec), s.mulRec q = some r → (s.engine q).isOpen = true →
    s.int.qstop.getLsbD q = false →
    let owner := r.owners.getD (s.eng.weave.toNat / 256 % r.nslots) 7
    let starts := StartsEntry (.weaveStart q .clean) s q
    (∀ t e, owner = Thread.num t → s.laneHead q t = some e → starts e false) ∧
    (∀ t, owner = Thread.num t → s.laneHead q t = none → r.lend = true →
      (∀ e, s.firstHead q (streamsFrom (Thread.num t + 1) 3) = some e → starts e true) ∧
      (s.firstHead q (streamsFrom (Thread.num t + 1) 3) = none → Completes (.weaveStart q .clean) s fun s' => s' = s)) ∧
    (4 ≤ owner → r.lend = true → ∀ e, s.firstHead q [.F, .B, .U, .S] = some e → starts e true) ∧
    (r.lend = false → (∀ t, owner = Thread.num t → s.laneHead q t = none) →
      Completes (.weaveStart q .clean) s fun s' => s' = s)

/-- OPEN_WOVEN_START of an open engine without a record whose queue is not stopped (R238): it starts the head of the first
non-empty lane, looking first at the stream behind the one that it started last. An engine with a record is not started by it. -/
def OpenWovenStart : Prop :=
  ∀ (s : State) (q : Fin 11),
    (s.mulRec q = none → (s.engine q).isOpen = true → s.int.qstop.getLsbD q = false →
      (∀ e, s.firstHead q (streamsFrom (Thread.num (s.engine q).last + 1) 4) = some e →
        StartsEntry (.openWovenStart q .clean) s q e false) ∧
      (s.firstHead q (streamsFrom (Thread.num (s.engine q).last + 1) 4) = none →
        Completes (.openWovenStart q .clean) s fun s' => s' = s)) ∧
    (s.mulRec q ≠ none ∨ (s.engine q).isOpen = false ∨ s.int.qstop.getLsbD q = true →
      Completes (.openWovenStart q .clean) s fun s' => s' = s)

/-- The starts of engines with and without a weave record (R233, R238 to R240). -/
def Obligations.EngineStarts : Prop := WeaveStart ∧ OpenWovenStart

/-! ### The Lattice partitions (spec/02, 04) -/

/-- VECTOR_SLOT of a rank that has a vector to inject and whose row bands stand (R87 to R89). z is the state once the feeder and the
weight source have had their part of the slot. When the next vector stands in the row queues, its tile in the cells, and the product
holds a plane, the rank injects it: its Lattice counts one valid slot, the cells hold the vector's tile in their active registers, and
the first vector of the last pass of rank 0 opens the engine (R233). Any other slot counts one bubble. Without a vector, or before the
bands stand, nothing happens. -/
def SlotOutcome : Prop :=
  ∀ (s : State) (p : Fin 8) (rank : Fin 4) (ready : Bool),
    let lat := (s.partLats p).getD rank 0
    let counts := fun w : State => SMap.look w.er.latCnt 0 lat
    let cells := fun w : State => w.weightsAt (s.cellsOf p rank)
    let z := (s.feed p rank ready).loadTile p rank ready
    ({ z with eng := { z.eng with lats := s.eng.lats, cells := s.eng.cells }, int := s.int } = s) ∧
    (∀ r x, s.streaming p rank ≠ none → s.bandsReady p = true → z.streaming p rank = some (r, x) →
      let tile : Tile := { uid := r.uid, pass := r.injected rank / s.rankRows x rank }
      let may := r.injected rank < SMap.look r.fed 0 rank ∧ z.hasPlane p r.uid rank = true ∧
        ((cells z).active = some tile ∨ (cells z).shadow = some tile)
      (may → Completes (.vectorSlot p rank ready .clean) s fun s' =>
        let last := rank.val = 0 ∧ r.injected 0 = (s.passes x - 1) * s.rankRows x 0 ∧
          (s.engine p).running = some r.uid
        s'.eng.lats = updFirst (fun k => k.uid = r.uid)
          (fun k => { k with inj := SMap.put k.inj 0 rank (r.injected rank + 1) }) z.eng.lats ∧
        (cells s').active = some tile ∧
        (counts s').setWidth 32 = ((counts s).setWidth 32 + 1 : BitVec 32) ∧ counts s' >>> 32 = counts s >>> 32 ∧
        (last → (s'.engine p).isOpen = true ∧ (s'.engine p).running = none) ∧ (¬last → s'.eng.engs = s.eng.engs) ∧
        { s' with eng := { s'.eng with lats := z.eng.lats, engs := z.eng.engs, cells := z.eng.cells },
                  er := { s'.er with latCnt := z.er.latCnt } } = z) ∧
      (¬may → Completes (.vectorSlot p rank ready .clean) s fun s' =>
        (counts s').setWidth 32 = ((counts s).setWidth 32 : BitVec 32) ∧
        (counts s' >>> 32).setWidth 32 = ((counts s >>> 32).setWidth 32 + 1 : BitVec 32) ∧
        { s' with er := { s'.er with latCnt := z.er.latCnt } } = z)) ∧
    (s.streaming p rank = none ∨ s.bandsReady p = false →
      Completes (.vectorSlot p rank ready .clean) s fun s' => s' = s)

/-- The parts of the feeder and of the weight source in a slot whose banks answer (R86, R89, R95), for the partition's oldest run. A
vector enters the row queues when they have room, 16 entries or 8 in a split Lattice, and its lines are the most recent of
the reuse store; the shadow registers take the tile of the next vector when the cells do not hold it. -/
def FeederSlot : Prop :=
  ∀ (s : State) (p : Fin 8) (rank : Fin 4) (r : LatRun) (x : Product), (s.runs p).head? = some (r, x) → s.bandsReady p = true →
    let v := max (SMap.look r.fed 0 rank) (r.injected rank)
    let depth := if s.partHalf p then 8 else 16
    v < s.vectorEnd r x rank →
    (v - r.injected rank < depth → Completes (.vectorSlot p rank true .clean) s fun s' => ∃ k ∈ s'.eng.lats, k.uid = r.uid ∧
      SMap.look k.fed 0 rank = v + 1 ∧ ∃ more, SMap.look k.reuse [] rank =
        (s.vectorLines x rank v ++ more).take (if s.partHalf p then 16 else 32)) ∧
    (depth ≤ v - r.injected rank → Completes (.vectorSlot p rank true .clean) s fun s' =>
      ∃ k ∈ s'.eng.lats, k.uid = r.uid ∧ SMap.look k.fed 0 rank = v ∧ k.reuse = r.reuse) ∧
    (r.injected rank < s.passes x * s.rankRows x rank → 0 < s.rankRows x rank →
      let tile : Tile := { uid := r.uid, pass := r.injected rank / s.rankRows x rank }
      Completes (.vectorSlot p rank true .clean) s fun s' =>
        let c := s'.weightsAt (s.cellsOf p rank)
        c.active = some tile ∨ c.shadow = some tile)

/-- A vector slot: the feeder, the weight source and the injection (R86 to R89, R95, R102). -/
def Obligations.VectorSlot : Prop := SlotOutcome ∧ FeederSlot

/-- BLOCK_COMPLETION of an output whose next block's vector is injected (R81, R82, R44): the element starts from +0, or from C's
prior contents with accumulate-in, takes the block of R43 or R45 and has one block more. Its flags go to the stream's flags of
LAT_AFLAGS. The comparison of the half goes on with the column. One that closes with a mismatch stops the queue and marks the entry
LATTICE_FAULT; else neither happens (R51, R52, R96). A Lattice that was left off gives zeros (R357). No byte is stored. -/
def Obligations.BlockCompletion : Prop :=
  ∀ (s : State) (p : Fin 8) (rank : Fin 4) (m n : Nat) (flip : BitVec 72) (r : LatRun) (x : Product) (b : Nat),
    s.blockRun p rank m n = some (r, x, b) →
    let lat := (s.partLats p).getD rank 0
    let prior := if x.accin then w32 (elemBits (s.bytesOf x.c.desc.space []) x.c.desc (latC x.c.desc m n)) else 0
    let key := s.chkKey x m n b
    let o := s.blockOut x m n b (if b = 0 then prior else SMap.look r.acc 0 (accKey m n)) flip
      (SMap.look r.chk SpareCheck.init key)
    let steps := fun (v : BitVec 32) (c : SpareCheck) (s' : State) =>
      s'.eng.lats = updFirst (fun k => k.uid = r.uid) (fun k =>
        { k with acc := SMap.put k.acc 0 (accKey m n) v, blk := SMap.put k.blk 0 (accKey m n) (b + 1),
                 chk := SMap.put k.chk SpareCheck.init key c }) s.eng.lats ∧
      s'.eng.spad = s.eng.spad ∧ s'.eng.sill = s.eng.sill ∧ s'.sash.dmem = s.sash.dmem ∧ s'.eng.panes = s.eng.panes
    (s.latDark lat = true → Completes (.blockCompletion p rank m n flip .clean) s (steps 0 SpareCheck.init)) ∧
    (s.latDark lat = false → Completes (.blockCompletion p rank m n flip .clean) s fun s' => steps o.acc o.chk s' ∧
      s'.er.latAflags = s.er.latAflags ||| BitVec.ofNat 16 (flags4 (flagsOr (if b = 0 then priorFlags prior else noFlags) o.flags)
        <<< (4 * Thread.num x.e.stream)) ∧
      (o.mismatch = false → s'.int.qstop = s.int.qstop ∧ s'.eng.lanes = s.eng.lanes) ∧
      (o.mismatch = true → s'.int.qstop = s.int.qstop ||| BitVec.ofNat 11 (2 ^ p.val) ∧ s'.er.latFaultPend = true ∧
        s'.er.latFaultCause = 1 ∧ ∀ e, s.entry x.e.uid = some e → s'.entry x.e.uid = some (e.fail stLatticeFault)))

/-- The comparison of a half's columns for one row and one block (R50 to R52), for every pairing of the formats from E4M3 to INT8.
It stays open until the last column of the half. With no fault it then matches the spare column, and an inverted bit of one
block accumulator never does. -/
def Obligations.ResidueCheck : Prop :=
  ∀ (s : State) (x : Product) (m n b : Nat) (acc : BitVec 32) (c : SpareCheck), 2 ≤ x.a.desc.fmt → x.a.desc.fmt ≤ 9 →
    2 ≤ x.b.desc.fmt → x.b.desc.fmt ≤ 9 → n < x.n →
    let half := s.halfCols x n
    let others := half.filter fun j => j ≠ n
    let residues := (others.map fun j => accResidue (s.exactBlock x m j b)).sum
    (c.cols + 1 ≠ half.length → ∀ flip, (s.blockOut x m n b acc flip c).mismatch = false) ∧
    (c.cols + 1 = half.length → c.sum % 251 = residues % 251 →
      (s.blockOut x m n b acc 0 c).mismatch = false ∧
      ∀ i < 72, (s.blockOut x m n b acc (1 <<< i) c).mismatch = true)

/-- LATTICE_DRAIN of a rank whose outputs have all their blocks (R83): the values, scaled for plain FP8 and INT8 (R46) and
narrowed in the drain's order, are the writes to C; no other byte of the block changes. An MX block along D1 that other ranks share
takes their rows into its scale, and the rank writes its own elements of it (the model's reading of R48, log entry 51). The rank is
then drained; with its last rank the product ends and waits for its completion. -/
def Obligations.LatticeDrain : Prop :=
  ∀ (s : State) (p : Fin 8) (rank : Fin 4) (r : LatRun) (x : Product), s.drainRun p rank = some (r, x) → x.k ≠ 0 →
    s.latDark ((s.partLats p).getD rank 0) = false →
    let d := x.c.desc
    let lo := rank * s.rankRun x
    let shared := s.sharedOutputs x rank
    let outs := shared.filter (fun o => decide (o.1 < lo)) ++ s.rankOutputs x rank ++ shared.filter fun o => decide (lo ≤ o.1)
    let values := (outs.filter fun o => takes d (latC d o.1 o.2)).map fun o =>
      (latC d o.1 o.2, val32 (x.drained (SMap.look r.acc 0 (accKey o.1 o.2))).1)
    let all := (narrowWrites d (x.e.prop x.c.handle) (srItems (s.srBase x.e x.e.wseq) x.c values)).1
    let writes := all.filter fun w => w.scale || !(s.sharedRows x rank).contains (w.lin / d.n0)
    let last := (s.usedRanks x).all fun k => k = rank.val || r.drained.contains k
    (isMx d.fmt = false → outs = s.rankOutputs x rank ∧ writes = all) ∧
    Completes (.latticeDrain p rank .clean) s fun s' =>
      OnlyTensor d (takes d) s s' ∧
      s'.eng.spad = (s.writeAll x.e.uid 0 d writes).eng.spad ∧ s'.eng.sill = (s.writeAll x.e.uid 0 d writes).eng.sill ∧
      (last = false → s'.eng.lats = updFirst (fun k => k.uid = r.uid)
        (fun k => { k with drained := rank.val :: r.drained }) s.eng.lats) ∧
      (last = true → (∀ k ∈ s'.eng.lats, k.uid ≠ r.uid) ∧
        ∃ e, s'.entry x.e.uid = some e ∧ e.phase = .finished)

/-! ### The Casement, the Transom and the Sill (spec/05, 06) -/

/-- Where the Casement stands behind its operation: the unit's next operation or iteration, or no unit with the engine at its
start point (R143, R233). -/
def casementMoved (r : CasRun) (u : CasUnit) (s s' : State) : Prop :=
  let next : CasRun := if r.pos + 1 < u.body.length then { r with pos := r.pos + 1 } else { r with pos := 0, iter := r.iter + 1 }
  if next.iter < u.iters then s'.eng.cas = some next
  else s'.eng.cas = none ∧ ((s.engine qCas).running = some r.uid →
    (s'.engine qCas).running = none ∧ (s'.engine qCas).isOpen = true)

/-- CASEMENT_OPERATION_START of an arithmetic operation (R130 to R139, R143, R147): an element-wise operation leaves in every
element of its destination Pane the result and the valid bit of R125, CAS_CNT.OPS grows by 1, no other Pane and no byte changes,
and the unit moves on. A fatal check stops the unit with CASEMENT_FAULT instead (R150), and no Pane changes; a mismatch names the group
that the spare duplicates, c mod 32 since the live Frame's commit (R149). -/
def CasementOperation : Prop :=
  ∀ (s : State) (r : CasRun) (x : CasAt) (op : CasOp), s.casNext = some (r, x, op) → op.isPort = false →
    let pd := x.pane op.pd
    let others := fun s' : State => (∀ k, k / 1024 ≠ pd → SMap.look s'.eng.panes 0 k = SMap.look s.eng.panes 0 k ∧
      SMap.look s'.eng.pvalid 0 k = SMap.look s.eng.pvalid 0 k)
    let bytes := fun s' : State => s'.eng.spad = s.eng.spad ∧ s'.eng.sill = s.eng.sill ∧ s'.sash.dmem = s.sash.dmem
    (Completes (.casementOperationStart .clean) s fun s' => others s' ∧ bytes s' ∧ casementMoved r x.u s s' ∧
      s'.er.casOps = s.er.casOps + 1 ∧ s'.eng.casFree = s.time.cycle.toNat + casOccupancy op.op ∧ s'.eng.casLast = some (x.e, op) ∧ s'.eng.casIdle = 0 ∧
      (casIsRed op.op = false → casIsConv op.op = false → op.op ≠ 0x2C → op.op ≠ 0x2D →
        ∀ i < 32, ∀ c < paneCols op.dt, s'.paneEl op.dt pd i c =
          ((s.casEl x op i c).1.v % 2 ^ (if op.dt = 1 then 16 else 32), (s.casEl x op i c).1.valid))) ∧
    (∀ d, x.e.phase = .running → s.entry x.e.uid = some x.e → Completes (.casementOperationStart (.fatal d)) s fun s' =>
      s'.eng.panes = s.eng.panes ∧ bytes s' ∧ s'.eng.cas = none ∧ s'.er.casFaultPend = true ∧
      (d.toNat / 2 ^ 14 = 0 → s'.er.casFaultCause = 3 ∧ s'.er.casFaultGroup = BitVec.ofNat 5 (s.time.sinceCommit % 32)) ∧
      ∃ e, s'.entry x.e.uid = some e ∧ e.phase = .finished ∧ e.errStatus = (x.e.fail stCasementFault).errStatus)

/-- CASEMENT_UNIT_COMPLETE finishes the entry of a unit whose operations are done (R147). IDLE_REPLAY replays the last operation in a
cycle of ACLK in which none has started or been replayed, for at most 32 cycles, and changes nothing else but that cycle's
note; a mismatch names the group c mod 32 (R149, R382). -/
def CasementEnds : Prop :=
  (∀ (s : State) (e : Entry), s.casEnding = some e → Completes .casementUnitComplete s fun s' =>
    (∃ e', s'.entry e.uid = some e' ∧ e'.phase = .finished) ∧ s'.eng.panes = s.eng.panes ∧ s'.eng.spad = s.eng.spad ∧
    ((s.engine qCas).running = some e.uid → e.queue = qCas → s.entry e.uid = some e → (s'.engine qCas).isOpen = true)) ∧
  ∀ (s : State) (e : Entry) (op : CasOp), s.eng.casLast = some (e, op) →
    let replays := s.clk.aclkOn = true ∧ s.time.now.casBusy = false ∧ 1 ≤ s.eng.casIdle ∧ s.eng.casIdle ≤ 32
    (replays → Completes (.idleReplay .clean) s (fun s' =>
        s' = { s with time := { s.time with now := { s.time.now with casBusy := true } } }) ∧
      ∀ d : BitVec 16, d.toNat < 2 ^ 14 → Completes (.idleReplay (.fatal d)) s fun s' => s'.er.casFaultPend = true ∧
        s'.er.casFaultCause = 3 ∧ s'.er.casFaultGroup = BitVec.ofNat 5 (s.time.sinceCommit % 32) ∧
        s'.eng.panes = s.eng.panes ∧ s'.int.stat.getLsbD 0 = true) ∧
    (¬replays → ∀ u, Completes (.idleReplay u) s fun s' => s' = s)

/-- The arithmetic operations of the Casement, the end of its units and its idle replay (R130 to R147, R382). -/
def Obligations.CasementArithmetic : Prop := CasementOperation ∧ CasementEnds

/-- CASEMENT_PORT_ACCESS (R140 to R142, R148): an LD leaves in every element of its Pane what R141 says of the tensor element at
its position, and changes no byte; an ST changes only bytes of elements that its tensor takes, and no Pane. Either moves the unit
on. An ST through the egress Louvre whose copies disagree marks its entry CASEMENT_FAULT and stops no queue (R380, R388). -/
def Obligations.CasementPort : Prop :=
  ∀ (s : State) (r : CasRun) (x : CasAt) (op : CasOp) (o : Opnd), s.casNext = some (r, x, op) → op.opnd = some o →
    (op.op = 0x30 → Completes (.casementPortAccess .clean) s fun s' =>
      s'.eng.spad = s.eng.spad ∧ s'.eng.sill = s.eng.sill ∧ casementMoved r x.u s s' ∧
      ∀ i < 32, ∀ c < paneCols op.dt, s'.paneEl op.dt (x.pane op.pd) i c =
        let e := s.ldOne x o.desc (x.e.prop o.handle) op.dt i c
        (e.1.v % 2 ^ (if op.dt = 1 then 16 else 32), e.1.valid)) ∧
    (op.op = 0x31 → Completes (.casementPortAccess .clean) s fun s' =>
      s'.eng.panes = s.eng.panes ∧ s'.eng.pvalid = s.eng.pvalid ∧ OnlyTensor o.desc (takes o.desc) s s' ∧
      casementMoved r x.u s s' ∧
      (x.inLoop = true → op.pc % 2 = 1 → x.last = false → s'.eng.spad = s.eng.spad ∧ s'.eng.sill = s.eng.sill) ∧
      (op.dt ≠ 1 → x.inLoop = false ∨ op.pc % 2 ≠ 1 ∨ x.last = true →
        let els := (s.stElems x op o.desc).map fun q => ({ x := q.1, v := val32 (w32 q.2), u := s.stU x op o q.1 } : Item)
        s'.eng.spad = (s.writeAll x.e.uid op.pa o.desc (narrowWrites o.desc (x.e.prop o.handle) els).1).eng.spad) ∧
      (o.desc.lvEn = true → x.inLoop = false ∨ op.pc % 2 ≠ 1 ∨ x.last = true → ∀ d, s.upsetAt .louvre = .fatal d →
        s.entry x.e.uid = some x.e → x.e.errStatus = 0 → s.alarmMask = 0 → s'.int.qstop = s.int.qstop ∧
        s'.int.stat.getLsbD 0 = true ∧ ∃ e, s'.entry x.e.uid = some e ∧ e.errStatus = stCasementFault))

/-- TRANSOM_COMPLETE of an instruction whose source has arrived (R106, R108): the destination takes the bits of the source's
elements, D0 and D1 exchanged for a transpose, and nothing else of the block's bytes changes. With its destination in the block
the instruction finishes. -/
def Obligations.TransomMoves : Prop :=
  ∀ (s : State) (e : Entry) (tr : Bool) (a d : Opnd), s.transomRun = some (e, tr, a, d) → e.aborted = false → e.rdWait = 0 →
    e.formed = false → e.errStatus = 0 → s.entry e.uid = some e →
    Completes (.transomComplete .clean) s fun s' =>
      OnlyTensor d.desc (fun _ => true) s s' ∧
      (d.desc.space ≠ 0 → e.wrWait = 0 → e.tagWait = 0 → ∃ e', s'.entry e.uid = some e' ∧ e'.phase = .finished) ∧
      (d.desc.space = 1 → isMx d.desc.fmt = false → footOverlap a.desc d.desc = false → s.transomDark = false →
        s'.eng.spad = (s.writeAll e.uid 0 d.desc ((takenCoords d.desc).map fun x => elemWrite d.desc x
          (elemBits (s.bytesOf a.desc.space e.got) a.desc (if tr then { x with x0 := x.x1, x1 := x.x0 } else x)))).eng.spad)

/-- SILL_READ_OUT of a spill or drain whose reads have arrived (R115, R118): each element that it reads out is zero in the Sill
afterwards, no other byte of the Sill changes, and the squares and writes of a drain reach only its destination. A spill STORE whose
values the copies of the ALU do not agree on forms no request and takes SPILL_FAULT (R334, R383). -/
def Obligations.SillReadOut : Prop :=
  ∀ (s : State) (e : Entry), s.sillReader = some e → s.sillDark = false → s.entry e.uid = some e → e.errStatus = 0 →
    let cleared := fun (hs : Opnd) (s' : State) =>
      let words := (takenCoords hs.desc).map fun x => (elemAddr hs.desc x).1 / 4
      ∀ a, SMap.look s'.eng.sill 0 a = if a / 4 ∈ words then 0 else SMap.look s.eng.sill 0 a
    (∀ hs hm store, e.job = .spill hs hm store → Completes (.sillReadOut .clean) s fun s' =>
      cleared hs s' ∧ s'.eng.spad = s.eng.spad ∧ s'.sash.dmem = s.sash.dmem ∧
      (∀ d, store = true → s.upsetAt .alu = .fatal d → s'.jamb.reqs = s.jamb.reqs ∧ s'.int.stat.getLsbD 0 = true ∧
        ∃ e', s'.entry e.uid = some e' ∧ e'.errStatus = stSpillFault)) ∧
    (∀ hs hd acc, e.job = .drain hs hd acc → hd.desc.space ≠ 2 → Completes (.sillReadOut .clean) s fun s' =>
      cleared hs s' ∧ (∀ a, hd.desc.space ≠ 1 ∨ a ∉ tensorAddrs hd.desc (takes hd.desc) →
        SMap.look s'.eng.spad 0 a = SMap.look s.eng.spad 0 a) ∧ s'.sash.dmem = s.sash.dmem)

/-! ### Completion and the inverse root (spec/08, 09) -/

/-- COMPLETION of a lane's head that has finished and has no commit left (R219): the entry leaves its lane; a status that is not OK
goes to QERR of its stream and queue with the count and PEND; one of the fault class raises COMPLETION_FAULT; the LAT latch is
signalled, and so is the latch of a QSIG, whatever the status (R253). An aborted entry completes with ABORTED, else with its fault,
else with its own status. An entry that has not finished and takes time does not complete. -/
def Obligations.CompletionOfHead : Prop :=
  ∀ (s : State) (q : Fin 11) (t : Thread) (e : Entry), (s.lane q t).head? = some e → s.entry e.uid = some e →
    (e.phase = .finished → e.commits = [] → (∀ j, e.job ≠ .norm j) → s.rpl.active = false →
      let st := if e.aborted then stAborted else if e.errStatus ≠ 0 then e.errStatus else e.status
      Completes (.completion q t) s fun s' =>
        (∀ x ∈ s'.eng.lanes, x.uid ≠ e.uid) ∧
        (∀ k, SMap.look (s'.th t).qerr 0 k =
          if k = q.val ∧ st ≠ 0 then qerrWord (SMap.look (s.th t).qerr 0 k) st e.iseq else SMap.look (s.th t).qerr 0 k) ∧
        ((∀ k, e.job ≠ .qsig k) → ∀ k, e.latch = some k → s.latchCount e.ctx k ≠ 255 →
          s'.latchCount e.ctx k = s.latchCount e.ctx k + 1) ∧
        (∀ k, e.job = .qsig k → e.latch = none → s.latchCount e.ctx k ≠ 255 →
          s'.latchCount e.ctx k = s.latchCount e.ctx k + 1) ∧
        (isFaultClass st = true → e.latch = none → (∀ k, e.job ≠ .qsig k) → s.sash.excq.length < 16 →
          Enters (fun x => x.w0.toNat % 256 = 0x10 ∧ x.w0.toNat / 2 ^ 19 % 16 = q.val ∧ x.w2 = e.iseq.zeroExtend 64) s s')) ∧
    (e.phase = .queued → e.job.zeroTime = false → (∀ h ∈ s.eng.skipHold, h.1 ≠ e.uid) →
      Completes (.completion q t) s fun s' => s' = s)

/-- A slice that a root computation has written holds the matrix (R189): for a BF16 workspace in the scratchpad whose elements of the
slice are taken and lie apart. -/
def SliceHolds : Prop :=
  ∀ (s : State) (uid k : Nat) (d : Desc) (sl : Nat) (m : Matrix), d.space = 1 → d.fmt = 1 → s.pwr.leftOff = [] →
    (∀ i j, i < m.length → j < m.length → takes d (sliceCoord sl i j) = true) →
    (∀ i j i' j', i < m.length → j < m.length → i' < m.length → j' < m.length → (i, j) ≠ (i', j') →
      let a := (elemAddr d (sliceCoord sl i j)).1
      let b := (elemAddr d (sliceCoord sl i' j')).1
      a + 2 ≤ b ∨ b + 2 ≤ a) →
    (∀ r ∈ m, r.length = m.length ∧ ∀ v ∈ r, v < 2 ^ 16) →
    (s.sliceWrite uid k d sl m).sliceRead d m.length sl = m

/-- ROOT_ITERATION_CHECK of a computation whose engines its next step may use (R189, R190). Its first check writes M and X into
the workspace, or fails at once with LASTIT 0 when the norm of S is zero or not finite. A check takes T of the workspace's M; the
workspace takes T, X T, T T, with p = 4 its square, and T^p M as T, X, Y, Z and M. A matrix that is not finite, or the last iteration
without convergence, ends it with ROOT_FAIL: ROOTFAIL is set, LASTIT is the iteration, FALLBACK is set when FAILS was 0, FAILS counts,
and Q keeps its bytes. All elements of M within TOL of the identity end it with OK: Q takes X and LASTIT is the iteration. Else it goes
on and both engines are open. Only Q and the workspace change. -/
def RootCheck : Prop :=
  ∀ (s : State) (t : Thread) (run : RootRun) (e : Entry) (r : RootJob), s.calm → s.rootReady t = some (run, e, r) →
    run.uid ≠ run.partUid → s.entry run.uid = some e →
    let n := r.s.desc.n0
    let w := r.w.desc
    let put := fun (z : State) (sl : Nat) (m : Matrix) => z.sliceWrite e.uid 1 w sl m
    let z := match run.begun, (s.rootInit r).1 with
      | false, some (m, x) => put (put s slM m) slX x
      | _, _ => s
    let dark := s.rootDark r.part n
    let m := z.sliceRead w n slM
    let tt := (matT n r.fourth m).1
    let x := (matMul dark n (z.sliceRead w n slX) tt).1
    let y := (matMul dark n tt tt).1
    let zz := if r.fourth then (matMul dark n y y).1 else y
    let m' := (matMul dark n zz m).1
    let written := put (if r.fourth then put (put (put (put z slT tt) slX x) slY y) slZ zz
      else put (put (put z slT tt) slX x) slY y) slM m'
    let finite := matFinite x && matFinite m'
    let close := matClose n (val32 r.tol) m'
    let group := fun z : State => z.groupState e.ctx r.group
    let ended := fun (st : Nat) (s' : State) => (∃ e', s'.entry run.uid = some e' ∧ e'.phase = .finished ∧ e'.status = st) ∧
      (∀ k ∈ s'.eng.roots, k.uid ≠ run.uid) ∧ s'.entry run.partUid = none
    let fails := fun (it : Nat) (s' : State) => ended stRootFail s' ∧ group s' = { group s with
      rootFail := true, lastIt := it, fallback := (group s).fallback || decide ((group s).fails = 0),
      fails := satInc 16 (group s).fails }
    (run.begun = false → (s.rootInit r).1 = none → Completes (.rootIterationCheck t) s fun s' =>
      s'.eng.spad = s.eng.spad ∧ fails 0 s') ∧
    (run.begun = true ∨ (s.rootInit r).1 ≠ none → Completes (.rootIterationCheck t) s fun s' =>
      (∀ a, a ∉ tensorAddrs r.w.desc (takes r.w.desc) → a ∉ tensorAddrs r.q.desc (takes r.q.desc) →
        SMap.look s'.eng.spad 0 a = SMap.look s.eng.spad 0 a) ∧
      (finite = true → close = true → s'.eng.spad = (written.sliceWrite e.uid 0 r.q.desc 0 x).eng.spad ∧ ended 0 s' ∧
        group s' = { group s with lastIt := run.iter + 1 }) ∧
      (finite = false ∨ (close = false ∧ r.maxIt ≤ run.iter + 1) →
        s'.eng.spad = written.eng.spad ∧ fails (run.iter + 1) s') ∧
      (finite = true → close = false → run.iter + 1 < r.maxIt → s'.eng.spad = written.eng.spad ∧ group s' = group s ∧
        s'.eng.roots = updFirst (fun k => k.uid = run.uid) (fun k => { k with iter := run.iter + 1, begun := true }) s.eng.roots ∧
        ((s.engine qCas).running = some run.uid → (s'.engine qCas).isOpen = true ∧ (s'.engine qCas).running = none)))

/-- The inverse root: an iteration with its outcome, and the workspace's slices (R189, R190). -/
def Obligations.RootIteration : Prop := RootCheck ∧ SliceHolds

/-! ### The memory port (spec/14) -/

/-- JAMB_REQUEST_ISSUE (R326, R329, R330): the issued request is one of those that wait and may be issued; one that has waited 64
cycles goes before any that has not, and else the pools go in the order control, sink, general. It is outstanding under its tag,
RD or WR of JAMB_CNT grows by 1, and no byte, register or thread changes. -/
def Obligations.JambIssue : Prop :=
  ∀ (s : State) (tag : BitVec 16) (i : Nat) (r : JReq), s.nextReq = some (i, r) →
    s.jamb.reqs[i]? = some r ∧ s.reqReady (s.jamb.reqs.take i) r = true ∧
    (∀ p ∈ s.readyReqs, agedAt ≤ p.2.age → agedAt ≤ r.age) ∧
    ((∀ p ∈ s.readyReqs, p.2.age < agedAt) → ∀ p ∈ s.readyReqs, r.pool.rank ≤ p.2.pool.rank) ∧
    (s.jambOn = true → s.tagMay r (r.keep.getD tag.toNat) = true → Completes (.jambRequestIssue tag .clean) s fun s' =>
      s'.jamb.tags = s.jamb.tags ++ [{ tag := r.keep.getD tag.toNat, req := r, ticks := 0 }] ∧
      s'.jamb.reqs = s.jamb.reqs.eraseIdx i ∧
      s'.jamb.reads = (if r.write then s.jamb.reads else s.jamb.reads + 1) ∧
      s'.jamb.writes = (if r.write then s.jamb.writes + 1 else s.jamb.writes) ∧
      { s' with jamb := s.jamb, eng := { s'.eng with engs := s.eng.engs } } = s)

/-- JB_R_RESPONSE, JB_B_RESPONSE and TAG_TIMEOUT (R325, R331, R332). While Jamb's domain is off or in reset its inputs are ignored
(R343). An answer without an outstanding request of its kind counts in STRAY and ends the tag's quarantine, and nothing else happens; an
answered request frees its tag. An error code and a request without an answer for TIMEOUT ticks are recorded in JAMB_FAULT, and the
timed-out tag is quarantined with the pool that it belongs to. -/
def JambResponses : Prop :=
  ∀ (s : State) (tag : BitVec 16) (data : List Byte) (code : BitVec 2), s.calm →
    let stray := fun s' : State => s' = { s with jamb := { s.jamb with
      quarantine := s.jamb.quarantine.filter fun t => t.1 ≠ tag.toNat, stray := satInc 14 s.jamb.stray } }
    let fault := fun (g : JTag) (cause : BitVec 3) (s' : State) => s'.jamb.faultPend = true ∧ s'.jamb.faultCause = cause ∧
      s'.jamb.faultAddr = BitVec.ofNat 48 (256 * g.req.block) ∧ s'.jamb.faultClient = BitVec.ofNat 4 g.req.client.code ∧
      s'.jamb.faultCount = satInc 8 s.jamb.faultCount
    let live := s.domOn 78 = true ∧ 7 ≤ s.boot.stage
    (¬live → Completes (.jbRResponse tag data code .clean) s (fun s' => s' = s) ∧
      Completes (.jbBResponse tag code) s fun s' => s' = s) ∧
    (live → s.tagOf tag.toNat = none →
      Completes (.jbRResponse tag data code .clean) s stray ∧ Completes (.jbBResponse tag code) s stray) ∧
    (live → ∀ g, s.tagOf tag.toNat = some g →
      (g.req.write = true → Completes (.jbRResponse tag data code .clean) s stray) ∧
      (g.req.write = false → Completes (.jbBResponse tag code) s stray) ∧
      (g.req.write = false → Completes (.jbRResponse tag data code .clean) s fun s' => s'.tagOf tag.toNat = none ∧
        (code = 2 → fault g 2 s') ∧ (code = 1 ∨ code = 3 → fault g 1 s')) ∧
      (g.req.write = true → Completes (.jbBResponse tag code) s fun s' => s'.tagOf tag.toNat = none ∧
        (code = 2 → fault g 2 s') ∧ (code = 1 ∨ code = 3 → fault g 1 s'))) ∧
    (∀ g, s.tagOf tag.toNat = some g →
      (g.ticks < max 10 s.jamb.timeout.toNat → Completes (.tagTimeout tag) s fun s' => s' = s) ∧
      (max 10 s.jamb.timeout.toNat ≤ g.ticks → Completes (.tagTimeout tag) s fun s' => s'.tagOf tag.toNat = none ∧
        (tag.toNat, g.req.pool) ∈ s'.jamb.quarantine ∧ fault g 3 s'))

/-- The answer of an MLD (R211): rd takes the 8 bytes at the address, the first the least significant, s0 discards them, and
the thread goes on behind the instruction; an error stops it with MEM_ACCESS and the address. The answer of another MLD of the thread,
one that it was stopped in, leaves it waiting. -/
def MldAnswer : Prop :=
  ∀ (s : State) (tag : BitVec 16) (data : List Byte) (g : JTag) (t : Thread) (a n : Nat) (rd : Reg), s.calm → s.jambLive = true →
    s.tagOf tag.toNat = some g → g.req.write = false → g.req.owner = .mld t a n → a % 8 = 0 →
    g.req.block = a / 256 → g.req.smask.getLsbD (a % 256 / 32) = true → data.length = 256 → s.rpl.active = false →
    ((s.th t).wait = .mld rd n → Completes (.jbRResponse tag data 0 .clean) s fun s' =>
      (∀ k, s'.reg t k = if k = rd ∧ rd ≠ 0 then w64 (leNat ((data.drop (a % 256)).take 8)) else s.reg t k) ∧ Resumes t s s') ∧
    ((s.th t).wait = .mld rd n → doubleFault s t = false → s.sash.excq.length < 16 →
      Completes (.jbRResponse tag data 2 .clean) s fun s' =>
        (s'.th t).state = .stopped ∧ (s'.th t).regs = (s.th t).regs ∧ (s'.th t).pc = (s.th t).pc ∧
        Enters (fun x => x.w0.toNat % 256 = 0x06 ∧ x.w2 = w64 a) s s') ∧
    (∀ m, m ≠ n → (s.th t).wait = .mld rd m → Completes (.jbRResponse tag data 0 .clean) s fun s' => s'.th t = s.th t)

/-- The answers of memory, errors and timeouts (R211, R325, R331, R332). -/
def Obligations.JambAnswers : Prop := JambResponses ∧ MldAnswer

/-! ### The Doorway (spec/13) -/

/-- PACKET_TRANSMIT of an UP link (R296, R297, R300 to R302): the packet may go, with its credit, a tag when it takes one and room in
the replay buffer; it is the first of its class that may, and no class before it in drain order has one. It goes behind those sent
with the class's next SEQ, and its first sending takes a credit and, for a packet of this core's own, its tag; a packet of another
core then leaves its receive buffer. With none that may go a NULL is driven, with no SEQ. What leaves is the packet's bytes with the
trailer that is due. A link that is not UP sends nothing. -/
def Obligations.PacketTransmit : Prop :=
  ∀ (s : State) (l : Fin 6) (tag : BitVec 16),
    let k := s.link l
    let free := s.doorTagFree tag.toNat
    (k.state ≠ .up → Completes (.packetTransmit l tag) s fun s' => s' = s) ∧
    (k.state = .up → (∀ y ∈ k.ready, y.canGo k l free = false) → Completes (.packetTransmit l tag) s fun s' =>
      (∃ p, (s'.link l).lastTx = some (packetWire p k.trailerNow) ∧ p.cls = clsMgt ∧ p.kind = 0 ∧ p.seq = 0 ∧ p.payload = []) ∧
      (s'.link l).ready = k.ready ∧ (s'.link l).sent = k.sent ∧ (s'.link l).txSeq = k.txSeq ∧ (s'.link l).credit = k.credit ∧
      { s' with door := { s'.door with links := s.door.links } } = s) ∧
    (∀ x, k.state = .up → k.nextTx l free = some x →
      x ∈ k.ready ∧ x.canGo k l free = true ∧
      (∀ y ∈ k.ready, y.pkt.cls.val < x.pkt.cls.val → y.canGo k l free = false) ∧
      (∃ a b, k.ready = a ++ x :: b ∧ ∀ y ∈ a, y.pkt.cls = x.pkt.cls → y.canGo k l free = false) ∧
      Completes (.packetTransmit l tag) s fun s' =>
        let c := x.pkt.cls.val
        let first := decide (x.sends = 0)
        let q : Packet := { x.pkt with
          seq := if first then SMap.look k.txSeq 0 c else x.pkt.seq
          tag := if x.needsTag then BitVec.ofNat 16 tag.toNat else x.pkt.tag }
        (s'.link l).ready = dropFirst (fun y => decide (y = x)) k.ready ∧
        (s'.link l).sent = k.sent ++ [{ x with pkt := q, sends := x.sends + 1, slot := none }] ∧
        (x.cameBy l ≠ some l.val → (s'.link l).lastTx = some (packetWire q k.trailerNow)) ∧
        SMap.look (s'.link l).txSeq 0 c = (if first then SMap.look k.txSeq 0 c + 1 else SMap.look k.txSeq 0 c) ∧
        SMap.look (s'.link l).credit 0 c = (if first then SMap.look k.credit 0 c - 1 else SMap.look k.credit 0 c) ∧
        (∀ f, f < 6 → f ≠ l.val → x.cameBy l = some f → first = true → x.pkt.cls ≠ clsSig →
          SMap.look (s'.link f).freed 0 c = SMap.look (s.link f).freed 0 c + 1) ∧
        (∀ uid, x.origin = .own uid → first = true → ∃ g, s'.door.tags = s.door.tags ++ [g] ∧ g.tag = tag.toNat ∧
          g.link = l.val ∧ g.uid = uid))

/-- MGT_NULL (R293, R294): it has a trailer only. Its acknowledgement ends the packets before it, and each cumulative credit count
adds what is new in it. -/
def NullReception : Prop :=
  ∀ (s : State) (l : Fin 6) (w : Wire) (c : Fin 6) (q : BitVec 16), s.door.held = false → s.door.sinks = [] →
    (s.link l).state = .up → wireCrcOk w = true → wireResv w = false →
    (wireTrailer w).ack = some (c, q) → (wireTrailer w).nak = none → Completes (.mgtNull l w) s fun s' =>
      (s'.link l).sent = (s.link l).sent.filter (fun x => !(decide (x.pkt.cls.val = c.val) && seqBefore x.pkt.seq q)) ∧
      (s'.link l).rxSeq = (s.link l).rxSeq ∧
      (∀ i < 6, SMap.look (s'.link l).credit 0 i = SMap.look (s.link l).credit 0 i +
        (BitVec.ofNat 16 (wireTail w (1 + i / 4) (16 * (i % 4)) 16) - SMap.look (s.link l).creditSeen 0 i).toNat) ∧
      { s' with door := { s'.door with links := s.door.links } } = s

/-- A packet that arrives at a core with empty receive buffers (R290, R294, R302, R320), for every row that brings one with a SEQ.
The Wicket of a core in reset joins the ring links, and nothing else happens; nor does anything on a link that is not UP. A CRC
that does not match is counted and answered with a NAK of every class. A reserved field resets the link with cause 7. A packet out
of sequence is answered with a NAK and changes no byte. MGT_RESET in sequence resets the link with cause 8. -/
def PacketChecks : Prop :=
  ∀ (s : State) (l : Fin 6) (x : Nat) (w : Wire), s.door.sinks = [] → ∀ c ∈ packetCommands l x w,
    let k := s.link l
    let row := c.2.cls.val
    (s.door.held = true → Completes c.1 s fun s' =>
      { s' with door := { s'.door with links := s.door.links } } = s ∧
      (l.val < 2 → (s'.link (pairLink l)).lastTx = some w) ∧ (2 ≤ l.val → s' = s)) ∧
    (s.door.held = false → k.state ≠ .up → Completes c.1 s fun s' => s' = s) ∧
    (s.door.held = false → k.state = .up → wireCrcOk w = false → Completes c.1 s fun s' =>
      (s'.link l).crcErr = satInc 16 k.crcErr ∧ (∀ i < 6, (i, SMap.look k.rxSeq 0 i) ∈ (s'.link l).nakDue) ∧
      (s'.link l).rxSeq = k.rxSeq ∧ { s' with door := { s'.door with links := s.door.links } } = s) ∧
    (s.door.held = false → k.state = .up → wireCrcOk w = true → wireResv w = true → Completes c.1 s (WasReset l 7 s)) ∧
    (Arrives l w s → SMap.look k.rxSeq 0 row ≠ c.2.seq → Completes c.1 s fun s' =>
      (row, SMap.look k.rxSeq 0 row) ∈ (s'.link l).nakDue ∧ (s'.link l).rxSeq = k.rxSeq ∧
      { s' with door := { s'.door with links := s.door.links } } = s) ∧
    (Arrives l w s → SMap.look k.rxSeq 0 row = c.2.seq → c.2.cls = clsMgt → Completes c.1 s (WasReset l 8 s))

/-- A packet in sequence for another core (R302, R297) is counted as received, and one of a far link lies in its receive area. From a
ring link it goes on over the other one with a hop more, from another link it enters the ring, and its buffer stays full until it
has left. After 32 hops, or with no ring link UP to go on by, it is dropped: its buffer is free, and unless it is an RSP its sender
gets an error. Identities 0 and 0xFFFF belong to no core (R291). -/
def PacketPassing : Prop :=
  ∀ (s : State) (l : Fin 6) (x : Nat) (w : Wire), s.door.sinks = [] → Arrives l w s → ∀ c ∈ packetCommands l x w,
    let k := s.link l
    let row := c.2.cls.val
    SMap.look k.rxSeq 0 row = c.2.seq → c.2.cls ≠ clsMgt →
    (c.2.dst ≠ s.door.node ∨ c.2.dst = 0 ∨ c.2.dst = 0xFFFF) →
    let taken := fun s' : State => SMap.look (s'.link l).rxSeq 0 row = c.2.seq + 1 ∧ (row, c.2.seq + 1) ∈ (s'.link l).ackDue ∧
      s'.eng.spad = (s.areaWrite l (s.areaSlot l row) w).eng.spad ∧ s'.eng.sill = s.eng.sill ∧ s'.door.sinks = [] ∧
      (l.val < 4 → { s' with door := { s'.door with links := s.door.links } } = s)
    let goesOn := fun (m : Nat) (q : Packet) (o : TxOrigin) (s' : State) => taken s' ∧ (s'.link l).freed = k.freed ∧
      ∃ y, (s'.link m).ready = (s.link m).ready ++ [y] ∧ y.pkt = q ∧ y.origin = o ∧ y.sends = 0
    let dropped := fun s' : State => taken s' ∧
      (c.2.cls ≠ clsSig → SMap.look (s'.link l).freed 0 row = SMap.look k.freed 0 row + 1) ∧
      (c.2.cls ≠ clsRsp → ∃ y ∈ (s'.link l).ready, y.pkt.cls = clsRsp ∧ y.pkt.kind = 0 ∧ y.pkt.tag = c.2.tag ∧
        y.pkt.dst = c.2.src ∧ y.pkt.err = true)
    (l.val < 2 → c.2.hops.toNat ≠ 32 → (s.link (pairLink l)).state = .up →
      Completes c.1 s (goesOn (pairLink l) { c.2 with hops := c.2.hops + 1 } .forward)) ∧
    (l.val < 2 → (c.2.hops.toNat = 32 ∨ (s.link (pairLink l)).state ≠ .up) → Completes c.1 s dropped) ∧
    (2 ≤ l.val → ∀ r, s.injectLink = some r → Completes c.1 s (goesOn r c.2 (.inject l))) ∧
    (2 ≤ l.val → (s.link 0).state ≠ .up → (s.link 1).state ≠ .up → Completes c.1 s dropped)

/-- Packets that arrive (R290, R293, R294, R297, R300, R302, R313, R320). -/
def Obligations.PacketReception : Prop := NullReception ∧ PacketChecks ∧ PacketPassing

/-- A packet of WR, SIG, RED or RD for a core whose ACLK stands waits in its buffer, no byte changes, and one of a ring or near link
wakes a parked core (01 R23, 15 R369). -/
def PacketWaits : Prop :=
  ∀ (s : State) (l : Fin 6) (x : Nat) (w : Wire), s.clk.aclkOn = false → s.door.sinks = [] → Arrives l w s →
    s.isMine (wirePacket w) = true → ∀ c ∈ packetCommands l x w, c.2.cls ≠ clsRsp → c.2.cls ≠ clsMgt →
    SMap.look (s.link l).rxSeq 0 c.2.cls.val = c.2.seq → Completes c.1 s fun s' =>
      (∃ y, s'.door.sinks = [y] ∧ y.pkt = c.2 ∧ y.link = l.val ∧ y.begun = false) ∧ s'.eng = s.eng ∧
      (s'.link l).freed = (s.link l).freed ∧ s'.pwr = (if l.val < 4 then s.wakeAsk.pwr else s.pwr)

/-- Packets for this core that are in sequence, with no other in the buffers and ACLK on (R298, R301, R313). An acknowledgement frees
its tag and counts one packet of its entry as answered, with REMOTE_FAULT when it has ERR. A WR or SIG packet whose context is held by
no plane is answered with ERR and changes no byte but those of its buffer; one whose elements lie in the scratchpad is written there
and answered. -/
def PacketSinking : Prop :=
  ∀ (s : State) (l : Fin 6) (xf : Nat) (w : Wire), s.calm → s.clk.aclkOn = true → Arrives l w s → s.door.sinks = [] →
    let p := wirePacket w
    s.isMine p = true →
    let inSeq := fun c : Nat => SMap.look (s.link l).rxSeq 0 c = p.seq
    let answered := fun (err : Bool) (s' : State) => ∃ x ∈ (s'.link l).ready, x.pkt.cls = clsRsp ∧ x.pkt.kind = 0 ∧
      x.pkt.tag = p.tag ∧ x.pkt.dst = p.src ∧ x.pkt.err = err
    (inSeq clsRsp.val → ∀ g e, s.tagEntry p.tag.toNat = some (g, e) → s.redOf e.uid = none →
      (∀ loc route, e.job = .put loc route → bitN route.toNat 34 = false) → Completes (.rspAck l w) s fun s' =>
        (∀ y ∈ s'.door.tags, y.tag ≠ g.tag) ∧ ∃ e', s'.entry e.uid = some e' ∧ e'.tagWait = e.tagWait - 1 ∧
          e'.errStatus = if p.err then (e.fail stRemoteFault).errStatus else e.errStatus) ∧
    (∀ c ∈ [(Instr.wrData l ⟨xf, w⟩, asRow p clsWr 0), (.sigTerminal l ⟨xf, w⟩, asRow p clsSig 0)], inSeq c.2.cls.val →
      let held := s.areaWrite l (s.areaSlot l c.2.cls.val) w
      (s.ctxSlot p.ctxid = none → Completes c.1 s fun s' => answered true s' ∧ s'.eng.spad = held.eng.spad ∧
        s'.eng.sill = s.eng.sill ∧ s'.door.sinks = []) ∧
      (∀ x d i n, x = ({ id := s.door.nextSink, link := l, pkt := c.2, xfer := xf, slot := s.areaSlot l c.2.cls.val, waiting := 0,
                         fill := none, got := [], err := false, begun := false, reading := false, fillBad := false,
                         work := none } : Sink) →
        (s.putWork x).2 = .data d i n none → d.space = 1 → Completes c.1 s fun s' => answered false s' ∧
          s'.eng.spad = ((runWrites d i n p.payload).foldl State.spadWrite held).eng.spad ∧ s'.eng.sill = s.eng.sill))

/-- REMOTE_SIGNAL_APPLY while ACLK runs (11 R256): the first pending signal of the link, source and tag whose bytes are all written
and whose context runs leaves the table and signals its latch. A parked core is woken for it first (15 R369). -/
def RemoteSignal : Prop :=
  ∀ (s : State) (l : Fin 6) (src tag : BitVec 16),
    let due := fun q : Pending => decide (q.link = l.val) && decide (q.src = src) && decide (q.tag = tag) &&
      decide (q.tally = q.bytes) && s.ctxStarted q.slot
    (s.latch.pending.find? due = none → Completes (.remoteSignalApply l src tag) s fun s' => s' = s) ∧
    (∀ q, s.latch.pending.find? due = some q →
      (s.clk.aclkOn = false → Completes (.remoteSignalApply l src tag) s fun s' => s' = s.wakeAsk) ∧
      (s.clk.aclkOn = true → Completes (.remoteSignalApply l src tag) s fun s' =>
        s'.latch.pending = dropFirst due s.latch.pending ∧
        (s.latchCount q.slot q.latch ≠ 255 → s'.latchCount q.slot q.latch = s.latchCount q.slot q.latch + 1)))

/-- Packets that this core sinks, and the remote signals that they bring (R298, R301, R313, R256). -/
def Obligations.PacketsSunk : Prop := PacketWaits ∧ PacketSinking ∧ RemoteSignal

/-- A fetch of this core and of others, with no other packet in the buffers and ACLK on (R298, R311, R313). An RD for a context that no
plane holds is answered with ERR; one whose elements lie in the scratchpad is answered with an RSP DATA of their bytes. An RSP DATA in
the length that was asked for is written into the destination of its fetch, frees its tag and counts one packet of the entry as
answered; one with ERR marks the entry REMOTE_FAULT. -/
def FetchPackets : Prop :=
  ∀ (s : State) (l : Fin 6) (w : Wire), s.calm → s.clk.aclkOn = true → Arrives l w s → s.door.sinks = [] →
    let p := wirePacket w
    s.isMine p = true →
    let inSeq := fun c : Nat => SMap.look (s.link l).rxSeq 0 c = p.seq
    let held := fun c : Nat => s.areaWrite l (s.areaSlot l c) w
    let bytes := fun (c : Nat) (s' : State) => s'.eng.spad = (held c).eng.spad ∧ s'.eng.sill = s.eng.sill ∧ s'.door.sinks = []
    (inSeq clsRd.val →
      (s.ctxSlot p.ctxid = none → Completes (.rdRead l w) s fun s' => bytes clsRd.val s' ∧ ∃ x ∈ (s'.link l).ready,
        x.pkt.cls = clsRsp ∧ x.pkt.kind = 0 ∧ x.pkt.tag = p.tag ∧ x.pkt.dst = p.src ∧ x.pkt.err = true) ∧
      (∀ x d n, x = ({ id := s.door.nextSink, link := l, pkt := asRow p clsRd 0, xfer := 0, slot := s.areaSlot l clsRd.val,
                       waiting := 0, fill := none, got := [], err := false, begun := false, reading := false, fillBad := false,
                       work := none } : Sink) →
        (s.putWork x).2 = .read d (pktIndex p) n → d.space = 1 → s.responses < 4096 → Completes (.rdRead l w) s fun s' =>
          bytes clsRd.val s' ∧ ∃ y ∈ (s'.link l).ready, y.pkt.cls = clsRsp ∧ y.pkt.kind = 1 ∧ y.pkt.tag = p.tag ∧
            y.pkt.dst = p.src ∧ y.pkt.err = false ∧ y.pkt.payload = runPayload (held clsRd.val).eng.spad d (pktIndex p) n)) ∧
    (inSeq clsRsp.val → ∀ g e loc route, s.tagEntry p.tag.toNat = some (g, e) → s.redOf e.uid = none →
      e.job = .put loc route → bitN route.toNat 34 = true → e.errStatus = 0 → e.aborted = false →
      let freed := fun s' : State => (∀ y ∈ s'.door.tags, y.tag ≠ g.tag) ∧ s'.door.sinks = []
      (∀ n, p.err = false → p.payload.length = g.bytes → runCount loc.desc g.index g.bytes = some n → loc.desc.space = 1 →
        Completes (.rspData l w) s fun s' => freed s' ∧
          s'.eng.spad = ((runWrites loc.desc g.index n p.payload).foldl State.spadWrite (held clsRsp.val)).eng.spad ∧
          s'.eng.sill = s.eng.sill ∧ ∃ e', s'.entry e.uid = some e' ∧ e'.tagWait = e.tagWait - 1 ∧ e'.errStatus = 0) ∧
      (p.err = true → Completes (.rspData l w) s fun s' => freed s' ∧ s'.eng.spad = (held clsRsp.val).eng.spad ∧
        ∃ e', s'.entry e.uid = some e' ∧ e'.tagWait = e.tagWait - 1 ∧ e'.errStatus = stRemoteFault))

/-- RED packets for this core, with no other packet in the buffers and ACLK on (R314, R316, R318). One that matches a running operation
of this member, with elements that it may receive, is summed in the group's format, or taken as final, into the destination in the
scratchpad and answered; one whose OPNO is ahead, or whose operation has not read its source yet, waits in its buffer; one whose GID is
no group's is answered with ERR, and nothing is written. -/
def ReductionPackets : Prop :=
  ∀ (s : State) (l : Fin 6) (w : Wire), s.clk.aclkOn = true → Arrives l w s → s.door.sinks = [] →
    let p := wirePacket w
    s.isMine p = true → SMap.look (s.link l).rxSeq 0 clsRed.val = p.seq →
    ∀ c ∈ [(Instr.redPartial l w, asRow p clsRed 0), (.redFinal l w, asRow p clsRed 1)],
    let held := s.areaWrite l (s.areaSlot l clsRed.val) w
    let answered := fun (err : Bool) (s' : State) => s'.door.sinks = [] ∧ ∃ x ∈ (s'.link l).ready, x.pkt.cls = clsRsp ∧
      x.pkt.kind = 0 ∧ x.pkt.tag = p.tag ∧ x.pkt.dst = p.src ∧ x.pkt.err = err
    (s.redMatch c.2 = .wait → Completes c.1 s fun s' => s'.eng = held.eng ∧ s'.door.reds = s.door.reds ∧
      ∃ x, s'.door.sinks = [x] ∧ x.pkt = c.2 ∧ x.begun = false) ∧
    (s.redMatch c.2 = .bad [] → Completes c.1 s fun s' => s'.eng.spad = held.eng.spad ∧ answered true s') ∧
    (∀ r g a d grp e, s.redMatch c.2 = .sink r g → s.entry r.uid = some e → e.job = .red a d grp → e.errStatus = 0 → e.aborted = false →
      redShape r g c.2 = true → d.desc.space = 1 → Completes c.1 s fun s' => answered false s' ∧
        s'.eng.spad = ((redWrites r g d.desc c.2).foldl State.spadWrite held).eng.spad ∧ s'.eng.sill = s.eng.sill)

/-- Packets of fetches and of reductions that this core sinks (R298, R311, R313, R314, R316, R318). -/
def Obligations.FetchesAndReductions : Prop := FetchPackets ∧ ReductionPackets

/-- REPOINT in sequence (R295, R322): on a link below generation 3 the message does not exist, and the link is reset. On a link of
generation 3 it frees its buffer and is applied when its epoch is above the last one: with a near or far link UP to V, every route to
X by such a link leaves by it from then on; without one these routes are unreachable. -/
def RepointReception : Prop :=
  ∀ (s : State) (l : Fin 6) (x v : BitVec 16) (epoch : BitVec 24) (w : Wire), Arrives l w s →
    let k := s.link l
    let p := wirePacket w
    SMap.look k.rxSeq 0 5 = p.seq →
    (k.gen ≠ 3 → Completes (.repoint l x v epoch w) s (WasReset l 7 s)) ∧
    (k.gen = 3 → Completes (.repoint l x v epoch w) s fun s' =>
      s'.door.epoch = (if s.door.epoch < epoch then epoch else s.door.epoch) ∧
      SMap.look (s'.link l).rxSeq 0 5 = p.seq + 1 ∧ SMap.look (s'.link l).freed 0 5 = SMap.look k.freed 0 5 + 1 ∧
      (s.door.epoch < epoch → ∀ r < s.routeCount,
        let t := s.route r
        (t.dest ≠ x ∨ t.link < 2 → s'.route r = t) ∧
        (t.dest = x → 2 ≤ t.link →
          (∀ m, s.peerLink v = some m → (s'.route r).link = s.roleLink m ∧ (s'.route r).unreach = false) ∧
          (s.peerLink v = none → (s'.route r).unreach = true))))

/-- The forced resets that other events make (R300, R310, R320): a HELLO with RESET or of another core on an UP link, a packet sent
RETRYMAX + 1 times and a class that has waited without a credit for 64 TIMEOUTs. -/
def ResetCauses : Prop :=
  ∀ (s : State) (l : Fin 6), (s.link l).state = .up →
    let k := s.link l
    (∀ w : Wire, s.door.held = false → wireCrcOk w = true → wireResv w = false →
      ((wireHello w).reset = true → Completes (.hello l w) s fun s' => WasReset l 8 s s' ∧ (s'.link l).peer = (wirePacket w).src) ∧
      ((wireHello w).reset = false → (wirePacket w).src ≠ k.peer → Completes (.hello l w) s fun s' =>
        WasReset l 9 s s' ∧ (s'.link l).peer = (wirePacket w).src)) ∧
    (∀ (c : Fin 6) (q : BitVec 16), k.oldest c = some q →
      let again := k.sent.filter fun x => decide (x.pkt.cls.val = c.val) && !seqBefore x.pkt.seq q
      s.linkTimedOut l 1 (SMap.look k.ackTicks 0 c) = true → again ≠ [] →
      ((∃ x ∈ again, s.retryMax l + 1 ≤ x.sends) → Completes (.ackTimeout l c) s (WasReset l 5 s)) ∧
      ((∀ x ∈ again, x.sends < s.retryMax l + 1) → Completes (.ackTimeout l c) s fun s' =>
        (s'.link l).ready = again ++ k.ready ∧ (s'.link l).retries = satAdd 16 k.retries again.length ∧
        { s' with door := { s'.door with links := s.door.links } } = s)) ∧
    (∀ c : Fin 6, SMap.look k.credit 0 c = 0 → (∃ x ∈ k.ready, x.pkt.cls = c ∧ x.held = false ∧ x.sends = 0) →
      s.linkTimedOut l 64 (SMap.look k.credTicks 0 c) = true → Completes (.creditTimeout l c) s (WasReset l 6 s))

/-- Messages and events that reset a link or change its routes (R295, R300, R310, R320, R322). -/
def Obligations.LinkFailures : Prop := RepointReception ∧ ResetCauses

/-- Discovery (R308 to R310): RDY brings WAIT to HELLO; the first HELLO goes out at once and the next ones every 100 microseconds,
with the identity, the generations 1 to 3, the initial credits and RESET once after a reset; the planned peer with a common generation
of at least MINGEN brings the link UP with that generation and the peer's credits, without one to QUARANTINE with cause 4; an unexpected
link becomes IDLE; ten milliseconds without RDY or HELLO end in DOWN, or OFF without EXPECT, with causes 1 and 2; an IDLE link's
enable falls after a millisecond, and a reset ends after one. -/
def Obligations.LinkDiscovery : Prop :=
  ∀ (s : State) (l : Fin 6),
    let k := s.link l
    let others := fun s' : State => { s' with door := s.door, hinge := s.hinge } = s
    (∀ level, Completes (.linkRdy l level) s fun s' => (s'.link l).rdy = level ∧ others s' ∧
      (s'.link l).state = if level = true ∧ k.state = .wait then .hello else k.state) ∧
    (k.state = .hello → k.helloSeen = none → (k.helloSent = false ∨ helloEvery ≤ k.helloTicks) →
      Completes (.helloSend l) s fun s' => (s'.link l).helloSent = true ∧
        (s'.link l).state = .hello ∧ (s'.link l).resetFlag = false ∧ (s'.link l).helloTicks = 0 ∧
        ∃ (p : Packet) (h : HelloMsg), (s'.link l).lastTx = some (packetWire p k.trailerNow) ∧ p.cls = clsMgt ∧ p.kind = 1 ∧
          p.src = s.door.node ∧ p.payload = helloBytes h ∧ h.gens = 14 ∧ h.reset = k.resetFlag ∧
          ∀ c < 6, c ≠ 1 → h.credits.getD c 0 = BitVec.ofNat 16 (s.grant l c)) ∧
    (k.state ≠ .hello ∨ (k.helloSent = true ∧ k.helloTicks < helloEvery) → Completes (.helloSend l) s fun s' => s' = s) ∧
    (∀ (w : Wire) (r : LinkRec), s.door.held = false → k.state = .hello → k.helloSent = true → wireCrcOk w = true →
      wireResv w = false → s.linkRec l = some r →
      let h := wireHello w
      (r.expect = false → Completes (.hello l w) s fun s' => (s'.link l).state = .idle) ∧
      (r.expect = true → (h.node = r.peer ∨ (l.val < 2 ∧ r.alt ≠ 0 ∧ h.node = r.alt)) →
        (∀ g, (g = 1 ∨ g = 2 ∨ g = 3) → h.gens.getLsbD g = true → (∀ i, g < i → i < 4 → h.gens.getLsbD i = false) → r.minGen ≤ g →
          Completes (.hello l w) s fun s' => (s'.link l).state = .up ∧ (s'.link l).gen = g ∧ (s'.link l).peer = h.node ∧
            ∀ c < 6, SMap.look (s'.link l).credit 0 c = (h.credits.getD c 0).toNat) ∧
        ((∀ g, (g = 1 ∨ g = 2 ∨ g = 3) → h.gens.getLsbD g = true → g < r.minGen) →
          Completes (.hello l w) s fun s' => (s'.link l).state = .quarantine ∧ (s'.link l).cause = 4))) ∧
    (tenMs ≤ k.ticks → (k.state = .wait ∨ (k.state = .hello ∧ k.helloSeen = none)) →
      Completes (.discoveryTimeout l) s fun s' => (s'.link l).cause = (if k.state = .wait then 1 else 2) ∧
        (s'.link l).state = if s.expects l then .down else .off) ∧
    (k.ticks < tenMs → Completes (.discoveryTimeout l) s fun s' => s' = s) ∧
    (k.state = .idle → Completes (.idleLinkDisable l) s fun s' => (s'.link l).en = (if oneMs ≤ k.ticks then false else k.en) ∧
      (s'.link l).state = .idle) ∧
    (k.state = .reset → oneMs ≤ k.ticks → Completes (.linkResetEnd l) s fun s' =>
      (s'.link l).state = (if k.rdy then .hello else .wait) ∧ (s'.link l).helloSeen = none ∧ others s')

/-! ### The host port and the Frame (spec/12, 14) -/

/-- How the host port answers a read and a write (R335 to R337), with no earlier response waiting: a broadcast read and an offset
without a register DECERR; a broadcast write from outside its group OK without effect; a register of a shuttered block 0, and it is
counted; a register of a domain that is off OFF; otherwise a read answers the register's value and changes nothing but the answer and a
parked core's wake. While HG_RSP_READY is 0 the response is held. A port that is not ready takes no request, and neither does one that
holds 16 responses. -/
def Obligations.HostAnswers : Prop :=
  ∀ (s : State) (h : HgMeta) (off : BitVec 21) (data : Word),
    let read := Instr.hingeRegisterRead h off
    let write := Instr.hingeRegisterWrite h off data
    let only := fun s' : State => { s' with hinge := s.hinge } = s
    let refuses := fun c : Instr => Completes c s fun s' => s' = { s with hinge := { s.hinge with rspReady := h.ready } }
    (16 ≤ s.hinge.waiting.length → h.ready = false → ∀ c ∈ [read, write], refuses c) ∧
    (s.hinge.waiting = [] →
      (s.hgReady = false → ∀ c ∈ [read, write], refuses c) ∧
      (s.hgReady = true →
        (h.bcast = true → Completes read s fun s' => Answers h 3 0 s s' ∧ only s' ∧ s'.hinge.decErr = satInc 16 s.hinge.decErr) ∧
        (s.hgOutside h = true → Completes write s fun s' => Answers h 0 0 s s' ∧ only s') ∧
        (h.bcast = false → hregOf off.toNat = none → ∀ c ∈ [read, write], Completes c s fun s' => Answers h 3 0 s s' ∧ only s' ∧
          s'.hinge.decErr = satInc 16 s.hinge.decErr ∧ s'.hinge.pend = true) ∧
        (h.bcast = false → ∀ r b, hregOf off.toNat = some r → s.regShut r = some b → ∀ c ∈ [read, write], Completes c s fun s' =>
          Answers h 0 0 s s' ∧ s'.int.shutCount = satAdd 32 s.int.shutCount 1 ∧ s'.int.shutBlock = BitVec.ofNat 4 b ∧
          s'.int.shutPend = true ∧ { s' with hinge := s.hinge, pwr := s.pwr, int := s.int } = s) ∧
        (h.bcast = false → ∀ r, hregOf off.toNat = some r → s.regShut r = none →
          (s.regOff r = true → ∀ c ∈ [read, write], Completes c s fun s' => Answers h 1 0 s s' ∧
            s'.hinge.off = satInc 16 s.hinge.off ∧ { s' with hinge := s.hinge, pwr := s.pwr } = s) ∧
          (s.regOff r = false → Completes read s fun s' => Answers h 0 ((s.regWake r).regRead r) s s' ∧
            { s' with hinge := s.hinge, pwr := s.pwr } = s) ∧
          (s.regOff r = false → r = .irqEn → Completes write s fun s' => Answers h 0 0 s s' ∧
            s'.hinge.irqEn = data.extractLsb' 0 13 ∧ s'.hinge.irqStat = s.hinge.irqStat) ∧
          (s.regOff r = false → r = .irqStat → Completes write s fun s' => Answers h 0 0 s s' ∧
            s'.hinge.irqStat = s.hinge.irqStat &&& ~~~(data.extractLsb' 0 13) ∧ s'.hinge.irqEn = s.hinge.irqEn) ∧
          (s.regOff r = false → r = .intStat → Completes write s fun s' => Answers h 0 0 s s' ∧
            s'.int.stat = s.int.stat &&& ~~~(data.extractLsb' 0 9)))))

/-- The rows that are one write of the host, each with its register and what it does there with its operands (03 R73; 07 R165; 09 R228
to R230; 10 R249; 11 R262; 12 R286; 13 R321, R322; 15 R349, R360, R365; 16 R390, R400, R404 to R406). -/
def hostCommands (h : HgMeta) (t : Thread) (slot : Fin 2) (handle : BitVec 20) (index : BitVec 5) (k : BitVec 6) (word : BitVec 32)
    (q : BitVec 4) (len : BitVec 17) (wait sill transom near far : Bool) (link : BitVec 3) (x v : BitVec 16) (epoch : BitVec 24)
    (src : Source) (mask : BitVec 11) : List (Instr × HReg × (State → State)) :=
  let c1 := decide (slot.val = 1)
  [(.dcacheFlushHandle h handle slot, .dcacheCtl, fun s => s.dcacheCtl handle c1 1 true),
   (.dcacheFlushContext h slot, .dcacheCtl, fun s => s.dcacheCtl 0 c1 2 true),
   (.lvAccRead h index slot, .lvAccCtl, fun s => s.lvAccCtl index c1 1 true),
   (.lvAccClear h index slot, .lvAccCtl, fun s => s.lvAccCtl index c1 2 true),
   (.sashDoorbell h word, .sashDoorbell, fun s => s.doorbell word), (.iflush h, .sashCtl, fun s => s.icFlush),
   (.sreset h, .sashCtl, fun s => s.sreset), (.stop h t, .sashCtl, fun s => s.stopAtBoundary t),
   (.strmAbortEntry h t q word, .strmAbort, fun s => s.strmAbort word (BitVec.ofNat 2 (Thread.num t)) q false true),
   (.strmAbortStream h t q, .strmAbort, fun s => s.strmAbort 0 (BitVec.ofNat 2 (Thread.num t)) q true true),
   (.latchHsig h k slot, .latchHsig, fun s => s.latchHsig k.toNat slot.val true),
   (.frameStage h len, .frameCtl, fun s => s.frameCtl len 1 false false true),
   (.frameCommit h wait slot, .frameCtl, fun s => s.frameCtl 0 2 wait c1 true),
   (.frameDiscard h slot, .frameCtl, fun s => s.frameCtl 0 3 false c1 true),
   (.frameForceEnd h slot, .frameCtl, fun s => s.frameCtl 0 4 false c1 true),
   (.hostLinkReset h link, .dwLinkCtl, fun s => s.dwLinkCtl link true),
   (.dwRepoint h x v epoch, .dwRepoint, fun s => s.dwRepoint x v epoch true),
   (.clkSelect h src, .clkCtl, fun s => s.clkCtl src true), (.pwrRequest h link, .pwrCtl, fun s => s.pwrCtl link true),
   (.shutterWrite h sill transom near far, .shutter, fun s => s.shutterSet sill transom near far),
   (.queueRelease h mask, .intQstop, fun s => { s with int := { s.int with qstop := s.int.qstop &&& ~~~mask } }),
   (.replayArm h word, .rplCtl, fun s => s.replayArm word true),
   (.checkpointSave h slot, .ckptCtl, fun s => s.ckptCtl 1 c1 true),
   (.checkpointRestore h slot, .ckptCtl, fun s => s.ckptCtl 2 c1 true),
   (.nodeAdopt h x, .nodeAdopt, fun s => s.adopt x true)]

/-- Each of these rows, when the port is ready and its register answers, does to the register's unit what its operands say and is
answered OK; a register of domains 0 to 73 wakes a parked core first, and responses that wait are taken first when HG_RSP_READY is 1
(R335, R336, R369). -/
def Obligations.HostCommands : Prop :=
  ∀ (s : State) (h : HgMeta) (t : Thread) (slot : Fin 2) (handle : BitVec 20) (index : BitVec 5) (k : BitVec 6) (word : BitVec 32)
    (q : BitVec 4) (len : BitVec 17) (wait sill transom near far : Bool) (link : BitVec 3) (x v : BitVec 16) (epoch : BitVec 24)
    (src : Source) (mask : BitVec 11),
    s.hgReady = true → h.bcast = false →
    ∀ c ∈ hostCommands h t slot handle index k word q len wait sill transom near far link x v epoch src mask,
      s.regShut c.2.1 = none → s.regOff c.2.1 = false →
      let s0 := ({ s with hinge := { s.hinge with rspReady := h.ready } } : State).hgFlush
      Completes c.1 s fun s' => s' = (c.2.2 (s0.regWake c.2.1)).hgRsp h 0 0

/-- The Frame's operations (R277 to R286). Staging takes the EMPTY plane and reads LEN bytes;
without one it is refused PLANE_BUSY, with a length that is no multiple of 8 from 64 to 65,536 BAD_LENGTH. A commit of a STAGED plane
that passes R279 and R280 makes it LIVE and the other ENDING, sets its latches to the Frame's INIT values and waits for the effect
point; one that breaks R280 alone waits with WAIT and is refused OVERLAP without; without a STAGED plane it is refused. A discard without
one sets ERR, and one of a commit that waits cancels it. While an operation runs, every other one sets ERR. -/
def Obligations.FrameOperations : Prop :=
  ∀ (s : State) (h : HgMeta), s.hgReady = true → h.bcast = false → s.regOff .frameCtl = false → s.goIgnored .frame = false →
    let result := fun (r : Nat) (s' : State) => s'.frame.result = BitVec.ofNat 8 r ∧ s'.frame.busy = false ∧
      s'.hinge.irqStat.getLsbD 4 = true
    let planes := fun s' : State => s'.frame.plane0 = s.frame.plane0 ∧ s'.frame.plane1 = s.frame.plane1
    (s.frame.busy = true → ∀ (len : BitVec 17) (wait : Bool) (slot : Fin 2),
      ∀ c ∈ [Instr.frameStage h len, .frameCommit h wait slot, .frameForceEnd h slot],
        Completes c s fun s' => s'.frame.err = true ∧ s'.frame.busy = true ∧ planes s') ∧
    (∀ (slot : Fin 2) p, s.waitingPlane = some p → Completes (.frameDiscard h slot) s (result 0x24)) ∧
    (s.frame.busy = false → ∀ len : BitVec 17,
      let good := len.toNat % 8 = 0 ∧ 64 ≤ len.toNat ∧ len.toNat ≤ 65536
      (s.frame.plane0.state ≠ .empty → s.frame.plane1.state ≠ .empty → Completes (.frameStage h len) s fun s' =>
        result 0x01 s' ∧ planes s') ∧
      (s.frame.plane0.state = .empty ∨ s.frame.plane1.state = .empty → ¬good → Completes (.frameStage h len) s fun s' =>
        result 0x02 s' ∧ planes s') ∧
      (∀ p : Fin 2, (s.plane p).state = .empty → (p.val = 1 → s.frame.plane0.state ≠ .empty) → good →
        Completes (.frameStage h len) s fun s' => (s'.plane p).state = .staging ∧ s'.frame.busy = true ∧
          (s'.plane p).image.length = len.toNat ∧ s'.plane (1 - p.val) = s.plane (1 - p.val) ∧
          s'.jamb.reqs = s.jamb.reqs ++ readRange (.staging p.val s.frame.addr.toNat) .staging s.frame.addr.toNat len.toNat)) ∧
    (s.frame.busy = false → ∀ (wait : Bool) (slot : Fin 2),
      (s.stagedBy slot.val = none → Completes (.frameCommit h wait slot) s fun s' => result 0x20 s' ∧ planes s') ∧
      (∀ p f, s.stagedBy slot.val = some p → s.frameOf p = some f → p < 2 → s.commitBad f = none →
        (s.otherRuns p = false ∨ ∀ o, s.frameOf (1 - p) = some o → overlapOk o f = true) →
        Completes (.frameCommit h wait slot) s fun s' => result 0 s' ∧ (s'.plane p).state = .live ∧
          ((s.plane (1 - p)).state = .live → (s'.plane (1 - p)).state = .ending) ∧ s'.frame.effect = some p ∧
          (∀ k < f.latches.length, k < 48 → s'.latchCount p k = BitVec.ofNat 8 (f.latches.getD k (0, false)).1)) ∧
      (∀ p f o, s.stagedBy slot.val = some p → s.frameOf p = some f → p < 2 → s.commitBad f = none → s.otherRuns p = true →
        s.frameOf (1 - p) = some o → overlapOk o f = false →
        (wait = false → Completes (.frameCommit h wait slot) s fun s' => result 0x21 s' ∧ planes s') ∧
        (wait = true → Completes (.frameCommit h wait slot) s fun s' => (s'.plane p).state = .commitWait ∧
          s'.frame.busy = true ∧ s'.plane (1 - p) = s.plane (1 - p))) ∧
      (∀ p f r, s.stagedBy slot.val = some p → s.frameOf p = some f → s.commitBad f = some r →
        Completes (.frameCommit h wait slot) s fun s' => result r s' ∧ planes s')) ∧
    (s.frame.busy = false → ∀ slot : Fin 2,
      (s.waitingPlane = none → s.stagedBy slot.val = none → Completes (.frameDiscard h slot) s fun s' =>
        s'.frame.err = true ∧ planes s') ∧
      (∀ p, s.waitingPlane = none → s.stagedBy slot.val = some p → Completes (.frameDiscard h slot) s (result 0)) ∧
      ((s.plane slot).state ≠ .live → (s.plane slot).state ≠ .ending → Completes (.frameForceEnd h slot) s fun s' =>
        s'.frame.err = true ∧ planes s') ∧
      ((s.plane slot).state = .live ∨ (s.plane slot).state = .ending →
        (s.quiescent slot = false → Completes (.frameForceEnd h slot) s fun s' => result 0x23 s' ∧ planes s') ∧
        ((s.plane slot).finished = false → s.quiescent slot = true → Completes (.frameForceEnd h slot) s (result 0))))

/-- What follows an operation by itself (R278, R281, R282): a Frame whose bytes have all arrived becomes STAGED with its
contents when every check passes, and else leaves its plane EMPTY with the first failed check's RESULT and WHERE; a waiting commit
resolves when the other context has ended; at the effect point the core-wide sections of the Frame are in force, the weave counter is 0,
the partitions it assigns wait with their clocks stopped (04 R97) and the context has started. -/
def Obligations.FrameProgress : Prop :=
  ∀ (s : State) (p : Nat) (f : FrameCfg), p < 2 →
    let result := fun (r : Nat) (s' : State) => s'.frame.result = BitVec.ofNat 8 r ∧ s'.frame.busy = false
    (s.stagingPlane = some p → (s.plane p).readsOut = 0 →
      ((s.plane p).imageErr = true → Completes .frameStagingResult s fun s' =>
        result 0x03 s' ∧ (s'.plane p).state = .empty) ∧
      ((s.plane p).imageErr = false →
        (frameFault (s.plane p).image (s.frameEnv p) = none → Completes .frameStagingResult s fun s' => result 0 s' ∧
          (s'.plane p).state = .staged ∧ (s'.plane p).frame = some (frameOfBytes (s.plane p).image)) ∧
        ∀ r w, frameFault (s.plane p).image (s.frameEnv p) = some (r, w) → Completes .frameStagingResult s fun s' =>
          result r s' ∧ s'.frame.whereField = BitVec.ofNat 16 w ∧ (s'.plane p).state = .empty)) ∧
    (s.waitingPlane = some p →
      (s.otherRuns p = true → Completes .commitWaitResolve s fun s' => s' = s) ∧
      (s.otherRuns p = false → s.frameOf p = some f →
        (s.commitBad f = none → Completes .commitWaitResolve s fun s' => result 0 s' ∧ (s'.plane p).state = .live ∧
          s'.frame.effect = some p) ∧
        ∀ r, s.commitBad f = some r → Completes .commitWaitResolve s fun s' => result r s' ∧ (s'.plane p).state = .staged)) ∧
    (s.frame.effect = some p → s.frame.effectDue = true → s.clk.aclkOn = true → s.frameOf p = some f →
      s.rpl.plane = none → s.rpl.active = false →
      Completes .effectPoint s fun s' => s'.frame.effect = none ∧ s'.frame.assign = f.assign ∧ s'.frame.mullion = f.mullion ∧
        s'.frame.fault = f.fault ∧ s'.frame.doorway = f.doorway ∧ s'.eng.weave = 0 ∧
        (s.otherRuns p = false → ∀ q < 8, (∃ i < 8, bitsN f.assign.toNat (4 * i) 4 = q) → (s'.engine q).gated = true) ∧
        ((s.plane p).state = .live → (s.plane p).finished = false → (s'.plane p).started = true) ∧
        ((s.plane p).state = .live → (s.plane p).finished = false → (s.plane p).started = false → s.startsDue = [p] →
          (s.plane p).restored = none → s'.sash.evec = f.evec ∧
          ∀ t, (s.th t).state = .idle → f.entry t ≠ 0 → (s'.th t).ctx = p ∧ (s'.th t).pc = f.entry t ∧
            (s'.th t).stepno = f.step0 t ∧ (s'.th t).wseq = 0 ∧ (s'.th t).regs = (s.th t).regs))

/-! ### Watchdog, holds, scrubbing and cut points (spec/10, 11, 16) -/

/-- WATCHDOG_FIRE (R260, R261): it does nothing before a wait timer has reached the period; then FIRES counts, PEND and IRQ_STAT.WD are
set, MASK names the threads in LATCH and QUEUE, their timers are 0 again, and a WATCHDOG record is offered to the exception queue.
With PEND set already, and with WDPOL 2, it is an integrity event too. With WDPOL 0 no thread changes otherwise; with WDPOL 1 those threads but S are stopped. -/
def WatchdogFire : Prop :=
  ∀ s : State,
    let waits := fun t => (s.th t).state = .latch ∨ (s.th t).state = .queue
    ((∀ t, waits t → (s.th t).timer < s.wd.period.toNat) → Completes .watchdogFire s fun s' => s' = s) ∧
    (∀ t0, waits t0 → s.wd.period.toNat ≤ (s.th t0).timer → Completes .watchdogFire s fun s' =>
      s'.wd.fires = satInc 16 s.wd.fires ∧ s'.wd.pend = true ∧ s'.hinge.irqStat.getLsbD 8 = true ∧
      (∀ t, waits t → (s'.th t).timer = 0 ∧ s'.wd.mask.getLsbD (Thread.num t) = true) ∧
      (∀ t, ¬waits t → s'.wd.mask.getLsbD (Thread.num t) = false ∧ (s.frame.fault.wdPol ≠ 2 → s'.th t = s.th t)) ∧
      (s.sash.excq.length < 14 → Gains (fun x => x.w0.toNat % 256 = 0x13 ∧ x.w0.getLsbD 23 = true) s s') ∧
      (s.wd.pend = true ∨ s.frame.fault.wdPol = 2 → s'.int.stat.getLsbD 2 = true ∧ s'.int.stat.getLsbD 8 = true) ∧
      (s.wd.pend = false → s.frame.fault.wdPol ≠ 2 → s'.int = s.int) ∧
      (s.frame.fault.wdPol = 0 → ∀ t, waits t → s'.th t = { s.th t with timer := 0 }) ∧
      (s.frame.fault.wdPol = 1 → ∀ t, waits t → t ≠ .S → (s'.th t).state = .stopped) ∧
      (s.frame.fault.wdPol = 1 → waits .S → (s'.th .S).state = (s.th .S).state))

/-- EGRESS_HOLD_RELEASE lets every held request and packet go whose 40 cycles have passed, a request behind those that were ready before
it, and changes nothing else (R386, 14 R330). SCRUB of a running core, once 4,096 cycles of the bank since the commit have not been used,
moves the bank's scrubber on by one line, around the bank, and changes no byte; what it cannot correct is an integrity event. Before its
time, and of a core without ACLK, it does nothing (R385). -/
def HoldAndScrub : Prop :=
  (∀ s : State, Completes .egressHoldRelease s fun s' =>
    let due := fun r : JReq => decide (r.held = true) && decide (r.hold = 0)
    s'.jamb.reqs = s.jamb.reqs.filter (fun r => !due r) ++
      (s.jamb.reqs.filter due).map (fun r => { r with held := false, age := 0 }) ∧
    (∀ l < 6, (s'.link l).ready = (s.link l).ready.map (fun x => if x.hold = 0 then { x with held := false } else x) ∧
      { s'.link l with ready := (s.link l).ready } = s.link l) ∧
    { s' with jamb := s.jamb, door := s.door } = s) ∧
  ∀ (s : State) (a : Fin 32) (b : Fin 16),
    let spad : State := { s with int := { s.int with
      scrubSpad := SMap.put s.int.scrubSpad 0 a ((SMap.look s.int.scrubSpad 0 a + 1) % 5120)
      doneSpad := SMap.put s.int.doneSpad 0 a (SMap.look s.int.doneSpad 0 a + 1) } }
    let sill : State := { s with int := { s.int with
      scrubSill := SMap.put s.int.scrubSill 0 b ((SMap.look s.int.scrubSill 0 b + 1) % 2048)
      doneSill := SMap.put s.int.doneSill 0 b (SMap.look s.int.doneSill 0 b + 1) } }
    (s.clk.aclkOn = true → s.pwr.parked = false →
      (SMap.look s.int.doneSpad 0 a < s.time.sinceCommit / 4096 →
        Completes (.scrub (.scratchpad a) .clean) s (fun s' => s' = spad) ∧
        ∀ d, Completes (.scrub (.scratchpad a) (.fatal d)) s fun s' => s'.eng = s.eng ∧ s'.int.stat.getLsbD 0 = true ∧
          s'.int.stat.getLsbD 8 = true ∧ s'.int.scrubSpad = spad.int.scrubSpad) ∧
      (s.time.sinceCommit / 4096 ≤ SMap.look s.int.doneSpad 0 a → ∀ u,
        Completes (.scrub (.scratchpad a) u) s fun s' => s' = s) ∧
      (SMap.look s.int.doneSill 0 b < s.time.sinceCommit / 4096 →
        Completes (.scrub (.sill b) .clean) s (fun s' => s' = sill) ∧
        (s.sillDark = true → ∀ u, Completes (.scrub (.sill b) u) s fun s' => s' = sill) ∧
        (s.sillDark = false → Completes (.scrub (.sill b) .corrected) s fun s' => s'.eng = s.eng ∧
          s'.er.sfCe = satInc 16 s.er.sfCe)) ∧
      (s.time.sinceCommit / 4096 ≤ SMap.look s.int.doneSill 0 b → ∀ u,
        Completes (.scrub (.sill b) u) s fun s' => s' = s)) ∧
    (s.clk.aclkOn = false ∨ s.pwr.parked = true → ∀ unit u, Completes (.scrub unit u) s fun s' => s' = s)

/-- The watchdog, the egress hold and the scrubber (R260, R261, R385, R386). -/
def Obligations.Upkeep : Prop := WatchdogFire ∧ HoldAndScrub

/-- CUT_POINT of the aborted entry that runs for a stream in a queue (R247, R248). A product ends with its run at the start of its next
pass, a loop behind a pair of iterations, a Transom instruction when memory has answered it, behind the buffer being written. A
root computation ends with its place in the partition's lane, and only its tensors change. A transfer, which is every other job, issues no
request and sends no packet any more, and ends when nothing of it is outstanding. Before its cut point, and without such an entry,
nothing happens. -/
def Obligations.CutPoint : Prop :=
  ∀ (s : State) (q : Fin 11) (t : Thread),
    let cut := (s.lane q t).find? fun e => e.aborted && decide (e.phase = .running)
    let nothing := Completes (.cutPoint q t) s fun s' => s' = s
    (cut = none → nothing) ∧
    ∀ e, cut = some e → s.entry e.uid = some e →
      let ends := fun P : State → Prop =>
        Completes (.cutPoint q t) s fun s' => (∃ e', s'.entry e.uid = some e' ∧ e'.phase = .finished) ∧ P s'
      (∀ a b c tr ai sq, e.job = .lattice a b c tr ai sq → ∀ r x, (s.runs e.queue).find? (fun r => r.1.uid = e.uid) = some (r, x) →
        (s.atPass r x = true → ends fun s' => (∀ k ∈ s'.eng.lats, k.uid ≠ e.uid) ∧ OnlyTensor c.desc (takes c.desc) s s') ∧
        (s.atPass r x = false → nothing)) ∧
      (∀ u r, e.job = .casement u → s.eng.cas = some r → r.uid = e.uid →
        (r.pos = 0 → r.iter % 2 = 0 → ends fun s' => s'.eng.cas = none) ∧ (r.pos ≠ 0 ∨ r.iter % 2 = 1 → nothing)) ∧
      (∀ tr a d, e.job = .transom tr a d → (e.rdWait ≠ 0 → nothing) ∧
        (e.rdWait = 0 → e.wrWait = 0 → e.tagWait = 0 → e.formed = true ∨ d.desc.space ≠ 0 ∨ e.errStatus ≠ 0 → ends fun s' =>
          OnlyTensor d.desc (takes d.desc) s s' ∧ s'.eng.trnFull0 = false ∧ s'.eng.trnFull1 = false)) ∧
      (∀ r, e.job = .root r → ∀ run, s.eng.roots.find? (fun k => k.uid = e.uid) = some run → run.partUid ≠ e.uid →
        ends fun s' => (∀ k ∈ s'.eng.roots, k.uid ≠ e.uid) ∧ s'.entry run.partUid = none ∧
          (∀ a, a ∉ tensorAddrs r.w.desc (takes r.w.desc) → a ∉ tensorAddrs r.q.desc (takes r.q.desc) →
            SMap.look s'.eng.spad 0 a = SMap.look s.eng.spad 0 a)) ∧
      (e.job.transfers = true →
        let mine := s.jamb.reqs.filter fun r => decide (r.owner = .entry e.uid)
        Completes (.cutPoint q t) s fun s' => (∀ r ∈ s'.jamb.reqs, r.owner ≠ .entry e.uid) ∧
          (∀ r, r.owner ≠ .entry e.uid → (r ∈ s'.jamb.reqs ↔ r ∈ s.jamb.reqs)) ∧
          (∀ l < 6, ∀ x ∈ (s'.link l).ready, x.origin = .own e.uid → x.sends ≠ 0) ∧ (∀ k ∈ s'.door.reds, k.uid ≠ e.uid) ∧
          ∃ e', s'.entry e.uid = some e' ∧ e'.formed = true ∧ e'.out = [] ∧
            (e.rdWait = (mine.filter fun r => !r.write).length → e.wrWait = (mine.filter fun r => r.write).length →
              e.tagWait = 0 → e'.phase = .finished))

/-! ### Deadbolt, the Lintel store and Hatch (spec/17) -/

/-- The Deadbolt, the power-fail pin and Hatch (R418 to R422). DEADBOLT_ASSERT sets both bits of LT_STAT after 16 low samples in a row
and does nothing before; its release ends Hatch, whose end starts the core again at stage 1 with the watchdog's reset period.
HATCH_REQUEST is DENIED without the Deadbolt and else sets REQ; the procedure's completion asks for the increment of LT_HATCHCNT when
both planes are EMPTY, and were when REQ was written, and the record is not worn, and is refused with RESULT 1 or 2 otherwise; a request
of a million ticks ends. -/
def Obligations.DeadboltAndHatch : Prop :=
  ∀ s : State,
    (s.boot.aonRst = false → Completes .deadboltAssert s fun s' =>
      s' = if s.lt.lowTicks < 16 then s else { s with lt := { s.lt with asserted := true, seen := true } }) ∧
    (s.lt.hatchActive = false → Completes .deadboltRelease s fun s' =>
      s' = { s with lt := { s.lt with asserted := false, lowTicks := 0 } }) ∧
    (s.lt.hatchActive = true → ∀ c ∈ [Instr.deadboltRelease, .hatchProcedureEnd], Completes c s fun s' =>
      s'.lt.hatchActive = false ∧ s'.boot.stage = 1 ∧ s'.frame.plane0.state = .empty ∧ s'.frame.plane1.state = .empty ∧
      s'.wd.period = 100000 ∧ s'.hinge.irqStat.getLsbD 12 = true) ∧
    (∀ level, Completes (.ltPfailN level) s fun s' => s' = { s with lt := { s.lt with pfail := !level } }) ∧
    (∀ h, s.hgReady = true → h.bcast = false → s.regOff .hatchCtl = false → s.hinge.waiting = [] →
      (s.lt.asserted = false → Completes (.hatchRequest h) s fun s' => s'.lt.hatchReq = s.lt.hatchReq ∧ s'.lt.deny = true ∧
        s'.lt.denies = satInc 16 s.lt.denies ∧ Answers h 2 0 s s') ∧
      (s.lt.asserted = true → s.goIgnored .hatch = false → (s.lt.hatchReq = false ∨ s.lt.hatchTicks < 1000000) →
        Completes (.hatchRequest h) s fun s' => s'.lt.hatchReq = true ∧ s'.lt.hatchTicks = 0 ∧ s'.lt.deny = s.lt.deny ∧
          (s'.lt.hatchArmed = true ↔ s.frame.plane0.state = .empty ∧ s.frame.plane1.state = .empty) ∧ Answers h 0 0 s s')) ∧
    (s.lt.hatchReq = true → s.hatchWriting = false → s.lt.hatchTicks ≤ 1000000 → s.lt.asserted = true →
      let empty := s.lt.hatchArmed = true ∧ s.frame.plane0.state = .empty ∧ s.frame.plane1.state = .empty
      let refused := fun (r : BitVec 8) (s' : State) => s' = { s with lt := { s.lt with
        hatchReq := false, hatchErr := true, hatchResult := r } }
      (¬empty → Completes .hatchProcedureComplete s (refused 1)) ∧
      (empty → 100000 ≤ (s.record 16).count → Completes .hatchProcedureComplete s (refused 2)) ∧
      (empty → (s.record 16).count < 100000 → Completes .hatchProcedureComplete s fun s' =>
        s'.lt.reqs = s.lt.reqs ++ [.hatch] ∧ s'.lt.hatchReq = true)) ∧
    (s.hatchWriting = false → Completes .hatchTimeout s fun s' =>
      s'.lt = { s.lt with hatchReq := s.lt.hatchReq && decide (s.lt.hatchTicks < 1000000) } ∧
      { s' with lt := s.lt, time := s.time } = s)

/-- Entry into Hatch (R419, R421): the port's answer to the increment of LT_HATCHCNT retires it, and with the Deadbolt asserted the core
is in Hatch: every thread IDLE, both planes EMPTY, every link OFF. -/
def HatchEntry : Prop :=
  ∀ (s : State) (rdata : BitVec 128), s.lt.late = false → s.lt.reqs = [.hatch] → s.lt.asserted = true →
    Completes (.lintelResponse 0 rdata) s fun s' => s'.lt.hatchActive = true ∧ s'.lt.hatchReq = false ∧ s'.lt.hatchResult = 0 ∧
      (s'.record 16).data = (s.record 16).data + 1 ∧ (s'.record 16).count = (s.record 16).count + 1 ∧
      (∀ t, (s'.th t).state = .idle) ∧ s'.frame.plane0.state = .empty ∧ s'.frame.plane1.state = .empty ∧
      (∀ l < 6, (s'.link l).state = .off) ∧ s'.door.held = true

/-- Writes of the Lintel store (R412 to R417): one that R412 refuses is answered DENIED with its cause in the log and reaches no record;
another goes to the port, without its reserved bits, and its response waits. The port shows the record's 16 bytes: DATA, COUNT one more
and a fresh CHECK. Its answer retires the write with COUNT one more; an error, or 50 ticks without an answer behind the taking of the
request, deny it, start a read-back, whose record then stands, and leave the record. -/
def StoreWrites : Prop :=
  ∀ (s : State) (h : HgMeta) (i : BitVec 8) (d : Word),
    (s.hgReady = true → s.hgOutside h = false → s.hinge.waiting = [] → s.regOff (.lintel i.toNat) = false →
      hregOf (0x110000 + 8 * i.toNat) = some (.lintel i.toNat) →
      (∀ cause, s.ltRefuses h.bcast i.toNat = some cause → Completes (.lintelWrite h i d) s fun s' =>
        Answers h 2 0 s s' ∧ s'.lt.shadow = s.lt.shadow ∧ s'.lt.reqs = s.lt.reqs ∧
        s'.lt.logCause = BitVec.ofNat 4 cause ∧ s'.lt.logIndex = i ∧ s'.lt.denies = satInc 16 s.lt.denies) ∧
      (s.ltRefuses h.bcast i.toNat = none → Completes (.lintelWrite h i d) s fun s' =>
        s'.lt.reqs = s.lt.reqs ++ [.write i.toNat (d &&& ltMask i.toNat)] ∧ s'.lt.shadow = s.lt.shadow ∧
        s'.hinge.waiting.map (fun r => r.done) = [false])) ∧
    (∀ (n : Nat) rest, s.lt.late = false → s.lt.taken = false → s.lt.reqs = .write n d :: rest → (s.record n).count < 2 ^ 32 - 1 →
      let bs := natLe 16 s.ltPort.wdata
      s.ltPort.valid = true ∧ s.ltPort.write = true ∧ s.ltPort.index = n ∧
      bs.take 12 = natLe 8 d.toNat ++ natLe 4 ((s.record n).count + 1) ∧ leNat (bs.drop 12) = (crc32c (bs.take 12)).toNat) ∧
    (∀ n : Nat, s.lt.late = false → s.lt.reqs = [.write n d] → n ≠ 68 →
      (∀ rdata, Completes (.lintelResponse 0 rdata) s fun s' =>
        s'.record n = { data := d, count := (s.record n).count + 1, bad := false } ∧ s'.lt.reqs = [] ∧ s'.lt.taken = false ∧
        (∀ k, k ≠ n → s'.record k = s.record k)) ∧
      (∀ rdata, Completes (.lintelResponse 1 rdata) s fun s' =>
        s'.lt.shadow = s.lt.shadow ∧ s'.lt.reqs = [.readBack n d] ∧ s'.lt.logCause = 6 ∧ s'.lt.deny = true) ∧
      (s.lt.taken = false ∨ s.lt.ticks < 50 → Completes .lintelTimeout s fun s' => s' = s) ∧
      (s.lt.taken = true → 50 ≤ s.lt.ticks → Completes .lintelTimeout s fun s' =>
        s'.lt.shadow = s.lt.shadow ∧ s'.lt.reqs = [.readBack n d] ∧ s'.lt.logCause = 7 ∧ s'.lt.late = true)) ∧
    (∀ (n : Nat) (rdata : BitVec 128) (r : LtRec), s.lt.late = false → s.lt.reqs = [.readBack n d] → n ≠ 68 →
      ltParse rdata = some r → Completes (.lintelResponse 0 rdata) s fun s' =>
        s'.record n = r ∧ s'.lt.resolved = true ∧ s'.lt.landed = decide (r.data = d) ∧ s'.lt.reqs = []) ∧
    (s.boot.stage = 1 → s.boot.lintelDone = false → Completes .lintelReadTimeout s fun s' =>
      if s.time.bootTicks < 2000 then s' = s
      else s'.boot.lintelErr = true ∧ s'.lt.shadow = [] ∧ s'.door.node = 0 ∧ 2 ≤ s'.boot.stage)

/-- The Lintel store and the entry into Hatch (R412 to R421). -/
def Obligations.LintelStore : Prop := StoreWrites ∧ HatchEntry

/-! ### Resets, clocks and power (spec/15) -/

/-- The resets (R372, R373). AON_RST_N low leaves the state after reset but for the levels of the pins; its release starts stage 1 with the
read of all 256 Lintel records. CORE_RST_N low brings every thread to IDLE and both planes to EMPTY, switches every domain off, stops
ACLK and falls back to stage 2 at most; its release in stage 2, or the initialised domains of stage 6, let start-up go on. -/
def Obligations.Resets : Prop :=
  ∀ s : State,
    (Completes .aonRstNAssert s fun s' => s'.boot.aonRst = true ∧ s'.boot.stage = 0 ∧ s'.pwr.on = 0 ∧ s'.frame = State.reset.frame ∧
      s'.sash = State.reset.sash ∧ s'.eng = State.reset.eng ∧ s'.jamb = State.reset.jamb ∧ s'.dcache = [] ∧
      (∀ t, s'.th t = State.reset.th t) ∧ (∀ l < 6, (s'.link l).state = .off ∧ (s'.link l).rdy = (s.link l).rdy) ∧
      s'.lt.pfail = s.lt.pfail ∧ s'.clk.refRdy = s.clk.refRdy ∧ s'.pwr.vack = s.pwr.vack ∧ s'.pwr.pswGnt = s.pwr.pswGnt) ∧
    (s.boot.aonRst = true → Completes .aonRstNRelease s fun s' => s'.boot.aonRst = false ∧ s'.boot.stage = 1 ∧
      s'.lt.reqs = s.lt.reqs ++ (List.range 256).map LtReq.read) ∧
    (s.boot.aonRst = false → Completes .coreRstNAssert s fun s' => s'.boot.coreRst = true ∧ s'.boot.cause = 1 ∧
      s'.boot.stage = min s.boot.stage 2 ∧ (∀ t, (s'.th t).state = .idle) ∧ s'.frame.plane0.state = .empty ∧
      s'.frame.plane1.state = .empty ∧ s'.pwr.on = 0 ∧ s'.clk.aclkOn = false ∧ s'.eng.spad = [] ∧ s'.eng.sill = [] ∧
      s'.eng.lanes = [] ∧ s'.sash.dmem = [] ∧ s'.pwr.shutLat = 0xFF ∧ s'.door.node = s.lt.applied.node ∧ s'.lt.shadow = s.lt.shadow ∧ s'.int.log0 = s.int.log0) ∧
    (s.boot.aonRst = false → s.boot.stage = 2 → s.lt.hatchActive = false → s.pwr.starting = none → s.pwr.batch = [] →
      s.pwr.leftOff = [] → s.domOn 79 = false → s.locked = false → Completes .coreRstNRelease s fun s' => s'.boot.coreRst = false ∧
        s'.boot.stage = 3 ∧ s'.pwr.pswReq = true ∧ s'.pwr.starting = if s.pwr.pswGnt then some 79 else none) ∧
    (s.boot.stage = 6 → Completes .startupInitDone s fun s' => s'.boot.stage = 7) ∧
    (s.boot.stage ≠ 6 → Completes .startupInitDone s fun s' => s' = s)

/-- The clocks (R346 to R352). The loss of AON_CLK sets its bit and POWER; a source is ready after two counts in a row within the window
and not ready after one outside it; TRO is ready after its trim; the source in force that fails falls back to TRO with FALLBACK and POWER; a
source ready for 1,000 ticks after a fallback is taken again; a finished slew puts its source in force; the loops' locks are kept. -/
def Obligations.ClockEvents : Prop :=
  ∀ s : State, s.boot.aonRst = false →
    let near := fun n : Nat => if s.clk.aonLost then 6208 ≤ n ∧ n ≤ 6592 else 6016 ≤ n ∧ n ≤ 6784
    (s.clk.aonLost = false → Completes .aonClkLost s fun s' => s'.clk.aonLost = true ∧ s'.clk.aonLostBit = true ∧
      s'.hinge.irqStat.getLsbD 11 = true) ∧
    (Completes .aonClkRestored s fun s' => s' = { s with clk := { s.clk with aonLost := false, aonOk := true } }) ∧
    (∀ ref r0 r1 rdy, Completes (.frequencyCheck ref r0 r1 rdy) s fun s' => s'.clk.refRdy = rdy ∧
      (s'.srcReady .refClk = true ↔ rdy = true ∧ near ref ∧ 1 ≤ SMap.look s.clk.passes 0 1) ∧
      (s'.srcReady .rref0 = true ↔ near r0 ∧ 1 ≤ SMap.look s.clk.passes 0 2) ∧
      (s'.srcReady .rref1 = true ↔ near r1 ∧ 1 ≤ SMap.look s.clk.passes 0 3) ∧ s'.srcReady .tro = s.srcReady .tro) ∧
    (Completes .refRdyFall s fun s' => s'.clk.refRdy = false ∧ s'.srcReady .refClk = false ∧
      (s.clk.inForce = .refClk → s.clk.slewTo = none → s'.clk.fallback = true ∧ s'.clk.slewTo = some .tro ∧
        s'.hinge.irqStat.getLsbD 11 = true)) ∧
    (s.clk.fell = true → s.clk.slewTo = none → s.clk.sel ≠ s.clk.inForce → s.srcReady s.clk.sel = true →
      Completes .sourceReturn s fun s' => if s.clk.readyTicks < 1000 then s' = s
        else s'.clk.slewTo = some s.clk.sel ∧ s'.clk.fell = false) ∧
    (s.clk.slewTo = none → Completes .sourceSwitchDone s fun s' => s' = s) ∧
    (∀ x, s.clk.slewTo = some x → Completes .sourceSwitchDone s fun s' => s'.clk.inForce = x) ∧
    (s.boot.trimApplied = true → Completes .troReady s fun s' => s'.srcReady .tro = true ∧ s'.boot.troReady = true) ∧
    (s.boot.trimApplied = false → Completes .troReady s fun s' => s' = s) ∧
    (∀ a, s.domOn 79 = true → s.boot.stage = 3 → Completes (.pllLock a) s fun s' =>
      s'.clk.lockA = (s.clk.lockA || a) ∧ s'.clk.lockD = (s.clk.lockD || !a) ∧
      (s'.locked = true → s.boot.pdFail = false → 4 ≤ s'.boot.stage))

/-- VACK (R363 to R365). A code other than the requested one only shows. The requested one lets an upward move go on to its slew, and
ends the voltage's fall of a downward one: then a target that changed during the move is moved to, and a parked core that a wake event
has reached begins its wake. In stage 4 of start-up it lets the next stage begin (R373). -/
def VackEvents : Prop :=
  ∀ (s : State) (code : BitVec 3),
    let shown : State := { s with pwr := { s.pwr with vack := code } }
    let confirmed := fun m : MoveStep => { s with pwr := { s.pwr with vack := code, confirmed := code, moving := m } }
    (s.boot.stage = 4 → (code ≠ 1 → Completes (.vack code) s fun s' => s' = shown) ∧
      (code = 1 → Completes (.vack code) s fun s' => s'.pwr.vack = 1 ∧ s'.pwr.confirmed = 1 ∧ 5 ≤ s'.boot.stage)) ∧
    (s.boot.stage ≠ 4 →
      (code ≠ s.pwr.vreq ∨ s.pwr.moving = .slew → Completes (.vack code) s fun s' => s' = shown) ∧
      (code = s.pwr.vreq → s.pwr.moving = .volt → Completes (.vack code) s fun s' => s' = confirmed .slew) ∧
      (code = s.pwr.vreq → s.pwr.moving = .none → Completes (.vack code) s fun s' => s' = confirmed .none) ∧
      (code = s.pwr.vreq → s.pwr.moving = .drop →
        (s.pwr.parked = false → 7 ≤ s.boot.stage → Completes (.vack code) s (TowardTarget (confirmed .none))) ∧
        (s.pwr.parked = false → s.boot.stage < 7 → Completes (.vack code) s fun s' => s' = confirmed .none) ∧
        (s.pwr.parked = true → s.pwr.waking = false ∨ s.pwr.target ≠ 0 → Completes (.vack code) s fun s' => s' = confirmed .none) ∧
        (s.pwr.parked = true → s.pwr.waking = true → s.pwr.target = 0 → Completes (.vack code) s fun s' =>
          s' = rising s.pwr.runPoint { confirmed .none with pwr := { (confirmed .none).pwr with target := s.pwr.runPoint } })))

/-- VACK_TIMEOUT (R364, R365): before 500 ticks, and with no wait on VACK, it does nothing. Then VREQ is the last confirmed code again, ACLK
runs at the lower of that point and the move's, VTIMEOUT and POWER are set, and a target that changed during the move is moved to. A
parked core stays at OP0. -/
def VackTimeouts : Prop :=
  ∀ s : State,
    let ended := fun (op target : Nat) => { s with
      pwr := { s.pwr with moving := .none, vreq := s.pwr.confirmed, vtimeout := true, op := op, target := target }
      hinge := { s.hinge with irqStat := s.hinge.irqStat ||| 0x800 } }
    (s.pwr.vackTicks < 500 ∨ s.pwr.moving = .none ∨ s.pwr.moving = .slew → Completes .vackTimeout s fun s' => s' = s) ∧
    (500 ≤ s.pwr.vackTicks → s.pwr.moving = .volt ∨ s.pwr.moving = .drop →
      (s.pwr.parked = true → Completes .vackTimeout s fun s' => s' = ended 0 0) ∧
      (s.pwr.parked = false →
        let out := ended (min s.pwr.confirmed.toNat s.pwr.moveTo) s.pwr.target
        (s.pwr.target = s.pwr.moveTo ∨ s.boot.stage < 7 → Completes .vackTimeout s fun s' => s' = out) ∧
        (s.pwr.target ≠ s.pwr.moveTo → 7 ≤ s.boot.stage → Completes .vackTimeout s (TowardTarget out))))

/-- ACLK_SLEW_DONE (R363, R365): an upward slew reaches its point; a downward one has, and asks for the point's voltage, which is there
already when VACK shows it. A move that is complete is followed by the one to a target that changed. Without a slew, and in a parked
core, nothing happens. -/
def SlewEvents : Prop :=
  ∀ s : State,
    (s.pwr.moving ≠ .slew ∨ s.pwr.parked = true → Completes .aclkSlewDone s fun s' => s' = s) ∧
    (s.pwr.moving = .slew → s.pwr.parked = false → 7 ≤ s.boot.stage →
      let v := BitVec.ofNat 3 s.pwr.moveTo
      (s.pwr.op < s.pwr.moveTo → Completes .aclkSlewDone s
        (TowardTarget { s with pwr := { s.pwr with op := s.pwr.moveTo, moving := .none } })) ∧
      (s.pwr.moveTo ≤ s.pwr.op → s.pwr.vack ≠ v → Completes .aclkSlewDone s fun s' =>
        s' = { s with pwr := { s.pwr with op := s.pwr.moveTo, vreq := v, vackTicks := 0, moving := .drop } }) ∧
      (s.pwr.moveTo ≤ s.pwr.op → s.pwr.vack = v → Completes .aclkSlewDone s
        (TowardTarget { s with pwr := { s.pwr with
          op := s.pwr.moveTo, vreq := v, vackTicks := 0, moving := .none, confirmed := v } })))

/-- PARK, WAKE and the lock of loop A that ends a wake (R365, R368, R369). A core for which the conditions of R368 have held parks: loop A
and ACLK stop, and it moves to OP0. A core for which they do not hold goes on. A parked core that a wake event has reached moves to its
run point once the move to OP0 is complete, and runs there when loop A has locked. -/
def ParkAndWake : Prop :=
  ∀ s : State,
    (ParkConditions s → Completes .park s fun s' => s' = { s with
      pwr := { s.pwr with
        parked := true, waking := false, op := 0, target := 0, moveTo := 0, vreq := 0, vackTicks := 0
        moving := if s.pwr.vack = 0 then .none else .drop, confirmed := if s.pwr.vack = 0 then 0 else s.pwr.confirmed }
      clk := { s.clk with lockA := false, aclkOn := false } }) ∧
    (¬ParkConditions s → Completes .park s fun s' => s' = s) ∧
    (s.pwr.parked = true → s.pwr.waking = true → s.pwr.moving = .none → s.pwr.target = 0 → Completes .wake s fun s' =>
      s' = rising s.pwr.runPoint { s with pwr := { s.pwr with target := s.pwr.runPoint } }) ∧
    (s.pwr.parked = false ∨ s.pwr.waking = false ∨ s.pwr.moving ≠ .none ∨ s.pwr.target ≠ 0 →
      Completes .wake s fun s' => s' = s) ∧
    (s.pwr.parked = true → s.pwr.waking = true → s.pwr.moving = .slew → s.domOn 79 = true → 7 ≤ s.boot.stage →
      s.door.sinks = [] → Completes (.pllLock true) s (TowardTarget { s with
        pwr := { s.pwr with
          op := s.pwr.moveTo, target := s.pwr.runPoint, moving := .none, parked := false, waking := false, parkTicks := 0
          wakes := satInc 16 s.pwr.wakes }
        clk := { s.clk with lockA := true, aclkOn := true } }))

/-- The voltage-frequency sequencer, parking and waking (R362 to R369). -/
def Obligations.PowerPoints : Prop := VackEvents ∧ VackTimeouts ∧ SlewEvents ∧ ParkAndWake

/-- The power domains (R357, R358, R366, R367). PSW_GNT lets the next domain of the batch start; a settled one is on; one that does not settle
within 100 ticks is recorded with POWER and, when its block has a shutter, left off; a Sill or Transom that comes on has its reset
contents (R359); an idle unit gates its clock, and a partition that works the clocks of the ranks without rows (04 R97); the row bands of an idle
partition are switched off unless the Frame asks for cycle determinism. -/
def Obligations.PowerDomains : Prop :=
  ∀ s : State,
    (∀ d rest, s.pwr.pswReq = true → s.pwr.starting = none → s.pwr.batch = d :: rest → Completes (.pswGnt true) s fun s' =>
      s'.pwr.pswGnt = true ∧ s'.pwr.starting = some d ∧ s'.pwr.batch = rest ∧ s'.pwr.settleTicks = 0) ∧
    (Completes (.pswGnt false) s fun s' => s' = { s with pwr := { s.pwr with pswGnt := false } }) ∧
    (∀ d : Fin 80, s.pwr.starting = some d.val → s.boot.stage = 8 → Completes (.domainSettled d) s fun s' => s'.domOn d = true ∧
      (∀ k < 80, k ≠ d.val → s'.domOn k = s.domOn k) ∧
      (56 ≤ d.val → d.val ≤ 59 → s'.eng.sill = [] ∧ s'.eng.sillSet = [] ∧ s'.er.spills = 0 ∧ s'.er.drains = 0) ∧
      (d.val = 60 ∨ d.val = 61 → s'.eng.trnFull0 = false ∧ s'.eng.trnFull1 = false ∧ s'.er.trnUnits = 0) ∧
      (s.pwr.batch = [] → s'.pwr.starting = none ∧ s'.pwr.pswReq = false)) ∧
    (∀ d : Fin 80, s.pwr.starting ≠ some d.val → Completes (.domainSettled d) s (fun s' => s' = s) ∧
      Completes (.domainSettleTimeout d) s fun s' => s' = s) ∧
    (∀ d : Fin 80, s.pwr.starting = some d.val → 100 ≤ s.pwr.settleTicks → Completes (.domainSettleTimeout d) s fun s' =>
      s'.pwr.pdFailV = true ∧ s'.pwr.pdFail = BitVec.ofNat 7 d ∧ s'.hinge.irqStat.getLsbD 11 = true ∧
      (domShutters d = true → s'.pwr.leftOff = s.pwr.leftOff ++ [d.val]) ∧
      (domShutters d = false → s'.boot.pdFail = true ∧ s'.pwr.batch = [] ∧ s'.pwr.starting = none)) ∧
    (∀ u, (∀ q, u ≠ .partition q) → s.unitIdle u = false → Completes (.idleGate u) s fun s' => s' = s) ∧
    (∀ q : Fin 8, s.unitIdle (.partition q) = true → Completes (.idleGate (.partition q)) s fun s' =>
      (s'.engine q).gated = true ∧ (∀ r < (s.partLats q).length, (s'.weightsAt (s.cellsOf q r)).gated = true) ∧
      { s' with eng := s.eng } = s) ∧
    (∀ q : Fin 8, s.unitIdle (.partition q) = false → Completes (.idleGate (.partition q)) s fun s' =>
      { s' with eng := { s'.eng with cells := s.eng.cells } } = s ∧
      ((s.runs q).isEmpty = false → ∀ r < (s.partLats q).length, (∀ x ∈ s.runs q, s.rankRows x.2 r = 0) →
        (s'.weightsAt (s.cellsOf q r)).gated = true)) ∧
    (∀ c ∈ [(GateUnit.sash, { s.pwr with sashGated := true }), (.casement, { s.pwr with casGated := true }),
        (.drainLouvre, { s.pwr with louvreGated := s.pwr.louvreGated ||| 1 }),
        (.egressLouvre, { s.pwr with louvreGated := s.pwr.louvreGated ||| 2 })],
      s.unitIdle c.1 = true → Completes (.idleGate c.1) s fun s' => s' = { s with pwr := c.2 }) ∧
    (∀ c ∈ [(GateUnit.transom, 9), (.jambTransfer, 10)], s.unitIdle c.1 = true → Completes (.idleGate c.1) s fun s' =>
      (s'.engine c.2).gated = true ∧ { s' with eng := { s'.eng with engs := s.eng.engs } } = s) ∧
    (∀ q : Fin 8,
      (s.bandIdle q = false → Completes (.latticeBandOff q) s fun s' => s' = s) ∧
      (∀ f, s.bandIdle q = true → s.liveFrame = some f → f.cycDet = true → Completes (.latticeBandOff q) s fun s' => s' = s) ∧
      (∀ f, s.bandIdle q = true → s.liveFrame = some f → f.cycDet = false → Completes (.latticeBandOff q) s fun s' =>
        ∀ l ∈ s.partLats q, (∀ p ∈ s.partsOf l, s.bandIdle p = true) → ∀ b < 8, s'.domOn (8 * l + b) = false))
end

