-- ==== Sys2Proof/Laws/Host.lean ====
section
/-! SUPPORT. The host port: when a register write reaches its register, and the bits of a packed register word. -/

namespace Sys2Proof.Machine

/-- Waking a parked core changes nothing that decides how a request is answered. -/
theorem State.regShut_regWake (s : State) (q r : HReg) : (s.regWake q).regShut r = s.regShut r := by
  unfold State.regWake
  split
  · split
    · unfold State.wakeAsk
      split <;> rfl
    · rfl
  · rfl

theorem State.regOff_regWake (s : State) (q r : HReg) : (s.regWake q).regOff r = s.regOff r := by
  unfold State.regWake
  split
  · split
    · unfold State.wakeAsk
      split <;> rfl
    · rfl
  · rfl

/-- A write that a ready port takes, to a register that answers, is performed (14 R336). The request brings the level of
HG_RSP_READY, and the responses that are decided go first. -/
theorem State.hgRequest_write {s x : State} {h : HgMeta} {r : HReg} {off : Nat} {d : Word}
    (flush : x = ({ s with hinge := { s.hinge with rspReady := h.ready } } : State).hgFlush) (ready : x.hgReady = true)
    (one : h.bcast = false) (reg : hregOf off = some r) (shut : x.regShut r = none) (on : x.regOff r = false) :
    s.hgRequest h off (some d) = (x.regWake r).hgWrite h r d := by
  simp [State.hgRequest, ← flush, ready, one, State.hgOutside, reg, shut, on, State.regShut_regWake, State.regOff_regWake]

/-- The bits of a field of a register word. -/
theorem getLsbD_fld (v lo len i : Nat) :
    (fld v lo len).getLsbD i = (decide (i < 64) && decide (lo ≤ i) && decide (i < lo + len) && v.testBit (i - lo)) := by
  unfold fld w64
  rw [BitVec.getLsbD_ofNat, Nat.testBit_shiftLeft, Nat.testBit_mod_two_pow]
  by_cases h1 : i < 64 <;> by_cases h2 : lo ≤ i <;> simp [h1, h2]
  congr 1
  rw [decide_eq_decide]
  omega

end Sys2Proof.Machine
end

