-- ==== Sys2Proof/Laws/Tables.lean ====
section
/-! SUPPORT. The laws of the sparse tables: what a put changes, and that every operation on a byte store keeps the
canonical form. -/

namespace Sys2Proof.Machine

variable {α : Type} [DecidableEq α]

omit [DecidableEq α] in
@[simp] theorem SMap.look_nil (d : α) (a : Nat) : SMap.look [] d a = d := rfl

/-- The keys of a canonical table rise from its first one. -/
theorem SMap.wf_cons {d : α} {k : Nat} {v : α} {r : SMap α} (h : SMap.wf d ((k, v) :: r) = true) :
    v ≠ d ∧ SMap.wf d r = true ∧ ∀ e ∈ r, k < e.1 := by
  induction r generalizing k v with
  | nil => simp_all [SMap.wf]
  | cons e r ih =>
    obtain ⟨k', v'⟩ := e
    simp only [SMap.wf, Bool.and_eq_true, decide_eq_true_eq] at h
    obtain ⟨⟨h1, h2⟩, h3⟩ := h
    obtain ⟨_, _, h4⟩ := ih h3
    refine ⟨h1, h3, fun e he => ?_⟩
    rcases List.mem_cons.mp he with rfl | he
    · exact h2
    · exact Nat.lt_trans h2 (h4 e he)

/-- A canonical table with a smaller key in front. -/
theorem SMap.wf_of_cons {d : α} {k : Nat} {v : α} {r : SMap α} (hv : v ≠ d) (hr : SMap.wf d r = true)
    (hk : ∀ e ∈ r, k < e.1) : SMap.wf d ((k, v) :: r) = true := by
  cases r with
  | nil => simpa [SMap.wf] using hv
  | cons e r =>
    obtain ⟨k', v'⟩ := e
    simpa [SMap.wf, hv, hr] using hk (k', v') (by simp)

/-- The keys of a table after a put. -/
theorem SMap.mem_put {d : α} {a : Nat} {v : α} {m : SMap α} {e : Nat × α} (h : e ∈ SMap.put m d a v) :
    (e = (a, v) ∧ v ≠ d) ∨ e ∈ m := by
  induction m with
  | nil =>
    simp only [SMap.put] at h
    split at h <;> simp_all
  | cons x r ih =>
    simp only [SMap.put] at h
    split at h
    · exact (ih h).imp id (List.mem_cons_of_mem _)
    · split at h
      · rename_i hc
        rcases List.mem_cons.mp h with h | h
        · exact .inl ⟨h, hc.2⟩
        · exact .inr h
      · rcases List.mem_cons.mp h with h | h
        · simp [h]
        · exact (ih h).imp id (List.mem_cons_of_mem _)

/-- A put keeps the canonical form. -/
theorem SMap.put_wf {d : α} {m : SMap α} (a : Nat) (v : α) (h : SMap.wf d m = true) :
    SMap.wf d (SMap.put m d a v) = true := by
  induction m with
  | nil => simp only [SMap.put]; split <;> simp_all [SMap.wf]
  | cons x r ih =>
    obtain ⟨k, w⟩ := x
    obtain ⟨hw, hr, hk⟩ := SMap.wf_cons h
    simp only [SMap.put]
    split
    · exact ih hr
    · split
      · rename_i hc
        refine SMap.wf_of_cons hc.2 h fun e he => ?_
        rcases List.mem_cons.mp he with rfl | he
        · exact hc.1
        · exact Nat.lt_trans hc.1 (hk e he)
      · rename_i hne hc
        refine SMap.wf_of_cons hw (ih hr) fun e he => ?_
        rcases SMap.mem_put he with ⟨rfl, hv⟩ | he
        · have : ¬a < k := fun hlt => hc ⟨hlt, hv⟩
          simp only
          omega
        · exact hk e he

/-- What a table reads after a put: the value at the key, and what it read before elsewhere. -/
theorem SMap.look_put {d : α} {m : SMap α} (a : Nat) (v : α) (b : Nat) :
    SMap.look (SMap.put m d a v) d b = if b = a then v else SMap.look m d b := by
  induction m with
  | nil =>
    simp only [SMap.put]
    split
    · simp_all
    · simp [SMap.look]
  | cons x r ih =>
    obtain ⟨k, w⟩ := x
    simp only [SMap.put]
    split
    · subst_vars
      rw [ih]
      by_cases hb : b = k <;> simp [SMap.look, hb]
    · split
      · by_cases hb : b = a <;> simp [SMap.look, hb]
      · simp only [SMap.look, ih]
        by_cases hb : b = k
        · subst hb
          simp_all
        · simp [hb]

omit [DecidableEq α] in
/-- An entry that a dropped table lists was listed. -/
theorem SMap.mem_drop {m : SMap α} {p : Nat → Bool} {e : Nat × α} (h : e ∈ SMap.drop m p) : e ∈ m :=
  (List.mem_filter.mp h).1

/-- Dropping keys keeps the canonical form. -/
theorem SMap.drop_wf {d : α} {m : SMap α} (p : Nat → Bool) (h : SMap.wf d m = true) : SMap.wf d (SMap.drop m p) = true := by
  induction m with
  | nil => rfl
  | cons x r ih =>
    obtain ⟨k, w⟩ := x
    obtain ⟨hw, hr, hk⟩ := SMap.wf_cons h
    simp only [SMap.drop, List.filter_cons]
    split
    · exact SMap.wf_of_cons hw (ih hr) fun e he => hk e (SMap.mem_drop he)
    · exact ih hr

theorem Memory.wf_nil : Memory.wf [] := rfl

theorem Memory.putBytes_wf {m : Mem} (a : Nat) (bs : List Byte) (h : Memory.wf m) : Memory.wf (Mem.putBytes m a bs) := by
  induction bs generalizing m a with
  | nil => exact h
  | cons b r ih => exact ih (a + 1) (SMap.put_wf a b h)

theorem Memory.putNum_wf {m : Mem} (a n v : Nat) (h : Memory.wf m) : Memory.wf (Mem.putNum m a n v) :=
  Memory.putBytes_wf a _ h

/-- Puts of a list of cells keep the canonical form. -/
theorem Memory.putCells_wf {m : Mem} (cs : List Host.Cell) (h : Memory.wf m) :
    Memory.wf (cs.foldl (fun m c => SMap.put m 0 c.1 c.2) m) := by
  induction cs generalizing m with
  | nil => exact h
  | cons c r ih => exact ih (SMap.put_wf c.1 c.2 h)

theorem Memory.foldl_wf {β : Type} {g : Mem → β → Mem} (hg : ∀ m b, Memory.wf m → Memory.wf (g m b)) {l : List β} {m : Mem}
    (h : Memory.wf m) : Memory.wf (l.foldl g m) := by
  induction l generalizing m with
  | nil => exact h
  | cons b r ih => exact ih (hg m b h)

/-- A byte of a store after bytes have been written: those inside the range, and the rest as before. -/
theorem Memory.look_putBytes {m : Mem} (a : Nat) (bs : List Byte) (b : Nat) :
    SMap.look (Mem.putBytes m a bs) 0 b =
      if a ≤ b ∧ b < a + bs.length then bs.getD (b - a) 0 else SMap.look m 0 b := by
  induction bs generalizing m a with
  | nil => simp [Mem.putBytes]
  | cons x r ih =>
    simp only [Mem.putBytes]
    rw [ih (a + 1), SMap.look_put a x b]
    by_cases hb : b = a
    · subst hb; simp
    · by_cases h1 : a + 1 ≤ b ∧ b < a + 1 + r.length
      · have h2 : a ≤ b ∧ b < a + (x :: r).length := ⟨by omega, by simp only [List.length_cons]; omega⟩
        rw [if_pos h1, if_pos h2]
        have : b - a = (b - (a + 1)) + 1 := by omega
        simp [this]
      · have h2 : ¬(a ≤ b ∧ b < a + (x :: r).length) := by simp only [List.length_cons]; omega
        rw [if_neg h1, if_neg h2, if_neg hb]

theorem natLe_length (n v : Nat) : (natLe n v).length = n := by
  induction n generalizing v with
  | zero => rfl
  | succ n ih => simp [natLe, ih]

/-- The number in bytes just written is the one written, modulo its width (00 R12). -/
theorem leNat_natLe (n v : Nat) : leNat (natLe n v) = v % 256 ^ n := by
  induction n generalizing v with
  | zero => simp [natLe, leNat, Nat.mod_one]
  | succ n ih =>
    have h : (BitVec.ofNat 8 v).toNat = v % 256 := by simp
    rw [natLe, leNat, ih, h, Nat.pow_succ, Nat.mul_comm (256 ^ n) 256, Nat.mod_mul]

/-- Reading back the bytes just written. -/
theorem Memory.num_putNum {m : Mem} (a n v : Nat) : Mem.num (Mem.putNum m a n v) a n = v % 256 ^ n := by
  have hb : Mem.bytes (Mem.putNum m a n v) a n = natLe n v := by
    apply List.ext_getElem
    · simp [Mem.bytes, natLe_length]
    · intro i h1 h2
      have hi : i < n := by simpa [Mem.bytes] using h1
      simp only [Mem.bytes, Mem.putNum, List.getElem_map, List.getElem_range]
      rw [Memory.look_putBytes a _ _, if_pos ⟨by omega, by rw [natLe_length]; omega⟩]
      simp [h2]
  rw [Mem.num, hb, leNat_natLe]

end Sys2Proof.Machine
end

