-- ==== Sys2Proof/Laws/Keeps.lean ====
section
/-! SUPPORT. `State.Keeps s0 s`: what no command and no tick ever breaks on the way from s0 to s, with the rules by
which it passes through the shapes that meanings are made of. The files KeepsX.lean hold one lemma for each operation of
Machine/X.lean. -/

namespace Sys2Proof.Machine

/-- The queue is the same, and each invariant of Safety.lean that held before holds after. -/
structure State.Keeps (s0 s : State) : Prop where
  queue : s.pending = s0.pending
  storage : s0.storageWf → s.storageWf
  exc : s0.excBound → s.excBound
  period : s0.periodOk → s.periodOk
  tags : s0.tagsOnce → s.tagsOnce
  live : s0.oneLive → s.oneLive

theorem State.Keeps.refl (s : State) : s.Keeps s := ⟨rfl, id, id, id, id, id⟩

theorem State.Keeps.trans {a b c : State} (h : a.Keeps b) (k : b.Keeps c) : a.Keeps c :=
  ⟨k.queue.trans h.queue, fun x => k.storage (h.storage x), fun x => k.exc (h.exc x), fun x => k.period (h.period x),
   fun x => k.tags (h.tags x), fun x => k.live (h.live x)⟩

/-- A state that differs from `x` only in parts that no invariant speaks of. -/
theorem State.Keeps.upd {s0 x s' : State} (h : s0.Keeps x) (e1 : s'.pending = x.pending)
    (e2 : s'.sash.dmem = x.sash.dmem) (e3 : s'.eng.spad = x.eng.spad) (e4 : s'.eng.sill = x.eng.sill)
    (e5 : s'.sash.excq = x.sash.excq) (e6 : s'.wd.period = x.wd.period) (e7 : s'.jamb.tags = x.jamb.tags)
    (e8 : s'.frame.plane0.state = x.frame.plane0.state) (e9 : s'.frame.plane1.state = x.frame.plane1.state) :
    s0.Keeps s' where
  queue := e1.trans h.queue
  storage k := ⟨e2 ▸ (h.storage k).dmem, e3 ▸ (h.storage k).spad, e4 ▸ (h.storage k).sill⟩
  exc k := by have := h.exc k; unfold State.excBound at *; rw [e5]; exact this
  period k := by have := h.period k; unfold State.periodOk at *; rw [e6]; exact this
  tags k := by have := h.tags k; unfold State.tagsOnce at *; rw [e7]; exact this
  live k := by have := h.live k; unfold State.oneLive at *; rw [e8, e9]; exact this

/-- The same, where the byte stores change and keep their form. -/
theorem State.Keeps.store {s0 x s' : State} (h : s0.Keeps x) (e1 : s'.pending = x.pending)
    (e2 : Memory.wf x.sash.dmem → Memory.wf s'.sash.dmem) (e3 : Memory.wf x.eng.spad → Memory.wf s'.eng.spad)
    (e4 : Memory.wf x.eng.sill → Memory.wf s'.eng.sill) (e5 : s'.sash.excq = x.sash.excq)
    (e6 : s'.wd.period = x.wd.period) (e7 : s'.jamb.tags = x.jamb.tags)
    (e8 : s'.frame.plane0.state = x.frame.plane0.state) (e9 : s'.frame.plane1.state = x.frame.plane1.state) :
    s0.Keeps s' where
  queue := e1.trans h.queue
  storage k := ⟨e2 (h.storage k).dmem, e3 (h.storage k).spad, e4 (h.storage k).sill⟩
  exc k := by have := h.exc k; unfold State.excBound at *; rw [e5]; exact this
  period k := by have := h.period k; unfold State.periodOk at *; rw [e6]; exact this
  tags k := by have := h.tags k; unfold State.tagsOnce at *; rw [e7]; exact this
  live k := by have := h.live k; unfold State.oneLive at *; rw [e8, e9]; exact this

/-- The same, where the outstanding requests change and no tag comes twice. -/
theorem State.Keeps.retag {s0 x s' : State} (h : s0.Keeps x) (e1 : s'.pending = x.pending)
    (e2 : s'.sash.dmem = x.sash.dmem) (e3 : s'.eng.spad = x.eng.spad) (e4 : s'.eng.sill = x.eng.sill)
    (e5 : s'.sash.excq = x.sash.excq) (e6 : s'.wd.period = x.wd.period)
    (e7 : (x.jamb.tags.map fun g => g.tag).Nodup → (s'.jamb.tags.map fun g => g.tag).Nodup)
    (e8 : s'.frame.plane0.state = x.frame.plane0.state) (e9 : s'.frame.plane1.state = x.frame.plane1.state) :
    s0.Keeps s' where
  queue := e1.trans h.queue
  storage k := ⟨e2 ▸ (h.storage k).dmem, e3 ▸ (h.storage k).spad, e4 ▸ (h.storage k).sill⟩
  exc k := by have := h.exc k; unfold State.excBound at *; rw [e5]; exact this
  period k := by have := h.period k; unfold State.periodOk at *; rw [e6]; exact this
  tags k := e7 (h.tags k)
  live k := by have := h.live k; unfold State.oneLive at *; rw [e8, e9]; exact this

/-- The same, where the exception queue has not grown. -/
theorem State.Keeps.excLess {s0 x s' : State} (h : s0.Keeps x) (e1 : s'.pending = x.pending)
    (e2 : s'.sash.dmem = x.sash.dmem) (e3 : s'.eng = x.eng) (e5 : s'.sash.excq.length ≤ x.sash.excq.length)
    (e6 : s'.wd = x.wd) (e7 : s'.jamb = x.jamb) (e8 : s'.frame = x.frame) : s0.Keeps s' where
  queue := e1.trans h.queue
  storage k := ⟨e2 ▸ (h.storage k).dmem, e3 ▸ (h.storage k).spad, e3 ▸ (h.storage k).sill⟩
  exc k := Nat.le_trans e5 (h.exc k)
  period k := by have := h.period k; unfold State.periodOk at *; rw [e6]; exact this
  tags k := by have := h.tags k; unfold State.tagsOnce at *; rw [e7]; exact this
  live k := by have := h.live k; unfold State.oneLive at *; rw [e8]; exact this

/-- The same for a state written out field by field. -/
theorem State.Keeps.mk' {s0 x : State} {f b u s : ThreadState} {sash : Sash} {dcache : List DcEntry} {eng : Engines}
    {er : EngRegs} {cr : CtlRegs} {frame : FrameUnit} {jamb : Jamb} {latch : LatchUnit} {wd : Watchdog}
    {door : Doorway} {hinge : Hinge} {clk : Clocks} {pwr : Power} {boot : Boot} {int : Integrity} {rpl : Replay}
    {lt : Lintel} {time : Time} {fresh : Nat} {pending : List Instr}
    (h : s0.Keeps x) (e1 : pending = x.pending)
    (e2 : sash.dmem = x.sash.dmem) (e3 : eng.spad = x.eng.spad) (e4 : eng.sill = x.eng.sill)
    (e5 : sash.excq = x.sash.excq) (e6 : wd.period = x.wd.period) (e7 : jamb.tags = x.jamb.tags)
    (e8 : frame.plane0.state = x.frame.plane0.state) (e9 : frame.plane1.state = x.frame.plane1.state) :
    s0.Keeps ⟨f, b, u, s, sash, dcache, eng, er, cr, frame, jamb, latch, wd, door, hinge, clk, pwr, boot, int, rpl, lt,
      time, fresh, pending⟩ :=
  h.upd e1 e2 e3 e4 e5 e6 e7 e8 e9

theorem State.Keeps.ite {s0 a b : State} {c : Prop} [Decidable c] (ha : c → s0.Keeps a) (hb : ¬c → s0.Keeps b) :
    s0.Keeps (if c then a else b) := by
  split
  · exact ha ‹_›
  · exact hb ‹_›

theorem State.Keeps.foldl {s0 : State} {α : Type} {g : State → α → State} {l : List α} {s : State}
    (hg : ∀ x a, s0.Keeps x → s0.Keeps (g x a)) (h : s0.Keeps s) : s0.Keeps (l.foldl g s) := by
  induction l generalizing s with
  | nil => exact h
  | cons a r ih => exact ih (hg s a h)

/-- The requests that are left of those outstanding. -/
theorem tags_filter {l : List JTag} (p : JTag → Bool) (h : (l.map fun g => g.tag).Nodup) :
    ((l.filter p).map fun g => g.tag).Nodup :=
  h.sublist (List.filter_sublist.map _)

/-- The same requests outstanding, under the same tags. -/
theorem tags_map {l : List JTag} {g : JTag → JTag} (hg : ∀ x, (g x).tag = x.tag) (h : (l.map fun g => g.tag).Nodup) :
    ((l.map g).map fun g => g.tag).Nodup := by
  rw [List.map_map, show ((fun g : JTag => g.tag) ∘ g) = fun g => g.tag from funext hg]
  exact h

end Sys2Proof.Machine
end

