-- ==== Sys2Proof/Laws/KeepsOps.lean ====
section
/-! SUPPORT. No operation of Machine/Ops.lean breaks what `State.Keeps` speaks of. -/

namespace Sys2Proof.Machine

theorem State.setTh_keeps {s0 s : State} (t : Thread) (v : ThreadState) (hk : s0.Keeps s) :
    s0.Keeps (State.setTh s t v) := by
  unfold State.setTh
  repeat' first
    | (with_reducible assumption) | split | (dsimp only)
    | (with_reducible refine State.Keeps.mk' ?_ rfl rfl rfl rfl rfl rfl rfl rfl rfl)

theorem State.modTh_keeps {s0 s : State} (t : Thread) (g : ThreadState → ThreadState) (hk : s0.Keeps s) :
    s0.Keeps (State.modTh s t g) := by
  unfold State.modTh
  repeat' first
    | (with_reducible assumption) | (with_reducible apply State.setTh_keeps)

theorem State.setReg_keeps {s0 s : State} (t : Thread) (r : Reg) (v : Word) (hk : s0.Keeps s) :
    s0.Keeps (State.setReg s t r v) := by
  unfold State.setReg
  repeat' first
    | (with_reducible assumption) | (with_reducible apply State.modTh_keeps)
    | (with_reducible apply State.Keeps.ite) | (intro)

theorem State.pcAdd_keeps {s0 s : State} (t : Thread) (n : Nat) (hk : s0.Keeps s) :
    s0.Keeps (State.pcAdd s t n) := by
  unfold State.pcAdd
  repeat' first
    | (with_reducible assumption) | (with_reducible apply State.modTh_keeps)

theorem State.modPlane_keeps {s0 s : State} (i : Nat) (g : Plane → Plane)
    (hg : ∀ x, (g x).state = .live → x.state = .live) (h : s0.Keeps s) : s0.Keeps (State.modPlane s i g) := by
  unfold State.modPlane
  split
  · exact ⟨h.queue, fun k => ⟨(h.storage k).1, (h.storage k).2, (h.storage k).3⟩, h.exc, h.period, h.tags,
      fun k a => h.live k (hg _ a)⟩
  · exact ⟨h.queue, fun k => ⟨(h.storage k).1, (h.storage k).2, (h.storage k).3⟩, h.exc, h.period, h.tags,
      fun k a b => h.live k a (hg _ b)⟩

theorem State.modEngine_keeps {s0 s : State} (q : Nat) (g : Engine → Engine) (hk : s0.Keeps s) :
    s0.Keeps (State.modEngine s q g) := by
  unfold State.modEngine
  repeat' first
    | (with_reducible assumption) | (with_reducible refine State.Keeps.mk' ?_ rfl rfl rfl rfl rfl rfl rfl rfl rfl)

theorem State.modEntry_keeps {s0 s : State} (uid : Nat) (g : Entry → Entry) (hk : s0.Keeps s) :
    s0.Keeps (State.modEntry s uid g) := by
  unfold State.modEntry
  repeat' first
    | (with_reducible assumption) | (intro)
    | (with_reducible refine State.Keeps.mk' ?_ rfl rfl rfl rfl rfl rfl rfl rfl rfl)

theorem State.modEr_keeps {s0 s : State} (g : EngRegs → EngRegs) (hk : s0.Keeps s) :
    s0.Keeps (State.modEr s g) := by
  unfold State.modEr
  repeat' first
    | (with_reducible assumption) | (with_reducible refine State.Keeps.mk' ?_ rfl rfl rfl rfl rfl rfl rfl rfl rfl)

theorem State.modCr_keeps {s0 s : State} (g : CtlRegs → CtlRegs) (hk : s0.Keeps s) :
    s0.Keeps (State.modCr s g) := by
  unfold State.modCr
  repeat' first
    | (with_reducible assumption) | (with_reducible refine State.Keeps.mk' ?_ rfl rfl rfl rfl rfl rfl rfl rfl rfl)

theorem State.modLink_keeps {s0 s : State} (l : Nat) (g : Link → Link) (hk : s0.Keeps s) :
    s0.Keeps (State.modLink s l g) := by
  unfold State.modLink
  repeat' first
    | (with_reducible assumption) | (with_reducible refine State.Keeps.mk' ?_ rfl rfl rfl rfl rfl rfl rfl rfl rfl)

theorem State.draw_keeps {s0 s : State} (h : s0.Keeps s) : s0.Keeps s.draw.2 :=
  h.upd rfl rfl rfl rfl rfl rfl rfl rfl rfl

end Sys2Proof.Machine
end

