-- ==== Sys2Proof/Laws/KeepsExcept.lean ====
section
/-! SUPPORT. No operation of Machine/Except.lean breaks what `State.Keeps` speaks of. -/

namespace Sys2Proof.Machine

theorem State.wakeAsk_keeps {s0 s : State} (hk : s0.Keeps s) :
    s0.Keeps (State.wakeAsk s) := by
  unfold State.wakeAsk
  repeat' first
    | (with_reducible assumption) | (with_reducible apply State.Keeps.ite) | (intro)
    | (with_reducible refine State.Keeps.mk' ?_ rfl rfl rfl rfl rfl rfl rfl rfl rfl)

theorem State.setGoErr_keeps {s0 s : State} (b : GoBit) (v : Bool) (hk : s0.Keeps s) :
    s0.Keeps (State.setGoErr s b v) := by
  unfold State.setGoErr
  repeat' first
    | (with_reducible assumption) | split | (dsimp only)
    | (with_reducible refine State.Keeps.mk' ?_ rfl rfl rfl rfl rfl rfl rfl rfl rfl)

theorem State.goRefused_keeps {s0 s : State} (b : GoBit) (hk : s0.Keeps s) :
    s0.Keeps (State.goRefused s b) := by
  unfold State.goRefused
  repeat' first
    | (with_reducible assumption) | (with_reducible apply State.setGoErr_keeps)
    | (with_reducible apply State.Keeps.ite) | (intro)
    | (with_reducible refine State.Keeps.mk' ?_ rfl rfl rfl rfl rfl rfl rfl rfl rfl)

theorem State.goCleared_keeps {s0 s : State} (b : GoBit) (hk : s0.Keeps s) :
    s0.Keeps (State.goCleared s b) := by
  unfold State.goCleared
  repeat' first
    | (with_reducible assumption) | (with_reducible apply State.setGoErr_keeps)
    | (with_reducible apply State.Keeps.ite) | (intro)
    | (with_reducible refine State.Keeps.mk' ?_ rfl rfl rfl rfl rfl rfl rfl rfl rfl)

theorem State.irqSet_keeps {s0 s : State} (bit : Nat) (hk : s0.Keeps s) :
    s0.Keeps (State.irqSet s bit) := by
  unfold State.irqSet
  repeat' first
    | (with_reducible assumption) | (with_reducible refine State.Keeps.mk' ?_ rfl rfl rfl rfl rfl rfl rfl rfl rfl)

theorem excInsert_length (x : ExcRec) (l : List ExcRec) : (excInsert x l).length = l.length + 1 := by
  induction l with
  | nil => rfl
  | cons y r ih =>
    unfold excInsert
    split
    · rfl
    · simp only [List.length_cons, ih]

theorem State.excPush_keeps {s0 s : State} (i : ExcInfo) (h : s0.Keeps s) : s0.Keeps (State.excPush s i) := by
  have long {s' : State} (h : s0.Keeps s) (e1 : s'.pending = s.pending) (e2 : s'.sash.dmem = s.sash.dmem)
      (e3 : s'.eng = s.eng) (e5 : s'.sash.excq.length ≤ 16) (e6 : s'.wd = s.wd) (e7 : s'.jamb = s.jamb)
      (e8 : s'.frame = s.frame) : s0.Keeps s' :=
    ⟨e1.trans h.queue, fun k => ⟨e2 ▸ (h.storage k).dmem, e3 ▸ (h.storage k).spad, e3 ▸ (h.storage k).sill⟩, fun _ =>
    e5,
     fun k => by have := h.period k; unfold State.periodOk at *; rw [e6]; exact this,
     fun k => by have := h.tags k; unfold State.tagsOnce at *; rw [e7]; exact this,
     fun k => by have := h.live k; unfold State.oneLive at *; rw [e8]; exact this⟩
  have n16 (l : List ExcRec) : (l.take 16).length ≤ 16 := by simp
  unfold State.excPush
  dsimp only
  split
  · refine State.irqSet_keeps 5 (long h rfl rfl rfl ?_ rfl rfl rfl)
    simp only [List.length_append, List.length_take, excInsert_length, List.length_drop]
    omega
  · split
    · exact long h rfl rfl rfl (n16 _) rfl rfl rfl
    · exact State.irqSet_keeps 5 (long h rfl rfl rfl (n16 _) rfl rfl rfl)

theorem State.eventDetail_keeps {s0 s : State} (d : Option (BitVec 16)) (h : s0.Keeps s) :
    s0.Keeps (State.eventDetail s d).2 := by
  unfold State.eventDetail
  split
  · exact h
  · exact h.upd rfl rfl rfl rfl rfl rfl rfl rfl rfl

theorem State.integrity_keeps {s0 s : State} (i : EventInfo) (hk : s0.Keeps s) :
    s0.Keeps (State.integrity s i) := by
  unfold State.integrity
  repeat' first
    | (with_reducible assumption) | (with_reducible apply State.eventDetail_keeps)
    | (with_reducible apply State.irqSet_keeps) | (with_reducible apply State.excPush_keeps)
    | (with_reducible apply State.Keeps.ite) | (intro)
    | (with_reducible refine State.Keeps.mk' ?_ rfl rfl rfl rfl rfl rfl rfl rfl rfl)

theorem State.classS_keeps {s0 s : State} (mech : Nat) (e : Entry) (status : Nat) (detail : BitVec 16) (hk : s0.Keeps
    s) :
    s0.Keeps (State.classS s mech e status detail) := by
  unfold State.classS
  repeat' first
    | (with_reducible assumption) | (with_reducible apply State.integrity_keeps)

theorem State.struck_keeps {s0 s : State} (k : Site) (hk : s0.Keeps s) :
    s0.Keeps (State.struck s k) := by
  unfold State.struck
  repeat' first
    | (with_reducible assumption) | (intro)
    | (with_reducible refine State.Keeps.mk' ?_ rfl rfl rfl rfl rfl rfl rfl rfl rfl)

theorem State.corrected_keeps {s0 s : State} (hk : s0.Keeps s) :
    s0.Keeps (State.corrected s) := by
  unfold State.corrected
  repeat' first
    | (with_reducible assumption) | (with_reducible refine State.Keeps.mk' ?_ rfl rfl rfl rfl rfl rfl rfl rfl rfl)

theorem State.alarmFlags_keeps {s0 s : State} (f : Flags) (stream : Nat) (ctx : Nat) (queue : Nat) (iseq : BitVec 32)
    (hk : s0.Keeps s) :
    s0.Keeps (State.alarmFlags s f stream ctx queue iseq) := by
  unfold State.alarmFlags
  repeat' first
    | (with_reducible assumption) | (with_reducible apply State.integrity_keeps)
    | (with_reducible apply State.Keeps.ite) | (intro)

theorem State.waitIn_keeps {s0 s : State} (t : Thread) (st : TState) (w : Wait) (hk : s0.Keeps s) :
    s0.Keeps (State.waitIn s t st w) := by
  unfold State.waitIn
  repeat' first
    | (with_reducible assumption) | (with_reducible apply State.modTh_keeps)

theorem State.waitMem_keeps {s0 s : State} (t : Thread) (w : Wait) (hk : s0.Keeps s) :
    s0.Keeps (State.waitMem s t w) := by
  unfold State.waitMem
  repeat' first
    | (with_reducible assumption) | (with_reducible apply State.modTh_keeps)

theorem State.stopped_keeps {s0 s : State} (t : Thread) (hk : s0.Keeps s) :
    s0.Keeps (State.stopped s t) := by
  unfold State.stopped
  repeat' first
    | (with_reducible assumption) | (with_reducible apply State.modTh_keeps)

theorem State.wakeUp_keeps {s0 s : State} (t : Thread) (hk : s0.Keeps s) :
    s0.Keeps (State.wakeUp s t) := by
  unfold State.wakeUp
  repeat' first
    | (with_reducible assumption) | (with_reducible apply State.stopped_keeps)
    | (with_reducible apply State.modTh_keeps) | (with_reducible apply State.Keeps.ite) | (intro)

theorem State.stopAtBoundary_keeps {s0 s : State} (t : Thread) (hk : s0.Keeps s) :
    s0.Keeps (State.stopAtBoundary s t) := by
  unfold State.stopAtBoundary
  repeat' first
    | (with_reducible assumption) | (with_reducible apply State.stopped_keeps)
    | (with_reducible apply State.modTh_keeps) | (intro) | split

theorem State.controlParity_keeps {s0 s : State} (detail : BitVec 16) (hk : s0.Keeps s) :
    s0.Keeps (State.controlParity s detail) := by
  unfold State.controlParity
  repeat' first
    | (with_reducible assumption) | (with_reducible apply State.stopAtBoundary_keeps)
    | (with_reducible apply State.integrity_keeps)
    | (with_reducible refine State.Keeps.mk' ?_ rfl rfl rfl rfl rfl rfl rfl rfl rfl)

theorem State.trackerParity_keeps {s0 s : State} (d : BitVec 16) (hk : s0.Keeps s) :
    s0.Keeps (State.trackerParity s d) := by
  unfold State.trackerParity
  repeat' first
    | (with_reducible assumption) | (with_reducible apply State.integrity_keeps)
    | (with_reducible refine State.Keeps.mk' ?_ rfl rfl rfl rfl rfl rfl rfl rfl rfl)

theorem State.parityCheck_keeps {s0 s : State} (k : Site) (hk : s0.Keeps s) :
    s0.Keeps (State.parityCheck s k) := by
  unfold State.parityCheck
  repeat' first
    | (with_reducible assumption) | (with_reducible apply State.struck_keeps)
    | (with_reducible apply State.controlParity_keeps) | split

theorem State.stopExc_keeps {s0 s : State} (t : Thread) (cause : Nat) (status : Nat) (info : Word) (pc : BitVec 48)
    (hk : s0.Keeps s) :
    s0.Keeps (State.stopExc s t cause status info pc) := by
  unfold State.stopExc
  repeat' first
    | (with_reducible assumption) | (with_reducible apply State.modTh_keeps)
    | (with_reducible apply State.excPush_keeps) | (with_reducible apply State.integrity_keeps)
    | (with_reducible apply State.irqSet_keeps) | (with_reducible apply State.stopped_keeps)
    | (with_reducible apply State.Keeps.ite) | (intro)

theorem State.illegal_keeps {s0 s : State} (t : Thread) (hk : s0.Keeps s) :
    s0.Keeps (State.illegal s t) := by
  unfold State.illegal
  repeat' first
    | (with_reducible assumption) | (with_reducible apply State.stopExc_keeps)

theorem State.setLatch_keeps {s0 s : State} (bank : Nat) (k : Nat) (v : BitVec 8) (hk : s0.Keeps s) :
    s0.Keeps (State.setLatch s bank k v) := by
  unfold State.setLatch
  repeat' first
    | (with_reducible assumption) | (with_reducible refine State.Keeps.mk' ?_ rfl rfl rfl rfl rfl rfl rfl rfl rfl)

theorem State.latchEvent_keeps {s0 s : State} (bank : Nat) (k : Nat) (src : SigSrc) (hk : s0.Keeps s) :
    s0.Keeps (State.latchEvent s bank k src) := by
  unfold State.latchEvent
  repeat' first
    | (with_reducible assumption) | (with_reducible apply State.modPlane_keeps) | exact fun _ k => k
    | (intro _ k; cases k; done) | (with_reducible apply State.Keeps.ite) | (intro) | split

theorem State.latchOverflow_keeps {s0 s : State} (bank : Nat) (k : Nat) (src : SigSrc) (hk : s0.Keeps s) :
    s0.Keeps (State.latchOverflow s bank k src) := by
  unfold State.latchOverflow
  extract_lets _ a l b stop
  have ha : s0.Keeps a := hk.upd rfl rfl rfl rfl rfl rfl rfl rfl rfl
  have hb : s0.Keeps b := State.excPush_keeps _ ha
  have hs : ∀ x t, s0.Keeps x → s0.Keeps (stop x t) := fun x t k =>
    State.Keeps.ite (fun _ => State.stopAtBoundary_keeps _ k) fun _ => k
  clear_value b stop
  split
  · exact State.Keeps.ite (fun _ => State.stopAtBoundary_keeps _ hb) fun _ => hb
  · exact State.integrity_keeps _ (hs _ _ (hs _ _ (hs _ _ hb)))
  · exact hb

theorem State.latchSignal_keeps {s0 s : State} (bank : Nat) (k : Nat) (src : SigSrc) (hk : s0.Keeps s) :
    s0.Keeps (State.latchSignal s bank k src) := by
  unfold State.latchSignal
  repeat' first
    | (with_reducible assumption) | (with_reducible apply State.wakeAsk_keeps)
    | (with_reducible apply State.parityCheck_keeps) | (with_reducible apply State.latchOverflow_keeps)
    | (with_reducible apply State.latchEvent_keeps) | (with_reducible apply State.setLatch_keeps)
    | (with_reducible apply State.Keeps.ite) | (intro)

theorem State.latchConsume_keeps {s0 s : State} (bank : Nat) (k : Nat) (src : SigSrc) (hk : s0.Keeps s) :
    s0.Keeps (State.latchConsume s bank k src) := by
  unfold State.latchConsume
  repeat' first
    | (with_reducible assumption) | (with_reducible apply State.latchEvent_keeps)
    | (with_reducible apply State.setLatch_keeps)

end Sys2Proof.Machine
end

