-- ==== Sys2Proof/Laws/KeepsJamb.lean ====
section
/-! SUPPORT. No operation of Machine/Jamb.lean breaks what `State.Keeps` speaks of. -/

namespace Sys2Proof.Machine

theorem State.jambAdd_keeps {s0 s : State} (rs : List JReq) (hk : s0.Keeps s) :
    s0.Keeps (State.jambAdd s rs) := by
  unfold State.jambAdd
  repeat' first
    | (with_reducible assumption) | (with_reducible refine State.Keeps.mk' ?_ rfl rfl rfl rfl rfl rfl rfl rfl rfl)

theorem State.jambFault_keeps {s0 s : State} (r : JReq) (cause : Nat) (hk : s0.Keeps s) :
    s0.Keeps (State.jambFault s r cause) := by
  unfold State.jambFault
  repeat' first
    | (with_reducible assumption) | (with_reducible apply State.irqSet_keeps)
    | (with_reducible refine State.Keeps.mk' ?_ rfl rfl rfl rfl rfl rfl rfl rfl rfl)

theorem State.fetchAsk_keeps {s0 s : State} (t : Thread) (again : Bool) (line : Nat) (hk : s0.Keeps s) :
    s0.Keeps (State.fetchAsk s t again line) := by
  unfold State.fetchAsk
  repeat' first
    | (with_reducible assumption) | (with_reducible apply State.modTh_keeps)
    | (with_reducible apply State.waitMem_keeps) | (with_reducible apply State.jambAdd_keeps)
    | (with_reducible apply State.Keeps.ite) | (intro)

theorem State.refetched_keeps {s0 s : State} (hk : s0.Keeps s) :
    s0.Keeps (State.refetched s) := by
  unfold State.refetched
  repeat' first
    | (with_reducible assumption) | (with_reducible refine State.Keeps.mk' ?_ rfl rfl rfl rfl rfl rfl rfl rfl rfl)

theorem State.fetchAt_keeps {s0 s : State} (t : Thread) (line : Nat) (hk : s0.Keeps s) :
    s0.Keeps (State.fetchAt s t line) := by
  unfold State.fetchAt
  repeat' first
    | (with_reducible assumption) | (with_reducible apply State.struck_keeps)
    | (with_reducible apply State.corrected_keeps) | (with_reducible apply State.fetchAsk_keeps)
    | (with_reducible apply State.refetched_keeps) | (with_reducible apply State.Keeps.ite) | (intro) | split
    | (dsimp only) | (with_reducible refine State.Keeps.mk' ?_ rfl rfl rfl rfl rfl rfl rfl rfl rfl)

theorem State.fetchNext_keeps {s0 s : State} (t : Thread) (hk : s0.Keeps s) :
    s0.Keeps (State.fetchNext s t) := by
  unfold State.fetchNext
  repeat' first
    | (with_reducible assumption) | (with_reducible apply State.fetchAt_keeps)

theorem State.goto_keeps {s0 s : State} (t : Thread) (pc : BitVec 48) (hk : s0.Keeps s) :
    s0.Keeps (State.goto s t pc) := by
  unfold State.goto
  repeat' first
    | (with_reducible assumption) | (with_reducible apply State.fetchNext_keeps)
    | (with_reducible apply State.modTh_keeps)

theorem State.advance_keeps {s0 s : State} (t : Thread) (n : Nat) (hk : s0.Keeps s) :
    s0.Keeps (State.advance s t n) := by
  unfold State.advance
  repeat' first
    | (with_reducible assumption) | (with_reducible apply State.goto_keeps)

theorem State.resume_keeps {s0 s : State} (t : Thread) (n : Nat) (hk : s0.Keeps s) :
    s0.Keeps (State.resume s t n) := by
  unfold State.resume
  repeat' first
    | (with_reducible assumption) | (with_reducible apply State.modTh_keeps)
    | (with_reducible apply State.fetchNext_keeps) | (with_reducible apply State.wakeUp_keeps)

theorem State.retry_keeps {s0 s : State} (t : Thread) (hk : s0.Keeps s) :
    s0.Keeps (State.retry s t) := by
  unfold State.retry
  repeat' first
    | (with_reducible assumption) | (with_reducible apply State.fetchNext_keeps)
    | (with_reducible apply State.wakeUp_keeps)

theorem State.dcTouch_keeps {s0 s : State} (ctx : Nat) (h : Nat) (hk : s0.Keeps s) :
    s0.Keeps (State.dcTouch s ctx h) := by
  unfold State.dcTouch
  repeat' first
    | (with_reducible assumption) | (intro) | split | (dsimp only)
    | (with_reducible refine State.Keeps.mk' ?_ rfl rfl rfl rfl rfl rfl rfl rfl rfl)

theorem State.dcWriteback_keeps {s0 s : State} (e : DcEntry) (hk : s0.Keeps s) :
    s0.Keeps (State.dcWriteback s e) := by
  unfold State.dcWriteback
  repeat' first
    | (with_reducible assumption) | (with_reducible apply State.jambAdd_keeps)

theorem State.dcInsert_keeps {s0 s : State} (ctx : Nat) (h : Nat) (d : Desc) (hk : s0.Keeps s) :
    s0.Keeps (State.dcInsert s ctx h d) := by
  unfold State.dcInsert
  repeat' first
    | (with_reducible assumption) | (with_reducible apply State.dcWriteback_keeps)
    | (with_reducible apply State.Keeps.ite) | (intro) | split | (dsimp only)
    | (with_reducible refine State.Keeps.mk' ?_ rfl rfl rfl rfl rfl rfl rfl rfl rfl)

theorem State.dcUpdate_keeps {s0 s : State} (ctx : Nat) (h : Nat) (d : Desc) (hk : s0.Keeps s) :
    s0.Keeps (State.dcUpdate s ctx h d) := by
  unfold State.dcUpdate
  repeat' first
    | (with_reducible assumption) | (with_reducible apply State.dcTouch_keeps) | (intro)
    | (with_reducible refine State.Keeps.mk' ?_ rfl rfl rfl rfl rfl rfl rfl rfl rfl)

theorem State.dcRead_keeps {s0 s : State} (ctx h : Nat) (hk : s0.Keeps s) : s0.Keeps (State.dcRead s ctx h).1 := by
  unfold State.dcRead
  split
  · exact hk
  · split
    · exact State.dcTouch_keeps _ _ hk
    · exact State.dcTouch_keeps _ _ (State.corrected_keeps (State.struck_keeps _ hk))
    · exact State.integrity_keeps _ (State.struck_keeps _ (hk.upd rfl rfl rfl rfl rfl rfl rfl rfl rfl))

theorem State.fillsDrop_keeps {s0 s : State} (ctx : Nat) (hk : s0.Keeps s) :
    s0.Keeps (State.fillsDrop s ctx) := by
  unfold State.fillsDrop
  refine hk.retag rfl rfl rfl rfl rfl rfl (tags_map fun x => ?_) rfl rfl
  dsimp only
  split <;> rfl

theorem State.fillAsk_keeps {s0 s : State} (ctx : Nat) (h : Nat) (hk : s0.Keeps s) :
    s0.Keeps (State.fillAsk s ctx h) := by
  unfold State.fillAsk
  repeat' first
    | (with_reducible assumption) | (with_reducible apply State.jambAdd_keeps)
    | (with_reducible apply State.Keeps.ite) | (intro)

theorem State.descFault_keeps {s0 s : State} (ctx : Nat) (h : Nat) (status : Nat) (hk : s0.Keeps s) :
    s0.Keeps (State.descFault s ctx h status) := by
  unfold State.descFault
  repeat' first
    | (with_reducible assumption) | (with_reducible apply State.modCr_keeps)

theorem State.dcFlush_keeps {s0 s : State} (ctx : Nat) (h : Nat) (hk : s0.Keeps s) :
    s0.Keeps (State.dcFlush s ctx h) := by
  unfold State.dcFlush
  repeat' first
    | (with_reducible assumption) | (with_reducible apply State.dcWriteback_keeps)
    | (with_reducible apply State.Keeps.ite) | (intro) | split | (dsimp only)
    | (with_reducible refine State.Keeps.mk' ?_ rfl rfl rfl rfl rfl rfl rfl rfl rfl)

theorem State.dcClean_keeps {s0 s : State} (ctx : Nat) (hk : s0.Keeps s) :
    s0.Keeps (State.dcClean s ctx) := by
  unfold State.dcClean
  repeat' first
    | (with_reducible assumption) | (with_reducible apply State.dcWriteback_keeps)
    | (with_reducible apply State.Keeps.foldl) | (with_reducible apply State.Keeps.ite) | (intro)
    | (with_reducible refine State.Keeps.mk' ?_ rfl rfl rfl rfl rfl rfl rfl rfl rfl)

theorem State.dcFlushAll_keeps {s0 s : State} (ctx : Nat) (hk : s0.Keeps s) :
    s0.Keeps (State.dcFlushAll s ctx) := by
  unfold State.dcFlushAll
  repeat' first
    | (with_reducible assumption) | (with_reducible apply State.dcClean_keeps) | (intro)
    | (with_reducible refine State.Keeps.mk' ?_ rfl rfl rfl rfl rfl rfl rfl rfl rfl)

end Sys2Proof.Machine
end

