-- ==== Sys2Proof/Laws/KeepsJournal.lean ====
section
/-! SUPPORT. No operation of Machine/Journal.lean breaks what `State.Keeps` speaks of. -/

namespace Sys2Proof.Machine

theorem State.journalPut_keeps {s0 s : State} (ctx : Nat) (t : Thread) (bs : List Byte) (hk : s0.Keeps s) :
    s0.Keeps (State.journalPut s ctx t bs) := by
  unfold State.journalPut
  repeat' first
    | (with_reducible assumption) | (with_reducible apply State.jambAdd_keeps)
    | (with_reducible apply State.modPlane_keeps) | exact fun _ k => k | (intro _ k; cases k; done)
    | (with_reducible apply State.Keeps.ite) | (intro) | split

theorem State.journalLatch_keeps {s0 s : State} (ctx : Nat) (n : Nat) (hk : s0.Keeps s) :
    s0.Keeps (State.journalLatch s ctx n) := by
  induction n generalizing s with
  | zero => exact hk
  | succ n ih =>
    unfold State.journalLatch
    exact State.Keeps.ite (fun _ => hk) fun _ =>
      ih (State.modPlane_keeps _ _ (fun _ k => k) (State.journalPut_keeps _ _ _ hk))

theorem State.journalFlush_keeps {s0 s : State} (ctx : Nat) (hk : s0.Keeps s) :
    s0.Keeps (State.journalFlush s ctx) := by
  unfold State.journalFlush
  repeat' first
    | (with_reducible assumption) | (with_reducible apply State.journalLatch_keeps)
    | (with_reducible apply State.Keeps.ite) | (intro)

theorem State.journalStream_keeps {s0 s : State} (ctx : Nat) (type : Nat) (t : Thread) (step : BitVec 32) (ws : List
    Word) (hk : s0.Keeps s) :
    s0.Keeps (State.journalStream s ctx type t step ws) := by
  unfold State.journalStream
  repeat' first
    | (with_reducible assumption) | (with_reducible apply State.journalPut_keeps)
    | (with_reducible apply State.journalFlush_keeps) | (with_reducible apply State.Keeps.ite) | (intro)

theorem State.journalOpen_keeps {s0 s : State} (t : Thread) (hk : s0.Keeps s) :
    s0.Keeps (State.journalOpen s t) := by
  unfold State.journalOpen
  repeat' first
    | (with_reducible assumption) | (with_reducible apply State.modPlane_keeps)
    | (with_reducible apply State.journalStream_keeps) | exact fun _ k => k | (intro _ k; cases k; done)
    | (with_reducible apply State.Keeps.ite) | (intro) | split | (dsimp only)

theorem State.journalClose_keeps {s0 s : State} (t : Thread) (p : Post) (hk : s0.Keeps s) :
    s0.Keeps (State.journalClose s t p) := by
  unfold State.journalClose
  repeat' first
    | (with_reducible assumption) | (with_reducible apply State.journalStream_keeps)
    | (with_reducible apply State.modPlane_keeps) | exact fun _ k => k | (intro _ k; cases k; done)
    | (with_reducible apply State.Keeps.ite) | (intro) | split

theorem State.digestResolve_keeps {s0 s : State} (t : Thread) (h : Nat) (d : Desc) (hk : s0.Keeps s) :
    s0.Keeps (State.digestResolve s t h d) := by
  unfold State.digestResolve
  repeat' first
    | (with_reducible assumption) | (with_reducible apply State.modPlane_keeps) | exact fun _ k => k

theorem State.journalInput_keeps {s0 s : State} (ctx : Nat) (src : Nat) (cls : Nat) (ctxid : BitVec 32) (handle :
    Nat) (index : Nat) (b : Nat) (latch : Nat) (payload : List Byte) (hk : s0.Keeps s) :
    s0.Keeps (State.journalInput s ctx src cls ctxid handle index b latch payload) := by
  unfold State.journalInput
  repeat' first
    | (with_reducible assumption) | (with_reducible apply State.journalFlush_keeps)
    | (with_reducible apply State.modPlane_keeps) | (with_reducible apply State.journalPut_keeps)
    | exact fun _ k => k | (intro _ k; cases k; done) | (with_reducible apply State.Keeps.ite) | (intro)

end Sys2Proof.Machine
end

