-- ==== Sys2Proof/Laws/KeepsPost.lean ====
section
/-! SUPPORT. No operation of Machine/Post.lean breaks what `State.Keeps` speaks of. -/

namespace Sys2Proof.Machine

theorem State.modPost_keeps {s0 s : State} (t : Thread) (seq : BitVec 32) (g : Post → Post) (hk : s0.Keeps s) :
    s0.Keeps (State.modPost s t seq g) := by
  unfold State.modPost
  repeat' first
    | (with_reducible assumption) | (with_reducible apply State.modTh_keeps)

theorem State.postDone_keeps {s0 s : State} (t : Thread) (p : Post) (hk : s0.Keeps s) :
    s0.Keeps (State.postDone s t p) := by
  unfold State.postDone
  repeat' first
    | (with_reducible assumption) | (with_reducible apply State.irqSet_keeps)
    | (with_reducible apply State.modTh_keeps)

theorem State.postBegin_keeps {s0 s : State} (t : Thread) (p : Post) (hk : s0.Keeps s) :
    s0.Keeps (State.postBegin s t p) := by
  unfold State.postBegin
  repeat' first
    | (with_reducible assumption) | (with_reducible apply State.journalClose_keeps)
    | (with_reducible apply State.modPost_keeps) | (with_reducible apply State.jambAdd_keeps) | (intro) | split
    | (dsimp only)

theorem State.postsBegin_keeps {s0 s : State} (t : Thread) (hk : s0.Keeps s) :
    s0.Keeps (State.postsBegin s t) := by
  unfold State.postsBegin
  repeat' first
    | (with_reducible assumption) | (with_reducible apply State.postBegin_keeps)
    | (with_reducible apply State.Keeps.foldl) | (intro)

theorem State.postsEnd_keeps {s0 s : State} (t : Thread) (n : Nat) (hk : s0.Keeps s) :
    s0.Keeps (State.postsEnd s t n) := by
  induction n generalizing s t with
  | zero => exact hk
  | succ n ih =>
    unfold State.postsEnd
    repeat' first
      | (with_reducible assumption) | (with_reducible apply ih) | (with_reducible apply State.postDone_keeps)
      | (with_reducible apply State.Keeps.ite) | (intro) | split

theorem State.postsGo_keeps {s0 s : State} (t : Thread) (hk : s0.Keeps s) :
    s0.Keeps (State.postsGo s t) := by
  unfold State.postsGo
  repeat' first
    | (with_reducible assumption) | (with_reducible apply State.postsEnd_keeps)
    | (with_reducible apply State.postsBegin_keeps)

theorem State.postBodyAnswered_keeps {s0 s : State} (t : Thread) (seq : BitVec 32) (ok : Bool) (hk : s0.Keeps s) :
    s0.Keeps (State.postBodyAnswered s t seq ok) := by
  unfold State.postBodyAnswered
  repeat' first
    | (with_reducible assumption) | (with_reducible apply State.modPost_keeps)
    | (with_reducible apply State.postsGo_keeps) | (with_reducible apply State.jambAdd_keeps)
    | (with_reducible apply State.Keeps.ite) | (intro) | split

theorem State.postHeadAnswered_keeps {s0 s : State} (t : Thread) (seq : BitVec 32) (ok : Bool) (hk : s0.Keeps s) :
    s0.Keeps (State.postHeadAnswered s t seq ok) := by
  unfold State.postHeadAnswered
  repeat' first
    | (with_reducible assumption) | (with_reducible apply State.postsGo_keeps)
    | (with_reducible apply State.modPost_keeps)

theorem State.stepAdvance_keeps {s0 s : State} (t : Thread) (hk : s0.Keeps s) :
    s0.Keeps (State.stepAdvance s t) := by
  unfold State.stepAdvance
  repeat' first
    | (with_reducible assumption) | (with_reducible apply State.modPlane_keeps)
    | (with_reducible apply State.modTh_keeps) | (with_reducible apply State.journalOpen_keeps)
    | (with_reducible apply State.postsGo_keeps) | exact fun _ k => k

theorem State.postCount_keeps {s0 s : State} (e : Entry) (status : Nat) (hk : s0.Keeps s) :
    s0.Keeps (State.postCount s e status) := by
  unfold State.postCount
  repeat' first
    | (with_reducible assumption) | (with_reducible apply State.modTh_keeps)

end Sys2Proof.Machine
end

