-- ==== Sys2Proof/Laws/KeepsCredit.lean ====
section
/-! SUPPORT. No operation of Machine/Credit.lean breaks what `State.Keeps` speaks of. -/

namespace Sys2Proof.Machine

theorem State.freeBuffer_keeps {s0 s : State} (l : Nat) (c : Nat) (hk : s0.Keeps s) :
    s0.Keeps (State.freeBuffer s l c) := by
  unfold State.freeBuffer
  repeat' first
    | (with_reducible assumption) | (with_reducible apply State.modLink_keeps)

theorem State.freeSig_keeps {s0 s : State} (l : Nat) (hk : s0.Keeps s) :
    s0.Keeps (State.freeSig s l) := by
  unfold State.freeSig
  repeat' first
    | (with_reducible assumption) | (with_reducible apply State.modLink_keeps)
    | (with_reducible apply State.freeBuffer_keeps) | (with_reducible apply State.Keeps.ite) | (intro)

theorem State.sigExtend_keeps {s0 s : State} (l : Nat) (hk : s0.Keeps s) :
    s0.Keeps (State.sigExtend s l) := by
  unfold State.sigExtend
  repeat' first
    | (with_reducible assumption) | (with_reducible apply State.freeBuffer_keeps)
    | (with_reducible apply State.modLink_keeps) | (with_reducible apply State.Keeps.ite) | (intro)

theorem State.sigRelease_keeps {s0 s : State} (hk : s0.Keeps s) :
    s0.Keeps (State.sigRelease s) := by
  unfold State.sigRelease
  repeat' first
    | (with_reducible assumption) | (with_reducible apply State.sigExtend_keeps)
    | (with_reducible apply State.Keeps.foldl) | (intro)

end Sys2Proof.Machine
end

