-- ==== Sys2Proof/Laws/KeepsContext.lean ====
section
/-! SUPPORT. No operation of Machine/Context.lean breaks what `State.Keeps` speaks of. -/

namespace Sys2Proof.Machine

theorem State.startThread_keeps {s0 s : State} (c : Nat) (t : Thread) (f : FrameCfg) (hk : s0.Keeps s) :
    s0.Keeps (State.startThread s c t f) := by
  unfold State.startThread
  repeat' first
    | (with_reducible assumption) | (with_reducible apply State.modTh_keeps)
    | (with_reducible apply State.fetchNext_keeps) | (with_reducible apply State.journalOpen_keeps)

theorem State.dropSignals_keeps {s0 s : State} (c : Nat) (hk : s0.Keeps s) :
    s0.Keeps (State.dropSignals s c) := by
  unfold State.dropSignals
  repeat' first
    | (with_reducible assumption) | (with_reducible apply State.sigRelease_keeps) | (intro) | split | (dsimp only)
    | (with_reducible refine State.Keeps.mk' ?_ rfl rfl rfl rfl rfl rfl rfl rfl rfl)

theorem State.planeEmpty_keeps {s0 s : State} (c : Nat) (hk : s0.Keeps s) :
    s0.Keeps (State.planeEmpty s c) := by
  unfold State.planeEmpty
  repeat' first
    | (with_reducible assumption) | (with_reducible apply State.modPlane_keeps) | exact fun _ k => k
    | (intro _ k; cases k; done) | (with_reducible apply State.Keeps.ite) | (intro)

theorem State.endContext_keeps {s0 s : State} (c : Nat) (hk : s0.Keeps s) :
    s0.Keeps (State.endContext s c) := by
  unfold State.endContext
  repeat' first
    | (with_reducible assumption) | (with_reducible apply State.fillsDrop_keeps)
    | (with_reducible apply State.dropSignals_keeps) | (with_reducible apply State.dcFlushAll_keeps)
    | (with_reducible apply State.journalFlush_keeps) | (with_reducible apply State.modPlane_keeps)
    | (with_reducible apply State.modTh_keeps) | (with_reducible apply State.planeEmpty_keeps) | exact fun _ k => k
    | (intro _ k; cases k; done) | (with_reducible apply State.Keeps.foldl)
    | (with_reducible apply State.Keeps.ite) | (intro)
    | (with_reducible refine State.Keeps.mk' ?_ rfl rfl rfl rfl rfl rfl rfl rfl rfl)

theorem State.endPart_keeps {s0 s : State} (t : Thread) (hk : s0.Keeps s) :
    s0.Keeps (State.endPart s t) := by
  unfold State.endPart
  repeat' first
    | (with_reducible assumption) | (with_reducible apply State.modTh_keeps)
    | (with_reducible apply State.startThread_keeps) | (with_reducible apply State.endContext_keeps)
    | (with_reducible apply State.Keeps.ite) | (intro) | split

end Sys2Proof.Machine
end

