-- ==== Sys2Proof/Laws/KeepsGroups.lean ====
section
/-! SUPPORT. No operation of Machine/Groups.lean breaks what `State.Keeps` speaks of. -/

namespace Sys2Proof.Machine

theorem State.setGroup_keeps {s0 s : State} (ctx : Nat) (g : Nat) (v : GroupState) (hk : s0.Keeps s) :
    s0.Keeps (State.setGroup s ctx g v) := by
  unfold State.setGroup
  repeat' first
    | (with_reducible assumption) | (with_reducible apply State.modPlane_keeps) | exact fun _ k => k

end Sys2Proof.Machine
end

