-- ==== Sys2Proof/Laws/KeepsPower.lean ====
section
/-! SUPPORT. No operation of Machine/Power.lean breaks what `State.Keeps` speaks of. -/

namespace Sys2Proof.Machine

theorem State.powerIrq_keeps {s0 s : State} (hk : s0.Keeps s) :
    s0.Keeps (State.powerIrq s) := by
  unfold State.powerIrq
  repeat' first
    | (with_reducible assumption) | (with_reducible apply State.irqSet_keeps)

theorem State.slewStart_keeps {s0 s : State} (x : Source) (hk : s0.Keeps s) :
    s0.Keeps (State.slewStart s x) := by
  unfold State.slewStart
  repeat' first
    | (with_reducible assumption) | (with_reducible apply State.Keeps.ite) | (intro)
    | (with_reducible refine State.Keeps.mk' ?_ rfl rfl rfl rfl rfl rfl rfl rfl rfl)

theorem State.fallBack_keeps {s0 s : State} (hk : s0.Keeps s) :
    s0.Keeps (State.fallBack s) := by
  unfold State.fallBack
  repeat' first
    | (with_reducible assumption) | (with_reducible apply State.powerIrq_keeps)
    | (with_reducible apply State.slewStart_keeps)
    | (with_reducible refine State.Keeps.mk' ?_ rfl rfl rfl rfl rfl rfl rfl rfl rfl)

theorem State.followSource_keeps {s0 s : State} (hk : s0.Keeps s) :
    s0.Keeps (State.followSource s) := by
  unfold State.followSource
  repeat' first
    | (with_reducible assumption) | (with_reducible apply State.slewStart_keeps)
    | (with_reducible apply State.Keeps.ite) | (intro)

theorem State.sourceCheck_keeps {s0 s : State} (hk : s0.Keeps s) :
    s0.Keeps (State.sourceCheck s) := by
  unfold State.sourceCheck
  repeat' first
    | (with_reducible assumption) | (with_reducible apply State.fallBack_keeps)
    | (with_reducible apply State.followSource_keeps) | (with_reducible apply State.Keeps.ite) | (intro)

theorem State.selectSource_keeps {s0 s : State} (x : Source) (hk : s0.Keeps s) :
    s0.Keeps (State.selectSource s x) := by
  unfold State.selectSource
  repeat' first
    | (with_reducible assumption) | (with_reducible apply State.slewStart_keeps)
    | (with_reducible apply State.fallBack_keeps) | (with_reducible apply State.Keeps.ite) | (intro)
    | (with_reducible refine State.Keeps.mk' ?_ rfl rfl rfl rfl rfl rfl rfl rfl rfl)

theorem State.voltUp_keeps {s0 s : State} (n : Nat) (hk : s0.Keeps s) :
    s0.Keeps (State.voltUp s n) := by
  unfold State.voltUp
  repeat' first
    | (with_reducible assumption) | (with_reducible apply State.Keeps.ite) | (intro)
    | (with_reducible refine State.Keeps.mk' ?_ rfl rfl rfl rfl rfl rfl rfl rfl rfl)

theorem State.seqGo_keeps {s0 s : State} (hk : s0.Keeps s) :
    s0.Keeps (State.seqGo s) := by
  unfold State.seqGo
  repeat' first
    | (with_reducible assumption) | (with_reducible apply State.voltUp_keeps)
    | (with_reducible apply State.Keeps.ite) | (intro)
    | (with_reducible refine State.Keeps.mk' ?_ rfl rfl rfl rfl rfl rfl rfl rfl rfl)

theorem State.setTarget_keeps {s0 s : State} (n : Nat) (hk : s0.Keeps s) :
    s0.Keeps (State.setTarget s n) := by
  unfold State.setTarget
  repeat' first
    | (with_reducible assumption) | (with_reducible apply State.seqGo_keeps)
    | (with_reducible refine State.Keeps.mk' ?_ rfl rfl rfl rfl rfl rfl rfl rfl rfl)

theorem State.setRunPoint_keeps {s0 s : State} (n : Nat) (hk : s0.Keeps s) :
    s0.Keeps (State.setRunPoint s n) := by
  unfold State.setRunPoint
  repeat' first
    | (with_reducible assumption) | (with_reducible apply State.setTarget_keeps)
    | (with_reducible apply State.Keeps.ite) | (intro)
    | (with_reducible refine State.Keeps.mk' ?_ rfl rfl rfl rfl rfl rfl rfl rfl rfl)

theorem State.voltDown_keeps {s0 s : State} (hk : s0.Keeps s) :
    s0.Keeps (State.voltDown s) := by
  unfold State.voltDown
  repeat' first
    | (with_reducible assumption) | (with_reducible apply State.seqGo_keeps)
    | (with_reducible apply State.Keeps.ite) | (intro)
    | (with_reducible refine State.Keeps.mk' ?_ rfl rfl rfl rfl rfl rfl rfl rfl rfl)

theorem State.wakeGo_keeps {s0 s : State} (hk : s0.Keeps s) :
    s0.Keeps (State.wakeGo s) := by
  unfold State.wakeGo
  repeat' first
    | (with_reducible assumption) | (with_reducible apply State.voltUp_keeps)
    | (with_reducible apply State.Keeps.ite) | (intro)
    | (with_reducible refine State.Keeps.mk' ?_ rfl rfl rfl rfl rfl rfl rfl rfl rfl)

theorem State.batchGo_keeps {s0 s : State} (hk : s0.Keeps s) :
    s0.Keeps (State.batchGo s) := by
  unfold State.batchGo
  repeat' first
    | (with_reducible assumption) | (with_reducible apply State.Keeps.ite) | (intro) | split | (dsimp only)
    | (with_reducible refine State.Keeps.mk' ?_ rfl rfl rfl rfl rfl rfl rfl rfl rfl)

theorem State.batchAdd_keeps {s0 s : State} (ds : List Nat) (hk : s0.Keeps s) :
    s0.Keeps (State.batchAdd s ds) := by
  unfold State.batchAdd
  repeat' first
    | (with_reducible assumption) | (with_reducible apply State.batchGo_keeps)
    | (with_reducible apply State.Keeps.ite) | (intro)
    | (with_reducible refine State.Keeps.mk' ?_ rfl rfl rfl rfl rfl rfl rfl rfl rfl)

theorem State.domainsOff_keeps {s0 s : State} (ds : List Nat) (hk : s0.Keeps s) :
    s0.Keeps (State.domainsOff s ds) := by
  unfold State.domainsOff
  repeat' first
    | (with_reducible assumption) | (with_reducible apply State.batchGo_keeps)
    | (with_reducible apply State.Keeps.ite) | (intro) | split | (dsimp only)
    | (with_reducible refine State.Keeps.mk' ?_ rfl rfl rfl rfl rfl rfl rfl rfl rfl)

theorem State.bandsOn_keeps {s0 s : State} (lats : List Nat) (hk : s0.Keeps s) :
    s0.Keeps (State.bandsOn s lats) := by
  unfold State.bandsOn
  repeat' first
    | (with_reducible assumption) | (with_reducible apply State.batchAdd_keeps)

theorem State.planTaken_keeps {s0 s : State} (p : PowerPlan) (hk : s0.Keeps s) :
    s0.Keeps (State.planTaken s p) := by
  unfold State.planTaken
  repeat' first
    | (with_reducible assumption) | (with_reducible apply State.selectSource_keeps)
    | (with_reducible apply State.setRunPoint_keeps) | (with_reducible apply State.Keeps.ite) | (intro)
    | (with_reducible refine State.Keeps.mk' ?_ rfl rfl rfl rfl rfl rfl rfl rfl rfl)

theorem State.followAssign_keeps {s0 s : State} (hk : s0.Keeps s) :
    s0.Keeps (State.followAssign s) := by
  unfold State.followAssign
  repeat' first
    | (with_reducible assumption) | (with_reducible apply State.bandsOn_keeps)
    | (with_reducible apply State.domainsOff_keeps) | (intro)
    | (with_reducible refine State.Keeps.mk' ?_ rfl rfl rfl rfl rfl rfl rfl rfl rfl)

end Sys2Proof.Machine
end

