-- ==== Sys2Proof/Laws/KeepsLouvre.lean ====
section
/-! SUPPORT. No operation of Machine/Louvre.lean breaks what `State.Keeps` speaks of. -/

namespace Sys2Proof.Machine

theorem State.setAccum_keeps {s0 s : State} (ctx : Nat) (n : Nat) (a : Accum) (hk : s0.Keeps s) :
    s0.Keeps (State.setAccum s ctx n a) := by
  unfold State.setAccum
  repeat' first
    | (with_reducible assumption) | (with_reducible refine State.Keeps.mk' ?_ rfl rfl rfl rfl rfl rfl rfl rfl rfl)

end Sys2Proof.Machine
end

