-- ==== Sys2Proof/Laws/KeepsTensor.lean ====
section
/-! SUPPORT. No operation of Machine/Tensor.lean breaks what `State.Keeps` speaks of. -/

namespace Sys2Proof.Machine

theorem State.shutAccess_keeps {s0 s : State} (block : Nat) (n : Nat) (hk : s0.Keeps s) :
    s0.Keeps (State.shutAccess s block n) := by
  unfold State.shutAccess
  repeat' first
    | (with_reducible assumption) | (with_reducible apply State.Keeps.ite) | (intro)
    | (with_reducible refine State.Keeps.mk' ?_ rfl rfl rfl rfl rfl rfl rfl rfl rfl)

theorem State.spadWrite_keeps {s0 s : State} (w : BitWrite) (hk : s0.Keeps s) :
    s0.Keeps (State.spadWrite s w) := by
  unfold State.spadWrite
  exact (State.shutAccess_keeps _ _ hk).store rfl id (fun k => Memory.putCells_wf _ k) id rfl rfl rfl rfl rfl

theorem State.sillWrite_keeps {s0 s : State} (w : BitWrite) (hk : s0.Keeps s) :
    s0.Keeps (State.sillWrite s w) := by
  unfold State.sillWrite
  exact hk.store rfl id id (fun k => Memory.putCells_wf _ k) rfl rfl rfl rfl rfl

theorem State.noteWrite_keeps {s0 s : State} (uid : Nat) (n : Nat) (w : BitWrite) (hk : s0.Keeps s) :
    s0.Keeps (State.noteWrite s uid n w) := by
  unfold State.noteWrite
  repeat' first
    | (with_reducible assumption) | (with_reducible apply State.modEntry_keeps)
    | (with_reducible apply State.Keeps.ite) | (intro) | split

theorem State.place_keeps {s0 s : State} (uid : Nat) (d : Desc) (w : BitWrite) (hk : s0.Keeps s) :
    s0.Keeps (State.place s uid d w) := by
  unfold State.place
  repeat' first
    | (with_reducible assumption) | (with_reducible apply State.spadWrite_keeps)
    | (with_reducible apply State.shutAccess_keeps) | (with_reducible apply State.sillWrite_keeps)
    | (with_reducible apply State.modEntry_keeps) | (with_reducible apply State.Keeps.ite) | (intro) | split

theorem State.write1_keeps {s0 s : State} (uid : Nat) (n : Nat) (d : Desc) (w : BitWrite) (hk : s0.Keeps s) :
    s0.Keeps (State.write1 s uid n d w) := by
  unfold State.write1
  repeat' first
    | (with_reducible assumption) | (with_reducible apply State.place_keeps)
    | (with_reducible apply State.noteWrite_keeps)

theorem State.writeAll_keeps {s0 s : State} (uid : Nat) (n : Nat) (d : Desc) (ws : List BitWrite) (hk : s0.Keeps s) :
    s0.Keeps (State.writeAll s uid n d ws) := by
  unfold State.writeAll
  repeat' first
    | (with_reducible assumption) | (with_reducible apply State.write1_keeps)
    | (with_reducible apply State.Keeps.foldl) | (intro)

theorem State.linesShut_keeps {s0 s : State} (lines : List Nat) (hk : s0.Keeps s) :
    s0.Keeps (State.linesShut s lines) := by
  unfold State.linesShut
  repeat' first
    | (with_reducible assumption) | (with_reducible apply State.shutAccess_keeps)
    | (with_reducible apply State.Keeps.ite) | (intro)

theorem State.readShut_keeps {s0 s : State} (d : Desc) (xs : List Coord) (hk : s0.Keeps s) :
    s0.Keeps (State.readShut s d xs) := by
  unfold State.readShut
  repeat' first
    | (with_reducible assumption) | (with_reducible apply State.shutAccess_keeps)
    | (with_reducible apply State.Keeps.ite) | (intro) | split

theorem State.addSquares_keeps {s0 s : State} (e : Entry) (sums : Option Nat) (vs : List Val) (hk : s0.Keeps s) :
    s0.Keeps (State.addSquares s e sums vs) := by
  unfold State.addSquares
  repeat' first
    | (with_reducible assumption) | (with_reducible apply State.setAccum_keeps) | split | (dsimp only)
    | (with_reducible refine State.Keeps.mk' ?_ rfl rfl rfl rfl rfl rfl rfl rfl rfl)

theorem State.accumCheck_keeps {s0 s : State} (ctx : Nat) (n : Nat) (u : Upset) (hk : s0.Keeps s) :
    s0.Keeps (State.accumCheck s ctx n u) := by
  unfold State.accumCheck
  repeat' first
    | (with_reducible assumption) | (with_reducible apply State.integrity_keeps)
    | (with_reducible apply State.Keeps.ite) | (intro) | split

theorem State.sillClear_keeps {s0 s : State} (as : List Nat) (hk : s0.Keeps s) :
    s0.Keeps (State.sillClear s as) := by
  unfold State.sillClear
  exact hk.store rfl id id
    (fun k => Memory.foldl_wf (fun _ _ k => Memory.foldl_wf (fun _ _ k => SMap.put_wf _ _ k) k) k) rfl rfl rfl rfl rfl

theorem State.freeFootprint_keeps {s0 s : State} (d : Desc) (hk : s0.Keeps s) :
    s0.Keeps (State.freeFootprint s d) := by
  unfold State.freeFootprint
  split
  · exact hk.store rfl id (fun k => Memory.foldl_wf (fun _ _ k => SMap.put_wf _ _ k) k) id rfl rfl rfl rfl rfl
  · exact State.Keeps.ite (fun _ => hk) fun _ =>
      hk.store rfl id id (fun k => Memory.foldl_wf (fun _ _ k => SMap.put_wf _ _ k) k) rfl rfl rfl rfl rfl
  · exact hk

theorem State.louvreSees_keeps {s0 s : State} (uid : Nat) (o : Opnd) (drain : Bool) (vs : List Val) (hk : s0.Keeps s)
    :
    s0.Keeps (State.louvreSees s uid o drain vs) := by
  unfold State.louvreSees
  repeat' first
    | (with_reducible assumption) | (with_reducible apply State.modEntry_keeps)
    | (with_reducible apply State.Keeps.ite) | (intro)

end Sys2Proof.Machine
end

