-- ==== Sys2Proof/Laws/KeepsOperands.lean ====
section
/-! SUPPORT. No operation of Machine/Operands.lean breaks what `State.Keeps` speaks of. -/

namespace Sys2Proof.Machine

theorem State.laneAdd_keeps {s0 s : State} (e : Entry) (hk : s0.Keeps s) :
    s0.Keeps (State.laneAdd s e) := by
  unfold State.laneAdd
  repeat' first
    | (with_reducible assumption) | (with_reducible apply State.bandsOn_keeps)
    | (with_reducible apply State.Keeps.ite) | (intro)
    | (with_reducible refine State.Keeps.mk' ?_ rfl rfl rfl rfl rfl rfl rfl rfl rfl)

theorem State.planEnter_keeps {s0 s : State} (t : Thread) (p : Plan) (hk : s0.Keeps s) :
    s0.Keeps (State.planEnter s t p) := by
  unfold State.planEnter
  repeat' first
    | (with_reducible assumption) | (with_reducible apply State.laneAdd_keeps)
    | (with_reducible apply State.Keeps.ite) | (intro) | split

theorem State.accept_keeps {s0 s : State} (t : Thread) (p : Plan) (hk : s0.Keeps s) :
    s0.Keeps (State.accept s t p) := by
  unfold State.accept
  repeat' first
    | (with_reducible assumption) | (with_reducible apply State.planEnter_keeps)
    | (with_reducible apply State.modTh_keeps) | (with_reducible apply State.setReg_keeps)
    | (with_reducible apply State.resume_keeps) | (with_reducible apply State.Keeps.ite) | (intro)

theorem State.enter_keeps {s0 s : State} (t : Thread) (p : Plan) (hk : s0.Keeps s) :
    s0.Keeps (State.enter s t p) := by
  unfold State.enter
  repeat' first
    | (with_reducible assumption) | (with_reducible apply State.accept_keeps)
    | (with_reducible apply State.stopped_keeps) | (with_reducible apply State.waitIn_keeps)
    | (with_reducible apply State.Keeps.ite) | (intro)

theorem State.refuse_keeps {s0 s : State} (t : Thread) (rd : Reg) (status : Nat) (bytes : Nat) (hk : s0.Keeps s) :
    s0.Keeps (State.refuse s t rd status bytes) := by
  unfold State.refuse
  repeat' first
    | (with_reducible assumption) | (with_reducible apply State.stopExc_keeps)
    | (with_reducible apply State.resume_keeps) | (with_reducible apply State.setReg_keeps)
    | (with_reducible apply State.Keeps.ite) | (intro)

theorem State.resolve1_keeps {s0 s : State} (ctx v : Nat) (dest : Bool) (hk : s0.Keeps s) :
    s0.Keeps (State.resolve1 s ctx v dest).1 := by
  unfold State.resolve1
  split
  · exact hk
  · exact State.dcRead_keeps _ _ hk

theorem State.resolveAll_keeps {s0 s : State} (t : Thread) (hs : HandleList) (got : List (Option Opnd)) (n : Nat)
    (hk : s0.Keeps s) : s0.Keeps (State.resolveAll s t hs got n).1 := by
  induction n generalizing s got with
  | zero => exact hk
  | succ n ih =>
    unfold State.resolveAll
    split
    · exact hk
    · exact ih _ hk
    · dsimp only
      split
      · exact ih _ (State.digestResolve_keeps _ _ _ (State.resolve1_keeps _ _ _ hk))
      · exact State.descFault_keeps _ _ _ (State.resolve1_keeps _ _ _ hk)
      · exact State.fillAsk_keeps _ _ (State.resolve1_keeps _ _ _ hk)

theorem State.waitFill_keeps {s0 s : State} (t : Thread) (i : Issue) (h : Nat) (hk : s0.Keeps s) :
    s0.Keeps (State.waitFill s t i h) := by
  unfold State.waitFill
  repeat' first
    | (with_reducible assumption) | (with_reducible apply State.waitMem_keeps)

end Sys2Proof.Machine
end

