-- ==== Sys2Proof/Laws/KeepsHold.lean ====
section
/-! SUPPORT. No operation of Machine/Hold.lean breaks what `State.Keeps` speaks of. -/

namespace Sys2Proof.Machine

theorem State.ckptDone_keeps {s0 s : State} (result : Nat) (hk : s0.Keeps s) :
    s0.Keeps (State.ckptDone s result) := by
  unfold State.ckptDone
  repeat' first
    | (with_reducible assumption) | (with_reducible apply State.goCleared_keeps)
    | (with_reducible apply State.Keeps.ite) | (intro)
    | (with_reducible refine State.Keeps.mk' ?_ rfl rfl rfl rfl rfl rfl rfl rfl rfl)

theorem State.ckptSettle_keeps {s0 s : State} (hk : s0.Keeps s) :
    s0.Keeps (State.ckptSettle s) := by
  unfold State.ckptSettle
  repeat' first
    | (with_reducible assumption) | (with_reducible apply State.ckptDone_keeps)
    | (with_reducible apply State.Keeps.ite) | (intro)

theorem State.ckptWrote_keeps {s0 s : State} (ok : Bool) (hk : s0.Keeps s) :
    s0.Keeps (State.ckptWrote s ok) := by
  unfold State.ckptWrote
  repeat' first
    | (with_reducible assumption) | (with_reducible apply State.ckptSettle_keeps)
    | (with_reducible refine State.Keeps.mk' ?_ rfl rfl rfl rfl rfl rfl rfl rfl rfl)

theorem State.withdrawReq_keeps {s0 s : State} (r : JReq) (hk : s0.Keeps s) :
    s0.Keeps (State.withdrawReq s r) := by
  unfold State.withdrawReq
  repeat' first
    | (with_reducible assumption) | (with_reducible apply State.modEntry_keeps)
    | (with_reducible apply State.ckptWrote_keeps) | (intro) | split

theorem State.engineOpen_keeps {s0 s : State} (q : Nat) (uid : Nat) (hk : s0.Keeps s) :
    s0.Keeps (State.engineOpen s q uid) := by
  unfold State.engineOpen
  repeat' first
    | (with_reducible assumption) | (with_reducible apply State.modEngine_keeps)
    | (with_reducible apply State.Keeps.ite) | (intro)

theorem State.unsend_keeps {s0 s : State} (uid : Nat) (hk : s0.Keeps s) :
    s0.Keeps (State.unsend s uid) := by
  unfold State.unsend
  repeat' first
    | (with_reducible assumption) | (with_reducible apply State.modEntry_keeps)
    | (with_reducible apply State.modLink_keeps) | (with_reducible apply State.Keeps.foldl) | (intro)

theorem State.withdrawSends_keeps {s0 s : State} (uid : Nat) (hk : s0.Keeps s) :
    s0.Keeps (State.withdrawSends s uid) := by
  unfold State.withdrawSends
  repeat' first
    | (with_reducible assumption) | (with_reducible apply State.modEntry_keeps)
    | (with_reducible apply State.unsend_keeps) | (with_reducible apply State.engineOpen_keeps) | (intro) | split
    | (dsimp only) | (with_reducible refine State.Keeps.mk' ?_ rfl rfl rfl rfl rfl rfl rfl rfl rfl)

theorem State.withdrawHeld_keeps {s0 s : State} (hk : s0.Keeps s) :
    s0.Keeps (State.withdrawHeld s) := by
  unfold State.withdrawHeld
  repeat' first
    | (with_reducible assumption) | (with_reducible apply State.withdrawReq_keeps)
    | (with_reducible apply State.withdrawSends_keeps) | (with_reducible apply State.modLink_keeps)
    | (with_reducible apply State.Keeps.foldl) | (intro)
    | (with_reducible refine State.Keeps.mk' ?_ rfl rfl rfl rfl rfl rfl rfl rfl rfl)

theorem State.holdTick_keeps {s0 s : State} (hk : s0.Keeps s) :
    s0.Keeps (State.holdTick s) := by
  unfold State.holdTick
  repeat' first
    | (with_reducible assumption) | (with_reducible apply State.modLink_keeps)
    | (with_reducible apply State.Keeps.foldl) | (with_reducible apply State.Keeps.ite) | (intro)
    | (with_reducible refine State.Keeps.mk' ?_ rfl rfl rfl rfl rfl rfl rfl rfl rfl)

theorem execEgressHoldRelease_keeps {s0 s : State} (hk : s0.Keeps s) :
    ∃ z, execEgressHoldRelease s = .next z ∧ s0.Keeps z := by
  unfold execEgressHoldRelease
  refine ⟨_, rfl, ?_⟩
  repeat' first
    | (with_reducible assumption) | (with_reducible apply State.modLink_keeps)
    | (with_reducible apply State.Keeps.foldl) | (with_reducible apply State.Keeps.ite) | (intro)
    | (with_reducible refine State.Keeps.mk' ?_ rfl rfl rfl rfl rfl rfl rfl rfl rfl)

theorem State.sashMismatch_keeps {s0 s : State} (t : Thread) (detail : BitVec 16) (hk : s0.Keeps s) :
    s0.Keeps (State.sashMismatch s t detail) := by
  unfold State.sashMismatch
  repeat' first
    | (with_reducible assumption) | (with_reducible apply State.stopAtBoundary_keeps)
    | (with_reducible apply State.modTh_keeps) | (with_reducible apply State.excPush_keeps)
    | (with_reducible apply State.irqSet_keeps) | (with_reducible apply State.withdrawHeld_keeps)
    | (with_reducible apply State.integrity_keeps)

theorem State.lockstep_keeps {s0 s : State} (t : Thread) (u : Upset) (g : State → State) (hg : ∀ y, s0.Keeps y →
    s0.Keeps (g y)) (hk : s0.Keeps s) :
    s0.Keeps (State.lockstep s t u g) := by
  unfold State.lockstep
  repeat' first
    | (with_reducible assumption) | (with_reducible apply hg) | (with_reducible apply State.sashMismatch_keeps)
    | (intro) | split

theorem State.ifRun_keeps {s0 s : State} (t : Thread) (g : State → State) (hg : ∀ y, s0.Keeps y → s0.Keeps (g y)) (hk
    : s0.Keeps s) :
    s0.Keeps (State.ifRun s t g) := by
  unfold State.ifRun
  repeat' first
    | (with_reducible assumption) | (with_reducible apply hg) | (with_reducible apply State.lockstep_keeps)
    | (with_reducible apply State.struck_keeps) | (with_reducible apply State.Keeps.ite) | (intro)
    | (with_reducible refine State.Keeps.mk' ?_ rfl rfl rfl rfl rfl rfl rfl rfl rfl)

end Sys2Proof.Machine
end

