-- ==== Sys2Proof/Laws/KeepsSashScalar.lean ====
section
/-! SUPPORT. No operation of Machine/SashScalar.lean breaks what `State.Keeps` speaks of. -/

namespace Sys2Proof.Machine

theorem State.writeRd_keeps {s0 s : State} (t : Thread) (rd : Reg) (v : Word) (hk : s0.Keeps s) :
    s0.Keeps (State.writeRd s t rd v) := by
  unfold State.writeRd
  repeat' first
    | (with_reducible assumption) | (with_reducible apply State.advance_keeps)
    | (with_reducible apply State.setReg_keeps)

theorem execOp_keeps {s0 s : State} (t : Thread) (rd : Reg) (ra : Reg) (rb : Reg) (fn : BitVec 11) (u : Upset) (hk :
    s0.Keeps s) :
    ∃ z, execOp t rd ra rb fn u s = .next z ∧ s0.Keeps z := by
  unfold execOp
  refine ⟨_, rfl, ?_⟩
  repeat' first
    | (with_reducible assumption) | (with_reducible apply State.ifRun_keeps)
    | (with_reducible apply State.lockstep_keeps) | (with_reducible apply State.writeRd_keeps)
    | (with_reducible apply State.illegal_keeps) | (intro) | split

theorem execAddi_keeps {s0 s : State} (t : Thread) (rd : Reg) (ra : Reg) (imm : BitVec 16) (hk : s0.Keeps s) :
    ∃ z, execAddi t rd ra imm s = .next z ∧ s0.Keeps z := by
  unfold execAddi
  refine ⟨_, rfl, ?_⟩
  repeat' first
    | (with_reducible assumption) | (with_reducible apply State.ifRun_keeps)
    | (with_reducible apply State.writeRd_keeps) | (intro)

theorem execAndi_keeps {s0 s : State} (t : Thread) (rd : Reg) (ra : Reg) (imm : BitVec 16) (hk : s0.Keeps s) :
    ∃ z, execAndi t rd ra imm s = .next z ∧ s0.Keeps z := by
  unfold execAndi
  refine ⟨_, rfl, ?_⟩
  repeat' first
    | (with_reducible assumption) | (with_reducible apply State.ifRun_keeps)
    | (with_reducible apply State.writeRd_keeps) | (intro)

theorem execOri_keeps {s0 s : State} (t : Thread) (rd : Reg) (ra : Reg) (imm : BitVec 16) (hk : s0.Keeps s) :
    ∃ z, execOri t rd ra imm s = .next z ∧ s0.Keeps z := by
  unfold execOri
  refine ⟨_, rfl, ?_⟩
  repeat' first
    | (with_reducible assumption) | (with_reducible apply State.ifRun_keeps)
    | (with_reducible apply State.writeRd_keeps) | (intro)

theorem execXori_keeps {s0 s : State} (t : Thread) (rd : Reg) (ra : Reg) (imm : BitVec 16) (hk : s0.Keeps s) :
    ∃ z, execXori t rd ra imm s = .next z ∧ s0.Keeps z := by
  unfold execXori
  refine ⟨_, rfl, ?_⟩
  repeat' first
    | (with_reducible assumption) | (with_reducible apply State.ifRun_keeps)
    | (with_reducible apply State.writeRd_keeps) | (intro)

theorem execSlti_keeps {s0 s : State} (t : Thread) (rd : Reg) (ra : Reg) (imm : BitVec 16) (hk : s0.Keeps s) :
    ∃ z, execSlti t rd ra imm s = .next z ∧ s0.Keeps z := by
  unfold execSlti
  refine ⟨_, rfl, ?_⟩
  repeat' first
    | (with_reducible assumption) | (with_reducible apply State.ifRun_keeps)
    | (with_reducible apply State.writeRd_keeps) | (with_reducible apply State.Keeps.ite) | (intro)

theorem execSltiu_keeps {s0 s : State} (t : Thread) (rd : Reg) (ra : Reg) (imm : BitVec 16) (hk : s0.Keeps s) :
    ∃ z, execSltiu t rd ra imm s = .next z ∧ s0.Keeps z := by
  unfold execSltiu
  refine ⟨_, rfl, ?_⟩
  repeat' first
    | (with_reducible assumption) | (with_reducible apply State.ifRun_keeps)
    | (with_reducible apply State.writeRd_keeps) | (with_reducible apply State.Keeps.ite) | (intro)

theorem execShi_keeps {s0 s : State} (t : Thread) (rd : Reg) (ra : Reg) (imm : BitVec 16) (hk : s0.Keeps s) :
    ∃ z, execShi t rd ra imm s = .next z ∧ s0.Keeps z := by
  unfold execShi
  refine ⟨_, rfl, ?_⟩
  repeat' first
    | (with_reducible assumption) | (with_reducible apply State.ifRun_keeps)
    | (with_reducible apply State.writeRd_keeps) | (with_reducible apply State.illegal_keeps) | (intro) | split

theorem execMovi_keeps {s0 s : State} (t : Thread) (rd : Reg) (ra : Reg) (imm : BitVec 16) (hk : s0.Keeps s) :
    ∃ z, execMovi t rd ra imm s = .next z ∧ s0.Keeps z := by
  unfold execMovi
  refine ⟨_, rfl, ?_⟩
  repeat' first
    | (with_reducible assumption) | (with_reducible apply State.ifRun_keeps)
    | (with_reducible apply State.writeRd_keeps) | (with_reducible apply State.illegal_keeps)
    | (with_reducible apply State.Keeps.ite) | (intro)

theorem execIns16_keeps {s0 s : State} (t : Thread) (rd : Reg) (ra : Reg) (imm : BitVec 16) (hk : s0.Keeps s) :
    ∃ z, execIns16 t rd ra imm s = .next z ∧ s0.Keeps z := by
  unfold execIns16
  refine ⟨_, rfl, ?_⟩
  repeat' first
    | (with_reducible assumption) | (with_reducible apply State.ifRun_keeps)
    | (with_reducible apply State.writeRd_keeps) | (with_reducible apply State.illegal_keeps)
    | (with_reducible apply State.Keeps.ite) | (intro)

theorem State.dataWrite_keeps {s0 s : State} (a : Nat) (n : Nat) (v : Nat) (hk : s0.Keeps s) :
    s0.Keeps (State.dataWrite s a n v) := by
  unfold State.dataWrite
  exact hk.store rfl (fun k => Memory.putNum_wf _ _ _ k) id id rfl rfl rfl rfl rfl

theorem State.dmemUe_keeps {s0 s : State} (t : Thread) (a : Word) (detail : BitVec 16) (hk : s0.Keeps s) :
    s0.Keeps (State.dmemUe s t a detail) := by
  unfold State.dmemUe
  repeat' first
    | (with_reducible assumption) | (with_reducible apply State.stopExc_keeps)
    | (with_reducible apply State.withdrawHeld_keeps) | (with_reducible apply State.integrity_keeps)
    | (with_reducible refine State.Keeps.mk' ?_ rfl rfl rfl rfl rfl rfl rfl rfl rfl)

theorem State.dmemCe_keeps {s0 s : State} (hk : s0.Keeps s) :
    s0.Keeps (State.dmemCe s) := by
  unfold State.dmemCe
  repeat' first
    | (with_reducible assumption) | (with_reducible apply State.corrected_keeps)
    | (with_reducible refine State.Keeps.mk' ?_ rfl rfl rfl rfl rfl rfl rfl rfl rfl)

theorem State.load_keeps {s0 s : State} (t : Thread) (rd : Reg) (ra : Reg) (imm : BitVec 16) (u : Upset) (n : Nat)
    (ext : Nat → Word) (hk : s0.Keeps s) :
    s0.Keeps (State.load s t rd ra imm u n ext) := by
  unfold State.load
  repeat' first
    | (with_reducible assumption) | (with_reducible apply State.ifRun_keeps)
    | (with_reducible apply State.stopExc_keeps) | (with_reducible apply State.dmemUe_keeps)
    | (with_reducible apply State.writeRd_keeps) | (with_reducible apply State.dmemCe_keeps) | (intro) | split
    | (dsimp only)

theorem State.store_keeps {s0 s : State} (t : Thread) (rd : Reg) (ra : Reg) (imm : BitVec 16) (u : Upset) (n : Nat)
    (hk : s0.Keeps s) :
    s0.Keeps (State.store s t rd ra imm u n) := by
  unfold State.store
  repeat' first
    | (with_reducible assumption) | (with_reducible apply State.ifRun_keeps)
    | (with_reducible apply State.stopExc_keeps) | (with_reducible apply State.lockstep_keeps)
    | (with_reducible apply State.advance_keeps) | (with_reducible apply State.dataWrite_keeps) | (intro) | split
    | (dsimp only)

theorem execLb_keeps {s0 s : State} (t : Thread) (rd : Reg) (ra : Reg) (imm : BitVec 16) (u : Upset) (hk : s0.Keeps
    s) :
    ∃ z, execLb t rd ra imm u s = .next z ∧ s0.Keeps z := by
  unfold execLb
  refine ⟨_, rfl, ?_⟩
  repeat' first
    | (with_reducible assumption) | (with_reducible apply State.load_keeps)

theorem execLbu_keeps {s0 s : State} (t : Thread) (rd : Reg) (ra : Reg) (imm : BitVec 16) (u : Upset) (hk : s0.Keeps
    s) :
    ∃ z, execLbu t rd ra imm u s = .next z ∧ s0.Keeps z := by
  unfold execLbu
  refine ⟨_, rfl, ?_⟩
  repeat' first
    | (with_reducible assumption) | (with_reducible apply State.load_keeps)

theorem execLh_keeps {s0 s : State} (t : Thread) (rd : Reg) (ra : Reg) (imm : BitVec 16) (u : Upset) (hk : s0.Keeps
    s) :
    ∃ z, execLh t rd ra imm u s = .next z ∧ s0.Keeps z := by
  unfold execLh
  refine ⟨_, rfl, ?_⟩
  repeat' first
    | (with_reducible assumption) | (with_reducible apply State.load_keeps)

theorem execLhu_keeps {s0 s : State} (t : Thread) (rd : Reg) (ra : Reg) (imm : BitVec 16) (u : Upset) (hk : s0.Keeps
    s) :
    ∃ z, execLhu t rd ra imm u s = .next z ∧ s0.Keeps z := by
  unfold execLhu
  refine ⟨_, rfl, ?_⟩
  repeat' first
    | (with_reducible assumption) | (with_reducible apply State.load_keeps)

theorem execLw_keeps {s0 s : State} (t : Thread) (rd : Reg) (ra : Reg) (imm : BitVec 16) (u : Upset) (hk : s0.Keeps
    s) :
    ∃ z, execLw t rd ra imm u s = .next z ∧ s0.Keeps z := by
  unfold execLw
  refine ⟨_, rfl, ?_⟩
  repeat' first
    | (with_reducible assumption) | (with_reducible apply State.load_keeps)

theorem execLwu_keeps {s0 s : State} (t : Thread) (rd : Reg) (ra : Reg) (imm : BitVec 16) (u : Upset) (hk : s0.Keeps
    s) :
    ∃ z, execLwu t rd ra imm u s = .next z ∧ s0.Keeps z := by
  unfold execLwu
  refine ⟨_, rfl, ?_⟩
  repeat' first
    | (with_reducible assumption) | (with_reducible apply State.load_keeps)

theorem execLd_keeps {s0 s : State} (t : Thread) (rd : Reg) (ra : Reg) (imm : BitVec 16) (u : Upset) (hk : s0.Keeps
    s) :
    ∃ z, execLd t rd ra imm u s = .next z ∧ s0.Keeps z := by
  unfold execLd
  refine ⟨_, rfl, ?_⟩
  repeat' first
    | (with_reducible assumption) | (with_reducible apply State.load_keeps)

theorem execSb_keeps {s0 s : State} (t : Thread) (rd : Reg) (ra : Reg) (imm : BitVec 16) (u : Upset) (hk : s0.Keeps
    s) :
    ∃ z, execSb t rd ra imm u s = .next z ∧ s0.Keeps z := by
  unfold execSb
  refine ⟨_, rfl, ?_⟩
  repeat' first
    | (with_reducible assumption) | (with_reducible apply State.store_keeps)

theorem execSh_keeps {s0 s : State} (t : Thread) (rd : Reg) (ra : Reg) (imm : BitVec 16) (u : Upset) (hk : s0.Keeps
    s) :
    ∃ z, execSh t rd ra imm u s = .next z ∧ s0.Keeps z := by
  unfold execSh
  refine ⟨_, rfl, ?_⟩
  repeat' first
    | (with_reducible assumption) | (with_reducible apply State.store_keeps)

theorem execSw_keeps {s0 s : State} (t : Thread) (rd : Reg) (ra : Reg) (imm : BitVec 16) (u : Upset) (hk : s0.Keeps
    s) :
    ∃ z, execSw t rd ra imm u s = .next z ∧ s0.Keeps z := by
  unfold execSw
  refine ⟨_, rfl, ?_⟩
  repeat' first
    | (with_reducible assumption) | (with_reducible apply State.store_keeps)

theorem execSd_keeps {s0 s : State} (t : Thread) (rd : Reg) (ra : Reg) (imm : BitVec 16) (u : Upset) (hk : s0.Keeps
    s) :
    ∃ z, execSd t rd ra imm u s = .next z ∧ s0.Keeps z := by
  unfold execSd
  refine ⟨_, rfl, ?_⟩
  repeat' first
    | (with_reducible assumption) | (with_reducible apply State.store_keeps)

theorem execAmo_keeps {s0 s : State} (t : Thread) (rd : Reg) (ra : Reg) (rb : Reg) (rc : Reg) (fn : BitVec 6) (hk :
    s0.Keeps s) :
    ∃ z, execAmo t rd ra rb rc fn s = .next z ∧ s0.Keeps z := by
  unfold execAmo
  refine ⟨_, rfl, ?_⟩
  repeat' first
    | (with_reducible assumption) | (with_reducible apply State.ifRun_keeps)
    | (with_reducible apply State.illegal_keeps) | (with_reducible apply State.stopExc_keeps)
    | (with_reducible apply State.writeRd_keeps) | (with_reducible apply State.dataWrite_keeps)
    | (with_reducible apply State.dmemCe_keeps) | (with_reducible apply State.struck_keeps)
    | (with_reducible apply State.dmemUe_keeps) | (with_reducible apply State.Keeps.ite) | (intro) | split
    | (dsimp only)

theorem execMld_keeps {s0 s : State} (t : Thread) (rd : Reg) (ra : Reg) (imm : BitVec 16) (hk : s0.Keeps s) :
    ∃ z, execMld t rd ra imm s = .next z ∧ s0.Keeps z := by
  unfold execMld
  refine ⟨_, rfl, ?_⟩
  repeat' first
    | (with_reducible assumption) | (with_reducible apply State.ifRun_keeps)
    | (with_reducible apply State.jambAdd_keeps) | (with_reducible apply State.waitMem_keeps)
    | (with_reducible apply State.modTh_keeps) | (with_reducible apply State.stopExc_keeps)
    | (with_reducible apply State.Keeps.ite) | (intro)

theorem execMst_keeps {s0 s : State} (t : Thread) (rd : Reg) (ra : Reg) (imm : BitVec 16) (hk : s0.Keeps s) :
    ∃ z, execMst t rd ra imm s = .next z ∧ s0.Keeps z := by
  unfold execMst
  refine ⟨_, rfl, ?_⟩
  repeat' first
    | (with_reducible assumption) | (with_reducible apply State.ifRun_keeps)
    | (with_reducible apply State.jambAdd_keeps) | (with_reducible apply State.advance_keeps)
    | (with_reducible apply State.modTh_keeps) | (with_reducible apply State.stopExc_keeps)
    | (with_reducible apply State.Keeps.ite) | (intro)

theorem State.jump_keeps {s0 s : State} (t : Thread) (target : Word) (g : State → State) (hg : ∀ y, s0.Keeps y →
    s0.Keeps (g y)) (hk : s0.Keeps s) :
    s0.Keeps (State.jump s t target g) := by
  unfold State.jump
  repeat' first
    | (with_reducible assumption) | (with_reducible apply hg) | (with_reducible apply State.stopExc_keeps)
    | (with_reducible apply State.goto_keeps) | (with_reducible apply State.Keeps.ite) | (intro)

theorem State.branch_keeps {s0 s : State} (t : Thread) (taken : Bool) (off : BitVec 16) (hk : s0.Keeps s) :
    s0.Keeps (State.branch s t taken off) := by
  unfold State.branch
  exact State.Keeps.ite (fun _ => State.jump_keeps _ _ _ (fun _ k => k) hk) fun _ => State.advance_keeps _ _ hk

theorem execBeq_keeps {s0 s : State} (t : Thread) (ra : Reg) (rb : Reg) (off : BitVec 16) (hk : s0.Keeps s) :
    ∃ z, execBeq t ra rb off s = .next z ∧ s0.Keeps z := by
  unfold execBeq
  refine ⟨_, rfl, ?_⟩
  repeat' first
    | (with_reducible assumption) | (with_reducible apply State.ifRun_keeps)
    | (with_reducible apply State.branch_keeps) | (intro)

theorem execBne_keeps {s0 s : State} (t : Thread) (ra : Reg) (rb : Reg) (off : BitVec 16) (hk : s0.Keeps s) :
    ∃ z, execBne t ra rb off s = .next z ∧ s0.Keeps z := by
  unfold execBne
  refine ⟨_, rfl, ?_⟩
  repeat' first
    | (with_reducible assumption) | (with_reducible apply State.ifRun_keeps)
    | (with_reducible apply State.branch_keeps) | (intro)

theorem execBlt_keeps {s0 s : State} (t : Thread) (ra : Reg) (rb : Reg) (off : BitVec 16) (hk : s0.Keeps s) :
    ∃ z, execBlt t ra rb off s = .next z ∧ s0.Keeps z := by
  unfold execBlt
  refine ⟨_, rfl, ?_⟩
  repeat' first
    | (with_reducible assumption) | (with_reducible apply State.ifRun_keeps)
    | (with_reducible apply State.branch_keeps) | (intro)

theorem execBge_keeps {s0 s : State} (t : Thread) (ra : Reg) (rb : Reg) (off : BitVec 16) (hk : s0.Keeps s) :
    ∃ z, execBge t ra rb off s = .next z ∧ s0.Keeps z := by
  unfold execBge
  refine ⟨_, rfl, ?_⟩
  repeat' first
    | (with_reducible assumption) | (with_reducible apply State.ifRun_keeps)
    | (with_reducible apply State.branch_keeps) | (intro)

theorem execBltu_keeps {s0 s : State} (t : Thread) (ra : Reg) (rb : Reg) (off : BitVec 16) (hk : s0.Keeps s) :
    ∃ z, execBltu t ra rb off s = .next z ∧ s0.Keeps z := by
  unfold execBltu
  refine ⟨_, rfl, ?_⟩
  repeat' first
    | (with_reducible assumption) | (with_reducible apply State.ifRun_keeps)
    | (with_reducible apply State.branch_keeps) | (intro)

theorem execBgeu_keeps {s0 s : State} (t : Thread) (ra : Reg) (rb : Reg) (off : BitVec 16) (hk : s0.Keeps s) :
    ∃ z, execBgeu t ra rb off s = .next z ∧ s0.Keeps z := by
  unfold execBgeu
  refine ⟨_, rfl, ?_⟩
  repeat' first
    | (with_reducible assumption) | (with_reducible apply State.ifRun_keeps)
    | (with_reducible apply State.branch_keeps) | (intro)

theorem execJal_keeps {s0 s : State} (t : Thread) (off : BitVec 26) (hk : s0.Keeps s) :
    ∃ z, execJal t off s = .next z ∧ s0.Keeps z := by
  unfold execJal
  refine ⟨_, rfl, ?_⟩
  repeat' first
    | (with_reducible assumption) | (with_reducible apply State.ifRun_keeps)
    | (with_reducible apply State.jump_keeps) | (with_reducible apply State.setReg_keeps) | (intro)

theorem execJalr_keeps {s0 s : State} (t : Thread) (rd : Reg) (ra : Reg) (imm : BitVec 16) (hk : s0.Keeps s) :
    ∃ z, execJalr t rd ra imm s = .next z ∧ s0.Keeps z := by
  unfold execJalr
  refine ⟨_, rfl, ?_⟩
  repeat' first
    | (with_reducible assumption) | (with_reducible apply State.ifRun_keeps)
    | (with_reducible apply State.jump_keeps) | (with_reducible apply State.setReg_keeps) | (intro)

theorem execIllegalInstruction_keeps {s0 s : State} (t : Thread) (word : BitVec 32) (hk : s0.Keeps s) :
    ∃ z, execIllegalInstruction t word s = .next z ∧ s0.Keeps z := by
  unfold execIllegalInstruction
  refine ⟨_, rfl, ?_⟩
  repeat' first
    | (with_reducible assumption) | (with_reducible apply State.ifRun_keeps)
    | (with_reducible apply State.illegal_keeps) | (intro) | split

end Sys2Proof.Machine
end

