-- ==== Sys2Proof/Laws/KeepsSashFp.lean ====
section
/-! SUPPORT. No operation of Machine/SashFp.lean breaks what `State.Keeps` speaks of. -/

namespace Sys2Proof.Machine

theorem State.raiseFflags_keeps {s0 s : State} (t : Thread) (f : Flags) (hk : s0.Keeps s) :
    s0.Keeps (State.raiseFflags s t f) := by
  unfold State.raiseFflags
  repeat' first
    | (with_reducible assumption) | (with_reducible apply State.modTh_keeps)
    | (with_reducible apply State.alarmFlags_keeps)

theorem execFp_keeps {s0 s : State} (t : Thread) (rd : Reg) (ra : Reg) (rb : Reg) (rc : Reg) (fn : BitVec 6) (u :
    Upset) (hk : s0.Keeps s) :
    ∃ z, execFp t rd ra rb rc fn u s = .next z ∧ s0.Keeps z := by
  unfold execFp
  refine ⟨_, rfl, ?_⟩
  repeat' first
    | (with_reducible assumption) | (with_reducible apply State.ifRun_keeps)
    | (with_reducible apply State.lockstep_keeps) | (with_reducible apply State.writeRd_keeps)
    | (with_reducible apply State.raiseFflags_keeps) | (with_reducible apply State.illegal_keeps) | (intro) | split

end Sys2Proof.Machine
end

