-- ==== Sys2Proof/Laws/KeepsCasWords.lean ====
section
/-! SUPPORT. No operation of Machine/CasWords.lean breaks what `State.Keeps` speaks of. -/

namespace Sys2Proof.Machine

theorem State.casRaise_keeps {s0 s : State} (t : Thread) (ctx : Nat) (iseq : BitVec 32) (f : Flags) (hk : s0.Keeps s)
    :
    s0.Keeps (State.casRaise s t ctx iseq f) := by
  unfold State.casRaise
  repeat' first
    | (with_reducible assumption) | (with_reducible apply State.modEr_keeps)
    | (with_reducible apply State.alarmFlags_keeps) | (with_reducible apply State.Keeps.ite) | (intro)

end Sys2Proof.Machine
end

