-- ==== Sys2Proof/Laws/KeepsIssue.lean ====
section
/-! SUPPORT. No operation of Machine/Issue.lean breaks what `State.Keeps` speaks of. -/

namespace Sys2Proof.Machine

theorem State.issueChecked_keeps {s0 s : State} (t : Thread) (i : Issue) (hk : s0.Keeps s) :
    s0.Keeps (State.issueChecked s t i) := by
  unfold State.issueChecked
  repeat' first
    | (with_reducible assumption) | (with_reducible apply State.refuse_keeps)
    | (with_reducible apply State.enter_keeps) | (with_reducible apply State.casRaise_keeps) | split

theorem State.issueResolve_keeps {s0 s : State} (t : Thread) (i : Issue) (hk : s0.Keeps s) :
    s0.Keeps (State.issueResolve s t i) := by
  unfold State.issueResolve
  have hr := State.resolveAll_keeps t (s.handles t i) i.resolved ((s.handles t i).length + 1) hk
  dsimp only
  split
  · exact State.waitFill_keeps _ _ _ hr
  · exact State.refuse_keeps _ _ _ _ hr
  · exact State.issueChecked_keeps _ _ hr

theorem State.issueRecord_keeps {s0 s : State} (t : Thread) (i : Issue) (hk : s0.Keeps s) :
    s0.Keeps (State.issueRecord s t i) := by
  unfold State.issueRecord
  repeat' first
    | (with_reducible assumption) | (with_reducible apply State.refuse_keeps)
    | (with_reducible apply State.jambAdd_keeps) | (with_reducible apply State.waitMem_keeps)
    | (with_reducible apply State.modTh_keeps) | (with_reducible apply State.Keeps.ite) | (intro) | split

theorem State.recordArrived_keeps {s0 s : State} (t : Thread) (i : Issue) (bs : Option (List Byte)) (hk : s0.Keeps s)
    :
    s0.Keeps (State.recordArrived s t i bs) := by
  unfold State.recordArrived
  repeat' first
    | (with_reducible assumption) | (with_reducible apply State.refuse_keeps)
    | (with_reducible apply State.issueResolve_keeps) | (with_reducible apply State.Keeps.ite) | (intro) | split

theorem State.fetchWords_keeps {s0 s : State} (t : Thread) (i : Issue) (hk : s0.Keeps s) :
    s0.Keeps (State.fetchWords s t i) := by
  unfold State.fetchWords
  repeat' first
    | (with_reducible assumption) | (with_reducible apply State.fetchAt_keeps)
    | (with_reducible apply State.Keeps.foldl) | (with_reducible apply State.Keeps.ite) | (intro)

theorem State.issue_keeps {s0 s : State} (t : Thread) (i : Issue) (hk : s0.Keeps s) :
    s0.Keeps (State.issue s t i) := by
  unfold State.issue
  repeat' first
    | (with_reducible assumption) | (with_reducible apply State.ifRun_keeps)
    | (with_reducible apply State.illegal_keeps) | (with_reducible apply State.fetchWords_keeps)
    | (with_reducible apply State.parityCheck_keeps) | (with_reducible apply State.issueRecord_keeps)
    | (with_reducible apply State.issueResolve_keeps) | (with_reducible apply State.Keeps.ite) | (intro)

theorem execLatMM_keeps {s0 s : State} (t : Thread) (rd : Reg) (ra : Reg) (lat : BitVec 6) (ef : BitVec 10) (hk :
    s0.Keeps s) :
    ∃ z, execLatMM t rd ra lat ef s = .next z ∧ s0.Keeps z := by
  unfold execLatMM
  refine ⟨_, rfl, ?_⟩
  repeat' first
    | (with_reducible assumption) | (with_reducible apply State.issue_keeps)

theorem execLatMMQ_keeps {s0 s : State} (t : Thread) (rd : Reg) (ra : Reg) (lat : BitVec 6) (ef : BitVec 10) (hk :
    s0.Keeps s) :
    ∃ z, execLatMMQ t rd ra lat ef s = .next z ∧ s0.Keeps z := by
  unfold execLatMMQ
  refine ⟨_, rfl, ?_⟩
  repeat' first
    | (with_reducible assumption) | (with_reducible apply State.issue_keeps)

theorem execCasw_keeps {s0 s : State} (t : Thread) (rd : Reg) (ra : Reg) (lat : BitVec 6) (ef : BitVec 10) (words :
    List (BitVec 32)) (hk : s0.Keeps s) :
    ∃ z, execCasw t rd ra lat ef words s = .next z ∧ s0.Keeps z := by
  unfold execCasw
  refine ⟨_, rfl, ?_⟩
  repeat' first
    | (with_reducible assumption) | (with_reducible apply State.issue_keeps)

theorem execTrnRelayout_keeps {s0 s : State} (t : Thread) (rd : Reg) (ra : Reg) (lat : BitVec 6) (ef : BitVec 9) (hk
    : s0.Keeps s) :
    ∃ z, execTrnRelayout t rd ra lat ef s = .next z ∧ s0.Keeps z := by
  unfold execTrnRelayout
  refine ⟨_, rfl, ?_⟩
  repeat' first
    | (with_reducible assumption) | (with_reducible apply State.issue_keeps)

theorem execTrnTranspose_keeps {s0 s : State} (t : Thread) (rd : Reg) (ra : Reg) (lat : BitVec 6) (ef : BitVec 9) (hk
    : s0.Keeps s) :
    ∃ z, execTrnTranspose t rd ra lat ef s = .next z ∧ s0.Keeps z := by
  unfold execTrnTranspose
  refine ⟨_, rfl, ?_⟩
  repeat' first
    | (with_reducible assumption) | (with_reducible apply State.issue_keeps)

theorem execSillSpill_keeps {s0 s : State} (t : Thread) (rd : Reg) (ra : Reg) (lat : BitVec 6) (ef : BitVec 10) (hk :
    s0.Keeps s) :
    ∃ z, execSillSpill t rd ra lat ef s = .next z ∧ s0.Keeps z := by
  unfold execSillSpill
  refine ⟨_, rfl, ?_⟩
  repeat' first
    | (with_reducible assumption) | (with_reducible apply State.issue_keeps)

theorem execSillDrain_keeps {s0 s : State} (t : Thread) (rd : Reg) (ra : Reg) (lat : BitVec 6) (ef : BitVec 10) (hk :
    s0.Keeps s) :
    ∃ z, execSillDrain t rd ra lat ef s = .next z ∧ s0.Keeps z := by
  unfold execSillDrain
  refine ⟨_, rfl, ?_⟩
  repeat' first
    | (with_reducible assumption) | (with_reducible apply State.issue_keeps)

theorem execXferCopy_keeps {s0 s : State} (t : Thread) (rd : Reg) (ra : Reg) (lat : BitVec 6) (ef : BitVec 10) (hk :
    s0.Keeps s) :
    ∃ z, execXferCopy t rd ra lat ef s = .next z ∧ s0.Keeps z := by
  unfold execXferCopy
  refine ⟨_, rfl, ?_⟩
  repeat' first
    | (with_reducible assumption) | (with_reducible apply State.issue_keeps)

theorem execUpdSsq_keeps {s0 s : State} (t : Thread) (rd : Reg) (ra : Reg) (lat : BitVec 6) (ef : BitVec 10) (hk :
    s0.Keeps s) :
    ∃ z, execUpdSsq t rd ra lat ef s = .next z ∧ s0.Keeps z := by
  unfold execUpdSsq
  refine ⟨_, rfl, ?_⟩
  repeat' first
    | (with_reducible assumption) | (with_reducible apply State.issue_keeps)

theorem execDwPut_keeps {s0 s : State} (t : Thread) (rd : Reg) (ra : Reg) (lat : BitVec 6) (ef : BitVec 10) (hk :
    s0.Keeps s) :
    ∃ z, execDwPut t rd ra lat ef s = .next z ∧ s0.Keeps z := by
  unfold execDwPut
  refine ⟨_, rfl, ?_⟩
  repeat' first
    | (with_reducible assumption) | (with_reducible apply State.issue_keeps)

theorem execDwPutFetch_keeps {s0 s : State} (t : Thread) (rd : Reg) (ra : Reg) (lat : BitVec 6) (ef : BitVec 10) (hk
    : s0.Keeps s) :
    ∃ z, execDwPutFetch t rd ra lat ef s = .next z ∧ s0.Keeps z := by
  unfold execDwPutFetch
  refine ⟨_, rfl, ?_⟩
  repeat' first
    | (with_reducible assumption) | (with_reducible apply State.issue_keeps)

theorem execDwRed_keeps {s0 s : State} (t : Thread) (rd : Reg) (ra : Reg) (lat : BitVec 6) (ef : BitVec 10) (hk :
    s0.Keeps s) :
    ∃ z, execDwRed t rd ra lat ef s = .next z ∧ s0.Keeps z := by
  unfold execDwRed
  refine ⟨_, rfl, ?_⟩
  repeat' first
    | (with_reducible assumption) | (with_reducible apply State.issue_keeps)

theorem execUpdApply_keeps {s0 s : State} (t : Thread) (rd : Reg) (ra : Reg) (lat : BitVec 6) (ef : BitVec 10) (hk :
    s0.Keeps s) :
    ∃ z, execUpdApply t rd ra lat ef s = .next z ∧ s0.Keeps z := by
  unfold execUpdApply
  refine ⟨_, rfl, ?_⟩
  repeat' first
    | (with_reducible assumption) | (with_reducible apply State.issue_keeps)

theorem execUpdAdv_keeps {s0 s : State} (t : Thread) (rd : Reg) (ra : Reg) (lat : BitVec 6) (ef : BitVec 10) (hk :
    s0.Keeps s) :
    ∃ z, execUpdAdv t rd ra lat ef s = .next z ∧ s0.Keeps z := by
  unfold execUpdAdv
  refine ⟨_, rfl, ?_⟩
  repeat' first
    | (with_reducible assumption) | (with_reducible apply State.issue_keeps)

theorem execUpdNorm_keeps {s0 s : State} (t : Thread) (rd : Reg) (ra : Reg) (lat : BitVec 6) (ef : BitVec 10) (hk :
    s0.Keeps s) :
    ∃ z, execUpdNorm t rd ra lat ef s = .next z ∧ s0.Keeps z := by
  unfold execUpdNorm
  refine ⟨_, rfl, ?_⟩
  repeat' first
    | (with_reducible assumption) | (with_reducible apply State.issue_keeps)

theorem execUpdRoot_keeps {s0 s : State} (t : Thread) (rd : Reg) (ra : Reg) (lat : BitVec 6) (ef : BitVec 10) (hk :
    s0.Keeps s) :
    ∃ z, execUpdRoot t rd ra lat ef s = .next z ∧ s0.Keeps z := by
  unfold execUpdRoot
  refine ⟨_, rfl, ?_⟩
  repeat' first
    | (with_reducible assumption) | (with_reducible apply State.issue_keeps)

theorem execUpdRearm_keeps {s0 s : State} (t : Thread) (rd : Reg) (ra : Reg) (lat : BitVec 6) (ef : BitVec 10) (hk :
    s0.Keeps s) :
    ∃ z, execUpdRearm t rd ra lat ef s = .next z ∧ s0.Keeps z := by
  unfold execUpdRearm
  refine ⟨_, rfl, ?_⟩
  repeat' first
    | (with_reducible assumption) | (with_reducible apply State.issue_keeps)

theorem execLaneRoom_keeps {s0 s : State} (t : Thread) (hk : s0.Keeps s) :
    ∃ z, execLaneRoom t s = .next z ∧ s0.Keeps z := by
  unfold execLaneRoom
  split
  · exact ⟨_, rfl, State.Keeps.ite (fun _ => State.accept_keeps _ _ hk) fun _ => hk⟩
  · exact ⟨_, rfl, hk⟩

end Sys2Proof.Machine
end

