-- ==== Sys2Proof/Laws/KeepsLattice.lean ====
section
/-! SUPPORT. No operation of Machine/Lattice.lean breaks what `State.Keeps` speaks of. -/

namespace Sys2Proof.Machine

theorem State.entryDone_keeps {s0 s : State} (uid : Nat) (hk : s0.Keeps s) :
    s0.Keeps (State.entryDone s uid) := by
  unfold State.entryDone
  repeat' first
    | (with_reducible assumption) | (with_reducible apply State.engineOpen_keeps)
    | (with_reducible apply State.modEntry_keeps) | (intro) | split

theorem State.modRun_keeps {s0 s : State} (uid : Nat) (g : LatRun → LatRun) (hk : s0.Keeps s) :
    s0.Keeps (State.modRun s uid g) := by
  unfold State.modRun
  repeat' first
    | (with_reducible assumption) | (intro)
    | (with_reducible refine State.Keeps.mk' ?_ rfl rfl rfl rfl rfl rfl rfl rfl rfl)

theorem State.latRaise_keeps {s0 s : State} (e : Entry) (f : Flags) (hk : s0.Keeps s) :
    s0.Keeps (State.latRaise s e f) := by
  unfold State.latRaise
  repeat' first
    | (with_reducible assumption) | (with_reducible apply State.modEr_keeps)
    | (with_reducible apply State.alarmFlags_keeps) | (with_reducible apply State.Keeps.ite) | (intro)

theorem State.queueStop_keeps {s0 s : State} (q : Nat) (hk : s0.Keeps s) :
    s0.Keeps (State.queueStop s q) := by
  unfold State.queueStop
  repeat' first
    | (with_reducible assumption) | (with_reducible refine State.Keeps.mk' ?_ rfl rfl rfl rfl rfl rfl rfl rfl rfl)

theorem State.queueRelease_keeps {s0 s : State} (q : Nat) (hk : s0.Keeps s) :
    s0.Keeps (State.queueRelease s q) := by
  unfold State.queueRelease
  repeat' first
    | (with_reducible assumption) | (with_reducible apply State.Keeps.ite) | (intro)
    | (with_reducible refine State.Keeps.mk' ?_ rfl rfl rfl rfl rfl rfl rfl rfl rfl)

theorem State.sillFault_keeps {s0 s : State} (line : Option Nat) (cause : Nat) (hk : s0.Keeps s) :
    s0.Keeps (State.sillFault s line cause) := by
  unfold State.sillFault
  repeat' first
    | (with_reducible assumption) | (with_reducible apply State.modEr_keeps)

theorem State.sillCorrected_keeps {s0 s : State} (hk : s0.Keeps s) :
    s0.Keeps (State.sillCorrected s) := by
  unfold State.sillCorrected
  repeat' first
    | (with_reducible assumption) | (with_reducible apply State.corrected_keeps)
    | (with_reducible apply State.modEr_keeps)

theorem State.sillLineBad_keeps {s0 s : State} (e : Entry) (d : BitVec 16) (hk : s0.Keeps s) :
    s0.Keeps (State.sillLineBad s e d) := by
  unfold State.sillLineBad
  repeat' first
    | (with_reducible assumption) | (with_reducible apply State.classS_keeps)
    | (with_reducible apply State.sillFault_keeps) | (with_reducible apply State.modEntry_keeps)

theorem State.latFault_keeps {s0 s : State} (x : Product) (lat : Nat) (half : Nat) (shared : Bool) (mech : Nat)
    (cause : Nat) (detail : Option (BitVec 16)) (hk : s0.Keeps s) :
    s0.Keeps (State.latFault s x lat half shared mech cause detail) := by
  unfold State.latFault
  repeat' first
    | (with_reducible assumption) | (with_reducible apply State.modEr_keeps)
    | (with_reducible apply State.modEntry_keeps) | (with_reducible apply State.queueStop_keeps)
    | (with_reducible apply State.integrity_keeps) | (with_reducible apply State.Keeps.foldl)
    | (with_reducible apply State.Keeps.ite) | (intro) | split

theorem State.slotCount_keeps {s0 s : State} (lat : Nat) (valid : Bool) (hk : s0.Keeps s) :
    s0.Keeps (State.slotCount s lat valid) := by
  unfold State.slotCount
  repeat' first
    | (with_reducible assumption) | (with_reducible apply State.modEr_keeps)

theorem State.modCells_keeps {s0 s : State} (i : Nat) (g : Cells → Cells) (hk : s0.Keeps s) :
    s0.Keeps (State.modCells s i g) := by
  unfold State.modCells
  repeat' first
    | (with_reducible assumption) | (with_reducible refine State.Keeps.mk' ?_ rfl rfl rfl rfl rfl rfl rfl rfl rfl)

theorem State.clockRanks_keeps {s0 s : State} (p : Nat) (stop : Nat → Bool) (hk : s0.Keeps s) :
    s0.Keeps (State.clockRanks s p stop) := by
  unfold State.clockRanks
  repeat' first
    | (with_reducible assumption) | (with_reducible apply State.modCells_keeps)
    | (with_reducible apply State.Keeps.foldl) | (intro)

theorem State.feed_keeps {s0 s : State} (p : Nat) (rank : Nat) (ready : Bool) (hk : s0.Keeps s) :
    s0.Keeps (State.feed s p rank ready) := by
  unfold State.feed
  repeat' first
    | (with_reducible assumption) | (with_reducible apply State.modRun_keeps)
    | (with_reducible apply State.linesShut_keeps) | (with_reducible apply State.Keeps.foldl)
    | (with_reducible apply State.Keeps.ite) | (intro) | split

theorem State.shadowLoad_keeps {s0 s : State} (p : Nat) (i : Nat) (t : Tile) (hk : s0.Keeps s) :
    s0.Keeps (State.shadowLoad s p i t) := by
  unfold State.shadowLoad
  repeat' first
    | (with_reducible assumption) | (with_reducible apply State.linesShut_keeps)
    | (with_reducible apply State.modCells_keeps) | (with_reducible apply State.Keeps.ite) | (intro) | split

theorem State.loadTile_keeps {s0 s : State} (p : Nat) (rank : Nat) (ready : Bool) (hk : s0.Keeps s) :
    s0.Keeps (State.loadTile s p rank ready) := by
  unfold State.loadTile
  repeat' first
    | (with_reducible assumption) | (with_reducible apply State.shadowLoad_keeps)
    | (with_reducible apply State.Keeps.ite) | (intro) | split

theorem State.selectTile_keeps {s0 s : State} (x : Product) (r : LatRun) (p : Nat) (rank : Nat) (hk : s0.Keeps s) :
    s0.Keeps (State.selectTile s x r p rank) := by
  unfold State.selectTile
  repeat' first
    | (with_reducible assumption) | (with_reducible apply State.modCells_keeps)
    | (with_reducible apply State.Keeps.ite) | (intro)

theorem State.inject_keeps {s0 s : State} (r : LatRun) (x : Product) (p : Nat) (rank : Nat) (hk : s0.Keeps s) :
    s0.Keeps (State.inject s r x p rank) := by
  unfold State.inject
  repeat' first
    | (with_reducible assumption) | (with_reducible apply State.modRun_keeps)
    | (with_reducible apply State.selectTile_keeps) | (with_reducible apply State.slotCount_keeps)
    | (with_reducible apply State.engineOpen_keeps) | (with_reducible apply State.Keeps.ite) | (intro)

theorem State.vectorSlot_keeps {s0 s : State} (p : Nat) (rank : Nat) (ready : Bool) (hk : s0.Keeps s) :
    s0.Keeps (State.vectorSlot s p rank ready) := by
  unfold State.vectorSlot
  repeat' first
    | (with_reducible assumption) | (with_reducible apply State.loadTile_keeps)
    | (with_reducible apply State.feed_keeps) | (with_reducible apply State.inject_keeps)
    | (with_reducible apply State.slotCount_keeps) | (with_reducible apply State.Keeps.ite) | (intro) | split
    | (dsimp only)

theorem execVectorSlot_keeps {s0 s : State} (p : Fin 8) (rank : Fin 4) (ready : Bool) (u : Upset) (hk : s0.Keeps s) :
    ∃ z, execVectorSlot p rank ready u s = .next z ∧ s0.Keeps z := by
  unfold execVectorSlot
  refine ⟨_, rfl, ?_⟩
  repeat' first
    | (with_reducible assumption) | (with_reducible apply State.vectorSlot_keeps)
    | (with_reducible apply State.corrected_keeps) | (with_reducible apply State.latFault_keeps)
    | (with_reducible apply State.Keeps.ite) | (intro) | split

theorem State.priorShut_keeps {s0 s : State} (x : Product) (n : Nat) (hk : s0.Keeps s) :
    s0.Keeps (State.priorShut s x n) := by
  unfold State.priorShut
  repeat' first
    | (with_reducible assumption) | (with_reducible apply State.shutAccess_keeps)
    | (with_reducible apply State.Keeps.ite) | (intro)

theorem State.blockFault_keeps {s0 s : State} (x : Product) (lat : Nat) (half : Nat) (prior : Bool) (d : BitVec 16)
    (hk : s0.Keeps s) :
    s0.Keeps (State.blockFault s x lat half prior d) := by
  unfold State.blockFault
  repeat' first
    | (with_reducible assumption) | (with_reducible apply State.sillLineBad_keeps)
    | (with_reducible apply State.latFault_keeps) | (with_reducible apply State.Keeps.ite) | (intro)

theorem execBlockCompletion_keeps {s0 s : State} (p : Fin 8) (rank : Fin 4) (m : Nat) (n : Nat) (flip : BitVec 72) (u
    : Upset) (hk : s0.Keeps s) :
    ∃ z, execBlockCompletion p rank m n flip u s = .next z ∧ s0.Keeps z := by
  unfold execBlockCompletion
  refine ⟨_, rfl, ?_⟩
  repeat' first
    | (with_reducible assumption) | (with_reducible apply State.shutAccess_keeps)
    | (with_reducible apply State.priorShut_keeps) | (with_reducible apply State.modRun_keeps)
    | (with_reducible apply State.latRaise_keeps) | (with_reducible apply State.latFault_keeps)
    | (with_reducible apply State.sillCorrected_keeps) | (with_reducible apply State.corrected_keeps)
    | (with_reducible apply State.blockFault_keeps) | (with_reducible apply State.Keeps.ite) | (intro) | split

theorem State.drainRank_keeps {s0 s : State} (r : LatRun) (x : Product) (rank : Nat) (hk : s0.Keeps s) :
    s0.Keeps (State.drainRank s r x rank) := by
  unfold State.drainRank
  repeat' first
    | (with_reducible assumption) | (with_reducible apply State.addSquares_keeps)
    | (with_reducible apply State.louvreSees_keeps) | (with_reducible apply State.priorShut_keeps)
    | (with_reducible apply State.writeAll_keeps) | (with_reducible apply State.latRaise_keeps)
    | (with_reducible apply State.Keeps.ite) | (intro)

theorem State.runEnd_keeps {s0 s : State} (uid : Nat) (hk : s0.Keeps s) :
    s0.Keeps (State.runEnd s uid) := by
  unfold State.runEnd
  repeat' first
    | (with_reducible assumption) | (with_reducible apply State.entryDone_keeps) | (intro)
    | (with_reducible refine State.Keeps.mk' ?_ rfl rfl rfl rfl rfl rfl rfl rfl rfl)

theorem State.drainFault_keeps {s0 s : State} (x : Product) (rank : Nat) (d : BitVec 16) (hk : s0.Keeps s) :
    s0.Keeps (State.drainFault s x rank d) := by
  unfold State.drainFault
  repeat' first
    | (with_reducible assumption) | (with_reducible apply State.sillLineBad_keeps)
    | (with_reducible apply State.classS_keeps) | (with_reducible apply State.modEntry_keeps)
    | (with_reducible apply State.latFault_keeps) | (with_reducible apply State.Keeps.ite) | (intro)

theorem execLatticeDrain_keeps {s0 s : State} (p : Fin 8) (rank : Fin 4) (u : Upset) (hk : s0.Keeps s) :
    ∃ z, execLatticeDrain p rank u s = .next z ∧ s0.Keeps z := by
  unfold execLatticeDrain
  refine ⟨_, rfl, ?_⟩
  repeat' first
    | (with_reducible assumption) | (with_reducible apply State.sillCorrected_keeps)
    | (with_reducible apply State.corrected_keeps) | (with_reducible apply State.drainFault_keeps)
    | (with_reducible apply State.modRun_keeps) | (with_reducible apply State.drainRank_keeps)
    | (with_reducible apply State.runEnd_keeps) | (with_reducible apply State.Keeps.ite) | (intro) | split

theorem State.latStart_keeps {s0 s : State} (e : Entry) (hk : s0.Keeps s) :
    s0.Keeps (State.latStart s e) := by
  unfold State.latStart
  repeat' first
    | (with_reducible assumption) | (with_reducible apply State.entryDone_keeps)
    | (with_reducible apply State.clockRanks_keeps) | (with_reducible apply State.Keeps.ite) | (intro) | split
    | (dsimp only) | (with_reducible refine State.Keeps.mk' ?_ rfl rfl rfl rfl rfl rfl rfl rfl rfl)

end Sys2Proof.Machine
end

