-- ==== Sys2Proof/Laws/KeepsCasement.lean ====
section
/-! SUPPORT. No operation of Machine/Casement.lean breaks what `State.Keeps` speaks of. -/

namespace Sys2Proof.Machine

theorem State.paneSet_keeps {s0 s : State} (dt : Nat) (pane : Nat) (o : PaneOut) (hk : s0.Keeps s) :
    s0.Keeps (State.paneSet s dt pane o) := by
  unfold State.paneSet
  repeat' first
    | (with_reducible assumption) | (with_reducible apply State.Keeps.ite) | (intro)
    | (with_reducible refine State.Keeps.mk' ?_ rfl rfl rfl rfl rfl rfl rfl rfl rfl)

theorem State.paneSets_keeps {s0 s : State} (dt : Nat) (pane : Nat) (os : List PaneOut) (hk : s0.Keeps s) :
    s0.Keeps (State.paneSets s dt pane os) := by
  unfold State.paneSets
  repeat' first
    | (with_reducible assumption) | (with_reducible apply State.paneSet_keeps)
    | (with_reducible apply State.Keeps.foldl) | (intro)

theorem State.casArith_keeps {s0 s : State} (x : CasAt) (op : CasOp) (hk : s0.Keeps s) :
    s0.Keeps (State.casArith s x op) := by
  unfold State.casArith
  repeat' first
    | (with_reducible assumption) | (with_reducible apply State.paneSets_keeps)
    | (with_reducible apply State.casRaise_keeps) | (with_reducible apply State.Keeps.ite) | (intro)

theorem State.casLd_keeps {s0 s : State} (x : CasAt) (op : CasOp) (o : Opnd) (hk : s0.Keeps s) :
    s0.Keeps (State.casLd s x op o) := by
  unfold State.casLd
  repeat' first
    | (with_reducible assumption) | (with_reducible apply State.readShut_keeps)
    | (with_reducible apply State.paneSets_keeps) | (with_reducible apply State.casRaise_keeps)

theorem State.egressCheck_keeps {s0 s : State} (e : Entry) (d : Desc) (status : Nat) (hk : s0.Keeps s) :
    s0.Keeps (State.egressCheck s e d status) := by
  unfold State.egressCheck
  repeat' first
    | (with_reducible assumption) | (with_reducible apply State.struck_keeps)
    | (with_reducible apply State.classS_keeps) | (with_reducible apply State.modEntry_keeps)
    | (with_reducible apply State.Keeps.ite) | (intro) | split

theorem State.casSt_keeps {s0 s : State} (x : CasAt) (op : CasOp) (o : Opnd) (hk : s0.Keeps s) :
    s0.Keeps (State.casSt s x op o) := by
  unfold State.casSt
  repeat' first
    | (with_reducible assumption) | (with_reducible apply State.louvreSees_keeps)
    | (with_reducible apply State.egressCheck_keeps) | (with_reducible apply State.writeAll_keeps)
    | (with_reducible apply State.casRaise_keeps) | (with_reducible apply State.Keeps.ite) | (intro)

theorem State.casTimed_keeps {s0 s : State} (x : CasAt) (op : CasOp) (hk : s0.Keeps s) :
    s0.Keeps (State.casTimed s x op) := by
  unfold State.casTimed
  repeat' first
    | (with_reducible assumption) | (with_reducible apply State.Keeps.ite) | (intro)
    | (with_reducible refine State.Keeps.mk' ?_ rfl rfl rfl rfl rfl rfl rfl rfl rfl)

theorem State.casLoaded_keeps {s0 s : State} (x : CasAt) (op : CasOp) (hk : s0.Keeps s) :
    s0.Keeps (State.casLoaded s x op) := by
  unfold State.casLoaded
  repeat' first
    | (with_reducible assumption) | (with_reducible refine State.Keeps.mk' ?_ rfl rfl rfl rfl rfl rfl rfl rfl rfl)

theorem State.casStep_keeps {s0 s : State} (r : CasRun) (u : CasUnit) (hk : s0.Keeps s) :
    s0.Keeps (State.casStep s r u) := by
  unfold State.casStep
  repeat' first
    | (with_reducible assumption) | (with_reducible apply State.engineOpen_keeps)
    | (with_reducible apply State.Keeps.ite) | (intro)
    | (with_reducible refine State.Keeps.mk' ?_ rfl rfl rfl rfl rfl rfl rfl rfl rfl)

theorem State.casFault_keeps {s0 s : State} (e : Entry) (cause : Nat) (pane : Nat) (group : Nat) (hk : s0.Keeps s) :
    s0.Keeps (State.casFault s e cause pane group) := by
  unfold State.casFault
  repeat' first
    | (with_reducible assumption) | (with_reducible apply State.modEr_keeps)

theorem State.casStop_keeps {s0 s : State} (uid : Nat) (hk : s0.Keeps s) :
    s0.Keeps (State.casStop s uid) := by
  unfold State.casStop
  repeat' first
    | (with_reducible assumption) | (with_reducible apply State.modEntry_keeps)
    | (with_reducible apply State.entryDone_keeps) | (with_reducible apply State.Keeps.ite) | (intro) | split
    | (dsimp only) | (with_reducible refine State.Keeps.mk' ?_ rfl rfl rfl rfl rfl rfl rfl rfl rfl)

theorem State.casDetect_keeps {s0 s : State} (e : Entry) (mech : Nat) (d : BitVec 16) (hk : s0.Keeps s) :
    s0.Keeps (State.casDetect s e mech d) := by
  unfold State.casDetect
  repeat' first
    | (with_reducible assumption) | (with_reducible apply State.classS_keeps)
    | (with_reducible apply State.queueRelease_keeps) | (with_reducible apply State.queueStop_keeps)
    | (with_reducible apply State.casStop_keeps)

theorem State.casFatal_keeps {s0 s : State} (e : Entry) (d : BitVec 16) (hk : s0.Keeps s) :
    s0.Keeps (State.casFatal s e d) := by
  unfold State.casFatal
  repeat' first
    | (with_reducible assumption) | (with_reducible apply State.casFault_keeps)
    | (with_reducible apply State.withdrawHeld_keeps) | (with_reducible apply State.casDetect_keeps)

theorem State.casBusy_keeps {s0 s : State} (hk : s0.Keeps s) :
    s0.Keeps (State.casBusy s) := by
  unfold State.casBusy
  repeat' first
    | (with_reducible assumption) | (with_reducible refine State.Keeps.mk' ?_ rfl rfl rfl rfl rfl rfl rfl rfl rfl)

theorem execCasementOperationStart_keeps {s0 s : State} (u : Upset) (hk : s0.Keeps s) :
    ∃ z, execCasementOperationStart u s = .next z ∧ s0.Keeps z := by
  unfold execCasementOperationStart
  refine ⟨_, rfl, ?_⟩
  repeat' first
    | (with_reducible assumption) | (with_reducible apply State.casBusy_keeps)
    | (with_reducible apply State.casTimed_keeps) | (with_reducible apply State.casFatal_keeps)
    | (with_reducible apply State.casStep_keeps) | (with_reducible apply State.modEr_keeps)
    | (with_reducible apply State.casArith_keeps) | (with_reducible apply State.corrected_keeps)
    | (with_reducible apply State.Keeps.ite) | (intro) | split | (dsimp only)
    | (with_reducible refine State.Keeps.mk' ?_ rfl rfl rfl rfl rfl rfl rfl rfl rfl)

theorem execCasementPortAccess_keeps {s0 s : State} (u : Upset) (hk : s0.Keeps s) :
    ∃ z, execCasementPortAccess u s = .next z ∧ s0.Keeps z := by
  unfold execCasementPortAccess
  refine ⟨_, rfl, ?_⟩
  repeat' first
    | (with_reducible assumption) | (with_reducible apply State.casDetect_keeps)
    | (with_reducible apply State.withdrawHeld_keeps) | (with_reducible apply State.casFault_keeps)
    | (with_reducible apply State.casStep_keeps) | (with_reducible apply State.casLoaded_keeps)
    | (with_reducible apply State.casLd_keeps) | (with_reducible apply State.casSt_keeps)
    | (with_reducible apply State.corrected_keeps) | (with_reducible apply State.Keeps.ite) | (intro) | split

theorem execCasementUnitComplete_keeps {s0 s : State} (hk : s0.Keeps s) :
    ∃ z, execCasementUnitComplete s = .next z ∧ s0.Keeps z := by
  unfold execCasementUnitComplete
  refine ⟨_, rfl, ?_⟩
  repeat' first
    | (with_reducible assumption) | (with_reducible apply State.entryDone_keeps) | split

theorem execIdleReplay_keeps {s0 s : State} (u : Upset) (hk : s0.Keeps s) :
    ∃ z, execIdleReplay u s = .next z ∧ s0.Keeps z := by
  unfold execIdleReplay
  refine ⟨_, rfl, ?_⟩
  repeat' first
    | (with_reducible assumption) | (with_reducible apply State.casBusy_keeps)
    | (with_reducible apply State.casFatal_keeps) | (with_reducible apply State.corrected_keeps)
    | (with_reducible apply State.Keeps.ite) | (intro) | split

theorem State.casStart_keeps {s0 s : State} (e : Entry) (u : CasUnit) (hk : s0.Keeps s) :
    s0.Keeps (State.casStart s e u) := by
  unfold State.casStart
  repeat' first
    | (with_reducible assumption) | (with_reducible apply State.engineOpen_keeps)
    | (with_reducible apply State.Keeps.ite) | (intro)
    | (with_reducible refine State.Keeps.mk' ?_ rfl rfl rfl rfl rfl rfl rfl rfl rfl)

end Sys2Proof.Machine
end

