-- ==== Sys2Proof/Laws/KeepsTransfer.lean ====
section
/-! SUPPORT. No operation of Machine/Transfer.lean breaks what `State.Keeps` speaks of. -/

namespace Sys2Proof.Machine

theorem State.askReads_keeps {s0 s : State} (uid : Nat) (as : List Nat) (hk : s0.Keeps s) :
    s0.Keeps (State.askReads s uid as) := by
  unfold State.askReads
  repeat' first
    | (with_reducible assumption) | (with_reducible apply State.jambAdd_keeps)
    | (with_reducible apply State.modEntry_keeps) | (intro) | split

theorem State.emitOut_keeps {s0 s : State} (uid : Nat) (held : Bool) (hk : s0.Keeps s) :
    s0.Keeps (State.emitOut s uid held) := by
  unfold State.emitOut
  repeat' first
    | (with_reducible assumption) | (with_reducible apply State.jambAdd_keeps)
    | (with_reducible apply State.modEntry_keeps) | (intro) | split

theorem State.entryEnd_keeps {s0 s : State} (uid : Nat) (hk : s0.Keeps s) :
    s0.Keeps (State.entryEnd s uid) := by
  unfold State.entryEnd
  repeat' first
    | (with_reducible assumption) | (with_reducible apply State.freeFootprint_keeps)
    | (with_reducible apply State.entryDone_keeps) | (with_reducible apply State.Keeps.foldl)
    | (with_reducible apply State.Keeps.ite) | (intro) | split

theorem State.entrySettle_keeps {s0 s : State} (uid : Nat) (hk : s0.Keeps s) :
    s0.Keeps (State.entrySettle s uid) := by
  unfold State.entrySettle
  repeat' first
    | (with_reducible assumption) | (with_reducible apply State.entryEnd_keeps)
    | (with_reducible apply State.Keeps.ite) | (intro) | split

theorem State.scaleMoves_keeps {s0 s : State} (uid : Nat) (d : Desc) (bs : SMap Nat) (hk : s0.Keeps s) :
    s0.Keeps (State.scaleMoves s uid d bs) := by
  unfold State.scaleMoves
  repeat' first
    | (with_reducible assumption) | (with_reducible apply State.place_keeps)
    | (with_reducible apply State.write1_keeps) | (with_reducible apply State.Keeps.foldl)
    | (with_reducible apply State.Keeps.ite) | (intro)

theorem State.moveFree_keeps {s0 s : State} (uid : Nat) (d : Desc) (hk : s0.Keeps s) :
    s0.Keeps (State.moveFree s uid d) := by
  unfold State.moveFree
  repeat' first
    | (with_reducible assumption) | (with_reducible apply State.draw_keeps)
    | (with_reducible apply State.writeAll_keeps) | (with_reducible apply State.scaleMoves_keeps)
    | (with_reducible apply State.Keeps.ite) | (intro)

theorem State.move_keeps {s0 s : State} (uid : Nat) (tr : Bool) (src : Desc) (dst : Desc) (dark : Bool) (hk :
    s0.Keeps s) :
    s0.Keeps (State.move s uid tr src dst dark) := by
  unfold State.move
  repeat' first
    | (with_reducible assumption) | (with_reducible apply State.readShut_keeps)
    | (with_reducible apply State.moveFree_keeps) | (with_reducible apply State.writeAll_keeps)
    | (with_reducible apply State.scaleMoves_keeps) | (with_reducible apply State.Keeps.ite) | (intro) | split

theorem State.transomStart_keeps {s0 s : State} (e : Entry) (src : Opnd) (dst : Opnd) (hk : s0.Keeps s) :
    s0.Keeps (State.transomStart s e src dst) := by
  unfold State.transomStart
  repeat' first
    | (with_reducible assumption) | (with_reducible apply State.askReads_keeps)

theorem State.transomMove_keeps {s0 s : State} (e : Entry) (tr : Bool) (a : Opnd) (d : Opnd) (hk : s0.Keeps s) :
    s0.Keeps (State.transomMove s e tr a d) := by
  unfold State.transomMove
  repeat' first
    | (with_reducible assumption) | (with_reducible apply State.shutAccess_keeps)
    | (with_reducible apply State.modEntry_keeps) | (with_reducible apply State.move_keeps)
    | (with_reducible apply State.modEr_keeps) | (with_reducible apply State.emitOut_keeps)
    | (with_reducible apply State.Keeps.ite) | (intro)
    | (with_reducible refine State.Keeps.mk' ?_ rfl rfl rfl rfl rfl rfl rfl rfl rfl)

theorem State.transomEnd_keeps {s0 s : State} (uid : Nat) (hk : s0.Keeps s) :
    s0.Keeps (State.transomEnd s uid) := by
  unfold State.transomEnd
  repeat' first
    | (with_reducible assumption) | (with_reducible apply State.entryEnd_keeps)
    | (with_reducible apply State.Keeps.ite) | (intro) | split | (dsimp only)
    | (with_reducible refine State.Keeps.mk' ?_ rfl rfl rfl rfl rfl rfl rfl rfl rfl)

theorem State.transomCut_keeps {s0 s : State} (e : Entry) (tr : Bool) (a : Opnd) (d : Opnd) (hk : s0.Keeps s) :
    s0.Keeps (State.transomCut s e tr a d) := by
  unfold State.transomCut
  repeat' first
    | (with_reducible assumption) | (with_reducible apply State.modEntry_keeps)
    | (with_reducible apply State.transomEnd_keeps) | (with_reducible apply State.writeAll_keeps)
    | (with_reducible apply State.modEr_keeps) | (with_reducible apply State.emitOut_keeps)
    | (with_reducible apply State.Keeps.ite) | (intro)
    | (with_reducible refine State.Keeps.mk' ?_ rfl rfl rfl rfl rfl rfl rfl rfl rfl)

theorem State.transomFault_keeps {s0 s : State} (e : Entry) (d : BitVec 16) (hk : s0.Keeps s) :
    s0.Keeps (State.transomFault s e d) := by
  unfold State.transomFault
  repeat' first
    | (with_reducible assumption) | (with_reducible apply State.modEntry_keeps)
    | (with_reducible apply State.classS_keeps) | (with_reducible apply State.modEr_keeps)

theorem execTransomComplete_keeps {s0 s : State} (u : Upset) (hk : s0.Keeps s) :
    ∃ z, execTransomComplete u s = .next z ∧ s0.Keeps z := by
  unfold execTransomComplete
  refine ⟨_, rfl, ?_⟩
  repeat' first
    | (with_reducible assumption) | (with_reducible apply State.corrected_keeps)
    | (with_reducible apply State.transomEnd_keeps) | (with_reducible apply State.transomFault_keeps)
    | (with_reducible apply State.modEntry_keeps) | (with_reducible apply State.transomMove_keeps)
    | (with_reducible apply State.Keeps.ite) | (intro) | split

theorem State.jambRaise_keeps {s0 s : State} (e : Entry) (f : Flags) (hk : s0.Keeps s) :
    s0.Keeps (State.jambRaise s e f) := by
  unfold State.jambRaise
  repeat' first
    | (with_reducible assumption) | (with_reducible apply State.alarmFlags_keeps)
    | (with_reducible apply State.Keeps.ite) | (intro)
    | (with_reducible refine State.Keeps.mk' ?_ rfl rfl rfl rfl rfl rfl rfl rfl rfl)

theorem State.copyMove_keeps {s0 s : State} (uid : Nat) (a : Opnd) (d : Opnd) (hk : s0.Keeps s) :
    s0.Keeps (State.copyMove s uid a d) := by
  unfold State.copyMove
  repeat' first
    | (with_reducible assumption) | (with_reducible apply State.move_keeps)
    | (with_reducible apply State.emitOut_keeps) | (with_reducible apply State.entrySettle_keeps)
    | (with_reducible apply State.modEntry_keeps) | (with_reducible apply State.Keeps.ite) | (intro)

theorem State.copyStart_keeps {s0 s : State} (e : Entry) (a : Opnd) (d : Opnd) (hk : s0.Keeps s) :
    s0.Keeps (State.copyStart s e a d) := by
  unfold State.copyStart
  repeat' first
    | (with_reducible assumption) | (with_reducible apply State.copyMove_keeps)
    | (with_reducible apply State.askReads_keeps) | (with_reducible apply State.Keeps.ite) | (intro)

theorem State.ssqAdd_keeps {s0 s : State} (uid : Nat) (a : Opnd) (acc : Nat) (hk : s0.Keeps s) :
    s0.Keeps (State.ssqAdd s uid a acc) := by
  unfold State.ssqAdd
  repeat' first
    | (with_reducible assumption) | (with_reducible apply State.jambRaise_keeps)
    | (with_reducible apply State.addSquares_keeps) | (with_reducible apply State.readShut_keeps)
    | (with_reducible apply State.entrySettle_keeps) | (with_reducible apply State.modEntry_keeps)
    | (with_reducible apply State.Keeps.ite) | (intro) | split

theorem State.ssqStart_keeps {s0 s : State} (e : Entry) (a : Opnd) (acc : Nat) (hk : s0.Keeps s) :
    s0.Keeps (State.ssqStart s e a acc) := by
  unfold State.ssqStart
  repeat' first
    | (with_reducible assumption) | (with_reducible apply State.ssqAdd_keeps)
    | (with_reducible apply State.askReads_keeps) | (with_reducible apply State.Keeps.ite) | (intro)

theorem State.sillTake_keeps {s0 s : State} (hs : Desc) (xs : List Coord) (hk : s0.Keeps s) :
    s0.Keeps (State.sillTake s hs xs) := by
  unfold State.sillTake
  repeat' first
    | (with_reducible assumption) | (with_reducible apply State.shutAccess_keeps)
    | (with_reducible apply State.sillClear_keeps) | (with_reducible apply State.Keeps.ite) | (intro)

theorem State.noteSums_keeps {s0 s : State} (uid : Nat) (vs : List (Nat × BitVec 32)) (hk : s0.Keeps s) :
    s0.Keeps (State.noteSums s uid vs) := by
  unfold State.noteSums
  repeat' first
    | (with_reducible assumption) | (with_reducible apply State.noteWrite_keeps)
    | (with_reducible apply State.Keeps.foldl) | (intro)

theorem State.spillAlu_keeps {s0 s : State} (e : Entry) (hk : s0.Keeps s) :
    s0.Keeps (State.spillAlu s e) := by
  unfold State.spillAlu
  repeat' first
    | (with_reducible assumption) | (with_reducible apply State.modEntry_keeps)
    | (with_reducible apply State.struck_keeps) | (with_reducible apply State.entrySettle_keeps)
    | (with_reducible apply State.classS_keeps)

theorem State.spillOut_keeps {s0 s : State} (e : Entry) (hs : Desc) (hm : Desc) (store : Bool) (xs : List Coord) (hk
    : s0.Keeps s) :
    s0.Keeps (State.spillOut s e hs hm store xs) := by
  unfold State.spillOut
  repeat' first
    | (with_reducible assumption) | (with_reducible apply State.spillAlu_keeps)
    | (with_reducible apply State.jambRaise_keeps) | (with_reducible apply State.modEntry_keeps)
    | (with_reducible apply State.entrySettle_keeps) | (with_reducible apply State.emitOut_keeps)
    | (with_reducible apply State.noteSums_keeps) | (with_reducible apply State.askReads_keeps)
    | (with_reducible apply State.Keeps.ite) | (intro)

theorem State.drainOut_keeps {s0 s : State} (e : Entry) (hs : Opnd) (hd : Opnd) (acc : Option Nat) (xs : List Coord)
    (hk : s0.Keeps s) :
    s0.Keeps (State.drainOut s e hs hd acc xs) := by
  unfold State.drainOut
  repeat' first
    | (with_reducible assumption) | (with_reducible apply State.addSquares_keeps)
    | (with_reducible apply State.louvreSees_keeps) | (with_reducible apply State.modEntry_keeps)
    | (with_reducible apply State.jambRaise_keeps) | (with_reducible apply State.writeAll_keeps)
    | (with_reducible apply State.entrySettle_keeps) | (with_reducible apply State.emitOut_keeps)
    | (with_reducible apply State.Keeps.ite) | (intro)

theorem State.drainStart_keeps {s0 s : State} (e : Entry) (hs : Opnd) (hd : Opnd) (hk : s0.Keeps s) :
    s0.Keeps (State.drainStart s e hs hd) := by
  unfold State.drainStart
  repeat' first
    | (with_reducible assumption) | (with_reducible apply State.askReads_keeps)

theorem State.readOutFault_keeps {s0 s : State} (e : Entry) (d : BitVec 16) (hk : s0.Keeps s) :
    s0.Keeps (State.readOutFault s e d) := by
  unfold State.readOutFault
  repeat' first
    | (with_reducible assumption) | (with_reducible apply State.classS_keeps)
    | (with_reducible apply State.modEntry_keeps) | (with_reducible apply State.sillLineBad_keeps)
    | (with_reducible apply State.Keeps.ite) | (intro)

theorem execSillReadOut_keeps {s0 s : State} (u : Upset) (hk : s0.Keeps s) :
    ∃ z, execSillReadOut u s = .next z ∧ s0.Keeps z := by
  unfold execSillReadOut
  refine ⟨_, rfl, ?_⟩
  repeat' first
    | (with_reducible assumption) | (with_reducible apply State.sillCorrected_keeps)
    | (with_reducible apply State.readOutFault_keeps) | (with_reducible apply State.spillOut_keeps)
    | (with_reducible apply State.sillTake_keeps) | (with_reducible apply State.drainOut_keeps) | split

theorem State.spillBlock_keeps {s0 s : State} (e : Entry) (tag : Nat) (block : Nat) (hk : s0.Keeps s) :
    s0.Keeps (State.spillBlock s e tag block) := by
  unfold State.spillBlock
  repeat' first
    | (with_reducible assumption) | (with_reducible apply State.modEntry_keeps)
    | (with_reducible apply State.jambRaise_keeps) | (with_reducible apply State.jambAdd_keeps)
    | (with_reducible apply State.noteSums_keeps) | (intro)
    | (with_reducible refine State.Keeps.mk' ?_ rfl rfl rfl rfl rfl rfl rfl rfl rfl)

theorem State.nearStore_keeps {s0 s : State} (e : Entry) (op : CasOp) (o : Opnd) (rs : List NearAcc) (hk : s0.Keeps
    s) :
    s0.Keeps (State.nearStore s e op o rs) := by
  unfold State.nearStore
  repeat' first
    | (with_reducible assumption) | (with_reducible apply State.jambRaise_keeps)
    | (with_reducible apply State.writeAll_keeps)

theorem State.nearRun_keeps {s0 s : State} (uid : Nat) (u : CasUnit) (hk : s0.Keeps s) :
    s0.Keeps (State.nearRun s uid u) := by
  unfold State.nearRun
  repeat' first
    | (with_reducible assumption) | (with_reducible apply State.jambRaise_keeps)
    | (with_reducible apply State.draw_keeps) | (with_reducible apply State.nearStore_keeps)
    | (with_reducible apply State.emitOut_keeps) | (with_reducible apply State.entrySettle_keeps)
    | (with_reducible apply State.modEntry_keeps) | (with_reducible apply State.Keeps.foldl)
    | (with_reducible apply State.Keeps.ite) | (intro) | split

theorem State.nearStart_keeps {s0 s : State} (e : Entry) (u : CasUnit) (hk : s0.Keeps s) :
    s0.Keeps (State.nearStart s e u) := by
  unfold State.nearStart
  repeat' first
    | (with_reducible assumption) | (with_reducible apply State.nearRun_keeps)
    | (with_reducible apply State.askReads_keeps) | (with_reducible apply State.Keeps.ite) | (intro)

end Sys2Proof.Machine
end

