-- ==== Sys2Proof/Laws/KeepsRoot.lean ====
section
/-! SUPPORT. No operation of Machine/Root.lean breaks what `State.Keeps` speaks of. -/

namespace Sys2Proof.Machine

theorem State.sliceWrite_keeps {s0 s : State} (uid : Nat) (k : Nat) (d : Desc) (sl : Nat) (m : Matrix) (hk : s0.Keeps
    s) :
    s0.Keeps (State.sliceWrite s uid k d sl m) := by
  unfold State.sliceWrite
  repeat' first
    | (with_reducible assumption) | (with_reducible apply State.writeAll_keeps)

theorem State.modRoot_keeps {s0 s : State} (uid : Nat) (f : RootRun → RootRun) (hk : s0.Keeps s) :
    s0.Keeps (State.modRoot s uid f) := by
  unfold State.modRoot
  repeat' first
    | (with_reducible assumption) | (intro)
    | (with_reducible refine State.Keeps.mk' ?_ rfl rfl rfl rfl rfl rfl rfl rfl rfl)

theorem State.dropEntry_keeps {s0 s : State} (uid : Nat) (hk : s0.Keeps s) :
    s0.Keeps (State.dropEntry s uid) := by
  unfold State.dropEntry
  repeat' first
    | (with_reducible assumption) | (with_reducible apply State.engineOpen_keeps)
    | (with_reducible apply State.modTh_keeps) | (intro) | split | (dsimp only)
    | (with_reducible refine State.Keeps.mk' ?_ rfl rfl rfl rfl rfl rfl rfl rfl rfl)

theorem State.rootEnd_keeps {s0 s : State} (uid : Nat) (partUid : Nat) (status : Nat) (hk : s0.Keeps s) :
    s0.Keeps (State.rootEnd s uid partUid status) := by
  unfold State.rootEnd
  repeat' first
    | (with_reducible assumption) | (with_reducible apply State.entryDone_keeps)
    | (with_reducible apply State.modEntry_keeps) | (with_reducible apply State.dropEntry_keeps) | (intro)
    | (with_reducible refine State.Keeps.mk' ?_ rfl rfl rfl rfl rfl rfl rfl rfl rfl)

theorem State.rootFail_keeps {s0 s : State} (e : Entry) (r : RootJob) (run : RootRun) (it : Nat) (hk : s0.Keeps s) :
    s0.Keeps (State.rootFail s e r run it) := by
  unfold State.rootFail
  repeat' first
    | (with_reducible assumption) | (with_reducible apply State.setGroup_keeps)
    | (with_reducible apply State.rootEnd_keeps)

theorem State.rootSees_keeps {s0 s : State} (e : Entry) (o : Opnd) (drain : Bool) (vs : List Val) (hk : s0.Keeps s) :
    s0.Keeps (State.rootSees s e o drain vs) := by
  unfold State.rootSees
  repeat' first
    | (with_reducible assumption) | (with_reducible apply State.louvreSees_keeps)
    | (with_reducible apply State.Keeps.ite) | (intro)

theorem State.rootOk_keeps {s0 s : State} (e : Entry) (r : RootJob) (run : RootRun) (it : Nat) (x : Matrix) (hk :
    s0.Keeps s) :
    s0.Keeps (State.rootOk s e r run it x) := by
  unfold State.rootOk
  repeat' first
    | (with_reducible assumption) | (with_reducible apply State.sliceWrite_keeps)
    | (with_reducible apply State.rootSees_keeps) | (with_reducible apply State.rootEnd_keeps)
    | (with_reducible apply State.setGroup_keeps)

theorem State.rootOpen_keeps {s0 s : State} (run : RootRun) (part : Nat) (hk : s0.Keeps s) :
    s0.Keeps (State.rootOpen s run part) := by
  unfold State.rootOpen
  repeat' first
    | (with_reducible assumption) | (with_reducible apply State.engineOpen_keeps)

theorem State.rootIterate_keeps {s0 s : State} (e : Entry) (r : RootJob) (run : RootRun) (hk : s0.Keeps s) :
    s0.Keeps (State.rootIterate s e r run) := by
  unfold State.rootIterate
  repeat' first
    | (with_reducible assumption) | (with_reducible apply State.shutAccess_keeps)
    | (with_reducible apply State.rootSees_keeps) | (with_reducible apply State.sliceWrite_keeps)
    | (with_reducible apply State.casRaise_keeps) | (with_reducible apply State.latRaise_keeps)
    | (with_reducible apply State.modRoot_keeps) | (with_reducible apply State.rootFail_keeps)
    | (with_reducible apply State.rootOk_keeps) | (with_reducible apply State.rootOpen_keeps)
    | (with_reducible apply State.Keeps.ite) | (intro)

theorem State.rootFault_keeps {s0 s : State} (e : Entry) (r : RootJob) (run : RootRun) (d : BitVec 16) (hk : s0.Keeps
    s) :
    s0.Keeps (State.rootFault s e r run d) := by
  unfold State.rootFault
  repeat' first
    | (with_reducible assumption) | (with_reducible apply State.queueStop_keeps)
    | (with_reducible apply State.modEntry_keeps) | (with_reducible apply State.rootEnd_keeps)
    | (with_reducible apply State.classS_keeps) | (with_reducible apply State.queueRelease_keeps)

theorem State.rootChecked_keeps {s0 s : State} (e : Entry) (r : RootJob) (run : RootRun) (g : State → State) (hg : ∀
    y, s0.Keeps y → s0.Keeps (g y)) (hk : s0.Keeps s) :
    s0.Keeps (State.rootChecked s e r run g) := by
  unfold State.rootChecked
  repeat' first
    | (with_reducible assumption) | (with_reducible apply hg) | (with_reducible apply State.corrected_keeps)
    | (with_reducible apply State.struck_keeps) | (with_reducible apply State.rootFault_keeps) | (intro) | split

theorem execRootIterationCheck_keeps {s0 s : State} (t : Thread) (hk : s0.Keeps s) :
    ∃ z, execRootIterationCheck t s = .next z ∧ s0.Keeps z := by
  unfold execRootIterationCheck
  refine ⟨_, rfl, ?_⟩
  repeat' first
    | (with_reducible assumption) | (with_reducible apply State.rootChecked_keeps)
    | (with_reducible apply State.rootIterate_keeps) | (with_reducible apply State.rootFail_keeps)
    | (with_reducible apply State.casRaise_keeps) | (with_reducible apply State.rootSees_keeps)
    | (with_reducible apply State.sliceWrite_keeps) | (with_reducible apply State.Keeps.ite) | (intro) | split

theorem State.rootStart_keeps {s0 s : State} (e : Entry) (r : RootJob) (hk : s0.Keeps s) :
    s0.Keeps (State.rootStart s e r) := by
  unfold State.rootStart
  repeat' first
    | (with_reducible assumption) | (with_reducible apply State.entryDone_keeps)
    | (with_reducible apply State.modEntry_keeps) | (with_reducible apply State.Keeps.ite) | (intro)
    | (with_reducible refine State.Keeps.mk' ?_ rfl rfl rfl rfl rfl rfl rfl rfl rfl)

theorem State.rearm_keeps {s0 s : State} (e : Entry) (g : Nat) (hk : s0.Keeps s) :
    s0.Keeps (State.rearm s e g) := by
  unfold State.rearm
  repeat' first
    | (with_reducible assumption) | (with_reducible apply State.entryDone_keeps)
    | (with_reducible apply State.setGroup_keeps)

end Sys2Proof.Machine
end

