-- ==== Sys2Proof/Laws/KeepsFabric.lean ====
section
/-! SUPPORT. No operation of Machine/Fabric.lean breaks what `State.Keeps` speaks of. -/

namespace Sys2Proof.Machine

theorem State.linkShutCount_keeps {s0 s : State} (l : Nat) (hk : s0.Keeps s) :
    s0.Keeps (State.linkShutCount s l) := by
  unfold State.linkShutCount
  repeat' first
    | (with_reducible assumption) | (with_reducible apply State.shutAccess_keeps)
    | (with_reducible apply State.Keeps.ite) | (intro)

theorem State.txAdd_keeps {s0 s : State} (l : Nat) (xs : List TxItem) (hk : s0.Keeps s) :
    s0.Keeps (State.txAdd s l xs) := by
  unfold State.txAdd
  repeat' first
    | (with_reducible assumption) | (with_reducible apply State.modLink_keeps)

theorem State.sendOwn_keeps {s0 s : State} (uid : Nat) (l : Nat) (held : Bool) (ps : List Packet) (hk : s0.Keeps s) :
    s0.Keeps (State.sendOwn s uid l held ps) := by
  unfold State.sendOwn
  repeat' first
    | (with_reducible assumption) | (with_reducible apply State.modEntry_keeps)
    | (with_reducible apply State.txAdd_keeps) | (with_reducible apply State.Keeps.ite) | (intro)

theorem State.answer_keeps {s0 s : State} (l : Nat) (p : Packet) (kind : Nat) (err : Bool) (held : Bool) (payload :
    List Byte) (hk : s0.Keeps s) :
    s0.Keeps (State.answer s l p kind err held payload) := by
  unfold State.answer
  repeat' first
    | (with_reducible assumption) | (with_reducible apply State.txAdd_keeps)
    | (with_reducible apply State.Keeps.ite) | (intro)

theorem State.dropAnswer_keeps {s0 s : State} (l : Nat) (p : Packet) (hk : s0.Keeps s) :
    s0.Keeps (State.dropAnswer s l p) := by
  unfold State.dropAnswer
  repeat' first
    | (with_reducible assumption) | (with_reducible apply State.answer_keeps)
    | (with_reducible apply State.Keeps.ite) | (intro)

theorem State.bufferFree_keeps {s0 s : State} (l : Nat) (c : Nat) (hk : s0.Keeps s) :
    s0.Keeps (State.bufferFree s l c) := by
  unfold State.bufferFree
  repeat' first
    | (with_reducible assumption) | (with_reducible apply State.freeSig_keeps)
    | (with_reducible apply State.freeBuffer_keeps) | (with_reducible apply State.Keeps.ite) | (intro)

theorem State.areaWrite_keeps {s0 s : State} (l : Nat) (slot : Option Nat) (w : Wire) (hk : s0.Keeps s) :
    s0.Keeps (State.areaWrite s l slot w) := by
  unfold State.areaWrite
  repeat' first
    | (with_reducible assumption) | (with_reducible apply State.spadWrite_keeps)
    | (with_reducible apply State.Keeps.ite) | (intro) | split

theorem State.ackTaken_keeps {s0 s : State} (l : Nat) (c : Nat) (seq : BitVec 16) (hk : s0.Keeps s) :
    s0.Keeps (State.ackTaken s l c seq) := by
  unfold State.ackTaken
  repeat' first
    | (with_reducible assumption) | (with_reducible apply State.modLink_keeps)

theorem State.creditsTaken_keeps {s0 s : State} (l : Nat) (cs : List (BitVec 16)) (hk : s0.Keeps s) :
    s0.Keeps (State.creditsTaken s l cs) := by
  unfold State.creditsTaken
  repeat' first
    | (with_reducible assumption) | (with_reducible apply State.modLink_keeps)

theorem State.linkEvent_keeps {s0 s : State} (hk : s0.Keeps s) :
    s0.Keeps (State.linkEvent s) := by
  unfold State.linkEvent
  repeat' first
    | (with_reducible assumption) | (with_reducible apply State.irqSet_keeps)
    | (with_reducible refine State.Keeps.mk' ?_ rfl rfl rfl rfl rfl rfl rfl rfl rfl)

theorem State.linkTo_keeps {s0 s : State} (l : Nat) (st : LinkState) (hk : s0.Keeps s) :
    s0.Keeps (State.linkTo s l st) := by
  unfold State.linkTo
  repeat' first
    | (with_reducible assumption) | (with_reducible apply State.linkEvent_keeps)
    | (with_reducible apply State.modLink_keeps)

theorem State.linkWait_keeps {s0 s : State} (l : Nat) (hk : s0.Keeps s) :
    s0.Keeps (State.linkWait s l) := by
  unfold State.linkWait
  repeat' first
    | (with_reducible assumption) | (with_reducible apply State.linkTo_keeps)
    | (with_reducible apply State.modLink_keeps)

theorem State.signalsLost_keeps {s0 s : State} (p : Pending → Bool) (hk : s0.Keeps s) :
    s0.Keeps (State.signalsLost s p) := by
  unfold State.signalsLost
  repeat' first
    | (with_reducible assumption) | (intro)
    | (with_reducible refine State.Keeps.mk' ?_ rfl rfl rfl rfl rfl rfl rfl rfl rfl)

theorem State.remoteFail_keeps {s0 s : State} (uid : Nat) (n : Nat) (hk : s0.Keeps s) :
    s0.Keeps (State.remoteFail s uid n) := by
  unfold State.remoteFail
  repeat' first
    | (with_reducible assumption) | (with_reducible apply State.modEntry_keeps)

theorem State.lostPacket_keeps {s0 s : State} (l : Nat) (x : TxItem) (hk : s0.Keeps s) :
    s0.Keeps (State.lostPacket s l x) := by
  unfold State.lostPacket
  repeat' first
    | (with_reducible assumption) | (with_reducible apply State.remoteFail_keeps)
    | (with_reducible apply State.bufferFree_keeps) | (with_reducible apply State.dropAnswer_keeps) | split

theorem State.sweep_keeps {s0 s : State} (l : Nat) (hk : s0.Keeps s) :
    s0.Keeps (State.sweep s l) := by
  unfold State.sweep
  repeat' first
    | (with_reducible assumption) | (with_reducible apply State.remoteFail_keeps)
    | (with_reducible apply State.Keeps.foldl) | (intro)
    | (with_reducible refine State.Keeps.mk' ?_ rfl rfl rfl rfl rfl rfl rfl rfl rfl)

theorem State.redFormed_keeps {s0 s : State} (uid : Nat) (hk : s0.Keeps s) :
    s0.Keeps (State.redFormed s uid) := by
  unfold State.redFormed
  repeat' first
    | (with_reducible assumption) | (with_reducible apply State.modEntry_keeps)
    | (with_reducible apply State.engineOpen_keeps) | (with_reducible apply State.entrySettle_keeps)
    | (with_reducible apply State.Keeps.ite) | (intro) | split

theorem State.redEnd_keeps {s0 s : State} (uid : Nat) (hk : s0.Keeps s) :
    s0.Keeps (State.redEnd s uid) := by
  unfold State.redEnd
  repeat' first
    | (with_reducible assumption) | (with_reducible apply State.redFormed_keeps) | (intro)
    | (with_reducible refine State.Keeps.mk' ?_ rfl rfl rfl rfl rfl rfl rfl rfl rfl)

theorem State.redFail_keeps {s0 s : State} (uid : Nat) (status : Nat) (hk : s0.Keeps s) :
    s0.Keeps (State.redFail s uid status) := by
  unfold State.redFail
  repeat' first
    | (with_reducible assumption) | (with_reducible apply State.redEnd_keeps)
    | (with_reducible apply State.modEntry_keeps) | (with_reducible apply State.unsend_keeps)

theorem State.redsOff_keeps {s0 s : State} (l : Nat) (hk : s0.Keeps s) :
    s0.Keeps (State.redsOff s l) := by
  unfold State.redsOff
  repeat' first
    | (with_reducible assumption) | (with_reducible apply State.redFail_keeps)
    | (with_reducible apply State.Keeps.foldl) | (intro)

theorem State.settleAll_keeps {s0 s : State} (hk : s0.Keeps s) :
    s0.Keeps (State.settleAll s) := by
  unfold State.settleAll
  repeat' first
    | (with_reducible assumption) | (with_reducible apply State.entrySettle_keeps)
    | (with_reducible apply State.Keeps.foldl)

theorem State.passingClear_keeps {s0 s : State} (l : Nat) (hk : s0.Keeps s) :
    s0.Keeps (State.passingClear s l) := by
  unfold State.passingClear
  repeat' first
    | (with_reducible assumption) | (with_reducible apply State.modLink_keeps)
    | (with_reducible apply State.Keeps.foldl) | (intro)

theorem State.linkClear_keeps {s0 s : State} (l : Nat) (hk : s0.Keeps s) :
    s0.Keeps (State.linkClear s l) := by
  unfold State.linkClear
  repeat' first
    | (with_reducible assumption) | (with_reducible apply State.modLink_keeps)
    | (with_reducible apply State.passingClear_keeps) | (with_reducible apply State.lostPacket_keeps)
    | (with_reducible apply State.signalsLost_keeps) | (with_reducible apply State.sigRelease_keeps)
    | (with_reducible apply State.settleAll_keeps) | (with_reducible apply State.redsOff_keeps)
    | (with_reducible apply State.sweep_keeps) | (with_reducible apply State.Keeps.foldl) | (intro)
    | (with_reducible refine State.Keeps.mk' ?_ rfl rfl rfl rfl rfl rfl rfl rfl rfl)

theorem State.forceReset_keeps {s0 s : State} (l : Nat) (cause : Nat) (hk : s0.Keeps s) :
    s0.Keeps (State.forceReset s l cause) := by
  unfold State.forceReset
  repeat' first
    | (with_reducible assumption) | (with_reducible apply State.linkTo_keeps)
    | (with_reducible apply State.modLink_keeps) | (with_reducible apply State.linkClear_keeps) | (intro)
    | (with_reducible refine State.Keeps.mk' ?_ rfl rfl rfl rfl rfl rfl rfl rfl rfl)

theorem State.linkOff_keeps {s0 s : State} (l : Nat) (hk : s0.Keeps s) :
    s0.Keeps (State.linkOff s l) := by
  unfold State.linkOff
  repeat' first
    | (with_reducible assumption) | (with_reducible apply State.linkClear_keeps)
    | (with_reducible apply State.linkTo_keeps) | (with_reducible apply State.modLink_keeps)
    | (with_reducible apply State.Keeps.ite) | (intro)

theorem State.resend_keeps {s0 s : State} (l : Nat) (c : Nat) (seq : BitVec 16) (hk : s0.Keeps s) :
    s0.Keeps (State.resend s l c seq) := by
  unfold State.resend
  repeat' first
    | (with_reducible assumption) | (with_reducible apply State.forceReset_keeps)
    | (with_reducible apply State.modLink_keeps) | (with_reducible apply State.Keeps.ite) | (intro)

theorem State.drive_keeps {s0 s : State} (l : Nat) (p : Packet) (hk : s0.Keeps s) :
    s0.Keeps (State.drive s l p) := by
  unfold State.drive
  repeat' first
    | (with_reducible assumption) | (with_reducible apply State.modLink_keeps)

theorem State.forwarded_keeps {s0 s : State} (l : Nat) (x : TxItem) (hk : s0.Keeps s) :
    s0.Keeps (State.forwarded s l x) := by
  unfold State.forwarded
  repeat' first
    | (with_reducible assumption) | (with_reducible apply State.bufferFree_keeps)
    | (with_reducible apply State.Keeps.ite) | (intro) | split

theorem State.sendNow_keeps {s0 s : State} (l : Nat) (tag : Nat) (x : TxItem) (hk : s0.Keeps s) :
    s0.Keeps (State.sendNow s l tag x) := by
  unfold State.sendNow
  repeat' first
    | (with_reducible assumption) | (with_reducible apply State.modLink_keeps)
    | (with_reducible apply State.drive_keeps) | (with_reducible apply State.forwarded_keeps)
    | (with_reducible apply State.Keeps.ite) | (intro) | split | (dsimp only)
    | (with_reducible refine State.Keeps.mk' ?_ rfl rfl rfl rfl rfl rfl rfl rfl rfl)

theorem State.sentOpens_keeps {s0 s : State} (x : TxItem) (hk : s0.Keeps s) :
    s0.Keeps (State.sentOpens s x) := by
  unfold State.sentOpens
  repeat' first
    | (with_reducible assumption) | (with_reducible apply State.engineOpen_keeps)
    | (with_reducible apply State.Keeps.ite) | (intro) | split

theorem execPacketTransmit_keeps {s0 s : State} (link : Fin 6) (tag : BitVec 16) (hk : s0.Keeps s) :
    ∃ z, execPacketTransmit link tag s = .next z ∧ s0.Keeps z := by
  unfold execPacketTransmit
  refine ⟨_, rfl, ?_⟩
  repeat' first
    | (with_reducible assumption) | (with_reducible apply State.drive_keeps)
    | (with_reducible apply State.sentOpens_keeps) | (with_reducible apply State.sendNow_keeps)
    | (with_reducible apply State.Keeps.ite) | (intro) | split

theorem State.nak_keeps {s0 s : State} (l : Nat) (c : Nat) (hk : s0.Keeps s) :
    s0.Keeps (State.nak s l c) := by
  unfold State.nak
  repeat' first
    | (with_reducible assumption) | (with_reducible apply State.modLink_keeps)

theorem State.trailerTaken_keeps {s0 s : State} (l : Nat) (t : Trailer) (hk : s0.Keeps s) :
    s0.Keeps (State.trailerTaken s l t) := by
  unfold State.trailerTaken
  repeat' first
    | (with_reducible assumption) | (with_reducible apply State.creditsTaken_keeps)
    | (with_reducible apply State.ackTaken_keeps) | (with_reducible apply State.resend_keeps) | split

theorem State.seqTaken_keeps {s0 s : State} (l : Nat) (c : Nat) (hk : s0.Keeps s) :
    s0.Keeps (State.seqTaken s l c) := by
  unfold State.seqTaken
  repeat' first
    | (with_reducible assumption) | (with_reducible apply State.modLink_keeps)

theorem State.passOn_keeps {s0 s : State} (l : Nat) (p : Packet) (slot : Option Nat) (hk : s0.Keeps s) :
    s0.Keeps (State.passOn s l p slot) := by
  unfold State.passOn
  repeat' first
    | (with_reducible assumption) | (with_reducible apply State.bufferFree_keeps)
    | (with_reducible apply State.dropAnswer_keeps) | (with_reducible apply State.txAdd_keeps)
    | (with_reducible apply State.Keeps.ite) | (intro) | split

theorem State.wicket_keeps {s0 s : State} (l : Nat) (w : Wire) (hk : s0.Keeps s) :
    s0.Keeps (State.wicket s l w) := by
  unfold State.wicket
  repeat' first
    | (with_reducible assumption) | (with_reducible apply State.modLink_keeps)
    | (with_reducible apply State.Keeps.ite) | (intro)

theorem State.crcFailed_keeps {s0 s : State} (l : Nat) (hk : s0.Keeps s) :
    s0.Keeps (State.crcFailed s l) := by
  unfold State.crcFailed
  repeat' first
    | (with_reducible assumption) | (with_reducible apply State.modLink_keeps)
    | (with_reducible apply State.nak_keeps) | (with_reducible apply State.Keeps.foldl)
    | (with_reducible apply State.Keeps.ite) | (intro)

theorem State.receive_keeps {s0 s : State} (l : Nat) (w : Wire) (c : Fin 6) (kind : Nat) (g : Packet → Option Nat →
    State → State) (hg : ∀ a0 a1 y, s0.Keeps y → s0.Keeps (g a0 a1 y)) (hk : s0.Keeps s) :
    s0.Keeps (State.receive s l w c kind g) := by
  unfold State.receive
  repeat' first
    | (with_reducible assumption) | (with_reducible apply hg) | (with_reducible apply State.wicket_keeps)
    | (with_reducible apply State.crcFailed_keeps) | (with_reducible apply State.forceReset_keeps)
    | (with_reducible apply State.trailerTaken_keeps) | (with_reducible apply State.nak_keeps)
    | (with_reducible apply State.seqTaken_keeps) | (with_reducible apply State.areaWrite_keeps)
    | (with_reducible apply State.passOn_keeps) | (with_reducible apply State.Keeps.ite) | (intro)

end Sys2Proof.Machine
end

