-- ==== Sys2Proof/Laws/KeepsReduce.lean ====
section
/-! SUPPORT. No operation of Machine/Reduce.lean breaks what `State.Keeps` speaks of. -/

namespace Sys2Proof.Machine

theorem State.modRed_keeps {s0 s : State} (uid : Nat) (f : RedRun → RedRun) (hk : s0.Keeps s) :
    s0.Keeps (State.modRed s uid f) := by
  unfold State.modRed
  repeat' first
    | (with_reducible assumption) | (intro)
    | (with_reducible refine State.Keeps.mk' ?_ rfl rfl rfl rfl rfl rfl rfl rfl rfl)

theorem State.redSend_keeps {s0 s : State} (g : GroupRec) (r : RedRun) (kind : Nat) (i : Nat) (vs : List Nat) (held :
    Bool) (hk : s0.Keeps s) :
    s0.Keeps (State.redSend s g r kind i vs held) := by
  unfold State.redSend
  repeat' first
    | (with_reducible assumption) | (with_reducible apply State.sendOwn_keeps)

theorem State.exactSend_keeps {s0 s : State} (g : GroupRec) (r : RedRun) (kind : Nat) (hk : s0.Keeps s) :
    s0.Keeps (State.exactSend s g r kind) := by
  unfold State.exactSend
  repeat' first
    | (with_reducible assumption) | (with_reducible apply State.sendOwn_keeps)

theorem State.redCheck_keeps {s0 s : State} (g : GroupRec) (uid : Nat) (hk : s0.Keeps s) :
    s0.Keeps (State.redCheck s g uid) := by
  unfold State.redCheck
  repeat' first
    | (with_reducible assumption) | (with_reducible apply State.redFormed_keeps)
    | (with_reducible apply State.redEnd_keeps) | (with_reducible apply State.Keeps.ite) | (intro) | split

theorem State.nextOpno_keeps {s0 s : State} (grp : Nat) (hk : s0.Keeps s) : s0.Keeps (State.nextOpno s grp).2 :=
  hk.upd rfl rfl rfl rfl rfl rfl rfl rfl rfl

theorem State.redAdd_keeps {s0 s : State} (r : RedRun) (hk : s0.Keeps s) :
    s0.Keeps (State.redAdd s r) := by
  unfold State.redAdd
  repeat' first
    | (with_reducible assumption) | (with_reducible refine State.Keeps.mk' ?_ rfl rfl rfl rfl rfl rfl rfl rfl rfl)

theorem State.redShutCount_keeps {s0 s : State} (g : GroupRec) (hk : s0.Keeps s) :
    s0.Keeps (State.redShutCount s g) := by
  unfold State.redShutCount
  repeat' first
    | (with_reducible assumption) | (with_reducible apply State.linkShutCount_keeps)

theorem State.startFault_keeps {s0 s : State} (uid : Nat) (hk : s0.Keeps s) :
    s0.Keeps (State.startFault s uid) := by
  unfold State.startFault
  repeat' first
    | (with_reducible assumption) | (with_reducible apply State.entrySettle_keeps)
    | (with_reducible apply State.modEntry_keeps)

theorem State.egressRead_keeps {s0 s : State} (e : Entry) (d : Desc) (hk : s0.Keeps s) :
    s0.Keeps (State.egressRead s e d) := by
  unfold State.egressRead
  repeat' first
    | (with_reducible assumption) | (with_reducible apply State.readShut_keeps)
    | (with_reducible apply State.corrected_keeps) | (with_reducible apply State.struck_keeps)
    | (with_reducible apply State.classS_keeps) | (with_reducible apply State.modEntry_keeps)
    | (with_reducible apply State.Keeps.ite) | (intro) | split | (dsimp only)

theorem State.redBegin_keeps {s0 s : State} (uid : Nat) (src : Opnd) (hk : s0.Keeps s) :
    s0.Keeps (State.redBegin s uid src) := by
  unfold State.redBegin
  repeat' first
    | (with_reducible assumption) | (with_reducible apply State.egressRead_keeps)
    | (with_reducible apply State.redFail_keeps) | (with_reducible apply State.modRed_keeps)
    | (with_reducible apply State.redSend_keeps) | (with_reducible apply State.redCheck_keeps)
    | (with_reducible apply State.Keeps.foldl) | (with_reducible apply State.Keeps.ite) | (intro) | split

theorem State.redStart_keeps {s0 s : State} (e : Entry) (src : Opnd) (grp : Nat) (hk : s0.Keeps s) :
    s0.Keeps (State.redStart s e src grp) := by
  unfold State.redStart
  repeat' first
    | (with_reducible assumption) | (with_reducible apply State.startFault_keeps)
    | (with_reducible apply State.nextOpno_keeps) | (with_reducible apply State.redShutCount_keeps)
    | (with_reducible apply State.redAdd_keeps) | (with_reducible apply State.redBegin_keeps)
    | (with_reducible apply State.askReads_keeps) | (with_reducible apply State.Keeps.ite) | (intro) | split

theorem State.takeContribution_keeps {s0 s : State} (e : Entry) (acc : Nat) (hk : s0.Keeps s) :
    s0.Keeps (State.takeContribution s e acc).2 := by
  have hf : s0.Keeps ((s.setAccum e.ctx acc Accum.init).modPlane e.ctx fun p =>
      { p with held := some (s.accum e.ctx acc, e.step) }) :=
    State.modPlane_keeps _ _ (fun _ k => k) (State.setAccum_keeps _ _ _ hk)
  unfold State.takeContribution
  dsimp only
  split
  · split
    · exact hk
    · exact hf
  · exact hf

theorem State.louvreFault_keeps {s0 s : State} (e : Entry) (hk : s0.Keeps s) :
    s0.Keeps (State.louvreFault s e) := by
  unfold State.louvreFault
  repeat' first
    | (with_reducible assumption) | (with_reducible apply State.integrity_keeps)

theorem State.normPending_keeps {s0 s : State} (e : Entry) (hk : s0.Keeps s) :
    s0.Keeps (State.normPending s e) := by
  unfold State.normPending
  repeat' first
    | (with_reducible assumption) | (with_reducible apply State.modPlane_keeps) | exact fun _ k => k

theorem State.normStart_keeps {s0 s : State} (e : Entry) (acc : Nat) (bad : Bool) (hk : s0.Keeps s) :
    s0.Keeps (State.normStart s e acc bad) := by
  unfold State.normStart
  repeat' first
    | (with_reducible assumption) | (with_reducible apply State.startFault_keeps)
    | (with_reducible apply State.normPending_keeps) | (with_reducible apply State.takeContribution_keeps)
    | (with_reducible apply State.louvreFault_keeps) | (with_reducible apply State.nextOpno_keeps)
    | (with_reducible apply State.redShutCount_keeps) | (with_reducible apply State.redAdd_keeps)
    | (with_reducible apply State.exactSend_keeps) | (with_reducible apply State.Keeps.ite) | (intro) | split

theorem State.normSet_keeps {s0 s : State} (e : Entry) (hk : s0.Keeps s) :
    s0.Keeps (State.normSet s e) := by
  unfold State.normSet
  repeat' first
    | (with_reducible assumption) | (with_reducible apply State.modPlane_keeps)
    | (with_reducible apply State.modEntry_keeps) | exact fun _ k => k | (intro _ k; cases k; done)
    | (with_reducible apply State.Keeps.ite) | (intro) | split | (dsimp only)
    | (with_reducible refine State.Keeps.mk' ?_ rfl rfl rfl rfl rfl rfl rfl rfl rfl)

theorem State.redOnward_keeps {s0 s : State} (r : RedRun) (g : GroupRec) (p : Packet) (held : Bool) (hk : s0.Keeps s)
    :
    s0.Keeps (State.redOnward s r g p held) := by
  unfold State.redOnward
  repeat' first
    | (with_reducible assumption) | (with_reducible apply State.modRed_keeps)
    | (with_reducible apply State.redSend_keeps) | (with_reducible apply State.redCheck_keeps)
    | (with_reducible apply State.Keeps.foldl) | (with_reducible apply State.Keeps.ite) | (intro)

theorem State.exactSink_keeps {s0 s : State} (r : RedRun) (g : GroupRec) (p : Packet) (hk : s0.Keeps s) :
    s0.Keeps (State.exactSink s r g p) := by
  unfold State.exactSink
  repeat' first
    | (with_reducible assumption) | (with_reducible apply State.modRed_keeps)
    | (with_reducible apply State.exactSend_keeps) | (with_reducible apply State.redCheck_keeps)
    | (with_reducible apply State.Keeps.ite) | (intro)

end Sys2Proof.Machine
end

