-- ==== Sys2Proof/Laws/KeepsSinks.lean ====
section
/-! SUPPORT. No operation of Machine/Sinks.lean breaks what `State.Keeps` speaks of. -/

namespace Sys2Proof.Machine

theorem State.putSend_keeps {s0 s : State} (uid : Nat) (loc : Opnd) (route : Word) (hk : s0.Keeps s) :
    s0.Keeps (State.putSend s uid loc route) := by
  unfold State.putSend
  repeat' first
    | (with_reducible assumption) | (with_reducible apply State.egressRead_keeps)
    | (with_reducible apply State.sendOwn_keeps) | (with_reducible apply State.redFormed_keeps)
    | (with_reducible apply State.Keeps.ite) | (intro) | split

theorem State.fetchStart_keeps {s0 s : State} (e : Entry) (loc : Opnd) (route : Word) (hk : s0.Keeps s) :
    s0.Keeps (State.fetchStart s e loc route) := by
  unfold State.fetchStart
  repeat' first
    | (with_reducible assumption) | (with_reducible apply State.redFormed_keeps)
    | (with_reducible apply State.modEntry_keeps) | (with_reducible apply State.sendOwn_keeps)
    | (with_reducible apply State.Keeps.ite) | (intro)

theorem State.putStart_keeps {s0 s : State} (e : Entry) (loc : Opnd) (route : Word) (hk : s0.Keeps s) :
    s0.Keeps (State.putStart s e loc route) := by
  unfold State.putStart
  repeat' first
    | (with_reducible assumption) | (with_reducible apply State.startFault_keeps)
    | (with_reducible apply State.linkShutCount_keeps) | (with_reducible apply State.fetchStart_keeps)
    | (with_reducible apply State.putSend_keeps) | (with_reducible apply State.askReads_keeps)
    | (with_reducible apply State.Keeps.ite) | (intro)

theorem State.signalDropped_keeps {s0 s : State} (stale : Bool) (hk : s0.Keeps s) :
    s0.Keeps (State.signalDropped s stale) := by
  unfold State.signalDropped
  repeat' first
    | (with_reducible assumption) | (with_reducible apply State.Keeps.ite) | (intro)
    | (with_reducible refine State.Keeps.mk' ?_ rfl rfl rfl rfl rfl rfl rfl rfl rfl)

theorem State.tallyEnd_keeps {s0 s : State} (x : Sink) (hk : s0.Keeps s) :
    s0.Keeps (State.tallyEnd s x) := by
  unfold State.tallyEnd
  repeat' first
    | (with_reducible assumption) | (intro)
    | (with_reducible refine State.Keeps.mk' ?_ rfl rfl rfl rfl rfl rfl rfl rfl rfl)

theorem State.tallyAdd_keeps {s0 s : State} (x : Sink) (hk : s0.Keeps s) :
    s0.Keeps (State.tallyAdd s x) := by
  unfold State.tallyAdd
  repeat' first
    | (with_reducible assumption) | (with_reducible apply State.tallyEnd_keeps)
    | (with_reducible apply State.Keeps.ite) | (intro)
    | (with_reducible refine State.Keeps.mk' ?_ rfl rfl rfl rfl rfl rfl rfl rfl rfl)

theorem State.pendingAdd_keeps {s0 s : State} (x : Sink) (c : Nat) (hk : s0.Keeps s) :
    s0.Keeps (State.pendingAdd s x c) := by
  unfold State.pendingAdd
  repeat' first
    | (with_reducible assumption) | (with_reducible apply State.tallyEnd_keeps)
    | (with_reducible refine State.Keeps.mk' ?_ rfl rfl rfl rfl rfl rfl rfl rfl rfl)

theorem State.modSink_keeps {s0 s : State} (id : Nat) (f : Sink → Sink) (hk : s0.Keeps s) :
    s0.Keeps (State.modSink s id f) := by
  unfold State.modSink
  repeat' first
    | (with_reducible assumption) | (intro)
    | (with_reducible refine State.Keeps.mk' ?_ rfl rfl rfl rfl rfl rfl rfl rfl rfl)

theorem State.sinkAdd_keeps {s0 s : State} (l : Nat) (p : Packet) (xfer : Nat) (slot : Option Nat) (hk : s0.Keeps s) :
    s0.Keeps (State.sinkAdd s l p xfer slot) := by
  unfold State.sinkAdd
  repeat' first
    | (with_reducible assumption) | (with_reducible refine State.Keeps.mk' ?_ rfl rfl rfl rfl rfl rfl rfl rfl rfl)

theorem State.sinkGone_keeps {s0 s : State} (x : Sink) (hk : s0.Keeps s) :
    s0.Keeps (State.sinkGone s x) := by
  unfold State.sinkGone
  repeat' first
    | (with_reducible assumption) | (with_reducible apply State.bufferFree_keeps) | (intro)
    | (with_reducible refine State.Keeps.mk' ?_ rfl rfl rfl rfl rfl rfl rfl rfl rfl)

theorem State.terminalDropped_keeps {s0 s : State} (x : Sink) (stale : Bool) (hk : s0.Keeps s) :
    s0.Keeps (State.terminalDropped s x stale) := by
  unfold State.terminalDropped
  repeat' first
    | (with_reducible assumption) | (with_reducible apply State.tallyEnd_keeps)
    | (with_reducible apply State.signalDropped_keeps)

theorem State.sinkFail_keeps {s0 s : State} (x : Sink) (hk : s0.Keeps s) :
    s0.Keeps (State.sinkFail s x) := by
  unfold State.sinkFail
  repeat' first
    | (with_reducible assumption) | (with_reducible apply State.terminalDropped_keeps)
    | (with_reducible apply State.sinkGone_keeps) | (with_reducible apply State.answer_keeps)
    | (with_reducible apply State.Keeps.ite) | (intro)
    | (with_reducible refine State.Keeps.mk' ?_ rfl rfl rfl rfl rfl rfl rfl rfl rfl)

theorem State.sinkJournal_keeps {s0 s : State} (x : Sink) (c : Nat) (handle : Nat) (index : Nat) (b : Nat) (latch :
    Nat) (hk : s0.Keeps s) :
    s0.Keeps (State.sinkJournal s x c handle index b latch) := by
  unfold State.sinkJournal
  repeat' first
    | (with_reducible assumption) | (with_reducible apply State.journalInput_keeps)

theorem State.putDone_keeps {s0 s : State} (x : Sink) (hk : s0.Keeps s) :
    s0.Keeps (State.putDone s x) := by
  unfold State.putDone
  repeat' first
    | (with_reducible assumption) | (with_reducible apply State.tallyAdd_keeps)
    | (with_reducible apply State.sinkJournal_keeps) | (with_reducible apply State.sinkGone_keeps)
    | (with_reducible apply State.answer_keeps) | (with_reducible apply State.Keeps.ite) | (intro) | split
    | (dsimp only) | (with_reducible refine State.Keeps.mk' ?_ rfl rfl rfl rfl rfl rfl rfl rfl rfl)

theorem State.rspEnd_keeps {s0 s : State} (x : Sink) (status : Nat) (hk : s0.Keeps s) :
    s0.Keeps (State.rspEnd s x status) := by
  unfold State.rspEnd
  repeat' first
    | (with_reducible assumption) | (with_reducible apply State.modEntry_keeps)
    | (with_reducible apply State.redFail_keeps) | (with_reducible apply State.entrySettle_keeps)
    | (with_reducible apply State.sinkGone_keeps) | (with_reducible apply State.Keeps.ite) | (intro) | split
    | (dsimp only) | (with_reducible refine State.Keeps.mk' ?_ rfl rfl rfl rfl rfl rfl rfl rfl rfl)

theorem State.fetchDone_keeps {s0 s : State} (x : Sink) (hk : s0.Keeps s) :
    s0.Keeps (State.fetchDone s x) := by
  unfold State.fetchDone
  repeat' first
    | (with_reducible assumption) | (with_reducible apply State.rspEnd_keeps)
    | (with_reducible apply State.sinkJournal_keeps) | split

theorem State.redDone_keeps {s0 s : State} (x : Sink) (hk : s0.Keeps s) :
    s0.Keeps (State.redDone s x) := by
  unfold State.redDone
  repeat' first
    | (with_reducible assumption) | (with_reducible apply State.sinkJournal_keeps)
    | (with_reducible apply State.exactSink_keeps) | (with_reducible apply State.redOnward_keeps)
    | (with_reducible apply State.sinkGone_keeps) | (with_reducible apply State.answer_keeps)
    | (with_reducible apply State.sinkFail_keeps) | (with_reducible apply State.Keeps.ite) | (intro) | split

theorem State.rdDone_keeps {s0 s : State} (x : Sink) (d : Desc) (n : Nat) (hk : s0.Keeps s) :
    s0.Keeps (State.rdDone s x d n) := by
  unfold State.rdDone
  repeat' first
    | (with_reducible assumption) | (with_reducible apply State.sinkGone_keeps)
    | (with_reducible apply State.answer_keeps) | (with_reducible apply State.readShut_keeps)
    | (with_reducible apply State.corrected_keeps) | (with_reducible apply State.struck_keeps)
    | (with_reducible apply State.sinkFail_keeps) | (with_reducible apply State.integrity_keeps)
    | (with_reducible apply State.Keeps.ite) | (intro) | split | (dsimp only)

theorem State.sinkDone_keeps {s0 s : State} (x : Sink) (hk : s0.Keeps s) :
    s0.Keeps (State.sinkDone s x) := by
  unfold State.sinkDone
  repeat' first
    | (with_reducible assumption) | (with_reducible apply State.fetchDone_keeps)
    | (with_reducible apply State.redDone_keeps) | (with_reducible apply State.putDone_keeps)
    | (with_reducible apply State.Keeps.ite) | (intro)

theorem State.sinkWrite_keeps {s0 s : State} (x : Sink) (d : Desc) (ws : List BitWrite) (hk : s0.Keeps s) :
    s0.Keeps (State.sinkWrite s x d ws) := by
  unfold State.sinkWrite
  repeat' first
    | (with_reducible assumption) | (with_reducible apply State.sinkDone_keeps)
    | (with_reducible apply State.spadWrite_keeps) | (with_reducible apply State.jambAdd_keeps)
    | (with_reducible apply State.modSink_keeps) | (with_reducible apply State.Keeps.foldl)
    | (with_reducible apply State.Keeps.ite) | (intro)

theorem State.sinkRead_keeps {s0 s : State} (x : Sink) (d : Desc) (i : Nat) (n : Nat) (as : List Nat) (g : State →
    State) (hg : ∀ y, s0.Keeps y → s0.Keeps (g y)) (hk : s0.Keeps s) :
    s0.Keeps (State.sinkRead s x d i n as g) := by
  unfold State.sinkRead
  repeat' first
    | (with_reducible assumption) | (with_reducible apply hg) | (with_reducible apply State.jambAdd_keeps)
    | (with_reducible apply State.modSink_keeps) | (with_reducible apply State.Keeps.ite) | (intro)

theorem State.putWork_keeps {s0 s : State} (x : Sink) (hk : s0.Keeps s) : s0.Keeps (State.putWork s x).1 := by
  unfold State.putWork
  dsimp only
  split
  · exact hk
  · split
    · exact hk
    · exact State.resolve1_keeps _ _ _ hk

theorem State.sinkWork_keeps {s0 s : State} (x : Sink) (hk : s0.Keeps s) : s0.Keeps (State.sinkWork s x).1 := by
  unfold State.sinkWork
  split
  · exact hk
  · split
    · exact hk
    · exact State.putWork_keeps _ hk

theorem State.noteAll_keeps {s0 s : State} (uid : Option Nat) (ws : List BitWrite) (hk : s0.Keeps s) :
    s0.Keeps (State.noteAll s uid ws) := by
  unfold State.noteAll
  repeat' first
    | (with_reducible assumption) | (with_reducible apply State.noteWrite_keeps)
    | (with_reducible apply State.Keeps.foldl) | (intro) | split

theorem State.sinkData_keeps {s0 s : State} (x : Sink) (d : Desc) (i : Nat) (n : Nat) (uid : Option Nat) (hk :
    s0.Keeps s) :
    s0.Keeps (State.sinkData s x d i n uid) := by
  unfold State.sinkData
  repeat' first
    | (with_reducible assumption) | (with_reducible apply State.pendingAdd_keeps)
    | (with_reducible apply State.terminalDropped_keeps) | (with_reducible apply State.sinkRead_keeps)
    | (with_reducible apply State.sinkWrite_keeps) | (with_reducible apply State.noteAll_keeps)
    | (with_reducible apply State.Keeps.ite) | (intro) | split

theorem State.tagSwept_keeps {s0 s : State} (x : Sink) (d : BitVec 16) (hk : s0.Keeps s) :
    s0.Keeps (State.tagSwept s x d) := by
  unfold State.tagSwept
  repeat' first
    | (with_reducible assumption) | (with_reducible apply State.trackerParity_keeps)
    | (with_reducible apply State.struck_keeps) | (with_reducible apply State.rspEnd_keeps)
    | (with_reducible refine State.Keeps.mk' ?_ rfl rfl rfl rfl rfl rfl rfl rfl rfl)

theorem State.sinkDo_keeps {s0 s : State} (x : Sink) (k : SinkWork) (hk : s0.Keeps s) :
    s0.Keeps (State.sinkDo s x k) := by
  unfold State.sinkDo
  repeat' first
    | (with_reducible assumption) | (with_reducible apply State.rspEnd_keeps)
    | (with_reducible apply State.sinkFail_keeps) | (with_reducible apply State.modSink_keeps)
    | (with_reducible apply State.fillAsk_keeps) | (with_reducible apply State.descFault_keeps)
    | (with_reducible apply State.redFail_keeps) | (with_reducible apply State.redDone_keeps)
    | (with_reducible apply State.sinkWrite_keeps) | (with_reducible apply State.noteAll_keeps)
    | (with_reducible apply State.sinkData_keeps) | (with_reducible apply State.sinkRead_keeps)
    | (with_reducible apply State.rdDone_keeps) | (with_reducible apply State.Keeps.foldl)
    | (with_reducible apply State.Keeps.ite) | (intro) | split

theorem State.sinkTry_keeps {s0 s : State} (x : Sink) (hk : s0.Keeps s) :
    s0.Keeps (State.sinkTry s x) := by
  unfold State.sinkTry
  repeat' first
    | (with_reducible assumption) | (with_reducible apply State.wakeAsk_keeps)
    | (with_reducible apply State.tagSwept_keeps) | (with_reducible apply State.sinkDo_keeps)
    | (with_reducible apply State.sinkWork_keeps) | (with_reducible apply State.Keeps.ite) | (intro) | split

theorem State.sinkStep_keeps {s0 s : State} (id : Nat) (hk : s0.Keeps s) :
    s0.Keeps (State.sinkStep s id) := by
  unfold State.sinkStep
  repeat' first
    | (with_reducible assumption) | (with_reducible apply State.sinkTry_keeps)
    | (with_reducible apply State.Keeps.ite) | (intro) | split

theorem State.sinksGo_keeps {s0 s : State} (hk : s0.Keeps s) :
    s0.Keeps (State.sinksGo s) := by
  unfold State.sinksGo
  repeat' first
    | (with_reducible assumption) | (with_reducible apply State.sinkStep_keeps)
    | (with_reducible apply State.Keeps.foldl)

theorem State.sinkMemFail_keeps {s0 s : State} (x : Sink) (hk : s0.Keeps s) :
    s0.Keeps (State.sinkMemFail s x) := by
  unfold State.sinkMemFail
  repeat' first
    | (with_reducible assumption) | (with_reducible apply State.rspEnd_keeps)
    | (with_reducible apply State.sinkFail_keeps) | (with_reducible apply State.redFail_keeps)
    | (with_reducible apply State.Keeps.ite) | (intro) | split

theorem State.sinkGot_keeps {s0 s : State} (x : Sink) (hk : s0.Keeps s) :
    s0.Keeps (State.sinkGot s x) := by
  unfold State.sinkGot
  repeat' first
    | (with_reducible assumption) | (with_reducible apply State.rdDone_keeps)
    | (with_reducible apply State.sinkWrite_keeps) | (with_reducible apply State.noteAll_keeps)
    | (with_reducible apply State.Keeps.ite) | (intro) | split

theorem State.sinkAnswered_keeps {s0 s : State} (id : Nat) (got : List Host.Cell) (ok : Bool) (hk : s0.Keeps s) :
    s0.Keeps (State.sinkAnswered s id got ok) := by
  unfold State.sinkAnswered
  repeat' first
    | (with_reducible assumption) | (with_reducible apply State.modSink_keeps)
    | (with_reducible apply State.sinksGo_keeps) | (with_reducible apply State.sinkMemFail_keeps)
    | (with_reducible apply State.sinkGot_keeps) | (with_reducible apply State.sinkDone_keeps)
    | (with_reducible apply State.Keeps.foldl) | (with_reducible apply State.Keeps.ite) | (intro) | split
    | (dsimp only)

theorem State.sinksFilled_keeps {s0 s : State} (c : Nat) (h : Nat) (ok : Bool) (hk : s0.Keeps s) :
    s0.Keeps (State.sinksFilled s c h ok) := by
  unfold State.sinksFilled
  repeat' first
    | (with_reducible assumption) | (with_reducible apply State.sinksGo_keeps)
    | (with_reducible apply State.Keeps.ite) | (intro)
    | (with_reducible refine State.Keeps.mk' ?_ rfl rfl rfl rfl rfl rfl rfl rfl rfl)

end Sys2Proof.Machine
end

