-- ==== Sys2Proof/Laws/KeepsDoorExec.lean ====
section
/-! SUPPORT. No operation of Machine/DoorExec.lean breaks what `State.Keeps` speaks of. -/

namespace Sys2Proof.Machine

theorem State.sunk_keeps {s0 s : State} (l : Nat) (w : Wire) (xfer : Nat) (c : Fin 6) (kind : Nat) (hk : s0.Keeps s) :
    s0.Keeps (State.sunk s l w xfer c kind) := by
  unfold State.sunk
  repeat' first
    | (with_reducible assumption) | (with_reducible apply State.sinksGo_keeps)
    | (with_reducible apply State.receive_keeps) | (with_reducible apply State.sinkAdd_keeps)
    | (with_reducible apply State.Keeps.ite) | (intro)

theorem execRspAck_keeps {s0 s : State} (link : Fin 6) (w : Wire) (hk : s0.Keeps s) :
    ∃ z, execRspAck link w s = .next z ∧ s0.Keeps z := by
  unfold execRspAck
  refine ⟨_, rfl, ?_⟩
  repeat' first
    | (with_reducible assumption) | (with_reducible apply State.sunk_keeps)

theorem execRspData_keeps {s0 s : State} (link : Fin 6) (w : Wire) (hk : s0.Keeps s) :
    ∃ z, execRspData link w s = .next z ∧ s0.Keeps z := by
  unfold execRspData
  refine ⟨_, rfl, ?_⟩
  repeat' first
    | (with_reducible assumption) | (with_reducible apply State.sunk_keeps)

theorem execSigTerminal_keeps {s0 s : State} (link : Fin 6) (p : PutPacket) (hk : s0.Keeps s) :
    ∃ z, execSigTerminal link p s = .next z ∧ s0.Keeps z := by
  unfold execSigTerminal
  refine ⟨_, rfl, ?_⟩
  repeat' first
    | (with_reducible assumption) | (with_reducible apply State.sunk_keeps)

theorem execRedPartial_keeps {s0 s : State} (link : Fin 6) (w : Wire) (hk : s0.Keeps s) :
    ∃ z, execRedPartial link w s = .next z ∧ s0.Keeps z := by
  unfold execRedPartial
  refine ⟨_, rfl, ?_⟩
  repeat' first
    | (with_reducible assumption) | (with_reducible apply State.sunk_keeps)

theorem execRedFinal_keeps {s0 s : State} (link : Fin 6) (w : Wire) (hk : s0.Keeps s) :
    ∃ z, execRedFinal link w s = .next z ∧ s0.Keeps z := by
  unfold execRedFinal
  refine ⟨_, rfl, ?_⟩
  repeat' first
    | (with_reducible assumption) | (with_reducible apply State.sunk_keeps)

theorem execWrData_keeps {s0 s : State} (link : Fin 6) (p : PutPacket) (hk : s0.Keeps s) :
    ∃ z, execWrData link p s = .next z ∧ s0.Keeps z := by
  unfold execWrData
  refine ⟨_, rfl, ?_⟩
  repeat' first
    | (with_reducible assumption) | (with_reducible apply State.sunk_keeps)

theorem execRdRead_keeps {s0 s : State} (link : Fin 6) (w : Wire) (hk : s0.Keeps s) :
    ∃ z, execRdRead link w s = .next z ∧ s0.Keeps z := by
  unfold execRdRead
  refine ⟨_, rfl, ?_⟩
  repeat' first
    | (with_reducible assumption) | (with_reducible apply State.sunk_keeps)

theorem execMgtNull_keeps {s0 s : State} (link : Fin 6) (w : Wire) (hk : s0.Keeps s) :
    ∃ z, execMgtNull link w s = .next z ∧ s0.Keeps z := by
  unfold execMgtNull
  refine ⟨_, rfl, ?_⟩
  repeat' first
    | (with_reducible assumption) | (with_reducible apply State.wicket_keeps)
    | (with_reducible apply State.crcFailed_keeps) | (with_reducible apply State.forceReset_keeps)
    | (with_reducible apply State.sinksGo_keeps) | (with_reducible apply State.trailerTaken_keeps)
    | (with_reducible apply State.Keeps.ite) | (intro)

theorem State.repoint_keeps {s0 s : State} (x : BitVec 16) (v : BitVec 16) (epoch : BitVec 24) (via : Option Nat) (hk
    : s0.Keeps s) :
    s0.Keeps (State.repoint s x v epoch via) := by
  unfold State.repoint
  repeat' first
    | (with_reducible assumption) | (with_reducible apply State.txAdd_keeps)
    | (with_reducible apply State.Keeps.foldl) | (with_reducible apply State.Keeps.ite) | (intro)
    | (with_reducible refine State.Keeps.mk' ?_ rfl rfl rfl rfl rfl rfl rfl rfl rfl)

theorem execRepoint_keeps {s0 s : State} (link : Fin 6) (x v : BitVec 16) (epoch : BitVec 24) (w : Wire) (hk : s0.Keeps s) :
    ∃ z, execRepoint link x v epoch w s = .next z ∧ s0.Keeps z := by
  unfold execRepoint
  refine ⟨_, rfl, ?_⟩
  repeat' first
    | (with_reducible assumption) | (with_reducible apply State.receive_keeps)
    | (with_reducible apply State.forceReset_keeps) | (with_reducible apply State.freeBuffer_keeps)
    | (with_reducible apply State.repoint_keeps) | (with_reducible apply State.Keeps.ite) | (intro)

theorem execMgtReset_keeps {s0 s : State} (link : Fin 6) (w : Wire) (hk : s0.Keeps s) :
    ∃ z, execMgtReset link w s = .next z ∧ s0.Keeps z := by
  unfold execMgtReset
  refine ⟨_, rfl, ?_⟩
  repeat' first
    | (with_reducible assumption) | (with_reducible apply State.receive_keeps)
    | (with_reducible apply State.forceReset_keeps) | (intro)

theorem State.linkCause_keeps {s0 s : State} (l : Nat) (cause : Nat) (hk : s0.Keeps s) :
    s0.Keeps (State.linkCause s l cause) := by
  unfold State.linkCause
  repeat' first
    | (with_reducible assumption) | (with_reducible apply State.modLink_keeps)

theorem State.negotiate_keeps {s0 s : State} (l : Nat) (h : HelloMsg) (r : LinkRec) (hk : s0.Keeps s) :
    s0.Keeps (State.negotiate s l h r) := by
  unfold State.negotiate
  repeat' first
    | (with_reducible assumption) | (with_reducible apply State.linkTo_keeps)
    | (with_reducible apply State.linkCause_keeps) | (with_reducible apply State.modLink_keeps)
    | (with_reducible apply State.Keeps.foldl) | (with_reducible apply State.Keeps.ite) | (intro)

theorem State.decideLink_keeps {s0 s : State} (l : Nat) (late : Bool) (hk : s0.Keeps s) :
    s0.Keeps (State.decideLink s l late) := by
  unfold State.decideLink
  repeat' first
    | (with_reducible assumption) | (with_reducible apply State.linkTo_keeps)
    | (with_reducible apply State.negotiate_keeps) | (with_reducible apply State.modLink_keeps)
    | (with_reducible apply State.linkCause_keeps) | (with_reducible apply State.Keeps.ite) | (intro) | split
    | (dsimp only)

theorem State.discover_keeps {s0 s : State} (l : Nat) (hk : s0.Keeps s) :
    s0.Keeps (State.discover s l) := by
  unfold State.discover
  repeat' first
    | (with_reducible assumption) | (with_reducible apply State.decideLink_keeps)
    | (with_reducible apply State.Keeps.ite) | (intro)

theorem State.helloOut_keeps {s0 s : State} (l : Nat) (hk : s0.Keeps s) :
    s0.Keeps (State.helloOut s l) := by
  unfold State.helloOut
  repeat' first
    | (with_reducible assumption) | (with_reducible apply State.modLink_keeps)
    | (with_reducible apply State.drive_keeps)

theorem execHelloSend_keeps {s0 s : State} (link : Fin 6) (hk : s0.Keeps s) :
    ∃ z, execHelloSend link s = .next z ∧ s0.Keeps z := by
  unfold execHelloSend
  refine ⟨_, rfl, ?_⟩
  repeat' first
    | (with_reducible assumption) | (with_reducible apply State.discover_keeps)
    | (with_reducible apply State.helloOut_keeps) | (with_reducible apply State.Keeps.ite) | (intro)

theorem State.helloTaken_keeps {s0 s : State} (l : Nat) (h : HelloMsg) (t : Trailer) (hk : s0.Keeps s) :
    s0.Keeps (State.helloTaken s l h t) := by
  unfold State.helloTaken
  repeat' first
    | (with_reducible assumption) | (with_reducible apply State.modLink_keeps)
    | (with_reducible apply State.discover_keeps) | (with_reducible apply State.forceReset_keeps)
    | (with_reducible apply State.sinksGo_keeps) | (with_reducible apply State.trailerTaken_keeps)
    | (with_reducible apply State.helloOut_keeps) | (with_reducible apply State.Keeps.ite) | (intro) | split
    | (dsimp only)

theorem execHello_keeps {s0 s : State} (link : Fin 6) (w : Wire) (hk : s0.Keeps s) :
    ∃ z, execHello link w s = .next z ∧ s0.Keeps z := by
  unfold execHello
  refine ⟨_, rfl, ?_⟩
  repeat' first
    | (with_reducible assumption) | (with_reducible apply State.wicket_keeps)
    | (with_reducible apply State.crcFailed_keeps) | (with_reducible apply State.forceReset_keeps)
    | (with_reducible apply State.helloTaken_keeps) | (with_reducible apply State.Keeps.ite) | (intro)

theorem execLinkRdy_keeps {s0 s : State} (link : Fin 6) (level : Bool) (hk : s0.Keeps s) :
    ∃ z, execLinkRdy link level s = .next z ∧ s0.Keeps z := by
  unfold execLinkRdy
  refine ⟨_, rfl, ?_⟩
  repeat' first
    | (with_reducible assumption) | (with_reducible apply State.modLink_keeps)
    | (with_reducible apply State.linkTo_keeps) | (with_reducible apply State.Keeps.ite) | (intro)

theorem execDiscoveryTimeout_keeps {s0 s : State} (link : Fin 6) (hk : s0.Keeps s) :
    ∃ z, execDiscoveryTimeout link s = .next z ∧ s0.Keeps z := by
  unfold execDiscoveryTimeout
  refine ⟨_, rfl, ?_⟩
  repeat' first
    | (with_reducible assumption) | (with_reducible apply State.linkCause_keeps)
    | (with_reducible apply State.linkTo_keeps) | (with_reducible apply State.linkOff_keeps)
    | (with_reducible apply State.decideLink_keeps) | (with_reducible apply State.Keeps.ite) | (intro) | split

theorem execIdleLinkDisable_keeps {s0 s : State} (link : Fin 6) (hk : s0.Keeps s) :
    ∃ z, execIdleLinkDisable link s = .next z ∧ s0.Keeps z := by
  unfold execIdleLinkDisable
  refine ⟨_, rfl, ?_⟩
  repeat' first
    | (with_reducible assumption) | (with_reducible apply State.modLink_keeps)
    | (with_reducible apply State.Keeps.ite) | (intro)

theorem execLinkResetEnd_keeps {s0 s : State} (link : Fin 6) (hk : s0.Keeps s) :
    ∃ z, execLinkResetEnd link s = .next z ∧ s0.Keeps z := by
  unfold execLinkResetEnd
  refine ⟨_, rfl, ?_⟩
  repeat' first
    | (with_reducible assumption) | (with_reducible apply State.linkWait_keeps)
    | (with_reducible apply State.linkTo_keeps) | (with_reducible apply State.Keeps.ite) | (intro)

theorem execAckTimeout_keeps {s0 s : State} (link : Fin 6) (c : Fin 6) (hk : s0.Keeps s) :
    ∃ z, execAckTimeout link c s = .next z ∧ s0.Keeps z := by
  unfold execAckTimeout
  refine ⟨_, rfl, ?_⟩
  repeat' first
    | (with_reducible assumption) | (with_reducible apply State.resend_keeps)
    | (with_reducible apply State.Keeps.ite) | (intro) | split

theorem execCreditTimeout_keeps {s0 s : State} (link : Fin 6) (c : Fin 6) (hk : s0.Keeps s) :
    ∃ z, execCreditTimeout link c s = .next z ∧ s0.Keeps z := by
  unfold execCreditTimeout
  refine ⟨_, rfl, ?_⟩
  repeat' first
    | (with_reducible assumption) | (with_reducible apply State.forceReset_keeps)
    | (with_reducible apply State.Keeps.ite) | (intro)

theorem State.doorRestart_keeps {s0 s : State} (hk : s0.Keeps s) :
    s0.Keeps (State.doorRestart s) := by
  unfold State.doorRestart
  repeat' first
    | (with_reducible assumption) | (with_reducible apply State.modLink_keeps)
    | (with_reducible apply State.linkClear_keeps) | (with_reducible apply State.linkOff_keeps)
    | (with_reducible apply State.linkWait_keeps) | (with_reducible apply State.linkTo_keeps)
    | (with_reducible apply State.Keeps.foldl) | (with_reducible apply State.Keeps.ite) | (intro) | split
    | (dsimp only) | (with_reducible refine State.Keeps.mk' ?_ rfl rfl rfl rfl rfl rfl rfl rfl rfl)

theorem State.hostReset_keeps {s0 s : State} (l : Nat) (hk : s0.Keeps s) :
    s0.Keeps (State.hostReset s l) := by
  unfold State.hostReset
  repeat' first
    | (with_reducible assumption) | (with_reducible apply State.forceReset_keeps)
    | (with_reducible apply State.Keeps.ite) | (intro)

theorem execRemoteSignalApply_keeps {s0 s : State} (link : Fin 6) (src : BitVec 16) (tag : BitVec 16) (hk : s0.Keeps
    s) :
    ∃ z, execRemoteSignalApply link src tag s = .next z ∧ s0.Keeps z := by
  unfold execRemoteSignalApply
  refine ⟨_, rfl, ?_⟩
  repeat' first
    | (with_reducible assumption) | (with_reducible apply State.wakeAsk_keeps)
    | (with_reducible apply State.sigRelease_keeps) | (with_reducible apply State.latchSignal_keeps)
    | (with_reducible apply State.Keeps.ite) | (intro) | split | (dsimp only)
    | (with_reducible refine State.Keeps.mk' ?_ rfl rfl rfl rfl rfl rfl rfl rfl rfl)

end Sys2Proof.Machine
end

