-- ==== Sys2Proof/Laws/KeepsStarts.lean ====
section
/-! SUPPORT. No operation of Machine/Starts.lean breaks what `State.Keeps` speaks of. -/

namespace Sys2Proof.Machine

theorem State.propsRead_keeps {s0 s : State} (os : List Opnd) (hk : s0.Keeps s) :
    s0.Keeps (State.propsRead s os) := by
  unfold State.propsRead
  repeat' first
    | (with_reducible assumption) | (with_reducible apply State.dcRead_keeps)
    | (with_reducible apply State.Keeps.foldl) | (intro)

theorem State.propFailed_keeps {s0 s : State} (ctx : Nat) (h : Nat) (hk : s0.Keeps s) :
    s0.Keeps (State.propFailed s ctx h) := by
  unfold State.propFailed
  repeat' first
    | (with_reducible assumption) | (with_reducible apply State.Keeps.ite) | (intro)
    | (with_reducible refine State.Keeps.mk' ?_ rfl rfl rfl rfl rfl rfl rfl rfl rfl)

theorem State.applyStart_keeps {s0 s : State} (uid : Nat) (g : Nat) (run : State → Entry → State) (hrun : ∀ y a1,
    s0.Keeps y → s0.Keeps (run y a1)) (hk : s0.Keeps s) :
    s0.Keeps (State.applyStart s uid g run) := by
  unfold State.applyStart
  repeat' first
    | (with_reducible assumption) | (with_reducible apply hrun) | (with_reducible apply State.modEntry_keeps)
    | (with_reducible apply State.casRaise_keeps) | (intro) | split | (dsimp only)
    | (with_reducible refine State.Keeps.mk' ?_ rfl rfl rfl rfl rfl rfl rfl rfl rfl)

theorem State.jobStart_keeps {s0 s : State} (e : Entry) (bad : Bool) (hk : s0.Keeps s) :
    s0.Keeps (State.jobStart s e bad) := by
  unfold State.jobStart
  repeat' first
    | (with_reducible assumption) | (with_reducible apply State.latStart_keeps)
    | (with_reducible apply State.applyStart_keeps) | (with_reducible apply State.casStart_keeps)
    | (with_reducible apply State.transomStart_keeps) | (with_reducible apply State.drainStart_keeps)
    | (with_reducible apply State.copyStart_keeps) | (with_reducible apply State.ssqStart_keeps)
    | (with_reducible apply State.putStart_keeps) | (with_reducible apply State.redStart_keeps)
    | (with_reducible apply State.nearStart_keeps) | (with_reducible apply State.normStart_keeps)
    | (with_reducible apply State.rootStart_keeps) | (with_reducible apply State.rearm_keeps) | (intro) | split

theorem State.startOn_keeps {s0 s : State} (q : Nat) (e : Entry) (lent : Bool) (props : List (Nat × Nat)) (u : Upset)
    (hk : s0.Keeps s) :
    s0.Keeps (State.startOn s q e lent props u) := by
  unfold State.startOn
  repeat' first
    | (with_reducible assumption) | (with_reducible apply State.modEngine_keeps)
    | (with_reducible apply State.modEntry_keeps) | (with_reducible apply State.classS_keeps)
    | (with_reducible apply State.corrected_keeps) | (with_reducible apply State.sinksGo_keeps)
    | (with_reducible apply State.jobStart_keeps) | (with_reducible apply State.Keeps.ite) | (intro) | split
    | (dsimp only)

theorem State.startEntry_keeps {s0 s : State} (q : Nat) (e : Entry) (lent : Bool) (u : Upset) (hk : s0.Keeps s) :
    s0.Keeps (State.startEntry s q e lent u) := by
  unfold State.startEntry
  repeat' first
    | (with_reducible assumption) | (with_reducible apply State.propsRead_keeps)
    | (with_reducible apply State.fillAsk_keeps) | (with_reducible apply State.modEntry_keeps)
    | (with_reducible apply State.startOn_keeps) | (intro) | split | (dsimp only)

theorem execWeaveStart_keeps {s0 s : State} (q : Fin 11) (u : Upset) (hk : s0.Keeps s) :
    ∃ z, execWeaveStart q u s = .next z ∧ s0.Keeps z := by
  unfold execWeaveStart
  refine ⟨_, rfl, ?_⟩
  repeat' first
    | (with_reducible assumption) | (with_reducible apply State.controlParity_keeps)
    | (with_reducible apply State.startEntry_keeps) | (with_reducible apply State.Keeps.ite) | (intro) | split

theorem execOpenWovenStart_keeps {s0 s : State} (q : Fin 11) (u : Upset) (hk : s0.Keeps s) :
    ∃ z, execOpenWovenStart q u s = .next z ∧ s0.Keeps z := by
  unfold execOpenWovenStart
  refine ⟨_, rfl, ?_⟩
  repeat' first
    | (with_reducible assumption) | (with_reducible apply State.startEntry_keeps)
    | (with_reducible apply State.Keeps.ite) | (intro) | split

end Sys2Proof.Machine
end

