-- ==== Sys2Proof/Laws/KeepsDigest.lean ====
section
/-! SUPPORT. No operation of Machine/Digest.lean breaks what `State.Keeps` speaks of. -/

namespace Sys2Proof.Machine

theorem State.stepDigest_keeps {s0 s : State} (e : Entry) (ds : List (BitVec 32)) (hk : s0.Keeps s) :
    s0.Keeps (State.stepDigest s e ds) := by
  unfold State.stepDigest
  repeat' first
    | (with_reducible assumption) | (with_reducible apply State.modTh_keeps)
    | (with_reducible apply State.modPlane_keeps) | exact fun _ k => k | (intro _ k; cases k; done)
    | (with_reducible apply State.Keeps.foldl) | (with_reducible apply State.Keeps.ite) | (intro)

theorem State.journalEntry_keeps {s0 s : State} (e : Entry) (status : Nat) (hk : s0.Keeps s) :
    s0.Keeps (State.journalEntry s e status) := by
  unfold State.journalEntry
  repeat' first
    | (with_reducible assumption) | (with_reducible apply State.stepDigest_keeps)
    | (with_reducible apply State.journalStream_keeps) | (with_reducible apply State.Keeps.foldl)
    | (with_reducible apply State.Keeps.ite) | (intro) | split

end Sys2Proof.Machine
end

