-- ==== Sys2Proof/Laws/KeepsReplay.lean ====
section
/-! SUPPORT. No operation of Machine/Replay.lean breaks what `State.Keeps` speaks of. -/

namespace Sys2Proof.Machine

theorem State.rplTag_keeps {s0 s : State} (p : Packet) (e : Entry) (hk : s0.Keeps s) :
    s0.Keeps (State.rplTag s p e) := by
  unfold State.rplTag
  repeat' first
    | (with_reducible assumption) | (with_reducible apply State.modEntry_keeps) | (intro) | split | (dsimp only)
    | (with_reducible refine State.Keeps.mk' ?_ rfl rfl rfl rfl rfl rfl rfl rfl rfl)

theorem State.rplFill_keeps {s0 s : State} (c : Nat) (r : JRec) (hk : s0.Keeps s) :
    s0.Keeps (State.rplFill s c r) := by
  unfold State.rplFill
  repeat' first
    | (with_reducible assumption) | (with_reducible apply State.fillAsk_keeps)
    | (with_reducible apply State.Keeps.ite) | (intro)

theorem State.rplPost_keeps {s0 s : State} (r : Replay) (hk : s0.Keeps s) :
    s0.Keeps (State.rplPost s r) := by
  unfold State.rplPost
  repeat' first
    | (with_reducible assumption) | (with_reducible apply State.goCleared_keeps)
    | (with_reducible apply State.Keeps.ite) | (intro)
    | (with_reducible refine State.Keeps.mk' ?_ rfl rfl rfl rfl rfl rfl rfl rfl rfl)

theorem State.rplReport_keeps {s0 s : State} (hk : s0.Keeps s) :
    s0.Keeps (State.rplReport s) := by
  unfold State.rplReport
  repeat' first
    | (with_reducible assumption) | (with_reducible apply State.rplPost_keeps) | split | (dsimp only)

theorem State.rplDiffer_keeps {s0 s : State} (t : Thread) (i : Nat) (iseq : BitVec 32) (hk : s0.Keeps s) :
    s0.Keeps (State.rplDiffer s t i iseq) := by
  unfold State.rplDiffer
  repeat' first
    | (with_reducible assumption) | (with_reducible apply State.rplReport_keeps)
    | (with_reducible apply State.Keeps.ite) | (intro) | split | (dsimp only)
    | (with_reducible refine State.Keeps.mk' ?_ rfl rfl rfl rfl rfl rfl rfl rfl rfl)

theorem State.rplCompare_keeps {s0 s : State} (c : Nat) (count : Nat) (w : Word) (hk : s0.Keeps s) :
    s0.Keeps (State.rplCompare s c count w) := by
  unfold State.rplCompare
  repeat' first
    | (with_reducible assumption) | (with_reducible apply State.rplReport_keeps)
    | (with_reducible apply State.Keeps.ite) | (intro)
    | (with_reducible refine State.Keeps.mk' ?_ rfl rfl rfl rfl rfl rfl rfl rfl rfl)

theorem State.rplSkip_keeps {s0 s : State} (hk : s0.Keeps s) :
    s0.Keeps (State.rplSkip s) := by
  unfold State.rplSkip
  repeat' first
    | (with_reducible assumption) | (with_reducible refine State.Keeps.mk' ?_ rfl rfl rfl rfl rfl rfl rfl rfl rfl)

theorem State.rplLatch_keeps {s0 s z : State} (c count : Nat) (w : Word) (hk : s0.Keeps s)
    (e : State.rplLatch s c count w = some z) : s0.Keeps z := by
  unfold State.rplLatch at e
  dsimp only at e
  split at e
  · cases e
    exact State.Keeps.ite (fun _ => State.rplSkip_keeps (State.latchSignal_keeps _ _ _ hk)) fun _ =>
      State.rplCompare_keeps _ _ _ (State.latchSignal_keeps _ _ _ hk)
  · split at e
    · cases e
    · cases e
      exact State.rplCompare_keeps _ _ _ hk

theorem State.rplSignals_keeps {s0 s : State} (c : Nat) (items : List RItem) (n : Nat) (hk : s0.Keeps s) :
    s0.Keeps (State.rplSignals s c items n) := by
  induction n generalizing s with
  | zero => exact hk
  | succ n ih =>
    unfold State.rplSignals
    split
    · split
      · exact ih (State.rplLatch_keeps _ _ _ hk ‹_›)
      · exact hk
    · exact hk

theorem State.signalsAhead_keeps {s0 s : State} (hk : s0.Keeps s) :
    s0.Keeps (State.signalsAhead s) := by
  unfold State.signalsAhead
  repeat' first
    | (with_reducible assumption) | (with_reducible apply State.rplSignals_keeps) | split

theorem State.rplRun_keeps {s0 s : State} (c : Nat) (items : List RItem) (n : Nat) (hk : s0.Keeps s) :
    s0.Keeps (State.rplRun s c items n) := by
  induction n generalizing s with
  | zero => exact hk
  | succ n ih =>
    unfold State.rplRun
    refine State.Keeps.ite (fun _ => hk) fun _ => ?_
    split
    · exact hk
    · split
      · exact State.rplFill_keeps _ _ hk
      · refine ih (State.sinksGo_keeps (State.sinkAdd_keeps _ _ _ _
          (State.Keeps.mk' ?_ rfl rfl rfl rfl rfl rfl rfl rfl rfl)))
        split
        · exact State.rplTag_keeps _ _ hk
        · exact hk
    · split
      · exact ih (State.rplLatch_keeps _ _ _ hk ‹_›)
      · exact hk

theorem State.rplSteps_keeps {s0 s : State} (c : Nat) (hk : s0.Keeps s) :
    s0.Keeps (State.rplSteps s c) := by
  unfold State.rplSteps
  repeat' first
    | (with_reducible assumption) | (with_reducible apply State.rplDiffer_keeps)
    | (with_reducible apply State.Keeps.foldl) | (with_reducible apply State.Keeps.ite) | (intro) | split

theorem State.replayGo_keeps {s0 s : State} (hk : s0.Keeps s) :
    s0.Keeps (State.replayGo s) := by
  unfold State.replayGo
  repeat' first
    | (with_reducible assumption) | (with_reducible apply State.rplRun_keeps)
    | (with_reducible apply State.rplSteps_keeps) | (with_reducible apply State.rplPost_keeps)
    | (with_reducible apply State.Keeps.ite) | (intro) | split

theorem State.rplDigest_keeps {s0 s : State} (e : Entry) (status : Nat) (hk : s0.Keeps s) :
    s0.Keeps (State.rplDigest s e status) := by
  unfold State.rplDigest
  repeat' first
    | (with_reducible assumption) | (with_reducible apply State.rplDiffer_keeps)
    | (with_reducible apply State.Keeps.ite) | (intro) | split | (dsimp only)

theorem State.rplChecked_keeps {s0 s : State} (hk : s0.Keeps s) :
    s0.Keeps (State.rplChecked s) := by
  unfold State.rplChecked
  repeat' first
    | (with_reducible assumption) | (with_reducible apply State.goCleared_keeps)
    | (with_reducible apply State.Keeps.ite) | (intro) | split | (dsimp only)
    | (with_reducible refine State.Keeps.mk' ?_ rfl rfl rfl rfl rfl rfl rfl rfl rfl)

theorem State.replayArm_keeps {s0 s : State} (step : BitVec 32) (go : Bool) (hk : s0.Keeps s) :
    s0.Keeps (State.replayArm s step go) := by
  unfold State.replayArm
  repeat' first
    | (with_reducible assumption) | (with_reducible apply State.goRefused_keeps)
    | (with_reducible apply State.rplChecked_keeps) | (with_reducible apply State.jambAdd_keeps)
    | (with_reducible apply State.Keeps.ite) | (intro) | split | (dsimp only)
    | (with_reducible refine State.Keeps.mk' ?_ rfl rfl rfl rfl rfl rfl rfl rfl rfl)

theorem State.replayGot_keeps {s0 s : State} (base : Nat) (bs : List Host.Cell) (ok : Bool) (hk : s0.Keeps s) :
    s0.Keeps (State.replayGot s base bs ok) := by
  unfold State.replayGot
  repeat' first
    | (with_reducible assumption) | (with_reducible apply State.rplChecked_keeps)
    | (with_reducible apply State.Keeps.foldl) | (with_reducible apply State.Keeps.ite) | (intro)
    | (with_reducible refine State.Keeps.mk' ?_ rfl rfl rfl rfl rfl rfl rfl rfl rfl)

theorem State.rplOpnos_keeps {s0 s : State} (hk : s0.Keeps s) :
    s0.Keeps (State.rplOpnos s) := by
  unfold State.rplOpnos
  repeat' first
    | (with_reducible assumption) | (with_reducible apply State.Keeps.foldl)
    | (with_reducible apply State.Keeps.ite) | (intro) | split | (dsimp only)
    | (with_reducible refine State.Keeps.mk' ?_ rfl rfl rfl rfl rfl rfl rfl rfl rfl)

theorem State.replayBegin_keeps {s0 s : State} (c : Nat) (hk : s0.Keeps s) :
    s0.Keeps (State.replayBegin s c) := by
  unfold State.replayBegin
  repeat' first
    | (with_reducible assumption) | (with_reducible apply State.rplOpnos_keeps)
    | (with_reducible apply State.Keeps.ite) | (intro)
    | (with_reducible refine State.Keeps.mk' ?_ rfl rfl rfl rfl rfl rfl rfl rfl rfl)

end Sys2Proof.Machine
end

