-- ==== Sys2Proof/Laws/KeepsCompletion.lean ====
section
/-! SUPPORT. No operation of Machine/Completion.lean breaks what `State.Keeps` speaks of. -/

namespace Sys2Proof.Machine

theorem State.commitCount_keeps {s0 s : State} (i : PushInfo) (hk : s0.Keeps s) :
    s0.Keeps (State.commitCount s i) := by
  unfold State.commitCount
  repeat' first
    | (with_reducible assumption) | (with_reducible apply State.modCr_keeps)

theorem State.commit1_keeps {s0 s : State} (c : Commit) (d : DcEntry) (hk : s0.Keeps s) :
    s0.Keeps (State.commit1 s c d) := by
  unfold State.commit1
  repeat' first
    | (with_reducible assumption) | (with_reducible apply State.dcUpdate_keeps)
    | (with_reducible apply State.commitCount_keeps) | (with_reducible apply State.Keeps.ite) | (intro)

theorem State.commitRun_keeps {s0 s : State} (cs : List Commit) (hk : s0.Keeps s) :
    s0.Keeps (State.commitRun s cs).1 := by
  induction cs generalizing s with
  | nil => exact hk
  | cons c r ih =>
    unfold State.commitRun
    split
    · exact ih hk
    · dsimp only
      split
      · exact ih (State.commit1_keeps _ _ (State.dcRead_keeps _ _ hk))
      · exact State.fillAsk_keeps _ _ (State.dcRead_keeps _ _ hk)

theorem State.commits_keeps {s0 s : State} (uid : Nat) (hk : s0.Keeps s) : s0.Keeps (State.commits s uid).1 := by
  unfold State.commits
  split
  · exact hk
  · exact State.modEntry_keeps _ _ (State.commitRun_keeps _ hk)

theorem State.commitLost_keeps {s0 s : State} (ctx : Nat) (h : Nat) (hk : s0.Keeps s) :
    s0.Keeps (State.commitLost s ctx h) := by
  unfold State.commitLost
  repeat' first
    | (with_reducible assumption) | (with_reducible apply State.Keeps.ite) | (intro)
    | (with_reducible refine State.Keeps.mk' ?_ rfl rfl rfl rfl rfl rfl rfl rfl rfl)

theorem State.postStatus_keeps {s0 s : State} (e : Entry) (status : Nat) (hk : s0.Keeps s) :
    s0.Keeps (State.postStatus s e status) := by
  unfold State.postStatus
  repeat' first
    | (with_reducible assumption) | (with_reducible apply State.modTh_keeps)
    | (with_reducible apply State.excPush_keeps) | (with_reducible apply State.Keeps.ite) | (intro)

theorem State.completionSignal_keeps {s0 s : State} (e : Entry) (hk : s0.Keeps s) :
    s0.Keeps (State.completionSignal s e) := by
  unfold State.completionSignal
  repeat' first
    | (with_reducible assumption) | (with_reducible apply State.latchSignal_keeps) | split

theorem State.advEffect_keeps {s0 s : State} (e : Entry) (hk : s0.Keeps s) :
    s0.Keeps (State.advEffect s e) := by
  unfold State.advEffect
  repeat' first
    | (with_reducible assumption) | (with_reducible apply State.setGroup_keeps)
    | (with_reducible apply State.Keeps.ite) | (intro) | split

theorem State.completionCount_keeps {s0 s : State} (e : Entry) (status : Nat) (hk : s0.Keeps s) :
    s0.Keeps (State.completionCount s e status) := by
  unfold State.completionCount
  repeat' first
    | (with_reducible assumption) | (with_reducible apply State.modCr_keeps)
    | (with_reducible apply State.modEr_keeps) | (with_reducible apply State.Keeps.ite) | (intro) | split

theorem State.usesNoted_keeps {s0 s : State} (e : Entry) (hk : s0.Keeps s) :
    s0.Keeps (State.usesNoted s e) := by
  unfold State.usesNoted
  repeat' first
    | (with_reducible assumption) | (intro)
    | (with_reducible refine State.Keeps.mk' ?_ rfl rfl rfl rfl rfl rfl rfl rfl rfl)

theorem State.abortNote_keeps {s0 s : State} (e : Entry) (hk : s0.Keeps s) :
    s0.Keeps (State.abortNote s e) := by
  unfold State.abortNote
  repeat' first
    | (with_reducible assumption) | (with_reducible apply State.modCr_keeps)
    | (with_reducible apply State.goCleared_keeps) | (with_reducible apply State.Keeps.ite) | (intro)

theorem State.faultReleased_keeps {s0 s : State} (e : Entry) (hk : s0.Keeps s) :
    s0.Keeps (State.faultReleased s e) := by
  unfold State.faultReleased
  repeat' first
    | (with_reducible assumption) | (with_reducible apply State.queueRelease_keeps)
    | (with_reducible apply State.Keeps.foldl) | (with_reducible apply State.Keeps.ite) | (intro)

theorem State.completeNow_keeps {s0 s : State} (e : Entry) (hk : s0.Keeps s) :
    s0.Keeps (State.completeNow s e) := by
  unfold State.completeNow
  repeat' first
    | (with_reducible assumption) | (with_reducible apply State.completionSignal_keeps)
    | (with_reducible apply State.signalsAhead_keeps) | (with_reducible apply State.advEffect_keeps)
    | (with_reducible apply State.completionCount_keeps) | (with_reducible apply State.postStatus_keeps)
    | (with_reducible apply State.usesNoted_keeps) | (with_reducible apply State.postCount_keeps)
    | (with_reducible apply State.journalEntry_keeps) | (with_reducible apply State.rplDigest_keeps)
    | (with_reducible apply State.replayGo_keeps) | (with_reducible apply State.postsGo_keeps)
    | (with_reducible apply State.faultReleased_keeps) | (with_reducible apply State.abortNote_keeps) | (intro)
    | (with_reducible refine State.Keeps.mk' ?_ rfl rfl rfl rfl rfl rfl rfl rfl rfl)

theorem State.normComplete_keeps {s0 s : State} (e : Entry) (hk : s0.Keeps s) :
    s0.Keeps (State.normComplete s e) := by
  unfold State.normComplete
  repeat' first
    | (with_reducible assumption) | (with_reducible apply State.normSet_keeps)
    | (with_reducible apply State.Keeps.ite) | (intro) | split | (dsimp only)
    | (with_reducible refine State.Keeps.mk' ?_ rfl rfl rfl rfl rfl rfl rfl rfl rfl)

theorem State.completePrepare_keeps {s0 s : State} (e : Entry) (hk : s0.Keeps s) :
    s0.Keeps (State.completePrepare s e) := by
  unfold State.completePrepare
  repeat' first
    | (with_reducible assumption) | (with_reducible apply State.entryDone_keeps)
    | (with_reducible apply State.redFail_keeps) | (with_reducible apply State.entrySettle_keeps)
    | (with_reducible apply State.Keeps.ite) | (intro)
    | (with_reducible refine State.Keeps.mk' ?_ rfl rfl rfl rfl rfl rfl rfl rfl rfl)

theorem execCompletion_keeps {s0 s : State} (q : Fin 11) (t : Thread) (hk : s0.Keeps s) :
    ∃ z, execCompletion q t s = .next z ∧ s0.Keeps z := by
  unfold execCompletion
  refine ⟨_, rfl, ?_⟩
  repeat' first
    | (with_reducible assumption) | (with_reducible apply State.completePrepare_keeps)
    | (with_reducible apply State.commits_keeps) | (with_reducible apply State.normComplete_keeps)
    | (with_reducible apply State.completeNow_keeps) | (with_reducible apply State.Keeps.ite) | (intro) | split
    | (dsimp only)

end Sys2Proof.Machine
end

