-- ==== Sys2Proof/Laws/KeepsAbort.lean ====
section
/-! SUPPORT. No operation of Machine/Abort.lean breaks what `State.Keeps` speaks of. -/

namespace Sys2Proof.Machine

theorem State.dropReqs_keeps {s0 s : State} (e : Entry) (hk : s0.Keeps s) :
    s0.Keeps (State.dropReqs s e) := by
  unfold State.dropReqs
  repeat' first
    | (with_reducible assumption) | (with_reducible apply State.modEntry_keeps) | (intro)
    | (with_reducible refine State.Keeps.mk' ?_ rfl rfl rfl rfl rfl rfl rfl rfl rfl)

theorem State.cutTransfer_keeps {s0 s : State} (e : Entry) (hk : s0.Keeps s) :
    s0.Keeps (State.cutTransfer s e) := by
  unfold State.cutTransfer
  repeat' first
    | (with_reducible assumption) | (with_reducible apply State.unsend_keeps)
    | (with_reducible apply State.dropReqs_keeps) | (with_reducible apply State.modEntry_keeps)
    | (with_reducible apply State.entrySettle_keeps) | (with_reducible apply State.engineOpen_keeps) | (intro)
    | (with_reducible refine State.Keeps.mk' ?_ rfl rfl rfl rfl rfl rfl rfl rfl rfl)

theorem State.cutEntry_keeps {s0 s : State} (e : Entry) (hk : s0.Keeps s) :
    s0.Keeps (State.cutEntry s e) := by
  unfold State.cutEntry
  repeat' first
    | (with_reducible assumption) | (with_reducible apply State.runEnd_keeps)
    | (with_reducible apply State.freeFootprint_keeps) | (with_reducible apply State.entryEnd_keeps)
    | (with_reducible apply State.transomEnd_keeps) | (with_reducible apply State.transomCut_keeps)
    | (with_reducible apply State.dropEntry_keeps) | (with_reducible apply State.cutTransfer_keeps)
    | (with_reducible apply State.Keeps.ite) | (intro) | split | (dsimp only)
    | (with_reducible refine State.Keeps.mk' ?_ rfl rfl rfl rfl rfl rfl rfl rfl rfl)

theorem State.abortOne_keeps {s0 s : State} (e : Entry) (hk : s0.Keeps s) :
    s0.Keeps (State.abortOne s e) := by
  unfold State.abortOne
  repeat' first
    | (with_reducible assumption) | (with_reducible apply State.modEntry_keeps)
    | (with_reducible apply State.dropEntry_keeps) | (with_reducible apply State.cutTransfer_keeps)
    | (with_reducible apply State.Keeps.ite) | (intro) | split

theorem State.abortGo_keeps {s0 s : State} (hk : s0.Keeps s) :
    s0.Keeps (State.abortGo s) := by
  unfold State.abortGo
  repeat' first
    | (with_reducible assumption) | (with_reducible apply State.goRefused_keeps)
    | (with_reducible apply State.modCr_keeps) | (with_reducible apply State.abortOne_keeps)
    | (with_reducible apply State.Keeps.foldl) | (with_reducible apply State.Keeps.ite) | (intro)

theorem execCutPoint_keeps {s0 s : State} (q : Fin 11) (t : Thread) (hk : s0.Keeps s) :
    ∃ z, execCutPoint q t s = .next z ∧ s0.Keeps z := by
  unfold execCutPoint
  refine ⟨_, rfl, ?_⟩
  repeat' first
    | (with_reducible assumption) | (with_reducible apply State.cutEntry_keeps) | (intro) | split

end Sys2Proof.Machine
end

