-- ==== Sys2Proof/Laws/KeepsStartup.lean ====
section
/-! SUPPORT. No operation of Machine/Startup.lean breaks what `State.Keeps` speaks of. -/

namespace Sys2Proof.Machine

theorem wdPeriodOf_ok (frame store : Nat) : wdOk (wdPeriodOf frame store).1.toNat = true := by
  have hw : ∀ v, wdOk v = true → wdOk (w32 v).toNat = true := fun v h => by
    simp only [wdOk, Bool.and_eq_true, decide_eq_true_eq, BitVec.toNat_ofNat] at *
    omega
  unfold wdPeriodOf
  split
  · exact hw _ ‹_›
  · split
    · exact hw _ ‹_›
    · decide

theorem State.wdSet_keeps {s0 s : State} (frame : Nat) (store : Nat) (hk : s0.Keeps s) :
    s0.Keeps (State.wdSet s frame store) := by
  unfold State.wdSet
  exact ⟨hk.queue, fun k => ⟨(hk.storage k).1, (hk.storage k).2, (hk.storage k).3⟩, hk.exc,
    fun _ => wdPeriodOf_ok frame store, hk.tags, hk.live⟩

theorem State.aonReset_keeps {s0 s : State} (hk : s0.Keeps s) :
    s0.Keeps (State.aonReset s) := by
  unfold State.aonReset
  exact ⟨hk.queue, fun _ => ⟨Memory.wf_nil, Memory.wf_nil, Memory.wf_nil⟩, fun _ => (by decide : ([] : List
    ExcRec).length ≤ 16),
    fun _ => (by decide : wdOk (0x000186A0 : BitVec 32).toNat = true), fun _ => List.nodup_nil, fun _ =>
      fun h => absurd (show PlaneState.empty = .live from h) (by decide)⟩

theorem State.coreReset_keeps {s0 s : State} (hk : s0.Keeps s) :
    s0.Keeps (State.coreReset s) := by
  unfold State.coreReset
  exact ⟨hk.queue, fun _ => ⟨Memory.wf_nil, Memory.wf_nil, Memory.wf_nil⟩, fun _ => (by decide : ([] : List
    ExcRec).length ≤ 16),
    fun k => hk.period k, fun _ => List.nodup_nil, fun _ => fun h => absurd (show PlaneState.empty = .live from h)
    (by decide)⟩

theorem State.toStage_keeps {s0 s : State} (n : Nat) (hk : s0.Keeps s) :
    s0.Keeps (State.toStage s n) := by
  unfold State.toStage
  repeat' first
    | (with_reducible assumption) | (with_reducible refine State.Keeps.mk' ?_ rfl rfl rfl rfl rfl rfl rfl rfl rfl)

theorem State.endAon_keeps {s0 s : State} (hk : s0.Keeps s) :
    s0.Keeps (State.endAon s) := by
  unfold State.endAon
  repeat' first
    | (with_reducible assumption) | (with_reducible apply State.wdSet_keeps)
    | (with_reducible apply State.toStage_keeps) | (with_reducible apply State.Keeps.ite) | (intro)

theorem State.endOpen_keeps {s0 s : State} (hk : s0.Keeps s) :
    s0.Keeps (State.endOpen s) := by
  unfold State.endOpen
  repeat' first
    | (with_reducible assumption) | (with_reducible apply State.batchAdd_keeps)
    | (with_reducible apply State.toStage_keeps) | (with_reducible apply State.Keeps.ite) | (intro)

theorem State.endPll_keeps {s0 s : State} (hk : s0.Keeps s) :
    s0.Keeps (State.endPll s) := by
  unfold State.endPll
  repeat' first
    | (with_reducible assumption) | (with_reducible apply State.followSource_keeps)
    | (with_reducible apply State.toStage_keeps) | (with_reducible apply State.Keeps.ite) | (intro)
    | (with_reducible refine State.Keeps.mk' ?_ rfl rfl rfl rfl rfl rfl rfl rfl rfl)

theorem State.endRail_keeps {s0 s : State} (hk : s0.Keeps s) :
    s0.Keeps (State.endRail s) := by
  unfold State.endRail
  repeat' first
    | (with_reducible assumption) | (with_reducible apply State.toStage_keeps)
    | (with_reducible apply State.batchAdd_keeps) | (with_reducible apply State.Keeps.ite) | (intro)
    | (with_reducible refine State.Keeps.mk' ?_ rfl rfl rfl rfl rfl rfl rfl rfl rfl)

theorem State.endDomains_keeps {s0 s : State} (hk : s0.Keeps s) :
    s0.Keeps (State.endDomains s) := by
  unfold State.endDomains
  repeat' first
    | (with_reducible assumption) | (with_reducible apply State.toStage_keeps)
    | (with_reducible apply State.Keeps.ite) | (intro)
    | (with_reducible refine State.Keeps.mk' ?_ rfl rfl rfl rfl rfl rfl rfl rfl rfl)

theorem State.stageGo_keeps {s0 s : State} (hk : s0.Keeps s) :
    s0.Keeps (State.stageGo s) := by
  unfold State.stageGo
  repeat' first
    | (with_reducible assumption) | (with_reducible apply State.endDomains_keeps)
    | (with_reducible apply State.endRail_keeps) | (with_reducible apply State.endPll_keeps)
    | (with_reducible apply State.endOpen_keeps) | (with_reducible apply State.endAon_keeps)

theorem State.stageOne_keeps {s0 s : State} (hk : s0.Keeps s) :
    s0.Keeps (State.stageOne s) := by
  unfold State.stageOne
  repeat' first
    | (with_reducible assumption) | (with_reducible refine State.Keeps.mk' ?_ rfl rfl rfl rfl rfl rfl rfl rfl rfl)

theorem execAonRstNAssert_keeps {s0 s : State} (hk : s0.Keeps s) :
    ∃ z, execAonRstNAssert s = .next z ∧ s0.Keeps z := by
  unfold execAonRstNAssert
  refine ⟨_, rfl, ?_⟩
  repeat' first
    | (with_reducible assumption) | (with_reducible apply State.aonReset_keeps)

theorem execAonRstNRelease_keeps {s0 s : State} (hk : s0.Keeps s) :
    ∃ z, execAonRstNRelease s = .next z ∧ s0.Keeps z := by
  unfold execAonRstNRelease
  refine ⟨_, rfl, ?_⟩
  repeat' first
    | (with_reducible assumption) | (with_reducible apply State.stageOne_keeps)
    | (with_reducible apply State.Keeps.ite) | (intro)
    | (with_reducible refine State.Keeps.mk' ?_ rfl rfl rfl rfl rfl rfl rfl rfl rfl)

theorem execCoreRstNAssert_keeps {s0 s : State} (hk : s0.Keeps s) :
    ∃ z, execCoreRstNAssert s = .next z ∧ s0.Keeps z := by
  unfold execCoreRstNAssert
  refine ⟨_, rfl, ?_⟩
  repeat' first
    | (with_reducible assumption) | (with_reducible apply State.irqSet_keeps)
    | (with_reducible apply State.coreReset_keeps) | (with_reducible apply State.wdSet_keeps)
    | (with_reducible apply State.Keeps.ite) | (intro)
    | (with_reducible refine State.Keeps.mk' ?_ rfl rfl rfl rfl rfl rfl rfl rfl rfl)

theorem execCoreRstNRelease_keeps {s0 s : State} (hk : s0.Keeps s) :
    ∃ z, execCoreRstNRelease s = .next z ∧ s0.Keeps z := by
  unfold execCoreRstNRelease
  refine ⟨_, rfl, ?_⟩
  repeat' first
    | (with_reducible assumption) | (with_reducible apply State.stageGo_keeps)
    | (with_reducible apply State.Keeps.ite) | (intro)
    | (with_reducible refine State.Keeps.mk' ?_ rfl rfl rfl rfl rfl rfl rfl rfl rfl)

theorem execStartupInitDone_keeps {s0 s : State} (hk : s0.Keeps s) :
    ∃ z, execStartupInitDone s = .next z ∧ s0.Keeps z := by
  unfold execStartupInitDone
  refine ⟨_, rfl, ?_⟩
  repeat' first
    | (with_reducible assumption) | (with_reducible apply State.setRunPoint_keeps)
    | (with_reducible apply State.toStage_keeps) | (with_reducible apply State.Keeps.ite) | (intro)

theorem execAonClkLost_keeps {s0 s : State} (hk : s0.Keeps s) :
    ∃ z, execAonClkLost s = .next z ∧ s0.Keeps z := by
  unfold execAonClkLost
  refine ⟨_, rfl, ?_⟩
  repeat' first
    | (with_reducible assumption) | (with_reducible apply State.powerIrq_keeps)
    | (with_reducible apply State.Keeps.ite) | (intro)
    | (with_reducible refine State.Keeps.mk' ?_ rfl rfl rfl rfl rfl rfl rfl rfl rfl)

theorem execAonClkRestored_keeps {s0 s : State} (hk : s0.Keeps s) :
    ∃ z, execAonClkRestored s = .next z ∧ s0.Keeps z := by
  unfold execAonClkRestored
  refine ⟨_, rfl, ?_⟩
  repeat' first
    | (with_reducible assumption) | (with_reducible apply State.Keeps.ite) | (intro)
    | (with_reducible refine State.Keeps.mk' ?_ rfl rfl rfl rfl rfl rfl rfl rfl rfl)

theorem State.sourceCount_keeps {s0 s : State} (x : Source) (ok : Bool) (hk : s0.Keeps s) :
    s0.Keeps (State.sourceCount s x ok) := by
  unfold State.sourceCount
  repeat' first
    | (with_reducible assumption) | (with_reducible apply State.Keeps.ite) | (intro)
    | (with_reducible refine State.Keeps.mk' ?_ rfl rfl rfl rfl rfl rfl rfl rfl rfl)

theorem execFrequencyCheck_keeps {s0 s : State} (ref : Nat) (r0 : Nat) (r1 : Nat) (refRdy : Bool) (hk : s0.Keeps s) :
    ∃ z, execFrequencyCheck ref r0 r1 refRdy s = .next z ∧ s0.Keeps z := by
  unfold execFrequencyCheck
  refine ⟨_, rfl, ?_⟩
  repeat' first
    | (with_reducible assumption) | (with_reducible apply State.sourceCheck_keeps)
    | (with_reducible apply State.sourceCount_keeps) | (with_reducible apply State.Keeps.ite) | (intro)
    | (with_reducible refine State.Keeps.mk' ?_ rfl rfl rfl rfl rfl rfl rfl rfl rfl)

theorem execRefRdyFall_keeps {s0 s : State} (hk : s0.Keeps s) :
    ∃ z, execRefRdyFall s = .next z ∧ s0.Keeps z := by
  unfold execRefRdyFall
  refine ⟨_, rfl, ?_⟩
  repeat' first
    | (with_reducible assumption) | (with_reducible apply State.sourceCheck_keeps)
    | (with_reducible apply State.sourceCount_keeps) | (with_reducible apply State.Keeps.ite) | (intro)
    | (with_reducible refine State.Keeps.mk' ?_ rfl rfl rfl rfl rfl rfl rfl rfl rfl)

theorem execSourceReturn_keeps {s0 s : State} (hk : s0.Keeps s) :
    ∃ z, execSourceReturn s = .next z ∧ s0.Keeps z := by
  unfold execSourceReturn
  refine ⟨_, rfl, ?_⟩
  repeat' first
    | (with_reducible assumption) | (with_reducible apply State.slewStart_keeps)
    | (with_reducible apply State.Keeps.ite) | (intro)
    | (with_reducible refine State.Keeps.mk' ?_ rfl rfl rfl rfl rfl rfl rfl rfl rfl)

theorem execSourceSwitchDone_keeps {s0 s : State} (hk : s0.Keeps s) :
    ∃ z, execSourceSwitchDone s = .next z ∧ s0.Keeps z := by
  unfold execSourceSwitchDone
  refine ⟨_, rfl, ?_⟩
  repeat' first
    | (with_reducible assumption) | (with_reducible apply State.sourceCheck_keeps) | split | (dsimp only)
    | (with_reducible refine State.Keeps.mk' ?_ rfl rfl rfl rfl rfl rfl rfl rfl rfl)

theorem execTroReady_keeps {s0 s : State} (hk : s0.Keeps s) :
    ∃ z, execTroReady s = .next z ∧ s0.Keeps z := by
  unfold execTroReady
  refine ⟨_, rfl, ?_⟩
  repeat' first
    | (with_reducible assumption) | (with_reducible apply State.stageGo_keeps)
    | (with_reducible apply State.Keeps.ite) | (intro)
    | (with_reducible refine State.Keeps.mk' ?_ rfl rfl rfl rfl rfl rfl rfl rfl rfl)

theorem State.clkCtl_keeps {s0 s : State} (src : Source) (go : Bool) (hk : s0.Keeps s) :
    s0.Keeps (State.clkCtl s src go) := by
  unfold State.clkCtl
  repeat' first
    | (with_reducible assumption) | (with_reducible apply State.wakeAsk_keeps)
    | (with_reducible apply State.selectSource_keeps) | (with_reducible apply State.Keeps.ite) | (intro)
    | (with_reducible refine State.Keeps.mk' ?_ rfl rfl rfl rfl rfl rfl rfl rfl rfl)

theorem State.wakeDone_keeps {s0 s : State} (hk : s0.Keeps s) :
    s0.Keeps (State.wakeDone s) := by
  unfold State.wakeDone
  repeat' first
    | (with_reducible assumption) | (with_reducible apply State.sinksGo_keeps)
    | (with_reducible apply State.seqGo_keeps)
    | (with_reducible refine State.Keeps.mk' ?_ rfl rfl rfl rfl rfl rfl rfl rfl rfl)

theorem execPllLock_keeps {s0 s : State} (loopA : Bool) (hk : s0.Keeps s) :
    ∃ z, execPllLock loopA s = .next z ∧ s0.Keeps z := by
  unfold execPllLock
  refine ⟨_, rfl, ?_⟩
  repeat' first
    | (with_reducible assumption) | (with_reducible apply State.stageGo_keeps)
    | (with_reducible apply State.wakeDone_keeps) | (with_reducible apply State.Keeps.ite) | (intro)
    | (with_reducible refine State.Keeps.mk' ?_ rfl rfl rfl rfl rfl rfl rfl rfl rfl)

theorem execVack_keeps {s0 s : State} (code : BitVec 3) (hk : s0.Keeps s) :
    ∃ z, execVack code s = .next z ∧ s0.Keeps z := by
  unfold execVack
  refine ⟨_, rfl, ?_⟩
  repeat' first
    | (with_reducible assumption) | (with_reducible apply State.stageGo_keeps)
    | (with_reducible apply State.wakeGo_keeps) | (with_reducible apply State.seqGo_keeps)
    | (with_reducible apply State.Keeps.ite) | (intro) | split | (dsimp only)
    | (with_reducible refine State.Keeps.mk' ?_ rfl rfl rfl rfl rfl rfl rfl rfl rfl)

theorem execVackTimeout_keeps {s0 s : State} (hk : s0.Keeps s) :
    ∃ z, execVackTimeout s = .next z ∧ s0.Keeps z := by
  unfold execVackTimeout
  refine ⟨_, rfl, ?_⟩
  repeat' first
    | (with_reducible assumption) | (with_reducible apply State.powerIrq_keeps)
    | (with_reducible apply State.seqGo_keeps) | (with_reducible apply State.Keeps.ite) | (intro)
    | (with_reducible refine State.Keeps.mk' ?_ rfl rfl rfl rfl rfl rfl rfl rfl rfl)

theorem execAclkSlewDone_keeps {s0 s : State} (hk : s0.Keeps s) :
    ∃ z, execAclkSlewDone s = .next z ∧ s0.Keeps z := by
  unfold execAclkSlewDone
  refine ⟨_, rfl, ?_⟩
  repeat' first
    | (with_reducible assumption) | (with_reducible apply State.seqGo_keeps)
    | (with_reducible apply State.voltDown_keeps) | (with_reducible apply State.Keeps.ite) | (intro)
    | (with_reducible refine State.Keeps.mk' ?_ rfl rfl rfl rfl rfl rfl rfl rfl rfl)

theorem State.pwrCtl_keeps {s0 s : State} (pt : BitVec 3) (go : Bool) (hk : s0.Keeps s) :
    s0.Keeps (State.pwrCtl s pt go) := by
  unfold State.pwrCtl
  repeat' first
    | (with_reducible assumption) | (with_reducible apply State.wakeAsk_keeps)
    | (with_reducible apply State.setRunPoint_keeps) | (with_reducible apply State.Keeps.ite) | (intro)
    | (with_reducible refine State.Keeps.mk' ?_ rfl rfl rfl rfl rfl rfl rfl rfl rfl)

theorem State.boostCheck_keeps {s0 s : State} (hk : s0.Keeps s) :
    s0.Keeps (State.boostCheck s) := by
  unfold State.boostCheck
  repeat' first
    | (with_reducible assumption) | (with_reducible apply State.setRunPoint_keeps)
    | (with_reducible apply State.Keeps.ite) | (intro)

theorem execPark_keeps {s0 s : State} (hk : s0.Keeps s) :
    ∃ z, execPark s = .next z ∧ s0.Keeps z := by
  unfold execPark
  refine ⟨_, rfl, ?_⟩
  repeat' first
    | (with_reducible assumption) | (with_reducible apply State.Keeps.ite) | (intro)
    | (with_reducible refine State.Keeps.mk' ?_ rfl rfl rfl rfl rfl rfl rfl rfl rfl)

theorem execWake_keeps {s0 s : State} (hk : s0.Keeps s) :
    ∃ z, execWake s = .next z ∧ s0.Keeps z := by
  unfold execWake
  refine ⟨_, rfl, ?_⟩
  repeat' first
    | (with_reducible assumption) | (with_reducible apply State.wakeGo_keeps)

theorem execPswGnt_keeps {s0 s : State} (level : Bool) (hk : s0.Keeps s) :
    ∃ z, execPswGnt level s = .next z ∧ s0.Keeps z := by
  unfold execPswGnt
  refine ⟨_, rfl, ?_⟩
  repeat' first
    | (with_reducible assumption) | (with_reducible apply State.batchGo_keeps)
    | (with_reducible apply State.Keeps.ite) | (intro)
    | (with_reducible refine State.Keeps.mk' ?_ rfl rfl rfl rfl rfl rfl rfl rfl rfl)

theorem State.linkBack_keeps {s0 s : State} (l : Nat) (hk : s0.Keeps s) :
    s0.Keeps (State.linkBack s l) := by
  unfold State.linkBack
  repeat' first
    | (with_reducible assumption) | (with_reducible apply State.linkWait_keeps)
    | (with_reducible apply State.linkTo_keeps) | (with_reducible apply State.Keeps.ite) | (intro)

theorem State.sillLost_keeps {s0 s : State} (hk : s0.Keeps s) :
    s0.Keeps (State.sillLost s) := by
  unfold State.sillLost
  exact hk.store rfl id id (fun _ => Memory.wf_nil) rfl rfl rfl rfl rfl

theorem State.transomLost_keeps {s0 s : State} (hk : s0.Keeps s) :
    s0.Keeps (State.transomLost s) := by
  unfold State.transomLost
  repeat' first
    | (with_reducible assumption) | (with_reducible refine State.Keeps.mk' ?_ rfl rfl rfl rfl rfl rfl rfl rfl rfl)

theorem State.cellsLost_keeps {s0 s : State} (l : Nat) (hk : s0.Keeps s) :
    s0.Keeps (State.cellsLost s l) := by
  unfold State.cellsLost
  repeat' first
    | (with_reducible assumption) | (with_reducible apply State.modCells_keeps)

theorem State.domainBack_keeps {s0 s : State} (d : Nat) (hk : s0.Keeps s) :
    s0.Keeps (State.domainBack s d) := by
  unfold State.domainBack
  repeat' first
    | (with_reducible assumption) | (with_reducible apply State.cellsLost_keeps)
    | (with_reducible apply State.sillLost_keeps) | (with_reducible apply State.transomLost_keeps)
    | (with_reducible apply State.linkBack_keeps) | (with_reducible apply State.Keeps.ite) | (intro)

theorem execDomainSettled_keeps {s0 s : State} (d : Fin 80) (hk : s0.Keeps s) :
    ∃ z, execDomainSettled d s = .next z ∧ s0.Keeps z := by
  unfold execDomainSettled
  refine ⟨_, rfl, ?_⟩
  repeat' first
    | (with_reducible assumption) | (with_reducible apply State.batchGo_keeps)
    | (with_reducible apply State.stageGo_keeps) | (with_reducible apply State.domainBack_keeps)
    | (with_reducible apply State.Keeps.ite) | (intro)
    | (with_reducible refine State.Keeps.mk' ?_ rfl rfl rfl rfl rfl rfl rfl rfl rfl)

theorem State.domainFail_keeps {s0 s : State} (hk : s0.Keeps s) :
    s0.Keeps (State.domainFail s) := by
  unfold State.domainFail
  repeat' first
    | (with_reducible assumption) | (with_reducible apply State.integrity_keeps)
    | (with_reducible refine State.Keeps.mk' ?_ rfl rfl rfl rfl rfl rfl rfl rfl rfl)

theorem execDomainSettleTimeout_keeps {s0 s : State} (d : Fin 80) (hk : s0.Keeps s) :
    ∃ z, execDomainSettleTimeout d s = .next z ∧ s0.Keeps z := by
  unfold execDomainSettleTimeout
  refine ⟨_, rfl, ?_⟩
  repeat' first
    | (with_reducible assumption) | (with_reducible apply State.powerIrq_keeps)
    | (with_reducible apply State.stageGo_keeps) | (with_reducible apply State.batchGo_keeps)
    | (with_reducible apply State.domainFail_keeps) | (with_reducible apply State.Keeps.ite) | (intro)
    | (with_reducible refine State.Keeps.mk' ?_ rfl rfl rfl rfl rfl rfl rfl rfl rfl)

theorem State.shutOff_keeps {s0 s : State} (ds : List Nat) (hk : s0.Keeps s) :
    s0.Keeps (State.shutOff s ds) := by
  unfold State.shutOff
  repeat' first
    | (with_reducible assumption) | (with_reducible apply State.domainsOff_keeps) | (intro)
    | (with_reducible refine State.Keeps.mk' ?_ rfl rfl rfl rfl rfl rfl rfl rfl rfl)

theorem State.shutOn_keeps {s0 s : State} (ds : List Nat) (hk : s0.Keeps s) :
    s0.Keeps (State.shutOn s ds) := by
  unfold State.shutOn
  repeat' first
    | (with_reducible assumption) | (with_reducible apply State.batchAdd_keeps)
    | (with_reducible apply State.Keeps.ite) | (intro)

theorem State.shutterSet_keeps {s0 s : State} (sill : Bool) (transom : Bool) (near : Bool) (far : Bool) (hk :
    s0.Keeps s) :
    s0.Keeps (State.shutterSet s sill transom near far) := by
  unfold State.shutterSet
  repeat' first
    | (with_reducible assumption) | (with_reducible apply State.sillLost_keeps)
    | (with_reducible apply State.shutOff_keeps) | (with_reducible apply State.shutOn_keeps)
    | (with_reducible apply State.transomLost_keeps) | (with_reducible apply State.linkOff_keeps)
    | (with_reducible apply State.linkClear_keeps) | (with_reducible apply State.Keeps.foldl)
    | (with_reducible apply State.Keeps.ite) | (intro)
    | (with_reducible refine State.Keeps.mk' ?_ rfl rfl rfl rfl rfl rfl rfl rfl rfl)

theorem State.spareRanksOff_keeps {s0 s : State} (p : Nat) (hk : s0.Keeps s) :
    s0.Keeps (State.spareRanksOff s p) := by
  unfold State.spareRanksOff
  repeat' first
    | (with_reducible assumption) | (with_reducible apply State.clockRanks_keeps)
    | (with_reducible apply State.Keeps.ite) | (intro)

theorem execIdleGate_keeps {s0 s : State} (unit : GateUnit) (hk : s0.Keeps s) :
    ∃ z, execIdleGate unit s = .next z ∧ s0.Keeps z := by
  unfold execIdleGate
  refine ⟨_, rfl, ?_⟩
  repeat' first
    | (with_reducible assumption) | (with_reducible apply State.spareRanksOff_keeps)
    | (with_reducible apply State.clockRanks_keeps) | (with_reducible apply State.modEngine_keeps)
    | (with_reducible apply State.Keeps.ite) | (intro) | split | (dsimp only)
    | (with_reducible refine State.Keeps.mk' ?_ rfl rfl rfl rfl rfl rfl rfl rfl rfl)

theorem execLatticeBandOff_keeps {s0 s : State} (p : Fin 8) (hk : s0.Keeps s) :
    ∃ z, execLatticeBandOff p s = .next z ∧ s0.Keeps z := by
  unfold execLatticeBandOff
  refine ⟨_, rfl, ?_⟩
  repeat' first
    | (with_reducible assumption) | (with_reducible apply State.domainsOff_keeps)
    | (with_reducible apply State.Keeps.ite) | (intro)

theorem execScrub_keeps {s0 s : State} (unit : ScrubUnit) (u : Upset) (hk : s0.Keeps s) :
    ∃ z, execScrub unit u s = .next z ∧ s0.Keeps z := by
  unfold execScrub
  refine ⟨_, rfl, ?_⟩
  repeat' first
    | (with_reducible assumption) | (with_reducible apply State.sillCorrected_keeps)
    | (with_reducible apply State.corrected_keeps) | (with_reducible apply State.integrity_keeps)
    | (with_reducible apply State.Keeps.ite) | (intro) | split | (dsimp only)
    | (with_reducible refine State.Keeps.mk' ?_ rfl rfl rfl rfl rfl rfl rfl rfl rfl)

end Sys2Proof.Machine
end

