-- ==== Sys2Proof/Laws/KeepsLintel.lean ====
section
/-! SUPPORT. No operation of Machine/Lintel.lean breaks what `State.Keeps` speaks of. -/

namespace Sys2Proof.Machine

theorem State.hgFlush_keeps {s0 s : State} (hk : s0.Keeps s) :
    s0.Keeps (State.hgFlush s) := by
  unfold State.hgFlush
  repeat' first
    | (with_reducible assumption) | (intro) | split | (dsimp only)
    | (with_reducible refine State.Keeps.mk' ?_ rfl rfl rfl rfl rfl rfl rfl rfl rfl)

theorem State.hgDenied_keeps {s0 s : State} (hk : s0.Keeps s) :
    s0.Keeps (State.hgDenied s) := by
  unfold State.hgDenied
  repeat' first
    | (with_reducible assumption) | (with_reducible refine State.Keeps.mk' ?_ rfl rfl rfl rfl rfl rfl rfl rfl rfl)

theorem State.hgDecide_keeps {s0 s : State} (code : BitVec 2) (hk : s0.Keeps s) :
    s0.Keeps (State.hgDecide s code) := by
  unfold State.hgDecide
  repeat' first
    | (with_reducible assumption) | (with_reducible apply State.hgFlush_keeps)
    | (with_reducible apply State.hgDenied_keeps) | (with_reducible apply State.Keeps.ite) | (intro)
    | (with_reducible refine State.Keeps.mk' ?_ rfl rfl rfl rfl rfl rfl rfl rfl rfl)

theorem State.ltLog_keeps {s0 s : State} (index : Nat) (cause : Nat) (event : Nat) (hk : s0.Keeps s) :
    s0.Keeps (State.ltLog s index cause event) := by
  unfold State.ltLog
  repeat' first
    | (with_reducible assumption) | (with_reducible refine State.Keeps.mk' ?_ rfl rfl rfl rfl rfl rfl rfl rfl rfl)

theorem State.ltIrq_keeps {s0 s : State} (hk : s0.Keeps s) :
    s0.Keeps (State.ltIrq s) := by
  unfold State.ltIrq
  repeat' first
    | (with_reducible assumption) | (with_reducible apply State.irqSet_keeps)

theorem State.setRecord_keeps {s0 s : State} (i : Nat) (r : LtRec) (hk : s0.Keeps s) :
    s0.Keeps (State.setRecord s i r) := by
  unfold State.setRecord
  repeat' first
    | (with_reducible assumption) | (with_reducible refine State.Keeps.mk' ?_ rfl rfl rfl rfl rfl rfl rfl rfl rfl)

theorem State.ltBadSeen_keeps {s0 s : State} (i : Nat) (hk : s0.Keeps s) :
    s0.Keeps (State.ltBadSeen s i) := by
  unfold State.ltBadSeen
  repeat' first
    | (with_reducible assumption) | (with_reducible apply State.ltIrq_keeps)
    | (with_reducible apply State.ltLog_keeps)
    | (with_reducible refine State.Keeps.mk' ?_ rfl rfl rfl rfl rfl rfl rfl rfl rfl)

theorem State.ltTake_keeps {s0 s : State} (i : Nat) (r : Option LtRec) (hk : s0.Keeps s) :
    s0.Keeps (State.ltTake s i r) := by
  unfold State.ltTake
  repeat' first
    | (with_reducible assumption) | (with_reducible apply State.setRecord_keeps)
    | (with_reducible apply State.ltBadSeen_keeps) | split | (dsimp only)
    | (with_reducible refine State.Keeps.mk' ?_ rfl rfl rfl rfl rfl rfl rfl rfl rfl)

theorem State.ltDeny_keeps {s0 s : State} (index : Nat) (cause : Nat) (event : Nat) (hk : s0.Keeps s) :
    s0.Keeps (State.ltDeny s index cause event) := by
  unfold State.ltDeny
  repeat' first
    | (with_reducible assumption) | (with_reducible apply State.ltIrq_keeps)
    | (with_reducible apply State.ltLog_keeps)
    | (with_reducible refine State.Keeps.mk' ?_ rfl rfl rfl rfl rfl rfl rfl rfl rfl)

theorem State.applied_keeps {s0 s : State} (a : Applied) (hk : s0.Keeps s) :
    s0.Keeps (State.applied s a) := by
  unfold State.applied
  repeat' first
    | (with_reducible assumption) | (with_reducible refine State.Keeps.mk' ?_ rfl rfl rfl rfl rfl rfl rfl rfl rfl)

theorem State.applyRecords_keeps {s0 s : State} (hk : s0.Keeps s) :
    s0.Keeps (State.applyRecords s) := by
  unfold State.applyRecords
  repeat' first
    | (with_reducible assumption) | (with_reducible apply State.ltBadSeen_keeps)
    | (with_reducible apply State.applied_keeps) | (with_reducible apply State.Keeps.ite) | (intro)

theorem State.noStore_keeps {s0 s : State} (hk : s0.Keeps s) :
    s0.Keeps (State.noStore s) := by
  unfold State.noStore
  repeat' first
    | (with_reducible assumption) | (with_reducible apply State.ltIrq_keeps)
    | (with_reducible apply State.applied_keeps) | (intro) | split | (dsimp only)
    | (with_reducible refine State.Keeps.mk' ?_ rfl rfl rfl rfl rfl rfl rfl rfl rfl)

theorem State.ltSend_keeps {s0 s : State} (q : LtReq) (hk : s0.Keeps s) :
    s0.Keeps (State.ltSend s q) := by
  unfold State.ltSend
  repeat' first
    | (with_reducible assumption) | (with_reducible refine State.Keeps.mk' ?_ rfl rfl rfl rfl rfl rfl rfl rfl rfl)

theorem State.ltNext_keeps {s0 s : State} (q : Option LtReq) (hk : s0.Keeps s) :
    s0.Keeps (State.ltNext s q) := by
  unfold State.ltNext
  repeat' first
    | (with_reducible assumption) | (with_reducible refine State.Keeps.mk' ?_ rfl rfl rfl rfl rfl rfl rfl rfl rfl)

theorem State.ltRetire_keeps {s0 s : State} (i : Nat) (d : Word) (hk : s0.Keeps s) :
    s0.Keeps (State.ltRetire s i d) := by
  unfold State.ltRetire
  repeat' first
    | (with_reducible assumption) | (with_reducible apply State.setRecord_keeps)
    | (with_reducible apply State.ltIrq_keeps) | (with_reducible apply State.ltLog_keeps)
    | (with_reducible apply State.boostCheck_keeps) | (with_reducible apply State.Keeps.ite) | (intro)
    | (with_reducible refine State.Keeps.mk' ?_ rfl rfl rfl rfl rfl rfl rfl rfl rfl)

theorem State.ltResolve_keeps {s0 s : State} (i : Nat) (d : Word) (r : Option LtRec) (hk : s0.Keeps s) :
    s0.Keeps (State.ltResolve s i d r) := by
  unfold State.ltResolve
  repeat' first
    | (with_reducible assumption) | (with_reducible apply State.ltIrq_keeps)
    | (with_reducible apply State.ltLog_keeps) | (with_reducible apply State.setRecord_keeps)
    | (with_reducible apply State.ltTake_keeps) | (with_reducible apply State.boostCheck_keeps)
    | (with_reducible apply State.Keeps.ite) | (intro) | split | (dsimp only)
    | (with_reducible refine State.Keeps.mk' ?_ rfl rfl rfl rfl rfl rfl rfl rfl rfl)

theorem State.hatchRefuse_keeps {s0 s : State} (result : Option (BitVec 8)) (hk : s0.Keeps s) :
    s0.Keeps (State.hatchRefuse s result) := by
  unfold State.hatchRefuse
  repeat' first
    | (with_reducible assumption) | (with_reducible refine State.Keeps.mk' ?_ rfl rfl rfl rfl rfl rfl rfl rfl rfl)

theorem State.hatchEnter_keeps {s0 s : State} (hk : s0.Keeps s) :
    s0.Keeps (State.hatchEnter s) := by
  unfold State.hatchEnter
  have hp {x : State} (h : s0.Keeps x) (a : Bool) :
      s0.Keeps { x with frame := { x.frame with plane0 := Plane.init, plane1 := Plane.init, busy := a } } :=
    ⟨h.queue, fun k => ⟨(h.storage k).1, (h.storage k).2, (h.storage k).3⟩, h.exc, h.period, h.tags, fun _ => fun k
    => absurd (show PlaneState.empty = .live from k) (by decide)⟩
  refine State.Keeps.foldl (fun x l k => State.linkOff_keeps _ (State.linkClear_keeps _ k)) ?_
  refine State.Keeps.mk' (hp (State.Keeps.foldl (fun x t k => State.modTh_keeps _ _ k) ?_) _) rfl rfl rfl rfl rfl rfl
    rfl rfl rfl
  exact State.ltIrq_keeps (hk.upd rfl rfl rfl rfl rfl rfl rfl rfl rfl)

theorem State.hatchEnd_keeps {s0 s : State} (hk : s0.Keeps s) :
    s0.Keeps (State.hatchEnd s) := by
  unfold State.hatchEnd
  repeat' first
    | (with_reducible assumption) | (with_reducible apply State.ltIrq_keeps)
    | (with_reducible apply State.wdSet_keeps) | (with_reducible apply State.stageOne_keeps)
    | (with_reducible apply State.coreReset_keeps) | (with_reducible apply State.Keeps.ite) | (intro)

theorem execHatchProcedureComplete_keeps {s0 s : State} (hk : s0.Keeps s) :
    ∃ z, execHatchProcedureComplete s = .next z ∧ s0.Keeps z := by
  unfold execHatchProcedureComplete
  refine ⟨_, rfl, ?_⟩
  repeat' first
    | (with_reducible assumption) | (with_reducible apply State.hatchRefuse_keeps)
    | (with_reducible apply State.ltSend_keeps) | (with_reducible apply State.Keeps.ite) | (intro)

theorem execHatchTimeout_keeps {s0 s : State} (hk : s0.Keeps s) :
    ∃ z, execHatchTimeout s = .next z ∧ s0.Keeps z := by
  unfold execHatchTimeout
  refine ⟨_, rfl, ?_⟩
  repeat' first
    | (with_reducible assumption) | (with_reducible apply State.goCleared_keeps)
    | (with_reducible apply State.Keeps.ite) | (intro)
    | (with_reducible refine State.Keeps.mk' ?_ rfl rfl rfl rfl rfl rfl rfl rfl rfl)

theorem execHatchProcedureEnd_keeps {s0 s : State} (hk : s0.Keeps s) :
    ∃ z, execHatchProcedureEnd s = .next z ∧ s0.Keeps z := by
  unfold execHatchProcedureEnd
  refine ⟨_, rfl, ?_⟩
  repeat' first
    | (with_reducible assumption) | (with_reducible apply State.hatchEnd_keeps)

theorem execLintelResponse_keeps {s0 s : State} (code : BitVec 2) (rdata : BitVec 128) (hk : s0.Keeps s) :
    ∃ z, execLintelResponse code rdata s = .next z ∧ s0.Keeps z := by
  unfold execLintelResponse
  refine ⟨_, rfl, ?_⟩
  repeat' first
    | (with_reducible assumption) | (with_reducible apply State.hgDecide_keeps)
    | (with_reducible apply State.ltRetire_keeps) | (with_reducible apply State.ltNext_keeps)
    | (with_reducible apply State.ltDeny_keeps) | (with_reducible apply State.hatchEnter_keeps)
    | (with_reducible apply State.hatchRefuse_keeps) | (with_reducible apply State.ltResolve_keeps)
    | (with_reducible apply State.stageGo_keeps) | (with_reducible apply State.noStore_keeps)
    | (with_reducible apply State.ltTake_keeps) | (with_reducible apply State.applyRecords_keeps)
    | (with_reducible apply State.Keeps.ite) | (intro) | split | (dsimp only)
    | (with_reducible refine State.Keeps.mk' ?_ rfl rfl rfl rfl rfl rfl rfl rfl rfl)

theorem execLintelTimeout_keeps {s0 s : State} (hk : s0.Keeps s) :
    ∃ z, execLintelTimeout s = .next z ∧ s0.Keeps z := by
  unfold execLintelTimeout
  refine ⟨_, rfl, ?_⟩
  repeat' first
    | (with_reducible assumption) | (with_reducible apply State.hgDecide_keeps)
    | (with_reducible apply State.ltDeny_keeps) | (with_reducible apply State.ltNext_keeps)
    | (with_reducible apply State.hatchRefuse_keeps) | (with_reducible apply State.Keeps.ite) | (intro) | split
    | (dsimp only) | (with_reducible refine State.Keeps.mk' ?_ rfl rfl rfl rfl rfl rfl rfl rfl rfl)

theorem execLintelReadTimeout_keeps {s0 s : State} (hk : s0.Keeps s) :
    ∃ z, execLintelReadTimeout s = .next z ∧ s0.Keeps z := by
  unfold execLintelReadTimeout
  refine ⟨_, rfl, ?_⟩
  repeat' first
    | (with_reducible assumption) | (with_reducible apply State.noStore_keeps)
    | (with_reducible apply State.stageGo_keeps) | (with_reducible apply State.toStage_keeps)
    | (with_reducible apply State.Keeps.ite) | (intro) | split | (dsimp only)
    | (with_reducible refine State.Keeps.mk' ?_ rfl rfl rfl rfl rfl rfl rfl rfl rfl)

theorem execDeadboltAssert_keeps {s0 s : State} (hk : s0.Keeps s) :
    ∃ z, execDeadboltAssert s = .next z ∧ s0.Keeps z := by
  unfold execDeadboltAssert
  refine ⟨_, rfl, ?_⟩
  repeat' first
    | (with_reducible assumption) | (with_reducible apply State.Keeps.ite) | (intro)
    | (with_reducible refine State.Keeps.mk' ?_ rfl rfl rfl rfl rfl rfl rfl rfl rfl)

theorem execDeadboltRelease_keeps {s0 s : State} (hk : s0.Keeps s) :
    ∃ z, execDeadboltRelease s = .next z ∧ s0.Keeps z := by
  unfold execDeadboltRelease
  refine ⟨_, rfl, ?_⟩
  repeat' first
    | (with_reducible assumption) | (with_reducible apply State.hatchEnd_keeps)
    | (with_reducible refine State.Keeps.mk' ?_ rfl rfl rfl rfl rfl rfl rfl rfl rfl)

theorem execLtPfailN_keeps {s0 s : State} (level : Bool) (hk : s0.Keeps s) :
    ∃ z, execLtPfailN level s = .next z ∧ s0.Keeps z := by
  unfold execLtPfailN
  refine ⟨_, rfl, ?_⟩
  repeat' first
    | (with_reducible assumption) | (with_reducible refine State.Keeps.mk' ?_ rfl rfl rfl rfl rfl rfl rfl rfl rfl)

end Sys2Proof.Machine
end

