-- ==== Sys2Proof/Laws/KeepsFrame.lean ====
section
/-! SUPPORT. No operation of Machine/Frame.lean breaks what `State.Keeps` speaks of. -/

namespace Sys2Proof.Machine

theorem State.framePost_keeps {s0 s : State} (result : Nat) (at0 : Option Nat) (hk : s0.Keeps s) :
    s0.Keeps (State.framePost s result at0) := by
  unfold State.framePost
  repeat' first
    | (with_reducible assumption) | (with_reducible apply State.goCleared_keeps)
    | (with_reducible apply State.irqSet_keeps) | (with_reducible apply State.Keeps.ite) | (intro) | split
    | (dsimp only) | (with_reducible refine State.Keeps.mk' ?_ rfl rfl rfl rfl rfl rfl rfl rfl rfl)

theorem State.frameErr_keeps {s0 s : State} (hk : s0.Keeps s) :
    s0.Keeps (State.frameErr s) := by
  unfold State.frameErr
  repeat' first
    | (with_reducible assumption) | (with_reducible refine State.Keeps.mk' ?_ rfl rfl rfl rfl rfl rfl rfl rfl rfl)

theorem State.frameStage_keeps {s0 s : State} (hk : s0.Keeps s) :
    s0.Keeps (State.frameStage s) := by
  unfold State.frameStage
  repeat' first
    | (with_reducible assumption) | (with_reducible apply State.framePost_keeps)
    | (with_reducible apply State.jambAdd_keeps) | (with_reducible apply State.modPlane_keeps) | exact fun _ k => k
    | (intro _ k; cases k; done) | (with_reducible apply State.Keeps.ite) | (intro)
    | (with_reducible refine State.Keeps.mk' ?_ rfl rfl rfl rfl rfl rfl rfl rfl rfl)

theorem State.stagingGot_keeps {s0 s : State} (p : Nat) (base : Nat) (cs : List Host.Cell) (ok : Bool) (hk : s0.Keeps
    s) :
    s0.Keeps (State.stagingGot s p base cs ok) := by
  unfold State.stagingGot
  repeat' first
    | (with_reducible assumption) | (with_reducible apply State.modPlane_keeps) | exact fun _ k => k

theorem State.stageRefused_keeps {s0 s : State} (p : Nat) (result : Nat) (at0 : Nat) (hk : s0.Keeps s) :
    s0.Keeps (State.stageRefused s p result at0) := by
  unfold State.stageRefused
  repeat' first
    | (with_reducible assumption) | (with_reducible apply State.framePost_keeps)
    | (with_reducible apply State.modPlane_keeps) | exact fun _ k => k | (intro _ k; cases k; done)

theorem execFrameStagingResult_keeps {s0 s : State} (hk : s0.Keeps s) :
    ∃ z, execFrameStagingResult s = .next z ∧ s0.Keeps z := by
  unfold execFrameStagingResult
  refine ⟨_, rfl, ?_⟩
  repeat' first
    | (with_reducible assumption) | (with_reducible apply State.stageRefused_keeps)
    | (with_reducible apply State.framePost_keeps) | (with_reducible apply State.modPlane_keeps)
    | exact fun _ k => k | (intro _ k; cases k; done) | (with_reducible apply State.Keeps.ite) | (intro) | split

theorem State.commitCounts_keeps {s0 s : State} (hk : s0.Keeps s) :
    s0.Keeps (State.commitCounts s) := by
  unfold State.commitCounts
  repeat' first
    | (with_reducible assumption) | (with_reducible refine State.Keeps.mk' ?_ rfl rfl rfl rfl rfl rfl rfl rfl rfl)

theorem State.commitTo_keeps {s0 s : State} (p : Nat) (f : FrameCfg) (hk : s0.Keeps s) :
    s0.Keeps (State.commitTo s p f) := by
  unfold State.commitTo
  refine State.wakeAsk_keeps (State.framePost_keeps _ _ ?_)
  have hl : ∀ x : Plane, (if x.state = .live then { x with state := .ending } else x).state ≠ .live := fun x => by
    split
    · exact fun h => nomatch h
    · assumption
  have hc := State.commitCounts_keeps hk
  generalize s.commitCounts = x at hc
  rcases p with _ | p
  · exact ⟨hc.queue, fun k => ⟨(hc.storage k).1, (hc.storage k).2, (hc.storage k).3⟩, hc.exc, hc.period, hc.tags,
      fun _ _ => hl _⟩
  · rw [show 1 - (p + 1) = 0 by omega]
    exact ⟨hc.queue, fun k => ⟨(hc.storage k).1, (hc.storage k).2, (hc.storage k).3⟩, hc.exc, hc.period, hc.tags,
      fun _ h => absurd h (hl x.frame.plane0)⟩

theorem State.frameCommit_keeps {s0 s : State} (hk : s0.Keeps s) :
    s0.Keeps (State.frameCommit s) := by
  unfold State.frameCommit
  repeat' first
    | (with_reducible assumption) | (with_reducible apply State.framePost_keeps)
    | (with_reducible apply State.commitTo_keeps) | (with_reducible apply State.modPlane_keeps)
    | exact fun _ k => k | (intro _ k; cases k; done) | (with_reducible apply State.Keeps.ite) | (intro) | split
    | (dsimp only) | (with_reducible refine State.Keeps.mk' ?_ rfl rfl rfl rfl rfl rfl rfl rfl rfl)

theorem execCommitWaitResolve_keeps {s0 s : State} (hk : s0.Keeps s) :
    ∃ z, execCommitWaitResolve s = .next z ∧ s0.Keeps z := by
  unfold execCommitWaitResolve
  refine ⟨_, rfl, ?_⟩
  repeat' first
    | (with_reducible assumption) | (with_reducible apply State.framePost_keeps)
    | (with_reducible apply State.modPlane_keeps) | (with_reducible apply State.commitTo_keeps)
    | exact fun _ k => k | (intro _ k; cases k; done) | (with_reducible apply State.Keeps.ite) | (intro) | split

theorem State.weaveRestart_keeps {s0 s : State} (hk : s0.Keeps s) :
    s0.Keeps (State.weaveRestart s) := by
  unfold State.weaveRestart
  repeat' first
    | (with_reducible assumption) | (with_reducible apply State.modEngine_keeps)
    | (with_reducible apply State.Keeps.foldl) | (intro)
    | (with_reducible refine State.Keeps.mk' ?_ rfl rfl rfl rfl rfl rfl rfl rfl rfl)

theorem State.doorTaken_keeps {s0 s : State} (f : FrameCfg) (hk : s0.Keeps s) :
    s0.Keeps (State.doorTaken s f) := by
  unfold State.doorTaken
  repeat' first
    | (with_reducible assumption) | (with_reducible apply State.doorRestart_keeps)
    | (with_reducible apply State.Keeps.ite) | (intro)
    | (with_reducible refine State.Keeps.mk' ?_ rfl rfl rfl rfl rfl rfl rfl rfl rfl)

theorem State.coreWide_keeps {s0 s : State} (f : FrameCfg) (hk : s0.Keeps s) :
    s0.Keeps (State.coreWide s f) := by
  unfold State.coreWide
  repeat' first
    | (with_reducible assumption) | (with_reducible apply State.followAssign_keeps)
    | (with_reducible apply State.wdSet_keeps) | (with_reducible apply State.planTaken_keeps)
    | (with_reducible apply State.doorTaken_keeps) | split | (dsimp only)
    | (with_reducible refine State.Keeps.mk' ?_ rfl rfl rfl rfl rfl rfl rfl rfl rfl)

theorem State.clocksAssigned_keeps {s0 s : State} (old : BitVec 32) (alone : Bool) (hk : s0.Keeps s) :
    s0.Keeps (State.clocksAssigned s old alone) := by
  unfold State.clocksAssigned
  repeat' first
    | (with_reducible assumption) | (with_reducible apply State.clockRanks_keeps)
    | (with_reducible apply State.modEngine_keeps) | (with_reducible apply State.Keeps.foldl)
    | (with_reducible apply State.Keeps.ite) | (intro)

theorem State.restoreTaken_keeps {s0 s : State} (c : Nat) (r : Restored) (hk : s0.Keeps s) :
    s0.Keeps (State.restoreTaken s c r) := by
  unfold State.restoreTaken
  repeat' first
    | (with_reducible assumption) | (with_reducible apply State.modPlane_keeps) | exact fun _ k => k
    | (intro _ k; cases k; done) | (with_reducible apply State.Keeps.foldl) | (intro) | split | (dsimp only)
    | (with_reducible refine State.Keeps.mk' ?_ rfl rfl rfl rfl rfl rfl rfl rfl rfl)

theorem State.contextStart_keeps {s0 s : State} (c : Nat) (hk : s0.Keeps s) :
    s0.Keeps (State.contextStart s c) := by
  unfold State.contextStart
  repeat' first
    | (with_reducible assumption) | (with_reducible apply State.modPlane_keeps)
    | (with_reducible apply State.restoreTaken_keeps) | (with_reducible apply State.startThread_keeps)
    | exact fun _ k => k | (intro _ k; cases k; done) | (with_reducible apply State.Keeps.foldl)
    | (with_reducible apply State.Keeps.ite) | (intro) | split | (dsimp only)
    | (with_reducible refine State.Keeps.mk' ?_ rfl rfl rfl rfl rfl rfl rfl rfl rfl)

theorem execEffectPoint_keeps {s0 s : State} (hk : s0.Keeps s) :
    ∃ z, execEffectPoint s = .next z ∧ s0.Keeps z := by
  unfold execEffectPoint
  refine ⟨_, rfl, ?_⟩
  repeat' first
    | (with_reducible assumption) | (with_reducible apply State.clocksAssigned_keeps)
    | (with_reducible apply State.coreWide_keeps) | (with_reducible apply State.replayBegin_keeps)
    | (with_reducible apply State.weaveRestart_keeps) | (with_reducible apply State.replayGo_keeps)
    | (with_reducible apply State.contextStart_keeps) | (with_reducible apply State.Keeps.foldl)
    | (with_reducible apply State.Keeps.ite) | (intro) | split | (dsimp only)
    | (with_reducible refine State.Keeps.mk' ?_ rfl rfl rfl rfl rfl rfl rfl rfl rfl)

theorem State.frameDiscard_keeps {s0 s : State} (hk : s0.Keeps s) :
    s0.Keeps (State.frameDiscard s) := by
  unfold State.frameDiscard
  repeat' first
    | (with_reducible assumption) | (with_reducible apply State.framePost_keeps)
    | (with_reducible apply State.endContext_keeps) | (with_reducible apply State.frameErr_keeps) | split

theorem State.frameForce_keeps {s0 s : State} (hk : s0.Keeps s) :
    s0.Keeps (State.frameForce s) := by
  unfold State.frameForce
  repeat' first
    | (with_reducible assumption) | (with_reducible apply State.frameErr_keeps)
    | (with_reducible apply State.framePost_keeps) | (with_reducible apply State.modTh_keeps)
    | (with_reducible apply State.endContext_keeps) | (with_reducible apply State.Keeps.foldl)
    | (with_reducible apply State.Keeps.ite) | (intro)
    | (with_reducible refine State.Keeps.mk' ?_ rfl rfl rfl rfl rfl rfl rfl rfl rfl)

theorem State.frameCtl_keeps {s0 s : State} (len : BitVec 17) (op : BitVec 3) (wait : Bool) (slot : Bool) (go : Bool)
    (hk : s0.Keeps s) :
    s0.Keeps (State.frameCtl s len op wait slot go) := by
  unfold State.frameCtl
  repeat' first
    | (with_reducible assumption) | (with_reducible apply State.wakeAsk_keeps)
    | (with_reducible apply State.frameErr_keeps) | (with_reducible apply State.goRefused_keeps)
    | (with_reducible apply State.frameStage_keeps) | (with_reducible apply State.frameCommit_keeps)
    | (with_reducible apply State.frameDiscard_keeps) | (with_reducible apply State.frameForce_keeps)
    | (with_reducible apply State.Keeps.ite) | (intro) | split | (dsimp only)
    | (with_reducible refine State.Keeps.mk' ?_ rfl rfl rfl rfl rfl rfl rfl rfl rfl)

end Sys2Proof.Machine
end

