-- ==== Sys2Proof/Laws/KeepsCheckpoint.lean ====
section
/-! SUPPORT. No operation of Machine/Checkpoint.lean breaks what `State.Keeps` speaks of. -/

namespace Sys2Proof.Machine

theorem State.regionShut_keeps {s0 s : State} (r : Region) (hk : s0.Keeps s) :
    s0.Keeps (State.regionShut s r) := by
  unfold State.regionShut
  repeat' first
    | (with_reducible assumption) | (with_reducible apply State.linesShut_keeps)
    | (with_reducible apply State.shutAccess_keeps) | (with_reducible apply State.Keeps.ite) | (intro)

theorem State.ckptWrite_keeps {s0 s : State} (hk : s0.Keeps s) :
    s0.Keeps (State.ckptWrite s) := by
  unfold State.ckptWrite
  repeat' first
    | (with_reducible assumption) | (with_reducible apply State.ckptDone_keeps)
    | (with_reducible apply State.regionShut_keeps) | (with_reducible apply State.jambAdd_keeps)
    | (with_reducible apply State.Keeps.foldl) | (with_reducible apply State.Keeps.ite) | (intro) | split
    | (dsimp only) | (with_reducible refine State.Keeps.mk' ?_ rfl rfl rfl rfl rfl rfl rfl rfl rfl)

theorem State.ckptGo_keeps {s0 s : State} (hk : s0.Keeps s) :
    s0.Keeps (State.ckptGo s) := by
  unfold State.ckptGo
  repeat' first
    | (with_reducible assumption) | (with_reducible apply State.ckptWrite_keeps)
    | (with_reducible apply State.Keeps.ite) | (intro)

theorem State.ckptSave_keeps {s0 s : State} (hk : s0.Keeps s) :
    s0.Keeps (State.ckptSave s) := by
  unfold State.ckptSave
  repeat' first
    | (with_reducible assumption) | (with_reducible apply State.ckptDone_keeps)
    | (with_reducible apply State.ckptGo_keeps) | (with_reducible apply State.dcClean_keeps)
    | (with_reducible apply State.Keeps.ite) | (intro)
    | (with_reducible refine State.Keeps.mk' ?_ rfl rfl rfl rfl rfl rfl rfl rfl rfl)

theorem State.ckptRestore_keeps {s0 s : State} (hk : s0.Keeps s) :
    s0.Keeps (State.ckptRestore s) := by
  unfold State.ckptRestore
  repeat' first
    | (with_reducible assumption) | (with_reducible apply State.jambAdd_keeps)
    | (with_reducible refine State.Keeps.mk' ?_ rfl rfl rfl rfl rfl rfl rfl rfl rfl)

theorem State.regionPut_keeps {s0 s : State} (r : Region) (bs : List Byte) (hk : s0.Keeps s) :
    s0.Keeps (State.regionPut s r bs) := by
  unfold State.regionPut
  refine State.Keeps.ite (fun _ => ?_) fun _ => State.Keeps.ite (fun _ => hk) fun _ => ?_
  · exact hk.store rfl id (fun k => Memory.putCells_wf _ k) id rfl rfl rfl rfl rfl
  · exact hk.store rfl id id (fun k => Memory.putCells_wf _ k) rfl rfl rfl rfl rfl

theorem State.regionsPut_keeps {s0 s : State} (m : Mem) (off : Nat) (rs : List Region) (hk : s0.Keeps s) :
    s0.Keeps (State.regionsPut s m off rs) := by
  induction rs generalizing s off with
  | nil => exact hk
  | cons r rest ih => exact ih _ (State.regionPut_keeps _ _ (State.regionShut_keeps _ hk))

theorem State.ckptTake_keeps {s0 s : State} (hk : s0.Keeps s) :
    s0.Keeps (State.ckptTake s) := by
  unfold State.ckptTake
  have hd : ∀ bs, s0.Keeps { s with sash := { s.sash with dmem := Mem.putBytes [] 0 bs } } := fun bs =>
    hk.store rfl (fun _ => Memory.putBytes_wf 0 bs Memory.wf_nil) id id rfl rfl rfl rfl rfl
  refine State.Keeps.ite (fun _ => State.ckptDone_keeps _ hk) fun _ =>
    State.Keeps.ite (fun _ => State.ckptDone_keeps _ hk) fun _ => ?_
  split
  · exact State.ckptDone_keeps _ hk
  · refine State.Keeps.ite (fun _ => State.ckptDone_keeps _ hk) fun _ =>
      State.Keeps.ite (fun _ => State.ckptDone_keeps _ hk) fun _ => ?_
    exact State.ckptDone_keeps _ (State.modPlane_keeps _ _ (fun _ k => k) (State.regionsPut_keeps _ _ _ (hd _)))

theorem State.ckptHead_keeps {s0 s : State} (hk : s0.Keeps s) :
    s0.Keeps (State.ckptHead s) := by
  unfold State.ckptHead
  repeat' first
    | (with_reducible assumption) | (with_reducible apply State.ckptDone_keeps)
    | (with_reducible apply State.jambAdd_keeps) | (with_reducible apply State.Keeps.ite) | (intro)
    | (with_reducible refine State.Keeps.mk' ?_ rfl rfl rfl rfl rfl rfl rfl rfl rfl)

theorem State.ckptGot_keeps {s0 s : State} (cs : List Host.Cell) (ok : Bool) (hk : s0.Keeps s) :
    s0.Keeps (State.ckptGot s cs ok) := by
  unfold State.ckptGot
  repeat' first
    | (with_reducible assumption) | (with_reducible apply State.ckptHead_keeps)
    | (with_reducible apply State.ckptTake_keeps) | (with_reducible apply State.Keeps.foldl)
    | (with_reducible apply State.Keeps.ite) | (intro)
    | (with_reducible refine State.Keeps.mk' ?_ rfl rfl rfl rfl rfl rfl rfl rfl rfl)

theorem State.ckptCtl_keeps {s0 s : State} (op : BitVec 2) (slot : Bool) (go : Bool) (hk : s0.Keeps s) :
    s0.Keeps (State.ckptCtl s op slot go) := by
  unfold State.ckptCtl
  repeat' first
    | (with_reducible assumption) | (with_reducible apply State.goRefused_keeps)
    | (with_reducible apply State.ckptSave_keeps) | (with_reducible apply State.ckptRestore_keeps)
    | (with_reducible apply State.Keeps.ite) | (intro) | split | (dsimp only)
    | (with_reducible refine State.Keeps.mk' ?_ rfl rfl rfl rfl rfl rfl rfl rfl rfl)

theorem State.adopt_keeps {s0 s : State} (node : BitVec 16) (go : Bool) (hk : s0.Keeps s) :
    s0.Keeps (State.adopt s node go) := by
  unfold State.adopt
  repeat' first
    | (with_reducible assumption) | (with_reducible apply State.Keeps.ite) | (intro)
    | (with_reducible refine State.Keeps.mk' ?_ rfl rfl rfl rfl rfl rfl rfl rfl rfl)

end Sys2Proof.Machine
end

