-- ==== Sys2Proof/Laws/KeepsJambExec.lean ====
section
/-! SUPPORT. No operation of Machine/JambExec.lean breaks what `State.Keeps` speaks of. -/

namespace Sys2Proof.Machine

theorem State.tagEnd_keeps {s0 s : State} (tag : Nat) (hk : s0.Keeps s) :
    s0.Keeps (State.tagEnd s tag) := by
  unfold State.tagEnd
  exact hk.retag rfl rfl rfl rfl rfl rfl (fun k => tags_filter _ k) rfl rfl

theorem State.strayRsp_keeps {s0 s : State} (tag : Nat) (hk : s0.Keeps s) :
    s0.Keeps (State.strayRsp s tag) := by
  unfold State.strayRsp
  repeat' first
    | (with_reducible assumption) | (intro)
    | (with_reducible refine State.Keeps.mk' ?_ rfl rfl rfl rfl rfl rfl rfl rfl rfl)

theorem State.fillDone_keeps {s0 s : State} (c : Nat) (h : Nat) (d : Desc) (hk : s0.Keeps s) :
    s0.Keeps (State.fillDone s c h d) := by
  unfold State.fillDone
  repeat' first
    | (with_reducible assumption) | (with_reducible apply State.dcInsert_keeps)
    | (with_reducible apply State.sinksFilled_keeps) | (with_reducible apply State.issueResolve_keeps)
    | (with_reducible apply State.Keeps.foldl) | (intro)

theorem State.fillFailed_keeps {s0 s : State} (c : Nat) (h : Nat) (st : Nat) (hk : s0.Keeps s) :
    s0.Keeps (State.fillFailed s c h st) := by
  unfold State.fillFailed
  repeat' first
    | (with_reducible assumption) | (with_reducible apply State.integrity_keeps)
    | (with_reducible apply State.descFault_keeps) | (with_reducible apply State.refuse_keeps)
    | (with_reducible apply State.sinksFilled_keeps) | (with_reducible apply State.propFailed_keeps)
    | (with_reducible apply State.commitLost_keeps) | (with_reducible apply State.Keeps.foldl)
    | (with_reducible apply State.Keeps.ite) | (intro)

theorem State.fillArrived_keeps {s0 s : State} (c : Nat) (h : Nat) (bs : List Byte) (ok : Bool) (hk : s0.Keeps s) :
    s0.Keeps (State.fillArrived s c h bs ok) := by
  unfold State.fillArrived
  repeat' first
    | (with_reducible assumption) | (with_reducible apply State.sinksFilled_keeps)
    | (with_reducible apply State.fillFailed_keeps) | (with_reducible apply State.fillDone_keeps)
    | (with_reducible apply State.Keeps.ite) | (intro) | split

theorem State.fetchArrived_keeps {s0 s : State} (t : Thread) (again : Bool) (r : JReq) (bs : List Byte) (ok : Bool)
    (bad : Bool) (hk : s0.Keeps s) :
    s0.Keeps (State.fetchArrived s t again r bs ok bad) := by
  unfold State.fetchArrived
  repeat' first
    | (with_reducible assumption) | (with_reducible apply State.fetchAt_keeps)
    | (with_reducible apply State.wakeUp_keeps) | (with_reducible apply State.jambAdd_keeps)
    | (with_reducible apply State.refetched_keeps) | (with_reducible apply State.stopExc_keeps)
    | (with_reducible apply State.Keeps.ite) | (intro)
    | (with_reducible refine State.Keeps.mk' ?_ rfl rfl rfl rfl rfl rfl rfl rfl rfl)

theorem State.mldArrived_keeps {s0 s : State} (t : Thread) (a : Nat) (n : Nat) (cs : List Host.Cell) (ok : Bool) (hk
    : s0.Keeps s) :
    s0.Keeps (State.mldArrived s t a n cs ok) := by
  unfold State.mldArrived
  repeat' first
    | (with_reducible assumption) | (with_reducible apply State.resume_keeps)
    | (with_reducible apply State.setReg_keeps) | (with_reducible apply State.stopExc_keeps)
    | (with_reducible apply State.Keeps.ite) | (intro) | split

theorem State.mstAnswered_keeps {s0 s : State} (t : Thread) (r : JReq) (pc : BitVec 48) (ok : Bool) (hk : s0.Keeps s)
    :
    s0.Keeps (State.mstAnswered s t r pc ok) := by
  unfold State.mstAnswered
  repeat' first
    | (with_reducible assumption) | (with_reducible apply State.modTh_keeps)
    | (with_reducible apply State.stopExc_keeps) | (with_reducible apply State.excPush_keeps)
    | (with_reducible apply State.resume_keeps) | (with_reducible apply State.Keeps.ite) | (intro)

theorem State.recordAnswered_keeps {s0 s : State} (t : Thread) (n : Nat) (bs : List Byte) (ok : Bool) (hk : s0.Keeps
    s) :
    s0.Keeps (State.recordAnswered s t n bs ok) := by
  unfold State.recordAnswered
  repeat' first
    | (with_reducible assumption) | (with_reducible apply State.recordArrived_keeps)
    | (with_reducible apply State.Keeps.ite) | (intro) | split

theorem State.issuedOpens_keeps {s0 s : State} (uid : Nat) (hk : s0.Keeps s) :
    s0.Keeps (State.issuedOpens s uid) := by
  unfold State.issuedOpens
  repeat' first
    | (with_reducible assumption) | (with_reducible apply State.engineOpen_keeps)
    | (with_reducible apply State.Keeps.ite) | (intro) | split

theorem State.keptFree_keeps {s0 s : State} (uid : Nat) (hk : s0.Keeps s) :
    s0.Keeps (State.keptFree s uid) := by
  unfold State.keptFree
  repeat' first
    | (with_reducible assumption) | (with_reducible apply State.modEntry_keeps) | (intro) | split | (dsimp only)
    | (with_reducible refine State.Keeps.mk' ?_ rfl rfl rfl rfl rfl rfl rfl rfl rfl)

theorem State.readsDone_keeps {s0 s : State} (e : Entry) (hk : s0.Keeps s) :
    s0.Keeps (State.readsDone s e) := by
  unfold State.readsDone
  repeat' first
    | (with_reducible assumption) | (with_reducible apply State.copyMove_keeps)
    | (with_reducible apply State.ssqAdd_keeps) | (with_reducible apply State.putSend_keeps)
    | (with_reducible apply State.sinksGo_keeps) | (with_reducible apply State.redBegin_keeps)
    | (with_reducible apply State.keptFree_keeps) | (with_reducible apply State.nearRun_keeps) | split

theorem State.keepTag_keeps {s0 s : State} (e : Entry) (tag : Nat) (block : Nat) (hk : s0.Keeps s) :
    s0.Keeps (State.keepTag s e tag block) := by
  unfold State.keepTag
  repeat' first
    | (with_reducible assumption) | (with_reducible apply State.modEntry_keeps)
    | (with_reducible apply State.Keeps.ite) | (intro) | split | (dsimp only)
    | (with_reducible refine State.Keeps.mk' ?_ rfl rfl rfl rfl rfl rfl rfl rfl rfl)

theorem State.spillGot_keeps {s0 s : State} (e : Entry) (tag : Nat) (block : Nat) (ok : Bool) (fault : Option (BitVec
    16)) (hk : s0.Keeps s) :
    s0.Keeps (State.spillGot s e tag block ok fault) := by
  unfold State.spillGot
  repeat' first
    | (with_reducible assumption) | (with_reducible apply State.modEntry_keeps)
    | (with_reducible apply State.classS_keeps) | (with_reducible apply State.spillBlock_keeps)
    | (with_reducible apply State.Keeps.ite) | (intro) | split

theorem State.entryRead_keeps {s0 s : State} (uid : Nat) (tag : Nat) (r : JReq) (cs : List Host.Cell) (ok : Bool)
    (fault : Option (BitVec 16)) (hk : s0.Keeps s) :
    s0.Keeps (State.entryRead s uid tag r cs ok fault) := by
  unfold State.entryRead
  repeat' first
    | (with_reducible assumption) | (with_reducible apply State.modEntry_keeps)
    | (with_reducible apply State.classS_keeps) | (with_reducible apply State.spillGot_keeps)
    | (with_reducible apply State.keepTag_keeps) | (with_reducible apply State.readsDone_keeps)
    | (with_reducible apply State.entrySettle_keeps) | (with_reducible apply State.Keeps.foldl)
    | (with_reducible apply State.Keeps.ite) | (intro) | split | (dsimp only)

theorem State.entryWrote_keeps {s0 s : State} (uid : Nat) (ok : Bool) (hk : s0.Keeps s) :
    s0.Keeps (State.entryWrote s uid ok) := by
  unfold State.entryWrote
  repeat' first
    | (with_reducible assumption) | (with_reducible apply State.modEntry_keeps)
    | (with_reducible apply State.transomEnd_keeps) | (with_reducible apply State.entrySettle_keeps)
    | (with_reducible apply State.Keeps.ite) | (intro) | split | (dsimp only)

theorem State.dcBusyEnd_keeps {s0 s : State} (hk : s0.Keeps s) :
    s0.Keeps (State.dcBusyEnd s) := by
  unfold State.dcBusyEnd
  repeat' first
    | (with_reducible assumption) | (with_reducible apply State.goCleared_keeps)
    | (with_reducible apply State.modCr_keeps) | (with_reducible apply State.Keeps.ite) | (intro) | split

theorem State.flushEnd_keeps {s0 s : State} (t : Thread) (hk : s0.Keeps s) :
    s0.Keeps (State.flushEnd s t) := by
  unfold State.flushEnd
  repeat' first
    | (with_reducible assumption) | (with_reducible apply State.resume_keeps)
    | (with_reducible apply State.Keeps.ite) | (intro) | split

theorem State.wroteBack_keeps {s0 s : State} (c : Nat) (h : Nat) (ok : Bool) (hk : s0.Keeps s) :
    s0.Keeps (State.wroteBack s c h ok) := by
  unfold State.wroteBack
  repeat' first
    | (with_reducible assumption) | (with_reducible apply State.planeEmpty_keeps)
    | (with_reducible apply State.ckptGo_keeps) | (with_reducible apply State.flushEnd_keeps)
    | (with_reducible apply State.dcBusyEnd_keeps) | (with_reducible apply State.Keeps.foldl)
    | (with_reducible apply State.Keeps.ite) | (intro)
    | (with_reducible refine State.Keeps.mk' ?_ rfl rfl rfl rfl rfl rfl rfl rfl rfl)

theorem State.deliverRead_keeps {s0 s : State} (tag : Nat) (r : JReq) (cs : List Host.Cell) (ok : Bool) (fault :
    Option (BitVec 16)) (hk : s0.Keeps s) :
    s0.Keeps (State.deliverRead s tag r cs ok fault) := by
  unfold State.deliverRead
  repeat' first
    | (with_reducible assumption) | (with_reducible apply State.fillArrived_keeps)
    | (with_reducible apply State.fetchArrived_keeps) | (with_reducible apply State.mldArrived_keeps)
    | (with_reducible apply State.recordAnswered_keeps) | (with_reducible apply State.stagingGot_keeps)
    | (with_reducible apply State.entryRead_keeps) | (with_reducible apply State.sinkAnswered_keeps)
    | (with_reducible apply State.ckptGot_keeps) | (with_reducible apply State.replayGot_keeps) | (intro) | split

theorem State.deliverWrite_keeps {s0 s : State} (r : JReq) (ok : Bool) (hk : s0.Keeps s) :
    s0.Keeps (State.deliverWrite s r ok) := by
  unfold State.deliverWrite
  repeat' first
    | (with_reducible assumption) | (with_reducible apply State.wroteBack_keeps)
    | (with_reducible apply State.mstAnswered_keeps) | (with_reducible apply State.postBodyAnswered_keeps)
    | (with_reducible apply State.postHeadAnswered_keeps) | (with_reducible apply State.entryWrote_keeps)
    | (with_reducible apply State.sinkAnswered_keeps) | (with_reducible apply State.postsGo_keeps)
    | (with_reducible apply State.ckptWrote_keeps) | split

theorem State.spillError_keeps {s0 s : State} (r : JReq) (hk : s0.Keeps s) :
    s0.Keeps (State.spillError s r) := by
  unfold State.spillError
  repeat' first
    | (with_reducible assumption) | (with_reducible apply State.sillFault_keeps) | split

theorem State.deliverError_keeps {s0 s : State} (tag : Nat) (r : JReq) (cause : Nat) (hk : s0.Keeps s) :
    s0.Keeps (State.deliverError s tag r cause) := by
  unfold State.deliverError
  repeat' first
    | (with_reducible assumption) | (with_reducible apply State.spillError_keeps)
    | (with_reducible apply State.jambFault_keeps) | (with_reducible apply State.replayGo_keeps)
    | (with_reducible apply State.deliverWrite_keeps) | (with_reducible apply State.deliverRead_keeps)
    | (with_reducible apply State.Keeps.ite) | (intro)

theorem execJbRResponse_keeps {s0 s : State} (tag : BitVec 16) (data : List Byte) (code : BitVec 2) (u : Upset) (hk :
    s0.Keeps s) :
    ∃ z, execJbRResponse tag data code u s = .next z ∧ s0.Keeps z := by
  unfold execJbRResponse
  refine ⟨_, rfl, ?_⟩
  repeat' first
    | (with_reducible assumption) | (with_reducible apply State.strayRsp_keeps)
    | (with_reducible apply State.tagEnd_keeps) | (with_reducible apply State.corrected_keeps)
    | (with_reducible apply State.deliverError_keeps) | (with_reducible apply State.trackerParity_keeps)
    | (with_reducible apply State.struck_keeps) | (with_reducible apply State.replayGo_keeps)
    | (with_reducible apply State.deliverRead_keeps) | (with_reducible apply State.Keeps.ite) | (intro) | split

theorem execJbBResponse_keeps {s0 s : State} (tag : BitVec 16) (code : BitVec 2) (hk : s0.Keeps s) :
    ∃ z, execJbBResponse tag code s = .next z ∧ s0.Keeps z := by
  unfold execJbBResponse
  refine ⟨_, rfl, ?_⟩
  repeat' first
    | (with_reducible assumption) | (with_reducible apply State.strayRsp_keeps)
    | (with_reducible apply State.tagEnd_keeps) | (with_reducible apply State.deliverError_keeps)
    | (with_reducible apply State.trackerParity_keeps) | (with_reducible apply State.struck_keeps)
    | (with_reducible apply State.replayGo_keeps) | (with_reducible apply State.deliverWrite_keeps)
    | (with_reducible apply State.Keeps.ite) | (intro) | split

theorem execTagTimeout_keeps {s0 s : State} (tag : BitVec 16) (hk : s0.Keeps s) :
    ∃ z, execTagTimeout tag s = .next z ∧ s0.Keeps z := by
  unfold execTagTimeout
  refine ⟨_, rfl, ?_⟩
  repeat' first
    | (with_reducible assumption) | (with_reducible apply State.tagEnd_keeps)
    | (with_reducible apply State.trackerParity_keeps) | (with_reducible apply State.struck_keeps)
    | (with_reducible apply State.deliverError_keeps) | (with_reducible apply State.Keeps.ite) | (intro) | split
    | (dsimp only) | (with_reducible refine State.Keeps.mk' ?_ rfl rfl rfl rfl rfl rfl rfl rfl rfl)

theorem State.issueReq_keeps {s0 s : State} (i : Nat) (r : JReq) (tag : Nat) (hn : ∀ g ∈ s.jamb.tags, g.tag ≠ tag)
    (hk : s0.Keeps s) : s0.Keeps (State.issueReq s i r tag) := by
  have ha : (s.jamb.tags.map fun g => g.tag).Nodup →
      ((s.jamb.tags ++ [{ tag := tag, req := r, ticks := 0 : JTag }]).map fun g => g.tag).Nodup := fun k => by
    simp only [List.map_append, List.map_cons, List.map_nil]
    refine List.Nodup.append k (by simp) fun x hx hy => ?_
    obtain ⟨g, hg, rfl⟩ := List.mem_map.mp hx
    exact hn g hg (by simpa using hy)
  unfold State.issueReq
  dsimp only
  split
  · exact State.issuedOpens_keeps _ (State.Keeps.retag (x := s) hk rfl rfl rfl rfl rfl rfl ha rfl rfl)
  · exact State.Keeps.retag (x := s) hk rfl rfl rfl rfl rfl rfl ha rfl rfl

theorem State.issueFault_keeps {s0 s : State} (i : Nat) (r : JReq) (tag : Nat) (d : BitVec 16) (hk : s0.Keeps s) :
    s0.Keeps (State.issueFault s i r tag d) := by
  unfold State.issueFault
  repeat' first
    | (with_reducible assumption) | (with_reducible apply State.entryWrote_keeps)
    | (with_reducible apply State.classS_keeps) | (with_reducible apply State.deliverError_keeps)
    | (with_reducible apply State.trackerParity_keeps) | (with_reducible apply State.Keeps.ite) | (intro) | split
    | (dsimp only) | (with_reducible refine State.Keeps.mk' ?_ rfl rfl rfl rfl rfl rfl rfl rfl rfl)

theorem State.tagMay_fresh {s : State} {r : JReq} {tag : Nat} (h : s.tagMay r tag = true) :
    ∀ g ∈ s.jamb.tags, g.tag ≠ tag := by
  unfold State.tagMay at h
  split at h
  · simpa using h
  · simp only [State.tagFree, Bool.and_eq_true] at h
    simpa using h.1.1.2

theorem execJambRequestIssue_keeps {s0 s : State} (tag : BitVec 16) (u : Upset) (hk : s0.Keeps s) :
    ∃ z, execJambRequestIssue tag u s = .next z ∧ s0.Keeps z := by
  unfold execJambRequestIssue
  refine ⟨_, rfl, State.Keeps.ite (fun _ => hk) fun _ => ?_⟩
  split
  · exact hk
  · refine State.Keeps.ite (fun _ => hk) fun h => ?_
    have hn := State.tagMay_fresh (by simpa using h)
    cases u with
    | clean => exact State.issueReq_keeps _ _ _ hn hk
    | corrected => exact State.issueReq_keeps _ _ _ hn (State.corrected_keeps hk)
    | fatal d => exact State.issueFault_keeps _ _ _ _ hk

end Sys2Proof.Machine
end

