-- ==== Sys2Proof/Laws/KeepsLatchOps.lean ====
section
/-! SUPPORT. No operation of Machine/LatchOps.lean breaks what `State.Keeps` speaks of. -/

namespace Sys2Proof.Machine

theorem State.latchFn_keeps {s0 s : State} (t : Thread) (k : BitVec 6) (bad : Bool) (g : State → State) (hg : ∀ y,
    s0.Keeps y → s0.Keeps (g y)) (hk : s0.Keeps s) :
    s0.Keeps (State.latchFn s t k bad g) := by
  unfold State.latchFn
  repeat' first
    | (with_reducible assumption) | (with_reducible apply hg) | (with_reducible apply State.ifRun_keeps)
    | (with_reducible apply State.illegal_keeps) | (with_reducible apply State.Keeps.ite) | (intro)

theorem State.lsigGo_keeps {s0 s : State} (t : Thread) (k : Nat) (hk : s0.Keeps s) :
    s0.Keeps (State.lsigGo s t k) := by
  unfold State.lsigGo
  repeat' first
    | (with_reducible assumption) | (with_reducible apply State.signalsAhead_keeps)
    | (with_reducible apply State.latchSignal_keeps) | (with_reducible apply State.advance_keeps)
    | (with_reducible apply State.Keeps.ite) | (intro)

theorem execLsig_keeps {s0 s : State} (t : Thread) (_rd : Reg) (_ra : Reg) (k : BitVec 6) (x : BitVec 6) (u : Upset)
    (hk : s0.Keeps s) :
    ∃ z, execLsig t _rd _ra k x u s = .next z ∧ s0.Keeps z := by
  unfold execLsig
  refine ⟨_, rfl, ?_⟩
  repeat' first
    | (with_reducible assumption) | (with_reducible apply State.latchFn_keeps)
    | (with_reducible apply State.lsigGo_keeps) | (with_reducible apply State.controlParity_keeps) | (intro) | split

theorem execLwait_keeps {s0 s : State} (t : Thread) (_rd : Reg) (_ra : Reg) (k : BitVec 6) (x : BitVec 6) (hk :
    s0.Keeps s) :
    ∃ z, execLwait t _rd _ra k x s = .next z ∧ s0.Keeps z := by
  unfold execLwait
  refine ⟨_, rfl, ?_⟩
  repeat' first
    | (with_reducible assumption) | (with_reducible apply State.latchFn_keeps)
    | (with_reducible apply State.signalsAhead_keeps) | (with_reducible apply State.parityCheck_keeps)
    | (with_reducible apply State.waitIn_keeps) | (with_reducible apply State.advance_keeps)
    | (with_reducible apply State.latchConsume_keeps) | (with_reducible apply State.Keeps.ite) | (intro)

theorem execLatchWaitReady_keeps {s0 s : State} (t : Thread) (hk : s0.Keeps s) :
    ∃ z, execLatchWaitReady t s = .next z ∧ s0.Keeps z := by
  unfold execLatchWaitReady
  refine ⟨_, rfl, ?_⟩
  repeat' first
    | (with_reducible assumption) | (with_reducible apply State.signalsAhead_keeps)
    | (with_reducible apply State.parityCheck_keeps) | (with_reducible apply State.resume_keeps)
    | (with_reducible apply State.latchConsume_keeps) | (with_reducible apply State.Keeps.ite) | (intro) | split
    | (dsimp only) | (with_reducible refine State.Keeps.mk' ?_ rfl rfl rfl rfl rfl rfl rfl rfl rfl)

theorem execLtry_keeps {s0 s : State} (t : Thread) (rd : Reg) (_ra : Reg) (k : BitVec 6) (x : BitVec 6) (hk :
    s0.Keeps s) :
    ∃ z, execLtry t rd _ra k x s = .next z ∧ s0.Keeps z := by
  unfold execLtry
  refine ⟨_, rfl, ?_⟩
  repeat' first
    | (with_reducible assumption) | (with_reducible apply State.latchFn_keeps)
    | (with_reducible apply State.signalsAhead_keeps) | (with_reducible apply State.parityCheck_keeps)
    | (with_reducible apply State.advance_keeps) | (with_reducible apply State.setReg_keeps)
    | (with_reducible apply State.latchConsume_keeps) | (with_reducible apply State.Keeps.ite) | (intro)

theorem execLread_keeps {s0 s : State} (t : Thread) (rd : Reg) (_ra : Reg) (k : BitVec 6) (x : BitVec 6) (hk :
    s0.Keeps s) :
    ∃ z, execLread t rd _ra k x s = .next z ∧ s0.Keeps z := by
  unfold execLread
  refine ⟨_, rfl, ?_⟩
  repeat' first
    | (with_reducible assumption) | (with_reducible apply State.latchFn_keeps)
    | (with_reducible apply State.parityCheck_keeps) | (with_reducible apply State.advance_keeps)
    | (with_reducible apply State.setReg_keeps) | (intro)

theorem execQsig_keeps {s0 s : State} (t : Thread) (_rd : Reg) (_ra : Reg) (k : BitVec 6) (x : BitVec 6) (hk :
    s0.Keeps s) :
    ∃ z, execQsig t _rd _ra k x s = .next z ∧ s0.Keeps z := by
  unfold execQsig
  refine ⟨_, rfl, ?_⟩
  repeat' first
    | (with_reducible assumption) | (with_reducible apply State.latchFn_keeps)
    | (with_reducible apply State.enter_keeps) | (intro)

theorem execQwait_keeps {s0 s : State} (t : Thread) (_rd : Reg) (_ra : Reg) (_k : BitVec 6) (x : BitVec 6) (hk :
    s0.Keeps s) :
    ∃ z, execQwait t _rd _ra _k x s = .next z ∧ s0.Keeps z := by
  unfold execQwait
  refine ⟨_, rfl, ?_⟩
  repeat' first
    | (with_reducible assumption) | (with_reducible apply State.ifRun_keeps)
    | (with_reducible apply State.illegal_keeps) | (with_reducible apply State.advance_keeps)
    | (with_reducible apply State.waitIn_keeps) | (with_reducible apply State.Keeps.ite) | (intro)

theorem execQueueWaitDone_keeps {s0 s : State} (t : Thread) (hk : s0.Keeps s) :
    ∃ z, execQueueWaitDone t s = .next z ∧ s0.Keeps z := by
  unfold execQueueWaitDone
  refine ⟨_, rfl, ?_⟩
  repeat' first
    | (with_reducible assumption) | (with_reducible apply State.resume_keeps)
    | (with_reducible apply State.Keeps.ite) | (intro) | split

theorem State.latchHsig_keeps {s0 s : State} (k : Nat) (bank : Nat) (go : Bool) (hk : s0.Keeps s) :
    s0.Keeps (State.latchHsig s k bank go) := by
  unfold State.latchHsig
  repeat' first
    | (with_reducible assumption) | (with_reducible apply State.latchSignal_keeps)
    | (with_reducible apply State.signalsAhead_keeps) | (with_reducible apply State.Keeps.ite) | (intro)
    | (with_reducible refine State.Keeps.mk' ?_ rfl rfl rfl rfl rfl rfl rfl rfl rfl)

theorem State.wdPolicy_keeps {s0 s : State} (ts : List Thread) (hk : s0.Keeps s) :
    s0.Keeps (State.wdPolicy s ts) := by
  unfold State.wdPolicy
  repeat' first
    | (with_reducible assumption) | (with_reducible apply State.stopAtBoundary_keeps)
    | (with_reducible apply State.integrity_keeps) | (with_reducible apply State.Keeps.foldl)
    | (with_reducible apply State.Keeps.ite) | (intro) | split

theorem execWatchdogFire_keeps {s0 s : State} (hk : s0.Keeps s) :
    ∃ z, execWatchdogFire s = .next z ∧ s0.Keeps z := by
  unfold execWatchdogFire
  refine ⟨_, rfl, ?_⟩
  repeat' first
    | (with_reducible assumption) | (with_reducible apply State.wakeAsk_keeps)
    | (with_reducible apply State.irqSet_keeps) | (with_reducible apply State.integrity_keeps)
    | (with_reducible apply State.excPush_keeps) | (with_reducible apply State.modTh_keeps)
    | (with_reducible apply State.wdPolicy_keeps) | (with_reducible apply State.Keeps.foldl)
    | (with_reducible apply State.Keeps.ite) | (intro)
    | (with_reducible refine State.Keeps.mk' ?_ rfl rfl rfl rfl rfl rfl rfl rfl rfl)

end Sys2Proof.Machine
end

