-- ==== Sys2Proof/Laws/KeepsSashSystem.lean ====
section
/-! SUPPORT. No operation of Machine/SashSystem.lean breaks what `State.Keeps` speaks of. -/

namespace Sys2Proof.Machine

theorem State.csrSet_keeps {s0 s : State} (t : Thread) (n : Nat) (v : Word) (hk : s0.Keeps s) :
    s0.Keeps (State.csrSet s t n v) := by
  unfold State.csrSet
  split
  · exact State.modTh_keeps _ _ hk
  · exact State.Keeps.mk' hk rfl rfl rfl rfl rfl rfl rfl rfl rfl
  · exact State.Keeps.mk' hk rfl rfl rfl rfl rfl rfl rfl rfl rfl
  · exact State.Keeps.excLess (x := s) hk rfl rfl rfl (by simp) rfl rfl rfl
  · exact State.modTh_keeps _ _ hk

theorem execCsrr_keeps {s0 s : State} (t : Thread) (rd : Reg) (_ra : Reg) (n : BitVec 12) (hk : s0.Keeps s) :
    ∃ z, execCsrr t rd _ra n s = .next z ∧ s0.Keeps z := by
  unfold execCsrr
  refine ⟨_, rfl, ?_⟩
  repeat' first
    | (with_reducible assumption) | (with_reducible apply State.ifRun_keeps)
    | (with_reducible apply State.advance_keeps) | (with_reducible apply State.setReg_keeps)
    | (with_reducible apply State.illegal_keeps) | (with_reducible apply State.Keeps.ite) | (intro)

theorem State.csrWrite_keeps {s0 s : State} (t : Thread) (rd : Reg) (n : BitVec 12) (old : Bool) (f : Word → Word)
    (hk : s0.Keeps s) :
    s0.Keeps (State.csrWrite s t rd n old f) := by
  unfold State.csrWrite
  repeat' first
    | (with_reducible assumption) | (with_reducible apply State.ifRun_keeps)
    | (with_reducible apply State.csrSet_keeps) | (with_reducible apply State.advance_keeps)
    | (with_reducible apply State.setReg_keeps) | (with_reducible apply State.illegal_keeps)
    | (with_reducible apply State.Keeps.ite) | (intro)

theorem execCsrw_keeps {s0 s : State} (t : Thread) (rd : Reg) (ra : Reg) (n : BitVec 12) (hk : s0.Keeps s) :
    ∃ z, execCsrw t rd ra n s = .next z ∧ s0.Keeps z := by
  unfold execCsrw
  refine ⟨_, rfl, ?_⟩
  repeat' first
    | (with_reducible assumption) | (with_reducible apply State.csrWrite_keeps)

theorem execCsrs_keeps {s0 s : State} (t : Thread) (rd : Reg) (ra : Reg) (n : BitVec 12) (hk : s0.Keeps s) :
    ∃ z, execCsrs t rd ra n s = .next z ∧ s0.Keeps z := by
  unfold execCsrs
  refine ⟨_, rfl, ?_⟩
  repeat' first
    | (with_reducible assumption) | (with_reducible apply State.csrWrite_keeps)

theorem execCsrc_keeps {s0 s : State} (t : Thread) (rd : Reg) (ra : Reg) (n : BitVec 12) (hk : s0.Keeps s) :
    ∃ z, execCsrc t rd ra n s = .next z ∧ s0.Keeps z := by
  unfold execCsrc
  refine ⟨_, rfl, ?_⟩
  repeat' first
    | (with_reducible assumption) | (with_reducible apply State.csrWrite_keeps)

theorem execTrap_keeps {s0 s : State} (t : Thread) (_rd : Reg) (_ra : Reg) (n : BitVec 12) (hk : s0.Keeps s) :
    ∃ z, execTrap t _rd _ra n s = .next z ∧ s0.Keeps z := by
  unfold execTrap
  refine ⟨_, rfl, ?_⟩
  repeat' first
    | (with_reducible assumption) | (with_reducible apply State.ifRun_keeps)
    | (with_reducible apply State.pcAdd_keeps) | (with_reducible apply State.stopExc_keeps) | (intro)

theorem execTend_keeps {s0 s : State} (t : Thread) (_rd : Reg) (_ra : Reg) (_n : BitVec 12) (hk : s0.Keeps s) :
    ∃ z, execTend t _rd _ra _n s = .next z ∧ s0.Keeps z := by
  unfold execTend
  refine ⟨_, rfl, ?_⟩
  repeat' first
    | (with_reducible assumption) | (with_reducible apply State.ifRun_keeps)
    | (with_reducible apply State.endPart_keeps) | (with_reducible apply State.waitIn_keeps)
    | (with_reducible apply State.Keeps.ite) | (intro)

theorem execTendComplete_keeps {s0 s : State} (t : Thread) (hk : s0.Keeps s) :
    ∃ z, execTendComplete t s = .next z ∧ s0.Keeps z := by
  unfold execTendComplete
  refine ⟨_, rfl, ?_⟩
  repeat' first
    | (with_reducible assumption) | (with_reducible apply State.endPart_keeps)
    | (with_reducible apply State.Keeps.ite) | (intro)

theorem execEret_keeps {s0 s : State} (t : Thread) (_rd : Reg) (_ra : Reg) (_n : BitVec 12) (hk : s0.Keeps s) :
    ∃ z, execEret t _rd _ra _n s = .next z ∧ s0.Keeps z := by
  unfold execEret
  refine ⟨_, rfl, ?_⟩
  repeat' first
    | (with_reducible assumption) | (with_reducible apply State.ifRun_keeps)
    | (with_reducible apply State.illegal_keeps) | (with_reducible apply State.modTh_keeps)
    | (with_reducible apply State.goto_keeps) | (with_reducible apply State.Keeps.ite) | (intro)
    | (with_reducible refine State.Keeps.mk' ?_ rfl rfl rfl rfl rfl rfl rfl rfl rfl)

theorem execTstart_keeps {s0 s : State} (t : Thread) (rd : Reg) (ra : Reg) (n : BitVec 12) (hk : s0.Keeps s) :
    ∃ z, execTstart t rd ra n s = .next z ∧ s0.Keeps z := by
  unfold execTstart
  refine ⟨_, rfl, ?_⟩
  repeat' first
    | (with_reducible assumption) | (with_reducible apply State.ifRun_keeps)
    | (with_reducible apply State.illegal_keeps) | (with_reducible apply State.advance_keeps)
    | (with_reducible apply State.setReg_keeps) | (with_reducible apply State.modTh_keeps)
    | (with_reducible apply State.fetchNext_keeps) | (with_reducible apply State.Keeps.ite) | (intro)

theorem execTstop_keeps {s0 s : State} (t : Thread) (_rd : Reg) (_ra : Reg) (n : BitVec 12) (hk : s0.Keeps s) :
    ∃ z, execTstop t _rd _ra n s = .next z ∧ s0.Keeps z := by
  unfold execTstop
  refine ⟨_, rfl, ?_⟩
  repeat' first
    | (with_reducible assumption) | (with_reducible apply State.ifRun_keeps)
    | (with_reducible apply State.illegal_keeps) | (with_reducible apply State.advance_keeps)
    | (with_reducible apply State.stopAtBoundary_keeps) | (with_reducible apply State.Keeps.ite) | (intro)

theorem State.icFlush_keeps {s0 s : State} (hk : s0.Keeps s) :
    s0.Keeps (State.icFlush s) := by
  unfold State.icFlush
  repeat' first
    | (with_reducible assumption) | (with_reducible refine State.Keeps.mk' ?_ rfl rfl rfl rfl rfl rfl rfl rfl rfl)

theorem execFenceI_keeps {s0 s : State} (t : Thread) (_rd : Reg) (_ra : Reg) (_n : BitVec 12) (hk : s0.Keeps s) :
    ∃ z, execFenceI t _rd _ra _n s = .next z ∧ s0.Keeps z := by
  unfold execFenceI
  refine ⟨_, rfl, ?_⟩
  repeat' first
    | (with_reducible assumption) | (with_reducible apply State.ifRun_keeps)
    | (with_reducible apply State.advance_keeps) | (with_reducible apply State.icFlush_keeps) | (intro)

theorem execMfence_keeps {s0 s : State} (t : Thread) (_rd : Reg) (_ra : Reg) (_n : BitVec 12) (hk : s0.Keeps s) :
    ∃ z, execMfence t _rd _ra _n s = .next z ∧ s0.Keeps z := by
  unfold execMfence
  refine ⟨_, rfl, ?_⟩
  repeat' first
    | (with_reducible assumption) | (with_reducible apply State.ifRun_keeps)
    | (with_reducible apply State.advance_keeps) | (with_reducible apply State.waitMem_keeps)
    | (with_reducible apply State.Keeps.ite) | (intro)

theorem execSadv_keeps {s0 s : State} (t : Thread) (_rd : Reg) (_ra : Reg) (_n : BitVec 12) (hk : s0.Keeps s) :
    ∃ z, execSadv t _rd _ra _n s = .next z ∧ s0.Keeps z := by
  unfold execSadv
  refine ⟨_, rfl, ?_⟩
  repeat' first
    | (with_reducible assumption) | (with_reducible apply State.ifRun_keeps)
    | (with_reducible apply State.stopped_keeps) | (with_reducible apply State.replayGo_keeps)
    | (with_reducible apply State.waitIn_keeps) | (with_reducible apply State.advance_keeps)
    | (with_reducible apply State.stepAdvance_keeps) | (with_reducible apply State.Keeps.ite) | (intro)
    | (with_reducible refine State.Keeps.mk' ?_ rfl rfl rfl rfl rfl rfl rfl rfl rfl)

theorem execPostRoom_keeps {s0 s : State} (t : Thread) (hk : s0.Keeps s) :
    ∃ z, execPostRoom t s = .next z ∧ s0.Keeps z := by
  unfold execPostRoom
  refine ⟨_, rfl, ?_⟩
  repeat' first
    | (with_reducible assumption) | (with_reducible apply State.resume_keeps)
    | (with_reducible apply State.stepAdvance_keeps) | (with_reducible apply State.Keeps.ite) | (intro)

theorem State.nChecked_keeps {s0 s : State} (t : Thread) (bad : Bool) (g : State → State) (hg : ∀ y, s0.Keeps y →
    s0.Keeps (g y)) (hk : s0.Keeps s) :
    s0.Keeps (State.nChecked s t bad g) := by
  unfold State.nChecked
  repeat' first
    | (with_reducible assumption) | (with_reducible apply hg) | (with_reducible apply State.ifRun_keeps)
    | (with_reducible apply State.illegal_keeps) | (with_reducible apply State.Keeps.ite) | (intro)

theorem execDfl_keeps {s0 s : State} (t : Thread) (_rd : Reg) (ra : Reg) (n : BitVec 12) (hk : s0.Keeps s) :
    ∃ z, execDfl t _rd ra n s = .next z ∧ s0.Keeps z := by
  unfold execDfl
  refine ⟨_, rfl, ?_⟩
  repeat' first
    | (with_reducible assumption) | (with_reducible apply State.nChecked_keeps)
    | (with_reducible apply State.dcFlush_keeps) | (with_reducible apply State.waitMem_keeps)
    | (with_reducible apply State.advance_keeps) | (with_reducible apply State.Keeps.ite) | (intro)

theorem execLvRd_keeps {s0 s : State} (t : Thread) (rd : Reg) (_ra : Reg) (n : BitVec 12) (u : Upset) (hk : s0.Keeps
    s) :
    ∃ z, execLvRd t rd _ra n u s = .next z ∧ s0.Keeps z := by
  unfold execLvRd
  refine ⟨_, rfl, ?_⟩
  repeat' first
    | (with_reducible assumption) | (with_reducible apply State.nChecked_keeps)
    | (with_reducible apply State.accumCheck_keeps) | (with_reducible apply State.advance_keeps)
    | (with_reducible apply State.setReg_keeps) | (intro)

theorem execLvClr_keeps {s0 s : State} (t : Thread) (_rd : Reg) (_ra : Reg) (n : BitVec 12) (u : Upset) (hk :
    s0.Keeps s) :
    ∃ z, execLvClr t _rd _ra n u s = .next z ∧ s0.Keeps z := by
  unfold execLvClr
  refine ⟨_, rfl, ?_⟩
  repeat' first
    | (with_reducible assumption) | (with_reducible apply State.nChecked_keeps)
    | (with_reducible apply State.accumCheck_keeps) | (with_reducible apply State.advance_keeps)
    | (with_reducible apply State.setAccum_keeps) | (intro)

theorem execHandlerEntry_keeps {s0 s : State} (hk : s0.Keeps s) :
    ∃ z, execHandlerEntry s = .next z ∧ s0.Keeps z := by
  unfold execHandlerEntry
  refine ⟨_, rfl, ?_⟩
  repeat' first
    | (with_reducible assumption) | (with_reducible apply State.modTh_keeps)
    | (with_reducible apply State.goto_keeps) | (with_reducible apply State.Keeps.ite) | (intro)
    | (with_reducible refine State.Keeps.mk' ?_ rfl rfl rfl rfl rfl rfl rfl rfl rfl)

end Sys2Proof.Machine
end

