-- ==== Sys2Proof/Laws/KeepsRegWrite.lean ====
section
/-! SUPPORT. No operation of Machine/RegWrite.lean breaks what `State.Keeps` speaks of. -/

namespace Sys2Proof.Machine

theorem State.dcacheCtl_keeps {s0 s : State} (handle : BitVec 20) (ctx : Bool) (op : BitVec 2) (go : Bool) (hk :
    s0.Keeps s) :
    s0.Keeps (State.dcacheCtl s handle ctx op go) := by
  unfold State.dcacheCtl
  repeat' first
    | (with_reducible assumption) | (with_reducible apply State.modCr_keeps)
    | (with_reducible apply State.goRefused_keeps) | (with_reducible apply State.dcFlush_keeps)
    | (with_reducible apply State.dcFlushAll_keeps) | (with_reducible apply State.Keeps.ite) | (intro) | split

theorem State.lvAccCtl_keeps {s0 s : State} (index : BitVec 5) (ctx : Bool) (op : BitVec 2) (go : Bool) (hk :
    s0.Keeps s) :
    s0.Keeps (State.lvAccCtl s index ctx op go) := by
  unfold State.lvAccCtl
  repeat' first
    | (with_reducible assumption) | (with_reducible apply State.modCr_keeps)
    | (with_reducible apply State.accumCheck_keeps) | (with_reducible apply State.setAccum_keeps)
    | (with_reducible apply State.Keeps.ite) | (intro) | split

theorem State.groupClear_keeps {s0 s : State} (g : Nat) (d : Word) (hk : s0.Keeps s) :
    s0.Keeps (State.groupClear s g d) := by
  unfold State.groupClear
  repeat' first
    | (with_reducible assumption) | (with_reducible apply State.setGroup_keeps)

theorem State.doorbell_keeps {s0 s : State} (code : BitVec 32) (hk : s0.Keeps s) :
    s0.Keeps (State.doorbell s code) := by
  unfold State.doorbell
  repeat' first
    | (with_reducible assumption) | (with_reducible apply State.excPush_keeps)

theorem State.sreset_keeps {s0 s : State} (hk : s0.Keeps s) :
    s0.Keeps (State.sreset s) := by
  unfold State.sreset
  have hi : s0.Keeps { s.modTh .S fun x => { x with state := .idle, wait := .none, stopAsked := false } with
      sash := { s.sash with handler := false } } :=
    State.Keeps.mk' (State.modTh_keeps .S _ hk) rfl rfl rfl rfl rfl rfl rfl rfl rfl
  split
  · exact State.Keeps.excLess hi rfl rfl rfl (Nat.zero_le _) rfl rfl rfl
  · exact hi
  · exact hk

theorem State.sashCtl_keeps {s0 s : State} (iflush : Bool) (sreset : Bool) (stop : BitVec 4) (hk : s0.Keeps s) :
    s0.Keeps (State.sashCtl s iflush sreset stop) := by
  unfold State.sashCtl
  repeat' first
    | (with_reducible assumption) | (with_reducible apply State.icFlush_keeps)
    | (with_reducible apply State.sreset_keeps) | (with_reducible apply State.stopAtBoundary_keeps)
    | (with_reducible apply State.Keeps.foldl) | (with_reducible apply State.Keeps.ite) | (intro)

theorem State.strmAbort_keeps {s0 s : State} (iseq : BitVec 32) (stream : BitVec 2) (queue : BitVec 4) (mode : Bool)
    (go : Bool) (hk : s0.Keeps s) :
    s0.Keeps (State.strmAbort s iseq stream queue mode go) := by
  unfold State.strmAbort
  repeat' first
    | (with_reducible assumption) | (with_reducible apply State.modCr_keeps)
    | (with_reducible apply State.abortGo_keeps) | (with_reducible apply State.Keeps.ite) | (intro)

theorem State.dwLinkCtl_keeps {s0 s : State} (link : BitVec 3) (go : Bool) (hk : s0.Keeps s) :
    s0.Keeps (State.dwLinkCtl s link go) := by
  unfold State.dwLinkCtl
  repeat' first
    | (with_reducible assumption) | (with_reducible apply State.hostReset_keeps)
    | (with_reducible apply State.Keeps.ite) | (intro)
    | (with_reducible refine State.Keeps.mk' ?_ rfl rfl rfl rfl rfl rfl rfl rfl rfl)

theorem State.dwRepoint_keeps {s0 s : State} (x : BitVec 16) (v : BitVec 16) (epoch : BitVec 24) (go : Bool) (hk :
    s0.Keeps s) :
    s0.Keeps (State.dwRepoint s x v epoch go) := by
  unfold State.dwRepoint
  repeat' first
    | (with_reducible assumption) | (with_reducible apply State.repoint_keeps)
    | (with_reducible apply State.Keeps.ite) | (intro)
    | (with_reducible refine State.Keeps.mk' ?_ rfl rfl rfl rfl rfl rfl rfl rfl rfl)

theorem State.writeEngine_keeps {s0 s : State} (r : HReg) (d : Word) (hk : s0.Keeps s) :
    s0.Keeps (State.writeEngine s r d) := by
  unfold State.writeEngine
  repeat' first
    | (with_reducible assumption) | (with_reducible apply State.dcacheCtl_keeps)
    | (with_reducible apply State.modCr_keeps) | (with_reducible apply State.modEr_keeps)
    | (with_reducible apply State.lvAccCtl_keeps) | (with_reducible apply State.groupClear_keeps)
    | (with_reducible apply State.Keeps.ite) | (intro) | split

theorem State.writeControl_keeps {s0 s : State} (r : HReg) (d : Word) (hk : s0.Keeps s) :
    s0.Keeps (State.writeControl s r d) := by
  unfold State.writeControl
  repeat' first
    | (with_reducible assumption) | (with_reducible apply State.doorbell_keeps)
    | (with_reducible apply State.sashCtl_keeps) | (with_reducible apply State.modCr_keeps)
    | (with_reducible apply State.strmAbort_keeps) | (with_reducible apply State.latchHsig_keeps)
    | (with_reducible apply State.frameCtl_keeps) | (with_reducible apply State.Keeps.ite) | (intro) | split
    | (dsimp only) | (with_reducible refine State.Keeps.mk' ?_ rfl rfl rfl rfl rfl rfl rfl rfl rfl)

theorem State.writePort_keeps {s0 s : State} (r : HReg) (d : Word) (hk : s0.Keeps s) :
    s0.Keeps (State.writePort s r d) := by
  unfold State.writePort
  repeat' first
    | (with_reducible assumption) | (with_reducible apply State.dwLinkCtl_keeps)
    | (with_reducible apply State.dwRepoint_keeps) | (with_reducible apply State.Keeps.ite) | (intro) | split
    | (dsimp only) | (with_reducible refine State.Keeps.mk' ?_ rfl rfl rfl rfl rfl rfl rfl rfl rfl)

theorem State.hatchCtl_keeps {s0 s : State} (d : Word) (hk : s0.Keeps s) :
    s0.Keeps (State.hatchCtl s d) := by
  unfold State.hatchCtl
  repeat' first
    | (with_reducible assumption) | (with_reducible apply State.Keeps.ite) | (intro)
    | (with_reducible refine State.Keeps.mk' ?_ rfl rfl rfl rfl rfl rfl rfl rfl rfl)

theorem State.writeSystem_keeps {s0 s : State} (r : HReg) (d : Word) (hk : s0.Keeps s) :
    s0.Keeps (State.writeSystem s r d) := by
  unfold State.writeSystem
  repeat' first
    | (with_reducible assumption) | (with_reducible apply State.clkCtl_keeps)
    | (with_reducible apply State.pwrCtl_keeps) | (with_reducible apply State.shutterSet_keeps)
    | (with_reducible apply State.modPlane_keeps) | (with_reducible apply State.replayArm_keeps)
    | (with_reducible apply State.ckptCtl_keeps) | (with_reducible apply State.adopt_keeps)
    | (with_reducible apply State.hatchCtl_keeps) | exact fun _ k => k | (intro _ k; cases k; done)
    | (with_reducible apply State.Keeps.ite) | (intro) | split | (dsimp only)
    | (with_reducible refine State.Keeps.mk' ?_ rfl rfl rfl rfl rfl rfl rfl rfl rfl)

theorem State.regWrite_keeps {s0 s : State} (r : HReg) (d : Word) (hk : s0.Keeps s) :
    s0.Keeps (State.regWrite s r d) := by
  unfold State.regWrite
  repeat' first
    | (with_reducible assumption) | (with_reducible apply State.writeSystem_keeps)
    | (with_reducible apply State.writePort_keeps) | (with_reducible apply State.writeControl_keeps)
    | (with_reducible apply State.writeEngine_keeps)

end Sys2Proof.Machine
end

