-- ==== Sys2Proof/Laws/KeepsHinge.lean ====
section
/-! SUPPORT. No operation of Machine/Hinge.lean breaks what `State.Keeps` speaks of. -/

namespace Sys2Proof.Machine

theorem State.hgCount_keeps {s0 s : State} (code : BitVec 2) (hk : s0.Keeps s) :
    s0.Keeps (State.hgCount s code) := by
  unfold State.hgCount
  repeat' first
    | (with_reducible assumption) | (with_reducible apply State.hgDenied_keeps) | split | (dsimp only)
    | (with_reducible refine State.Keeps.mk' ?_ rfl rfl rfl rfl rfl rfl rfl rfl rfl)

theorem State.hgQueue_keeps {s0 s : State} (m : HgMeta) (rdata : Word) (code : BitVec 2) (done : Bool) (hk : s0.Keeps
    s) :
    s0.Keeps (State.hgQueue s m rdata code done) := by
  unfold State.hgQueue
  repeat' first
    | (with_reducible assumption) | (with_reducible apply State.hgFlush_keeps)
    | (with_reducible refine State.Keeps.mk' ?_ rfl rfl rfl rfl rfl rfl rfl rfl rfl)

theorem State.hgRsp_keeps {s0 s : State} (m : HgMeta) (rdata : Word) (code : BitVec 2) (hk : s0.Keeps s) :
    s0.Keeps (State.hgRsp s m rdata code) := by
  unfold State.hgRsp
  repeat' first
    | (with_reducible assumption) | (with_reducible apply State.hgQueue_keeps)
    | (with_reducible apply State.hgCount_keeps)

theorem State.regWake_keeps {s0 s : State} (r : HReg) (hk : s0.Keeps s) :
    s0.Keeps (State.regWake s r) := by
  unfold State.regWake
  repeat' first
    | (with_reducible assumption) | (with_reducible apply State.wakeAsk_keeps)
    | (with_reducible apply State.Keeps.ite) | (intro) | split

theorem State.lintelReq_keeps {s0 s : State} (m : HgMeta) (i : Nat) (d : Word) (hk : s0.Keeps s) :
    s0.Keeps (State.lintelReq s m i d) := by
  unfold State.lintelReq
  repeat' first
    | (with_reducible assumption) | (with_reducible apply State.hgRsp_keeps)
    | (with_reducible apply State.ltDeny_keeps) | (with_reducible apply State.hgQueue_keeps)
    | (with_reducible apply State.ltSend_keeps) | split

theorem State.rwdDenied_keeps {s0 s : State} (m : HgMeta) (hk : s0.Keeps s) :
    s0.Keeps (State.rwdDenied s m) := by
  unfold State.rwdDenied
  repeat' first
    | (with_reducible assumption) | (with_reducible apply State.hgRsp_keeps)
    | (with_reducible apply State.ltIrq_keeps)
    | (with_reducible refine State.Keeps.mk' ?_ rfl rfl rfl rfl rfl rfl rfl rfl rfl)

theorem State.hgWrite_keeps {s0 s : State} (m : HgMeta) (r : HReg) (d : Word) (hk : s0.Keeps s) :
    s0.Keeps (State.hgWrite s m r d) := by
  unfold State.hgWrite
  repeat' first
    | (with_reducible assumption) | (with_reducible apply State.lintelReq_keeps)
    | (with_reducible apply State.rwdDenied_keeps) | (with_reducible apply State.hgRsp_keeps)
    | (with_reducible apply State.regWrite_keeps) | (with_reducible apply State.Keeps.ite) | (intro) | split

theorem State.hgRequest_keeps {s0 s : State} (m : HgMeta) (off : Nat) (data : Option Word) (hk : s0.Keeps s) :
    s0.Keeps (State.hgRequest s m off data) := by
  unfold State.hgRequest
  repeat' first
    | (with_reducible assumption) | (with_reducible apply State.hgFlush_keeps)
    | (with_reducible apply State.hgRsp_keeps) | (with_reducible apply State.regWake_keeps)
    | (with_reducible apply State.shutAccess_keeps) | (with_reducible apply State.hgWrite_keeps)
    | (with_reducible apply State.Keeps.ite) | (intro) | split | (dsimp only)
    | (with_reducible refine State.Keeps.mk' ?_ rfl rfl rfl rfl rfl rfl rfl rfl rfl)

theorem execHingeRegisterWrite_keeps {s0 s : State} (h : HgMeta) (off : BitVec 21) (data : Word) (hk : s0.Keeps s) :
    ∃ z, execHingeRegisterWrite h off data s = .next z ∧ s0.Keeps z := by
  unfold execHingeRegisterWrite
  refine ⟨_, rfl, ?_⟩
  repeat' first
    | (with_reducible assumption) | (with_reducible apply State.hgRequest_keeps)

theorem execHingeRegisterRead_keeps {s0 s : State} (h : HgMeta) (off : BitVec 21) (hk : s0.Keeps s) :
    ∃ z, execHingeRegisterRead h off s = .next z ∧ s0.Keeps z := by
  unfold execHingeRegisterRead
  refine ⟨_, rfl, ?_⟩
  repeat' first
    | (with_reducible assumption) | (with_reducible apply State.hgRequest_keeps)

theorem execDcacheFlushHandle_keeps {s0 s : State} (h : HgMeta) (handle : BitVec 20) (ctx : Fin 2) (hk : s0.Keeps s) :
    ∃ z, execDcacheFlushHandle h handle ctx s = .next z ∧ s0.Keeps z := by
  unfold execDcacheFlushHandle
  refine ⟨_, rfl, ?_⟩
  repeat' first
    | (with_reducible assumption) | (with_reducible apply State.hgRequest_keeps)

theorem execDcacheFlushContext_keeps {s0 s : State} (h : HgMeta) (ctx : Fin 2) (hk : s0.Keeps s) :
    ∃ z, execDcacheFlushContext h ctx s = .next z ∧ s0.Keeps z := by
  unfold execDcacheFlushContext
  refine ⟨_, rfl, ?_⟩
  repeat' first
    | (with_reducible assumption) | (with_reducible apply State.hgRequest_keeps)

theorem execLvAccRead_keeps {s0 s : State} (h : HgMeta) (index : BitVec 5) (ctx : Fin 2) (hk : s0.Keeps s) :
    ∃ z, execLvAccRead h index ctx s = .next z ∧ s0.Keeps z := by
  unfold execLvAccRead
  refine ⟨_, rfl, ?_⟩
  repeat' first
    | (with_reducible assumption) | (with_reducible apply State.hgRequest_keeps)

theorem execLvAccClear_keeps {s0 s : State} (h : HgMeta) (index : BitVec 5) (ctx : Fin 2) (hk : s0.Keeps s) :
    ∃ z, execLvAccClear h index ctx s = .next z ∧ s0.Keeps z := by
  unfold execLvAccClear
  refine ⟨_, rfl, ?_⟩
  repeat' first
    | (with_reducible assumption) | (with_reducible apply State.hgRequest_keeps)

theorem execSashDoorbell_keeps {s0 s : State} (h : HgMeta) (code : BitVec 32) (hk : s0.Keeps s) :
    ∃ z, execSashDoorbell h code s = .next z ∧ s0.Keeps z := by
  unfold execSashDoorbell
  refine ⟨_, rfl, ?_⟩
  repeat' first
    | (with_reducible assumption) | (with_reducible apply State.hgRequest_keeps)

theorem execIflush_keeps {s0 s : State} (h : HgMeta) (hk : s0.Keeps s) :
    ∃ z, execIflush h s = .next z ∧ s0.Keeps z := by
  unfold execIflush
  refine ⟨_, rfl, ?_⟩
  repeat' first
    | (with_reducible assumption) | (with_reducible apply State.hgRequest_keeps)

theorem execSreset_keeps {s0 s : State} (h : HgMeta) (hk : s0.Keeps s) :
    ∃ z, execSreset h s = .next z ∧ s0.Keeps z := by
  unfold execSreset
  refine ⟨_, rfl, ?_⟩
  repeat' first
    | (with_reducible assumption) | (with_reducible apply State.hgRequest_keeps)

theorem execStop_keeps {s0 s : State} (h : HgMeta) (t : Thread) (hk : s0.Keeps s) :
    ∃ z, execStop h t s = .next z ∧ s0.Keeps z := by
  unfold execStop
  refine ⟨_, rfl, ?_⟩
  repeat' first
    | (with_reducible assumption) | (with_reducible apply State.hgRequest_keeps)

theorem execStrmAbortEntry_keeps {s0 s : State} (h : HgMeta) (t : Thread) (q : BitVec 4) (iseq : BitVec 32) (hk :
    s0.Keeps s) :
    ∃ z, execStrmAbortEntry h t q iseq s = .next z ∧ s0.Keeps z := by
  unfold execStrmAbortEntry
  refine ⟨_, rfl, ?_⟩
  repeat' first
    | (with_reducible assumption) | (with_reducible apply State.hgRequest_keeps)

theorem execStrmAbortStream_keeps {s0 s : State} (h : HgMeta) (t : Thread) (q : BitVec 4) (hk : s0.Keeps s) :
    ∃ z, execStrmAbortStream h t q s = .next z ∧ s0.Keeps z := by
  unfold execStrmAbortStream
  refine ⟨_, rfl, ?_⟩
  repeat' first
    | (with_reducible assumption) | (with_reducible apply State.hgRequest_keeps)

theorem execLatchHsig_keeps {s0 s : State} (h : HgMeta) (k : BitVec 6) (bank : Fin 2) (hk : s0.Keeps s) :
    ∃ z, execLatchHsig h k bank s = .next z ∧ s0.Keeps z := by
  unfold execLatchHsig
  refine ⟨_, rfl, ?_⟩
  repeat' first
    | (with_reducible assumption) | (with_reducible apply State.hgRequest_keeps)

theorem execFrameStage_keeps {s0 s : State} (h : HgMeta) (len : BitVec 17) (hk : s0.Keeps s) :
    ∃ z, execFrameStage h len s = .next z ∧ s0.Keeps z := by
  unfold execFrameStage
  refine ⟨_, rfl, ?_⟩
  repeat' first
    | (with_reducible assumption) | (with_reducible apply State.hgRequest_keeps)

theorem execFrameCommit_keeps {s0 s : State} (h : HgMeta) (wait : Bool) (slot : Fin 2) (hk : s0.Keeps s) :
    ∃ z, execFrameCommit h wait slot s = .next z ∧ s0.Keeps z := by
  unfold execFrameCommit
  refine ⟨_, rfl, ?_⟩
  repeat' first
    | (with_reducible assumption) | (with_reducible apply State.hgRequest_keeps)

theorem execFrameDiscard_keeps {s0 s : State} (h : HgMeta) (slot : Fin 2) (hk : s0.Keeps s) :
    ∃ z, execFrameDiscard h slot s = .next z ∧ s0.Keeps z := by
  unfold execFrameDiscard
  refine ⟨_, rfl, ?_⟩
  repeat' first
    | (with_reducible assumption) | (with_reducible apply State.hgRequest_keeps)

theorem execFrameForceEnd_keeps {s0 s : State} (h : HgMeta) (slot : Fin 2) (hk : s0.Keeps s) :
    ∃ z, execFrameForceEnd h slot s = .next z ∧ s0.Keeps z := by
  unfold execFrameForceEnd
  refine ⟨_, rfl, ?_⟩
  repeat' first
    | (with_reducible assumption) | (with_reducible apply State.hgRequest_keeps)

theorem execHostLinkReset_keeps {s0 s : State} (h : HgMeta) (link : BitVec 3) (hk : s0.Keeps s) :
    ∃ z, execHostLinkReset h link s = .next z ∧ s0.Keeps z := by
  unfold execHostLinkReset
  refine ⟨_, rfl, ?_⟩
  repeat' first
    | (with_reducible assumption) | (with_reducible apply State.hgRequest_keeps)

theorem execDwRepoint_keeps {s0 s : State} (h : HgMeta) (x : BitVec 16) (v : BitVec 16) (epoch : BitVec 24) (hk :
    s0.Keeps s) :
    ∃ z, execDwRepoint h x v epoch s = .next z ∧ s0.Keeps z := by
  unfold execDwRepoint
  refine ⟨_, rfl, ?_⟩
  repeat' first
    | (with_reducible assumption) | (with_reducible apply State.hgRequest_keeps)

theorem execClkSelect_keeps {s0 s : State} (h : HgMeta) (src : Source) (hk : s0.Keeps s) :
    ∃ z, execClkSelect h src s = .next z ∧ s0.Keeps z := by
  unfold execClkSelect
  refine ⟨_, rfl, ?_⟩
  repeat' first
    | (with_reducible assumption) | (with_reducible apply State.hgRequest_keeps)

theorem execPwrRequest_keeps {s0 s : State} (h : HgMeta) (pt : BitVec 3) (hk : s0.Keeps s) :
    ∃ z, execPwrRequest h pt s = .next z ∧ s0.Keeps z := by
  unfold execPwrRequest
  refine ⟨_, rfl, ?_⟩
  repeat' first
    | (with_reducible assumption) | (with_reducible apply State.hgRequest_keeps)

theorem execShutterWrite_keeps {s0 s : State} (h : HgMeta) (sill : Bool) (transom : Bool) (near : Bool) (far : Bool)
    (hk : s0.Keeps s) :
    ∃ z, execShutterWrite h sill transom near far s = .next z ∧ s0.Keeps z := by
  unfold execShutterWrite
  refine ⟨_, rfl, ?_⟩
  repeat' first
    | (with_reducible assumption) | (with_reducible apply State.hgRequest_keeps)

theorem execQueueRelease_keeps {s0 s : State} (h : HgMeta) (mask : BitVec 11) (hk : s0.Keeps s) :
    ∃ z, execQueueRelease h mask s = .next z ∧ s0.Keeps z := by
  unfold execQueueRelease
  refine ⟨_, rfl, ?_⟩
  repeat' first
    | (with_reducible assumption) | (with_reducible apply State.hgRequest_keeps)

theorem execReplayArm_keeps {s0 s : State} (h : HgMeta) (step : BitVec 32) (hk : s0.Keeps s) :
    ∃ z, execReplayArm h step s = .next z ∧ s0.Keeps z := by
  unfold execReplayArm
  refine ⟨_, rfl, ?_⟩
  repeat' first
    | (with_reducible assumption) | (with_reducible apply State.hgRequest_keeps)

theorem execCheckpointSave_keeps {s0 s : State} (h : HgMeta) (slot : Fin 2) (hk : s0.Keeps s) :
    ∃ z, execCheckpointSave h slot s = .next z ∧ s0.Keeps z := by
  unfold execCheckpointSave
  refine ⟨_, rfl, ?_⟩
  repeat' first
    | (with_reducible assumption) | (with_reducible apply State.hgRequest_keeps)

theorem execCheckpointRestore_keeps {s0 s : State} (h : HgMeta) (slot : Fin 2) (hk : s0.Keeps s) :
    ∃ z, execCheckpointRestore h slot s = .next z ∧ s0.Keeps z := by
  unfold execCheckpointRestore
  refine ⟨_, rfl, ?_⟩
  repeat' first
    | (with_reducible assumption) | (with_reducible apply State.hgRequest_keeps)

theorem execNodeAdopt_keeps {s0 s : State} (h : HgMeta) (node : BitVec 16) (hk : s0.Keeps s) :
    ∃ z, execNodeAdopt h node s = .next z ∧ s0.Keeps z := by
  unfold execNodeAdopt
  refine ⟨_, rfl, ?_⟩
  repeat' first
    | (with_reducible assumption) | (with_reducible apply State.hgRequest_keeps)

theorem execHatchRequest_keeps {s0 s : State} (h : HgMeta) (hk : s0.Keeps s) :
    ∃ z, execHatchRequest h s = .next z ∧ s0.Keeps z := by
  unfold execHatchRequest
  refine ⟨_, rfl, ?_⟩
  repeat' first
    | (with_reducible assumption) | (with_reducible apply State.hgRequest_keeps)

theorem execLintelWrite_keeps {s0 s : State} (h : HgMeta) (index : BitVec 8) (data : Word) (hk : s0.Keeps s) :
    ∃ z, execLintelWrite h index data s = .next z ∧ s0.Keeps z := by
  unfold execLintelWrite
  refine ⟨_, rfl, ?_⟩
  repeat' first
    | (with_reducible assumption) | (with_reducible apply State.hgRequest_keeps)

end Sys2Proof.Machine
end

