-- ==== Sys2Proof/Laws/KeepsTick.lean ====
section
/-! SUPPORT. No operation of Machine/Tick.lean breaks what `State.Keeps` speaks of. -/

namespace Sys2Proof.Machine

theorem State.timerTick_keeps {s0 s : State} (t : Thread) (hk : s0.Keeps s) :
    s0.Keeps (State.timerTick s t) := by
  unfold State.timerTick
  repeat' first
    | (with_reducible assumption) | (with_reducible apply State.modTh_keeps)
    | (with_reducible apply State.Keeps.ite) | (intro)

theorem State.linkTick_keeps {s0 s : State} (l : Nat) (hk : s0.Keeps s) :
    s0.Keeps (State.linkTick s l) := by
  unfold State.linkTick
  repeat' first
    | (with_reducible assumption) | (with_reducible apply State.modLink_keeps)

theorem State.idleTick_keeps {s0 s : State} (p : Nat) (hk : s0.Keeps s) :
    s0.Keeps (State.idleTick s p) := by
  unfold State.idleTick
  repeat' first
    | (with_reducible assumption) | (with_reducible apply State.modEngine_keeps)

theorem State.powerTick_keeps {s0 s : State} (hk : s0.Keeps s) :
    s0.Keeps (State.powerTick s) := by
  unfold State.powerTick
  repeat' first
    | (with_reducible assumption) | (with_reducible apply State.Keeps.ite) | (intro)
    | (with_reducible refine State.Keeps.mk' ?_ rfl rfl rfl rfl rfl rfl rfl rfl rfl)

theorem State.portTick_keeps {s0 s : State} (hk : s0.Keeps s) :
    s0.Keeps (State.portTick s) := by
  unfold State.portTick
  repeat' first
    | (with_reducible assumption) | (with_reducible apply State.draw_keeps)
    | (with_reducible apply State.Keeps.ite) | (intro)
    | (with_reducible refine State.Keeps.mk' ?_ rfl rfl rfl rfl rfl rfl rfl rfl rfl)

theorem State.lintelTick_keeps {s0 s : State} (hk : s0.Keeps s) :
    s0.Keeps (State.lintelTick s) := by
  unfold State.lintelTick
  repeat' first
    | (with_reducible assumption) | (with_reducible apply State.portTick_keeps)
    | (with_reducible refine State.Keeps.mk' ?_ rfl rfl rfl rfl rfl rfl rfl rfl rfl)

theorem State.aonTick_keeps {s0 s : State} (hk : s0.Keeps s) :
    s0.Keeps (State.aonTick s) := by
  unfold State.aonTick
  refine State.lintelTick_keeps (State.powerTick_keeps (State.Keeps.foldl (fun _ _ => State.idleTick_keeps _)
    (State.Keeps.foldl (fun _ _ => State.linkTick_keeps _) ?_)))
  have ht : s0.Keeps (allThreads.foldl State.timerTick
      { s with time := { s.time with aonTime := s.time.aonTime + 1, bootTicks := s.time.bootTicks + 1 } }) :=
    State.Keeps.foldl (fun _ _ => State.timerTick_keeps _) (State.Keeps.mk' hk rfl rfl rfl rfl rfl rfl rfl rfl rfl)
  exact ht.retag rfl rfl rfl rfl rfl rfl
    (fun k => by simpa only [List.map_map, Function.comp_def] using k) rfl rfl

theorem State.slotCycle_keeps {s0 s : State} (r : MulRec) (hk : s0.Keeps s) :
    s0.Keeps (State.slotCycle s r) := by
  unfold State.slotCycle
  repeat' first
    | (with_reducible assumption) | (with_reducible apply State.modEngine_keeps)
    | (with_reducible apply State.Keeps.ite) | (intro) | split

theorem State.weaveTick_keeps {s0 s : State} (hk : s0.Keeps s) :
    s0.Keeps (State.weaveTick s) := by
  unfold State.weaveTick
  repeat' first
    | (with_reducible assumption) | (with_reducible refine State.Keeps.mk' ?_ rfl rfl rfl rfl rfl rfl rfl rfl rfl)

theorem State.ageTick_keeps {s0 s : State} (hk : s0.Keeps s) :
    s0.Keeps (State.ageTick s) := by
  unfold State.ageTick
  repeat' first
    | (with_reducible assumption) | (with_reducible apply State.Keeps.ite) | (intro)
    | (with_reducible refine State.Keeps.mk' ?_ rfl rfl rfl rfl rfl rfl rfl rfl rfl)

theorem State.skipTick_keeps {s0 s : State} (hk : s0.Keeps s) :
    s0.Keeps (State.skipTick s) := by
  unfold State.skipTick
  repeat' first
    | (with_reducible assumption) | (with_reducible apply State.entryDone_keeps)
    | (with_reducible apply State.Keeps.foldl) | (intro)
    | (with_reducible refine State.Keeps.mk' ?_ rfl rfl rfl rfl rfl rfl rfl rfl rfl)

theorem State.casWaitTick_keeps {s0 s : State} (hk : s0.Keeps s) :
    s0.Keeps (State.casWaitTick s) := by
  unfold State.casWaitTick
  repeat' first
    | (with_reducible assumption) | (with_reducible apply State.modEr_keeps)
    | (with_reducible apply State.draw_keeps) | (with_reducible apply State.Keeps.ite) | (intro) | split

theorem State.cycleEnd_keeps {s0 s : State} (hk : s0.Keeps s) :
    s0.Keeps (State.cycleEnd s) := by
  unfold State.cycleEnd
  repeat' first
    | (with_reducible assumption) | (with_reducible refine State.Keeps.mk' ?_ rfl rfl rfl rfl rfl rfl rfl rfl rfl)

theorem State.ungate_keeps {s0 s : State} (hk : s0.Keeps s) :
    s0.Keeps (State.ungate s) := by
  unfold State.ungate
  repeat' first
    | (with_reducible assumption) | (with_reducible apply State.Keeps.ite) | (intro)
    | (with_reducible refine State.Keeps.mk' ?_ rfl rfl rfl rfl rfl rfl rfl rfl rfl)

theorem State.aclkCycle_keeps {s0 s : State} (hk : s0.Keeps s) :
    s0.Keeps (State.aclkCycle s) := by
  unfold State.aclkCycle
  repeat' first
    | (with_reducible assumption) | (with_reducible apply State.cycleEnd_keeps)
    | (with_reducible apply State.casWaitTick_keeps) | (with_reducible apply State.slotCycle_keeps)
    | (with_reducible apply State.replayGo_keeps) | (with_reducible apply State.ungate_keeps)
    | (with_reducible apply State.skipTick_keeps) | (with_reducible apply State.holdTick_keeps)
    | (with_reducible apply State.ageTick_keeps) | (with_reducible apply State.weaveTick_keeps)
    | (with_reducible apply State.Keeps.foldl)

theorem State.tick_keeps {s0 s : State} (hk : s0.Keeps s) :
    s0.Keeps (State.tick s) := by
  unfold State.tick
  repeat' first
    | (with_reducible assumption) | (with_reducible apply State.aonTick_keeps)
    | (with_reducible apply State.aclkCycle_keeps) | (with_reducible apply State.Keeps.ite) | (intro)
    | (with_reducible refine State.Keeps.mk' ?_ rfl rfl rfl rfl rfl rfl rfl rfl rfl)

end Sys2Proof.Machine
end

