-- ==== Sys2Proof/Laws/KeepsStep.lean ====
section
/-! SUPPORT. No command and no tick breaks what `State.Keeps` speaks of, and every command answers a next state. -/

namespace Sys2Proof.Machine

/-- A command answers a next state and breaks none of it. -/
theorem exec_keeps {s0 s : State} (i : Instr) (hk : s0.Keeps s) : ∃ z, exec i s = .next z ∧ s0.Keeps z := by
  cases i with
  | op t rd ra rb fn u => exact execOp_keeps t rd ra rb fn u hk
  | addi t rd ra imm => exact execAddi_keeps t rd ra imm hk
  | andi t rd ra imm => exact execAndi_keeps t rd ra imm hk
  | ori t rd ra imm => exact execOri_keeps t rd ra imm hk
  | xori t rd ra imm => exact execXori_keeps t rd ra imm hk
  | slti t rd ra imm => exact execSlti_keeps t rd ra imm hk
  | sltiu t rd ra imm => exact execSltiu_keeps t rd ra imm hk
  | shi t rd ra imm => exact execShi_keeps t rd ra imm hk
  | movi t rd ra imm => exact execMovi_keeps t rd ra imm hk
  | ins16 t rd ra imm => exact execIns16_keeps t rd ra imm hk
  | fp t rd ra rb rc fn u => exact execFp_keeps t rd ra rb rc fn u hk
  | lb t rd ra imm u => exact execLb_keeps t rd ra imm u hk
  | lbu t rd ra imm u => exact execLbu_keeps t rd ra imm u hk
  | lh t rd ra imm u => exact execLh_keeps t rd ra imm u hk
  | lhu t rd ra imm u => exact execLhu_keeps t rd ra imm u hk
  | lw t rd ra imm u => exact execLw_keeps t rd ra imm u hk
  | lwu t rd ra imm u => exact execLwu_keeps t rd ra imm u hk
  | ld t rd ra imm u => exact execLd_keeps t rd ra imm u hk
  | sb t rd ra imm u => exact execSb_keeps t rd ra imm u hk
  | sh t rd ra imm u => exact execSh_keeps t rd ra imm u hk
  | sw t rd ra imm u => exact execSw_keeps t rd ra imm u hk
  | sd t rd ra imm u => exact execSd_keeps t rd ra imm u hk
  | amo t rd ra rb rc fn => exact execAmo_keeps t rd ra rb rc fn hk
  | mld t rd ra imm => exact execMld_keeps t rd ra imm hk
  | mst t rd ra imm => exact execMst_keeps t rd ra imm hk
  | beq t ra rb off => exact execBeq_keeps t ra rb off hk
  | bne t ra rb off => exact execBne_keeps t ra rb off hk
  | blt t ra rb off => exact execBlt_keeps t ra rb off hk
  | bge t ra rb off => exact execBge_keeps t ra rb off hk
  | bltu t ra rb off => exact execBltu_keeps t ra rb off hk
  | bgeu t ra rb off => exact execBgeu_keeps t ra rb off hk
  | jal t off => exact execJal_keeps t off hk
  | jalr t rd ra imm => exact execJalr_keeps t rd ra imm hk
  | csrr t rd ra n => exact execCsrr_keeps t rd ra n hk
  | csrw t rd ra n => exact execCsrw_keeps t rd ra n hk
  | csrs t rd ra n => exact execCsrs_keeps t rd ra n hk
  | csrc t rd ra n => exact execCsrc_keeps t rd ra n hk
  | trap t rd ra n => exact execTrap_keeps t rd ra n hk
  | tend t rd ra n => exact execTend_keeps t rd ra n hk
  | tendComplete t => exact execTendComplete_keeps t hk
  | eret t rd ra n => exact execEret_keeps t rd ra n hk
  | tstart t rd ra n => exact execTstart_keeps t rd ra n hk
  | tstop t rd ra n => exact execTstop_keeps t rd ra n hk
  | fenceI t rd ra n => exact execFenceI_keeps t rd ra n hk
  | mfence t rd ra n => exact execMfence_keeps t rd ra n hk
  | sadv t rd ra n => exact execSadv_keeps t rd ra n hk
  | postRoom t => exact execPostRoom_keeps t hk
  | dfl t rd ra n => exact execDfl_keeps t rd ra n hk
  | lvRd t rd ra n u => exact execLvRd_keeps t rd ra n u hk
  | lvClr t rd ra n u => exact execLvClr_keeps t rd ra n u hk
  | lsig t rd ra k x u => exact execLsig_keeps t rd ra k x u hk
  | lwait t rd ra k x => exact execLwait_keeps t rd ra k x hk
  | latchWaitReady t => exact execLatchWaitReady_keeps t hk
  | ltry t rd ra k x => exact execLtry_keeps t rd ra k x hk
  | lread t rd ra k x => exact execLread_keeps t rd ra k x hk
  | qsig t rd ra k x => exact execQsig_keeps t rd ra k x hk
  | qwait t rd ra k x => exact execQwait_keeps t rd ra k x hk
  | queueWaitDone t => exact execQueueWaitDone_keeps t hk
  | laneRoom t => exact execLaneRoom_keeps t hk
  | latMM t rd ra lat ef => exact execLatMM_keeps t rd ra lat ef hk
  | latMMQ t rd ra lat ef => exact execLatMMQ_keeps t rd ra lat ef hk
  | casw t rd ra lat ef words => exact execCasw_keeps t rd ra lat ef words hk
  | trnRelayout t rd ra lat ef => exact execTrnRelayout_keeps t rd ra lat ef hk
  | trnTranspose t rd ra lat ef => exact execTrnTranspose_keeps t rd ra lat ef hk
  | sillSpill t rd ra lat ef => exact execSillSpill_keeps t rd ra lat ef hk
  | sillDrain t rd ra lat ef => exact execSillDrain_keeps t rd ra lat ef hk
  | xferCopy t rd ra lat ef => exact execXferCopy_keeps t rd ra lat ef hk
  | updSsq t rd ra lat ef => exact execUpdSsq_keeps t rd ra lat ef hk
  | dwPut t rd ra lat ef => exact execDwPut_keeps t rd ra lat ef hk
  | dwPutFetch t rd ra lat ef => exact execDwPutFetch_keeps t rd ra lat ef hk
  | dwRed t rd ra lat ef => exact execDwRed_keeps t rd ra lat ef hk
  | updApply t rd ra lat ef => exact execUpdApply_keeps t rd ra lat ef hk
  | updAdv t rd ra lat ef => exact execUpdAdv_keeps t rd ra lat ef hk
  | updNorm t rd ra lat ef => exact execUpdNorm_keeps t rd ra lat ef hk
  | updRoot t rd ra lat ef => exact execUpdRoot_keeps t rd ra lat ef hk
  | updRearm t rd ra lat ef => exact execUpdRearm_keeps t rd ra lat ef hk
  | handlerEntry => exact execHandlerEntry_keeps hk
  | weaveStart q u => exact execWeaveStart_keeps q u hk
  | openWovenStart q u => exact execOpenWovenStart_keeps q u hk
  | vectorSlot p rank ready u => exact execVectorSlot_keeps p rank ready u hk
  | blockCompletion p rank m n flip u => exact execBlockCompletion_keeps p rank m n flip u hk
  | latticeDrain p rank u => exact execLatticeDrain_keeps p rank u hk
  | casementOperationStart u => exact execCasementOperationStart_keeps u hk
  | casementPortAccess u => exact execCasementPortAccess_keeps u hk
  | casementUnitComplete => exact execCasementUnitComplete_keeps hk
  | idleReplay u => exact execIdleReplay_keeps u hk
  | transomComplete u => exact execTransomComplete_keeps u hk
  | sillReadOut u => exact execSillReadOut_keeps u hk
  | completion q t => exact execCompletion_keeps q t hk
  | rootIterationCheck t => exact execRootIterationCheck_keeps t hk
  | cutPoint q t => exact execCutPoint_keeps q t hk
  | remoteSignalApply link src tag => exact execRemoteSignalApply_keeps link src tag hk
  | jambRequestIssue tag u => exact execJambRequestIssue_keeps tag u hk
  | jbRResponse tag data code u => exact execJbRResponse_keeps tag data code u hk
  | jbBResponse tag code => exact execJbBResponse_keeps tag code hk
  | tagTimeout tag => exact execTagTimeout_keeps tag hk
  | packetTransmit link tag => exact execPacketTransmit_keeps link tag hk
  | rspAck link w => exact execRspAck_keeps link w hk
  | rspData link w => exact execRspData_keeps link w hk
  | sigTerminal link p => exact execSigTerminal_keeps link p hk
  | redPartial link w => exact execRedPartial_keeps link w hk
  | redFinal link w => exact execRedFinal_keeps link w hk
  | wrData link p => exact execWrData_keeps link p hk
  | rdRead link w => exact execRdRead_keeps link w hk
  | mgtNull link w => exact execMgtNull_keeps link w hk
  | hello link w => exact execHello_keeps link w hk
  | repoint link x v epoch w => exact execRepoint_keeps link x v epoch w hk
  | mgtReset link w => exact execMgtReset_keeps link w hk
  | ackTimeout link c => exact execAckTimeout_keeps link c hk
  | creditTimeout link c => exact execCreditTimeout_keeps link c hk
  | linkResetEnd link => exact execLinkResetEnd_keeps link hk
  | linkRdy link level => exact execLinkRdy_keeps link level hk
  | helloSend link => exact execHelloSend_keeps link hk
  | discoveryTimeout link => exact execDiscoveryTimeout_keeps link hk
  | idleLinkDisable link => exact execIdleLinkDisable_keeps link hk
  | watchdogFire => exact execWatchdogFire_keeps hk
  | hingeRegisterWrite h off data => exact execHingeRegisterWrite_keeps h off data hk
  | dcacheFlushHandle h handle ctx => exact execDcacheFlushHandle_keeps h handle ctx hk
  | dcacheFlushContext h ctx => exact execDcacheFlushContext_keeps h ctx hk
  | lvAccRead h index ctx => exact execLvAccRead_keeps h index ctx hk
  | lvAccClear h index ctx => exact execLvAccClear_keeps h index ctx hk
  | sashDoorbell h code => exact execSashDoorbell_keeps h code hk
  | iflush h => exact execIflush_keeps h hk
  | sreset h => exact execSreset_keeps h hk
  | stop h t => exact execStop_keeps h t hk
  | strmAbortEntry h t q iseq => exact execStrmAbortEntry_keeps h t q iseq hk
  | strmAbortStream h t q => exact execStrmAbortStream_keeps h t q hk
  | latchHsig h k bank => exact execLatchHsig_keeps h k bank hk
  | frameStage h len => exact execFrameStage_keeps h len hk
  | frameStagingResult => exact execFrameStagingResult_keeps hk
  | frameCommit h wait slot => exact execFrameCommit_keeps h wait slot hk
  | commitWaitResolve => exact execCommitWaitResolve_keeps hk
  | effectPoint => exact execEffectPoint_keeps hk
  | frameDiscard h slot => exact execFrameDiscard_keeps h slot hk
  | frameForceEnd h slot => exact execFrameForceEnd_keeps h slot hk
  | hostLinkReset h link => exact execHostLinkReset_keeps h link hk
  | dwRepoint h x v epoch => exact execDwRepoint_keeps h x v epoch hk
  | clkSelect h src => exact execClkSelect_keeps h src hk
  | pwrRequest h pt => exact execPwrRequest_keeps h pt hk
  | shutterWrite h sill transom near far => exact execShutterWrite_keeps h sill transom near far hk
  | queueRelease h mask => exact execQueueRelease_keeps h mask hk
  | replayArm h step => exact execReplayArm_keeps h step hk
  | checkpointSave h slot => exact execCheckpointSave_keeps h slot hk
  | checkpointRestore h slot => exact execCheckpointRestore_keeps h slot hk
  | nodeAdopt h node => exact execNodeAdopt_keeps h node hk
  | hatchRequest h => exact execHatchRequest_keeps h hk
  | hatchProcedureComplete => exact execHatchProcedureComplete_keeps hk
  | hatchTimeout => exact execHatchTimeout_keeps hk
  | lintelWrite h index data => exact execLintelWrite_keeps h index data hk
  | lintelResponse code rdata => exact execLintelResponse_keeps code rdata hk
  | lintelTimeout => exact execLintelTimeout_keeps hk
  | lintelReadTimeout => exact execLintelReadTimeout_keeps hk
  | deadboltAssert => exact execDeadboltAssert_keeps hk
  | deadboltRelease => exact execDeadboltRelease_keeps hk
  | aonClkLost => exact execAonClkLost_keeps hk
  | aonClkRestored => exact execAonClkRestored_keeps hk
  | frequencyCheck ref r0 r1 refRdy => exact execFrequencyCheck_keeps ref r0 r1 refRdy hk
  | sourceReturn => exact execSourceReturn_keeps hk
  | refRdyFall => exact execRefRdyFall_keeps hk
  | sourceSwitchDone => exact execSourceSwitchDone_keeps hk
  | troReady => exact execTroReady_keeps hk
  | pllLock loopA => exact execPllLock_keeps loopA hk
  | vack code => exact execVack_keeps code hk
  | vackTimeout => exact execVackTimeout_keeps hk
  | aclkSlewDone => exact execAclkSlewDone_keeps hk
  | pswGnt level => exact execPswGnt_keeps level hk
  | domainSettled d => exact execDomainSettled_keeps d hk
  | domainSettleTimeout d => exact execDomainSettleTimeout_keeps d hk
  | idleGate unit => exact execIdleGate_keeps unit hk
  | latticeBandOff p => exact execLatticeBandOff_keeps p hk
  | park => exact execPark_keeps hk
  | wake => exact execWake_keeps hk
  | aonRstNAssert => exact execAonRstNAssert_keeps hk
  | aonRstNRelease => exact execAonRstNRelease_keeps hk
  | coreRstNAssert => exact execCoreRstNAssert_keeps hk
  | coreRstNRelease => exact execCoreRstNRelease_keeps hk
  | startupInitDone => exact execStartupInitDone_keeps hk
  | scrub unit u => exact execScrub_keeps unit u hk
  | egressHoldRelease => exact execEgressHoldRelease_keeps hk
  | illegalInstruction t word => exact execIllegalInstruction_keeps t word hk
  | hingeRegisterRead h off => exact execHingeRegisterRead_keeps h off hk
  | hatchProcedureEnd => exact execHatchProcedureEnd_keeps hk
  | ltPfailN level => exact execLtPfailN_keeps level hk

/-- A step answers a next state: the command's with the queue's rest, or a tick with the empty queue. -/
theorem step_keeps (s : State) : ∃ z, step s = .next z ∧ ({ s with pending := s.pending.tail } : State).Keeps z := by
  unfold step
  split
  · rename_i h
    obtain ⟨⟩ := s
    dsimp only at h
    subst h
    exact ⟨_, rfl, State.tick_keeps (State.Keeps.refl _)⟩
  · rename_i c rest h
    rw [h]
    exact exec_keeps c (State.Keeps.refl _)

end Sys2Proof.Machine
end

