-- ==== Sys2Proof/Laws/Same.lean ====
section
/-! SUPPORT. `State.Same s0 s`: every byte store of s is that of s0, with the rules by which it passes through the
shapes that meanings are made of. The files SameX.lean hold one lemma for each operation of Machine/X.lean that writes
no byte store. -/

namespace Sys2Proof.Machine

/-- The scratchpad, the Sill and the data memory are the same. -/
structure State.Same (s0 s : State) : Prop where
  spad : s.eng.spad = s0.eng.spad
  sill : s.eng.sill = s0.eng.sill
  dmem : s.sash.dmem = s0.sash.dmem

theorem State.Same.refl (s : State) : s.Same s := ⟨rfl, rfl, rfl⟩

theorem State.Same.trans {a b c : State} (h : a.Same b) (k : b.Same c) : a.Same c :=
  ⟨k.spad.trans h.spad, k.sill.trans h.sill, k.dmem.trans h.dmem⟩

theorem State.Same.upd {s0 x s' : State} (h : s0.Same x) (e1 : s'.sash.dmem = x.sash.dmem)
    (e2 : s'.eng.spad = x.eng.spad) (e3 : s'.eng.sill = x.eng.sill) : s0.Same s' :=
  ⟨e2.trans h.spad, e3.trans h.sill, e1.trans h.dmem⟩

/-- The same for a state written out field by field. -/
theorem State.Same.mk' {s0 x : State} {f b u s : ThreadState} {sash : Sash} {dcache : List DcEntry} {eng : Engines}
    {er : EngRegs} {cr : CtlRegs} {frame : FrameUnit} {jamb : Jamb} {latch : LatchUnit} {wd : Watchdog}
    {door : Doorway} {hinge : Hinge} {clk : Clocks} {pwr : Power} {boot : Boot} {int : Integrity} {rpl : Replay}
    {lt : Lintel} {time : Time} {fresh : Nat} {pending : List Instr}
    (h : s0.Same x) (e1 : sash.dmem = x.sash.dmem) (e2 : eng.spad = x.eng.spad) (e3 : eng.sill = x.eng.sill) :
    s0.Same ⟨f, b, u, s, sash, dcache, eng, er, cr, frame, jamb, latch, wd, door, hinge, clk, pwr, boot, int, rpl, lt,
      time, fresh, pending⟩ :=
  h.upd e1 e2 e3

theorem State.Same.ite {s0 a b : State} {c : Prop} [Decidable c] (ha : c → s0.Same a) (hb : ¬c → s0.Same b) :
    s0.Same (if c then a else b) := by
  split
  · exact ha ‹_›
  · exact hb ‹_›

theorem State.Same.foldl {s0 : State} {α : Type} {g : State → α → State} {l : List α} {s : State}
    (hg : ∀ x a, s0.Same x → s0.Same (g x a)) (h : s0.Same s) : s0.Same (l.foldl g s) := by
  induction l generalizing s with
  | nil => exact h
  | cons a r ih => exact ih (hg s a h)

end Sys2Proof.Machine
end

