-- ==== Sys2Proof/Laws/SameOps.lean ====
section
/-! SUPPORT. Operations of Machine/Ops.lean that change no byte of the block. -/

namespace Sys2Proof.Machine

theorem State.setTh_same {s0 s : State} (t : Thread) (v : ThreadState) (hk : s0.Same s) :
    s0.Same (State.setTh s t v) := by
  unfold State.setTh
  repeat' first
    | (with_reducible assumption) | split | (dsimp only) | (with_reducible refine State.Same.mk' ?_ rfl rfl rfl)

theorem State.modTh_same {s0 s : State} (t : Thread) (g : ThreadState → ThreadState) (hk : s0.Same s) :
    s0.Same (State.modTh s t g) := by
  unfold State.modTh
  repeat' first
    | (with_reducible assumption) | (with_reducible apply State.setTh_same)

theorem State.setReg_same {s0 s : State} (t : Thread) (r : Reg) (v : Word) (hk : s0.Same s) :
    s0.Same (State.setReg s t r v) := by
  unfold State.setReg
  repeat' first
    | (with_reducible assumption) | (with_reducible apply State.modTh_same) | (with_reducible apply State.Same.ite)
    | (intro)

theorem State.pcAdd_same {s0 s : State} (t : Thread) (n : Nat) (hk : s0.Same s) :
    s0.Same (State.pcAdd s t n) := by
  unfold State.pcAdd
  repeat' first
    | (with_reducible assumption) | (with_reducible apply State.modTh_same)

theorem State.modPlane_same {s0 s : State} (i : Nat) (g : Plane → Plane) (hk : s0.Same s) :
    s0.Same (State.modPlane s i g) := by
  unfold State.modPlane
  exact State.Same.ite (fun _ => State.Same.mk' hk rfl rfl rfl) fun _ => State.Same.mk' hk rfl rfl rfl

theorem State.modEngine_same {s0 s : State} (q : Nat) (g : Engine → Engine) (hk : s0.Same s) :
    s0.Same (State.modEngine s q g) := by
  unfold State.modEngine
  repeat' first
    | (with_reducible assumption) | (with_reducible refine State.Same.mk' ?_ rfl rfl rfl)

theorem State.modEntry_same {s0 s : State} (uid : Nat) (g : Entry → Entry) (hk : s0.Same s) :
    s0.Same (State.modEntry s uid g) := by
  unfold State.modEntry
  repeat' first
    | (with_reducible assumption) | (intro) | (with_reducible refine State.Same.mk' ?_ rfl rfl rfl)

theorem State.modEr_same {s0 s : State} (g : EngRegs → EngRegs) (hk : s0.Same s) :
    s0.Same (State.modEr s g) := by
  unfold State.modEr
  repeat' first
    | (with_reducible assumption) | (with_reducible refine State.Same.mk' ?_ rfl rfl rfl)

theorem State.modCr_same {s0 s : State} (g : CtlRegs → CtlRegs) (hk : s0.Same s) :
    s0.Same (State.modCr s g) := by
  unfold State.modCr
  repeat' first
    | (with_reducible assumption) | (with_reducible refine State.Same.mk' ?_ rfl rfl rfl)

theorem State.modLink_same {s0 s : State} (l : Nat) (g : Link → Link) (hk : s0.Same s) :
    s0.Same (State.modLink s l g) := by
  unfold State.modLink
  repeat' first
    | (with_reducible assumption) | (with_reducible refine State.Same.mk' ?_ rfl rfl rfl)

theorem State.draw_same {s0 s : State} (h : s0.Same s) : s0.Same s.draw.2 :=
  h.upd rfl rfl rfl

end Sys2Proof.Machine
end

