-- ==== Sys2Proof/Laws/SameExcept.lean ====
section
/-! SUPPORT. Operations of Machine/Except.lean that change no byte of the block. -/

namespace Sys2Proof.Machine

theorem State.wakeAsk_same {s0 s : State} (hk : s0.Same s) :
    s0.Same (State.wakeAsk s) := by
  unfold State.wakeAsk
  repeat' first
    | (with_reducible assumption) | (with_reducible apply State.Same.ite) | (intro)
    | (with_reducible refine State.Same.mk' ?_ rfl rfl rfl)

theorem State.setGoErr_same {s0 s : State} (b : GoBit) (v : Bool) (hk : s0.Same s) :
    s0.Same (State.setGoErr s b v) := by
  unfold State.setGoErr
  repeat' first
    | (with_reducible assumption) | split | (dsimp only) | (with_reducible refine State.Same.mk' ?_ rfl rfl rfl)

theorem State.goRefused_same {s0 s : State} (b : GoBit) (hk : s0.Same s) :
    s0.Same (State.goRefused s b) := by
  unfold State.goRefused
  repeat' first
    | (with_reducible assumption) | (with_reducible apply State.setGoErr_same)
    | (with_reducible apply State.Same.ite) | (intro) | (with_reducible refine State.Same.mk' ?_ rfl rfl rfl)

theorem State.goCleared_same {s0 s : State} (b : GoBit) (hk : s0.Same s) :
    s0.Same (State.goCleared s b) := by
  unfold State.goCleared
  repeat' first
    | (with_reducible assumption) | (with_reducible apply State.setGoErr_same)
    | (with_reducible apply State.Same.ite) | (intro) | (with_reducible refine State.Same.mk' ?_ rfl rfl rfl)

theorem State.irqSet_same {s0 s : State} (bit : Nat) (hk : s0.Same s) :
    s0.Same (State.irqSet s bit) := by
  unfold State.irqSet
  repeat' first
    | (with_reducible assumption) | (with_reducible refine State.Same.mk' ?_ rfl rfl rfl)

theorem State.excPush_same {s0 s : State} (i : ExcInfo) (hk : s0.Same s) : s0.Same (State.excPush s i) := by
  unfold State.excPush
  dsimp only
  split
  · exact State.irqSet_same 5 (hk.upd rfl rfl rfl)
  · exact State.Same.ite (fun _ => hk.upd rfl rfl rfl) fun _ => State.irqSet_same 5 (hk.upd rfl rfl rfl)

theorem State.eventDetail_same {s0 s : State} (d : Option (BitVec 16)) (h : s0.Same s) :
    s0.Same (State.eventDetail s d).2 := by
  unfold State.eventDetail
  split
  · exact h
  · exact h.upd rfl rfl rfl

theorem State.integrity_same {s0 s : State} (i : EventInfo) (hk : s0.Same s) :
    s0.Same (State.integrity s i) := by
  unfold State.integrity
  repeat' first
    | (with_reducible assumption) | (with_reducible apply State.eventDetail_same)
    | (with_reducible apply State.irqSet_same) | (with_reducible apply State.excPush_same)
    | (with_reducible apply State.Same.ite) | (intro) | (with_reducible refine State.Same.mk' ?_ rfl rfl rfl)

theorem State.classS_same {s0 s : State} (mech : Nat) (e : Entry) (status : Nat) (detail : BitVec 16) (hk : s0.Same
    s) :
    s0.Same (State.classS s mech e status detail) := by
  unfold State.classS
  repeat' first
    | (with_reducible assumption) | (with_reducible apply State.integrity_same)

theorem State.struck_same {s0 s : State} (k : Site) (hk : s0.Same s) :
    s0.Same (State.struck s k) := by
  unfold State.struck
  repeat' first
    | (with_reducible assumption) | (intro) | (with_reducible refine State.Same.mk' ?_ rfl rfl rfl)

theorem State.corrected_same {s0 s : State} (hk : s0.Same s) :
    s0.Same (State.corrected s) := by
  unfold State.corrected
  repeat' first
    | (with_reducible assumption) | (with_reducible refine State.Same.mk' ?_ rfl rfl rfl)

theorem State.alarmFlags_same {s0 s : State} (f : Flags) (stream : Nat) (ctx : Nat) (queue : Nat) (iseq : BitVec 32)
    (hk : s0.Same s) :
    s0.Same (State.alarmFlags s f stream ctx queue iseq) := by
  unfold State.alarmFlags
  repeat' first
    | (with_reducible assumption) | (with_reducible apply State.integrity_same)
    | (with_reducible apply State.Same.ite) | (intro)

theorem State.waitIn_same {s0 s : State} (t : Thread) (st : TState) (w : Wait) (hk : s0.Same s) :
    s0.Same (State.waitIn s t st w) := by
  unfold State.waitIn
  repeat' first
    | (with_reducible assumption) | (with_reducible apply State.modTh_same)

theorem State.waitMem_same {s0 s : State} (t : Thread) (w : Wait) (hk : s0.Same s) :
    s0.Same (State.waitMem s t w) := by
  unfold State.waitMem
  repeat' first
    | (with_reducible assumption) | (with_reducible apply State.modTh_same)

theorem State.stopped_same {s0 s : State} (t : Thread) (hk : s0.Same s) :
    s0.Same (State.stopped s t) := by
  unfold State.stopped
  repeat' first
    | (with_reducible assumption) | (with_reducible apply State.modTh_same)

theorem State.wakeUp_same {s0 s : State} (t : Thread) (hk : s0.Same s) :
    s0.Same (State.wakeUp s t) := by
  unfold State.wakeUp
  repeat' first
    | (with_reducible assumption) | (with_reducible apply State.stopped_same)
    | (with_reducible apply State.modTh_same) | (with_reducible apply State.Same.ite) | (intro)

theorem State.stopAtBoundary_same {s0 s : State} (t : Thread) (hk : s0.Same s) :
    s0.Same (State.stopAtBoundary s t) := by
  unfold State.stopAtBoundary
  repeat' first
    | (with_reducible assumption) | (with_reducible apply State.stopped_same)
    | (with_reducible apply State.modTh_same) | (intro) | split

theorem State.controlParity_same {s0 s : State} (detail : BitVec 16) (hk : s0.Same s) :
    s0.Same (State.controlParity s detail) := by
  unfold State.controlParity
  repeat' first
    | (with_reducible assumption) | (with_reducible apply State.stopAtBoundary_same)
    | (with_reducible apply State.integrity_same) | (with_reducible refine State.Same.mk' ?_ rfl rfl rfl)

theorem State.trackerParity_same {s0 s : State} (d : BitVec 16) (hk : s0.Same s) :
    s0.Same (State.trackerParity s d) := by
  unfold State.trackerParity
  repeat' first
    | (with_reducible assumption) | (with_reducible apply State.integrity_same)
    | (with_reducible refine State.Same.mk' ?_ rfl rfl rfl)

theorem State.parityCheck_same {s0 s : State} (k : Site) (hk : s0.Same s) :
    s0.Same (State.parityCheck s k) := by
  unfold State.parityCheck
  repeat' first
    | (with_reducible assumption) | (with_reducible apply State.struck_same)
    | (with_reducible apply State.controlParity_same) | split

theorem State.stopExc_same {s0 s : State} (t : Thread) (cause : Nat) (status : Nat) (info : Word) (pc : BitVec 48)
    (hk : s0.Same s) :
    s0.Same (State.stopExc s t cause status info pc) := by
  unfold State.stopExc
  repeat' first
    | (with_reducible assumption) | (with_reducible apply State.modTh_same)
    | (with_reducible apply State.excPush_same) | (with_reducible apply State.integrity_same)
    | (with_reducible apply State.irqSet_same) | (with_reducible apply State.stopped_same)
    | (with_reducible apply State.Same.ite) | (intro)

theorem State.illegal_same {s0 s : State} (t : Thread) (hk : s0.Same s) :
    s0.Same (State.illegal s t) := by
  unfold State.illegal
  repeat' first
    | (with_reducible assumption) | (with_reducible apply State.stopExc_same)

theorem State.setLatch_same {s0 s : State} (bank : Nat) (k : Nat) (v : BitVec 8) (hk : s0.Same s) :
    s0.Same (State.setLatch s bank k v) := by
  unfold State.setLatch
  repeat' first
    | (with_reducible assumption) | (with_reducible refine State.Same.mk' ?_ rfl rfl rfl)

theorem State.latchEvent_same {s0 s : State} (bank : Nat) (k : Nat) (src : SigSrc) (hk : s0.Same s) :
    s0.Same (State.latchEvent s bank k src) := by
  unfold State.latchEvent
  repeat' first
    | (with_reducible assumption) | (with_reducible apply State.modPlane_same) | exact fun _ k => k
    | (intro _ k; cases k; done) | (with_reducible apply State.Same.ite) | (intro) | split

theorem State.latchOverflow_same {s0 s : State} (bank : Nat) (k : Nat) (src : SigSrc) (hk : s0.Same s) :
    s0.Same (State.latchOverflow s bank k src) := by
  unfold State.latchOverflow
  extract_lets _ a l b stop
  have ha : s0.Same a := hk.upd rfl rfl rfl
  have hb : s0.Same b := State.excPush_same _ ha
  have hs : ∀ x t, s0.Same x → s0.Same (stop x t) := fun x t k =>
    State.Same.ite (fun _ => State.stopAtBoundary_same _ k) fun _ => k
  clear_value b stop
  split
  · exact State.Same.ite (fun _ => State.stopAtBoundary_same _ hb) fun _ => hb
  · exact State.integrity_same _ (hs _ _ (hs _ _ (hs _ _ hb)))
  · exact hb

theorem State.latchSignal_same {s0 s : State} (bank : Nat) (k : Nat) (src : SigSrc) (hk : s0.Same s) :
    s0.Same (State.latchSignal s bank k src) := by
  unfold State.latchSignal
  repeat' first
    | (with_reducible assumption) | (with_reducible apply State.wakeAsk_same)
    | (with_reducible apply State.parityCheck_same) | (with_reducible apply State.latchOverflow_same)
    | (with_reducible apply State.latchEvent_same) | (with_reducible apply State.setLatch_same)
    | (with_reducible apply State.Same.ite) | (intro)

theorem State.latchConsume_same {s0 s : State} (bank : Nat) (k : Nat) (src : SigSrc) (hk : s0.Same s) :
    s0.Same (State.latchConsume s bank k src) := by
  unfold State.latchConsume
  repeat' first
    | (with_reducible assumption) | (with_reducible apply State.latchEvent_same)
    | (with_reducible apply State.setLatch_same)

end Sys2Proof.Machine
end

