-- ==== Sys2Proof/Laws/SameJamb.lean ====
section
/-! SUPPORT. Operations of Machine/Jamb.lean that change no byte of the block. -/

namespace Sys2Proof.Machine

theorem State.jambAdd_same {s0 s : State} (rs : List JReq) (hk : s0.Same s) :
    s0.Same (State.jambAdd s rs) := by
  unfold State.jambAdd
  repeat' first
    | (with_reducible assumption) | (with_reducible refine State.Same.mk' ?_ rfl rfl rfl)

theorem State.jambFault_same {s0 s : State} (r : JReq) (cause : Nat) (hk : s0.Same s) :
    s0.Same (State.jambFault s r cause) := by
  unfold State.jambFault
  repeat' first
    | (with_reducible assumption) | (with_reducible apply State.irqSet_same)
    | (with_reducible refine State.Same.mk' ?_ rfl rfl rfl)

theorem State.fetchAsk_same {s0 s : State} (t : Thread) (again : Bool) (line : Nat) (hk : s0.Same s) :
    s0.Same (State.fetchAsk s t again line) := by
  unfold State.fetchAsk
  repeat' first
    | (with_reducible assumption) | (with_reducible apply State.modTh_same)
    | (with_reducible apply State.waitMem_same) | (with_reducible apply State.jambAdd_same)
    | (with_reducible apply State.Same.ite) | (intro)

theorem State.refetched_same {s0 s : State} (hk : s0.Same s) :
    s0.Same (State.refetched s) := by
  unfold State.refetched
  repeat' first
    | (with_reducible assumption) | (with_reducible refine State.Same.mk' ?_ rfl rfl rfl)

theorem State.fetchAt_same {s0 s : State} (t : Thread) (line : Nat) (hk : s0.Same s) :
    s0.Same (State.fetchAt s t line) := by
  unfold State.fetchAt
  repeat' first
    | (with_reducible assumption) | (with_reducible apply State.struck_same)
    | (with_reducible apply State.corrected_same) | (with_reducible apply State.fetchAsk_same)
    | (with_reducible apply State.refetched_same) | (with_reducible apply State.Same.ite) | (intro) | split
    | (dsimp only) | (with_reducible refine State.Same.mk' ?_ rfl rfl rfl)

theorem State.fetchNext_same {s0 s : State} (t : Thread) (hk : s0.Same s) :
    s0.Same (State.fetchNext s t) := by
  unfold State.fetchNext
  repeat' first
    | (with_reducible assumption) | (with_reducible apply State.fetchAt_same)

theorem State.goto_same {s0 s : State} (t : Thread) (pc : BitVec 48) (hk : s0.Same s) :
    s0.Same (State.goto s t pc) := by
  unfold State.goto
  repeat' first
    | (with_reducible assumption) | (with_reducible apply State.fetchNext_same)
    | (with_reducible apply State.modTh_same)

theorem State.advance_same {s0 s : State} (t : Thread) (n : Nat) (hk : s0.Same s) :
    s0.Same (State.advance s t n) := by
  unfold State.advance
  repeat' first
    | (with_reducible assumption) | (with_reducible apply State.goto_same)

theorem State.resume_same {s0 s : State} (t : Thread) (n : Nat) (hk : s0.Same s) :
    s0.Same (State.resume s t n) := by
  unfold State.resume
  repeat' first
    | (with_reducible assumption) | (with_reducible apply State.modTh_same)
    | (with_reducible apply State.fetchNext_same) | (with_reducible apply State.wakeUp_same)

theorem State.retry_same {s0 s : State} (t : Thread) (hk : s0.Same s) :
    s0.Same (State.retry s t) := by
  unfold State.retry
  repeat' first
    | (with_reducible assumption) | (with_reducible apply State.fetchNext_same)
    | (with_reducible apply State.wakeUp_same)

theorem State.dcTouch_same {s0 s : State} (ctx : Nat) (h : Nat) (hk : s0.Same s) :
    s0.Same (State.dcTouch s ctx h) := by
  unfold State.dcTouch
  repeat' first
    | (with_reducible assumption) | (intro) | split | (dsimp only)
    | (with_reducible refine State.Same.mk' ?_ rfl rfl rfl)

theorem State.dcWriteback_same {s0 s : State} (e : DcEntry) (hk : s0.Same s) :
    s0.Same (State.dcWriteback s e) := by
  unfold State.dcWriteback
  repeat' first
    | (with_reducible assumption) | (with_reducible apply State.jambAdd_same)

theorem State.dcInsert_same {s0 s : State} (ctx : Nat) (h : Nat) (d : Desc) (hk : s0.Same s) :
    s0.Same (State.dcInsert s ctx h d) := by
  unfold State.dcInsert
  repeat' first
    | (with_reducible assumption) | (with_reducible apply State.dcWriteback_same)
    | (with_reducible apply State.Same.ite) | (intro) | split | (dsimp only)
    | (with_reducible refine State.Same.mk' ?_ rfl rfl rfl)

theorem State.dcUpdate_same {s0 s : State} (ctx : Nat) (h : Nat) (d : Desc) (hk : s0.Same s) :
    s0.Same (State.dcUpdate s ctx h d) := by
  unfold State.dcUpdate
  repeat' first
    | (with_reducible assumption) | (with_reducible apply State.dcTouch_same) | (intro)
    | (with_reducible refine State.Same.mk' ?_ rfl rfl rfl)

theorem State.dcRead_same {s0 s : State} (ctx h : Nat) (hk : s0.Same s) : s0.Same (State.dcRead s ctx h).1 := by
  unfold State.dcRead
  split
  · exact hk
  · split
    · exact State.dcTouch_same _ _ hk
    · exact State.dcTouch_same _ _ (State.corrected_same (State.struck_same _ hk))
    · exact State.integrity_same _ (State.struck_same _ (hk.upd rfl rfl rfl))

theorem State.fillsDrop_same {s0 s : State} (ctx : Nat) (hk : s0.Same s) :
    s0.Same (State.fillsDrop s ctx) := by
  unfold State.fillsDrop
  exact hk.upd rfl rfl rfl

theorem State.fillAsk_same {s0 s : State} (ctx : Nat) (h : Nat) (hk : s0.Same s) :
    s0.Same (State.fillAsk s ctx h) := by
  unfold State.fillAsk
  repeat' first
    | (with_reducible assumption) | (with_reducible apply State.jambAdd_same)
    | (with_reducible apply State.Same.ite) | (intro)

theorem State.descFault_same {s0 s : State} (ctx : Nat) (h : Nat) (status : Nat) (hk : s0.Same s) :
    s0.Same (State.descFault s ctx h status) := by
  unfold State.descFault
  repeat' first
    | (with_reducible assumption) | (with_reducible apply State.modCr_same)

theorem State.dcFlush_same {s0 s : State} (ctx : Nat) (h : Nat) (hk : s0.Same s) :
    s0.Same (State.dcFlush s ctx h) := by
  unfold State.dcFlush
  repeat' first
    | (with_reducible assumption) | (with_reducible apply State.dcWriteback_same)
    | (with_reducible apply State.Same.ite) | (intro) | split | (dsimp only)
    | (with_reducible refine State.Same.mk' ?_ rfl rfl rfl)

theorem State.dcClean_same {s0 s : State} (ctx : Nat) (hk : s0.Same s) :
    s0.Same (State.dcClean s ctx) := by
  unfold State.dcClean
  repeat' first
    | (with_reducible assumption) | (with_reducible apply State.dcWriteback_same)
    | (with_reducible apply State.Same.foldl) | (with_reducible apply State.Same.ite) | (intro)
    | (with_reducible refine State.Same.mk' ?_ rfl rfl rfl)

theorem State.dcFlushAll_same {s0 s : State} (ctx : Nat) (hk : s0.Same s) :
    s0.Same (State.dcFlushAll s ctx) := by
  unfold State.dcFlushAll
  repeat' first
    | (with_reducible assumption) | (with_reducible apply State.dcClean_same) | (intro)
    | (with_reducible refine State.Same.mk' ?_ rfl rfl rfl)

end Sys2Proof.Machine
end

