-- ==== Sys2Proof/Laws/SameJournal.lean ====
section
/-! SUPPORT. Operations of Machine/Journal.lean that change no byte of the block. -/

namespace Sys2Proof.Machine

theorem State.journalPut_same {s0 s : State} (ctx : Nat) (t : Thread) (bs : List Byte) (hk : s0.Same s) :
    s0.Same (State.journalPut s ctx t bs) := by
  unfold State.journalPut
  repeat' first
    | (with_reducible assumption) | (with_reducible apply State.jambAdd_same)
    | (with_reducible apply State.modPlane_same) | exact fun _ k => k | (intro _ k; cases k; done)
    | (with_reducible apply State.Same.ite) | (intro) | split

theorem State.journalLatch_same {s0 s : State} (ctx : Nat) (n : Nat) (hk : s0.Same s) :
    s0.Same (State.journalLatch s ctx n) := by
  induction n generalizing s with
  | zero => exact hk
  | succ n ih =>
    unfold State.journalLatch
    exact State.Same.ite (fun _ => hk) fun _ =>
      ih (State.modPlane_same _ _ (State.journalPut_same _ _ _ hk))

theorem State.journalFlush_same {s0 s : State} (ctx : Nat) (hk : s0.Same s) :
    s0.Same (State.journalFlush s ctx) := by
  unfold State.journalFlush
  repeat' first
    | (with_reducible assumption) | (with_reducible apply State.journalLatch_same)
    | (with_reducible apply State.Same.ite) | (intro)

theorem State.journalStream_same {s0 s : State} (ctx : Nat) (type : Nat) (t : Thread) (step : BitVec 32) (ws : List
    Word) (hk : s0.Same s) :
    s0.Same (State.journalStream s ctx type t step ws) := by
  unfold State.journalStream
  repeat' first
    | (with_reducible assumption) | (with_reducible apply State.journalPut_same)
    | (with_reducible apply State.journalFlush_same) | (with_reducible apply State.Same.ite) | (intro)

theorem State.journalOpen_same {s0 s : State} (t : Thread) (hk : s0.Same s) :
    s0.Same (State.journalOpen s t) := by
  unfold State.journalOpen
  repeat' first
    | (with_reducible assumption) | (with_reducible apply State.modPlane_same)
    | (with_reducible apply State.journalStream_same) | exact fun _ k => k | (intro _ k; cases k; done)
    | (with_reducible apply State.Same.ite) | (intro) | split | (dsimp only)

theorem State.journalClose_same {s0 s : State} (t : Thread) (p : Post) (hk : s0.Same s) :
    s0.Same (State.journalClose s t p) := by
  unfold State.journalClose
  repeat' first
    | (with_reducible assumption) | (with_reducible apply State.journalStream_same)
    | (with_reducible apply State.modPlane_same) | exact fun _ k => k | (intro _ k; cases k; done)
    | (with_reducible apply State.Same.ite) | (intro) | split

theorem State.digestResolve_same {s0 s : State} (t : Thread) (h : Nat) (d : Desc) (hk : s0.Same s) :
    s0.Same (State.digestResolve s t h d) := by
  unfold State.digestResolve
  repeat' first
    | (with_reducible assumption) | (with_reducible apply State.modPlane_same)

theorem State.journalInput_same {s0 s : State} (ctx : Nat) (src : Nat) (cls : Nat) (ctxid : BitVec 32) (handle : Nat)
    (index : Nat) (b : Nat) (latch : Nat) (payload : List Byte) (hk : s0.Same s) :
    s0.Same (State.journalInput s ctx src cls ctxid handle index b latch payload) := by
  unfold State.journalInput
  repeat' first
    | (with_reducible assumption) | (with_reducible apply State.journalFlush_same)
    | (with_reducible apply State.modPlane_same) | (with_reducible apply State.journalPut_same)
    | exact fun _ k => k | (intro _ k; cases k; done) | (with_reducible apply State.Same.ite) | (intro)

end Sys2Proof.Machine
end

