-- ==== Sys2Proof/Laws/SamePost.lean ====
section
/-! SUPPORT. Operations of Machine/Post.lean that change no byte of the block. -/

namespace Sys2Proof.Machine

theorem State.modPost_same {s0 s : State} (t : Thread) (seq : BitVec 32) (g : Post → Post) (hk : s0.Same s) :
    s0.Same (State.modPost s t seq g) := by
  unfold State.modPost
  repeat' first
    | (with_reducible assumption) | (with_reducible apply State.modTh_same)

theorem State.postDone_same {s0 s : State} (t : Thread) (p : Post) (hk : s0.Same s) :
    s0.Same (State.postDone s t p) := by
  unfold State.postDone
  repeat' first
    | (with_reducible assumption) | (with_reducible apply State.irqSet_same) | (with_reducible apply State.modTh_same)

theorem State.postBegin_same {s0 s : State} (t : Thread) (p : Post) (hk : s0.Same s) :
    s0.Same (State.postBegin s t p) := by
  unfold State.postBegin
  repeat' first
    | (with_reducible assumption) | (with_reducible apply State.journalClose_same)
    | (with_reducible apply State.modPost_same) | (with_reducible apply State.jambAdd_same) | (intro) | split
    | (dsimp only)

theorem State.postsBegin_same {s0 s : State} (t : Thread) (hk : s0.Same s) :
    s0.Same (State.postsBegin s t) := by
  unfold State.postsBegin
  repeat' first
    | (with_reducible assumption) | (with_reducible apply State.postBegin_same)
    | (with_reducible apply State.Same.foldl) | (intro)

theorem State.postsEnd_same {s0 s : State} (t : Thread) (n : Nat) (hk : s0.Same s) :
    s0.Same (State.postsEnd s t n) := by
  induction n generalizing s t with
  | zero => exact hk
  | succ n ih =>
    unfold State.postsEnd
    repeat' first
      | (with_reducible assumption) | (with_reducible apply ih) | (with_reducible apply State.postDone_same)
      | (with_reducible apply State.Same.ite) | (intro) | split

theorem State.postsGo_same {s0 s : State} (t : Thread) (hk : s0.Same s) :
    s0.Same (State.postsGo s t) := by
  unfold State.postsGo
  repeat' first
    | (with_reducible assumption) | (with_reducible apply State.postsEnd_same)
    | (with_reducible apply State.postsBegin_same)

theorem State.postBodyAnswered_same {s0 s : State} (t : Thread) (seq : BitVec 32) (ok : Bool) (hk : s0.Same s) :
    s0.Same (State.postBodyAnswered s t seq ok) := by
  unfold State.postBodyAnswered
  repeat' first
    | (with_reducible assumption) | (with_reducible apply State.modPost_same)
    | (with_reducible apply State.postsGo_same) | (with_reducible apply State.jambAdd_same)
    | (with_reducible apply State.Same.ite) | (intro) | split

theorem State.postHeadAnswered_same {s0 s : State} (t : Thread) (seq : BitVec 32) (ok : Bool) (hk : s0.Same s) :
    s0.Same (State.postHeadAnswered s t seq ok) := by
  unfold State.postHeadAnswered
  repeat' first
    | (with_reducible assumption) | (with_reducible apply State.postsGo_same)
    | (with_reducible apply State.modPost_same)

theorem State.stepAdvance_same {s0 s : State} (t : Thread) (hk : s0.Same s) :
    s0.Same (State.stepAdvance s t) := by
  unfold State.stepAdvance
  repeat' first
    | (with_reducible assumption) | (with_reducible apply State.modPlane_same)
    | (with_reducible apply State.modTh_same) | (with_reducible apply State.journalOpen_same)
    | (with_reducible apply State.postsGo_same)

theorem State.postCount_same {s0 s : State} (e : Entry) (status : Nat) (hk : s0.Same s) :
    s0.Same (State.postCount s e status) := by
  unfold State.postCount
  repeat' first
    | (with_reducible assumption) | (with_reducible apply State.modTh_same)

end Sys2Proof.Machine
end

