-- ==== Sys2Proof/Laws/SameCredit.lean ====
section
/-! SUPPORT. Operations of Machine/Credit.lean that change no byte of the block. -/

namespace Sys2Proof.Machine

theorem State.freeBuffer_same {s0 s : State} (l : Nat) (c : Nat) (hk : s0.Same s) :
    s0.Same (State.freeBuffer s l c) := by
  unfold State.freeBuffer
  repeat' first
    | (with_reducible assumption) | (with_reducible apply State.modLink_same)

theorem State.freeSig_same {s0 s : State} (l : Nat) (hk : s0.Same s) :
    s0.Same (State.freeSig s l) := by
  unfold State.freeSig
  repeat' first
    | (with_reducible assumption) | (with_reducible apply State.modLink_same)
    | (with_reducible apply State.freeBuffer_same) | (with_reducible apply State.Same.ite) | (intro)

theorem State.sigExtend_same {s0 s : State} (l : Nat) (hk : s0.Same s) :
    s0.Same (State.sigExtend s l) := by
  unfold State.sigExtend
  repeat' first
    | (with_reducible assumption) | (with_reducible apply State.freeBuffer_same)
    | (with_reducible apply State.modLink_same) | (with_reducible apply State.Same.ite) | (intro)

theorem State.sigRelease_same {s0 s : State} (hk : s0.Same s) :
    s0.Same (State.sigRelease s) := by
  unfold State.sigRelease
  repeat' first
    | (with_reducible assumption) | (with_reducible apply State.sigExtend_same)
    | (with_reducible apply State.Same.foldl) | (intro)

end Sys2Proof.Machine
end

