-- ==== Sys2Proof/Laws/SameContext.lean ====
section
/-! SUPPORT. Operations of Machine/Context.lean that change no byte of the block. -/

namespace Sys2Proof.Machine

theorem State.startThread_same {s0 s : State} (c : Nat) (t : Thread) (f : FrameCfg) (hk : s0.Same s) :
    s0.Same (State.startThread s c t f) := by
  unfold State.startThread
  repeat' first
    | (with_reducible assumption) | (with_reducible apply State.modTh_same)
    | (with_reducible apply State.fetchNext_same) | (with_reducible apply State.journalOpen_same)

theorem State.dropSignals_same {s0 s : State} (c : Nat) (hk : s0.Same s) :
    s0.Same (State.dropSignals s c) := by
  unfold State.dropSignals
  repeat' first
    | (with_reducible assumption) | (with_reducible apply State.sigRelease_same) | (intro) | split | (dsimp only)
    | (with_reducible refine State.Same.mk' ?_ rfl rfl rfl)

theorem State.planeEmpty_same {s0 s : State} (c : Nat) (hk : s0.Same s) :
    s0.Same (State.planeEmpty s c) := by
  unfold State.planeEmpty
  repeat' first
    | (with_reducible assumption) | (with_reducible apply State.modPlane_same) | exact fun _ k => k
    | (intro _ k; cases k; done) | (with_reducible apply State.Same.ite) | (intro)

theorem State.endContext_same {s0 s : State} (c : Nat) (hk : s0.Same s) :
    s0.Same (State.endContext s c) := by
  unfold State.endContext
  repeat' first
    | (with_reducible assumption) | (with_reducible apply State.fillsDrop_same)
    | (with_reducible apply State.dropSignals_same) | (with_reducible apply State.dcFlushAll_same)
    | (with_reducible apply State.journalFlush_same) | (with_reducible apply State.modPlane_same)
    | (with_reducible apply State.modTh_same) | (with_reducible apply State.planeEmpty_same) | exact fun _ k => k
    | (intro _ k; cases k; done) | (with_reducible apply State.Same.foldl) | (with_reducible apply State.Same.ite)
    | (intro) | (with_reducible refine State.Same.mk' ?_ rfl rfl rfl)

theorem State.endPart_same {s0 s : State} (t : Thread) (hk : s0.Same s) :
    s0.Same (State.endPart s t) := by
  unfold State.endPart
  repeat' first
    | (with_reducible assumption) | (with_reducible apply State.modTh_same)
    | (with_reducible apply State.startThread_same) | (with_reducible apply State.endContext_same)
    | (with_reducible apply State.Same.ite) | (intro) | split

end Sys2Proof.Machine
end

