-- ==== Sys2Proof/Laws/SameGroups.lean ====
section
/-! SUPPORT. Operations of Machine/Groups.lean that change no byte of the block. -/

namespace Sys2Proof.Machine

theorem State.setGroup_same {s0 s : State} (ctx : Nat) (g : Nat) (v : GroupState) (hk : s0.Same s) :
    s0.Same (State.setGroup s ctx g v) := by
  unfold State.setGroup
  repeat' first
    | (with_reducible assumption) | (with_reducible apply State.modPlane_same)

end Sys2Proof.Machine
end

