-- ==== Sys2Proof/Laws/SamePower.lean ====
section
/-! SUPPORT. Operations of Machine/Power.lean that change no byte of the block. -/

namespace Sys2Proof.Machine

theorem State.powerIrq_same {s0 s : State} (hk : s0.Same s) :
    s0.Same (State.powerIrq s) := by
  unfold State.powerIrq
  repeat' first
    | (with_reducible assumption) | (with_reducible apply State.irqSet_same)

theorem State.slewStart_same {s0 s : State} (x : Source) (hk : s0.Same s) :
    s0.Same (State.slewStart s x) := by
  unfold State.slewStart
  repeat' first
    | (with_reducible assumption) | (with_reducible apply State.Same.ite) | (intro)
    | (with_reducible refine State.Same.mk' ?_ rfl rfl rfl)

theorem State.fallBack_same {s0 s : State} (hk : s0.Same s) :
    s0.Same (State.fallBack s) := by
  unfold State.fallBack
  repeat' first
    | (with_reducible assumption) | (with_reducible apply State.powerIrq_same)
    | (with_reducible apply State.slewStart_same) | (with_reducible refine State.Same.mk' ?_ rfl rfl rfl)

theorem State.followSource_same {s0 s : State} (hk : s0.Same s) :
    s0.Same (State.followSource s) := by
  unfold State.followSource
  repeat' first
    | (with_reducible assumption) | (with_reducible apply State.slewStart_same)
    | (with_reducible apply State.Same.ite) | (intro)

theorem State.sourceCheck_same {s0 s : State} (hk : s0.Same s) :
    s0.Same (State.sourceCheck s) := by
  unfold State.sourceCheck
  repeat' first
    | (with_reducible assumption) | (with_reducible apply State.fallBack_same)
    | (with_reducible apply State.followSource_same) | (with_reducible apply State.Same.ite) | (intro)

theorem State.selectSource_same {s0 s : State} (x : Source) (hk : s0.Same s) :
    s0.Same (State.selectSource s x) := by
  unfold State.selectSource
  repeat' first
    | (with_reducible assumption) | (with_reducible apply State.slewStart_same)
    | (with_reducible apply State.fallBack_same) | (with_reducible apply State.Same.ite) | (intro)
    | (with_reducible refine State.Same.mk' ?_ rfl rfl rfl)

theorem State.voltUp_same {s0 s : State} (n : Nat) (hk : s0.Same s) :
    s0.Same (State.voltUp s n) := by
  unfold State.voltUp
  repeat' first
    | (with_reducible assumption) | (with_reducible apply State.Same.ite) | (intro)
    | (with_reducible refine State.Same.mk' ?_ rfl rfl rfl)

theorem State.seqGo_same {s0 s : State} (hk : s0.Same s) :
    s0.Same (State.seqGo s) := by
  unfold State.seqGo
  repeat' first
    | (with_reducible assumption) | (with_reducible apply State.voltUp_same)
    | (with_reducible apply State.Same.ite) | (intro) | (with_reducible refine State.Same.mk' ?_ rfl rfl rfl)

theorem State.setTarget_same {s0 s : State} (n : Nat) (hk : s0.Same s) :
    s0.Same (State.setTarget s n) := by
  unfold State.setTarget
  repeat' first
    | (with_reducible assumption) | (with_reducible apply State.seqGo_same)
    | (with_reducible refine State.Same.mk' ?_ rfl rfl rfl)

theorem State.setRunPoint_same {s0 s : State} (n : Nat) (hk : s0.Same s) :
    s0.Same (State.setRunPoint s n) := by
  unfold State.setRunPoint
  repeat' first
    | (with_reducible assumption) | (with_reducible apply State.setTarget_same)
    | (with_reducible apply State.Same.ite) | (intro) | (with_reducible refine State.Same.mk' ?_ rfl rfl rfl)

theorem State.voltDown_same {s0 s : State} (hk : s0.Same s) :
    s0.Same (State.voltDown s) := by
  unfold State.voltDown
  repeat' first
    | (with_reducible assumption) | (with_reducible apply State.seqGo_same) | (with_reducible apply State.Same.ite)
    | (intro) | (with_reducible refine State.Same.mk' ?_ rfl rfl rfl)

theorem State.wakeGo_same {s0 s : State} (hk : s0.Same s) :
    s0.Same (State.wakeGo s) := by
  unfold State.wakeGo
  repeat' first
    | (with_reducible assumption) | (with_reducible apply State.voltUp_same)
    | (with_reducible apply State.Same.ite) | (intro) | (with_reducible refine State.Same.mk' ?_ rfl rfl rfl)

theorem State.batchGo_same {s0 s : State} (hk : s0.Same s) :
    s0.Same (State.batchGo s) := by
  unfold State.batchGo
  repeat' first
    | (with_reducible assumption) | (with_reducible apply State.Same.ite) | (intro) | split | (dsimp only)
    | (with_reducible refine State.Same.mk' ?_ rfl rfl rfl)

theorem State.batchAdd_same {s0 s : State} (ds : List Nat) (hk : s0.Same s) :
    s0.Same (State.batchAdd s ds) := by
  unfold State.batchAdd
  repeat' first
    | (with_reducible assumption) | (with_reducible apply State.batchGo_same)
    | (with_reducible apply State.Same.ite) | (intro) | (with_reducible refine State.Same.mk' ?_ rfl rfl rfl)

theorem State.domainsOff_same {s0 s : State} (ds : List Nat) (hk : s0.Same s) :
    s0.Same (State.domainsOff s ds) := by
  unfold State.domainsOff
  repeat' first
    | (with_reducible assumption) | (with_reducible apply State.batchGo_same)
    | (with_reducible apply State.Same.ite) | (intro) | split | (dsimp only)
    | (with_reducible refine State.Same.mk' ?_ rfl rfl rfl)

theorem State.bandsOn_same {s0 s : State} (lats : List Nat) (hk : s0.Same s) :
    s0.Same (State.bandsOn s lats) := by
  unfold State.bandsOn
  repeat' first
    | (with_reducible assumption) | (with_reducible apply State.batchAdd_same)

theorem State.planTaken_same {s0 s : State} (p : PowerPlan) (hk : s0.Same s) :
    s0.Same (State.planTaken s p) := by
  unfold State.planTaken
  repeat' first
    | (with_reducible assumption) | (with_reducible apply State.selectSource_same)
    | (with_reducible apply State.setRunPoint_same) | (with_reducible apply State.Same.ite) | (intro)
    | (with_reducible refine State.Same.mk' ?_ rfl rfl rfl)

theorem State.followAssign_same {s0 s : State} (hk : s0.Same s) :
    s0.Same (State.followAssign s) := by
  unfold State.followAssign
  repeat' first
    | (with_reducible assumption) | (with_reducible apply State.bandsOn_same)
    | (with_reducible apply State.domainsOff_same) | (intro) | (with_reducible refine State.Same.mk' ?_ rfl rfl rfl)

end Sys2Proof.Machine
end

