-- ==== Sys2Proof/Laws/SameLouvre.lean ====
section
/-! SUPPORT. Operations of Machine/Louvre.lean that change no byte of the block. -/

namespace Sys2Proof.Machine

theorem State.setAccum_same {s0 s : State} (ctx : Nat) (n : Nat) (a : Accum) (hk : s0.Same s) :
    s0.Same (State.setAccum s ctx n a) := by
  unfold State.setAccum
  repeat' first
    | (with_reducible assumption) | (with_reducible refine State.Same.mk' ?_ rfl rfl rfl)

end Sys2Proof.Machine
end

