-- ==== Sys2Proof/Laws/SameTensor.lean ====
section
/-! SUPPORT. Operations of Machine/Tensor.lean that change no byte of the block. -/

namespace Sys2Proof.Machine

theorem State.shutAccess_same {s0 s : State} (block : Nat) (n : Nat) (hk : s0.Same s) :
    s0.Same (State.shutAccess s block n) := by
  unfold State.shutAccess
  repeat' first
    | (with_reducible assumption) | (with_reducible apply State.Same.ite) | (intro)
    | (with_reducible refine State.Same.mk' ?_ rfl rfl rfl)

theorem State.noteWrite_same {s0 s : State} (uid : Nat) (n : Nat) (w : BitWrite) (hk : s0.Same s) :
    s0.Same (State.noteWrite s uid n w) := by
  unfold State.noteWrite
  repeat' first
    | (with_reducible assumption) | (with_reducible apply State.modEntry_same)
    | (with_reducible apply State.Same.ite) | (intro) | split

theorem State.linesShut_same {s0 s : State} (lines : List Nat) (hk : s0.Same s) :
    s0.Same (State.linesShut s lines) := by
  unfold State.linesShut
  repeat' first
    | (with_reducible assumption) | (with_reducible apply State.shutAccess_same)
    | (with_reducible apply State.Same.ite) | (intro)

theorem State.readShut_same {s0 s : State} (d : Desc) (xs : List Coord) (hk : s0.Same s) :
    s0.Same (State.readShut s d xs) := by
  unfold State.readShut
  repeat' first
    | (with_reducible assumption) | (with_reducible apply State.shutAccess_same)
    | (with_reducible apply State.Same.ite) | (intro) | split

theorem State.addSquares_same {s0 s : State} (e : Entry) (sums : Option Nat) (vs : List Val) (hk : s0.Same s) :
    s0.Same (State.addSquares s e sums vs) := by
  unfold State.addSquares
  repeat' first
    | (with_reducible assumption) | (with_reducible apply State.setAccum_same) | split | (dsimp only)
    | (with_reducible refine State.Same.mk' ?_ rfl rfl rfl)

theorem State.accumCheck_same {s0 s : State} (ctx : Nat) (n : Nat) (u : Upset) (hk : s0.Same s) :
    s0.Same (State.accumCheck s ctx n u) := by
  unfold State.accumCheck
  repeat' first
    | (with_reducible assumption) | (with_reducible apply State.integrity_same)
    | (with_reducible apply State.Same.ite) | (intro) | split

theorem State.louvreSees_same {s0 s : State} (uid : Nat) (o : Opnd) (drain : Bool) (vs : List Val) (hk : s0.Same s) :
    s0.Same (State.louvreSees s uid o drain vs) := by
  unfold State.louvreSees
  repeat' first
    | (with_reducible assumption) | (with_reducible apply State.modEntry_same)
    | (with_reducible apply State.Same.ite) | (intro)

end Sys2Proof.Machine
end

