-- ==== Sys2Proof/Laws/SameOperands.lean ====
section
/-! SUPPORT. Operations of Machine/Operands.lean that change no byte of the block. -/

namespace Sys2Proof.Machine

theorem State.laneAdd_same {s0 s : State} (e : Entry) (hk : s0.Same s) :
    s0.Same (State.laneAdd s e) := by
  unfold State.laneAdd
  repeat' first
    | (with_reducible assumption) | (with_reducible apply State.bandsOn_same)
    | (with_reducible apply State.Same.ite) | (intro) | (with_reducible refine State.Same.mk' ?_ rfl rfl rfl)

theorem State.planEnter_same {s0 s : State} (t : Thread) (p : Plan) (hk : s0.Same s) :
    s0.Same (State.planEnter s t p) := by
  unfold State.planEnter
  repeat' first
    | (with_reducible assumption) | (with_reducible apply State.laneAdd_same)
    | (with_reducible apply State.Same.ite) | (intro) | split

theorem State.accept_same {s0 s : State} (t : Thread) (p : Plan) (hk : s0.Same s) :
    s0.Same (State.accept s t p) := by
  unfold State.accept
  repeat' first
    | (with_reducible assumption) | (with_reducible apply State.planEnter_same)
    | (with_reducible apply State.modTh_same) | (with_reducible apply State.setReg_same)
    | (with_reducible apply State.resume_same) | (with_reducible apply State.Same.ite) | (intro)

theorem State.enter_same {s0 s : State} (t : Thread) (p : Plan) (hk : s0.Same s) :
    s0.Same (State.enter s t p) := by
  unfold State.enter
  repeat' first
    | (with_reducible assumption) | (with_reducible apply State.accept_same)
    | (with_reducible apply State.stopped_same) | (with_reducible apply State.waitIn_same)
    | (with_reducible apply State.Same.ite) | (intro)

theorem State.refuse_same {s0 s : State} (t : Thread) (rd : Reg) (status : Nat) (bytes : Nat) (hk : s0.Same s) :
    s0.Same (State.refuse s t rd status bytes) := by
  unfold State.refuse
  repeat' first
    | (with_reducible assumption) | (with_reducible apply State.stopExc_same)
    | (with_reducible apply State.resume_same) | (with_reducible apply State.setReg_same)
    | (with_reducible apply State.Same.ite) | (intro)

theorem State.resolve1_same {s0 s : State} (ctx v : Nat) (dest : Bool) (hk : s0.Same s) :
    s0.Same (State.resolve1 s ctx v dest).1 := by
  unfold State.resolve1
  split
  · exact hk
  · exact State.dcRead_same _ _ hk

theorem State.resolveAll_same {s0 s : State} (t : Thread) (hs : HandleList) (got : List (Option Opnd)) (n : Nat)
    (hk : s0.Same s) : s0.Same (State.resolveAll s t hs got n).1 := by
  induction n generalizing s got with
  | zero => exact hk
  | succ n ih =>
    unfold State.resolveAll
    split
    · exact hk
    · exact ih _ hk
    · dsimp only
      split
      · exact ih _ (State.digestResolve_same _ _ _ (State.resolve1_same _ _ _ hk))
      · exact State.descFault_same _ _ _ (State.resolve1_same _ _ _ hk)
      · exact State.fillAsk_same _ _ (State.resolve1_same _ _ _ hk)

theorem State.waitFill_same {s0 s : State} (t : Thread) (i : Issue) (h : Nat) (hk : s0.Same s) :
    s0.Same (State.waitFill s t i h) := by
  unfold State.waitFill
  repeat' first
    | (with_reducible assumption) | (with_reducible apply State.waitMem_same)

end Sys2Proof.Machine
end

