-- ==== Sys2Proof/Laws/SameHold.lean ====
section
/-! SUPPORT. Operations of Machine/Hold.lean that change no byte of the block. -/

namespace Sys2Proof.Machine

theorem State.ckptDone_same {s0 s : State} (result : Nat) (hk : s0.Same s) :
    s0.Same (State.ckptDone s result) := by
  unfold State.ckptDone
  repeat' first
    | (with_reducible assumption) | (with_reducible apply State.goCleared_same)
    | (with_reducible apply State.Same.ite) | (intro) | (with_reducible refine State.Same.mk' ?_ rfl rfl rfl)

theorem State.ckptSettle_same {s0 s : State} (hk : s0.Same s) :
    s0.Same (State.ckptSettle s) := by
  unfold State.ckptSettle
  repeat' first
    | (with_reducible assumption) | (with_reducible apply State.ckptDone_same)
    | (with_reducible apply State.Same.ite) | (intro)

theorem State.ckptWrote_same {s0 s : State} (ok : Bool) (hk : s0.Same s) :
    s0.Same (State.ckptWrote s ok) := by
  unfold State.ckptWrote
  repeat' first
    | (with_reducible assumption) | (with_reducible apply State.ckptSettle_same)
    | (with_reducible refine State.Same.mk' ?_ rfl rfl rfl)

theorem State.withdrawReq_same {s0 s : State} (r : JReq) (hk : s0.Same s) :
    s0.Same (State.withdrawReq s r) := by
  unfold State.withdrawReq
  repeat' first
    | (with_reducible assumption) | (with_reducible apply State.modEntry_same)
    | (with_reducible apply State.ckptWrote_same) | (intro) | split

theorem State.engineOpen_same {s0 s : State} (q : Nat) (uid : Nat) (hk : s0.Same s) :
    s0.Same (State.engineOpen s q uid) := by
  unfold State.engineOpen
  repeat' first
    | (with_reducible assumption) | (with_reducible apply State.modEngine_same)
    | (with_reducible apply State.Same.ite) | (intro)

theorem State.unsend_same {s0 s : State} (uid : Nat) (hk : s0.Same s) :
    s0.Same (State.unsend s uid) := by
  unfold State.unsend
  repeat' first
    | (with_reducible assumption) | (with_reducible apply State.modEntry_same)
    | (with_reducible apply State.modLink_same) | (with_reducible apply State.Same.foldl) | (intro)

theorem State.withdrawSends_same {s0 s : State} (uid : Nat) (hk : s0.Same s) :
    s0.Same (State.withdrawSends s uid) := by
  unfold State.withdrawSends
  repeat' first
    | (with_reducible assumption) | (with_reducible apply State.modEntry_same)
    | (with_reducible apply State.unsend_same) | (with_reducible apply State.engineOpen_same) | (intro) | split
    | (dsimp only) | (with_reducible refine State.Same.mk' ?_ rfl rfl rfl)

theorem State.withdrawHeld_same {s0 s : State} (hk : s0.Same s) :
    s0.Same (State.withdrawHeld s) := by
  unfold State.withdrawHeld
  repeat' first
    | (with_reducible assumption) | (with_reducible apply State.withdrawReq_same)
    | (with_reducible apply State.withdrawSends_same) | (with_reducible apply State.modLink_same)
    | (with_reducible apply State.Same.foldl) | (intro) | (with_reducible refine State.Same.mk' ?_ rfl rfl rfl)

theorem State.holdTick_same {s0 s : State} (hk : s0.Same s) :
    s0.Same (State.holdTick s) := by
  unfold State.holdTick
  repeat' first
    | (with_reducible assumption) | (with_reducible apply State.modLink_same)
    | (with_reducible apply State.Same.foldl) | (with_reducible apply State.Same.ite) | (intro)
    | (with_reducible refine State.Same.mk' ?_ rfl rfl rfl)

theorem execEgressHoldRelease_same {s0 s : State} (hk : s0.Same s) :
    ∃ z, execEgressHoldRelease s = .next z ∧ s0.Same z := by
  unfold execEgressHoldRelease
  refine ⟨_, rfl, ?_⟩
  repeat' first
    | (with_reducible assumption) | (with_reducible apply State.modLink_same)
    | (with_reducible apply State.Same.foldl) | (with_reducible apply State.Same.ite) | (intro)
    | (with_reducible refine State.Same.mk' ?_ rfl rfl rfl)

theorem State.sashMismatch_same {s0 s : State} (t : Thread) (detail : BitVec 16) (hk : s0.Same s) :
    s0.Same (State.sashMismatch s t detail) := by
  unfold State.sashMismatch
  repeat' first
    | (with_reducible assumption) | (with_reducible apply State.stopAtBoundary_same)
    | (with_reducible apply State.modTh_same) | (with_reducible apply State.excPush_same)
    | (with_reducible apply State.irqSet_same) | (with_reducible apply State.withdrawHeld_same)
    | (with_reducible apply State.integrity_same)

theorem State.lockstep_same {s0 s : State} (t : Thread) (u : Upset) (g : State → State) (hg : ∀ y, s0.Same y →
    s0.Same (g y)) (hk : s0.Same s) :
    s0.Same (State.lockstep s t u g) := by
  unfold State.lockstep
  repeat' first
    | (with_reducible assumption) | (with_reducible apply hg) | (with_reducible apply State.sashMismatch_same)
    | (intro) | split

theorem State.ifRun_same {s0 s : State} (t : Thread) (g : State → State) (hg : ∀ y, s0.Same y → s0.Same (g y)) (hk :
    s0.Same s) :
    s0.Same (State.ifRun s t g) := by
  unfold State.ifRun
  repeat' first
    | (with_reducible assumption) | (with_reducible apply hg) | (with_reducible apply State.lockstep_same)
    | (with_reducible apply State.struck_same) | (with_reducible apply State.Same.ite) | (intro)
    | (with_reducible refine State.Same.mk' ?_ rfl rfl rfl)

end Sys2Proof.Machine
end

