-- ==== Sys2Proof/Laws/SameSashScalar.lean ====
section
/-! SUPPORT. Operations of Machine/SashScalar.lean that change no byte of the block. -/

namespace Sys2Proof.Machine

theorem State.writeRd_same {s0 s : State} (t : Thread) (rd : Reg) (v : Word) (hk : s0.Same s) :
    s0.Same (State.writeRd s t rd v) := by
  unfold State.writeRd
  repeat' first
    | (with_reducible assumption) | (with_reducible apply State.advance_same)
    | (with_reducible apply State.setReg_same)

theorem execOp_same {s0 s : State} (t : Thread) (rd : Reg) (ra : Reg) (rb : Reg) (fn : BitVec 11) (u : Upset) (hk :
    s0.Same s) :
    ∃ z, execOp t rd ra rb fn u s = .next z ∧ s0.Same z := by
  unfold execOp
  refine ⟨_, rfl, ?_⟩
  repeat' first
    | (with_reducible assumption) | (with_reducible apply State.ifRun_same)
    | (with_reducible apply State.lockstep_same) | (with_reducible apply State.writeRd_same)
    | (with_reducible apply State.illegal_same) | (intro) | split

theorem execAddi_same {s0 s : State} (t : Thread) (rd : Reg) (ra : Reg) (imm : BitVec 16) (hk : s0.Same s) :
    ∃ z, execAddi t rd ra imm s = .next z ∧ s0.Same z := by
  unfold execAddi
  refine ⟨_, rfl, ?_⟩
  repeat' first
    | (with_reducible assumption) | (with_reducible apply State.ifRun_same)
    | (with_reducible apply State.writeRd_same) | (intro)

theorem execAndi_same {s0 s : State} (t : Thread) (rd : Reg) (ra : Reg) (imm : BitVec 16) (hk : s0.Same s) :
    ∃ z, execAndi t rd ra imm s = .next z ∧ s0.Same z := by
  unfold execAndi
  refine ⟨_, rfl, ?_⟩
  repeat' first
    | (with_reducible assumption) | (with_reducible apply State.ifRun_same)
    | (with_reducible apply State.writeRd_same) | (intro)

theorem execOri_same {s0 s : State} (t : Thread) (rd : Reg) (ra : Reg) (imm : BitVec 16) (hk : s0.Same s) :
    ∃ z, execOri t rd ra imm s = .next z ∧ s0.Same z := by
  unfold execOri
  refine ⟨_, rfl, ?_⟩
  repeat' first
    | (with_reducible assumption) | (with_reducible apply State.ifRun_same)
    | (with_reducible apply State.writeRd_same) | (intro)

theorem execXori_same {s0 s : State} (t : Thread) (rd : Reg) (ra : Reg) (imm : BitVec 16) (hk : s0.Same s) :
    ∃ z, execXori t rd ra imm s = .next z ∧ s0.Same z := by
  unfold execXori
  refine ⟨_, rfl, ?_⟩
  repeat' first
    | (with_reducible assumption) | (with_reducible apply State.ifRun_same)
    | (with_reducible apply State.writeRd_same) | (intro)

theorem execSlti_same {s0 s : State} (t : Thread) (rd : Reg) (ra : Reg) (imm : BitVec 16) (hk : s0.Same s) :
    ∃ z, execSlti t rd ra imm s = .next z ∧ s0.Same z := by
  unfold execSlti
  refine ⟨_, rfl, ?_⟩
  repeat' first
    | (with_reducible assumption) | (with_reducible apply State.ifRun_same)
    | (with_reducible apply State.writeRd_same) | (with_reducible apply State.Same.ite) | (intro)

theorem execSltiu_same {s0 s : State} (t : Thread) (rd : Reg) (ra : Reg) (imm : BitVec 16) (hk : s0.Same s) :
    ∃ z, execSltiu t rd ra imm s = .next z ∧ s0.Same z := by
  unfold execSltiu
  refine ⟨_, rfl, ?_⟩
  repeat' first
    | (with_reducible assumption) | (with_reducible apply State.ifRun_same)
    | (with_reducible apply State.writeRd_same) | (with_reducible apply State.Same.ite) | (intro)

theorem execShi_same {s0 s : State} (t : Thread) (rd : Reg) (ra : Reg) (imm : BitVec 16) (hk : s0.Same s) :
    ∃ z, execShi t rd ra imm s = .next z ∧ s0.Same z := by
  unfold execShi
  refine ⟨_, rfl, ?_⟩
  repeat' first
    | (with_reducible assumption) | (with_reducible apply State.ifRun_same)
    | (with_reducible apply State.writeRd_same) | (with_reducible apply State.illegal_same) | (intro) | split

theorem execMovi_same {s0 s : State} (t : Thread) (rd : Reg) (ra : Reg) (imm : BitVec 16) (hk : s0.Same s) :
    ∃ z, execMovi t rd ra imm s = .next z ∧ s0.Same z := by
  unfold execMovi
  refine ⟨_, rfl, ?_⟩
  repeat' first
    | (with_reducible assumption) | (with_reducible apply State.ifRun_same)
    | (with_reducible apply State.writeRd_same) | (with_reducible apply State.illegal_same)
    | (with_reducible apply State.Same.ite) | (intro)

theorem execIns16_same {s0 s : State} (t : Thread) (rd : Reg) (ra : Reg) (imm : BitVec 16) (hk : s0.Same s) :
    ∃ z, execIns16 t rd ra imm s = .next z ∧ s0.Same z := by
  unfold execIns16
  refine ⟨_, rfl, ?_⟩
  repeat' first
    | (with_reducible assumption) | (with_reducible apply State.ifRun_same)
    | (with_reducible apply State.writeRd_same) | (with_reducible apply State.illegal_same)
    | (with_reducible apply State.Same.ite) | (intro)

theorem State.dmemUe_same {s0 s : State} (t : Thread) (a : Word) (detail : BitVec 16) (hk : s0.Same s) :
    s0.Same (State.dmemUe s t a detail) := by
  unfold State.dmemUe
  repeat' first
    | (with_reducible assumption) | (with_reducible apply State.stopExc_same)
    | (with_reducible apply State.withdrawHeld_same) | (with_reducible apply State.integrity_same)
    | (with_reducible refine State.Same.mk' ?_ rfl rfl rfl)

theorem State.dmemCe_same {s0 s : State} (hk : s0.Same s) :
    s0.Same (State.dmemCe s) := by
  unfold State.dmemCe
  repeat' first
    | (with_reducible assumption) | (with_reducible apply State.corrected_same)
    | (with_reducible refine State.Same.mk' ?_ rfl rfl rfl)

theorem State.load_same {s0 s : State} (t : Thread) (rd : Reg) (ra : Reg) (imm : BitVec 16) (u : Upset) (n : Nat)
    (ext : Nat → Word) (hk : s0.Same s) :
    s0.Same (State.load s t rd ra imm u n ext) := by
  unfold State.load
  repeat' first
    | (with_reducible assumption) | (with_reducible apply State.ifRun_same)
    | (with_reducible apply State.stopExc_same) | (with_reducible apply State.dmemUe_same)
    | (with_reducible apply State.writeRd_same) | (with_reducible apply State.dmemCe_same) | (intro) | split
    | (dsimp only)

theorem execLb_same {s0 s : State} (t : Thread) (rd : Reg) (ra : Reg) (imm : BitVec 16) (u : Upset) (hk : s0.Same s) :
    ∃ z, execLb t rd ra imm u s = .next z ∧ s0.Same z := by
  unfold execLb
  refine ⟨_, rfl, ?_⟩
  repeat' first
    | (with_reducible assumption) | (with_reducible apply State.load_same)

theorem execLbu_same {s0 s : State} (t : Thread) (rd : Reg) (ra : Reg) (imm : BitVec 16) (u : Upset) (hk : s0.Same s)
    :
    ∃ z, execLbu t rd ra imm u s = .next z ∧ s0.Same z := by
  unfold execLbu
  refine ⟨_, rfl, ?_⟩
  repeat' first
    | (with_reducible assumption) | (with_reducible apply State.load_same)

theorem execLh_same {s0 s : State} (t : Thread) (rd : Reg) (ra : Reg) (imm : BitVec 16) (u : Upset) (hk : s0.Same s) :
    ∃ z, execLh t rd ra imm u s = .next z ∧ s0.Same z := by
  unfold execLh
  refine ⟨_, rfl, ?_⟩
  repeat' first
    | (with_reducible assumption) | (with_reducible apply State.load_same)

theorem execLhu_same {s0 s : State} (t : Thread) (rd : Reg) (ra : Reg) (imm : BitVec 16) (u : Upset) (hk : s0.Same s)
    :
    ∃ z, execLhu t rd ra imm u s = .next z ∧ s0.Same z := by
  unfold execLhu
  refine ⟨_, rfl, ?_⟩
  repeat' first
    | (with_reducible assumption) | (with_reducible apply State.load_same)

theorem execLw_same {s0 s : State} (t : Thread) (rd : Reg) (ra : Reg) (imm : BitVec 16) (u : Upset) (hk : s0.Same s) :
    ∃ z, execLw t rd ra imm u s = .next z ∧ s0.Same z := by
  unfold execLw
  refine ⟨_, rfl, ?_⟩
  repeat' first
    | (with_reducible assumption) | (with_reducible apply State.load_same)

theorem execLwu_same {s0 s : State} (t : Thread) (rd : Reg) (ra : Reg) (imm : BitVec 16) (u : Upset) (hk : s0.Same s)
    :
    ∃ z, execLwu t rd ra imm u s = .next z ∧ s0.Same z := by
  unfold execLwu
  refine ⟨_, rfl, ?_⟩
  repeat' first
    | (with_reducible assumption) | (with_reducible apply State.load_same)

theorem execLd_same {s0 s : State} (t : Thread) (rd : Reg) (ra : Reg) (imm : BitVec 16) (u : Upset) (hk : s0.Same s) :
    ∃ z, execLd t rd ra imm u s = .next z ∧ s0.Same z := by
  unfold execLd
  refine ⟨_, rfl, ?_⟩
  repeat' first
    | (with_reducible assumption) | (with_reducible apply State.load_same)

theorem execMld_same {s0 s : State} (t : Thread) (rd : Reg) (ra : Reg) (imm : BitVec 16) (hk : s0.Same s) :
    ∃ z, execMld t rd ra imm s = .next z ∧ s0.Same z := by
  unfold execMld
  refine ⟨_, rfl, ?_⟩
  repeat' first
    | (with_reducible assumption) | (with_reducible apply State.ifRun_same)
    | (with_reducible apply State.jambAdd_same) | (with_reducible apply State.waitMem_same)
    | (with_reducible apply State.modTh_same) | (with_reducible apply State.stopExc_same)
    | (with_reducible apply State.Same.ite) | (intro)

theorem execMst_same {s0 s : State} (t : Thread) (rd : Reg) (ra : Reg) (imm : BitVec 16) (hk : s0.Same s) :
    ∃ z, execMst t rd ra imm s = .next z ∧ s0.Same z := by
  unfold execMst
  refine ⟨_, rfl, ?_⟩
  repeat' first
    | (with_reducible assumption) | (with_reducible apply State.ifRun_same)
    | (with_reducible apply State.jambAdd_same) | (with_reducible apply State.advance_same)
    | (with_reducible apply State.modTh_same) | (with_reducible apply State.stopExc_same)
    | (with_reducible apply State.Same.ite) | (intro)

theorem State.jump_same {s0 s : State} (t : Thread) (target : Word) (g : State → State) (hg : ∀ y, s0.Same y →
    s0.Same (g y)) (hk : s0.Same s) :
    s0.Same (State.jump s t target g) := by
  unfold State.jump
  repeat' first
    | (with_reducible assumption) | (with_reducible apply hg) | (with_reducible apply State.stopExc_same)
    | (with_reducible apply State.goto_same) | (with_reducible apply State.Same.ite) | (intro)

theorem State.branch_same {s0 s : State} (t : Thread) (taken : Bool) (off : BitVec 16) (hk : s0.Same s) :
    s0.Same (State.branch s t taken off) := by
  unfold State.branch
  exact State.Same.ite (fun _ => State.jump_same _ _ _ (fun _ k => k) hk) fun _ => State.advance_same _ _ hk

theorem execBeq_same {s0 s : State} (t : Thread) (ra : Reg) (rb : Reg) (off : BitVec 16) (hk : s0.Same s) :
    ∃ z, execBeq t ra rb off s = .next z ∧ s0.Same z := by
  unfold execBeq
  refine ⟨_, rfl, ?_⟩
  repeat' first
    | (with_reducible assumption) | (with_reducible apply State.ifRun_same)
    | (with_reducible apply State.branch_same) | (intro)

theorem execBne_same {s0 s : State} (t : Thread) (ra : Reg) (rb : Reg) (off : BitVec 16) (hk : s0.Same s) :
    ∃ z, execBne t ra rb off s = .next z ∧ s0.Same z := by
  unfold execBne
  refine ⟨_, rfl, ?_⟩
  repeat' first
    | (with_reducible assumption) | (with_reducible apply State.ifRun_same)
    | (with_reducible apply State.branch_same) | (intro)

theorem execBlt_same {s0 s : State} (t : Thread) (ra : Reg) (rb : Reg) (off : BitVec 16) (hk : s0.Same s) :
    ∃ z, execBlt t ra rb off s = .next z ∧ s0.Same z := by
  unfold execBlt
  refine ⟨_, rfl, ?_⟩
  repeat' first
    | (with_reducible assumption) | (with_reducible apply State.ifRun_same)
    | (with_reducible apply State.branch_same) | (intro)

theorem execBge_same {s0 s : State} (t : Thread) (ra : Reg) (rb : Reg) (off : BitVec 16) (hk : s0.Same s) :
    ∃ z, execBge t ra rb off s = .next z ∧ s0.Same z := by
  unfold execBge
  refine ⟨_, rfl, ?_⟩
  repeat' first
    | (with_reducible assumption) | (with_reducible apply State.ifRun_same)
    | (with_reducible apply State.branch_same) | (intro)

theorem execBltu_same {s0 s : State} (t : Thread) (ra : Reg) (rb : Reg) (off : BitVec 16) (hk : s0.Same s) :
    ∃ z, execBltu t ra rb off s = .next z ∧ s0.Same z := by
  unfold execBltu
  refine ⟨_, rfl, ?_⟩
  repeat' first
    | (with_reducible assumption) | (with_reducible apply State.ifRun_same)
    | (with_reducible apply State.branch_same) | (intro)

theorem execBgeu_same {s0 s : State} (t : Thread) (ra : Reg) (rb : Reg) (off : BitVec 16) (hk : s0.Same s) :
    ∃ z, execBgeu t ra rb off s = .next z ∧ s0.Same z := by
  unfold execBgeu
  refine ⟨_, rfl, ?_⟩
  repeat' first
    | (with_reducible assumption) | (with_reducible apply State.ifRun_same)
    | (with_reducible apply State.branch_same) | (intro)

theorem execJal_same {s0 s : State} (t : Thread) (off : BitVec 26) (hk : s0.Same s) :
    ∃ z, execJal t off s = .next z ∧ s0.Same z := by
  unfold execJal
  refine ⟨_, rfl, ?_⟩
  repeat' first
    | (with_reducible assumption) | (with_reducible apply State.ifRun_same)
    | (with_reducible apply State.jump_same) | (with_reducible apply State.setReg_same) | (intro)

theorem execJalr_same {s0 s : State} (t : Thread) (rd : Reg) (ra : Reg) (imm : BitVec 16) (hk : s0.Same s) :
    ∃ z, execJalr t rd ra imm s = .next z ∧ s0.Same z := by
  unfold execJalr
  refine ⟨_, rfl, ?_⟩
  repeat' first
    | (with_reducible assumption) | (with_reducible apply State.ifRun_same)
    | (with_reducible apply State.jump_same) | (with_reducible apply State.setReg_same) | (intro)

theorem execIllegalInstruction_same {s0 s : State} (t : Thread) (word : BitVec 32) (hk : s0.Same s) :
    ∃ z, execIllegalInstruction t word s = .next z ∧ s0.Same z := by
  unfold execIllegalInstruction
  refine ⟨_, rfl, ?_⟩
  repeat' first
    | (with_reducible assumption) | (with_reducible apply State.ifRun_same)
    | (with_reducible apply State.illegal_same) | (intro) | split

end Sys2Proof.Machine
end

