-- ==== Sys2Proof/Laws/SameSashFp.lean ====
section
/-! SUPPORT. Operations of Machine/SashFp.lean that change no byte of the block. -/

namespace Sys2Proof.Machine

theorem State.raiseFflags_same {s0 s : State} (t : Thread) (f : Flags) (hk : s0.Same s) :
    s0.Same (State.raiseFflags s t f) := by
  unfold State.raiseFflags
  repeat' first
    | (with_reducible assumption) | (with_reducible apply State.modTh_same)
    | (with_reducible apply State.alarmFlags_same)

theorem execFp_same {s0 s : State} (t : Thread) (rd : Reg) (ra : Reg) (rb : Reg) (rc : Reg) (fn : BitVec 6) (u :
    Upset) (hk : s0.Same s) :
    ∃ z, execFp t rd ra rb rc fn u s = .next z ∧ s0.Same z := by
  unfold execFp
  refine ⟨_, rfl, ?_⟩
  repeat' first
    | (with_reducible assumption) | (with_reducible apply State.ifRun_same)
    | (with_reducible apply State.lockstep_same) | (with_reducible apply State.writeRd_same)
    | (with_reducible apply State.raiseFflags_same) | (with_reducible apply State.illegal_same) | (intro) | split

end Sys2Proof.Machine
end

