-- ==== Sys2Proof/Laws/SameCasWords.lean ====
section
/-! SUPPORT. Operations of Machine/CasWords.lean that change no byte of the block. -/

namespace Sys2Proof.Machine

theorem State.casRaise_same {s0 s : State} (t : Thread) (ctx : Nat) (iseq : BitVec 32) (f : Flags) (hk : s0.Same s) :
    s0.Same (State.casRaise s t ctx iseq f) := by
  unfold State.casRaise
  repeat' first
    | (with_reducible assumption) | (with_reducible apply State.modEr_same)
    | (with_reducible apply State.alarmFlags_same) | (with_reducible apply State.Same.ite) | (intro)

end Sys2Proof.Machine
end

