-- ==== Sys2Proof/Laws/SameIssue.lean ====
section
/-! SUPPORT. Operations of Machine/Issue.lean that change no byte of the block. -/

namespace Sys2Proof.Machine

theorem State.issueChecked_same {s0 s : State} (t : Thread) (i : Issue) (hk : s0.Same s) :
    s0.Same (State.issueChecked s t i) := by
  unfold State.issueChecked
  repeat' first
    | (with_reducible assumption) | (with_reducible apply State.refuse_same)
    | (with_reducible apply State.enter_same) | (with_reducible apply State.casRaise_same) | split

theorem State.issueResolve_same {s0 s : State} (t : Thread) (i : Issue) (hk : s0.Same s) :
    s0.Same (State.issueResolve s t i) := by
  unfold State.issueResolve
  have hr := State.resolveAll_same t (s.handles t i) i.resolved ((s.handles t i).length + 1) hk
  dsimp only
  split
  · exact State.waitFill_same _ _ _ hr
  · exact State.refuse_same _ _ _ _ hr
  · exact State.issueChecked_same _ _ hr

theorem State.issueRecord_same {s0 s : State} (t : Thread) (i : Issue) (hk : s0.Same s) :
    s0.Same (State.issueRecord s t i) := by
  unfold State.issueRecord
  repeat' first
    | (with_reducible assumption) | (with_reducible apply State.refuse_same)
    | (with_reducible apply State.jambAdd_same) | (with_reducible apply State.waitMem_same)
    | (with_reducible apply State.modTh_same) | (with_reducible apply State.Same.ite) | (intro) | split

theorem State.recordArrived_same {s0 s : State} (t : Thread) (i : Issue) (bs : Option (List Byte)) (hk : s0.Same s) :
    s0.Same (State.recordArrived s t i bs) := by
  unfold State.recordArrived
  repeat' first
    | (with_reducible assumption) | (with_reducible apply State.refuse_same)
    | (with_reducible apply State.issueResolve_same) | (with_reducible apply State.Same.ite) | (intro) | split

theorem State.fetchWords_same {s0 s : State} (t : Thread) (i : Issue) (hk : s0.Same s) :
    s0.Same (State.fetchWords s t i) := by
  unfold State.fetchWords
  repeat' first
    | (with_reducible assumption) | (with_reducible apply State.fetchAt_same)
    | (with_reducible apply State.Same.foldl) | (with_reducible apply State.Same.ite) | (intro)

theorem State.issue_same {s0 s : State} (t : Thread) (i : Issue) (hk : s0.Same s) :
    s0.Same (State.issue s t i) := by
  unfold State.issue
  repeat' first
    | (with_reducible assumption) | (with_reducible apply State.ifRun_same)
    | (with_reducible apply State.illegal_same) | (with_reducible apply State.fetchWords_same)
    | (with_reducible apply State.parityCheck_same) | (with_reducible apply State.issueRecord_same)
    | (with_reducible apply State.issueResolve_same) | (with_reducible apply State.Same.ite) | (intro)

theorem execLatMM_same {s0 s : State} (t : Thread) (rd : Reg) (ra : Reg) (lat : BitVec 6) (ef : BitVec 10) (hk :
    s0.Same s) :
    ∃ z, execLatMM t rd ra lat ef s = .next z ∧ s0.Same z := by
  unfold execLatMM
  refine ⟨_, rfl, ?_⟩
  repeat' first
    | (with_reducible assumption) | (with_reducible apply State.issue_same)

theorem execLatMMQ_same {s0 s : State} (t : Thread) (rd : Reg) (ra : Reg) (lat : BitVec 6) (ef : BitVec 10) (hk :
    s0.Same s) :
    ∃ z, execLatMMQ t rd ra lat ef s = .next z ∧ s0.Same z := by
  unfold execLatMMQ
  refine ⟨_, rfl, ?_⟩
  repeat' first
    | (with_reducible assumption) | (with_reducible apply State.issue_same)

theorem execCasw_same {s0 s : State} (t : Thread) (rd : Reg) (ra : Reg) (lat : BitVec 6) (ef : BitVec 10) (words :
    List (BitVec 32)) (hk : s0.Same s) :
    ∃ z, execCasw t rd ra lat ef words s = .next z ∧ s0.Same z := by
  unfold execCasw
  refine ⟨_, rfl, ?_⟩
  repeat' first
    | (with_reducible assumption) | (with_reducible apply State.issue_same)

theorem execTrnRelayout_same {s0 s : State} (t : Thread) (rd : Reg) (ra : Reg) (lat : BitVec 6) (ef : BitVec 9) (hk :
    s0.Same s) :
    ∃ z, execTrnRelayout t rd ra lat ef s = .next z ∧ s0.Same z := by
  unfold execTrnRelayout
  refine ⟨_, rfl, ?_⟩
  repeat' first
    | (with_reducible assumption) | (with_reducible apply State.issue_same)

theorem execTrnTranspose_same {s0 s : State} (t : Thread) (rd : Reg) (ra : Reg) (lat : BitVec 6) (ef : BitVec 9) (hk
    : s0.Same s) :
    ∃ z, execTrnTranspose t rd ra lat ef s = .next z ∧ s0.Same z := by
  unfold execTrnTranspose
  refine ⟨_, rfl, ?_⟩
  repeat' first
    | (with_reducible assumption) | (with_reducible apply State.issue_same)

theorem execSillSpill_same {s0 s : State} (t : Thread) (rd : Reg) (ra : Reg) (lat : BitVec 6) (ef : BitVec 10) (hk :
    s0.Same s) :
    ∃ z, execSillSpill t rd ra lat ef s = .next z ∧ s0.Same z := by
  unfold execSillSpill
  refine ⟨_, rfl, ?_⟩
  repeat' first
    | (with_reducible assumption) | (with_reducible apply State.issue_same)

theorem execSillDrain_same {s0 s : State} (t : Thread) (rd : Reg) (ra : Reg) (lat : BitVec 6) (ef : BitVec 10) (hk :
    s0.Same s) :
    ∃ z, execSillDrain t rd ra lat ef s = .next z ∧ s0.Same z := by
  unfold execSillDrain
  refine ⟨_, rfl, ?_⟩
  repeat' first
    | (with_reducible assumption) | (with_reducible apply State.issue_same)

theorem execXferCopy_same {s0 s : State} (t : Thread) (rd : Reg) (ra : Reg) (lat : BitVec 6) (ef : BitVec 10) (hk :
    s0.Same s) :
    ∃ z, execXferCopy t rd ra lat ef s = .next z ∧ s0.Same z := by
  unfold execXferCopy
  refine ⟨_, rfl, ?_⟩
  repeat' first
    | (with_reducible assumption) | (with_reducible apply State.issue_same)

theorem execUpdSsq_same {s0 s : State} (t : Thread) (rd : Reg) (ra : Reg) (lat : BitVec 6) (ef : BitVec 10) (hk :
    s0.Same s) :
    ∃ z, execUpdSsq t rd ra lat ef s = .next z ∧ s0.Same z := by
  unfold execUpdSsq
  refine ⟨_, rfl, ?_⟩
  repeat' first
    | (with_reducible assumption) | (with_reducible apply State.issue_same)

theorem execDwPut_same {s0 s : State} (t : Thread) (rd : Reg) (ra : Reg) (lat : BitVec 6) (ef : BitVec 10) (hk :
    s0.Same s) :
    ∃ z, execDwPut t rd ra lat ef s = .next z ∧ s0.Same z := by
  unfold execDwPut
  refine ⟨_, rfl, ?_⟩
  repeat' first
    | (with_reducible assumption) | (with_reducible apply State.issue_same)

theorem execDwPutFetch_same {s0 s : State} (t : Thread) (rd : Reg) (ra : Reg) (lat : BitVec 6) (ef : BitVec 10) (hk :
    s0.Same s) :
    ∃ z, execDwPutFetch t rd ra lat ef s = .next z ∧ s0.Same z := by
  unfold execDwPutFetch
  refine ⟨_, rfl, ?_⟩
  repeat' first
    | (with_reducible assumption) | (with_reducible apply State.issue_same)

theorem execDwRed_same {s0 s : State} (t : Thread) (rd : Reg) (ra : Reg) (lat : BitVec 6) (ef : BitVec 10) (hk :
    s0.Same s) :
    ∃ z, execDwRed t rd ra lat ef s = .next z ∧ s0.Same z := by
  unfold execDwRed
  refine ⟨_, rfl, ?_⟩
  repeat' first
    | (with_reducible assumption) | (with_reducible apply State.issue_same)

theorem execUpdApply_same {s0 s : State} (t : Thread) (rd : Reg) (ra : Reg) (lat : BitVec 6) (ef : BitVec 10) (hk :
    s0.Same s) :
    ∃ z, execUpdApply t rd ra lat ef s = .next z ∧ s0.Same z := by
  unfold execUpdApply
  refine ⟨_, rfl, ?_⟩
  repeat' first
    | (with_reducible assumption) | (with_reducible apply State.issue_same)

theorem execUpdAdv_same {s0 s : State} (t : Thread) (rd : Reg) (ra : Reg) (lat : BitVec 6) (ef : BitVec 10) (hk :
    s0.Same s) :
    ∃ z, execUpdAdv t rd ra lat ef s = .next z ∧ s0.Same z := by
  unfold execUpdAdv
  refine ⟨_, rfl, ?_⟩
  repeat' first
    | (with_reducible assumption) | (with_reducible apply State.issue_same)

theorem execUpdNorm_same {s0 s : State} (t : Thread) (rd : Reg) (ra : Reg) (lat : BitVec 6) (ef : BitVec 10) (hk :
    s0.Same s) :
    ∃ z, execUpdNorm t rd ra lat ef s = .next z ∧ s0.Same z := by
  unfold execUpdNorm
  refine ⟨_, rfl, ?_⟩
  repeat' first
    | (with_reducible assumption) | (with_reducible apply State.issue_same)

theorem execUpdRoot_same {s0 s : State} (t : Thread) (rd : Reg) (ra : Reg) (lat : BitVec 6) (ef : BitVec 10) (hk :
    s0.Same s) :
    ∃ z, execUpdRoot t rd ra lat ef s = .next z ∧ s0.Same z := by
  unfold execUpdRoot
  refine ⟨_, rfl, ?_⟩
  repeat' first
    | (with_reducible assumption) | (with_reducible apply State.issue_same)

theorem execUpdRearm_same {s0 s : State} (t : Thread) (rd : Reg) (ra : Reg) (lat : BitVec 6) (ef : BitVec 10) (hk :
    s0.Same s) :
    ∃ z, execUpdRearm t rd ra lat ef s = .next z ∧ s0.Same z := by
  unfold execUpdRearm
  refine ⟨_, rfl, ?_⟩
  repeat' first
    | (with_reducible assumption) | (with_reducible apply State.issue_same)

theorem execLaneRoom_same {s0 s : State} (t : Thread) (hk : s0.Same s) :
    ∃ z, execLaneRoom t s = .next z ∧ s0.Same z := by
  unfold execLaneRoom
  split
  · exact ⟨_, rfl, State.Same.ite (fun _ => State.accept_same _ _ hk) fun _ => hk⟩
  · exact ⟨_, rfl, hk⟩

end Sys2Proof.Machine
end

