-- ==== Sys2Proof/Laws/SameLattice.lean ====
section
/-! SUPPORT. Operations of Machine/Lattice.lean that change no byte of the block. -/

namespace Sys2Proof.Machine

theorem State.entryDone_same {s0 s : State} (uid : Nat) (hk : s0.Same s) :
    s0.Same (State.entryDone s uid) := by
  unfold State.entryDone
  repeat' first
    | (with_reducible assumption) | (with_reducible apply State.engineOpen_same)
    | (with_reducible apply State.modEntry_same) | (intro) | split

theorem State.modRun_same {s0 s : State} (uid : Nat) (g : LatRun → LatRun) (hk : s0.Same s) :
    s0.Same (State.modRun s uid g) := by
  unfold State.modRun
  repeat' first
    | (with_reducible assumption) | (intro) | (with_reducible refine State.Same.mk' ?_ rfl rfl rfl)

theorem State.latRaise_same {s0 s : State} (e : Entry) (f : Flags) (hk : s0.Same s) :
    s0.Same (State.latRaise s e f) := by
  unfold State.latRaise
  repeat' first
    | (with_reducible assumption) | (with_reducible apply State.modEr_same)
    | (with_reducible apply State.alarmFlags_same) | (with_reducible apply State.Same.ite) | (intro)

theorem State.queueStop_same {s0 s : State} (q : Nat) (hk : s0.Same s) :
    s0.Same (State.queueStop s q) := by
  unfold State.queueStop
  repeat' first
    | (with_reducible assumption) | (with_reducible refine State.Same.mk' ?_ rfl rfl rfl)

theorem State.queueRelease_same {s0 s : State} (q : Nat) (hk : s0.Same s) :
    s0.Same (State.queueRelease s q) := by
  unfold State.queueRelease
  repeat' first
    | (with_reducible assumption) | (with_reducible apply State.Same.ite) | (intro)
    | (with_reducible refine State.Same.mk' ?_ rfl rfl rfl)

theorem State.sillFault_same {s0 s : State} (line : Option Nat) (cause : Nat) (hk : s0.Same s) :
    s0.Same (State.sillFault s line cause) := by
  unfold State.sillFault
  repeat' first
    | (with_reducible assumption) | (with_reducible apply State.modEr_same)

theorem State.sillCorrected_same {s0 s : State} (hk : s0.Same s) :
    s0.Same (State.sillCorrected s) := by
  unfold State.sillCorrected
  repeat' first
    | (with_reducible assumption) | (with_reducible apply State.corrected_same)
    | (with_reducible apply State.modEr_same)

theorem State.sillLineBad_same {s0 s : State} (e : Entry) (d : BitVec 16) (hk : s0.Same s) :
    s0.Same (State.sillLineBad s e d) := by
  unfold State.sillLineBad
  repeat' first
    | (with_reducible assumption) | (with_reducible apply State.classS_same)
    | (with_reducible apply State.sillFault_same) | (with_reducible apply State.modEntry_same)

theorem State.latFault_same {s0 s : State} (x : Product) (lat : Nat) (half : Nat) (shared : Bool) (mech : Nat) (cause
    : Nat) (detail : Option (BitVec 16)) (hk : s0.Same s) :
    s0.Same (State.latFault s x lat half shared mech cause detail) := by
  unfold State.latFault
  repeat' first
    | (with_reducible assumption) | (with_reducible apply State.modEr_same)
    | (with_reducible apply State.modEntry_same) | (with_reducible apply State.queueStop_same)
    | (with_reducible apply State.integrity_same) | (with_reducible apply State.Same.foldl)
    | (with_reducible apply State.Same.ite) | (intro) | split

theorem State.slotCount_same {s0 s : State} (lat : Nat) (valid : Bool) (hk : s0.Same s) :
    s0.Same (State.slotCount s lat valid) := by
  unfold State.slotCount
  repeat' first
    | (with_reducible assumption) | (with_reducible apply State.modEr_same)

theorem State.modCells_same {s0 s : State} (i : Nat) (g : Cells → Cells) (hk : s0.Same s) :
    s0.Same (State.modCells s i g) := by
  unfold State.modCells
  repeat' first
    | (with_reducible assumption) | (with_reducible refine State.Same.mk' ?_ rfl rfl rfl)

theorem State.clockRanks_same {s0 s : State} (p : Nat) (stop : Nat → Bool) (hk : s0.Same s) :
    s0.Same (State.clockRanks s p stop) := by
  unfold State.clockRanks
  repeat' first
    | (with_reducible assumption) | (with_reducible apply State.modCells_same)
    | (with_reducible apply State.Same.foldl) | (intro)

theorem State.feed_same {s0 s : State} (p : Nat) (rank : Nat) (ready : Bool) (hk : s0.Same s) :
    s0.Same (State.feed s p rank ready) := by
  unfold State.feed
  repeat' first
    | (with_reducible assumption) | (with_reducible apply State.modRun_same)
    | (with_reducible apply State.linesShut_same) | (with_reducible apply State.Same.foldl)
    | (with_reducible apply State.Same.ite) | (intro) | split

theorem State.shadowLoad_same {s0 s : State} (p : Nat) (i : Nat) (t : Tile) (hk : s0.Same s) :
    s0.Same (State.shadowLoad s p i t) := by
  unfold State.shadowLoad
  repeat' first
    | (with_reducible assumption) | (with_reducible apply State.linesShut_same)
    | (with_reducible apply State.modCells_same) | (with_reducible apply State.Same.ite) | (intro) | split

theorem State.loadTile_same {s0 s : State} (p : Nat) (rank : Nat) (ready : Bool) (hk : s0.Same s) :
    s0.Same (State.loadTile s p rank ready) := by
  unfold State.loadTile
  repeat' first
    | (with_reducible assumption) | (with_reducible apply State.shadowLoad_same)
    | (with_reducible apply State.Same.ite) | (intro) | split

theorem State.selectTile_same {s0 s : State} (x : Product) (r : LatRun) (p : Nat) (rank : Nat) (hk : s0.Same s) :
    s0.Same (State.selectTile s x r p rank) := by
  unfold State.selectTile
  repeat' first
    | (with_reducible assumption) | (with_reducible apply State.modCells_same)
    | (with_reducible apply State.Same.ite) | (intro)

theorem State.inject_same {s0 s : State} (r : LatRun) (x : Product) (p : Nat) (rank : Nat) (hk : s0.Same s) :
    s0.Same (State.inject s r x p rank) := by
  unfold State.inject
  repeat' first
    | (with_reducible assumption) | (with_reducible apply State.modRun_same)
    | (with_reducible apply State.selectTile_same) | (with_reducible apply State.slotCount_same)
    | (with_reducible apply State.engineOpen_same) | (with_reducible apply State.Same.ite) | (intro)

theorem State.vectorSlot_same {s0 s : State} (p : Nat) (rank : Nat) (ready : Bool) (hk : s0.Same s) :
    s0.Same (State.vectorSlot s p rank ready) := by
  unfold State.vectorSlot
  repeat' first
    | (with_reducible assumption) | (with_reducible apply State.loadTile_same)
    | (with_reducible apply State.feed_same) | (with_reducible apply State.inject_same)
    | (with_reducible apply State.slotCount_same) | (with_reducible apply State.Same.ite) | (intro) | split
    | (dsimp only)

theorem execVectorSlot_same {s0 s : State} (p : Fin 8) (rank : Fin 4) (ready : Bool) (u : Upset) (hk : s0.Same s) :
    ∃ z, execVectorSlot p rank ready u s = .next z ∧ s0.Same z := by
  unfold execVectorSlot
  refine ⟨_, rfl, ?_⟩
  repeat' first
    | (with_reducible assumption) | (with_reducible apply State.vectorSlot_same)
    | (with_reducible apply State.corrected_same) | (with_reducible apply State.latFault_same)
    | (with_reducible apply State.Same.ite) | (intro) | split

theorem State.priorShut_same {s0 s : State} (x : Product) (n : Nat) (hk : s0.Same s) :
    s0.Same (State.priorShut s x n) := by
  unfold State.priorShut
  repeat' first
    | (with_reducible assumption) | (with_reducible apply State.shutAccess_same)
    | (with_reducible apply State.Same.ite) | (intro)

theorem State.blockFault_same {s0 s : State} (x : Product) (lat : Nat) (half : Nat) (prior : Bool) (d : BitVec 16)
    (hk : s0.Same s) :
    s0.Same (State.blockFault s x lat half prior d) := by
  unfold State.blockFault
  repeat' first
    | (with_reducible assumption) | (with_reducible apply State.sillLineBad_same)
    | (with_reducible apply State.latFault_same) | (with_reducible apply State.Same.ite) | (intro)

theorem execBlockCompletion_same {s0 s : State} (p : Fin 8) (rank : Fin 4) (m : Nat) (n : Nat) (flip : BitVec 72) (u
    : Upset) (hk : s0.Same s) :
    ∃ z, execBlockCompletion p rank m n flip u s = .next z ∧ s0.Same z := by
  unfold execBlockCompletion
  refine ⟨_, rfl, ?_⟩
  repeat' first
    | (with_reducible assumption) | (with_reducible apply State.shutAccess_same)
    | (with_reducible apply State.priorShut_same) | (with_reducible apply State.modRun_same)
    | (with_reducible apply State.latRaise_same) | (with_reducible apply State.latFault_same)
    | (with_reducible apply State.sillCorrected_same) | (with_reducible apply State.corrected_same)
    | (with_reducible apply State.blockFault_same) | (with_reducible apply State.Same.ite) | (intro) | split

theorem State.runEnd_same {s0 s : State} (uid : Nat) (hk : s0.Same s) :
    s0.Same (State.runEnd s uid) := by
  unfold State.runEnd
  repeat' first
    | (with_reducible assumption) | (with_reducible apply State.entryDone_same) | (intro)
    | (with_reducible refine State.Same.mk' ?_ rfl rfl rfl)

theorem State.drainFault_same {s0 s : State} (x : Product) (rank : Nat) (d : BitVec 16) (hk : s0.Same s) :
    s0.Same (State.drainFault s x rank d) := by
  unfold State.drainFault
  repeat' first
    | (with_reducible assumption) | (with_reducible apply State.sillLineBad_same)
    | (with_reducible apply State.classS_same) | (with_reducible apply State.modEntry_same)
    | (with_reducible apply State.latFault_same) | (with_reducible apply State.Same.ite) | (intro)

theorem State.latStart_same {s0 s : State} (e : Entry) (hk : s0.Same s) :
    s0.Same (State.latStart s e) := by
  unfold State.latStart
  repeat' first
    | (with_reducible assumption) | (with_reducible apply State.entryDone_same)
    | (with_reducible apply State.clockRanks_same) | (with_reducible apply State.Same.ite) | (intro) | split
    | (dsimp only) | (with_reducible refine State.Same.mk' ?_ rfl rfl rfl)

end Sys2Proof.Machine
end

