-- ==== Sys2Proof/Laws/SameCasement.lean ====
section
/-! SUPPORT. Operations of Machine/Casement.lean that change no byte of the block. -/

namespace Sys2Proof.Machine

theorem State.paneSet_same {s0 s : State} (dt : Nat) (pane : Nat) (o : PaneOut) (hk : s0.Same s) :
    s0.Same (State.paneSet s dt pane o) := by
  unfold State.paneSet
  repeat' first
    | (with_reducible assumption) | (with_reducible apply State.Same.ite) | (intro)
    | (with_reducible refine State.Same.mk' ?_ rfl rfl rfl)

theorem State.paneSets_same {s0 s : State} (dt : Nat) (pane : Nat) (os : List PaneOut) (hk : s0.Same s) :
    s0.Same (State.paneSets s dt pane os) := by
  unfold State.paneSets
  repeat' first
    | (with_reducible assumption) | (with_reducible apply State.paneSet_same)
    | (with_reducible apply State.Same.foldl) | (intro)

theorem State.casArith_same {s0 s : State} (x : CasAt) (op : CasOp) (hk : s0.Same s) :
    s0.Same (State.casArith s x op) := by
  unfold State.casArith
  repeat' first
    | (with_reducible assumption) | (with_reducible apply State.paneSets_same)
    | (with_reducible apply State.casRaise_same) | (with_reducible apply State.Same.ite) | (intro)

theorem State.casLd_same {s0 s : State} (x : CasAt) (op : CasOp) (o : Opnd) (hk : s0.Same s) :
    s0.Same (State.casLd s x op o) := by
  unfold State.casLd
  repeat' first
    | (with_reducible assumption) | (with_reducible apply State.readShut_same)
    | (with_reducible apply State.paneSets_same) | (with_reducible apply State.casRaise_same)

theorem State.egressCheck_same {s0 s : State} (e : Entry) (d : Desc) (status : Nat) (hk : s0.Same s) :
    s0.Same (State.egressCheck s e d status) := by
  unfold State.egressCheck
  repeat' first
    | (with_reducible assumption) | (with_reducible apply State.struck_same)
    | (with_reducible apply State.classS_same) | (with_reducible apply State.modEntry_same)
    | (with_reducible apply State.Same.ite) | (intro) | split

theorem State.casTimed_same {s0 s : State} (x : CasAt) (op : CasOp) (hk : s0.Same s) :
    s0.Same (State.casTimed s x op) := by
  unfold State.casTimed
  repeat' first
    | (with_reducible assumption) | (with_reducible apply State.Same.ite) | (intro)
    | (with_reducible refine State.Same.mk' ?_ rfl rfl rfl)

theorem State.casLoaded_same {s0 s : State} (x : CasAt) (op : CasOp) (hk : s0.Same s) :
    s0.Same (State.casLoaded s x op) := by
  unfold State.casLoaded
  repeat' first
    | (with_reducible assumption) | (with_reducible refine State.Same.mk' ?_ rfl rfl rfl)

theorem State.casStep_same {s0 s : State} (r : CasRun) (u : CasUnit) (hk : s0.Same s) :
    s0.Same (State.casStep s r u) := by
  unfold State.casStep
  repeat' first
    | (with_reducible assumption) | (with_reducible apply State.engineOpen_same)
    | (with_reducible apply State.Same.ite) | (intro) | (with_reducible refine State.Same.mk' ?_ rfl rfl rfl)

theorem State.casFault_same {s0 s : State} (e : Entry) (cause : Nat) (pane : Nat) (group : Nat) (hk : s0.Same s) :
    s0.Same (State.casFault s e cause pane group) := by
  unfold State.casFault
  repeat' first
    | (with_reducible assumption) | (with_reducible apply State.modEr_same)

theorem State.casStop_same {s0 s : State} (uid : Nat) (hk : s0.Same s) :
    s0.Same (State.casStop s uid) := by
  unfold State.casStop
  repeat' first
    | (with_reducible assumption) | (with_reducible apply State.modEntry_same)
    | (with_reducible apply State.entryDone_same) | (with_reducible apply State.Same.ite) | (intro) | split
    | (dsimp only) | (with_reducible refine State.Same.mk' ?_ rfl rfl rfl)

theorem State.casDetect_same {s0 s : State} (e : Entry) (mech : Nat) (d : BitVec 16) (hk : s0.Same s) :
    s0.Same (State.casDetect s e mech d) := by
  unfold State.casDetect
  repeat' first
    | (with_reducible assumption) | (with_reducible apply State.classS_same)
    | (with_reducible apply State.queueRelease_same) | (with_reducible apply State.queueStop_same)
    | (with_reducible apply State.casStop_same)

theorem State.casFatal_same {s0 s : State} (e : Entry) (d : BitVec 16) (hk : s0.Same s) :
    s0.Same (State.casFatal s e d) := by
  unfold State.casFatal
  repeat' first
    | (with_reducible assumption) | (with_reducible apply State.casFault_same)
    | (with_reducible apply State.withdrawHeld_same) | (with_reducible apply State.casDetect_same)

theorem State.casBusy_same {s0 s : State} (hk : s0.Same s) :
    s0.Same (State.casBusy s) := by
  unfold State.casBusy
  repeat' first
    | (with_reducible assumption) | (with_reducible refine State.Same.mk' ?_ rfl rfl rfl)

theorem execCasementOperationStart_same {s0 s : State} (u : Upset) (hk : s0.Same s) :
    ∃ z, execCasementOperationStart u s = .next z ∧ s0.Same z := by
  unfold execCasementOperationStart
  refine ⟨_, rfl, ?_⟩
  repeat' first
    | (with_reducible assumption) | (with_reducible apply State.casBusy_same)
    | (with_reducible apply State.casTimed_same) | (with_reducible apply State.casFatal_same)
    | (with_reducible apply State.casStep_same) | (with_reducible apply State.modEr_same)
    | (with_reducible apply State.casArith_same) | (with_reducible apply State.corrected_same)
    | (with_reducible apply State.Same.ite) | (intro) | split | (dsimp only)
    | (with_reducible refine State.Same.mk' ?_ rfl rfl rfl)

theorem execCasementUnitComplete_same {s0 s : State} (hk : s0.Same s) :
    ∃ z, execCasementUnitComplete s = .next z ∧ s0.Same z := by
  unfold execCasementUnitComplete
  refine ⟨_, rfl, ?_⟩
  repeat' first
    | (with_reducible assumption) | (with_reducible apply State.entryDone_same) | split

theorem execIdleReplay_same {s0 s : State} (u : Upset) (hk : s0.Same s) :
    ∃ z, execIdleReplay u s = .next z ∧ s0.Same z := by
  unfold execIdleReplay
  refine ⟨_, rfl, ?_⟩
  repeat' first
    | (with_reducible assumption) | (with_reducible apply State.casBusy_same)
    | (with_reducible apply State.casFatal_same) | (with_reducible apply State.corrected_same)
    | (with_reducible apply State.Same.ite) | (intro) | split

theorem State.casStart_same {s0 s : State} (e : Entry) (u : CasUnit) (hk : s0.Same s) :
    s0.Same (State.casStart s e u) := by
  unfold State.casStart
  repeat' first
    | (with_reducible assumption) | (with_reducible apply State.engineOpen_same)
    | (with_reducible apply State.Same.ite) | (intro) | (with_reducible refine State.Same.mk' ?_ rfl rfl rfl)

end Sys2Proof.Machine
end

