-- ==== Sys2Proof/Laws/SameTransfer.lean ====
section
/-! SUPPORT. Operations of Machine/Transfer.lean that change no byte of the block. -/

namespace Sys2Proof.Machine

theorem State.askReads_same {s0 s : State} (uid : Nat) (as : List Nat) (hk : s0.Same s) :
    s0.Same (State.askReads s uid as) := by
  unfold State.askReads
  repeat' first
    | (with_reducible assumption) | (with_reducible apply State.jambAdd_same)
    | (with_reducible apply State.modEntry_same) | (intro) | split

theorem State.emitOut_same {s0 s : State} (uid : Nat) (held : Bool) (hk : s0.Same s) :
    s0.Same (State.emitOut s uid held) := by
  unfold State.emitOut
  repeat' first
    | (with_reducible assumption) | (with_reducible apply State.jambAdd_same)
    | (with_reducible apply State.modEntry_same) | (intro) | split

theorem State.transomStart_same {s0 s : State} (e : Entry) (src : Opnd) (dst : Opnd) (hk : s0.Same s) :
    s0.Same (State.transomStart s e src dst) := by
  unfold State.transomStart
  repeat' first
    | (with_reducible assumption) | (with_reducible apply State.askReads_same)

theorem State.transomFault_same {s0 s : State} (e : Entry) (d : BitVec 16) (hk : s0.Same s) :
    s0.Same (State.transomFault s e d) := by
  unfold State.transomFault
  repeat' first
    | (with_reducible assumption) | (with_reducible apply State.modEntry_same)
    | (with_reducible apply State.classS_same) | (with_reducible apply State.modEr_same)

theorem State.jambRaise_same {s0 s : State} (e : Entry) (f : Flags) (hk : s0.Same s) :
    s0.Same (State.jambRaise s e f) := by
  unfold State.jambRaise
  repeat' first
    | (with_reducible assumption) | (with_reducible apply State.alarmFlags_same)
    | (with_reducible apply State.Same.ite) | (intro) | (with_reducible refine State.Same.mk' ?_ rfl rfl rfl)

theorem State.noteSums_same {s0 s : State} (uid : Nat) (vs : List (Nat × BitVec 32)) (hk : s0.Same s) :
    s0.Same (State.noteSums s uid vs) := by
  unfold State.noteSums
  repeat' first
    | (with_reducible assumption) | (with_reducible apply State.noteWrite_same)
    | (with_reducible apply State.Same.foldl) | (intro)

theorem State.drainStart_same {s0 s : State} (e : Entry) (hs : Opnd) (hd : Opnd) (hk : s0.Same s) :
    s0.Same (State.drainStart s e hs hd) := by
  unfold State.drainStart
  repeat' first
    | (with_reducible assumption) | (with_reducible apply State.askReads_same)

theorem State.readOutFault_same {s0 s : State} (e : Entry) (d : BitVec 16) (hk : s0.Same s) :
    s0.Same (State.readOutFault s e d) := by
  unfold State.readOutFault
  repeat' first
    | (with_reducible assumption) | (with_reducible apply State.classS_same)
    | (with_reducible apply State.modEntry_same) | (with_reducible apply State.sillLineBad_same)
    | (with_reducible apply State.Same.ite) | (intro)

theorem State.spillBlock_same {s0 s : State} (e : Entry) (tag : Nat) (block : Nat) (hk : s0.Same s) :
    s0.Same (State.spillBlock s e tag block) := by
  unfold State.spillBlock
  repeat' first
    | (with_reducible assumption) | (with_reducible apply State.modEntry_same)
    | (with_reducible apply State.jambRaise_same) | (with_reducible apply State.jambAdd_same)
    | (with_reducible apply State.noteSums_same) | (intro) | (with_reducible refine State.Same.mk' ?_ rfl rfl rfl)

end Sys2Proof.Machine
end

