-- ==== Sys2Proof/Laws/SameRoot.lean ====
section
/-! SUPPORT. Operations of Machine/Root.lean that change no byte of the block. -/

namespace Sys2Proof.Machine

theorem State.modRoot_same {s0 s : State} (uid : Nat) (f : RootRun → RootRun) (hk : s0.Same s) :
    s0.Same (State.modRoot s uid f) := by
  unfold State.modRoot
  repeat' first
    | (with_reducible assumption) | (intro) | (with_reducible refine State.Same.mk' ?_ rfl rfl rfl)

theorem State.dropEntry_same {s0 s : State} (uid : Nat) (hk : s0.Same s) :
    s0.Same (State.dropEntry s uid) := by
  unfold State.dropEntry
  repeat' first
    | (with_reducible assumption) | (with_reducible apply State.engineOpen_same)
    | (with_reducible apply State.modTh_same) | (intro) | split | (dsimp only)
    | (with_reducible refine State.Same.mk' ?_ rfl rfl rfl)

theorem State.rootEnd_same {s0 s : State} (uid : Nat) (partUid : Nat) (status : Nat) (hk : s0.Same s) :
    s0.Same (State.rootEnd s uid partUid status) := by
  unfold State.rootEnd
  repeat' first
    | (with_reducible assumption) | (with_reducible apply State.entryDone_same)
    | (with_reducible apply State.modEntry_same) | (with_reducible apply State.dropEntry_same) | (intro)
    | (with_reducible refine State.Same.mk' ?_ rfl rfl rfl)

theorem State.rootFail_same {s0 s : State} (e : Entry) (r : RootJob) (run : RootRun) (it : Nat) (hk : s0.Same s) :
    s0.Same (State.rootFail s e r run it) := by
  unfold State.rootFail
  repeat' first
    | (with_reducible assumption) | (with_reducible apply State.setGroup_same)
    | (with_reducible apply State.rootEnd_same)

theorem State.rootSees_same {s0 s : State} (e : Entry) (o : Opnd) (drain : Bool) (vs : List Val) (hk : s0.Same s) :
    s0.Same (State.rootSees s e o drain vs) := by
  unfold State.rootSees
  repeat' first
    | (with_reducible assumption) | (with_reducible apply State.louvreSees_same)
    | (with_reducible apply State.Same.ite) | (intro)

theorem State.rootOpen_same {s0 s : State} (run : RootRun) (part : Nat) (hk : s0.Same s) :
    s0.Same (State.rootOpen s run part) := by
  unfold State.rootOpen
  repeat' first
    | (with_reducible assumption) | (with_reducible apply State.engineOpen_same)

theorem State.rootFault_same {s0 s : State} (e : Entry) (r : RootJob) (run : RootRun) (d : BitVec 16) (hk : s0.Same
    s) :
    s0.Same (State.rootFault s e r run d) := by
  unfold State.rootFault
  repeat' first
    | (with_reducible assumption) | (with_reducible apply State.queueStop_same)
    | (with_reducible apply State.modEntry_same) | (with_reducible apply State.rootEnd_same)
    | (with_reducible apply State.classS_same) | (with_reducible apply State.queueRelease_same)

theorem State.rootChecked_same {s0 s : State} (e : Entry) (r : RootJob) (run : RootRun) (g : State → State) (hg : ∀
    y, s0.Same y → s0.Same (g y)) (hk : s0.Same s) :
    s0.Same (State.rootChecked s e r run g) := by
  unfold State.rootChecked
  repeat' first
    | (with_reducible assumption) | (with_reducible apply hg) | (with_reducible apply State.corrected_same)
    | (with_reducible apply State.struck_same) | (with_reducible apply State.rootFault_same) | (intro) | split

theorem State.rootStart_same {s0 s : State} (e : Entry) (r : RootJob) (hk : s0.Same s) :
    s0.Same (State.rootStart s e r) := by
  unfold State.rootStart
  repeat' first
    | (with_reducible assumption) | (with_reducible apply State.entryDone_same)
    | (with_reducible apply State.modEntry_same) | (with_reducible apply State.Same.ite) | (intro)
    | (with_reducible refine State.Same.mk' ?_ rfl rfl rfl)

theorem State.rearm_same {s0 s : State} (e : Entry) (g : Nat) (hk : s0.Same s) :
    s0.Same (State.rearm s e g) := by
  unfold State.rearm
  repeat' first
    | (with_reducible assumption) | (with_reducible apply State.entryDone_same)
    | (with_reducible apply State.setGroup_same)

end Sys2Proof.Machine
end

