-- ==== Sys2Proof/Laws/SameFabric.lean ====
section
/-! SUPPORT. Operations of Machine/Fabric.lean that change no byte of the block. -/

namespace Sys2Proof.Machine

theorem State.linkShutCount_same {s0 s : State} (l : Nat) (hk : s0.Same s) :
    s0.Same (State.linkShutCount s l) := by
  unfold State.linkShutCount
  repeat' first
    | (with_reducible assumption) | (with_reducible apply State.shutAccess_same)
    | (with_reducible apply State.Same.ite) | (intro)

theorem State.txAdd_same {s0 s : State} (l : Nat) (xs : List TxItem) (hk : s0.Same s) :
    s0.Same (State.txAdd s l xs) := by
  unfold State.txAdd
  repeat' first
    | (with_reducible assumption) | (with_reducible apply State.modLink_same)

theorem State.sendOwn_same {s0 s : State} (uid : Nat) (l : Nat) (held : Bool) (ps : List Packet) (hk : s0.Same s) :
    s0.Same (State.sendOwn s uid l held ps) := by
  unfold State.sendOwn
  repeat' first
    | (with_reducible assumption) | (with_reducible apply State.modEntry_same)
    | (with_reducible apply State.txAdd_same) | (with_reducible apply State.Same.ite) | (intro)

theorem State.answer_same {s0 s : State} (l : Nat) (p : Packet) (kind : Nat) (err : Bool) (held : Bool) (payload :
    List Byte) (hk : s0.Same s) :
    s0.Same (State.answer s l p kind err held payload) := by
  unfold State.answer
  repeat' first
    | (with_reducible assumption) | (with_reducible apply State.txAdd_same) | (with_reducible apply State.Same.ite)
    | (intro)

theorem State.dropAnswer_same {s0 s : State} (l : Nat) (p : Packet) (hk : s0.Same s) :
    s0.Same (State.dropAnswer s l p) := by
  unfold State.dropAnswer
  repeat' first
    | (with_reducible assumption) | (with_reducible apply State.answer_same)
    | (with_reducible apply State.Same.ite) | (intro)

theorem State.bufferFree_same {s0 s : State} (l : Nat) (c : Nat) (hk : s0.Same s) :
    s0.Same (State.bufferFree s l c) := by
  unfold State.bufferFree
  repeat' first
    | (with_reducible assumption) | (with_reducible apply State.freeSig_same)
    | (with_reducible apply State.freeBuffer_same) | (with_reducible apply State.Same.ite) | (intro)

theorem State.ackTaken_same {s0 s : State} (l : Nat) (c : Nat) (seq : BitVec 16) (hk : s0.Same s) :
    s0.Same (State.ackTaken s l c seq) := by
  unfold State.ackTaken
  repeat' first
    | (with_reducible assumption) | (with_reducible apply State.modLink_same)

theorem State.creditsTaken_same {s0 s : State} (l : Nat) (cs : List (BitVec 16)) (hk : s0.Same s) :
    s0.Same (State.creditsTaken s l cs) := by
  unfold State.creditsTaken
  repeat' first
    | (with_reducible assumption) | (with_reducible apply State.modLink_same)

theorem State.linkEvent_same {s0 s : State} (hk : s0.Same s) :
    s0.Same (State.linkEvent s) := by
  unfold State.linkEvent
  repeat' first
    | (with_reducible assumption) | (with_reducible apply State.irqSet_same)
    | (with_reducible refine State.Same.mk' ?_ rfl rfl rfl)

theorem State.linkTo_same {s0 s : State} (l : Nat) (st : LinkState) (hk : s0.Same s) :
    s0.Same (State.linkTo s l st) := by
  unfold State.linkTo
  repeat' first
    | (with_reducible assumption) | (with_reducible apply State.linkEvent_same)
    | (with_reducible apply State.modLink_same)

theorem State.linkWait_same {s0 s : State} (l : Nat) (hk : s0.Same s) :
    s0.Same (State.linkWait s l) := by
  unfold State.linkWait
  repeat' first
    | (with_reducible assumption) | (with_reducible apply State.linkTo_same)
    | (with_reducible apply State.modLink_same)

theorem State.signalsLost_same {s0 s : State} (p : Pending → Bool) (hk : s0.Same s) :
    s0.Same (State.signalsLost s p) := by
  unfold State.signalsLost
  repeat' first
    | (with_reducible assumption) | (intro) | (with_reducible refine State.Same.mk' ?_ rfl rfl rfl)

theorem State.remoteFail_same {s0 s : State} (uid : Nat) (n : Nat) (hk : s0.Same s) :
    s0.Same (State.remoteFail s uid n) := by
  unfold State.remoteFail
  repeat' first
    | (with_reducible assumption) | (with_reducible apply State.modEntry_same)

theorem State.lostPacket_same {s0 s : State} (l : Nat) (x : TxItem) (hk : s0.Same s) :
    s0.Same (State.lostPacket s l x) := by
  unfold State.lostPacket
  repeat' first
    | (with_reducible assumption) | (with_reducible apply State.remoteFail_same)
    | (with_reducible apply State.bufferFree_same) | (with_reducible apply State.dropAnswer_same) | split

theorem State.sweep_same {s0 s : State} (l : Nat) (hk : s0.Same s) :
    s0.Same (State.sweep s l) := by
  unfold State.sweep
  repeat' first
    | (with_reducible assumption) | (with_reducible apply State.remoteFail_same)
    | (with_reducible apply State.Same.foldl) | (intro) | (with_reducible refine State.Same.mk' ?_ rfl rfl rfl)

theorem State.passingClear_same {s0 s : State} (l : Nat) (hk : s0.Same s) :
    s0.Same (State.passingClear s l) := by
  unfold State.passingClear
  repeat' first
    | (with_reducible assumption) | (with_reducible apply State.modLink_same)
    | (with_reducible apply State.Same.foldl) | (intro)

theorem State.drive_same {s0 s : State} (l : Nat) (p : Packet) (hk : s0.Same s) :
    s0.Same (State.drive s l p) := by
  unfold State.drive
  repeat' first
    | (with_reducible assumption) | (with_reducible apply State.modLink_same)

theorem State.forwarded_same {s0 s : State} (l : Nat) (x : TxItem) (hk : s0.Same s) :
    s0.Same (State.forwarded s l x) := by
  unfold State.forwarded
  repeat' first
    | (with_reducible assumption) | (with_reducible apply State.bufferFree_same)
    | (with_reducible apply State.Same.ite) | (intro) | split

theorem State.sendNow_same {s0 s : State} (l : Nat) (tag : Nat) (x : TxItem) (hk : s0.Same s) :
    s0.Same (State.sendNow s l tag x) := by
  unfold State.sendNow
  repeat' first
    | (with_reducible assumption) | (with_reducible apply State.modLink_same)
    | (with_reducible apply State.drive_same) | (with_reducible apply State.forwarded_same)
    | (with_reducible apply State.Same.ite) | (intro) | split | (dsimp only)
    | (with_reducible refine State.Same.mk' ?_ rfl rfl rfl)

theorem State.sentOpens_same {s0 s : State} (x : TxItem) (hk : s0.Same s) :
    s0.Same (State.sentOpens s x) := by
  unfold State.sentOpens
  repeat' first
    | (with_reducible assumption) | (with_reducible apply State.engineOpen_same)
    | (with_reducible apply State.Same.ite) | (intro) | split

theorem execPacketTransmit_same {s0 s : State} (link : Fin 6) (tag : BitVec 16) (hk : s0.Same s) :
    ∃ z, execPacketTransmit link tag s = .next z ∧ s0.Same z := by
  unfold execPacketTransmit
  refine ⟨_, rfl, ?_⟩
  repeat' first
    | (with_reducible assumption) | (with_reducible apply State.drive_same)
    | (with_reducible apply State.sentOpens_same) | (with_reducible apply State.sendNow_same)
    | (with_reducible apply State.Same.ite) | (intro) | split

theorem State.nak_same {s0 s : State} (l : Nat) (c : Nat) (hk : s0.Same s) :
    s0.Same (State.nak s l c) := by
  unfold State.nak
  repeat' first
    | (with_reducible assumption) | (with_reducible apply State.modLink_same)

theorem State.seqTaken_same {s0 s : State} (l : Nat) (c : Nat) (hk : s0.Same s) :
    s0.Same (State.seqTaken s l c) := by
  unfold State.seqTaken
  repeat' first
    | (with_reducible assumption) | (with_reducible apply State.modLink_same)

theorem State.passOn_same {s0 s : State} (l : Nat) (p : Packet) (slot : Option Nat) (hk : s0.Same s) :
    s0.Same (State.passOn s l p slot) := by
  unfold State.passOn
  repeat' first
    | (with_reducible assumption) | (with_reducible apply State.bufferFree_same)
    | (with_reducible apply State.dropAnswer_same) | (with_reducible apply State.txAdd_same)
    | (with_reducible apply State.Same.ite) | (intro) | split

theorem State.wicket_same {s0 s : State} (l : Nat) (w : Wire) (hk : s0.Same s) :
    s0.Same (State.wicket s l w) := by
  unfold State.wicket
  repeat' first
    | (with_reducible assumption) | (with_reducible apply State.modLink_same)
    | (with_reducible apply State.Same.ite) | (intro)

theorem State.crcFailed_same {s0 s : State} (l : Nat) (hk : s0.Same s) :
    s0.Same (State.crcFailed s l) := by
  unfold State.crcFailed
  repeat' first
    | (with_reducible assumption) | (with_reducible apply State.modLink_same)
    | (with_reducible apply State.nak_same) | (with_reducible apply State.Same.foldl)
    | (with_reducible apply State.Same.ite) | (intro)

end Sys2Proof.Machine
end

