-- ==== Sys2Proof/Laws/SameReduce.lean ====
section
/-! SUPPORT. Operations of Machine/Reduce.lean that change no byte of the block. -/

namespace Sys2Proof.Machine

theorem State.modRed_same {s0 s : State} (uid : Nat) (f : RedRun → RedRun) (hk : s0.Same s) :
    s0.Same (State.modRed s uid f) := by
  unfold State.modRed
  repeat' first
    | (with_reducible assumption) | (intro) | (with_reducible refine State.Same.mk' ?_ rfl rfl rfl)

theorem State.redSend_same {s0 s : State} (g : GroupRec) (r : RedRun) (kind : Nat) (i : Nat) (vs : List Nat) (held :
    Bool) (hk : s0.Same s) :
    s0.Same (State.redSend s g r kind i vs held) := by
  unfold State.redSend
  repeat' first
    | (with_reducible assumption) | (with_reducible apply State.sendOwn_same)

theorem State.exactSend_same {s0 s : State} (g : GroupRec) (r : RedRun) (kind : Nat) (hk : s0.Same s) :
    s0.Same (State.exactSend s g r kind) := by
  unfold State.exactSend
  repeat' first
    | (with_reducible assumption) | (with_reducible apply State.sendOwn_same)

theorem State.nextOpno_same {s0 s : State} (grp : Nat) (hk : s0.Same s) : s0.Same (State.nextOpno s grp).2 :=
  hk.upd rfl rfl rfl

theorem State.redAdd_same {s0 s : State} (r : RedRun) (hk : s0.Same s) :
    s0.Same (State.redAdd s r) := by
  unfold State.redAdd
  repeat' first
    | (with_reducible assumption) | (with_reducible refine State.Same.mk' ?_ rfl rfl rfl)

theorem State.redShutCount_same {s0 s : State} (g : GroupRec) (hk : s0.Same s) :
    s0.Same (State.redShutCount s g) := by
  unfold State.redShutCount
  repeat' first
    | (with_reducible assumption) | (with_reducible apply State.linkShutCount_same)

theorem State.egressRead_same {s0 s : State} (e : Entry) (d : Desc) (hk : s0.Same s) :
    s0.Same (State.egressRead s e d) := by
  unfold State.egressRead
  repeat' first
    | (with_reducible assumption) | (with_reducible apply State.readShut_same)
    | (with_reducible apply State.corrected_same) | (with_reducible apply State.struck_same)
    | (with_reducible apply State.classS_same) | (with_reducible apply State.modEntry_same)
    | (with_reducible apply State.Same.ite) | (intro) | split | (dsimp only)

theorem State.takeContribution_same {s0 s : State} (e : Entry) (acc : Nat) (hk : s0.Same s) :
    s0.Same (State.takeContribution s e acc).2 := by
  have hf : s0.Same ((s.setAccum e.ctx acc Accum.init).modPlane e.ctx fun p =>
      { p with held := some (s.accum e.ctx acc, e.step) }) :=
    State.modPlane_same _ _ (State.setAccum_same _ _ _ hk)
  unfold State.takeContribution
  dsimp only
  split
  · split
    · exact hk
    · exact hf
  · exact hf

theorem State.louvreFault_same {s0 s : State} (e : Entry) (hk : s0.Same s) :
    s0.Same (State.louvreFault s e) := by
  unfold State.louvreFault
  repeat' first
    | (with_reducible assumption) | (with_reducible apply State.integrity_same)

theorem State.normPending_same {s0 s : State} (e : Entry) (hk : s0.Same s) :
    s0.Same (State.normPending s e) := by
  unfold State.normPending
  repeat' first
    | (with_reducible assumption) | (with_reducible apply State.modPlane_same)

theorem State.normSet_same {s0 s : State} (e : Entry) (hk : s0.Same s) :
    s0.Same (State.normSet s e) := by
  unfold State.normSet
  repeat' first
    | (with_reducible assumption) | (with_reducible apply State.modPlane_same)
    | (with_reducible apply State.modEntry_same) | exact fun _ k => k | (intro _ k; cases k; done)
    | (with_reducible apply State.Same.ite) | (intro) | split | (dsimp only)
    | (with_reducible refine State.Same.mk' ?_ rfl rfl rfl)

end Sys2Proof.Machine
end

