-- ==== Sys2Proof/Laws/SameSinks.lean ====
section
/-! SUPPORT. Operations of Machine/Sinks.lean that change no byte of the block. -/

namespace Sys2Proof.Machine

theorem State.signalDropped_same {s0 s : State} (stale : Bool) (hk : s0.Same s) :
    s0.Same (State.signalDropped s stale) := by
  unfold State.signalDropped
  repeat' first
    | (with_reducible assumption) | (with_reducible apply State.Same.ite) | (intro)
    | (with_reducible refine State.Same.mk' ?_ rfl rfl rfl)

theorem State.tallyEnd_same {s0 s : State} (x : Sink) (hk : s0.Same s) :
    s0.Same (State.tallyEnd s x) := by
  unfold State.tallyEnd
  repeat' first
    | (with_reducible assumption) | (intro) | (with_reducible refine State.Same.mk' ?_ rfl rfl rfl)

theorem State.tallyAdd_same {s0 s : State} (x : Sink) (hk : s0.Same s) :
    s0.Same (State.tallyAdd s x) := by
  unfold State.tallyAdd
  repeat' first
    | (with_reducible assumption) | (with_reducible apply State.tallyEnd_same)
    | (with_reducible apply State.Same.ite) | (intro) | (with_reducible refine State.Same.mk' ?_ rfl rfl rfl)

theorem State.pendingAdd_same {s0 s : State} (x : Sink) (c : Nat) (hk : s0.Same s) :
    s0.Same (State.pendingAdd s x c) := by
  unfold State.pendingAdd
  repeat' first
    | (with_reducible assumption) | (with_reducible apply State.tallyEnd_same)
    | (with_reducible refine State.Same.mk' ?_ rfl rfl rfl)

theorem State.modSink_same {s0 s : State} (id : Nat) (f : Sink → Sink) (hk : s0.Same s) :
    s0.Same (State.modSink s id f) := by
  unfold State.modSink
  repeat' first
    | (with_reducible assumption) | (intro) | (with_reducible refine State.Same.mk' ?_ rfl rfl rfl)

theorem State.sinkAdd_same {s0 s : State} (l : Nat) (p : Packet) (xfer : Nat) (slot : Option Nat) (hk : s0.Same s) :
    s0.Same (State.sinkAdd s l p xfer slot) := by
  unfold State.sinkAdd
  repeat' first
    | (with_reducible assumption) | (with_reducible refine State.Same.mk' ?_ rfl rfl rfl)

theorem State.sinkGone_same {s0 s : State} (x : Sink) (hk : s0.Same s) :
    s0.Same (State.sinkGone s x) := by
  unfold State.sinkGone
  repeat' first
    | (with_reducible assumption) | (with_reducible apply State.bufferFree_same) | (intro)
    | (with_reducible refine State.Same.mk' ?_ rfl rfl rfl)

theorem State.terminalDropped_same {s0 s : State} (x : Sink) (stale : Bool) (hk : s0.Same s) :
    s0.Same (State.terminalDropped s x stale) := by
  unfold State.terminalDropped
  repeat' first
    | (with_reducible assumption) | (with_reducible apply State.tallyEnd_same)
    | (with_reducible apply State.signalDropped_same)

theorem State.sinkFail_same {s0 s : State} (x : Sink) (hk : s0.Same s) :
    s0.Same (State.sinkFail s x) := by
  unfold State.sinkFail
  repeat' first
    | (with_reducible assumption) | (with_reducible apply State.terminalDropped_same)
    | (with_reducible apply State.sinkGone_same) | (with_reducible apply State.answer_same)
    | (with_reducible apply State.Same.ite) | (intro) | (with_reducible refine State.Same.mk' ?_ rfl rfl rfl)

theorem State.sinkJournal_same {s0 s : State} (x : Sink) (c : Nat) (handle : Nat) (index : Nat) (b : Nat) (latch :
    Nat) (hk : s0.Same s) :
    s0.Same (State.sinkJournal s x c handle index b latch) := by
  unfold State.sinkJournal
  repeat' first
    | (with_reducible assumption) | (with_reducible apply State.journalInput_same)

theorem State.putDone_same {s0 s : State} (x : Sink) (hk : s0.Same s) :
    s0.Same (State.putDone s x) := by
  unfold State.putDone
  repeat' first
    | (with_reducible assumption) | (with_reducible apply State.tallyAdd_same)
    | (with_reducible apply State.sinkJournal_same) | (with_reducible apply State.sinkGone_same)
    | (with_reducible apply State.answer_same) | (with_reducible apply State.Same.ite) | (intro) | split
    | (dsimp only) | (with_reducible refine State.Same.mk' ?_ rfl rfl rfl)

theorem State.rdDone_same {s0 s : State} (x : Sink) (d : Desc) (n : Nat) (hk : s0.Same s) :
    s0.Same (State.rdDone s x d n) := by
  unfold State.rdDone
  repeat' first
    | (with_reducible assumption) | (with_reducible apply State.sinkGone_same)
    | (with_reducible apply State.answer_same) | (with_reducible apply State.readShut_same)
    | (with_reducible apply State.corrected_same) | (with_reducible apply State.struck_same)
    | (with_reducible apply State.sinkFail_same) | (with_reducible apply State.integrity_same)
    | (with_reducible apply State.Same.ite) | (intro) | split | (dsimp only)

theorem State.sinkRead_same {s0 s : State} (x : Sink) (d : Desc) (i : Nat) (n : Nat) (as : List Nat) (g : State →
    State) (hg : ∀ y, s0.Same y → s0.Same (g y)) (hk : s0.Same s) :
    s0.Same (State.sinkRead s x d i n as g) := by
  unfold State.sinkRead
  repeat' first
    | (with_reducible assumption) | (with_reducible apply hg) | (with_reducible apply State.jambAdd_same)
    | (with_reducible apply State.modSink_same) | (with_reducible apply State.Same.ite) | (intro)

theorem State.putWork_same {s0 s : State} (x : Sink) (hk : s0.Same s) : s0.Same (State.putWork s x).1 := by
  unfold State.putWork
  dsimp only
  split
  · exact hk
  · split
    · exact hk
    · exact State.resolve1_same _ _ _ hk

theorem State.sinkWork_same {s0 s : State} (x : Sink) (hk : s0.Same s) : s0.Same (State.sinkWork s x).1 := by
  unfold State.sinkWork
  split
  · exact hk
  · split
    · exact hk
    · exact State.putWork_same _ hk

theorem State.noteAll_same {s0 s : State} (uid : Option Nat) (ws : List BitWrite) (hk : s0.Same s) :
    s0.Same (State.noteAll s uid ws) := by
  unfold State.noteAll
  repeat' first
    | (with_reducible assumption) | (with_reducible apply State.noteWrite_same)
    | (with_reducible apply State.Same.foldl) | (intro) | split

end Sys2Proof.Machine
end

