-- ==== Sys2Proof/Laws/SameDoorExec.lean ====
section
/-! SUPPORT. Operations of Machine/DoorExec.lean that change no byte of the block. -/

namespace Sys2Proof.Machine

theorem State.repoint_same {s0 s : State} (x : BitVec 16) (v : BitVec 16) (epoch : BitVec 24) (via : Option Nat) (hk
    : s0.Same s) :
    s0.Same (State.repoint s x v epoch via) := by
  unfold State.repoint
  repeat' first
    | (with_reducible assumption) | (with_reducible apply State.txAdd_same)
    | (with_reducible apply State.Same.foldl) | (with_reducible apply State.Same.ite) | (intro)
    | (with_reducible refine State.Same.mk' ?_ rfl rfl rfl)

theorem State.linkCause_same {s0 s : State} (l : Nat) (cause : Nat) (hk : s0.Same s) :
    s0.Same (State.linkCause s l cause) := by
  unfold State.linkCause
  repeat' first
    | (with_reducible assumption) | (with_reducible apply State.modLink_same)

theorem State.negotiate_same {s0 s : State} (l : Nat) (h : HelloMsg) (r : LinkRec) (hk : s0.Same s) :
    s0.Same (State.negotiate s l h r) := by
  unfold State.negotiate
  repeat' first
    | (with_reducible assumption) | (with_reducible apply State.linkTo_same)
    | (with_reducible apply State.linkCause_same) | (with_reducible apply State.modLink_same)
    | (with_reducible apply State.Same.foldl) | (with_reducible apply State.Same.ite) | (intro)

theorem State.decideLink_same {s0 s : State} (l : Nat) (late : Bool) (hk : s0.Same s) :
    s0.Same (State.decideLink s l late) := by
  unfold State.decideLink
  repeat' first
    | (with_reducible assumption) | (with_reducible apply State.linkTo_same)
    | (with_reducible apply State.negotiate_same) | (with_reducible apply State.modLink_same)
    | (with_reducible apply State.linkCause_same) | (with_reducible apply State.Same.ite) | (intro) | split
    | (dsimp only)

theorem State.discover_same {s0 s : State} (l : Nat) (hk : s0.Same s) :
    s0.Same (State.discover s l) := by
  unfold State.discover
  repeat' first
    | (with_reducible assumption) | (with_reducible apply State.decideLink_same)
    | (with_reducible apply State.Same.ite) | (intro)

theorem State.helloOut_same {s0 s : State} (l : Nat) (hk : s0.Same s) :
    s0.Same (State.helloOut s l) := by
  unfold State.helloOut
  repeat' first
    | (with_reducible assumption) | (with_reducible apply State.modLink_same)
    | (with_reducible apply State.drive_same)

theorem execHelloSend_same {s0 s : State} (link : Fin 6) (hk : s0.Same s) :
    ∃ z, execHelloSend link s = .next z ∧ s0.Same z := by
  unfold execHelloSend
  refine ⟨_, rfl, ?_⟩
  repeat' first
    | (with_reducible assumption) | (with_reducible apply State.discover_same)
    | (with_reducible apply State.helloOut_same) | (with_reducible apply State.Same.ite) | (intro)

theorem execLinkRdy_same {s0 s : State} (link : Fin 6) (level : Bool) (hk : s0.Same s) :
    ∃ z, execLinkRdy link level s = .next z ∧ s0.Same z := by
  unfold execLinkRdy
  refine ⟨_, rfl, ?_⟩
  repeat' first
    | (with_reducible assumption) | (with_reducible apply State.modLink_same)
    | (with_reducible apply State.linkTo_same) | (with_reducible apply State.Same.ite) | (intro)

theorem execIdleLinkDisable_same {s0 s : State} (link : Fin 6) (hk : s0.Same s) :
    ∃ z, execIdleLinkDisable link s = .next z ∧ s0.Same z := by
  unfold execIdleLinkDisable
  refine ⟨_, rfl, ?_⟩
  repeat' first
    | (with_reducible assumption) | (with_reducible apply State.modLink_same)
    | (with_reducible apply State.Same.ite) | (intro)

theorem execLinkResetEnd_same {s0 s : State} (link : Fin 6) (hk : s0.Same s) :
    ∃ z, execLinkResetEnd link s = .next z ∧ s0.Same z := by
  unfold execLinkResetEnd
  refine ⟨_, rfl, ?_⟩
  repeat' first
    | (with_reducible assumption) | (with_reducible apply State.linkWait_same)
    | (with_reducible apply State.linkTo_same) | (with_reducible apply State.Same.ite) | (intro)

theorem execRemoteSignalApply_same {s0 s : State} (link : Fin 6) (src : BitVec 16) (tag : BitVec 16) (hk : s0.Same s)
    :
    ∃ z, execRemoteSignalApply link src tag s = .next z ∧ s0.Same z := by
  unfold execRemoteSignalApply
  refine ⟨_, rfl, ?_⟩
  repeat' first
    | (with_reducible assumption) | (with_reducible apply State.wakeAsk_same)
    | (with_reducible apply State.sigRelease_same) | (with_reducible apply State.latchSignal_same)
    | (with_reducible apply State.Same.ite) | (intro) | split | (dsimp only)
    | (with_reducible refine State.Same.mk' ?_ rfl rfl rfl)

end Sys2Proof.Machine
end

