-- ==== Sys2Proof/Laws/SameStarts.lean ====
section
/-! SUPPORT. Operations of Machine/Starts.lean that change no byte of the block. -/

namespace Sys2Proof.Machine

theorem State.propsRead_same {s0 s : State} (os : List Opnd) (hk : s0.Same s) :
    s0.Same (State.propsRead s os) := by
  unfold State.propsRead
  repeat' first
    | (with_reducible assumption) | (with_reducible apply State.dcRead_same)
    | (with_reducible apply State.Same.foldl) | (intro)

theorem State.propFailed_same {s0 s : State} (ctx : Nat) (h : Nat) (hk : s0.Same s) :
    s0.Same (State.propFailed s ctx h) := by
  unfold State.propFailed
  repeat' first
    | (with_reducible assumption) | (with_reducible apply State.Same.ite) | (intro)
    | (with_reducible refine State.Same.mk' ?_ rfl rfl rfl)

theorem State.applyStart_same {s0 s : State} (uid : Nat) (g : Nat) (run : State → Entry → State) (hrun : ∀ y a1,
    s0.Same y → s0.Same (run y a1)) (hk : s0.Same s) :
    s0.Same (State.applyStart s uid g run) := by
  unfold State.applyStart
  repeat' first
    | (with_reducible assumption) | (with_reducible apply hrun) | (with_reducible apply State.modEntry_same)
    | (with_reducible apply State.casRaise_same) | (intro) | split | (dsimp only)
    | (with_reducible refine State.Same.mk' ?_ rfl rfl rfl)

end Sys2Proof.Machine
end

