-- ==== Sys2Proof/Laws/SameDigest.lean ====
section
/-! SUPPORT. Operations of Machine/Digest.lean that change no byte of the block. -/

namespace Sys2Proof.Machine

theorem State.stepDigest_same {s0 s : State} (e : Entry) (ds : List (BitVec 32)) (hk : s0.Same s) :
    s0.Same (State.stepDigest s e ds) := by
  unfold State.stepDigest
  repeat' first
    | (with_reducible assumption) | (with_reducible apply State.modTh_same)
    | (with_reducible apply State.modPlane_same) | exact fun _ k => k | (intro _ k; cases k; done)
    | (with_reducible apply State.Same.foldl) | (with_reducible apply State.Same.ite) | (intro)

theorem State.journalEntry_same {s0 s : State} (e : Entry) (status : Nat) (hk : s0.Same s) :
    s0.Same (State.journalEntry s e status) := by
  unfold State.journalEntry
  repeat' first
    | (with_reducible assumption) | (with_reducible apply State.stepDigest_same)
    | (with_reducible apply State.journalStream_same) | (with_reducible apply State.Same.foldl)
    | (with_reducible apply State.Same.ite) | (intro) | split

end Sys2Proof.Machine
end

