-- ==== Sys2Proof/Laws/SameReplay.lean ====
section
/-! SUPPORT. Operations of Machine/Replay.lean that change no byte of the block. -/

namespace Sys2Proof.Machine

theorem State.rplTag_same {s0 s : State} (p : Packet) (e : Entry) (hk : s0.Same s) :
    s0.Same (State.rplTag s p e) := by
  unfold State.rplTag
  repeat' first
    | (with_reducible assumption) | (with_reducible apply State.modEntry_same) | (intro) | split | (dsimp only)
    | (with_reducible refine State.Same.mk' ?_ rfl rfl rfl)

theorem State.rplFill_same {s0 s : State} (c : Nat) (r : JRec) (hk : s0.Same s) :
    s0.Same (State.rplFill s c r) := by
  unfold State.rplFill
  repeat' first
    | (with_reducible assumption) | (with_reducible apply State.fillAsk_same)
    | (with_reducible apply State.Same.ite) | (intro)

theorem State.rplPost_same {s0 s : State} (r : Replay) (hk : s0.Same s) :
    s0.Same (State.rplPost s r) := by
  unfold State.rplPost
  repeat' first
    | (with_reducible assumption) | (with_reducible apply State.goCleared_same)
    | (with_reducible apply State.Same.ite) | (intro) | (with_reducible refine State.Same.mk' ?_ rfl rfl rfl)

theorem State.rplReport_same {s0 s : State} (hk : s0.Same s) :
    s0.Same (State.rplReport s) := by
  unfold State.rplReport
  repeat' first
    | (with_reducible assumption) | (with_reducible apply State.rplPost_same) | split | (dsimp only)

theorem State.rplDiffer_same {s0 s : State} (t : Thread) (i : Nat) (iseq : BitVec 32) (hk : s0.Same s) :
    s0.Same (State.rplDiffer s t i iseq) := by
  unfold State.rplDiffer
  repeat' first
    | (with_reducible assumption) | (with_reducible apply State.rplReport_same)
    | (with_reducible apply State.Same.ite) | (intro) | split | (dsimp only)
    | (with_reducible refine State.Same.mk' ?_ rfl rfl rfl)

theorem State.rplCompare_same {s0 s : State} (c : Nat) (count : Nat) (w : Word) (hk : s0.Same s) :
    s0.Same (State.rplCompare s c count w) := by
  unfold State.rplCompare
  repeat' first
    | (with_reducible assumption) | (with_reducible apply State.rplReport_same)
    | (with_reducible apply State.Same.ite) | (intro) | (with_reducible refine State.Same.mk' ?_ rfl rfl rfl)

theorem State.rplSkip_same {s0 s : State} (hk : s0.Same s) :
    s0.Same (State.rplSkip s) := by
  unfold State.rplSkip
  repeat' first
    | (with_reducible assumption) | (with_reducible refine State.Same.mk' ?_ rfl rfl rfl)

theorem State.rplLatch_same {s0 s z : State} (c count : Nat) (w : Word) (hk : s0.Same s)
    (e : State.rplLatch s c count w = some z) : s0.Same z := by
  unfold State.rplLatch at e
  dsimp only at e
  split at e
  · cases e
    exact State.Same.ite (fun _ => State.rplSkip_same (State.latchSignal_same _ _ _ hk)) fun _ =>
      State.rplCompare_same _ _ _ (State.latchSignal_same _ _ _ hk)
  · split at e
    · cases e
    · cases e
      exact State.rplCompare_same _ _ _ hk

theorem State.rplSignals_same {s0 s : State} (c : Nat) (items : List RItem) (n : Nat) (hk : s0.Same s) :
    s0.Same (State.rplSignals s c items n) := by
  induction n generalizing s with
  | zero => exact hk
  | succ n ih =>
    unfold State.rplSignals
    split
    · split
      · exact ih (State.rplLatch_same _ _ _ hk ‹_›)
      · exact hk
    · exact hk

theorem State.signalsAhead_same {s0 s : State} (hk : s0.Same s) :
    s0.Same (State.signalsAhead s) := by
  unfold State.signalsAhead
  repeat' first
    | (with_reducible assumption) | (with_reducible apply State.rplSignals_same) | split

theorem State.rplSteps_same {s0 s : State} (c : Nat) (hk : s0.Same s) :
    s0.Same (State.rplSteps s c) := by
  unfold State.rplSteps
  repeat' first
    | (with_reducible assumption) | (with_reducible apply State.rplDiffer_same)
    | (with_reducible apply State.Same.foldl) | (with_reducible apply State.Same.ite) | (intro) | split

theorem State.rplDigest_same {s0 s : State} (e : Entry) (status : Nat) (hk : s0.Same s) :
    s0.Same (State.rplDigest s e status) := by
  unfold State.rplDigest
  repeat' first
    | (with_reducible assumption) | (with_reducible apply State.rplDiffer_same)
    | (with_reducible apply State.Same.ite) | (intro) | split | (dsimp only)

theorem State.rplChecked_same {s0 s : State} (hk : s0.Same s) :
    s0.Same (State.rplChecked s) := by
  unfold State.rplChecked
  repeat' first
    | (with_reducible assumption) | (with_reducible apply State.goCleared_same)
    | (with_reducible apply State.Same.ite) | (intro) | split | (dsimp only)
    | (with_reducible refine State.Same.mk' ?_ rfl rfl rfl)

theorem State.replayArm_same {s0 s : State} (step : BitVec 32) (go : Bool) (hk : s0.Same s) :
    s0.Same (State.replayArm s step go) := by
  unfold State.replayArm
  repeat' first
    | (with_reducible assumption) | (with_reducible apply State.goRefused_same)
    | (with_reducible apply State.rplChecked_same) | (with_reducible apply State.jambAdd_same)
    | (with_reducible apply State.Same.ite) | (intro) | split | (dsimp only)
    | (with_reducible refine State.Same.mk' ?_ rfl rfl rfl)

theorem State.replayGot_same {s0 s : State} (base : Nat) (bs : List Host.Cell) (ok : Bool) (hk : s0.Same s) :
    s0.Same (State.replayGot s base bs ok) := by
  unfold State.replayGot
  repeat' first
    | (with_reducible assumption) | (with_reducible apply State.rplChecked_same)
    | (with_reducible apply State.Same.foldl) | (with_reducible apply State.Same.ite) | (intro)
    | (with_reducible refine State.Same.mk' ?_ rfl rfl rfl)

theorem State.rplOpnos_same {s0 s : State} (hk : s0.Same s) :
    s0.Same (State.rplOpnos s) := by
  unfold State.rplOpnos
  repeat' first
    | (with_reducible assumption) | (with_reducible apply State.Same.foldl) | (with_reducible apply State.Same.ite)
    | (intro) | split | (dsimp only) | (with_reducible refine State.Same.mk' ?_ rfl rfl rfl)

theorem State.replayBegin_same {s0 s : State} (c : Nat) (hk : s0.Same s) :
    s0.Same (State.replayBegin s c) := by
  unfold State.replayBegin
  repeat' first
    | (with_reducible assumption) | (with_reducible apply State.rplOpnos_same)
    | (with_reducible apply State.Same.ite) | (intro) | (with_reducible refine State.Same.mk' ?_ rfl rfl rfl)

end Sys2Proof.Machine
end

