-- ==== Sys2Proof/Laws/SameCompletion.lean ====
section
/-! SUPPORT. Operations of Machine/Completion.lean that change no byte of the block. -/

namespace Sys2Proof.Machine

theorem State.commitCount_same {s0 s : State} (i : PushInfo) (hk : s0.Same s) :
    s0.Same (State.commitCount s i) := by
  unfold State.commitCount
  repeat' first
    | (with_reducible assumption) | (with_reducible apply State.modCr_same)

theorem State.commit1_same {s0 s : State} (c : Commit) (d : DcEntry) (hk : s0.Same s) :
    s0.Same (State.commit1 s c d) := by
  unfold State.commit1
  repeat' first
    | (with_reducible assumption) | (with_reducible apply State.dcUpdate_same)
    | (with_reducible apply State.commitCount_same) | (with_reducible apply State.Same.ite) | (intro)

theorem State.commitRun_same {s0 s : State} (cs : List Commit) (hk : s0.Same s) :
    s0.Same (State.commitRun s cs).1 := by
  induction cs generalizing s with
  | nil => exact hk
  | cons c r ih =>
    unfold State.commitRun
    split
    · exact ih hk
    · dsimp only
      split
      · exact ih (State.commit1_same _ _ (State.dcRead_same _ _ hk))
      · exact State.fillAsk_same _ _ (State.dcRead_same _ _ hk)

theorem State.commits_same {s0 s : State} (uid : Nat) (hk : s0.Same s) : s0.Same (State.commits s uid).1 := by
  unfold State.commits
  split
  · exact hk
  · exact State.modEntry_same _ _ (State.commitRun_same _ hk)

theorem State.commitLost_same {s0 s : State} (ctx : Nat) (h : Nat) (hk : s0.Same s) :
    s0.Same (State.commitLost s ctx h) := by
  unfold State.commitLost
  repeat' first
    | (with_reducible assumption) | (with_reducible apply State.Same.ite) | (intro)
    | (with_reducible refine State.Same.mk' ?_ rfl rfl rfl)

theorem State.postStatus_same {s0 s : State} (e : Entry) (status : Nat) (hk : s0.Same s) :
    s0.Same (State.postStatus s e status) := by
  unfold State.postStatus
  repeat' first
    | (with_reducible assumption) | (with_reducible apply State.modTh_same)
    | (with_reducible apply State.excPush_same) | (with_reducible apply State.Same.ite) | (intro)

theorem State.completionSignal_same {s0 s : State} (e : Entry) (hk : s0.Same s) :
    s0.Same (State.completionSignal s e) := by
  unfold State.completionSignal
  repeat' first
    | (with_reducible assumption) | (with_reducible apply State.latchSignal_same) | split

theorem State.advEffect_same {s0 s : State} (e : Entry) (hk : s0.Same s) :
    s0.Same (State.advEffect s e) := by
  unfold State.advEffect
  repeat' first
    | (with_reducible assumption) | (with_reducible apply State.setGroup_same)
    | (with_reducible apply State.Same.ite) | (intro) | split

theorem State.completionCount_same {s0 s : State} (e : Entry) (status : Nat) (hk : s0.Same s) :
    s0.Same (State.completionCount s e status) := by
  unfold State.completionCount
  repeat' first
    | (with_reducible assumption) | (with_reducible apply State.modCr_same)
    | (with_reducible apply State.modEr_same) | (with_reducible apply State.Same.ite) | (intro) | split

theorem State.usesNoted_same {s0 s : State} (e : Entry) (hk : s0.Same s) :
    s0.Same (State.usesNoted s e) := by
  unfold State.usesNoted
  repeat' first
    | (with_reducible assumption) | (intro) | (with_reducible refine State.Same.mk' ?_ rfl rfl rfl)

theorem State.abortNote_same {s0 s : State} (e : Entry) (hk : s0.Same s) :
    s0.Same (State.abortNote s e) := by
  unfold State.abortNote
  repeat' first
    | (with_reducible assumption) | (with_reducible apply State.modCr_same)
    | (with_reducible apply State.goCleared_same) | (with_reducible apply State.Same.ite) | (intro)

theorem State.faultReleased_same {s0 s : State} (e : Entry) (hk : s0.Same s) :
    s0.Same (State.faultReleased s e) := by
  unfold State.faultReleased
  repeat' first
    | (with_reducible assumption) | (with_reducible apply State.queueRelease_same)
    | (with_reducible apply State.Same.foldl) | (with_reducible apply State.Same.ite) | (intro)

theorem State.normComplete_same {s0 s : State} (e : Entry) (hk : s0.Same s) :
    s0.Same (State.normComplete s e) := by
  unfold State.normComplete
  repeat' first
    | (with_reducible assumption) | (with_reducible apply State.normSet_same)
    | (with_reducible apply State.Same.ite) | (intro) | split | (dsimp only)
    | (with_reducible refine State.Same.mk' ?_ rfl rfl rfl)

end Sys2Proof.Machine
end

