-- ==== Sys2Proof/Laws/SameAbort.lean ====
section
/-! SUPPORT. Operations of Machine/Abort.lean that change no byte of the block. -/

namespace Sys2Proof.Machine

theorem State.dropReqs_same {s0 s : State} (e : Entry) (hk : s0.Same s) :
    s0.Same (State.dropReqs s e) := by
  unfold State.dropReqs
  repeat' first
    | (with_reducible assumption) | (with_reducible apply State.modEntry_same) | (intro)
    | (with_reducible refine State.Same.mk' ?_ rfl rfl rfl)

end Sys2Proof.Machine
end

