-- ==== Sys2Proof/Laws/SameStartup.lean ====
section
/-! SUPPORT. Operations of Machine/Startup.lean that change no byte of the block. -/

namespace Sys2Proof.Machine

theorem State.wdSet_same {s0 s : State} (frame : Nat) (store : Nat) (hk : s0.Same s) :
    s0.Same (State.wdSet s frame store) := by
  unfold State.wdSet
  exact hk.upd rfl rfl rfl

theorem State.toStage_same {s0 s : State} (n : Nat) (hk : s0.Same s) :
    s0.Same (State.toStage s n) := by
  unfold State.toStage
  repeat' first
    | (with_reducible assumption) | (with_reducible refine State.Same.mk' ?_ rfl rfl rfl)

theorem State.endAon_same {s0 s : State} (hk : s0.Same s) :
    s0.Same (State.endAon s) := by
  unfold State.endAon
  repeat' first
    | (with_reducible assumption) | (with_reducible apply State.wdSet_same)
    | (with_reducible apply State.toStage_same) | (with_reducible apply State.Same.ite) | (intro)

theorem State.endOpen_same {s0 s : State} (hk : s0.Same s) :
    s0.Same (State.endOpen s) := by
  unfold State.endOpen
  repeat' first
    | (with_reducible assumption) | (with_reducible apply State.batchAdd_same)
    | (with_reducible apply State.toStage_same) | (with_reducible apply State.Same.ite) | (intro)

theorem State.endPll_same {s0 s : State} (hk : s0.Same s) :
    s0.Same (State.endPll s) := by
  unfold State.endPll
  repeat' first
    | (with_reducible assumption) | (with_reducible apply State.followSource_same)
    | (with_reducible apply State.toStage_same) | (with_reducible apply State.Same.ite) | (intro)
    | (with_reducible refine State.Same.mk' ?_ rfl rfl rfl)

theorem State.endRail_same {s0 s : State} (hk : s0.Same s) :
    s0.Same (State.endRail s) := by
  unfold State.endRail
  repeat' first
    | (with_reducible assumption) | (with_reducible apply State.toStage_same)
    | (with_reducible apply State.batchAdd_same) | (with_reducible apply State.Same.ite) | (intro)
    | (with_reducible refine State.Same.mk' ?_ rfl rfl rfl)

theorem State.endDomains_same {s0 s : State} (hk : s0.Same s) :
    s0.Same (State.endDomains s) := by
  unfold State.endDomains
  repeat' first
    | (with_reducible assumption) | (with_reducible apply State.toStage_same)
    | (with_reducible apply State.Same.ite) | (intro) | (with_reducible refine State.Same.mk' ?_ rfl rfl rfl)

theorem State.stageGo_same {s0 s : State} (hk : s0.Same s) :
    s0.Same (State.stageGo s) := by
  unfold State.stageGo
  repeat' first
    | (with_reducible assumption) | (with_reducible apply State.endDomains_same)
    | (with_reducible apply State.endRail_same) | (with_reducible apply State.endPll_same)
    | (with_reducible apply State.endOpen_same) | (with_reducible apply State.endAon_same)

theorem State.stageOne_same {s0 s : State} (hk : s0.Same s) :
    s0.Same (State.stageOne s) := by
  unfold State.stageOne
  repeat' first
    | (with_reducible assumption) | (with_reducible refine State.Same.mk' ?_ rfl rfl rfl)

theorem execAonRstNRelease_same {s0 s : State} (hk : s0.Same s) :
    ∃ z, execAonRstNRelease s = .next z ∧ s0.Same z := by
  unfold execAonRstNRelease
  refine ⟨_, rfl, ?_⟩
  repeat' first
    | (with_reducible assumption) | (with_reducible apply State.stageOne_same)
    | (with_reducible apply State.Same.ite) | (intro) | (with_reducible refine State.Same.mk' ?_ rfl rfl rfl)

theorem execCoreRstNRelease_same {s0 s : State} (hk : s0.Same s) :
    ∃ z, execCoreRstNRelease s = .next z ∧ s0.Same z := by
  unfold execCoreRstNRelease
  refine ⟨_, rfl, ?_⟩
  repeat' first
    | (with_reducible assumption) | (with_reducible apply State.stageGo_same)
    | (with_reducible apply State.Same.ite) | (intro) | (with_reducible refine State.Same.mk' ?_ rfl rfl rfl)

theorem execStartupInitDone_same {s0 s : State} (hk : s0.Same s) :
    ∃ z, execStartupInitDone s = .next z ∧ s0.Same z := by
  unfold execStartupInitDone
  refine ⟨_, rfl, ?_⟩
  repeat' first
    | (with_reducible assumption) | (with_reducible apply State.setRunPoint_same)
    | (with_reducible apply State.toStage_same) | (with_reducible apply State.Same.ite) | (intro)

theorem execAonClkLost_same {s0 s : State} (hk : s0.Same s) :
    ∃ z, execAonClkLost s = .next z ∧ s0.Same z := by
  unfold execAonClkLost
  refine ⟨_, rfl, ?_⟩
  repeat' first
    | (with_reducible assumption) | (with_reducible apply State.powerIrq_same)
    | (with_reducible apply State.Same.ite) | (intro) | (with_reducible refine State.Same.mk' ?_ rfl rfl rfl)

theorem execAonClkRestored_same {s0 s : State} (hk : s0.Same s) :
    ∃ z, execAonClkRestored s = .next z ∧ s0.Same z := by
  unfold execAonClkRestored
  refine ⟨_, rfl, ?_⟩
  repeat' first
    | (with_reducible assumption) | (with_reducible apply State.Same.ite) | (intro)
    | (with_reducible refine State.Same.mk' ?_ rfl rfl rfl)

theorem State.sourceCount_same {s0 s : State} (x : Source) (ok : Bool) (hk : s0.Same s) :
    s0.Same (State.sourceCount s x ok) := by
  unfold State.sourceCount
  repeat' first
    | (with_reducible assumption) | (with_reducible apply State.Same.ite) | (intro)
    | (with_reducible refine State.Same.mk' ?_ rfl rfl rfl)

theorem execFrequencyCheck_same {s0 s : State} (ref : Nat) (r0 : Nat) (r1 : Nat) (refRdy : Bool) (hk : s0.Same s) :
    ∃ z, execFrequencyCheck ref r0 r1 refRdy s = .next z ∧ s0.Same z := by
  unfold execFrequencyCheck
  refine ⟨_, rfl, ?_⟩
  repeat' first
    | (with_reducible assumption) | (with_reducible apply State.sourceCheck_same)
    | (with_reducible apply State.sourceCount_same) | (with_reducible apply State.Same.ite) | (intro)
    | (with_reducible refine State.Same.mk' ?_ rfl rfl rfl)

theorem execRefRdyFall_same {s0 s : State} (hk : s0.Same s) :
    ∃ z, execRefRdyFall s = .next z ∧ s0.Same z := by
  unfold execRefRdyFall
  refine ⟨_, rfl, ?_⟩
  repeat' first
    | (with_reducible assumption) | (with_reducible apply State.sourceCheck_same)
    | (with_reducible apply State.sourceCount_same) | (with_reducible apply State.Same.ite) | (intro)
    | (with_reducible refine State.Same.mk' ?_ rfl rfl rfl)

theorem execSourceReturn_same {s0 s : State} (hk : s0.Same s) :
    ∃ z, execSourceReturn s = .next z ∧ s0.Same z := by
  unfold execSourceReturn
  refine ⟨_, rfl, ?_⟩
  repeat' first
    | (with_reducible assumption) | (with_reducible apply State.slewStart_same)
    | (with_reducible apply State.Same.ite) | (intro) | (with_reducible refine State.Same.mk' ?_ rfl rfl rfl)

theorem execSourceSwitchDone_same {s0 s : State} (hk : s0.Same s) :
    ∃ z, execSourceSwitchDone s = .next z ∧ s0.Same z := by
  unfold execSourceSwitchDone
  refine ⟨_, rfl, ?_⟩
  repeat' first
    | (with_reducible assumption) | (with_reducible apply State.sourceCheck_same) | split | (dsimp only)
    | (with_reducible refine State.Same.mk' ?_ rfl rfl rfl)

theorem execTroReady_same {s0 s : State} (hk : s0.Same s) :
    ∃ z, execTroReady s = .next z ∧ s0.Same z := by
  unfold execTroReady
  refine ⟨_, rfl, ?_⟩
  repeat' first
    | (with_reducible assumption) | (with_reducible apply State.stageGo_same)
    | (with_reducible apply State.Same.ite) | (intro) | (with_reducible refine State.Same.mk' ?_ rfl rfl rfl)

theorem State.clkCtl_same {s0 s : State} (src : Source) (go : Bool) (hk : s0.Same s) :
    s0.Same (State.clkCtl s src go) := by
  unfold State.clkCtl
  repeat' first
    | (with_reducible assumption) | (with_reducible apply State.wakeAsk_same)
    | (with_reducible apply State.selectSource_same) | (with_reducible apply State.Same.ite) | (intro)
    | (with_reducible refine State.Same.mk' ?_ rfl rfl rfl)

theorem execVack_same {s0 s : State} (code : BitVec 3) (hk : s0.Same s) :
    ∃ z, execVack code s = .next z ∧ s0.Same z := by
  unfold execVack
  refine ⟨_, rfl, ?_⟩
  repeat' first
    | (with_reducible assumption) | (with_reducible apply State.stageGo_same)
    | (with_reducible apply State.wakeGo_same) | (with_reducible apply State.seqGo_same)
    | (with_reducible apply State.Same.ite) | (intro) | split | (dsimp only)
    | (with_reducible refine State.Same.mk' ?_ rfl rfl rfl)

theorem execVackTimeout_same {s0 s : State} (hk : s0.Same s) :
    ∃ z, execVackTimeout s = .next z ∧ s0.Same z := by
  unfold execVackTimeout
  refine ⟨_, rfl, ?_⟩
  repeat' first
    | (with_reducible assumption) | (with_reducible apply State.powerIrq_same)
    | (with_reducible apply State.seqGo_same) | (with_reducible apply State.Same.ite) | (intro)
    | (with_reducible refine State.Same.mk' ?_ rfl rfl rfl)

theorem execAclkSlewDone_same {s0 s : State} (hk : s0.Same s) :
    ∃ z, execAclkSlewDone s = .next z ∧ s0.Same z := by
  unfold execAclkSlewDone
  refine ⟨_, rfl, ?_⟩
  repeat' first
    | (with_reducible assumption) | (with_reducible apply State.seqGo_same)
    | (with_reducible apply State.voltDown_same) | (with_reducible apply State.Same.ite) | (intro)
    | (with_reducible refine State.Same.mk' ?_ rfl rfl rfl)

theorem State.pwrCtl_same {s0 s : State} (pt : BitVec 3) (go : Bool) (hk : s0.Same s) :
    s0.Same (State.pwrCtl s pt go) := by
  unfold State.pwrCtl
  repeat' first
    | (with_reducible assumption) | (with_reducible apply State.wakeAsk_same)
    | (with_reducible apply State.setRunPoint_same) | (with_reducible apply State.Same.ite) | (intro)
    | (with_reducible refine State.Same.mk' ?_ rfl rfl rfl)

theorem State.boostCheck_same {s0 s : State} (hk : s0.Same s) :
    s0.Same (State.boostCheck s) := by
  unfold State.boostCheck
  repeat' first
    | (with_reducible assumption) | (with_reducible apply State.setRunPoint_same)
    | (with_reducible apply State.Same.ite) | (intro)

theorem execPark_same {s0 s : State} (hk : s0.Same s) :
    ∃ z, execPark s = .next z ∧ s0.Same z := by
  unfold execPark
  refine ⟨_, rfl, ?_⟩
  repeat' first
    | (with_reducible assumption) | (with_reducible apply State.Same.ite) | (intro)
    | (with_reducible refine State.Same.mk' ?_ rfl rfl rfl)

theorem execWake_same {s0 s : State} (hk : s0.Same s) :
    ∃ z, execWake s = .next z ∧ s0.Same z := by
  unfold execWake
  refine ⟨_, rfl, ?_⟩
  repeat' first
    | (with_reducible assumption) | (with_reducible apply State.wakeGo_same)

theorem execPswGnt_same {s0 s : State} (level : Bool) (hk : s0.Same s) :
    ∃ z, execPswGnt level s = .next z ∧ s0.Same z := by
  unfold execPswGnt
  refine ⟨_, rfl, ?_⟩
  repeat' first
    | (with_reducible assumption) | (with_reducible apply State.batchGo_same)
    | (with_reducible apply State.Same.ite) | (intro) | (with_reducible refine State.Same.mk' ?_ rfl rfl rfl)

theorem State.linkBack_same {s0 s : State} (l : Nat) (hk : s0.Same s) :
    s0.Same (State.linkBack s l) := by
  unfold State.linkBack
  repeat' first
    | (with_reducible assumption) | (with_reducible apply State.linkWait_same)
    | (with_reducible apply State.linkTo_same) | (with_reducible apply State.Same.ite) | (intro)

theorem State.transomLost_same {s0 s : State} (hk : s0.Same s) :
    s0.Same (State.transomLost s) := by
  unfold State.transomLost
  repeat' first
    | (with_reducible assumption) | (with_reducible refine State.Same.mk' ?_ rfl rfl rfl)

theorem State.cellsLost_same {s0 s : State} (l : Nat) (hk : s0.Same s) :
    s0.Same (State.cellsLost s l) := by
  unfold State.cellsLost
  repeat' first
    | (with_reducible assumption) | (with_reducible apply State.modCells_same)

theorem State.domainFail_same {s0 s : State} (hk : s0.Same s) :
    s0.Same (State.domainFail s) := by
  unfold State.domainFail
  repeat' first
    | (with_reducible assumption) | (with_reducible apply State.integrity_same)
    | (with_reducible refine State.Same.mk' ?_ rfl rfl rfl)

theorem execDomainSettleTimeout_same {s0 s : State} (d : Fin 80) (hk : s0.Same s) :
    ∃ z, execDomainSettleTimeout d s = .next z ∧ s0.Same z := by
  unfold execDomainSettleTimeout
  refine ⟨_, rfl, ?_⟩
  repeat' first
    | (with_reducible assumption) | (with_reducible apply State.powerIrq_same)
    | (with_reducible apply State.stageGo_same) | (with_reducible apply State.batchGo_same)
    | (with_reducible apply State.domainFail_same) | (with_reducible apply State.Same.ite) | (intro)
    | (with_reducible refine State.Same.mk' ?_ rfl rfl rfl)

theorem State.shutOff_same {s0 s : State} (ds : List Nat) (hk : s0.Same s) :
    s0.Same (State.shutOff s ds) := by
  unfold State.shutOff
  repeat' first
    | (with_reducible assumption) | (with_reducible apply State.domainsOff_same) | (intro)
    | (with_reducible refine State.Same.mk' ?_ rfl rfl rfl)

theorem State.shutOn_same {s0 s : State} (ds : List Nat) (hk : s0.Same s) :
    s0.Same (State.shutOn s ds) := by
  unfold State.shutOn
  repeat' first
    | (with_reducible assumption) | (with_reducible apply State.batchAdd_same)
    | (with_reducible apply State.Same.ite) | (intro)

theorem State.spareRanksOff_same {s0 s : State} (p : Nat) (hk : s0.Same s) :
    s0.Same (State.spareRanksOff s p) := by
  unfold State.spareRanksOff
  repeat' first
    | (with_reducible assumption) | (with_reducible apply State.clockRanks_same)
    | (with_reducible apply State.Same.ite) | (intro)

theorem execIdleGate_same {s0 s : State} (unit : GateUnit) (hk : s0.Same s) :
    ∃ z, execIdleGate unit s = .next z ∧ s0.Same z := by
  unfold execIdleGate
  refine ⟨_, rfl, ?_⟩
  repeat' first
    | (with_reducible assumption) | (with_reducible apply State.spareRanksOff_same)
    | (with_reducible apply State.clockRanks_same) | (with_reducible apply State.modEngine_same)
    | (with_reducible apply State.Same.ite) | (intro) | split | (dsimp only)
    | (with_reducible refine State.Same.mk' ?_ rfl rfl rfl)

theorem execLatticeBandOff_same {s0 s : State} (p : Fin 8) (hk : s0.Same s) :
    ∃ z, execLatticeBandOff p s = .next z ∧ s0.Same z := by
  unfold execLatticeBandOff
  refine ⟨_, rfl, ?_⟩
  repeat' first
    | (with_reducible assumption) | (with_reducible apply State.domainsOff_same)
    | (with_reducible apply State.Same.ite) | (intro)

theorem execScrub_same {s0 s : State} (unit : ScrubUnit) (u : Upset) (hk : s0.Same s) :
    ∃ z, execScrub unit u s = .next z ∧ s0.Same z := by
  unfold execScrub
  refine ⟨_, rfl, ?_⟩
  repeat' first
    | (with_reducible assumption) | (with_reducible apply State.sillCorrected_same)
    | (with_reducible apply State.corrected_same) | (with_reducible apply State.integrity_same)
    | (with_reducible apply State.Same.ite) | (intro) | split | (dsimp only)
    | (with_reducible refine State.Same.mk' ?_ rfl rfl rfl)

end Sys2Proof.Machine
end

