-- ==== Sys2Proof/Laws/SameLintel.lean ====
section
/-! SUPPORT. Operations of Machine/Lintel.lean that change no byte of the block. -/

namespace Sys2Proof.Machine

theorem State.hgFlush_same {s0 s : State} (hk : s0.Same s) :
    s0.Same (State.hgFlush s) := by
  unfold State.hgFlush
  repeat' first
    | (with_reducible assumption) | (intro) | split | (dsimp only)
    | (with_reducible refine State.Same.mk' ?_ rfl rfl rfl)

theorem State.hgDenied_same {s0 s : State} (hk : s0.Same s) :
    s0.Same (State.hgDenied s) := by
  unfold State.hgDenied
  repeat' first
    | (with_reducible assumption) | (with_reducible refine State.Same.mk' ?_ rfl rfl rfl)

theorem State.hgDecide_same {s0 s : State} (code : BitVec 2) (hk : s0.Same s) :
    s0.Same (State.hgDecide s code) := by
  unfold State.hgDecide
  repeat' first
    | (with_reducible assumption) | (with_reducible apply State.hgFlush_same)
    | (with_reducible apply State.hgDenied_same) | (with_reducible apply State.Same.ite) | (intro)
    | (with_reducible refine State.Same.mk' ?_ rfl rfl rfl)

theorem State.ltLog_same {s0 s : State} (index : Nat) (cause : Nat) (event : Nat) (hk : s0.Same s) :
    s0.Same (State.ltLog s index cause event) := by
  unfold State.ltLog
  repeat' first
    | (with_reducible assumption) | (with_reducible refine State.Same.mk' ?_ rfl rfl rfl)

theorem State.ltIrq_same {s0 s : State} (hk : s0.Same s) :
    s0.Same (State.ltIrq s) := by
  unfold State.ltIrq
  repeat' first
    | (with_reducible assumption) | (with_reducible apply State.irqSet_same)

theorem State.setRecord_same {s0 s : State} (i : Nat) (r : LtRec) (hk : s0.Same s) :
    s0.Same (State.setRecord s i r) := by
  unfold State.setRecord
  repeat' first
    | (with_reducible assumption) | (with_reducible refine State.Same.mk' ?_ rfl rfl rfl)

theorem State.ltBadSeen_same {s0 s : State} (i : Nat) (hk : s0.Same s) :
    s0.Same (State.ltBadSeen s i) := by
  unfold State.ltBadSeen
  repeat' first
    | (with_reducible assumption) | (with_reducible apply State.ltIrq_same)
    | (with_reducible apply State.ltLog_same) | (with_reducible refine State.Same.mk' ?_ rfl rfl rfl)

theorem State.ltTake_same {s0 s : State} (i : Nat) (r : Option LtRec) (hk : s0.Same s) :
    s0.Same (State.ltTake s i r) := by
  unfold State.ltTake
  repeat' first
    | (with_reducible assumption) | (with_reducible apply State.setRecord_same)
    | (with_reducible apply State.ltBadSeen_same) | split | (dsimp only)
    | (with_reducible refine State.Same.mk' ?_ rfl rfl rfl)

theorem State.ltDeny_same {s0 s : State} (index : Nat) (cause : Nat) (event : Nat) (hk : s0.Same s) :
    s0.Same (State.ltDeny s index cause event) := by
  unfold State.ltDeny
  repeat' first
    | (with_reducible assumption) | (with_reducible apply State.ltIrq_same)
    | (with_reducible apply State.ltLog_same) | (with_reducible refine State.Same.mk' ?_ rfl rfl rfl)

theorem State.applied_same {s0 s : State} (a : Applied) (hk : s0.Same s) :
    s0.Same (State.applied s a) := by
  unfold State.applied
  repeat' first
    | (with_reducible assumption) | (with_reducible refine State.Same.mk' ?_ rfl rfl rfl)

theorem State.applyRecords_same {s0 s : State} (hk : s0.Same s) :
    s0.Same (State.applyRecords s) := by
  unfold State.applyRecords
  repeat' first
    | (with_reducible assumption) | (with_reducible apply State.ltBadSeen_same)
    | (with_reducible apply State.applied_same) | (with_reducible apply State.Same.ite) | (intro)

theorem State.noStore_same {s0 s : State} (hk : s0.Same s) :
    s0.Same (State.noStore s) := by
  unfold State.noStore
  repeat' first
    | (with_reducible assumption) | (with_reducible apply State.ltIrq_same)
    | (with_reducible apply State.applied_same) | (intro) | split | (dsimp only)
    | (with_reducible refine State.Same.mk' ?_ rfl rfl rfl)

theorem State.ltSend_same {s0 s : State} (q : LtReq) (hk : s0.Same s) :
    s0.Same (State.ltSend s q) := by
  unfold State.ltSend
  repeat' first
    | (with_reducible assumption) | (with_reducible refine State.Same.mk' ?_ rfl rfl rfl)

theorem State.ltNext_same {s0 s : State} (q : Option LtReq) (hk : s0.Same s) :
    s0.Same (State.ltNext s q) := by
  unfold State.ltNext
  repeat' first
    | (with_reducible assumption) | (with_reducible refine State.Same.mk' ?_ rfl rfl rfl)

theorem State.ltRetire_same {s0 s : State} (i : Nat) (d : Word) (hk : s0.Same s) :
    s0.Same (State.ltRetire s i d) := by
  unfold State.ltRetire
  repeat' first
    | (with_reducible assumption) | (with_reducible apply State.setRecord_same)
    | (with_reducible apply State.ltIrq_same) | (with_reducible apply State.ltLog_same)
    | (with_reducible apply State.boostCheck_same) | (with_reducible apply State.Same.ite) | (intro)
    | (with_reducible refine State.Same.mk' ?_ rfl rfl rfl)

theorem State.ltResolve_same {s0 s : State} (i : Nat) (d : Word) (r : Option LtRec) (hk : s0.Same s) :
    s0.Same (State.ltResolve s i d r) := by
  unfold State.ltResolve
  repeat' first
    | (with_reducible assumption) | (with_reducible apply State.ltIrq_same)
    | (with_reducible apply State.ltLog_same) | (with_reducible apply State.setRecord_same)
    | (with_reducible apply State.ltTake_same) | (with_reducible apply State.boostCheck_same)
    | (with_reducible apply State.Same.ite) | (intro) | split | (dsimp only)
    | (with_reducible refine State.Same.mk' ?_ rfl rfl rfl)

theorem State.hatchRefuse_same {s0 s : State} (result : Option (BitVec 8)) (hk : s0.Same s) :
    s0.Same (State.hatchRefuse s result) := by
  unfold State.hatchRefuse
  repeat' first
    | (with_reducible assumption) | (with_reducible refine State.Same.mk' ?_ rfl rfl rfl)

theorem execHatchProcedureComplete_same {s0 s : State} (hk : s0.Same s) :
    ∃ z, execHatchProcedureComplete s = .next z ∧ s0.Same z := by
  unfold execHatchProcedureComplete
  refine ⟨_, rfl, ?_⟩
  repeat' first
    | (with_reducible assumption) | (with_reducible apply State.hatchRefuse_same)
    | (with_reducible apply State.ltSend_same) | (with_reducible apply State.Same.ite) | (intro)

theorem execHatchTimeout_same {s0 s : State} (hk : s0.Same s) :
    ∃ z, execHatchTimeout s = .next z ∧ s0.Same z := by
  unfold execHatchTimeout
  refine ⟨_, rfl, ?_⟩
  repeat' first
    | (with_reducible assumption) | (with_reducible apply State.goCleared_same)
    | (with_reducible apply State.Same.ite) | (intro) | (with_reducible refine State.Same.mk' ?_ rfl rfl rfl)

theorem execLintelTimeout_same {s0 s : State} (hk : s0.Same s) :
    ∃ z, execLintelTimeout s = .next z ∧ s0.Same z := by
  unfold execLintelTimeout
  refine ⟨_, rfl, ?_⟩
  repeat' first
    | (with_reducible assumption) | (with_reducible apply State.hgDecide_same)
    | (with_reducible apply State.ltDeny_same) | (with_reducible apply State.ltNext_same)
    | (with_reducible apply State.hatchRefuse_same) | (with_reducible apply State.Same.ite) | (intro) | split
    | (dsimp only) | (with_reducible refine State.Same.mk' ?_ rfl rfl rfl)

theorem execLintelReadTimeout_same {s0 s : State} (hk : s0.Same s) :
    ∃ z, execLintelReadTimeout s = .next z ∧ s0.Same z := by
  unfold execLintelReadTimeout
  refine ⟨_, rfl, ?_⟩
  repeat' first
    | (with_reducible assumption) | (with_reducible apply State.noStore_same)
    | (with_reducible apply State.stageGo_same) | (with_reducible apply State.toStage_same)
    | (with_reducible apply State.Same.ite) | (intro) | split | (dsimp only)
    | (with_reducible refine State.Same.mk' ?_ rfl rfl rfl)

theorem execDeadboltAssert_same {s0 s : State} (hk : s0.Same s) :
    ∃ z, execDeadboltAssert s = .next z ∧ s0.Same z := by
  unfold execDeadboltAssert
  refine ⟨_, rfl, ?_⟩
  repeat' first
    | (with_reducible assumption) | (with_reducible apply State.Same.ite) | (intro)
    | (with_reducible refine State.Same.mk' ?_ rfl rfl rfl)

theorem execLtPfailN_same {s0 s : State} (level : Bool) (hk : s0.Same s) :
    ∃ z, execLtPfailN level s = .next z ∧ s0.Same z := by
  unfold execLtPfailN
  refine ⟨_, rfl, ?_⟩
  repeat' first
    | (with_reducible assumption) | (with_reducible refine State.Same.mk' ?_ rfl rfl rfl)

end Sys2Proof.Machine
end

