-- ==== Sys2Proof/Laws/SameFrame.lean ====
section
/-! SUPPORT. Operations of Machine/Frame.lean that change no byte of the block. -/

namespace Sys2Proof.Machine

theorem State.framePost_same {s0 s : State} (result : Nat) (at0 : Option Nat) (hk : s0.Same s) :
    s0.Same (State.framePost s result at0) := by
  unfold State.framePost
  repeat' first
    | (with_reducible assumption) | (with_reducible apply State.goCleared_same)
    | (with_reducible apply State.irqSet_same) | (with_reducible apply State.Same.ite) | (intro) | split
    | (dsimp only) | (with_reducible refine State.Same.mk' ?_ rfl rfl rfl)

theorem State.frameErr_same {s0 s : State} (hk : s0.Same s) :
    s0.Same (State.frameErr s) := by
  unfold State.frameErr
  repeat' first
    | (with_reducible assumption) | (with_reducible refine State.Same.mk' ?_ rfl rfl rfl)

theorem State.frameStage_same {s0 s : State} (hk : s0.Same s) :
    s0.Same (State.frameStage s) := by
  unfold State.frameStage
  repeat' first
    | (with_reducible assumption) | (with_reducible apply State.framePost_same)
    | (with_reducible apply State.jambAdd_same) | (with_reducible apply State.modPlane_same) | exact fun _ k => k
    | (intro _ k; cases k; done) | (with_reducible apply State.Same.ite) | (intro)
    | (with_reducible refine State.Same.mk' ?_ rfl rfl rfl)

theorem State.stagingGot_same {s0 s : State} (p : Nat) (base : Nat) (cs : List Host.Cell) (ok : Bool) (hk : s0.Same
    s) :
    s0.Same (State.stagingGot s p base cs ok) := by
  unfold State.stagingGot
  repeat' first
    | (with_reducible assumption) | (with_reducible apply State.modPlane_same)

theorem State.stageRefused_same {s0 s : State} (p : Nat) (result : Nat) (at0 : Nat) (hk : s0.Same s) :
    s0.Same (State.stageRefused s p result at0) := by
  unfold State.stageRefused
  repeat' first
    | (with_reducible assumption) | (with_reducible apply State.framePost_same)
    | (with_reducible apply State.modPlane_same)

theorem execFrameStagingResult_same {s0 s : State} (hk : s0.Same s) :
    ∃ z, execFrameStagingResult s = .next z ∧ s0.Same z := by
  unfold execFrameStagingResult
  refine ⟨_, rfl, ?_⟩
  repeat' first
    | (with_reducible assumption) | (with_reducible apply State.stageRefused_same)
    | (with_reducible apply State.framePost_same) | (with_reducible apply State.modPlane_same) | exact fun _ k => k
    | (intro _ k; cases k; done) | (with_reducible apply State.Same.ite) | (intro) | split

theorem State.commitCounts_same {s0 s : State} (hk : s0.Same s) :
    s0.Same (State.commitCounts s) := by
  unfold State.commitCounts
  repeat' first
    | (with_reducible assumption) | (with_reducible refine State.Same.mk' ?_ rfl rfl rfl)

theorem State.commitTo_same {s0 s : State} (p : Nat) (f : FrameCfg) (hk : s0.Same s) :
    s0.Same (State.commitTo s p f) := by
  unfold State.commitTo
  refine State.wakeAsk_same (State.framePost_same _ _ (State.Same.mk' ?_ rfl rfl rfl))
  exact State.modPlane_same _ _ (State.modPlane_same _ _ (State.commitCounts_same hk))

theorem State.frameCommit_same {s0 s : State} (hk : s0.Same s) :
    s0.Same (State.frameCommit s) := by
  unfold State.frameCommit
  repeat' first
    | (with_reducible assumption) | (with_reducible apply State.framePost_same)
    | (with_reducible apply State.commitTo_same) | (with_reducible apply State.modPlane_same) | exact fun _ k => k
    | (intro _ k; cases k; done) | (with_reducible apply State.Same.ite) | (intro) | split | (dsimp only)
    | (with_reducible refine State.Same.mk' ?_ rfl rfl rfl)

theorem execCommitWaitResolve_same {s0 s : State} (hk : s0.Same s) :
    ∃ z, execCommitWaitResolve s = .next z ∧ s0.Same z := by
  unfold execCommitWaitResolve
  refine ⟨_, rfl, ?_⟩
  repeat' first
    | (with_reducible assumption) | (with_reducible apply State.framePost_same)
    | (with_reducible apply State.modPlane_same) | (with_reducible apply State.commitTo_same) | exact fun _ k => k
    | (intro _ k; cases k; done) | (with_reducible apply State.Same.ite) | (intro) | split

theorem State.weaveRestart_same {s0 s : State} (hk : s0.Same s) :
    s0.Same (State.weaveRestart s) := by
  unfold State.weaveRestart
  repeat' first
    | (with_reducible assumption) | (with_reducible apply State.modEngine_same)
    | (with_reducible apply State.Same.foldl) | (intro) | (with_reducible refine State.Same.mk' ?_ rfl rfl rfl)

theorem State.clocksAssigned_same {s0 s : State} (old : BitVec 32) (alone : Bool) (hk : s0.Same s) :
    s0.Same (State.clocksAssigned s old alone) := by
  unfold State.clocksAssigned
  repeat' first
    | (with_reducible assumption) | (with_reducible apply State.clockRanks_same)
    | (with_reducible apply State.modEngine_same) | (with_reducible apply State.Same.foldl)
    | (with_reducible apply State.Same.ite) | (intro)

theorem State.restoreTaken_same {s0 s : State} (c : Nat) (r : Restored) (hk : s0.Same s) :
    s0.Same (State.restoreTaken s c r) := by
  unfold State.restoreTaken
  repeat' first
    | (with_reducible assumption) | (with_reducible apply State.modPlane_same) | exact fun _ k => k
    | (intro _ k; cases k; done) | (with_reducible apply State.Same.foldl) | (intro) | split | (dsimp only)
    | (with_reducible refine State.Same.mk' ?_ rfl rfl rfl)

theorem State.contextStart_same {s0 s : State} (c : Nat) (hk : s0.Same s) :
    s0.Same (State.contextStart s c) := by
  unfold State.contextStart
  repeat' first
    | (with_reducible assumption) | (with_reducible apply State.modPlane_same)
    | (with_reducible apply State.restoreTaken_same) | (with_reducible apply State.startThread_same)
    | exact fun _ k => k | (intro _ k; cases k; done) | (with_reducible apply State.Same.foldl)
    | (with_reducible apply State.Same.ite) | (intro) | split | (dsimp only)
    | (with_reducible refine State.Same.mk' ?_ rfl rfl rfl)

theorem State.frameDiscard_same {s0 s : State} (hk : s0.Same s) :
    s0.Same (State.frameDiscard s) := by
  unfold State.frameDiscard
  repeat' first
    | (with_reducible assumption) | (with_reducible apply State.framePost_same)
    | (with_reducible apply State.endContext_same) | (with_reducible apply State.frameErr_same) | split

theorem State.frameForce_same {s0 s : State} (hk : s0.Same s) :
    s0.Same (State.frameForce s) := by
  unfold State.frameForce
  repeat' first
    | (with_reducible assumption) | (with_reducible apply State.frameErr_same)
    | (with_reducible apply State.framePost_same) | (with_reducible apply State.modTh_same)
    | (with_reducible apply State.endContext_same) | (with_reducible apply State.Same.foldl)
    | (with_reducible apply State.Same.ite) | (intro) | (with_reducible refine State.Same.mk' ?_ rfl rfl rfl)

theorem State.frameCtl_same {s0 s : State} (len : BitVec 17) (op : BitVec 3) (wait : Bool) (slot : Bool) (go : Bool)
    (hk : s0.Same s) :
    s0.Same (State.frameCtl s len op wait slot go) := by
  unfold State.frameCtl
  repeat' first
    | (with_reducible assumption) | (with_reducible apply State.wakeAsk_same)
    | (with_reducible apply State.frameErr_same) | (with_reducible apply State.goRefused_same)
    | (with_reducible apply State.frameStage_same) | (with_reducible apply State.frameCommit_same)
    | (with_reducible apply State.frameDiscard_same) | (with_reducible apply State.frameForce_same)
    | (with_reducible apply State.Same.ite) | (intro) | split | (dsimp only)
    | (with_reducible refine State.Same.mk' ?_ rfl rfl rfl)

end Sys2Proof.Machine
end

