-- ==== Sys2Proof/Laws/SameCheckpoint.lean ====
section
/-! SUPPORT. Operations of Machine/Checkpoint.lean that change no byte of the block. -/

namespace Sys2Proof.Machine

theorem State.regionShut_same {s0 s : State} (r : Region) (hk : s0.Same s) :
    s0.Same (State.regionShut s r) := by
  unfold State.regionShut
  repeat' first
    | (with_reducible assumption) | (with_reducible apply State.linesShut_same)
    | (with_reducible apply State.shutAccess_same) | (with_reducible apply State.Same.ite) | (intro)

theorem State.ckptWrite_same {s0 s : State} (hk : s0.Same s) :
    s0.Same (State.ckptWrite s) := by
  unfold State.ckptWrite
  repeat' first
    | (with_reducible assumption) | (with_reducible apply State.ckptDone_same)
    | (with_reducible apply State.regionShut_same) | (with_reducible apply State.jambAdd_same)
    | (with_reducible apply State.Same.foldl) | (with_reducible apply State.Same.ite) | (intro) | split
    | (dsimp only) | (with_reducible refine State.Same.mk' ?_ rfl rfl rfl)

theorem State.ckptGo_same {s0 s : State} (hk : s0.Same s) :
    s0.Same (State.ckptGo s) := by
  unfold State.ckptGo
  repeat' first
    | (with_reducible assumption) | (with_reducible apply State.ckptWrite_same)
    | (with_reducible apply State.Same.ite) | (intro)

theorem State.ckptSave_same {s0 s : State} (hk : s0.Same s) :
    s0.Same (State.ckptSave s) := by
  unfold State.ckptSave
  repeat' first
    | (with_reducible assumption) | (with_reducible apply State.ckptDone_same)
    | (with_reducible apply State.ckptGo_same) | (with_reducible apply State.dcClean_same)
    | (with_reducible apply State.Same.ite) | (intro) | (with_reducible refine State.Same.mk' ?_ rfl rfl rfl)

theorem State.ckptRestore_same {s0 s : State} (hk : s0.Same s) :
    s0.Same (State.ckptRestore s) := by
  unfold State.ckptRestore
  repeat' first
    | (with_reducible assumption) | (with_reducible apply State.jambAdd_same)
    | (with_reducible refine State.Same.mk' ?_ rfl rfl rfl)

theorem State.ckptHead_same {s0 s : State} (hk : s0.Same s) :
    s0.Same (State.ckptHead s) := by
  unfold State.ckptHead
  repeat' first
    | (with_reducible assumption) | (with_reducible apply State.ckptDone_same)
    | (with_reducible apply State.jambAdd_same) | (with_reducible apply State.Same.ite) | (intro)
    | (with_reducible refine State.Same.mk' ?_ rfl rfl rfl)

theorem State.ckptCtl_same {s0 s : State} (op : BitVec 2) (slot : Bool) (go : Bool) (hk : s0.Same s) :
    s0.Same (State.ckptCtl s op slot go) := by
  unfold State.ckptCtl
  repeat' first
    | (with_reducible assumption) | (with_reducible apply State.goRefused_same)
    | (with_reducible apply State.ckptSave_same) | (with_reducible apply State.ckptRestore_same)
    | (with_reducible apply State.Same.ite) | (intro) | split | (dsimp only)
    | (with_reducible refine State.Same.mk' ?_ rfl rfl rfl)

theorem State.adopt_same {s0 s : State} (node : BitVec 16) (go : Bool) (hk : s0.Same s) :
    s0.Same (State.adopt s node go) := by
  unfold State.adopt
  repeat' first
    | (with_reducible assumption) | (with_reducible apply State.Same.ite) | (intro)
    | (with_reducible refine State.Same.mk' ?_ rfl rfl rfl)

end Sys2Proof.Machine
end

