-- ==== Sys2Proof/Laws/SameJambExec.lean ====
section
/-! SUPPORT. Operations of Machine/JambExec.lean that change no byte of the block. -/

namespace Sys2Proof.Machine

theorem State.tagEnd_same {s0 s : State} (tag : Nat) (hk : s0.Same s) :
    s0.Same (State.tagEnd s tag) := by
  unfold State.tagEnd
  exact hk.upd rfl rfl rfl

theorem State.strayRsp_same {s0 s : State} (tag : Nat) (hk : s0.Same s) :
    s0.Same (State.strayRsp s tag) := by
  unfold State.strayRsp
  repeat' first
    | (with_reducible assumption) | (intro) | (with_reducible refine State.Same.mk' ?_ rfl rfl rfl)

theorem State.fetchArrived_same {s0 s : State} (t : Thread) (again : Bool) (r : JReq) (bs : List Byte) (ok : Bool)
    (bad : Bool) (hk : s0.Same s) :
    s0.Same (State.fetchArrived s t again r bs ok bad) := by
  unfold State.fetchArrived
  repeat' first
    | (with_reducible assumption) | (with_reducible apply State.fetchAt_same)
    | (with_reducible apply State.wakeUp_same) | (with_reducible apply State.jambAdd_same)
    | (with_reducible apply State.refetched_same) | (with_reducible apply State.stopExc_same)
    | (with_reducible apply State.Same.ite) | (intro) | (with_reducible refine State.Same.mk' ?_ rfl rfl rfl)

theorem State.mldArrived_same {s0 s : State} (t : Thread) (a : Nat) (n : Nat) (cs : List Host.Cell) (ok : Bool) (hk :
    s0.Same s) :
    s0.Same (State.mldArrived s t a n cs ok) := by
  unfold State.mldArrived
  repeat' first
    | (with_reducible assumption) | (with_reducible apply State.resume_same)
    | (with_reducible apply State.setReg_same) | (with_reducible apply State.stopExc_same)
    | (with_reducible apply State.Same.ite) | (intro) | split

theorem State.mstAnswered_same {s0 s : State} (t : Thread) (r : JReq) (pc : BitVec 48) (ok : Bool) (hk : s0.Same s) :
    s0.Same (State.mstAnswered s t r pc ok) := by
  unfold State.mstAnswered
  repeat' first
    | (with_reducible assumption) | (with_reducible apply State.modTh_same)
    | (with_reducible apply State.stopExc_same) | (with_reducible apply State.excPush_same)
    | (with_reducible apply State.resume_same) | (with_reducible apply State.Same.ite) | (intro)

theorem State.recordAnswered_same {s0 s : State} (t : Thread) (n : Nat) (bs : List Byte) (ok : Bool) (hk : s0.Same s)
    :
    s0.Same (State.recordAnswered s t n bs ok) := by
  unfold State.recordAnswered
  repeat' first
    | (with_reducible assumption) | (with_reducible apply State.recordArrived_same)
    | (with_reducible apply State.Same.ite) | (intro) | split

theorem State.issuedOpens_same {s0 s : State} (uid : Nat) (hk : s0.Same s) :
    s0.Same (State.issuedOpens s uid) := by
  unfold State.issuedOpens
  repeat' first
    | (with_reducible assumption) | (with_reducible apply State.engineOpen_same)
    | (with_reducible apply State.Same.ite) | (intro) | split

theorem State.keptFree_same {s0 s : State} (uid : Nat) (hk : s0.Same s) :
    s0.Same (State.keptFree s uid) := by
  unfold State.keptFree
  repeat' first
    | (with_reducible assumption) | (with_reducible apply State.modEntry_same) | (intro) | split | (dsimp only)
    | (with_reducible refine State.Same.mk' ?_ rfl rfl rfl)

theorem State.keepTag_same {s0 s : State} (e : Entry) (tag : Nat) (block : Nat) (hk : s0.Same s) :
    s0.Same (State.keepTag s e tag block) := by
  unfold State.keepTag
  repeat' first
    | (with_reducible assumption) | (with_reducible apply State.modEntry_same)
    | (with_reducible apply State.Same.ite) | (intro) | split | (dsimp only)
    | (with_reducible refine State.Same.mk' ?_ rfl rfl rfl)

theorem State.spillGot_same {s0 s : State} (e : Entry) (tag : Nat) (block : Nat) (ok : Bool) (fault : Option (BitVec
    16)) (hk : s0.Same s) :
    s0.Same (State.spillGot s e tag block ok fault) := by
  unfold State.spillGot
  repeat' first
    | (with_reducible assumption) | (with_reducible apply State.modEntry_same)
    | (with_reducible apply State.classS_same) | (with_reducible apply State.spillBlock_same)
    | (with_reducible apply State.Same.ite) | (intro) | split

theorem State.dcBusyEnd_same {s0 s : State} (hk : s0.Same s) :
    s0.Same (State.dcBusyEnd s) := by
  unfold State.dcBusyEnd
  repeat' first
    | (with_reducible assumption) | (with_reducible apply State.goCleared_same)
    | (with_reducible apply State.modCr_same) | (with_reducible apply State.Same.ite) | (intro) | split

theorem State.flushEnd_same {s0 s : State} (t : Thread) (hk : s0.Same s) :
    s0.Same (State.flushEnd s t) := by
  unfold State.flushEnd
  repeat' first
    | (with_reducible assumption) | (with_reducible apply State.resume_same)
    | (with_reducible apply State.Same.ite) | (intro) | split

theorem State.wroteBack_same {s0 s : State} (c : Nat) (h : Nat) (ok : Bool) (hk : s0.Same s) :
    s0.Same (State.wroteBack s c h ok) := by
  unfold State.wroteBack
  repeat' first
    | (with_reducible assumption) | (with_reducible apply State.planeEmpty_same)
    | (with_reducible apply State.ckptGo_same) | (with_reducible apply State.flushEnd_same)
    | (with_reducible apply State.dcBusyEnd_same) | (with_reducible apply State.Same.foldl)
    | (with_reducible apply State.Same.ite) | (intro) | (with_reducible refine State.Same.mk' ?_ rfl rfl rfl)

theorem State.spillError_same {s0 s : State} (r : JReq) (hk : s0.Same s) :
    s0.Same (State.spillError s r) := by
  unfold State.spillError
  repeat' first
    | (with_reducible assumption) | (with_reducible apply State.sillFault_same) | split

theorem State.issueReq_same {s0 s : State} (i : Nat) (r : JReq) (tag : Nat) (hk : s0.Same s) :
    s0.Same (State.issueReq s i r tag) := by
  unfold State.issueReq
  dsimp only
  split
  · exact State.issuedOpens_same _ (State.Same.mk' hk rfl rfl rfl)
  · exact State.Same.mk' hk rfl rfl rfl

end Sys2Proof.Machine
end

