-- ==== Sys2Proof/Laws/SameLatchOps.lean ====
section
/-! SUPPORT. Operations of Machine/LatchOps.lean that change no byte of the block. -/

namespace Sys2Proof.Machine

theorem State.latchFn_same {s0 s : State} (t : Thread) (k : BitVec 6) (bad : Bool) (g : State → State) (hg : ∀ y,
    s0.Same y → s0.Same (g y)) (hk : s0.Same s) :
    s0.Same (State.latchFn s t k bad g) := by
  unfold State.latchFn
  repeat' first
    | (with_reducible assumption) | (with_reducible apply hg) | (with_reducible apply State.ifRun_same)
    | (with_reducible apply State.illegal_same) | (with_reducible apply State.Same.ite) | (intro)

theorem State.lsigGo_same {s0 s : State} (t : Thread) (k : Nat) (hk : s0.Same s) :
    s0.Same (State.lsigGo s t k) := by
  unfold State.lsigGo
  repeat' first
    | (with_reducible assumption) | (with_reducible apply State.signalsAhead_same)
    | (with_reducible apply State.latchSignal_same) | (with_reducible apply State.advance_same)
    | (with_reducible apply State.Same.ite) | (intro)

theorem execLsig_same {s0 s : State} (t : Thread) (_rd : Reg) (_ra : Reg) (k : BitVec 6) (x : BitVec 6) (u : Upset)
    (hk : s0.Same s) :
    ∃ z, execLsig t _rd _ra k x u s = .next z ∧ s0.Same z := by
  unfold execLsig
  refine ⟨_, rfl, ?_⟩
  repeat' first
    | (with_reducible assumption) | (with_reducible apply State.latchFn_same)
    | (with_reducible apply State.lsigGo_same) | (with_reducible apply State.controlParity_same) | (intro) | split

theorem execLwait_same {s0 s : State} (t : Thread) (_rd : Reg) (_ra : Reg) (k : BitVec 6) (x : BitVec 6) (hk :
    s0.Same s) :
    ∃ z, execLwait t _rd _ra k x s = .next z ∧ s0.Same z := by
  unfold execLwait
  refine ⟨_, rfl, ?_⟩
  repeat' first
    | (with_reducible assumption) | (with_reducible apply State.latchFn_same)
    | (with_reducible apply State.signalsAhead_same) | (with_reducible apply State.parityCheck_same)
    | (with_reducible apply State.waitIn_same) | (with_reducible apply State.advance_same)
    | (with_reducible apply State.latchConsume_same) | (with_reducible apply State.Same.ite) | (intro)

theorem execLatchWaitReady_same {s0 s : State} (t : Thread) (hk : s0.Same s) :
    ∃ z, execLatchWaitReady t s = .next z ∧ s0.Same z := by
  unfold execLatchWaitReady
  refine ⟨_, rfl, ?_⟩
  repeat' first
    | (with_reducible assumption) | (with_reducible apply State.signalsAhead_same)
    | (with_reducible apply State.parityCheck_same) | (with_reducible apply State.resume_same)
    | (with_reducible apply State.latchConsume_same) | (with_reducible apply State.Same.ite) | (intro) | split
    | (dsimp only) | (with_reducible refine State.Same.mk' ?_ rfl rfl rfl)

theorem execLtry_same {s0 s : State} (t : Thread) (rd : Reg) (_ra : Reg) (k : BitVec 6) (x : BitVec 6) (hk : s0.Same
    s) :
    ∃ z, execLtry t rd _ra k x s = .next z ∧ s0.Same z := by
  unfold execLtry
  refine ⟨_, rfl, ?_⟩
  repeat' first
    | (with_reducible assumption) | (with_reducible apply State.latchFn_same)
    | (with_reducible apply State.signalsAhead_same) | (with_reducible apply State.parityCheck_same)
    | (with_reducible apply State.advance_same) | (with_reducible apply State.setReg_same)
    | (with_reducible apply State.latchConsume_same) | (with_reducible apply State.Same.ite) | (intro)

theorem execLread_same {s0 s : State} (t : Thread) (rd : Reg) (_ra : Reg) (k : BitVec 6) (x : BitVec 6) (hk : s0.Same
    s) :
    ∃ z, execLread t rd _ra k x s = .next z ∧ s0.Same z := by
  unfold execLread
  refine ⟨_, rfl, ?_⟩
  repeat' first
    | (with_reducible assumption) | (with_reducible apply State.latchFn_same)
    | (with_reducible apply State.parityCheck_same) | (with_reducible apply State.advance_same)
    | (with_reducible apply State.setReg_same) | (intro)

theorem execQsig_same {s0 s : State} (t : Thread) (_rd : Reg) (_ra : Reg) (k : BitVec 6) (x : BitVec 6) (hk : s0.Same
    s) :
    ∃ z, execQsig t _rd _ra k x s = .next z ∧ s0.Same z := by
  unfold execQsig
  refine ⟨_, rfl, ?_⟩
  repeat' first
    | (with_reducible assumption) | (with_reducible apply State.latchFn_same)
    | (with_reducible apply State.enter_same) | (intro)

theorem execQwait_same {s0 s : State} (t : Thread) (_rd : Reg) (_ra : Reg) (_k : BitVec 6) (x : BitVec 6) (hk :
    s0.Same s) :
    ∃ z, execQwait t _rd _ra _k x s = .next z ∧ s0.Same z := by
  unfold execQwait
  refine ⟨_, rfl, ?_⟩
  repeat' first
    | (with_reducible assumption) | (with_reducible apply State.ifRun_same)
    | (with_reducible apply State.illegal_same) | (with_reducible apply State.advance_same)
    | (with_reducible apply State.waitIn_same) | (with_reducible apply State.Same.ite) | (intro)

theorem execQueueWaitDone_same {s0 s : State} (t : Thread) (hk : s0.Same s) :
    ∃ z, execQueueWaitDone t s = .next z ∧ s0.Same z := by
  unfold execQueueWaitDone
  refine ⟨_, rfl, ?_⟩
  repeat' first
    | (with_reducible assumption) | (with_reducible apply State.resume_same)
    | (with_reducible apply State.Same.ite) | (intro) | split

theorem State.latchHsig_same {s0 s : State} (k : Nat) (bank : Nat) (go : Bool) (hk : s0.Same s) :
    s0.Same (State.latchHsig s k bank go) := by
  unfold State.latchHsig
  repeat' first
    | (with_reducible assumption) | (with_reducible apply State.latchSignal_same)
    | (with_reducible apply State.signalsAhead_same) | (with_reducible apply State.Same.ite) | (intro)
    | (with_reducible refine State.Same.mk' ?_ rfl rfl rfl)

theorem State.wdPolicy_same {s0 s : State} (ts : List Thread) (hk : s0.Same s) :
    s0.Same (State.wdPolicy s ts) := by
  unfold State.wdPolicy
  repeat' first
    | (with_reducible assumption) | (with_reducible apply State.stopAtBoundary_same)
    | (with_reducible apply State.integrity_same) | (with_reducible apply State.Same.foldl)
    | (with_reducible apply State.Same.ite) | (intro) | split

theorem execWatchdogFire_same {s0 s : State} (hk : s0.Same s) :
    ∃ z, execWatchdogFire s = .next z ∧ s0.Same z := by
  unfold execWatchdogFire
  refine ⟨_, rfl, ?_⟩
  repeat' first
    | (with_reducible assumption) | (with_reducible apply State.wakeAsk_same)
    | (with_reducible apply State.irqSet_same) | (with_reducible apply State.integrity_same)
    | (with_reducible apply State.excPush_same) | (with_reducible apply State.modTh_same)
    | (with_reducible apply State.wdPolicy_same) | (with_reducible apply State.Same.foldl)
    | (with_reducible apply State.Same.ite) | (intro) | (with_reducible refine State.Same.mk' ?_ rfl rfl rfl)

end Sys2Proof.Machine
end

