-- ==== Sys2Proof/Laws/SameSashSystem.lean ====
section
/-! SUPPORT. Operations of Machine/SashSystem.lean that change no byte of the block. -/

namespace Sys2Proof.Machine

theorem State.csrSet_same {s0 s : State} (t : Thread) (n : Nat) (v : Word) (hk : s0.Same s) :
    s0.Same (State.csrSet s t n v) := by
  unfold State.csrSet
  split
  · exact State.modTh_same _ _ hk
  · exact State.Same.mk' hk rfl rfl rfl
  · exact State.Same.mk' hk rfl rfl rfl
  · exact State.Same.mk' hk rfl rfl rfl
  · exact State.modTh_same _ _ hk

theorem execCsrr_same {s0 s : State} (t : Thread) (rd : Reg) (_ra : Reg) (n : BitVec 12) (hk : s0.Same s) :
    ∃ z, execCsrr t rd _ra n s = .next z ∧ s0.Same z := by
  unfold execCsrr
  refine ⟨_, rfl, ?_⟩
  repeat' first
    | (with_reducible assumption) | (with_reducible apply State.ifRun_same)
    | (with_reducible apply State.advance_same) | (with_reducible apply State.setReg_same)
    | (with_reducible apply State.illegal_same) | (with_reducible apply State.Same.ite) | (intro)

theorem State.csrWrite_same {s0 s : State} (t : Thread) (rd : Reg) (n : BitVec 12) (old : Bool) (f : Word → Word) (hk
    : s0.Same s) :
    s0.Same (State.csrWrite s t rd n old f) := by
  unfold State.csrWrite
  repeat' first
    | (with_reducible assumption) | (with_reducible apply State.ifRun_same)
    | (with_reducible apply State.csrSet_same) | (with_reducible apply State.advance_same)
    | (with_reducible apply State.setReg_same) | (with_reducible apply State.illegal_same)
    | (with_reducible apply State.Same.ite) | (intro)

theorem execCsrw_same {s0 s : State} (t : Thread) (rd : Reg) (ra : Reg) (n : BitVec 12) (hk : s0.Same s) :
    ∃ z, execCsrw t rd ra n s = .next z ∧ s0.Same z := by
  unfold execCsrw
  refine ⟨_, rfl, ?_⟩
  repeat' first
    | (with_reducible assumption) | (with_reducible apply State.csrWrite_same)

theorem execCsrs_same {s0 s : State} (t : Thread) (rd : Reg) (ra : Reg) (n : BitVec 12) (hk : s0.Same s) :
    ∃ z, execCsrs t rd ra n s = .next z ∧ s0.Same z := by
  unfold execCsrs
  refine ⟨_, rfl, ?_⟩
  repeat' first
    | (with_reducible assumption) | (with_reducible apply State.csrWrite_same)

theorem execCsrc_same {s0 s : State} (t : Thread) (rd : Reg) (ra : Reg) (n : BitVec 12) (hk : s0.Same s) :
    ∃ z, execCsrc t rd ra n s = .next z ∧ s0.Same z := by
  unfold execCsrc
  refine ⟨_, rfl, ?_⟩
  repeat' first
    | (with_reducible assumption) | (with_reducible apply State.csrWrite_same)

theorem execTrap_same {s0 s : State} (t : Thread) (_rd : Reg) (_ra : Reg) (n : BitVec 12) (hk : s0.Same s) :
    ∃ z, execTrap t _rd _ra n s = .next z ∧ s0.Same z := by
  unfold execTrap
  refine ⟨_, rfl, ?_⟩
  repeat' first
    | (with_reducible assumption) | (with_reducible apply State.ifRun_same)
    | (with_reducible apply State.pcAdd_same) | (with_reducible apply State.stopExc_same) | (intro)

theorem execTend_same {s0 s : State} (t : Thread) (_rd : Reg) (_ra : Reg) (_n : BitVec 12) (hk : s0.Same s) :
    ∃ z, execTend t _rd _ra _n s = .next z ∧ s0.Same z := by
  unfold execTend
  refine ⟨_, rfl, ?_⟩
  repeat' first
    | (with_reducible assumption) | (with_reducible apply State.ifRun_same)
    | (with_reducible apply State.endPart_same) | (with_reducible apply State.waitIn_same)
    | (with_reducible apply State.Same.ite) | (intro)

theorem execTendComplete_same {s0 s : State} (t : Thread) (hk : s0.Same s) :
    ∃ z, execTendComplete t s = .next z ∧ s0.Same z := by
  unfold execTendComplete
  refine ⟨_, rfl, ?_⟩
  repeat' first
    | (with_reducible assumption) | (with_reducible apply State.endPart_same)
    | (with_reducible apply State.Same.ite) | (intro)

theorem execEret_same {s0 s : State} (t : Thread) (_rd : Reg) (_ra : Reg) (_n : BitVec 12) (hk : s0.Same s) :
    ∃ z, execEret t _rd _ra _n s = .next z ∧ s0.Same z := by
  unfold execEret
  refine ⟨_, rfl, ?_⟩
  repeat' first
    | (with_reducible assumption) | (with_reducible apply State.ifRun_same)
    | (with_reducible apply State.illegal_same) | (with_reducible apply State.modTh_same)
    | (with_reducible apply State.goto_same) | (with_reducible apply State.Same.ite) | (intro)
    | (with_reducible refine State.Same.mk' ?_ rfl rfl rfl)

theorem execTstart_same {s0 s : State} (t : Thread) (rd : Reg) (ra : Reg) (n : BitVec 12) (hk : s0.Same s) :
    ∃ z, execTstart t rd ra n s = .next z ∧ s0.Same z := by
  unfold execTstart
  refine ⟨_, rfl, ?_⟩
  repeat' first
    | (with_reducible assumption) | (with_reducible apply State.ifRun_same)
    | (with_reducible apply State.illegal_same) | (with_reducible apply State.advance_same)
    | (with_reducible apply State.setReg_same) | (with_reducible apply State.modTh_same)
    | (with_reducible apply State.fetchNext_same) | (with_reducible apply State.Same.ite) | (intro)

theorem execTstop_same {s0 s : State} (t : Thread) (_rd : Reg) (_ra : Reg) (n : BitVec 12) (hk : s0.Same s) :
    ∃ z, execTstop t _rd _ra n s = .next z ∧ s0.Same z := by
  unfold execTstop
  refine ⟨_, rfl, ?_⟩
  repeat' first
    | (with_reducible assumption) | (with_reducible apply State.ifRun_same)
    | (with_reducible apply State.illegal_same) | (with_reducible apply State.advance_same)
    | (with_reducible apply State.stopAtBoundary_same) | (with_reducible apply State.Same.ite) | (intro)

theorem State.icFlush_same {s0 s : State} (hk : s0.Same s) :
    s0.Same (State.icFlush s) := by
  unfold State.icFlush
  repeat' first
    | (with_reducible assumption) | (with_reducible refine State.Same.mk' ?_ rfl rfl rfl)

theorem execFenceI_same {s0 s : State} (t : Thread) (_rd : Reg) (_ra : Reg) (_n : BitVec 12) (hk : s0.Same s) :
    ∃ z, execFenceI t _rd _ra _n s = .next z ∧ s0.Same z := by
  unfold execFenceI
  refine ⟨_, rfl, ?_⟩
  repeat' first
    | (with_reducible assumption) | (with_reducible apply State.ifRun_same)
    | (with_reducible apply State.advance_same) | (with_reducible apply State.icFlush_same) | (intro)

theorem execMfence_same {s0 s : State} (t : Thread) (_rd : Reg) (_ra : Reg) (_n : BitVec 12) (hk : s0.Same s) :
    ∃ z, execMfence t _rd _ra _n s = .next z ∧ s0.Same z := by
  unfold execMfence
  refine ⟨_, rfl, ?_⟩
  repeat' first
    | (with_reducible assumption) | (with_reducible apply State.ifRun_same)
    | (with_reducible apply State.advance_same) | (with_reducible apply State.waitMem_same)
    | (with_reducible apply State.Same.ite) | (intro)

theorem execPostRoom_same {s0 s : State} (t : Thread) (hk : s0.Same s) :
    ∃ z, execPostRoom t s = .next z ∧ s0.Same z := by
  unfold execPostRoom
  refine ⟨_, rfl, ?_⟩
  repeat' first
    | (with_reducible assumption) | (with_reducible apply State.resume_same)
    | (with_reducible apply State.stepAdvance_same) | (with_reducible apply State.Same.ite) | (intro)

theorem State.nChecked_same {s0 s : State} (t : Thread) (bad : Bool) (g : State → State) (hg : ∀ y, s0.Same y →
    s0.Same (g y)) (hk : s0.Same s) :
    s0.Same (State.nChecked s t bad g) := by
  unfold State.nChecked
  repeat' first
    | (with_reducible assumption) | (with_reducible apply hg) | (with_reducible apply State.ifRun_same)
    | (with_reducible apply State.illegal_same) | (with_reducible apply State.Same.ite) | (intro)

theorem execDfl_same {s0 s : State} (t : Thread) (_rd : Reg) (ra : Reg) (n : BitVec 12) (hk : s0.Same s) :
    ∃ z, execDfl t _rd ra n s = .next z ∧ s0.Same z := by
  unfold execDfl
  refine ⟨_, rfl, ?_⟩
  repeat' first
    | (with_reducible assumption) | (with_reducible apply State.nChecked_same)
    | (with_reducible apply State.dcFlush_same) | (with_reducible apply State.waitMem_same)
    | (with_reducible apply State.advance_same) | (with_reducible apply State.Same.ite) | (intro)

theorem execLvRd_same {s0 s : State} (t : Thread) (rd : Reg) (_ra : Reg) (n : BitVec 12) (u : Upset) (hk : s0.Same s)
    :
    ∃ z, execLvRd t rd _ra n u s = .next z ∧ s0.Same z := by
  unfold execLvRd
  refine ⟨_, rfl, ?_⟩
  repeat' first
    | (with_reducible assumption) | (with_reducible apply State.nChecked_same)
    | (with_reducible apply State.accumCheck_same) | (with_reducible apply State.advance_same)
    | (with_reducible apply State.setReg_same) | (intro)

theorem execLvClr_same {s0 s : State} (t : Thread) (_rd : Reg) (_ra : Reg) (n : BitVec 12) (u : Upset) (hk : s0.Same
    s) :
    ∃ z, execLvClr t _rd _ra n u s = .next z ∧ s0.Same z := by
  unfold execLvClr
  refine ⟨_, rfl, ?_⟩
  repeat' first
    | (with_reducible assumption) | (with_reducible apply State.nChecked_same)
    | (with_reducible apply State.accumCheck_same) | (with_reducible apply State.advance_same)
    | (with_reducible apply State.setAccum_same) | (intro)

theorem execHandlerEntry_same {s0 s : State} (hk : s0.Same s) :
    ∃ z, execHandlerEntry s = .next z ∧ s0.Same z := by
  unfold execHandlerEntry
  refine ⟨_, rfl, ?_⟩
  repeat' first
    | (with_reducible assumption) | (with_reducible apply State.modTh_same)
    | (with_reducible apply State.goto_same) | (with_reducible apply State.Same.ite) | (intro)
    | (with_reducible refine State.Same.mk' ?_ rfl rfl rfl)

end Sys2Proof.Machine
end

