-- ==== Sys2Proof/Laws/SameRegWrite.lean ====
section
/-! SUPPORT. Operations of Machine/RegWrite.lean that change no byte of the block. -/

namespace Sys2Proof.Machine

theorem State.dcacheCtl_same {s0 s : State} (handle : BitVec 20) (ctx : Bool) (op : BitVec 2) (go : Bool) (hk :
    s0.Same s) :
    s0.Same (State.dcacheCtl s handle ctx op go) := by
  unfold State.dcacheCtl
  repeat' first
    | (with_reducible assumption) | (with_reducible apply State.modCr_same)
    | (with_reducible apply State.goRefused_same) | (with_reducible apply State.dcFlush_same)
    | (with_reducible apply State.dcFlushAll_same) | (with_reducible apply State.Same.ite) | (intro) | split

theorem State.lvAccCtl_same {s0 s : State} (index : BitVec 5) (ctx : Bool) (op : BitVec 2) (go : Bool) (hk : s0.Same
    s) :
    s0.Same (State.lvAccCtl s index ctx op go) := by
  unfold State.lvAccCtl
  repeat' first
    | (with_reducible assumption) | (with_reducible apply State.modCr_same)
    | (with_reducible apply State.accumCheck_same) | (with_reducible apply State.setAccum_same)
    | (with_reducible apply State.Same.ite) | (intro) | split

theorem State.groupClear_same {s0 s : State} (g : Nat) (d : Word) (hk : s0.Same s) :
    s0.Same (State.groupClear s g d) := by
  unfold State.groupClear
  repeat' first
    | (with_reducible assumption) | (with_reducible apply State.setGroup_same)

theorem State.doorbell_same {s0 s : State} (code : BitVec 32) (hk : s0.Same s) :
    s0.Same (State.doorbell s code) := by
  unfold State.doorbell
  repeat' first
    | (with_reducible assumption) | (with_reducible apply State.excPush_same)

theorem State.sreset_same {s0 s : State} (hk : s0.Same s) :
    s0.Same (State.sreset s) := by
  unfold State.sreset
  have hi : s0.Same { s.modTh .S fun x => { x with state := .idle, wait := .none, stopAsked := false } with
      sash := { s.sash with handler := false } } :=
    State.Same.mk' (State.modTh_same .S _ hk) rfl rfl rfl
  split
  · exact State.Same.mk' hi rfl rfl rfl
  · exact hi
  · exact hk

theorem State.sashCtl_same {s0 s : State} (iflush : Bool) (sreset : Bool) (stop : BitVec 4) (hk : s0.Same s) :
    s0.Same (State.sashCtl s iflush sreset stop) := by
  unfold State.sashCtl
  repeat' first
    | (with_reducible assumption) | (with_reducible apply State.icFlush_same)
    | (with_reducible apply State.sreset_same) | (with_reducible apply State.stopAtBoundary_same)
    | (with_reducible apply State.Same.foldl) | (with_reducible apply State.Same.ite) | (intro)

theorem State.dwRepoint_same {s0 s : State} (x : BitVec 16) (v : BitVec 16) (epoch : BitVec 24) (go : Bool) (hk :
    s0.Same s) :
    s0.Same (State.dwRepoint s x v epoch go) := by
  unfold State.dwRepoint
  repeat' first
    | (with_reducible assumption) | (with_reducible apply State.repoint_same)
    | (with_reducible apply State.Same.ite) | (intro) | (with_reducible refine State.Same.mk' ?_ rfl rfl rfl)

theorem State.writeEngine_same {s0 s : State} (r : HReg) (d : Word) (hk : s0.Same s) :
    s0.Same (State.writeEngine s r d) := by
  unfold State.writeEngine
  repeat' first
    | (with_reducible assumption) | (with_reducible apply State.dcacheCtl_same)
    | (with_reducible apply State.modCr_same) | (with_reducible apply State.modEr_same)
    | (with_reducible apply State.lvAccCtl_same) | (with_reducible apply State.groupClear_same)
    | (with_reducible apply State.Same.ite) | (intro) | split

theorem State.hatchCtl_same {s0 s : State} (d : Word) (hk : s0.Same s) :
    s0.Same (State.hatchCtl s d) := by
  unfold State.hatchCtl
  repeat' first
    | (with_reducible assumption) | (with_reducible apply State.Same.ite) | (intro)
    | (with_reducible refine State.Same.mk' ?_ rfl rfl rfl)

end Sys2Proof.Machine
end

