-- ==== Sys2Proof/Laws/SameHinge.lean ====
section
/-! SUPPORT. Operations of Machine/Hinge.lean that change no byte of the block. -/

namespace Sys2Proof.Machine

theorem State.hgCount_same {s0 s : State} (code : BitVec 2) (hk : s0.Same s) :
    s0.Same (State.hgCount s code) := by
  unfold State.hgCount
  repeat' first
    | (with_reducible assumption) | (with_reducible apply State.hgDenied_same) | split | (dsimp only)
    | (with_reducible refine State.Same.mk' ?_ rfl rfl rfl)

theorem State.hgQueue_same {s0 s : State} (m : HgMeta) (rdata : Word) (code : BitVec 2) (done : Bool) (hk : s0.Same
    s) :
    s0.Same (State.hgQueue s m rdata code done) := by
  unfold State.hgQueue
  repeat' first
    | (with_reducible assumption) | (with_reducible apply State.hgFlush_same)
    | (with_reducible refine State.Same.mk' ?_ rfl rfl rfl)

theorem State.hgRsp_same {s0 s : State} (m : HgMeta) (rdata : Word) (code : BitVec 2) (hk : s0.Same s) :
    s0.Same (State.hgRsp s m rdata code) := by
  unfold State.hgRsp
  repeat' first
    | (with_reducible assumption) | (with_reducible apply State.hgQueue_same)
    | (with_reducible apply State.hgCount_same)

theorem State.regWake_same {s0 s : State} (r : HReg) (hk : s0.Same s) :
    s0.Same (State.regWake s r) := by
  unfold State.regWake
  repeat' first
    | (with_reducible assumption) | (with_reducible apply State.wakeAsk_same)
    | (with_reducible apply State.Same.ite) | (intro) | split

theorem State.lintelReq_same {s0 s : State} (m : HgMeta) (i : Nat) (d : Word) (hk : s0.Same s) :
    s0.Same (State.lintelReq s m i d) := by
  unfold State.lintelReq
  repeat' first
    | (with_reducible assumption) | (with_reducible apply State.hgRsp_same)
    | (with_reducible apply State.ltDeny_same) | (with_reducible apply State.hgQueue_same)
    | (with_reducible apply State.ltSend_same) | split

theorem State.rwdDenied_same {s0 s : State} (m : HgMeta) (hk : s0.Same s) :
    s0.Same (State.rwdDenied s m) := by
  unfold State.rwdDenied
  repeat' first
    | (with_reducible assumption) | (with_reducible apply State.hgRsp_same)
    | (with_reducible apply State.ltIrq_same) | (with_reducible refine State.Same.mk' ?_ rfl rfl rfl)

end Sys2Proof.Machine
end

