-- ==== Sys2Proof/Laws/SameStep.lean ====
section
/-! SUPPORT. The commands that change no byte of the block. -/

namespace Sys2Proof.Machine

/-- A command that `mayStore` does not name answers a state with the same bytes. -/
theorem exec_same {s0 s : State} (i : Instr) (hi : mayStore i = false) (hk : s0.Same s) :
    ∃ z, exec i s = .next z ∧ s0.Same z := by
  cases i with
  | op t rd ra rb fn u => exact execOp_same t rd ra rb fn u hk
  | addi t rd ra imm => exact execAddi_same t rd ra imm hk
  | andi t rd ra imm => exact execAndi_same t rd ra imm hk
  | ori t rd ra imm => exact execOri_same t rd ra imm hk
  | xori t rd ra imm => exact execXori_same t rd ra imm hk
  | slti t rd ra imm => exact execSlti_same t rd ra imm hk
  | sltiu t rd ra imm => exact execSltiu_same t rd ra imm hk
  | shi t rd ra imm => exact execShi_same t rd ra imm hk
  | movi t rd ra imm => exact execMovi_same t rd ra imm hk
  | ins16 t rd ra imm => exact execIns16_same t rd ra imm hk
  | fp t rd ra rb rc fn u => exact execFp_same t rd ra rb rc fn u hk
  | lb t rd ra imm u => exact execLb_same t rd ra imm u hk
  | lbu t rd ra imm u => exact execLbu_same t rd ra imm u hk
  | lh t rd ra imm u => exact execLh_same t rd ra imm u hk
  | lhu t rd ra imm u => exact execLhu_same t rd ra imm u hk
  | lw t rd ra imm u => exact execLw_same t rd ra imm u hk
  | lwu t rd ra imm u => exact execLwu_same t rd ra imm u hk
  | ld t rd ra imm u => exact execLd_same t rd ra imm u hk
  | sb _ _ _ _ _ => cases hi
  | sh _ _ _ _ _ => cases hi
  | sw _ _ _ _ _ => cases hi
  | sd _ _ _ _ _ => cases hi
  | amo _ _ _ _ _ _ => cases hi
  | mld t rd ra imm => exact execMld_same t rd ra imm hk
  | mst t rd ra imm => exact execMst_same t rd ra imm hk
  | beq t ra rb off => exact execBeq_same t ra rb off hk
  | bne t ra rb off => exact execBne_same t ra rb off hk
  | blt t ra rb off => exact execBlt_same t ra rb off hk
  | bge t ra rb off => exact execBge_same t ra rb off hk
  | bltu t ra rb off => exact execBltu_same t ra rb off hk
  | bgeu t ra rb off => exact execBgeu_same t ra rb off hk
  | jal t off => exact execJal_same t off hk
  | jalr t rd ra imm => exact execJalr_same t rd ra imm hk
  | csrr t rd ra n => exact execCsrr_same t rd ra n hk
  | csrw t rd ra n => exact execCsrw_same t rd ra n hk
  | csrs t rd ra n => exact execCsrs_same t rd ra n hk
  | csrc t rd ra n => exact execCsrc_same t rd ra n hk
  | trap t rd ra n => exact execTrap_same t rd ra n hk
  | tend t rd ra n => exact execTend_same t rd ra n hk
  | tendComplete t => exact execTendComplete_same t hk
  | eret t rd ra n => exact execEret_same t rd ra n hk
  | tstart t rd ra n => exact execTstart_same t rd ra n hk
  | tstop t rd ra n => exact execTstop_same t rd ra n hk
  | fenceI t rd ra n => exact execFenceI_same t rd ra n hk
  | mfence t rd ra n => exact execMfence_same t rd ra n hk
  | sadv _ _ _ _ => cases hi
  | postRoom t => exact execPostRoom_same t hk
  | dfl t rd ra n => exact execDfl_same t rd ra n hk
  | lvRd t rd ra n u => exact execLvRd_same t rd ra n u hk
  | lvClr t rd ra n u => exact execLvClr_same t rd ra n u hk
  | lsig t rd ra k x u => exact execLsig_same t rd ra k x u hk
  | lwait t rd ra k x => exact execLwait_same t rd ra k x hk
  | latchWaitReady t => exact execLatchWaitReady_same t hk
  | ltry t rd ra k x => exact execLtry_same t rd ra k x hk
  | lread t rd ra k x => exact execLread_same t rd ra k x hk
  | qsig t rd ra k x => exact execQsig_same t rd ra k x hk
  | qwait t rd ra k x => exact execQwait_same t rd ra k x hk
  | queueWaitDone t => exact execQueueWaitDone_same t hk
  | laneRoom t => exact execLaneRoom_same t hk
  | latMM t rd ra lat ef => exact execLatMM_same t rd ra lat ef hk
  | latMMQ t rd ra lat ef => exact execLatMMQ_same t rd ra lat ef hk
  | casw t rd ra lat ef words => exact execCasw_same t rd ra lat ef words hk
  | trnRelayout t rd ra lat ef => exact execTrnRelayout_same t rd ra lat ef hk
  | trnTranspose t rd ra lat ef => exact execTrnTranspose_same t rd ra lat ef hk
  | sillSpill t rd ra lat ef => exact execSillSpill_same t rd ra lat ef hk
  | sillDrain t rd ra lat ef => exact execSillDrain_same t rd ra lat ef hk
  | xferCopy t rd ra lat ef => exact execXferCopy_same t rd ra lat ef hk
  | updSsq t rd ra lat ef => exact execUpdSsq_same t rd ra lat ef hk
  | dwPut t rd ra lat ef => exact execDwPut_same t rd ra lat ef hk
  | dwPutFetch t rd ra lat ef => exact execDwPutFetch_same t rd ra lat ef hk
  | dwRed t rd ra lat ef => exact execDwRed_same t rd ra lat ef hk
  | updApply t rd ra lat ef => exact execUpdApply_same t rd ra lat ef hk
  | updAdv t rd ra lat ef => exact execUpdAdv_same t rd ra lat ef hk
  | updNorm t rd ra lat ef => exact execUpdNorm_same t rd ra lat ef hk
  | updRoot t rd ra lat ef => exact execUpdRoot_same t rd ra lat ef hk
  | updRearm t rd ra lat ef => exact execUpdRearm_same t rd ra lat ef hk
  | handlerEntry => exact execHandlerEntry_same hk
  | weaveStart _ _ => cases hi
  | openWovenStart _ _ => cases hi
  | vectorSlot p rank ready u => exact execVectorSlot_same p rank ready u hk
  | blockCompletion p rank m n flip u => exact execBlockCompletion_same p rank m n flip u hk
  | latticeDrain _ _ _ => cases hi
  | casementOperationStart u => exact execCasementOperationStart_same u hk
  | casementPortAccess _ => cases hi
  | casementUnitComplete => exact execCasementUnitComplete_same hk
  | idleReplay u => exact execIdleReplay_same u hk
  | transomComplete _ => cases hi
  | sillReadOut _ => cases hi
  | completion _ _ => cases hi
  | rootIterationCheck _ => cases hi
  | cutPoint _ _ => cases hi
  | remoteSignalApply link src tag => exact execRemoteSignalApply_same link src tag hk
  | jambRequestIssue _ _ => cases hi
  | jbRResponse _ _ _ _ => cases hi
  | jbBResponse _ _ => cases hi
  | tagTimeout _ => cases hi
  | packetTransmit link tag => exact execPacketTransmit_same link tag hk
  | rspAck _ _ => cases hi
  | rspData _ _ => cases hi
  | sigTerminal _ _ => cases hi
  | redPartial _ _ => cases hi
  | redFinal _ _ => cases hi
  | wrData _ _ => cases hi
  | rdRead _ _ => cases hi
  | mgtNull _ _ => cases hi
  | hello _ _ => cases hi
  | repoint _ _ _ _ _ => cases hi
  | mgtReset _ _ => cases hi
  | ackTimeout _ _ => cases hi
  | creditTimeout _ _ => cases hi
  | linkResetEnd link => exact execLinkResetEnd_same link hk
  | linkRdy link level => exact execLinkRdy_same link level hk
  | helloSend link => exact execHelloSend_same link hk
  | discoveryTimeout _ => cases hi
  | idleLinkDisable link => exact execIdleLinkDisable_same link hk
  | watchdogFire => exact execWatchdogFire_same hk
  | hingeRegisterWrite _ _ _ => cases hi
  | dcacheFlushHandle _ _ _ => cases hi
  | dcacheFlushContext _ _ => cases hi
  | lvAccRead _ _ _ => cases hi
  | lvAccClear _ _ _ => cases hi
  | sashDoorbell _ _ => cases hi
  | iflush _ => cases hi
  | sreset _ => cases hi
  | stop _ _ => cases hi
  | strmAbortEntry _ _ _ _ => cases hi
  | strmAbortStream _ _ _ => cases hi
  | latchHsig _ _ _ => cases hi
  | frameStage _ _ => cases hi
  | frameStagingResult => exact execFrameStagingResult_same hk
  | frameCommit _ _ _ => cases hi
  | commitWaitResolve => exact execCommitWaitResolve_same hk
  | effectPoint => cases hi
  | frameDiscard _ _ => cases hi
  | frameForceEnd _ _ => cases hi
  | hostLinkReset _ _ => cases hi
  | dwRepoint _ _ _ _ => cases hi
  | clkSelect _ _ => cases hi
  | pwrRequest _ _ => cases hi
  | shutterWrite _ _ _ _ _ => cases hi
  | queueRelease _ _ => cases hi
  | replayArm _ _ => cases hi
  | checkpointSave _ _ => cases hi
  | checkpointRestore _ _ => cases hi
  | nodeAdopt _ _ => cases hi
  | hatchRequest _ => cases hi
  | hatchProcedureComplete => exact execHatchProcedureComplete_same hk
  | hatchTimeout => exact execHatchTimeout_same hk
  | lintelWrite _ _ _ => cases hi
  | lintelResponse _ _ => cases hi
  | lintelTimeout => exact execLintelTimeout_same hk
  | lintelReadTimeout => exact execLintelReadTimeout_same hk
  | deadboltAssert => exact execDeadboltAssert_same hk
  | deadboltRelease => cases hi
  | aonClkLost => exact execAonClkLost_same hk
  | aonClkRestored => exact execAonClkRestored_same hk
  | frequencyCheck ref r0 r1 refRdy => exact execFrequencyCheck_same ref r0 r1 refRdy hk
  | sourceReturn => exact execSourceReturn_same hk
  | refRdyFall => exact execRefRdyFall_same hk
  | sourceSwitchDone => exact execSourceSwitchDone_same hk
  | troReady => exact execTroReady_same hk
  | pllLock _ => cases hi
  | vack code => exact execVack_same code hk
  | vackTimeout => exact execVackTimeout_same hk
  | aclkSlewDone => exact execAclkSlewDone_same hk
  | pswGnt level => exact execPswGnt_same level hk
  | domainSettled _ => cases hi
  | domainSettleTimeout d => exact execDomainSettleTimeout_same d hk
  | idleGate unit => exact execIdleGate_same unit hk
  | latticeBandOff p => exact execLatticeBandOff_same p hk
  | park => exact execPark_same hk
  | wake => exact execWake_same hk
  | aonRstNAssert => cases hi
  | aonRstNRelease => exact execAonRstNRelease_same hk
  | coreRstNAssert => cases hi
  | coreRstNRelease => exact execCoreRstNRelease_same hk
  | startupInitDone => exact execStartupInitDone_same hk
  | scrub unit u => exact execScrub_same unit u hk
  | egressHoldRelease => exact execEgressHoldRelease_same hk
  | illegalInstruction t word => exact execIllegalInstruction_same t word hk
  | hingeRegisterRead _ _ => cases hi
  | hatchProcedureEnd => cases hi
  | ltPfailN level => exact execLtPfailN_same level hk

end Sys2Proof.Machine
end

