-- ==== Sys2Proof/Laws/SameTick.lean ====
section
/-! SUPPORT. Operations of Machine/Tick.lean that change no byte of the block. -/

namespace Sys2Proof.Machine

theorem State.timerTick_same {s0 s : State} (t : Thread) (hk : s0.Same s) :
    s0.Same (State.timerTick s t) := by
  unfold State.timerTick
  repeat' first
    | (with_reducible assumption) | (with_reducible apply State.modTh_same) | (with_reducible apply State.Same.ite)
    | (intro)

theorem State.linkTick_same {s0 s : State} (l : Nat) (hk : s0.Same s) :
    s0.Same (State.linkTick s l) := by
  unfold State.linkTick
  repeat' first
    | (with_reducible assumption) | (with_reducible apply State.modLink_same)

theorem State.idleTick_same {s0 s : State} (p : Nat) (hk : s0.Same s) :
    s0.Same (State.idleTick s p) := by
  unfold State.idleTick
  repeat' first
    | (with_reducible assumption) | (with_reducible apply State.modEngine_same)

theorem State.powerTick_same {s0 s : State} (hk : s0.Same s) :
    s0.Same (State.powerTick s) := by
  unfold State.powerTick
  repeat' first
    | (with_reducible assumption) | (with_reducible apply State.Same.ite) | (intro)
    | (with_reducible refine State.Same.mk' ?_ rfl rfl rfl)

theorem State.portTick_same {s0 s : State} (hk : s0.Same s) :
    s0.Same (State.portTick s) := by
  unfold State.portTick
  repeat' first
    | (with_reducible assumption) | (with_reducible apply State.draw_same) | (with_reducible apply State.Same.ite)
    | (intro) | (with_reducible refine State.Same.mk' ?_ rfl rfl rfl)

theorem State.lintelTick_same {s0 s : State} (hk : s0.Same s) :
    s0.Same (State.lintelTick s) := by
  unfold State.lintelTick
  repeat' first
    | (with_reducible assumption) | (with_reducible apply State.portTick_same)
    | (with_reducible refine State.Same.mk' ?_ rfl rfl rfl)

theorem State.aonTick_same {s0 s : State} (hk : s0.Same s) :
    s0.Same (State.aonTick s) := by
  unfold State.aonTick
  refine State.lintelTick_same (State.powerTick_same (State.Same.foldl (fun _ _ => State.idleTick_same _)
    (State.Same.foldl (fun _ _ => State.linkTick_same _) ?_)))
  have ht : s0.Same (allThreads.foldl State.timerTick
      { s with time := { s.time with aonTime := s.time.aonTime + 1, bootTicks := s.time.bootTicks + 1 } }) :=
    State.Same.foldl (fun _ _ => State.timerTick_same _) (State.Same.mk' hk rfl rfl rfl)
  exact State.Same.mk' ht rfl rfl rfl

theorem State.slotCycle_same {s0 s : State} (r : MulRec) (hk : s0.Same s) :
    s0.Same (State.slotCycle s r) := by
  unfold State.slotCycle
  repeat' first
    | (with_reducible assumption) | (with_reducible apply State.modEngine_same)
    | (with_reducible apply State.Same.ite) | (intro) | split

theorem State.weaveTick_same {s0 s : State} (hk : s0.Same s) :
    s0.Same (State.weaveTick s) := by
  unfold State.weaveTick
  repeat' first
    | (with_reducible assumption) | (with_reducible refine State.Same.mk' ?_ rfl rfl rfl)

theorem State.ageTick_same {s0 s : State} (hk : s0.Same s) :
    s0.Same (State.ageTick s) := by
  unfold State.ageTick
  repeat' first
    | (with_reducible assumption) | (with_reducible apply State.Same.ite) | (intro)
    | (with_reducible refine State.Same.mk' ?_ rfl rfl rfl)

theorem State.skipTick_same {s0 s : State} (hk : s0.Same s) :
    s0.Same (State.skipTick s) := by
  unfold State.skipTick
  repeat' first
    | (with_reducible assumption) | (with_reducible apply State.entryDone_same)
    | (with_reducible apply State.Same.foldl) | (intro) | (with_reducible refine State.Same.mk' ?_ rfl rfl rfl)

theorem State.casWaitTick_same {s0 s : State} (hk : s0.Same s) :
    s0.Same (State.casWaitTick s) := by
  unfold State.casWaitTick
  repeat' first
    | (with_reducible assumption) | (with_reducible apply State.modEr_same)
    | (with_reducible apply State.draw_same) | (with_reducible apply State.Same.ite) | (intro) | split

theorem State.cycleEnd_same {s0 s : State} (hk : s0.Same s) :
    s0.Same (State.cycleEnd s) := by
  unfold State.cycleEnd
  repeat' first
    | (with_reducible assumption) | (with_reducible refine State.Same.mk' ?_ rfl rfl rfl)

theorem State.ungate_same {s0 s : State} (hk : s0.Same s) :
    s0.Same (State.ungate s) := by
  unfold State.ungate
  repeat' first
    | (with_reducible assumption) | (with_reducible apply State.Same.ite) | (intro)
    | (with_reducible refine State.Same.mk' ?_ rfl rfl rfl)

end Sys2Proof.Machine
end

