-- ==== Sys2Proof/Laws/State.lean ====
section
/-! SUPPORT. What the updates of parts of the state leave as it is: one lemma for each update and each field of State. -/

namespace Sys2Proof.Machine

/-! ### setTh -/

@[simp] theorem State.setTh_sash (s : State) (t : Thread) (v : ThreadState) : (s.setTh t v).sash = s.sash :=
    by cases t <;> rfl
@[simp] theorem State.setTh_dcache (s : State) (t : Thread) (v : ThreadState) : (s.setTh t v).dcache = s.dcache :=
    by cases t <;> rfl
@[simp] theorem State.setTh_eng (s : State) (t : Thread) (v : ThreadState) : (s.setTh t v).eng = s.eng :=
    by cases t <;> rfl
@[simp] theorem State.setTh_er (s : State) (t : Thread) (v : ThreadState) : (s.setTh t v).er = s.er :=
    by cases t <;> rfl
@[simp] theorem State.setTh_cr (s : State) (t : Thread) (v : ThreadState) : (s.setTh t v).cr = s.cr :=
    by cases t <;> rfl
@[simp] theorem State.setTh_frame (s : State) (t : Thread) (v : ThreadState) : (s.setTh t v).frame = s.frame :=
    by cases t <;> rfl
@[simp] theorem State.setTh_jamb (s : State) (t : Thread) (v : ThreadState) : (s.setTh t v).jamb = s.jamb :=
    by cases t <;> rfl
@[simp] theorem State.setTh_latch (s : State) (t : Thread) (v : ThreadState) : (s.setTh t v).latch = s.latch :=
    by cases t <;> rfl
@[simp] theorem State.setTh_wd (s : State) (t : Thread) (v : ThreadState) : (s.setTh t v).wd = s.wd :=
    by cases t <;> rfl
@[simp] theorem State.setTh_door (s : State) (t : Thread) (v : ThreadState) : (s.setTh t v).door = s.door :=
    by cases t <;> rfl
@[simp] theorem State.setTh_hinge (s : State) (t : Thread) (v : ThreadState) : (s.setTh t v).hinge = s.hinge :=
    by cases t <;> rfl
@[simp] theorem State.setTh_clk (s : State) (t : Thread) (v : ThreadState) : (s.setTh t v).clk = s.clk :=
    by cases t <;> rfl
@[simp] theorem State.setTh_pwr (s : State) (t : Thread) (v : ThreadState) : (s.setTh t v).pwr = s.pwr :=
    by cases t <;> rfl
@[simp] theorem State.setTh_boot (s : State) (t : Thread) (v : ThreadState) : (s.setTh t v).boot = s.boot :=
    by cases t <;> rfl
@[simp] theorem State.setTh_int (s : State) (t : Thread) (v : ThreadState) : (s.setTh t v).int = s.int :=
    by cases t <;> rfl
@[simp] theorem State.setTh_rpl (s : State) (t : Thread) (v : ThreadState) : (s.setTh t v).rpl = s.rpl :=
    by cases t <;> rfl
@[simp] theorem State.setTh_lt (s : State) (t : Thread) (v : ThreadState) : (s.setTh t v).lt = s.lt :=
    by cases t <;> rfl
@[simp] theorem State.setTh_time (s : State) (t : Thread) (v : ThreadState) : (s.setTh t v).time = s.time :=
    by cases t <;> rfl
@[simp] theorem State.setTh_fresh (s : State) (t : Thread) (v : ThreadState) : (s.setTh t v).fresh = s.fresh :=
    by cases t <;> rfl
@[simp] theorem State.setTh_pending (s : State) (t : Thread) (v : ThreadState) : (s.setTh t v).pending = s.pending :=
    by cases t <;> rfl

/-! ### modTh -/

@[simp] theorem State.modTh_sash (s : State) (t : Thread) (g : ThreadState → ThreadState) : (s.modTh t g).sash = s.sash :=
    by cases t <;> rfl
@[simp] theorem State.modTh_dcache (s : State) (t : Thread) (g : ThreadState → ThreadState) : (s.modTh t g).dcache = s.dcache :=
    by cases t <;> rfl
@[simp] theorem State.modTh_eng (s : State) (t : Thread) (g : ThreadState → ThreadState) : (s.modTh t g).eng = s.eng :=
    by cases t <;> rfl
@[simp] theorem State.modTh_er (s : State) (t : Thread) (g : ThreadState → ThreadState) : (s.modTh t g).er = s.er :=
    by cases t <;> rfl
@[simp] theorem State.modTh_cr (s : State) (t : Thread) (g : ThreadState → ThreadState) : (s.modTh t g).cr = s.cr :=
    by cases t <;> rfl
@[simp] theorem State.modTh_frame (s : State) (t : Thread) (g : ThreadState → ThreadState) : (s.modTh t g).frame = s.frame :=
    by cases t <;> rfl
@[simp] theorem State.modTh_jamb (s : State) (t : Thread) (g : ThreadState → ThreadState) : (s.modTh t g).jamb = s.jamb :=
    by cases t <;> rfl
@[simp] theorem State.modTh_latch (s : State) (t : Thread) (g : ThreadState → ThreadState) : (s.modTh t g).latch = s.latch :=
    by cases t <;> rfl
@[simp] theorem State.modTh_wd (s : State) (t : Thread) (g : ThreadState → ThreadState) : (s.modTh t g).wd = s.wd :=
    by cases t <;> rfl
@[simp] theorem State.modTh_door (s : State) (t : Thread) (g : ThreadState → ThreadState) : (s.modTh t g).door = s.door :=
    by cases t <;> rfl
@[simp] theorem State.modTh_hinge (s : State) (t : Thread) (g : ThreadState → ThreadState) : (s.modTh t g).hinge = s.hinge :=
    by cases t <;> rfl
@[simp] theorem State.modTh_clk (s : State) (t : Thread) (g : ThreadState → ThreadState) : (s.modTh t g).clk = s.clk :=
    by cases t <;> rfl
@[simp] theorem State.modTh_pwr (s : State) (t : Thread) (g : ThreadState → ThreadState) : (s.modTh t g).pwr = s.pwr :=
    by cases t <;> rfl
@[simp] theorem State.modTh_boot (s : State) (t : Thread) (g : ThreadState → ThreadState) : (s.modTh t g).boot = s.boot :=
    by cases t <;> rfl
@[simp] theorem State.modTh_int (s : State) (t : Thread) (g : ThreadState → ThreadState) : (s.modTh t g).int = s.int :=
    by cases t <;> rfl
@[simp] theorem State.modTh_rpl (s : State) (t : Thread) (g : ThreadState → ThreadState) : (s.modTh t g).rpl = s.rpl :=
    by cases t <;> rfl
@[simp] theorem State.modTh_lt (s : State) (t : Thread) (g : ThreadState → ThreadState) : (s.modTh t g).lt = s.lt :=
    by cases t <;> rfl
@[simp] theorem State.modTh_time (s : State) (t : Thread) (g : ThreadState → ThreadState) : (s.modTh t g).time = s.time :=
    by cases t <;> rfl
@[simp] theorem State.modTh_fresh (s : State) (t : Thread) (g : ThreadState → ThreadState) : (s.modTh t g).fresh = s.fresh :=
    by cases t <;> rfl
@[simp] theorem State.modTh_pending (s : State) (t : Thread) (g : ThreadState → ThreadState) : (s.modTh t g).pending = s.pending :=
    by cases t <;> rfl

/-! ### setReg -/

@[simp] theorem State.setReg_sash (s : State) (t : Thread) (r : Reg) (v : Word) : (s.setReg t r v).sash = s.sash := by
  unfold State.setReg; split <;> simp
@[simp] theorem State.setReg_dcache (s : State) (t : Thread) (r : Reg) (v : Word) : (s.setReg t r v).dcache = s.dcache :=
    by
      unfold State.setReg; split <;> simp
@[simp] theorem State.setReg_eng (s : State) (t : Thread) (r : Reg) (v : Word) : (s.setReg t r v).eng = s.eng := by
  unfold State.setReg; split <;> simp
@[simp] theorem State.setReg_er (s : State) (t : Thread) (r : Reg) (v : Word) : (s.setReg t r v).er = s.er := by
  unfold State.setReg; split <;> simp
@[simp] theorem State.setReg_cr (s : State) (t : Thread) (r : Reg) (v : Word) : (s.setReg t r v).cr = s.cr := by
  unfold State.setReg; split <;> simp
@[simp] theorem State.setReg_frame (s : State) (t : Thread) (r : Reg) (v : Word) : (s.setReg t r v).frame = s.frame :=
    by
      unfold State.setReg; split <;> simp
@[simp] theorem State.setReg_jamb (s : State) (t : Thread) (r : Reg) (v : Word) : (s.setReg t r v).jamb = s.jamb := by
  unfold State.setReg; split <;> simp
@[simp] theorem State.setReg_latch (s : State) (t : Thread) (r : Reg) (v : Word) : (s.setReg t r v).latch = s.latch :=
    by
      unfold State.setReg; split <;> simp
@[simp] theorem State.setReg_wd (s : State) (t : Thread) (r : Reg) (v : Word) : (s.setReg t r v).wd = s.wd := by
  unfold State.setReg; split <;> simp
@[simp] theorem State.setReg_door (s : State) (t : Thread) (r : Reg) (v : Word) : (s.setReg t r v).door = s.door := by
  unfold State.setReg; split <;> simp
@[simp] theorem State.setReg_hinge (s : State) (t : Thread) (r : Reg) (v : Word) : (s.setReg t r v).hinge = s.hinge :=
    by
      unfold State.setReg; split <;> simp
@[simp] theorem State.setReg_clk (s : State) (t : Thread) (r : Reg) (v : Word) : (s.setReg t r v).clk = s.clk := by
  unfold State.setReg; split <;> simp
@[simp] theorem State.setReg_pwr (s : State) (t : Thread) (r : Reg) (v : Word) : (s.setReg t r v).pwr = s.pwr := by
  unfold State.setReg; split <;> simp
@[simp] theorem State.setReg_boot (s : State) (t : Thread) (r : Reg) (v : Word) : (s.setReg t r v).boot = s.boot := by
  unfold State.setReg; split <;> simp
@[simp] theorem State.setReg_int (s : State) (t : Thread) (r : Reg) (v : Word) : (s.setReg t r v).int = s.int := by
  unfold State.setReg; split <;> simp
@[simp] theorem State.setReg_rpl (s : State) (t : Thread) (r : Reg) (v : Word) : (s.setReg t r v).rpl = s.rpl := by
  unfold State.setReg; split <;> simp
@[simp] theorem State.setReg_lt (s : State) (t : Thread) (r : Reg) (v : Word) : (s.setReg t r v).lt = s.lt := by
  unfold State.setReg; split <;> simp
@[simp] theorem State.setReg_time (s : State) (t : Thread) (r : Reg) (v : Word) : (s.setReg t r v).time = s.time := by
  unfold State.setReg; split <;> simp
@[simp] theorem State.setReg_fresh (s : State) (t : Thread) (r : Reg) (v : Word) : (s.setReg t r v).fresh = s.fresh :=
    by
      unfold State.setReg; split <;> simp
@[simp] theorem State.setReg_pending (s : State) (t : Thread) (r : Reg) (v : Word) : (s.setReg t r v).pending = s.pending :=
    by
      unfold State.setReg; split <;> simp

/-! ### pcAdd -/

@[simp] theorem State.pcAdd_sash (s : State) (t : Thread) (n : Nat) : (s.pcAdd t n).sash = s.sash :=
    by simp [State.pcAdd]
@[simp] theorem State.pcAdd_dcache (s : State) (t : Thread) (n : Nat) : (s.pcAdd t n).dcache = s.dcache :=
    by simp [State.pcAdd]
@[simp] theorem State.pcAdd_eng (s : State) (t : Thread) (n : Nat) : (s.pcAdd t n).eng = s.eng := by simp [State.pcAdd]
@[simp] theorem State.pcAdd_er (s : State) (t : Thread) (n : Nat) : (s.pcAdd t n).er = s.er := by simp [State.pcAdd]
@[simp] theorem State.pcAdd_cr (s : State) (t : Thread) (n : Nat) : (s.pcAdd t n).cr = s.cr := by simp [State.pcAdd]
@[simp] theorem State.pcAdd_frame (s : State) (t : Thread) (n : Nat) : (s.pcAdd t n).frame = s.frame :=
    by simp [State.pcAdd]
@[simp] theorem State.pcAdd_jamb (s : State) (t : Thread) (n : Nat) : (s.pcAdd t n).jamb = s.jamb :=
    by simp [State.pcAdd]
@[simp] theorem State.pcAdd_latch (s : State) (t : Thread) (n : Nat) : (s.pcAdd t n).latch = s.latch :=
    by simp [State.pcAdd]
@[simp] theorem State.pcAdd_wd (s : State) (t : Thread) (n : Nat) : (s.pcAdd t n).wd = s.wd := by simp [State.pcAdd]
@[simp] theorem State.pcAdd_door (s : State) (t : Thread) (n : Nat) : (s.pcAdd t n).door = s.door :=
    by simp [State.pcAdd]
@[simp] theorem State.pcAdd_hinge (s : State) (t : Thread) (n : Nat) : (s.pcAdd t n).hinge = s.hinge :=
    by simp [State.pcAdd]
@[simp] theorem State.pcAdd_clk (s : State) (t : Thread) (n : Nat) : (s.pcAdd t n).clk = s.clk := by simp [State.pcAdd]
@[simp] theorem State.pcAdd_pwr (s : State) (t : Thread) (n : Nat) : (s.pcAdd t n).pwr = s.pwr := by simp [State.pcAdd]
@[simp] theorem State.pcAdd_boot (s : State) (t : Thread) (n : Nat) : (s.pcAdd t n).boot = s.boot :=
    by simp [State.pcAdd]
@[simp] theorem State.pcAdd_int (s : State) (t : Thread) (n : Nat) : (s.pcAdd t n).int = s.int := by simp [State.pcAdd]
@[simp] theorem State.pcAdd_rpl (s : State) (t : Thread) (n : Nat) : (s.pcAdd t n).rpl = s.rpl := by simp [State.pcAdd]
@[simp] theorem State.pcAdd_lt (s : State) (t : Thread) (n : Nat) : (s.pcAdd t n).lt = s.lt := by simp [State.pcAdd]
@[simp] theorem State.pcAdd_time (s : State) (t : Thread) (n : Nat) : (s.pcAdd t n).time = s.time :=
    by simp [State.pcAdd]
@[simp] theorem State.pcAdd_fresh (s : State) (t : Thread) (n : Nat) : (s.pcAdd t n).fresh = s.fresh :=
    by simp [State.pcAdd]
@[simp] theorem State.pcAdd_pending (s : State) (t : Thread) (n : Nat) : (s.pcAdd t n).pending = s.pending :=
    by simp [State.pcAdd]

/-! ### waitIn -/

@[simp] theorem State.waitIn_sash (s : State) (t : Thread) (st : TState) (w : Wait) : (s.waitIn t st w).sash = s.sash :=
    by simp [State.waitIn]
@[simp] theorem State.waitIn_dcache (s : State) (t : Thread) (st : TState) (w : Wait) : (s.waitIn t st w).dcache = s.dcache :=
    by simp [State.waitIn]
@[simp] theorem State.waitIn_eng (s : State) (t : Thread) (st : TState) (w : Wait) : (s.waitIn t st w).eng = s.eng :=
    by simp [State.waitIn]
@[simp] theorem State.waitIn_er (s : State) (t : Thread) (st : TState) (w : Wait) : (s.waitIn t st w).er = s.er :=
    by simp [State.waitIn]
@[simp] theorem State.waitIn_cr (s : State) (t : Thread) (st : TState) (w : Wait) : (s.waitIn t st w).cr = s.cr :=
    by simp [State.waitIn]
@[simp] theorem State.waitIn_frame (s : State) (t : Thread) (st : TState) (w : Wait) : (s.waitIn t st w).frame = s.frame :=
    by simp [State.waitIn]
@[simp] theorem State.waitIn_jamb (s : State) (t : Thread) (st : TState) (w : Wait) : (s.waitIn t st w).jamb = s.jamb :=
    by simp [State.waitIn]
@[simp] theorem State.waitIn_latch (s : State) (t : Thread) (st : TState) (w : Wait) : (s.waitIn t st w).latch = s.latch :=
    by simp [State.waitIn]
@[simp] theorem State.waitIn_wd (s : State) (t : Thread) (st : TState) (w : Wait) : (s.waitIn t st w).wd = s.wd :=
    by simp [State.waitIn]
@[simp] theorem State.waitIn_door (s : State) (t : Thread) (st : TState) (w : Wait) : (s.waitIn t st w).door = s.door :=
    by simp [State.waitIn]
@[simp] theorem State.waitIn_hinge (s : State) (t : Thread) (st : TState) (w : Wait) : (s.waitIn t st w).hinge = s.hinge :=
    by simp [State.waitIn]
@[simp] theorem State.waitIn_clk (s : State) (t : Thread) (st : TState) (w : Wait) : (s.waitIn t st w).clk = s.clk :=
    by simp [State.waitIn]
@[simp] theorem State.waitIn_pwr (s : State) (t : Thread) (st : TState) (w : Wait) : (s.waitIn t st w).pwr = s.pwr :=
    by simp [State.waitIn]
@[simp] theorem State.waitIn_boot (s : State) (t : Thread) (st : TState) (w : Wait) : (s.waitIn t st w).boot = s.boot :=
    by simp [State.waitIn]
@[simp] theorem State.waitIn_int (s : State) (t : Thread) (st : TState) (w : Wait) : (s.waitIn t st w).int = s.int :=
    by simp [State.waitIn]
@[simp] theorem State.waitIn_rpl (s : State) (t : Thread) (st : TState) (w : Wait) : (s.waitIn t st w).rpl = s.rpl :=
    by simp [State.waitIn]
@[simp] theorem State.waitIn_lt (s : State) (t : Thread) (st : TState) (w : Wait) : (s.waitIn t st w).lt = s.lt :=
    by simp [State.waitIn]
@[simp] theorem State.waitIn_time (s : State) (t : Thread) (st : TState) (w : Wait) : (s.waitIn t st w).time = s.time :=
    by simp [State.waitIn]
@[simp] theorem State.waitIn_fresh (s : State) (t : Thread) (st : TState) (w : Wait) : (s.waitIn t st w).fresh = s.fresh :=
    by simp [State.waitIn]
@[simp] theorem State.waitIn_pending (s : State) (t : Thread) (st : TState) (w : Wait) : (s.waitIn t st w).pending = s.pending :=
    by simp [State.waitIn]

/-! ### waitMem -/

@[simp] theorem State.waitMem_sash (s : State) (t : Thread) (w : Wait) : (s.waitMem t w).sash = s.sash :=
    by simp [State.waitMem]
@[simp] theorem State.waitMem_dcache (s : State) (t : Thread) (w : Wait) : (s.waitMem t w).dcache = s.dcache :=
    by simp [State.waitMem]
@[simp] theorem State.waitMem_eng (s : State) (t : Thread) (w : Wait) : (s.waitMem t w).eng = s.eng :=
    by simp [State.waitMem]
@[simp] theorem State.waitMem_er (s : State) (t : Thread) (w : Wait) : (s.waitMem t w).er = s.er :=
    by simp [State.waitMem]
@[simp] theorem State.waitMem_cr (s : State) (t : Thread) (w : Wait) : (s.waitMem t w).cr = s.cr :=
    by simp [State.waitMem]
@[simp] theorem State.waitMem_frame (s : State) (t : Thread) (w : Wait) : (s.waitMem t w).frame = s.frame :=
    by simp [State.waitMem]
@[simp] theorem State.waitMem_jamb (s : State) (t : Thread) (w : Wait) : (s.waitMem t w).jamb = s.jamb :=
    by simp [State.waitMem]
@[simp] theorem State.waitMem_latch (s : State) (t : Thread) (w : Wait) : (s.waitMem t w).latch = s.latch :=
    by simp [State.waitMem]
@[simp] theorem State.waitMem_wd (s : State) (t : Thread) (w : Wait) : (s.waitMem t w).wd = s.wd :=
    by simp [State.waitMem]
@[simp] theorem State.waitMem_door (s : State) (t : Thread) (w : Wait) : (s.waitMem t w).door = s.door :=
    by simp [State.waitMem]
@[simp] theorem State.waitMem_hinge (s : State) (t : Thread) (w : Wait) : (s.waitMem t w).hinge = s.hinge :=
    by simp [State.waitMem]
@[simp] theorem State.waitMem_clk (s : State) (t : Thread) (w : Wait) : (s.waitMem t w).clk = s.clk :=
    by simp [State.waitMem]
@[simp] theorem State.waitMem_pwr (s : State) (t : Thread) (w : Wait) : (s.waitMem t w).pwr = s.pwr :=
    by simp [State.waitMem]
@[simp] theorem State.waitMem_boot (s : State) (t : Thread) (w : Wait) : (s.waitMem t w).boot = s.boot :=
    by simp [State.waitMem]
@[simp] theorem State.waitMem_int (s : State) (t : Thread) (w : Wait) : (s.waitMem t w).int = s.int :=
    by simp [State.waitMem]
@[simp] theorem State.waitMem_rpl (s : State) (t : Thread) (w : Wait) : (s.waitMem t w).rpl = s.rpl :=
    by simp [State.waitMem]
@[simp] theorem State.waitMem_lt (s : State) (t : Thread) (w : Wait) : (s.waitMem t w).lt = s.lt :=
    by simp [State.waitMem]
@[simp] theorem State.waitMem_time (s : State) (t : Thread) (w : Wait) : (s.waitMem t w).time = s.time :=
    by simp [State.waitMem]
@[simp] theorem State.waitMem_fresh (s : State) (t : Thread) (w : Wait) : (s.waitMem t w).fresh = s.fresh :=
    by simp [State.waitMem]
@[simp] theorem State.waitMem_pending (s : State) (t : Thread) (w : Wait) : (s.waitMem t w).pending = s.pending :=
    by simp [State.waitMem]

/-! ### stopped -/

@[simp] theorem State.stopped_sash (s : State) (t : Thread) : (s.stopped t).sash = s.sash := by simp [State.stopped]
@[simp] theorem State.stopped_dcache (s : State) (t : Thread) : (s.stopped t).dcache = s.dcache :=
    by simp [State.stopped]
@[simp] theorem State.stopped_eng (s : State) (t : Thread) : (s.stopped t).eng = s.eng := by simp [State.stopped]
@[simp] theorem State.stopped_er (s : State) (t : Thread) : (s.stopped t).er = s.er := by simp [State.stopped]
@[simp] theorem State.stopped_cr (s : State) (t : Thread) : (s.stopped t).cr = s.cr := by simp [State.stopped]
@[simp] theorem State.stopped_frame (s : State) (t : Thread) : (s.stopped t).frame = s.frame := by simp [State.stopped]
@[simp] theorem State.stopped_jamb (s : State) (t : Thread) : (s.stopped t).jamb = s.jamb := by simp [State.stopped]
@[simp] theorem State.stopped_latch (s : State) (t : Thread) : (s.stopped t).latch = s.latch := by simp [State.stopped]
@[simp] theorem State.stopped_wd (s : State) (t : Thread) : (s.stopped t).wd = s.wd := by simp [State.stopped]
@[simp] theorem State.stopped_door (s : State) (t : Thread) : (s.stopped t).door = s.door := by simp [State.stopped]
@[simp] theorem State.stopped_hinge (s : State) (t : Thread) : (s.stopped t).hinge = s.hinge := by simp [State.stopped]
@[simp] theorem State.stopped_clk (s : State) (t : Thread) : (s.stopped t).clk = s.clk := by simp [State.stopped]
@[simp] theorem State.stopped_pwr (s : State) (t : Thread) : (s.stopped t).pwr = s.pwr := by simp [State.stopped]
@[simp] theorem State.stopped_boot (s : State) (t : Thread) : (s.stopped t).boot = s.boot := by simp [State.stopped]
@[simp] theorem State.stopped_int (s : State) (t : Thread) : (s.stopped t).int = s.int := by simp [State.stopped]
@[simp] theorem State.stopped_rpl (s : State) (t : Thread) : (s.stopped t).rpl = s.rpl := by simp [State.stopped]
@[simp] theorem State.stopped_lt (s : State) (t : Thread) : (s.stopped t).lt = s.lt := by simp [State.stopped]
@[simp] theorem State.stopped_time (s : State) (t : Thread) : (s.stopped t).time = s.time := by simp [State.stopped]
@[simp] theorem State.stopped_fresh (s : State) (t : Thread) : (s.stopped t).fresh = s.fresh := by simp [State.stopped]
@[simp] theorem State.stopped_pending (s : State) (t : Thread) : (s.stopped t).pending = s.pending :=
    by simp [State.stopped]

/-! ### wakeUp -/

@[simp] theorem State.wakeUp_sash (s : State) (t : Thread) : (s.wakeUp t).sash = s.sash := by
  unfold State.wakeUp; split <;> simp
@[simp] theorem State.wakeUp_dcache (s : State) (t : Thread) : (s.wakeUp t).dcache = s.dcache := by
  unfold State.wakeUp; split <;> simp
@[simp] theorem State.wakeUp_eng (s : State) (t : Thread) : (s.wakeUp t).eng = s.eng := by
  unfold State.wakeUp; split <;> simp
@[simp] theorem State.wakeUp_er (s : State) (t : Thread) : (s.wakeUp t).er = s.er := by
  unfold State.wakeUp; split <;> simp
@[simp] theorem State.wakeUp_cr (s : State) (t : Thread) : (s.wakeUp t).cr = s.cr := by
  unfold State.wakeUp; split <;> simp
@[simp] theorem State.wakeUp_frame (s : State) (t : Thread) : (s.wakeUp t).frame = s.frame := by
  unfold State.wakeUp; split <;> simp
@[simp] theorem State.wakeUp_jamb (s : State) (t : Thread) : (s.wakeUp t).jamb = s.jamb := by
  unfold State.wakeUp; split <;> simp
@[simp] theorem State.wakeUp_latch (s : State) (t : Thread) : (s.wakeUp t).latch = s.latch := by
  unfold State.wakeUp; split <;> simp
@[simp] theorem State.wakeUp_wd (s : State) (t : Thread) : (s.wakeUp t).wd = s.wd := by
  unfold State.wakeUp; split <;> simp
@[simp] theorem State.wakeUp_door (s : State) (t : Thread) : (s.wakeUp t).door = s.door := by
  unfold State.wakeUp; split <;> simp
@[simp] theorem State.wakeUp_hinge (s : State) (t : Thread) : (s.wakeUp t).hinge = s.hinge := by
  unfold State.wakeUp; split <;> simp
@[simp] theorem State.wakeUp_clk (s : State) (t : Thread) : (s.wakeUp t).clk = s.clk := by
  unfold State.wakeUp; split <;> simp
@[simp] theorem State.wakeUp_pwr (s : State) (t : Thread) : (s.wakeUp t).pwr = s.pwr := by
  unfold State.wakeUp; split <;> simp
@[simp] theorem State.wakeUp_boot (s : State) (t : Thread) : (s.wakeUp t).boot = s.boot := by
  unfold State.wakeUp; split <;> simp
@[simp] theorem State.wakeUp_int (s : State) (t : Thread) : (s.wakeUp t).int = s.int := by
  unfold State.wakeUp; split <;> simp
@[simp] theorem State.wakeUp_rpl (s : State) (t : Thread) : (s.wakeUp t).rpl = s.rpl := by
  unfold State.wakeUp; split <;> simp
@[simp] theorem State.wakeUp_lt (s : State) (t : Thread) : (s.wakeUp t).lt = s.lt := by
  unfold State.wakeUp; split <;> simp
@[simp] theorem State.wakeUp_time (s : State) (t : Thread) : (s.wakeUp t).time = s.time := by
  unfold State.wakeUp; split <;> simp
@[simp] theorem State.wakeUp_fresh (s : State) (t : Thread) : (s.wakeUp t).fresh = s.fresh := by
  unfold State.wakeUp; split <;> simp
@[simp] theorem State.wakeUp_pending (s : State) (t : Thread) : (s.wakeUp t).pending = s.pending := by
  unfold State.wakeUp; split <;> simp

/-! ### stopAtBoundary -/

@[simp] theorem State.stopAtBoundary_sash (s : State) (t : Thread) : (s.stopAtBoundary t).sash = s.sash := by
  unfold State.stopAtBoundary; split <;> simp
@[simp] theorem State.stopAtBoundary_dcache (s : State) (t : Thread) : (s.stopAtBoundary t).dcache = s.dcache := by
  unfold State.stopAtBoundary; split <;> simp
@[simp] theorem State.stopAtBoundary_eng (s : State) (t : Thread) : (s.stopAtBoundary t).eng = s.eng := by
  unfold State.stopAtBoundary; split <;> simp
@[simp] theorem State.stopAtBoundary_er (s : State) (t : Thread) : (s.stopAtBoundary t).er = s.er := by
  unfold State.stopAtBoundary; split <;> simp
@[simp] theorem State.stopAtBoundary_cr (s : State) (t : Thread) : (s.stopAtBoundary t).cr = s.cr := by
  unfold State.stopAtBoundary; split <;> simp
@[simp] theorem State.stopAtBoundary_frame (s : State) (t : Thread) : (s.stopAtBoundary t).frame = s.frame := by
  unfold State.stopAtBoundary; split <;> simp
@[simp] theorem State.stopAtBoundary_jamb (s : State) (t : Thread) : (s.stopAtBoundary t).jamb = s.jamb := by
  unfold State.stopAtBoundary; split <;> simp
@[simp] theorem State.stopAtBoundary_latch (s : State) (t : Thread) : (s.stopAtBoundary t).latch = s.latch := by
  unfold State.stopAtBoundary; split <;> simp
@[simp] theorem State.stopAtBoundary_wd (s : State) (t : Thread) : (s.stopAtBoundary t).wd = s.wd := by
  unfold State.stopAtBoundary; split <;> simp
@[simp] theorem State.stopAtBoundary_door (s : State) (t : Thread) : (s.stopAtBoundary t).door = s.door := by
  unfold State.stopAtBoundary; split <;> simp
@[simp] theorem State.stopAtBoundary_hinge (s : State) (t : Thread) : (s.stopAtBoundary t).hinge = s.hinge := by
  unfold State.stopAtBoundary; split <;> simp
@[simp] theorem State.stopAtBoundary_clk (s : State) (t : Thread) : (s.stopAtBoundary t).clk = s.clk := by
  unfold State.stopAtBoundary; split <;> simp
@[simp] theorem State.stopAtBoundary_pwr (s : State) (t : Thread) : (s.stopAtBoundary t).pwr = s.pwr := by
  unfold State.stopAtBoundary; split <;> simp
@[simp] theorem State.stopAtBoundary_boot (s : State) (t : Thread) : (s.stopAtBoundary t).boot = s.boot := by
  unfold State.stopAtBoundary; split <;> simp
@[simp] theorem State.stopAtBoundary_int (s : State) (t : Thread) : (s.stopAtBoundary t).int = s.int := by
  unfold State.stopAtBoundary; split <;> simp
@[simp] theorem State.stopAtBoundary_rpl (s : State) (t : Thread) : (s.stopAtBoundary t).rpl = s.rpl := by
  unfold State.stopAtBoundary; split <;> simp
@[simp] theorem State.stopAtBoundary_lt (s : State) (t : Thread) : (s.stopAtBoundary t).lt = s.lt := by
  unfold State.stopAtBoundary; split <;> simp
@[simp] theorem State.stopAtBoundary_time (s : State) (t : Thread) : (s.stopAtBoundary t).time = s.time := by
  unfold State.stopAtBoundary; split <;> simp
@[simp] theorem State.stopAtBoundary_fresh (s : State) (t : Thread) : (s.stopAtBoundary t).fresh = s.fresh := by
  unfold State.stopAtBoundary; split <;> simp
@[simp] theorem State.stopAtBoundary_pending (s : State) (t : Thread) : (s.stopAtBoundary t).pending = s.pending := by
  unfold State.stopAtBoundary; split <;> simp

/-! ### modPlane -/

@[simp] theorem State.modPlane_f (s : State) (i : Nat) (g : Plane → Plane) : (s.modPlane i g).f = s.f := by
  unfold State.modPlane; split <;> rfl
@[simp] theorem State.modPlane_b (s : State) (i : Nat) (g : Plane → Plane) : (s.modPlane i g).b = s.b := by
  unfold State.modPlane; split <;> rfl
@[simp] theorem State.modPlane_u (s : State) (i : Nat) (g : Plane → Plane) : (s.modPlane i g).u = s.u := by
  unfold State.modPlane; split <;> rfl
@[simp] theorem State.modPlane_s (s : State) (i : Nat) (g : Plane → Plane) : (s.modPlane i g).s = s.s := by
  unfold State.modPlane; split <;> rfl
@[simp] theorem State.modPlane_sash (s : State) (i : Nat) (g : Plane → Plane) : (s.modPlane i g).sash = s.sash := by
  unfold State.modPlane; split <;> rfl
@[simp] theorem State.modPlane_dcache (s : State) (i : Nat) (g : Plane → Plane) : (s.modPlane i g).dcache = s.dcache :=
    by
      unfold State.modPlane; split <;> rfl
@[simp] theorem State.modPlane_eng (s : State) (i : Nat) (g : Plane → Plane) : (s.modPlane i g).eng = s.eng := by
  unfold State.modPlane; split <;> rfl
@[simp] theorem State.modPlane_er (s : State) (i : Nat) (g : Plane → Plane) : (s.modPlane i g).er = s.er := by
  unfold State.modPlane; split <;> rfl
@[simp] theorem State.modPlane_cr (s : State) (i : Nat) (g : Plane → Plane) : (s.modPlane i g).cr = s.cr := by
  unfold State.modPlane; split <;> rfl
@[simp] theorem State.modPlane_jamb (s : State) (i : Nat) (g : Plane → Plane) : (s.modPlane i g).jamb = s.jamb := by
  unfold State.modPlane; split <;> rfl
@[simp] theorem State.modPlane_latch (s : State) (i : Nat) (g : Plane → Plane) : (s.modPlane i g).latch = s.latch := by
  unfold State.modPlane; split <;> rfl
@[simp] theorem State.modPlane_wd (s : State) (i : Nat) (g : Plane → Plane) : (s.modPlane i g).wd = s.wd := by
  unfold State.modPlane; split <;> rfl
@[simp] theorem State.modPlane_door (s : State) (i : Nat) (g : Plane → Plane) : (s.modPlane i g).door = s.door := by
  unfold State.modPlane; split <;> rfl
@[simp] theorem State.modPlane_hinge (s : State) (i : Nat) (g : Plane → Plane) : (s.modPlane i g).hinge = s.hinge := by
  unfold State.modPlane; split <;> rfl
@[simp] theorem State.modPlane_clk (s : State) (i : Nat) (g : Plane → Plane) : (s.modPlane i g).clk = s.clk := by
  unfold State.modPlane; split <;> rfl
@[simp] theorem State.modPlane_pwr (s : State) (i : Nat) (g : Plane → Plane) : (s.modPlane i g).pwr = s.pwr := by
  unfold State.modPlane; split <;> rfl
@[simp] theorem State.modPlane_boot (s : State) (i : Nat) (g : Plane → Plane) : (s.modPlane i g).boot = s.boot := by
  unfold State.modPlane; split <;> rfl
@[simp] theorem State.modPlane_int (s : State) (i : Nat) (g : Plane → Plane) : (s.modPlane i g).int = s.int := by
  unfold State.modPlane; split <;> rfl
@[simp] theorem State.modPlane_rpl (s : State) (i : Nat) (g : Plane → Plane) : (s.modPlane i g).rpl = s.rpl := by
  unfold State.modPlane; split <;> rfl
@[simp] theorem State.modPlane_lt (s : State) (i : Nat) (g : Plane → Plane) : (s.modPlane i g).lt = s.lt := by
  unfold State.modPlane; split <;> rfl
@[simp] theorem State.modPlane_time (s : State) (i : Nat) (g : Plane → Plane) : (s.modPlane i g).time = s.time := by
  unfold State.modPlane; split <;> rfl
@[simp] theorem State.modPlane_fresh (s : State) (i : Nat) (g : Plane → Plane) : (s.modPlane i g).fresh = s.fresh := by
  unfold State.modPlane; split <;> rfl
@[simp] theorem State.modPlane_pending (s : State) (i : Nat) (g : Plane → Plane) : (s.modPlane i g).pending = s.pending :=
    by
      unfold State.modPlane; split <;> rfl

/-! ### modEngine -/

@[simp] theorem State.modEngine_f (s : State) (q : Nat) (g : Engine → Engine) : (s.modEngine q g).f = s.f := rfl
@[simp] theorem State.modEngine_b (s : State) (q : Nat) (g : Engine → Engine) : (s.modEngine q g).b = s.b := rfl
@[simp] theorem State.modEngine_u (s : State) (q : Nat) (g : Engine → Engine) : (s.modEngine q g).u = s.u := rfl
@[simp] theorem State.modEngine_s (s : State) (q : Nat) (g : Engine → Engine) : (s.modEngine q g).s = s.s := rfl
@[simp] theorem State.modEngine_sash (s : State) (q : Nat) (g : Engine → Engine) : (s.modEngine q g).sash = s.sash :=
    rfl
@[simp] theorem State.modEngine_dcache (s : State) (q : Nat) (g : Engine → Engine) : (s.modEngine q g).dcache = s.dcache :=
    rfl
@[simp] theorem State.modEngine_er (s : State) (q : Nat) (g : Engine → Engine) : (s.modEngine q g).er = s.er := rfl
@[simp] theorem State.modEngine_cr (s : State) (q : Nat) (g : Engine → Engine) : (s.modEngine q g).cr = s.cr := rfl
@[simp] theorem State.modEngine_frame (s : State) (q : Nat) (g : Engine → Engine) : (s.modEngine q g).frame = s.frame :=
    rfl
@[simp] theorem State.modEngine_jamb (s : State) (q : Nat) (g : Engine → Engine) : (s.modEngine q g).jamb = s.jamb :=
    rfl
@[simp] theorem State.modEngine_latch (s : State) (q : Nat) (g : Engine → Engine) : (s.modEngine q g).latch = s.latch :=
    rfl
@[simp] theorem State.modEngine_wd (s : State) (q : Nat) (g : Engine → Engine) : (s.modEngine q g).wd = s.wd := rfl
@[simp] theorem State.modEngine_door (s : State) (q : Nat) (g : Engine → Engine) : (s.modEngine q g).door = s.door :=
    rfl
@[simp] theorem State.modEngine_hinge (s : State) (q : Nat) (g : Engine → Engine) : (s.modEngine q g).hinge = s.hinge :=
    rfl
@[simp] theorem State.modEngine_clk (s : State) (q : Nat) (g : Engine → Engine) : (s.modEngine q g).clk = s.clk := rfl
@[simp] theorem State.modEngine_pwr (s : State) (q : Nat) (g : Engine → Engine) : (s.modEngine q g).pwr = s.pwr := rfl
@[simp] theorem State.modEngine_boot (s : State) (q : Nat) (g : Engine → Engine) : (s.modEngine q g).boot = s.boot :=
    rfl
@[simp] theorem State.modEngine_int (s : State) (q : Nat) (g : Engine → Engine) : (s.modEngine q g).int = s.int := rfl
@[simp] theorem State.modEngine_rpl (s : State) (q : Nat) (g : Engine → Engine) : (s.modEngine q g).rpl = s.rpl := rfl
@[simp] theorem State.modEngine_lt (s : State) (q : Nat) (g : Engine → Engine) : (s.modEngine q g).lt = s.lt := rfl
@[simp] theorem State.modEngine_time (s : State) (q : Nat) (g : Engine → Engine) : (s.modEngine q g).time = s.time :=
    rfl
@[simp] theorem State.modEngine_fresh (s : State) (q : Nat) (g : Engine → Engine) : (s.modEngine q g).fresh = s.fresh :=
    rfl
@[simp] theorem State.modEngine_pending (s : State) (q : Nat) (g : Engine → Engine) : (s.modEngine q g).pending = s.pending :=
    rfl

/-! ### modEntry -/

@[simp] theorem State.modEntry_f (s : State) (uid : Nat) (g : Entry → Entry) : (s.modEntry uid g).f = s.f := rfl
@[simp] theorem State.modEntry_b (s : State) (uid : Nat) (g : Entry → Entry) : (s.modEntry uid g).b = s.b := rfl
@[simp] theorem State.modEntry_u (s : State) (uid : Nat) (g : Entry → Entry) : (s.modEntry uid g).u = s.u := rfl
@[simp] theorem State.modEntry_s (s : State) (uid : Nat) (g : Entry → Entry) : (s.modEntry uid g).s = s.s := rfl
@[simp] theorem State.modEntry_sash (s : State) (uid : Nat) (g : Entry → Entry) : (s.modEntry uid g).sash = s.sash :=
    rfl
@[simp] theorem State.modEntry_dcache (s : State) (uid : Nat) (g : Entry → Entry) : (s.modEntry uid g).dcache = s.dcache :=
    rfl
@[simp] theorem State.modEntry_er (s : State) (uid : Nat) (g : Entry → Entry) : (s.modEntry uid g).er = s.er := rfl
@[simp] theorem State.modEntry_cr (s : State) (uid : Nat) (g : Entry → Entry) : (s.modEntry uid g).cr = s.cr := rfl
@[simp] theorem State.modEntry_frame (s : State) (uid : Nat) (g : Entry → Entry) : (s.modEntry uid g).frame = s.frame :=
    rfl
@[simp] theorem State.modEntry_jamb (s : State) (uid : Nat) (g : Entry → Entry) : (s.modEntry uid g).jamb = s.jamb :=
    rfl
@[simp] theorem State.modEntry_latch (s : State) (uid : Nat) (g : Entry → Entry) : (s.modEntry uid g).latch = s.latch :=
    rfl
@[simp] theorem State.modEntry_wd (s : State) (uid : Nat) (g : Entry → Entry) : (s.modEntry uid g).wd = s.wd := rfl
@[simp] theorem State.modEntry_door (s : State) (uid : Nat) (g : Entry → Entry) : (s.modEntry uid g).door = s.door :=
    rfl
@[simp] theorem State.modEntry_hinge (s : State) (uid : Nat) (g : Entry → Entry) : (s.modEntry uid g).hinge = s.hinge :=
    rfl
@[simp] theorem State.modEntry_clk (s : State) (uid : Nat) (g : Entry → Entry) : (s.modEntry uid g).clk = s.clk := rfl
@[simp] theorem State.modEntry_pwr (s : State) (uid : Nat) (g : Entry → Entry) : (s.modEntry uid g).pwr = s.pwr := rfl
@[simp] theorem State.modEntry_boot (s : State) (uid : Nat) (g : Entry → Entry) : (s.modEntry uid g).boot = s.boot :=
    rfl
@[simp] theorem State.modEntry_int (s : State) (uid : Nat) (g : Entry → Entry) : (s.modEntry uid g).int = s.int := rfl
@[simp] theorem State.modEntry_rpl (s : State) (uid : Nat) (g : Entry → Entry) : (s.modEntry uid g).rpl = s.rpl := rfl
@[simp] theorem State.modEntry_lt (s : State) (uid : Nat) (g : Entry → Entry) : (s.modEntry uid g).lt = s.lt := rfl
@[simp] theorem State.modEntry_time (s : State) (uid : Nat) (g : Entry → Entry) : (s.modEntry uid g).time = s.time :=
    rfl
@[simp] theorem State.modEntry_fresh (s : State) (uid : Nat) (g : Entry → Entry) : (s.modEntry uid g).fresh = s.fresh :=
    rfl
@[simp] theorem State.modEntry_pending (s : State) (uid : Nat) (g : Entry → Entry) : (s.modEntry uid g).pending = s.pending :=
    rfl

/-! ### setAccum -/

@[simp] theorem State.setAccum_f (s : State) (c n : Nat) (a : Accum) : (s.setAccum c n a).f = s.f := rfl
@[simp] theorem State.setAccum_b (s : State) (c n : Nat) (a : Accum) : (s.setAccum c n a).b = s.b := rfl
@[simp] theorem State.setAccum_u (s : State) (c n : Nat) (a : Accum) : (s.setAccum c n a).u = s.u := rfl
@[simp] theorem State.setAccum_s (s : State) (c n : Nat) (a : Accum) : (s.setAccum c n a).s = s.s := rfl
@[simp] theorem State.setAccum_sash (s : State) (c n : Nat) (a : Accum) : (s.setAccum c n a).sash = s.sash := rfl
@[simp] theorem State.setAccum_dcache (s : State) (c n : Nat) (a : Accum) : (s.setAccum c n a).dcache = s.dcache := rfl
@[simp] theorem State.setAccum_er (s : State) (c n : Nat) (a : Accum) : (s.setAccum c n a).er = s.er := rfl
@[simp] theorem State.setAccum_cr (s : State) (c n : Nat) (a : Accum) : (s.setAccum c n a).cr = s.cr := rfl
@[simp] theorem State.setAccum_frame (s : State) (c n : Nat) (a : Accum) : (s.setAccum c n a).frame = s.frame := rfl
@[simp] theorem State.setAccum_jamb (s : State) (c n : Nat) (a : Accum) : (s.setAccum c n a).jamb = s.jamb := rfl
@[simp] theorem State.setAccum_latch (s : State) (c n : Nat) (a : Accum) : (s.setAccum c n a).latch = s.latch := rfl
@[simp] theorem State.setAccum_wd (s : State) (c n : Nat) (a : Accum) : (s.setAccum c n a).wd = s.wd := rfl
@[simp] theorem State.setAccum_door (s : State) (c n : Nat) (a : Accum) : (s.setAccum c n a).door = s.door := rfl
@[simp] theorem State.setAccum_hinge (s : State) (c n : Nat) (a : Accum) : (s.setAccum c n a).hinge = s.hinge := rfl
@[simp] theorem State.setAccum_clk (s : State) (c n : Nat) (a : Accum) : (s.setAccum c n a).clk = s.clk := rfl
@[simp] theorem State.setAccum_pwr (s : State) (c n : Nat) (a : Accum) : (s.setAccum c n a).pwr = s.pwr := rfl
@[simp] theorem State.setAccum_boot (s : State) (c n : Nat) (a : Accum) : (s.setAccum c n a).boot = s.boot := rfl
@[simp] theorem State.setAccum_int (s : State) (c n : Nat) (a : Accum) : (s.setAccum c n a).int = s.int := rfl
@[simp] theorem State.setAccum_rpl (s : State) (c n : Nat) (a : Accum) : (s.setAccum c n a).rpl = s.rpl := rfl
@[simp] theorem State.setAccum_lt (s : State) (c n : Nat) (a : Accum) : (s.setAccum c n a).lt = s.lt := rfl
@[simp] theorem State.setAccum_time (s : State) (c n : Nat) (a : Accum) : (s.setAccum c n a).time = s.time := rfl
@[simp] theorem State.setAccum_fresh (s : State) (c n : Nat) (a : Accum) : (s.setAccum c n a).fresh = s.fresh := rfl
@[simp] theorem State.setAccum_pending (s : State) (c n : Nat) (a : Accum) : (s.setAccum c n a).pending = s.pending :=
    rfl

/-! ### modEr -/

@[simp] theorem State.modEr_f (s : State) (g : EngRegs → EngRegs) : (s.modEr g).f = s.f := rfl
@[simp] theorem State.modEr_b (s : State) (g : EngRegs → EngRegs) : (s.modEr g).b = s.b := rfl
@[simp] theorem State.modEr_u (s : State) (g : EngRegs → EngRegs) : (s.modEr g).u = s.u := rfl
@[simp] theorem State.modEr_s (s : State) (g : EngRegs → EngRegs) : (s.modEr g).s = s.s := rfl
@[simp] theorem State.modEr_sash (s : State) (g : EngRegs → EngRegs) : (s.modEr g).sash = s.sash := rfl
@[simp] theorem State.modEr_dcache (s : State) (g : EngRegs → EngRegs) : (s.modEr g).dcache = s.dcache := rfl
@[simp] theorem State.modEr_eng (s : State) (g : EngRegs → EngRegs) : (s.modEr g).eng = s.eng := rfl
@[simp] theorem State.modEr_cr (s : State) (g : EngRegs → EngRegs) : (s.modEr g).cr = s.cr := rfl
@[simp] theorem State.modEr_frame (s : State) (g : EngRegs → EngRegs) : (s.modEr g).frame = s.frame := rfl
@[simp] theorem State.modEr_jamb (s : State) (g : EngRegs → EngRegs) : (s.modEr g).jamb = s.jamb := rfl
@[simp] theorem State.modEr_latch (s : State) (g : EngRegs → EngRegs) : (s.modEr g).latch = s.latch := rfl
@[simp] theorem State.modEr_wd (s : State) (g : EngRegs → EngRegs) : (s.modEr g).wd = s.wd := rfl
@[simp] theorem State.modEr_door (s : State) (g : EngRegs → EngRegs) : (s.modEr g).door = s.door := rfl
@[simp] theorem State.modEr_hinge (s : State) (g : EngRegs → EngRegs) : (s.modEr g).hinge = s.hinge := rfl
@[simp] theorem State.modEr_clk (s : State) (g : EngRegs → EngRegs) : (s.modEr g).clk = s.clk := rfl
@[simp] theorem State.modEr_pwr (s : State) (g : EngRegs → EngRegs) : (s.modEr g).pwr = s.pwr := rfl
@[simp] theorem State.modEr_boot (s : State) (g : EngRegs → EngRegs) : (s.modEr g).boot = s.boot := rfl
@[simp] theorem State.modEr_int (s : State) (g : EngRegs → EngRegs) : (s.modEr g).int = s.int := rfl
@[simp] theorem State.modEr_rpl (s : State) (g : EngRegs → EngRegs) : (s.modEr g).rpl = s.rpl := rfl
@[simp] theorem State.modEr_lt (s : State) (g : EngRegs → EngRegs) : (s.modEr g).lt = s.lt := rfl
@[simp] theorem State.modEr_time (s : State) (g : EngRegs → EngRegs) : (s.modEr g).time = s.time := rfl
@[simp] theorem State.modEr_fresh (s : State) (g : EngRegs → EngRegs) : (s.modEr g).fresh = s.fresh := rfl
@[simp] theorem State.modEr_pending (s : State) (g : EngRegs → EngRegs) : (s.modEr g).pending = s.pending := rfl

/-! ### modCr -/

@[simp] theorem State.modCr_f (s : State) (g : CtlRegs → CtlRegs) : (s.modCr g).f = s.f := rfl
@[simp] theorem State.modCr_b (s : State) (g : CtlRegs → CtlRegs) : (s.modCr g).b = s.b := rfl
@[simp] theorem State.modCr_u (s : State) (g : CtlRegs → CtlRegs) : (s.modCr g).u = s.u := rfl
@[simp] theorem State.modCr_s (s : State) (g : CtlRegs → CtlRegs) : (s.modCr g).s = s.s := rfl
@[simp] theorem State.modCr_sash (s : State) (g : CtlRegs → CtlRegs) : (s.modCr g).sash = s.sash := rfl
@[simp] theorem State.modCr_dcache (s : State) (g : CtlRegs → CtlRegs) : (s.modCr g).dcache = s.dcache := rfl
@[simp] theorem State.modCr_eng (s : State) (g : CtlRegs → CtlRegs) : (s.modCr g).eng = s.eng := rfl
@[simp] theorem State.modCr_er (s : State) (g : CtlRegs → CtlRegs) : (s.modCr g).er = s.er := rfl
@[simp] theorem State.modCr_frame (s : State) (g : CtlRegs → CtlRegs) : (s.modCr g).frame = s.frame := rfl
@[simp] theorem State.modCr_jamb (s : State) (g : CtlRegs → CtlRegs) : (s.modCr g).jamb = s.jamb := rfl
@[simp] theorem State.modCr_latch (s : State) (g : CtlRegs → CtlRegs) : (s.modCr g).latch = s.latch := rfl
@[simp] theorem State.modCr_wd (s : State) (g : CtlRegs → CtlRegs) : (s.modCr g).wd = s.wd := rfl
@[simp] theorem State.modCr_door (s : State) (g : CtlRegs → CtlRegs) : (s.modCr g).door = s.door := rfl
@[simp] theorem State.modCr_hinge (s : State) (g : CtlRegs → CtlRegs) : (s.modCr g).hinge = s.hinge := rfl
@[simp] theorem State.modCr_clk (s : State) (g : CtlRegs → CtlRegs) : (s.modCr g).clk = s.clk := rfl
@[simp] theorem State.modCr_pwr (s : State) (g : CtlRegs → CtlRegs) : (s.modCr g).pwr = s.pwr := rfl
@[simp] theorem State.modCr_boot (s : State) (g : CtlRegs → CtlRegs) : (s.modCr g).boot = s.boot := rfl
@[simp] theorem State.modCr_int (s : State) (g : CtlRegs → CtlRegs) : (s.modCr g).int = s.int := rfl
@[simp] theorem State.modCr_rpl (s : State) (g : CtlRegs → CtlRegs) : (s.modCr g).rpl = s.rpl := rfl
@[simp] theorem State.modCr_lt (s : State) (g : CtlRegs → CtlRegs) : (s.modCr g).lt = s.lt := rfl
@[simp] theorem State.modCr_time (s : State) (g : CtlRegs → CtlRegs) : (s.modCr g).time = s.time := rfl
@[simp] theorem State.modCr_fresh (s : State) (g : CtlRegs → CtlRegs) : (s.modCr g).fresh = s.fresh := rfl
@[simp] theorem State.modCr_pending (s : State) (g : CtlRegs → CtlRegs) : (s.modCr g).pending = s.pending := rfl

/-! ### modLink -/

@[simp] theorem State.modLink_f (s : State) (l : Nat) (g : Link → Link) : (s.modLink l g).f = s.f := rfl
@[simp] theorem State.modLink_b (s : State) (l : Nat) (g : Link → Link) : (s.modLink l g).b = s.b := rfl
@[simp] theorem State.modLink_u (s : State) (l : Nat) (g : Link → Link) : (s.modLink l g).u = s.u := rfl
@[simp] theorem State.modLink_s (s : State) (l : Nat) (g : Link → Link) : (s.modLink l g).s = s.s := rfl
@[simp] theorem State.modLink_sash (s : State) (l : Nat) (g : Link → Link) : (s.modLink l g).sash = s.sash := rfl
@[simp] theorem State.modLink_dcache (s : State) (l : Nat) (g : Link → Link) : (s.modLink l g).dcache = s.dcache := rfl
@[simp] theorem State.modLink_eng (s : State) (l : Nat) (g : Link → Link) : (s.modLink l g).eng = s.eng := rfl
@[simp] theorem State.modLink_er (s : State) (l : Nat) (g : Link → Link) : (s.modLink l g).er = s.er := rfl
@[simp] theorem State.modLink_cr (s : State) (l : Nat) (g : Link → Link) : (s.modLink l g).cr = s.cr := rfl
@[simp] theorem State.modLink_frame (s : State) (l : Nat) (g : Link → Link) : (s.modLink l g).frame = s.frame := rfl
@[simp] theorem State.modLink_jamb (s : State) (l : Nat) (g : Link → Link) : (s.modLink l g).jamb = s.jamb := rfl
@[simp] theorem State.modLink_latch (s : State) (l : Nat) (g : Link → Link) : (s.modLink l g).latch = s.latch := rfl
@[simp] theorem State.modLink_wd (s : State) (l : Nat) (g : Link → Link) : (s.modLink l g).wd = s.wd := rfl
@[simp] theorem State.modLink_hinge (s : State) (l : Nat) (g : Link → Link) : (s.modLink l g).hinge = s.hinge := rfl
@[simp] theorem State.modLink_clk (s : State) (l : Nat) (g : Link → Link) : (s.modLink l g).clk = s.clk := rfl
@[simp] theorem State.modLink_pwr (s : State) (l : Nat) (g : Link → Link) : (s.modLink l g).pwr = s.pwr := rfl
@[simp] theorem State.modLink_boot (s : State) (l : Nat) (g : Link → Link) : (s.modLink l g).boot = s.boot := rfl
@[simp] theorem State.modLink_int (s : State) (l : Nat) (g : Link → Link) : (s.modLink l g).int = s.int := rfl
@[simp] theorem State.modLink_rpl (s : State) (l : Nat) (g : Link → Link) : (s.modLink l g).rpl = s.rpl := rfl
@[simp] theorem State.modLink_lt (s : State) (l : Nat) (g : Link → Link) : (s.modLink l g).lt = s.lt := rfl
@[simp] theorem State.modLink_time (s : State) (l : Nat) (g : Link → Link) : (s.modLink l g).time = s.time := rfl
@[simp] theorem State.modLink_fresh (s : State) (l : Nat) (g : Link → Link) : (s.modLink l g).fresh = s.fresh := rfl
@[simp] theorem State.modLink_pending (s : State) (l : Nat) (g : Link → Link) : (s.modLink l g).pending = s.pending :=
    rfl

/-! ### irqSet -/

@[simp] theorem State.irqSet_f (s : State) (bit : Nat) : (s.irqSet bit).f = s.f := rfl
@[simp] theorem State.irqSet_b (s : State) (bit : Nat) : (s.irqSet bit).b = s.b := rfl
@[simp] theorem State.irqSet_u (s : State) (bit : Nat) : (s.irqSet bit).u = s.u := rfl
@[simp] theorem State.irqSet_s (s : State) (bit : Nat) : (s.irqSet bit).s = s.s := rfl
@[simp] theorem State.irqSet_sash (s : State) (bit : Nat) : (s.irqSet bit).sash = s.sash := rfl
@[simp] theorem State.irqSet_dcache (s : State) (bit : Nat) : (s.irqSet bit).dcache = s.dcache := rfl
@[simp] theorem State.irqSet_eng (s : State) (bit : Nat) : (s.irqSet bit).eng = s.eng := rfl
@[simp] theorem State.irqSet_er (s : State) (bit : Nat) : (s.irqSet bit).er = s.er := rfl
@[simp] theorem State.irqSet_cr (s : State) (bit : Nat) : (s.irqSet bit).cr = s.cr := rfl
@[simp] theorem State.irqSet_frame (s : State) (bit : Nat) : (s.irqSet bit).frame = s.frame := rfl
@[simp] theorem State.irqSet_jamb (s : State) (bit : Nat) : (s.irqSet bit).jamb = s.jamb := rfl
@[simp] theorem State.irqSet_latch (s : State) (bit : Nat) : (s.irqSet bit).latch = s.latch := rfl
@[simp] theorem State.irqSet_wd (s : State) (bit : Nat) : (s.irqSet bit).wd = s.wd := rfl
@[simp] theorem State.irqSet_door (s : State) (bit : Nat) : (s.irqSet bit).door = s.door := rfl
@[simp] theorem State.irqSet_clk (s : State) (bit : Nat) : (s.irqSet bit).clk = s.clk := rfl
@[simp] theorem State.irqSet_pwr (s : State) (bit : Nat) : (s.irqSet bit).pwr = s.pwr := rfl
@[simp] theorem State.irqSet_boot (s : State) (bit : Nat) : (s.irqSet bit).boot = s.boot := rfl
@[simp] theorem State.irqSet_int (s : State) (bit : Nat) : (s.irqSet bit).int = s.int := rfl
@[simp] theorem State.irqSet_rpl (s : State) (bit : Nat) : (s.irqSet bit).rpl = s.rpl := rfl
@[simp] theorem State.irqSet_lt (s : State) (bit : Nat) : (s.irqSet bit).lt = s.lt := rfl
@[simp] theorem State.irqSet_time (s : State) (bit : Nat) : (s.irqSet bit).time = s.time := rfl
@[simp] theorem State.irqSet_fresh (s : State) (bit : Nat) : (s.irqSet bit).fresh = s.fresh := rfl
@[simp] theorem State.irqSet_pending (s : State) (bit : Nat) : (s.irqSet bit).pending = s.pending := rfl

/-! ### setLatch -/

@[simp] theorem State.setLatch_f (s : State) (c k : Nat) (v : BitVec 8) : (s.setLatch c k v).f = s.f := rfl
@[simp] theorem State.setLatch_b (s : State) (c k : Nat) (v : BitVec 8) : (s.setLatch c k v).b = s.b := rfl
@[simp] theorem State.setLatch_u (s : State) (c k : Nat) (v : BitVec 8) : (s.setLatch c k v).u = s.u := rfl
@[simp] theorem State.setLatch_s (s : State) (c k : Nat) (v : BitVec 8) : (s.setLatch c k v).s = s.s := rfl
@[simp] theorem State.setLatch_sash (s : State) (c k : Nat) (v : BitVec 8) : (s.setLatch c k v).sash = s.sash := rfl
@[simp] theorem State.setLatch_dcache (s : State) (c k : Nat) (v : BitVec 8) : (s.setLatch c k v).dcache = s.dcache :=
    rfl
@[simp] theorem State.setLatch_eng (s : State) (c k : Nat) (v : BitVec 8) : (s.setLatch c k v).eng = s.eng := rfl
@[simp] theorem State.setLatch_er (s : State) (c k : Nat) (v : BitVec 8) : (s.setLatch c k v).er = s.er := rfl
@[simp] theorem State.setLatch_cr (s : State) (c k : Nat) (v : BitVec 8) : (s.setLatch c k v).cr = s.cr := rfl
@[simp] theorem State.setLatch_frame (s : State) (c k : Nat) (v : BitVec 8) : (s.setLatch c k v).frame = s.frame := rfl
@[simp] theorem State.setLatch_jamb (s : State) (c k : Nat) (v : BitVec 8) : (s.setLatch c k v).jamb = s.jamb := rfl
@[simp] theorem State.setLatch_wd (s : State) (c k : Nat) (v : BitVec 8) : (s.setLatch c k v).wd = s.wd := rfl
@[simp] theorem State.setLatch_door (s : State) (c k : Nat) (v : BitVec 8) : (s.setLatch c k v).door = s.door := rfl
@[simp] theorem State.setLatch_hinge (s : State) (c k : Nat) (v : BitVec 8) : (s.setLatch c k v).hinge = s.hinge := rfl
@[simp] theorem State.setLatch_clk (s : State) (c k : Nat) (v : BitVec 8) : (s.setLatch c k v).clk = s.clk := rfl
@[simp] theorem State.setLatch_pwr (s : State) (c k : Nat) (v : BitVec 8) : (s.setLatch c k v).pwr = s.pwr := rfl
@[simp] theorem State.setLatch_boot (s : State) (c k : Nat) (v : BitVec 8) : (s.setLatch c k v).boot = s.boot := rfl
@[simp] theorem State.setLatch_int (s : State) (c k : Nat) (v : BitVec 8) : (s.setLatch c k v).int = s.int := rfl
@[simp] theorem State.setLatch_rpl (s : State) (c k : Nat) (v : BitVec 8) : (s.setLatch c k v).rpl = s.rpl := rfl
@[simp] theorem State.setLatch_lt (s : State) (c k : Nat) (v : BitVec 8) : (s.setLatch c k v).lt = s.lt := rfl
@[simp] theorem State.setLatch_time (s : State) (c k : Nat) (v : BitVec 8) : (s.setLatch c k v).time = s.time := rfl
@[simp] theorem State.setLatch_fresh (s : State) (c k : Nat) (v : BitVec 8) : (s.setLatch c k v).fresh = s.fresh := rfl
@[simp] theorem State.setLatch_pending (s : State) (c k : Nat) (v : BitVec 8) : (s.setLatch c k v).pending = s.pending :=
    rfl

/-! ### wakeAsk -/

@[simp] theorem State.wakeAsk_f (s : State) : (s.wakeAsk).f = s.f := by
  unfold State.wakeAsk; split <;> rfl
@[simp] theorem State.wakeAsk_b (s : State) : (s.wakeAsk).b = s.b := by
  unfold State.wakeAsk; split <;> rfl
@[simp] theorem State.wakeAsk_u (s : State) : (s.wakeAsk).u = s.u := by
  unfold State.wakeAsk; split <;> rfl
@[simp] theorem State.wakeAsk_s (s : State) : (s.wakeAsk).s = s.s := by
  unfold State.wakeAsk; split <;> rfl
@[simp] theorem State.wakeAsk_sash (s : State) : (s.wakeAsk).sash = s.sash := by
  unfold State.wakeAsk; split <;> rfl
@[simp] theorem State.wakeAsk_dcache (s : State) : (s.wakeAsk).dcache = s.dcache := by
  unfold State.wakeAsk; split <;> rfl
@[simp] theorem State.wakeAsk_eng (s : State) : (s.wakeAsk).eng = s.eng := by
  unfold State.wakeAsk; split <;> rfl
@[simp] theorem State.wakeAsk_er (s : State) : (s.wakeAsk).er = s.er := by
  unfold State.wakeAsk; split <;> rfl
@[simp] theorem State.wakeAsk_cr (s : State) : (s.wakeAsk).cr = s.cr := by
  unfold State.wakeAsk; split <;> rfl
@[simp] theorem State.wakeAsk_frame (s : State) : (s.wakeAsk).frame = s.frame := by
  unfold State.wakeAsk; split <;> rfl
@[simp] theorem State.wakeAsk_jamb (s : State) : (s.wakeAsk).jamb = s.jamb := by
  unfold State.wakeAsk; split <;> rfl
@[simp] theorem State.wakeAsk_latch (s : State) : (s.wakeAsk).latch = s.latch := by
  unfold State.wakeAsk; split <;> rfl
@[simp] theorem State.wakeAsk_wd (s : State) : (s.wakeAsk).wd = s.wd := by
  unfold State.wakeAsk; split <;> rfl
@[simp] theorem State.wakeAsk_door (s : State) : (s.wakeAsk).door = s.door := by
  unfold State.wakeAsk; split <;> rfl
@[simp] theorem State.wakeAsk_hinge (s : State) : (s.wakeAsk).hinge = s.hinge := by
  unfold State.wakeAsk; split <;> rfl
@[simp] theorem State.wakeAsk_clk (s : State) : (s.wakeAsk).clk = s.clk := by
  unfold State.wakeAsk; split <;> rfl
@[simp] theorem State.wakeAsk_boot (s : State) : (s.wakeAsk).boot = s.boot := by
  unfold State.wakeAsk; split <;> rfl
@[simp] theorem State.wakeAsk_int (s : State) : (s.wakeAsk).int = s.int := by
  unfold State.wakeAsk; split <;> rfl
@[simp] theorem State.wakeAsk_rpl (s : State) : (s.wakeAsk).rpl = s.rpl := by
  unfold State.wakeAsk; split <;> rfl
@[simp] theorem State.wakeAsk_lt (s : State) : (s.wakeAsk).lt = s.lt := by
  unfold State.wakeAsk; split <;> rfl
@[simp] theorem State.wakeAsk_time (s : State) : (s.wakeAsk).time = s.time := by
  unfold State.wakeAsk; split <;> rfl
@[simp] theorem State.wakeAsk_fresh (s : State) : (s.wakeAsk).fresh = s.fresh := by
  unfold State.wakeAsk; split <;> rfl
@[simp] theorem State.wakeAsk_pending (s : State) : (s.wakeAsk).pending = s.pending := by
  unfold State.wakeAsk; split <;> rfl

/-! ### jambAdd -/

@[simp] theorem State.jambAdd_f (s : State) (rs : List JReq) : (s.jambAdd rs).f = s.f := rfl
@[simp] theorem State.jambAdd_b (s : State) (rs : List JReq) : (s.jambAdd rs).b = s.b := rfl
@[simp] theorem State.jambAdd_u (s : State) (rs : List JReq) : (s.jambAdd rs).u = s.u := rfl
@[simp] theorem State.jambAdd_s (s : State) (rs : List JReq) : (s.jambAdd rs).s = s.s := rfl
@[simp] theorem State.jambAdd_sash (s : State) (rs : List JReq) : (s.jambAdd rs).sash = s.sash := rfl
@[simp] theorem State.jambAdd_dcache (s : State) (rs : List JReq) : (s.jambAdd rs).dcache = s.dcache := rfl
@[simp] theorem State.jambAdd_eng (s : State) (rs : List JReq) : (s.jambAdd rs).eng = s.eng := rfl
@[simp] theorem State.jambAdd_er (s : State) (rs : List JReq) : (s.jambAdd rs).er = s.er := rfl
@[simp] theorem State.jambAdd_cr (s : State) (rs : List JReq) : (s.jambAdd rs).cr = s.cr := rfl
@[simp] theorem State.jambAdd_frame (s : State) (rs : List JReq) : (s.jambAdd rs).frame = s.frame := rfl
@[simp] theorem State.jambAdd_latch (s : State) (rs : List JReq) : (s.jambAdd rs).latch = s.latch := rfl
@[simp] theorem State.jambAdd_wd (s : State) (rs : List JReq) : (s.jambAdd rs).wd = s.wd := rfl
@[simp] theorem State.jambAdd_door (s : State) (rs : List JReq) : (s.jambAdd rs).door = s.door := rfl
@[simp] theorem State.jambAdd_hinge (s : State) (rs : List JReq) : (s.jambAdd rs).hinge = s.hinge := rfl
@[simp] theorem State.jambAdd_clk (s : State) (rs : List JReq) : (s.jambAdd rs).clk = s.clk := rfl
@[simp] theorem State.jambAdd_pwr (s : State) (rs : List JReq) : (s.jambAdd rs).pwr = s.pwr := rfl
@[simp] theorem State.jambAdd_boot (s : State) (rs : List JReq) : (s.jambAdd rs).boot = s.boot := rfl
@[simp] theorem State.jambAdd_int (s : State) (rs : List JReq) : (s.jambAdd rs).int = s.int := rfl
@[simp] theorem State.jambAdd_rpl (s : State) (rs : List JReq) : (s.jambAdd rs).rpl = s.rpl := rfl
@[simp] theorem State.jambAdd_lt (s : State) (rs : List JReq) : (s.jambAdd rs).lt = s.lt := rfl
@[simp] theorem State.jambAdd_time (s : State) (rs : List JReq) : (s.jambAdd rs).time = s.time := rfl
@[simp] theorem State.jambAdd_fresh (s : State) (rs : List JReq) : (s.jambAdd rs).fresh = s.fresh := rfl
@[simp] theorem State.jambAdd_pending (s : State) (rs : List JReq) : (s.jambAdd rs).pending = s.pending := rfl

/-! ### excPush -/

@[simp] theorem State.excPush_f (s : State) (i : ExcInfo) : (s.excPush i).f = s.f := by
  unfold State.excPush; dsimp only; split; · rfl
  split <;> rfl
@[simp] theorem State.excPush_b (s : State) (i : ExcInfo) : (s.excPush i).b = s.b := by
  unfold State.excPush; dsimp only; split; · rfl
  split <;> rfl
@[simp] theorem State.excPush_u (s : State) (i : ExcInfo) : (s.excPush i).u = s.u := by
  unfold State.excPush; dsimp only; split; · rfl
  split <;> rfl
@[simp] theorem State.excPush_s (s : State) (i : ExcInfo) : (s.excPush i).s = s.s := by
  unfold State.excPush; dsimp only; split; · rfl
  split <;> rfl
@[simp] theorem State.excPush_dcache (s : State) (i : ExcInfo) : (s.excPush i).dcache = s.dcache := by
  unfold State.excPush; dsimp only; split; · rfl
  split <;> rfl
@[simp] theorem State.excPush_eng (s : State) (i : ExcInfo) : (s.excPush i).eng = s.eng := by
  unfold State.excPush; dsimp only; split; · rfl
  split <;> rfl
@[simp] theorem State.excPush_er (s : State) (i : ExcInfo) : (s.excPush i).er = s.er := by
  unfold State.excPush; dsimp only; split; · rfl
  split <;> rfl
@[simp] theorem State.excPush_cr (s : State) (i : ExcInfo) : (s.excPush i).cr = s.cr := by
  unfold State.excPush; dsimp only; split; · rfl
  split <;> rfl
@[simp] theorem State.excPush_frame (s : State) (i : ExcInfo) : (s.excPush i).frame = s.frame := by
  unfold State.excPush; dsimp only; split; · rfl
  split <;> rfl
@[simp] theorem State.excPush_jamb (s : State) (i : ExcInfo) : (s.excPush i).jamb = s.jamb := by
  unfold State.excPush; dsimp only; split; · rfl
  split <;> rfl
@[simp] theorem State.excPush_latch (s : State) (i : ExcInfo) : (s.excPush i).latch = s.latch := by
  unfold State.excPush; dsimp only; split; · rfl
  split <;> rfl
@[simp] theorem State.excPush_wd (s : State) (i : ExcInfo) : (s.excPush i).wd = s.wd := by
  unfold State.excPush; dsimp only; split; · rfl
  split <;> rfl
@[simp] theorem State.excPush_door (s : State) (i : ExcInfo) : (s.excPush i).door = s.door := by
  unfold State.excPush; dsimp only; split; · rfl
  split <;> rfl
@[simp] theorem State.excPush_clk (s : State) (i : ExcInfo) : (s.excPush i).clk = s.clk := by
  unfold State.excPush; dsimp only; split; · rfl
  split <;> rfl
@[simp] theorem State.excPush_pwr (s : State) (i : ExcInfo) : (s.excPush i).pwr = s.pwr := by
  unfold State.excPush; dsimp only; split; · rfl
  split <;> rfl
@[simp] theorem State.excPush_boot (s : State) (i : ExcInfo) : (s.excPush i).boot = s.boot := by
  unfold State.excPush; dsimp only; split; · rfl
  split <;> rfl
@[simp] theorem State.excPush_int (s : State) (i : ExcInfo) : (s.excPush i).int = s.int := by
  unfold State.excPush; dsimp only; split; · rfl
  split <;> rfl
@[simp] theorem State.excPush_rpl (s : State) (i : ExcInfo) : (s.excPush i).rpl = s.rpl := by
  unfold State.excPush; dsimp only; split; · rfl
  split <;> rfl
@[simp] theorem State.excPush_lt (s : State) (i : ExcInfo) : (s.excPush i).lt = s.lt := by
  unfold State.excPush; dsimp only; split; · rfl
  split <;> rfl
@[simp] theorem State.excPush_fresh (s : State) (i : ExcInfo) : (s.excPush i).fresh = s.fresh := by
  unfold State.excPush; dsimp only; split; · rfl
  split <;> rfl
@[simp] theorem State.excPush_pending (s : State) (i : ExcInfo) : (s.excPush i).pending = s.pending := by
  unfold State.excPush; dsimp only; split; · rfl
  split <;> rfl

/-! ### corrected -/

@[simp] theorem State.corrected_f (s : State) : (s.corrected).f = s.f := rfl
@[simp] theorem State.corrected_b (s : State) : (s.corrected).b = s.b := rfl
@[simp] theorem State.corrected_u (s : State) : (s.corrected).u = s.u := rfl
@[simp] theorem State.corrected_s (s : State) : (s.corrected).s = s.s := rfl
@[simp] theorem State.corrected_sash (s : State) : (s.corrected).sash = s.sash := rfl
@[simp] theorem State.corrected_dcache (s : State) : (s.corrected).dcache = s.dcache := rfl
@[simp] theorem State.corrected_eng (s : State) : (s.corrected).eng = s.eng := rfl
@[simp] theorem State.corrected_er (s : State) : (s.corrected).er = s.er := rfl
@[simp] theorem State.corrected_cr (s : State) : (s.corrected).cr = s.cr := rfl
@[simp] theorem State.corrected_frame (s : State) : (s.corrected).frame = s.frame := rfl
@[simp] theorem State.corrected_jamb (s : State) : (s.corrected).jamb = s.jamb := rfl
@[simp] theorem State.corrected_latch (s : State) : (s.corrected).latch = s.latch := rfl
@[simp] theorem State.corrected_wd (s : State) : (s.corrected).wd = s.wd := rfl
@[simp] theorem State.corrected_door (s : State) : (s.corrected).door = s.door := rfl
@[simp] theorem State.corrected_hinge (s : State) : (s.corrected).hinge = s.hinge := rfl
@[simp] theorem State.corrected_clk (s : State) : (s.corrected).clk = s.clk := rfl
@[simp] theorem State.corrected_pwr (s : State) : (s.corrected).pwr = s.pwr := rfl
@[simp] theorem State.corrected_boot (s : State) : (s.corrected).boot = s.boot := rfl
@[simp] theorem State.corrected_rpl (s : State) : (s.corrected).rpl = s.rpl := rfl
@[simp] theorem State.corrected_lt (s : State) : (s.corrected).lt = s.lt := rfl
@[simp] theorem State.corrected_time (s : State) : (s.corrected).time = s.time := rfl
@[simp] theorem State.corrected_fresh (s : State) : (s.corrected).fresh = s.fresh := rfl
@[simp] theorem State.corrected_pending (s : State) : (s.corrected).pending = s.pending := rfl

/-! ### struck -/

@[simp] theorem State.struck_f (s : State) (k : Site) : (s.struck k).f = s.f := rfl
@[simp] theorem State.struck_b (s : State) (k : Site) : (s.struck k).b = s.b := rfl
@[simp] theorem State.struck_u (s : State) (k : Site) : (s.struck k).u = s.u := rfl
@[simp] theorem State.struck_s (s : State) (k : Site) : (s.struck k).s = s.s := rfl
@[simp] theorem State.struck_sash (s : State) (k : Site) : (s.struck k).sash = s.sash := rfl
@[simp] theorem State.struck_dcache (s : State) (k : Site) : (s.struck k).dcache = s.dcache := rfl
@[simp] theorem State.struck_eng (s : State) (k : Site) : (s.struck k).eng = s.eng := rfl
@[simp] theorem State.struck_er (s : State) (k : Site) : (s.struck k).er = s.er := rfl
@[simp] theorem State.struck_cr (s : State) (k : Site) : (s.struck k).cr = s.cr := rfl
@[simp] theorem State.struck_frame (s : State) (k : Site) : (s.struck k).frame = s.frame := rfl
@[simp] theorem State.struck_jamb (s : State) (k : Site) : (s.struck k).jamb = s.jamb := rfl
@[simp] theorem State.struck_latch (s : State) (k : Site) : (s.struck k).latch = s.latch := rfl
@[simp] theorem State.struck_wd (s : State) (k : Site) : (s.struck k).wd = s.wd := rfl
@[simp] theorem State.struck_door (s : State) (k : Site) : (s.struck k).door = s.door := rfl
@[simp] theorem State.struck_hinge (s : State) (k : Site) : (s.struck k).hinge = s.hinge := rfl
@[simp] theorem State.struck_clk (s : State) (k : Site) : (s.struck k).clk = s.clk := rfl
@[simp] theorem State.struck_pwr (s : State) (k : Site) : (s.struck k).pwr = s.pwr := rfl
@[simp] theorem State.struck_boot (s : State) (k : Site) : (s.struck k).boot = s.boot := rfl
@[simp] theorem State.struck_rpl (s : State) (k : Site) : (s.struck k).rpl = s.rpl := rfl
@[simp] theorem State.struck_lt (s : State) (k : Site) : (s.struck k).lt = s.lt := rfl
@[simp] theorem State.struck_time (s : State) (k : Site) : (s.struck k).time = s.time := rfl
@[simp] theorem State.struck_fresh (s : State) (k : Site) : (s.struck k).fresh = s.fresh := rfl
@[simp] theorem State.struck_pending (s : State) (k : Site) : (s.struck k).pending = s.pending := rfl

/-! ### refetched -/

@[simp] theorem State.refetched_f (s : State) : (s.refetched).f = s.f := rfl
@[simp] theorem State.refetched_b (s : State) : (s.refetched).b = s.b := rfl
@[simp] theorem State.refetched_u (s : State) : (s.refetched).u = s.u := rfl
@[simp] theorem State.refetched_s (s : State) : (s.refetched).s = s.s := rfl
@[simp] theorem State.refetched_dcache (s : State) : (s.refetched).dcache = s.dcache := rfl
@[simp] theorem State.refetched_eng (s : State) : (s.refetched).eng = s.eng := rfl
@[simp] theorem State.refetched_er (s : State) : (s.refetched).er = s.er := rfl
@[simp] theorem State.refetched_cr (s : State) : (s.refetched).cr = s.cr := rfl
@[simp] theorem State.refetched_frame (s : State) : (s.refetched).frame = s.frame := rfl
@[simp] theorem State.refetched_jamb (s : State) : (s.refetched).jamb = s.jamb := rfl
@[simp] theorem State.refetched_latch (s : State) : (s.refetched).latch = s.latch := rfl
@[simp] theorem State.refetched_wd (s : State) : (s.refetched).wd = s.wd := rfl
@[simp] theorem State.refetched_door (s : State) : (s.refetched).door = s.door := rfl
@[simp] theorem State.refetched_hinge (s : State) : (s.refetched).hinge = s.hinge := rfl
@[simp] theorem State.refetched_clk (s : State) : (s.refetched).clk = s.clk := rfl
@[simp] theorem State.refetched_pwr (s : State) : (s.refetched).pwr = s.pwr := rfl
@[simp] theorem State.refetched_boot (s : State) : (s.refetched).boot = s.boot := rfl
@[simp] theorem State.refetched_int (s : State) : (s.refetched).int = s.int := rfl
@[simp] theorem State.refetched_rpl (s : State) : (s.refetched).rpl = s.rpl := rfl
@[simp] theorem State.refetched_lt (s : State) : (s.refetched).lt = s.lt := rfl
@[simp] theorem State.refetched_time (s : State) : (s.refetched).time = s.time := rfl
@[simp] theorem State.refetched_fresh (s : State) : (s.refetched).fresh = s.fresh := rfl
@[simp] theorem State.refetched_pending (s : State) : (s.refetched).pending = s.pending := rfl

/-! ### fetchAsk -/

@[simp] theorem State.fetchAsk_sash (s : State) (t : Thread) (again : Bool) (line : Nat) : (s.fetchAsk t again line).sash = s.sash :=
    by
      unfold State.fetchAsk; dsimp only; split <;> simp
@[simp] theorem State.fetchAsk_dcache (s : State) (t : Thread) (again : Bool) (line : Nat) : (s.fetchAsk t again line).dcache = s.dcache :=
    by
      unfold State.fetchAsk; dsimp only; split <;> simp
@[simp] theorem State.fetchAsk_eng (s : State) (t : Thread) (again : Bool) (line : Nat) : (s.fetchAsk t again line).eng = s.eng :=
    by
      unfold State.fetchAsk; dsimp only; split <;> simp
@[simp] theorem State.fetchAsk_er (s : State) (t : Thread) (again : Bool) (line : Nat) : (s.fetchAsk t again line).er = s.er :=
    by
      unfold State.fetchAsk; dsimp only; split <;> simp
@[simp] theorem State.fetchAsk_cr (s : State) (t : Thread) (again : Bool) (line : Nat) : (s.fetchAsk t again line).cr = s.cr :=
    by
      unfold State.fetchAsk; dsimp only; split <;> simp
@[simp] theorem State.fetchAsk_frame (s : State) (t : Thread) (again : Bool) (line : Nat) : (s.fetchAsk t again line).frame = s.frame :=
    by
      unfold State.fetchAsk; dsimp only; split <;> simp
@[simp] theorem State.fetchAsk_latch (s : State) (t : Thread) (again : Bool) (line : Nat) : (s.fetchAsk t again line).latch = s.latch :=
    by
      unfold State.fetchAsk; dsimp only; split <;> simp
@[simp] theorem State.fetchAsk_wd (s : State) (t : Thread) (again : Bool) (line : Nat) : (s.fetchAsk t again line).wd = s.wd :=
    by
      unfold State.fetchAsk; dsimp only; split <;> simp
@[simp] theorem State.fetchAsk_door (s : State) (t : Thread) (again : Bool) (line : Nat) : (s.fetchAsk t again line).door = s.door :=
    by
      unfold State.fetchAsk; dsimp only; split <;> simp
@[simp] theorem State.fetchAsk_hinge (s : State) (t : Thread) (again : Bool) (line : Nat) : (s.fetchAsk t again line).hinge = s.hinge :=
    by
      unfold State.fetchAsk; dsimp only; split <;> simp
@[simp] theorem State.fetchAsk_clk (s : State) (t : Thread) (again : Bool) (line : Nat) : (s.fetchAsk t again line).clk = s.clk :=
    by
      unfold State.fetchAsk; dsimp only; split <;> simp
@[simp] theorem State.fetchAsk_pwr (s : State) (t : Thread) (again : Bool) (line : Nat) : (s.fetchAsk t again line).pwr = s.pwr :=
    by
      unfold State.fetchAsk; dsimp only; split <;> simp
@[simp] theorem State.fetchAsk_boot (s : State) (t : Thread) (again : Bool) (line : Nat) : (s.fetchAsk t again line).boot = s.boot :=
    by
      unfold State.fetchAsk; dsimp only; split <;> simp
@[simp] theorem State.fetchAsk_int (s : State) (t : Thread) (again : Bool) (line : Nat) : (s.fetchAsk t again line).int = s.int :=
    by
      unfold State.fetchAsk; dsimp only; split <;> simp
@[simp] theorem State.fetchAsk_rpl (s : State) (t : Thread) (again : Bool) (line : Nat) : (s.fetchAsk t again line).rpl = s.rpl :=
    by
      unfold State.fetchAsk; dsimp only; split <;> simp
@[simp] theorem State.fetchAsk_lt (s : State) (t : Thread) (again : Bool) (line : Nat) : (s.fetchAsk t again line).lt = s.lt :=
    by
      unfold State.fetchAsk; dsimp only; split <;> simp
@[simp] theorem State.fetchAsk_time (s : State) (t : Thread) (again : Bool) (line : Nat) : (s.fetchAsk t again line).time = s.time :=
    by
      unfold State.fetchAsk; dsimp only; split <;> simp
@[simp] theorem State.fetchAsk_fresh (s : State) (t : Thread) (again : Bool) (line : Nat) : (s.fetchAsk t again line).fresh = s.fresh :=
    by
      unfold State.fetchAsk; dsimp only; split <;> simp
@[simp] theorem State.fetchAsk_pending (s : State) (t : Thread) (again : Bool) (line : Nat) : (s.fetchAsk t again line).pending = s.pending :=
    by
      unfold State.fetchAsk; dsimp only; split <;> simp

/-! ### fetchAt -/

@[simp] theorem State.fetchAt_dcache (s : State) (t : Thread) (line : Nat) : (s.fetchAt t line).dcache = s.dcache := by
  unfold State.fetchAt; split; · rfl
  split; · dsimp only; split <;> simp
  simp
@[simp] theorem State.fetchAt_eng (s : State) (t : Thread) (line : Nat) : (s.fetchAt t line).eng = s.eng := by
  unfold State.fetchAt; split; · rfl
  split; · dsimp only; split <;> simp
  simp
@[simp] theorem State.fetchAt_er (s : State) (t : Thread) (line : Nat) : (s.fetchAt t line).er = s.er := by
  unfold State.fetchAt; split; · rfl
  split; · dsimp only; split <;> simp
  simp
@[simp] theorem State.fetchAt_cr (s : State) (t : Thread) (line : Nat) : (s.fetchAt t line).cr = s.cr := by
  unfold State.fetchAt; split; · rfl
  split; · dsimp only; split <;> simp
  simp
@[simp] theorem State.fetchAt_frame (s : State) (t : Thread) (line : Nat) : (s.fetchAt t line).frame = s.frame := by
  unfold State.fetchAt; split; · rfl
  split; · dsimp only; split <;> simp
  simp
@[simp] theorem State.fetchAt_latch (s : State) (t : Thread) (line : Nat) : (s.fetchAt t line).latch = s.latch := by
  unfold State.fetchAt; split; · rfl
  split; · dsimp only; split <;> simp
  simp
@[simp] theorem State.fetchAt_wd (s : State) (t : Thread) (line : Nat) : (s.fetchAt t line).wd = s.wd := by
  unfold State.fetchAt; split; · rfl
  split; · dsimp only; split <;> simp
  simp
@[simp] theorem State.fetchAt_door (s : State) (t : Thread) (line : Nat) : (s.fetchAt t line).door = s.door := by
  unfold State.fetchAt; split; · rfl
  split; · dsimp only; split <;> simp
  simp
@[simp] theorem State.fetchAt_hinge (s : State) (t : Thread) (line : Nat) : (s.fetchAt t line).hinge = s.hinge := by
  unfold State.fetchAt; split; · rfl
  split; · dsimp only; split <;> simp
  simp
@[simp] theorem State.fetchAt_clk (s : State) (t : Thread) (line : Nat) : (s.fetchAt t line).clk = s.clk := by
  unfold State.fetchAt; split; · rfl
  split; · dsimp only; split <;> simp
  simp
@[simp] theorem State.fetchAt_pwr (s : State) (t : Thread) (line : Nat) : (s.fetchAt t line).pwr = s.pwr := by
  unfold State.fetchAt; split; · rfl
  split; · dsimp only; split <;> simp
  simp
@[simp] theorem State.fetchAt_boot (s : State) (t : Thread) (line : Nat) : (s.fetchAt t line).boot = s.boot := by
  unfold State.fetchAt; split; · rfl
  split; · dsimp only; split <;> simp
  simp
@[simp] theorem State.fetchAt_rpl (s : State) (t : Thread) (line : Nat) : (s.fetchAt t line).rpl = s.rpl := by
  unfold State.fetchAt; split; · rfl
  split; · dsimp only; split <;> simp
  simp
@[simp] theorem State.fetchAt_lt (s : State) (t : Thread) (line : Nat) : (s.fetchAt t line).lt = s.lt := by
  unfold State.fetchAt; split; · rfl
  split; · dsimp only; split <;> simp
  simp
@[simp] theorem State.fetchAt_time (s : State) (t : Thread) (line : Nat) : (s.fetchAt t line).time = s.time := by
  unfold State.fetchAt; split; · rfl
  split; · dsimp only; split <;> simp
  simp
@[simp] theorem State.fetchAt_fresh (s : State) (t : Thread) (line : Nat) : (s.fetchAt t line).fresh = s.fresh := by
  unfold State.fetchAt; split; · rfl
  split; · dsimp only; split <;> simp
  simp
@[simp] theorem State.fetchAt_pending (s : State) (t : Thread) (line : Nat) : (s.fetchAt t line).pending = s.pending :=
    by
      unfold State.fetchAt; split; · rfl
      split; · dsimp only; split <;> simp
      simp

/-! ### fetchNext -/

@[simp] theorem State.fetchNext_dcache (s : State) (t : Thread) : (s.fetchNext t).dcache = s.dcache :=
    by simp [State.fetchNext]
@[simp] theorem State.fetchNext_eng (s : State) (t : Thread) : (s.fetchNext t).eng = s.eng := by simp [State.fetchNext]
@[simp] theorem State.fetchNext_er (s : State) (t : Thread) : (s.fetchNext t).er = s.er := by simp [State.fetchNext]
@[simp] theorem State.fetchNext_cr (s : State) (t : Thread) : (s.fetchNext t).cr = s.cr := by simp [State.fetchNext]
@[simp] theorem State.fetchNext_frame (s : State) (t : Thread) : (s.fetchNext t).frame = s.frame :=
    by simp [State.fetchNext]
@[simp] theorem State.fetchNext_latch (s : State) (t : Thread) : (s.fetchNext t).latch = s.latch :=
    by simp [State.fetchNext]
@[simp] theorem State.fetchNext_wd (s : State) (t : Thread) : (s.fetchNext t).wd = s.wd := by simp [State.fetchNext]
@[simp] theorem State.fetchNext_door (s : State) (t : Thread) : (s.fetchNext t).door = s.door :=
    by simp [State.fetchNext]
@[simp] theorem State.fetchNext_hinge (s : State) (t : Thread) : (s.fetchNext t).hinge = s.hinge :=
    by simp [State.fetchNext]
@[simp] theorem State.fetchNext_clk (s : State) (t : Thread) : (s.fetchNext t).clk = s.clk := by simp [State.fetchNext]
@[simp] theorem State.fetchNext_pwr (s : State) (t : Thread) : (s.fetchNext t).pwr = s.pwr := by simp [State.fetchNext]
@[simp] theorem State.fetchNext_boot (s : State) (t : Thread) : (s.fetchNext t).boot = s.boot :=
    by simp [State.fetchNext]
@[simp] theorem State.fetchNext_rpl (s : State) (t : Thread) : (s.fetchNext t).rpl = s.rpl := by simp [State.fetchNext]
@[simp] theorem State.fetchNext_lt (s : State) (t : Thread) : (s.fetchNext t).lt = s.lt := by simp [State.fetchNext]
@[simp] theorem State.fetchNext_time (s : State) (t : Thread) : (s.fetchNext t).time = s.time :=
    by simp [State.fetchNext]
@[simp] theorem State.fetchNext_fresh (s : State) (t : Thread) : (s.fetchNext t).fresh = s.fresh :=
    by simp [State.fetchNext]
@[simp] theorem State.fetchNext_pending (s : State) (t : Thread) : (s.fetchNext t).pending = s.pending :=
    by simp [State.fetchNext]

/-! ### goto -/

@[simp] theorem State.goto_dcache (s : State) (t : Thread) (pc : BitVec 48) : (s.goto t pc).dcache = s.dcache :=
    by simp [State.goto]
@[simp] theorem State.goto_eng (s : State) (t : Thread) (pc : BitVec 48) : (s.goto t pc).eng = s.eng :=
    by simp [State.goto]
@[simp] theorem State.goto_er (s : State) (t : Thread) (pc : BitVec 48) : (s.goto t pc).er = s.er :=
    by simp [State.goto]
@[simp] theorem State.goto_cr (s : State) (t : Thread) (pc : BitVec 48) : (s.goto t pc).cr = s.cr :=
    by simp [State.goto]
@[simp] theorem State.goto_frame (s : State) (t : Thread) (pc : BitVec 48) : (s.goto t pc).frame = s.frame :=
    by simp [State.goto]
@[simp] theorem State.goto_latch (s : State) (t : Thread) (pc : BitVec 48) : (s.goto t pc).latch = s.latch :=
    by simp [State.goto]
@[simp] theorem State.goto_wd (s : State) (t : Thread) (pc : BitVec 48) : (s.goto t pc).wd = s.wd :=
    by simp [State.goto]
@[simp] theorem State.goto_door (s : State) (t : Thread) (pc : BitVec 48) : (s.goto t pc).door = s.door :=
    by simp [State.goto]
@[simp] theorem State.goto_hinge (s : State) (t : Thread) (pc : BitVec 48) : (s.goto t pc).hinge = s.hinge :=
    by simp [State.goto]
@[simp] theorem State.goto_clk (s : State) (t : Thread) (pc : BitVec 48) : (s.goto t pc).clk = s.clk :=
    by simp [State.goto]
@[simp] theorem State.goto_pwr (s : State) (t : Thread) (pc : BitVec 48) : (s.goto t pc).pwr = s.pwr :=
    by simp [State.goto]
@[simp] theorem State.goto_boot (s : State) (t : Thread) (pc : BitVec 48) : (s.goto t pc).boot = s.boot :=
    by simp [State.goto]
@[simp] theorem State.goto_rpl (s : State) (t : Thread) (pc : BitVec 48) : (s.goto t pc).rpl = s.rpl :=
    by simp [State.goto]
@[simp] theorem State.goto_lt (s : State) (t : Thread) (pc : BitVec 48) : (s.goto t pc).lt = s.lt :=
    by simp [State.goto]
@[simp] theorem State.goto_time (s : State) (t : Thread) (pc : BitVec 48) : (s.goto t pc).time = s.time :=
    by simp [State.goto]
@[simp] theorem State.goto_fresh (s : State) (t : Thread) (pc : BitVec 48) : (s.goto t pc).fresh = s.fresh :=
    by simp [State.goto]
@[simp] theorem State.goto_pending (s : State) (t : Thread) (pc : BitVec 48) : (s.goto t pc).pending = s.pending :=
    by simp [State.goto]

/-! ### advance -/

@[simp] theorem State.advance_dcache (s : State) (t : Thread) (n : Nat) : (s.advance t n).dcache = s.dcache :=
    by simp [State.advance]
@[simp] theorem State.advance_eng (s : State) (t : Thread) (n : Nat) : (s.advance t n).eng = s.eng :=
    by simp [State.advance]
@[simp] theorem State.advance_er (s : State) (t : Thread) (n : Nat) : (s.advance t n).er = s.er :=
    by simp [State.advance]
@[simp] theorem State.advance_cr (s : State) (t : Thread) (n : Nat) : (s.advance t n).cr = s.cr :=
    by simp [State.advance]
@[simp] theorem State.advance_frame (s : State) (t : Thread) (n : Nat) : (s.advance t n).frame = s.frame :=
    by simp [State.advance]
@[simp] theorem State.advance_latch (s : State) (t : Thread) (n : Nat) : (s.advance t n).latch = s.latch :=
    by simp [State.advance]
@[simp] theorem State.advance_wd (s : State) (t : Thread) (n : Nat) : (s.advance t n).wd = s.wd :=
    by simp [State.advance]
@[simp] theorem State.advance_door (s : State) (t : Thread) (n : Nat) : (s.advance t n).door = s.door :=
    by simp [State.advance]
@[simp] theorem State.advance_hinge (s : State) (t : Thread) (n : Nat) : (s.advance t n).hinge = s.hinge :=
    by simp [State.advance]
@[simp] theorem State.advance_clk (s : State) (t : Thread) (n : Nat) : (s.advance t n).clk = s.clk :=
    by simp [State.advance]
@[simp] theorem State.advance_pwr (s : State) (t : Thread) (n : Nat) : (s.advance t n).pwr = s.pwr :=
    by simp [State.advance]
@[simp] theorem State.advance_boot (s : State) (t : Thread) (n : Nat) : (s.advance t n).boot = s.boot :=
    by simp [State.advance]
@[simp] theorem State.advance_rpl (s : State) (t : Thread) (n : Nat) : (s.advance t n).rpl = s.rpl :=
    by simp [State.advance]
@[simp] theorem State.advance_lt (s : State) (t : Thread) (n : Nat) : (s.advance t n).lt = s.lt :=
    by simp [State.advance]
@[simp] theorem State.advance_time (s : State) (t : Thread) (n : Nat) : (s.advance t n).time = s.time :=
    by simp [State.advance]
@[simp] theorem State.advance_fresh (s : State) (t : Thread) (n : Nat) : (s.advance t n).fresh = s.fresh :=
    by simp [State.advance]
@[simp] theorem State.advance_pending (s : State) (t : Thread) (n : Nat) : (s.advance t n).pending = s.pending :=
    by simp [State.advance]

/-! ### resume -/

@[simp] theorem State.resume_dcache (s : State) (t : Thread) (n : Nat) : (s.resume t n).dcache = s.dcache :=
    by simp [State.resume]
@[simp] theorem State.resume_eng (s : State) (t : Thread) (n : Nat) : (s.resume t n).eng = s.eng :=
    by simp [State.resume]
@[simp] theorem State.resume_er (s : State) (t : Thread) (n : Nat) : (s.resume t n).er = s.er := by simp [State.resume]
@[simp] theorem State.resume_cr (s : State) (t : Thread) (n : Nat) : (s.resume t n).cr = s.cr := by simp [State.resume]
@[simp] theorem State.resume_frame (s : State) (t : Thread) (n : Nat) : (s.resume t n).frame = s.frame :=
    by simp [State.resume]
@[simp] theorem State.resume_latch (s : State) (t : Thread) (n : Nat) : (s.resume t n).latch = s.latch :=
    by simp [State.resume]
@[simp] theorem State.resume_wd (s : State) (t : Thread) (n : Nat) : (s.resume t n).wd = s.wd := by simp [State.resume]
@[simp] theorem State.resume_door (s : State) (t : Thread) (n : Nat) : (s.resume t n).door = s.door :=
    by simp [State.resume]
@[simp] theorem State.resume_hinge (s : State) (t : Thread) (n : Nat) : (s.resume t n).hinge = s.hinge :=
    by simp [State.resume]
@[simp] theorem State.resume_clk (s : State) (t : Thread) (n : Nat) : (s.resume t n).clk = s.clk :=
    by simp [State.resume]
@[simp] theorem State.resume_pwr (s : State) (t : Thread) (n : Nat) : (s.resume t n).pwr = s.pwr :=
    by simp [State.resume]
@[simp] theorem State.resume_boot (s : State) (t : Thread) (n : Nat) : (s.resume t n).boot = s.boot :=
    by simp [State.resume]
@[simp] theorem State.resume_rpl (s : State) (t : Thread) (n : Nat) : (s.resume t n).rpl = s.rpl :=
    by simp [State.resume]
@[simp] theorem State.resume_lt (s : State) (t : Thread) (n : Nat) : (s.resume t n).lt = s.lt := by simp [State.resume]
@[simp] theorem State.resume_time (s : State) (t : Thread) (n : Nat) : (s.resume t n).time = s.time :=
    by simp [State.resume]
@[simp] theorem State.resume_fresh (s : State) (t : Thread) (n : Nat) : (s.resume t n).fresh = s.fresh :=
    by simp [State.resume]
@[simp] theorem State.resume_pending (s : State) (t : Thread) (n : Nat) : (s.resume t n).pending = s.pending :=
    by simp [State.resume]

/-! ### writeRd -/

@[simp] theorem State.writeRd_dcache (s : State) (t : Thread) (rd : Reg) (v : Word) : (s.writeRd t rd v).dcache = s.dcache :=
    by simp [State.writeRd]
@[simp] theorem State.writeRd_eng (s : State) (t : Thread) (rd : Reg) (v : Word) : (s.writeRd t rd v).eng = s.eng :=
    by simp [State.writeRd]
@[simp] theorem State.writeRd_er (s : State) (t : Thread) (rd : Reg) (v : Word) : (s.writeRd t rd v).er = s.er :=
    by simp [State.writeRd]
@[simp] theorem State.writeRd_cr (s : State) (t : Thread) (rd : Reg) (v : Word) : (s.writeRd t rd v).cr = s.cr :=
    by simp [State.writeRd]
@[simp] theorem State.writeRd_frame (s : State) (t : Thread) (rd : Reg) (v : Word) : (s.writeRd t rd v).frame = s.frame :=
    by simp [State.writeRd]
@[simp] theorem State.writeRd_latch (s : State) (t : Thread) (rd : Reg) (v : Word) : (s.writeRd t rd v).latch = s.latch :=
    by simp [State.writeRd]
@[simp] theorem State.writeRd_wd (s : State) (t : Thread) (rd : Reg) (v : Word) : (s.writeRd t rd v).wd = s.wd :=
    by simp [State.writeRd]
@[simp] theorem State.writeRd_door (s : State) (t : Thread) (rd : Reg) (v : Word) : (s.writeRd t rd v).door = s.door :=
    by simp [State.writeRd]
@[simp] theorem State.writeRd_hinge (s : State) (t : Thread) (rd : Reg) (v : Word) : (s.writeRd t rd v).hinge = s.hinge :=
    by simp [State.writeRd]
@[simp] theorem State.writeRd_clk (s : State) (t : Thread) (rd : Reg) (v : Word) : (s.writeRd t rd v).clk = s.clk :=
    by simp [State.writeRd]
@[simp] theorem State.writeRd_pwr (s : State) (t : Thread) (rd : Reg) (v : Word) : (s.writeRd t rd v).pwr = s.pwr :=
    by simp [State.writeRd]
@[simp] theorem State.writeRd_boot (s : State) (t : Thread) (rd : Reg) (v : Word) : (s.writeRd t rd v).boot = s.boot :=
    by simp [State.writeRd]
@[simp] theorem State.writeRd_rpl (s : State) (t : Thread) (rd : Reg) (v : Word) : (s.writeRd t rd v).rpl = s.rpl :=
    by simp [State.writeRd]
@[simp] theorem State.writeRd_lt (s : State) (t : Thread) (rd : Reg) (v : Word) : (s.writeRd t rd v).lt = s.lt :=
    by simp [State.writeRd]
@[simp] theorem State.writeRd_time (s : State) (t : Thread) (rd : Reg) (v : Word) : (s.writeRd t rd v).time = s.time :=
    by simp [State.writeRd]
@[simp] theorem State.writeRd_fresh (s : State) (t : Thread) (rd : Reg) (v : Word) : (s.writeRd t rd v).fresh = s.fresh :=
    by simp [State.writeRd]
@[simp] theorem State.writeRd_pending (s : State) (t : Thread) (rd : Reg) (v : Word) : (s.writeRd t rd v).pending = s.pending :=
    by simp [State.writeRd]

end Sys2Proof.Machine
end

