-- ==== Sys2Proof/Laws/Sash.lean ====
section
/-! SUPPORT. What the shared operations of Sash do: the threads and registers after an update, and the frames of an
instruction that completes (spec/09). -/

namespace Sys2Proof.Machine

/-! ### Threads and registers -/

@[simp] theorem State.th_setTh (s : State) (t : Thread) (v : ThreadState) : (s.setTh t v).th t = v := by cases t <;> rfl

theorem State.th_setTh_ne (s : State) {t u : Thread} (v : ThreadState) (h : u ≠ t) : (s.setTh t v).th u = s.th u := by
  cases t <;> cases u <;> first | rfl | exact absurd rfl h

@[simp] theorem State.th_modTh (s : State) (t : Thread) (g : ThreadState → ThreadState) :
    (s.modTh t g).th t = g (s.th t) := s.th_setTh t _

theorem State.th_modTh_ne (s : State) {t u : Thread} (g : ThreadState → ThreadState) (h : u ≠ t) :
    (s.modTh t g).th u = s.th u := s.th_setTh_ne _ h

/-- Everything but the thread is as before. -/
theorem State.setTh_rest (s : State) (t : Thread) (v : ThreadState) :
    { s.setTh t v with f := s.f, b := s.b, u := s.u, s := s.s } = s := by cases t <;> rfl

/-- A register after a write (09 R193). -/
theorem State.reg_setReg (s : State) (t : Thread) (rd r : Reg) (v : Word) :
    (s.setReg t rd v).reg t r = if r = rd ∧ rd ≠ 0 then v else s.reg t r := by
  unfold State.setReg State.reg
  by_cases h0 : rd = 0
  · simp [h0]
  · by_cases hr : r = 0
    · have : r ≠ rd := fun h => h0 (h ▸ hr)
      simp [hr, h0, show (0 : Reg) ≠ rd from fun h => h0 h.symm]
    · simp [h0, hr, SMap.look_put, Fin.ext_iff]

/-! ### Fetching the next instruction (R201 to R203) -/

/-- Where no disturbance waits for a check, every check passes. -/
theorem State.upsetAt_calm {s : State} (h : s.calm) (k : Site) : s.upsetAt k = .clean := by
  unfold State.upsetAt
  rw [show s.int.strikes = [] from h]
  rfl

/-- A fetch makes its line the most recent, or the thread waits for a line, with one read of it at most. -/
theorem State.fetchNext_cases {s : State} {t : Thread} (h : (s.th t).state = .run) (hc : s.upsetAt .icache = .clean) :
    (∃ ic, s.fetchNext t = { s with sash := { s.sash with icache := ic } }) ∨
    (∃ l rs, (∀ r ∈ rs, r.client = .ifetch) ∧ s.fetchNext t =
      { s.setTh t { s.th t with state := .memory, wait := .fetch, fetchLine := l } with
        jamb := { s.jamb with reqs := s.jamb.reqs ++ rs } }) := by
  unfold State.fetchNext State.fetchAt
  generalize (s.th t).pc.toNat / 128 = l
  simp only [State.isRun, h, decide_true, Bool.not_true]
  split
  · exact absurd ‹_› (by decide)
  · split
    · exact .inl ⟨_, by rw [hc]⟩
    · unfold State.fetchAsk
      dsimp only
      split
      · exact .inr ⟨l, [], by simp, by cases t <;> simp [State.setTh, State.modTh, State.waitMem, State.th]⟩
      · exact .inr ⟨l, [fetchReq t false l], by simp [fetchReq, readReq], by cases t <;> rfl⟩

/-- The frame of an instruction that writes registers of its thread and goes to `pc`. -/
theorem RegFrame.of_fetch {s : State} {t : Thread} {y : ThreadState} (hc : s.calm) (hrun : y.state = .run)
    (hown : { y with
      regs := (s.th t).regs, pc := (s.th t).pc, state := (s.th t).state, wait := (s.th t).wait,
      fetchLine := (s.th t).fetchLine } = s.th t) :
    RegFrame t s (((s.issuedBy t).setTh t y).fetchNext t) ∧
    ((((s.issuedBy t).setTh t y).fetchNext t).th t).regs = y.regs ∧
    ((((s.issuedBy t).setTh t y).fetchNext t).th t).pc = y.pc := by
  generalize hx : (s.issuedBy t).setTh t y = x
  have hth : x.th t = y := by rw [← hx]; simp
  have hrun' : (x.th t).state = .run := by rw [hth]; exact hrun
  have hu : x.upsetAt .icache = .clean :=
    State.upsetAt_calm (show x.int.strikes = [] by rw [← hx]; cases t <;> exact hc) _
  rcases State.fetchNext_cases hrun' hu with ⟨ic, h⟩ | ⟨l, rs, hr, h⟩
  · rw [h]
    subst hx
    refine ⟨{ threads := ?_, sash := ?_, jamb := ?_, rest := ?_, own := ?_, runs := ?_ }, ?_, ?_⟩
    · intro u hu; cases t <;> cases u <;> first | rfl | exact absurd rfl hu
    · cases t <;> rfl
    · exact ⟨by cases t <;> rfl, [], by cases t <;> simp [State.setTh, State.issuedBy], by simp⟩
    · cases t <;> rfl
    · cases t <;> exact hown
    · left; cases t <;> exact hrun
    · cases t <;> rfl
    · cases t <;> rfl
  · rw [h]
    subst hx
    refine ⟨{ threads := ?_, sash := ?_, jamb := ?_, rest := ?_, own := ?_, runs := ?_ }, ?_, ?_⟩
    · intro u hu; cases t <;> cases u <;> first | rfl | exact absurd rfl hu
    · cases t <;> rfl
    · exact ⟨by cases t <;> rfl, rs, by cases t <;> rfl, hr⟩
    · cases t <;> rfl
    · cases t <;> exact hown
    · right; cases t <;> exact ⟨rfl, rfl⟩
    · cases t <;> rfl
    · cases t <;> rfl

/-! ### What an instruction of a running thread does -/

/-- A running thread's instruction acts when the two copies agree (16 R381). -/
theorem State.ifRun_run {s : State} {t : Thread} (h : (s.th t).state = .run) (hc : s.upsetAt .sash = .clean)
    (g : State → State) : s.ifRun t g = g (s.issuedBy t) := by
  have : (s.issuedBy t).upsetAt .sash = .clean := hc
  unfold State.issuedBy at this ⊢
  simp [State.ifRun, State.isRun, h, this, State.lockstep]

theorem State.ifRun_idle {s : State} {t : Thread} (h : (s.th t).state ≠ .run) (g : State → State) : s.ifRun t g = s := by
  simp [State.ifRun, State.isRun, h]

/-- A passing lockstep comparison lets the instruction act (16 R381). -/
theorem State.lockstep_ok {s : State} {t : Thread} {u : Upset} (hu : ∀ d, u ≠ .fatal d) (g : State → State) :
    s.lockstep t u g = g s := by
  cases u with
  | clean => rfl
  | corrected => rfl
  | fatal d => exact absurd rfl (hu d)

@[simp] theorem State.th_issued (s : State) (t u : Thread) :
    (s.issuedBy t).th u = s.th u := by cases u <;> rfl

@[simp] theorem State.reg_issued (s : State) (t u : Thread) (r : Reg) :
    (s.issuedBy t).reg u r = s.reg u r := by
  unfold State.reg; rw [State.th_issued]

/-- A register write and a jump of a running thread. -/
theorem WritesRd.of_goto {s : State} {t : Thread} (hc : s.calm) (h : (s.th t).state = .run) (rd : Reg) (v : Word) (pc : BitVec 48) :
    WritesRd t rd v pc s (((s.issuedBy t).setReg t rd v).goto t pc) := by
  have hx : (((s.issuedBy t).setReg t rd v).modTh t fun x =>
      { x with pc := pc }) = (s.issuedBy t).setTh t
        { s.th t with regs := ((((s.issuedBy t).setReg t rd v)).th t).regs, pc := pc } := by
    unfold State.setReg
    by_cases h0 : rd = 0
    · simp only [h0, if_true]
      cases t <;> rfl
    · simp only [h0, if_false]
      cases t <;> rfl
  have k := RegFrame.of_fetch (s := s) (t := t) (y := { s.th t with
    regs := ((((s.issuedBy t).setReg t rd v)).th t).regs, pc := pc }) hc h rfl
  unfold State.goto
  rw [hx]
  refine { k.1 with regs := fun r => ?_, pcNow := k.2.2 }
  have hr := State.reg_setReg (s.issuedBy t) t rd r v
  rw [State.reg_issued] at hr
  rw [← hr]
  unfold State.reg
  rw [k.2.1]

/-- The write of a register completes the instruction (R206, R207). -/
theorem WritesRd.of_writeRd {s : State} {t : Thread} (hc : s.calm) (h : (s.th t).state = .run) (rd : Reg) (v : Word) :
    WritesRd t rd v ((s.th t).pc + 4) s ((s.issuedBy t).writeRd t rd v) := by
  have : ((s.issuedBy t).setReg t rd v |>.th t).pc = (s.th t).pc := by
    unfold State.setReg
    split <;> simp
  unfold State.writeRd State.advance
  rw [this]
  exact WritesRd.of_goto hc h rd v _

/-- A record enters a list in front of the first that comes after it. -/
theorem excInsert_split (x : ExcRec) (l : List ExcRec) :
    ∃ a b, l = a ++ b ∧ excInsert x l = a ++ x :: b ∧ ∀ y ∈ b.head?, x.rank < y.rank := by
  induction l with
  | nil => exact ⟨[], [], rfl, rfl, by simp⟩
  | cons y r ih =>
    unfold excInsert
    split
    · exact ⟨[], y :: r, rfl, rfl, by simpa⟩
    · obtain ⟨a, b, h1, h2, h3⟩ := ih
      exact ⟨y :: a, b, by rw [h1]; rfl, by rw [h2]; rfl, h3⟩

/-- What a push into the exception queue does (R226). -/
theorem Records.of_excPush (x : State) (i : ExcInfo) : Records i x (x.excPush i) := by
  obtain ⟨a, b, h1, h2, h3⟩ := excInsert_split (excRecord x.time.cycle i)
    (x.sash.excq.drop (x.sash.excq.length - x.time.now.recs))
  have hq : x.sash.excq = (x.sash.excq.take (x.sash.excq.length - x.time.now.recs) ++ a) ++ b := by
    rw [List.append_assoc, ← h1, List.take_append_drop]
  have hl : b.length ≤ x.time.now.recs := by
    have := congrArg List.length h1
    rw [List.length_drop, List.length_append] at this
    omega
  unfold State.excPush
  dsimp only
  refine ⟨⟨_, b, ⟨hq, hl, h3⟩, fun h => ?_, fun h => ?_⟩, ?_, ?_⟩
  · rw [if_pos h, h2, ← List.append_assoc]
    exact ⟨rfl, rfl⟩
  · rw [if_neg (by omega), h2, ← List.append_assoc]
    refine ⟨by split <;> rfl, fun hb => ?_⟩
    rw [if_pos]
    subst hb
    rw [List.append_nil] at hq
    rw [← hq, ← h, List.take_left]
  · split
    · rfl
    · split <;> rfl
  · split
    · rfl
    · split <;> rfl

/-- A stopping exception outside handler mode (R224, R226). -/
theorem StopsWith.of_stopExc {s : State} {t : Thread} (hd : doubleFault s t = false) (cause : Nat) (info : Word) :
    StopsWith t (excOf s t cause (s.th t).pc info) s
      ((s.issuedBy t).stopExc t cause 0 info (s.th t).pc) := by
  have h1 : ((s.issuedBy t).stopExc t cause 0 info (s.th t).pc) =
      ((s.issuedBy t).stopped t).excPush
        (excOf s t cause (s.th t).pc info) := by
    unfold State.stopExc
    rw [if_neg]
    · rw [State.th_issued]; rfl
    · simpa [doubleFault, State.issuedBy] using hd
  have h2 : ((s.issuedBy t).stopped t) =
      ((s.issuedBy t).modTh t fun x =>
        { x with state := .stopped, wait := .none, stopAsked := false, pc := (s.th t).pc }) := by
    cases t <;> rfl
  rw [h1, h2]
  exact Records.of_excPush _ _

end Sys2Proof.Machine
end

