-- ==== Sys2Proof/WellFormed.lean ====
section
/-! DEFINITION. Which commands are well formed: what a command of the block's surroundings can carry at all. A
command that is not well formed cannot reach the block (a payload longer than a packet, an offset that is not a
register offset); the meanings are total and answer for every term. -/

namespace Sys2Proof

/-- A packet as a link carries it (13 R289, R291): whole flits, the first and the last of them the header and the trailer
words, and 256 bytes of payload at most. -/
def wireWf (w : Wire) : Bool := decide (w.length % 32 = 0) && decide (64 ≤ w.length) && decide (w.length ≤ 320)

/-- Register offsets are multiples of 8 (14 R335). -/
def offsetWf (off : BitVec 21) : Bool := decide (off.toNat % 8 = 0)

/-- The check on each command. -/
def Instr.wf (i : Instr) : Bool :=
  match i with
  | .casw _ _ _ _ ef words => decide (words.length = ef.toNat % 64 + 1)
  | .blockCompletion _ _ m n _ _ => decide (m < 2 ^ 24) && decide (n < 2 ^ 24)
  | .jbRResponse _ data _ _ => decide (data.length = 256)
  | .rspAck _ w => wireWf w
  | .rspData _ w => wireWf w
  | .sigTerminal _ p => wireWf p.wire
  | .redPartial _ w => wireWf w
  | .redFinal _ w => wireWf w
  | .wrData _ p => wireWf p.wire
  | .rdRead _ w => wireWf w
  | .mgtNull _ w => wireWf w
  | .hello _ w => wireWf w
  | .repoint _ _ _ _ w => wireWf w
  | .mgtReset _ w => wireWf w
  | .hingeRegisterWrite _ off _ => offsetWf off
  | .hingeRegisterRead _ off => offsetWf off
  | _ => true

end Sys2Proof
end

