-- ==== Sys2Proof/Tests/Slice0.lean ====
section
/-! SUPPORT. Tests: the well-formedness checks on ill-formed commands; single commands with results worked out by
hand from the rules that each test names; and for each statement with hypotheses a state and operands that meet them. -/

open Sys2Proof Sys2Proof.Machine

namespace Sys2Proof.Tests

set_option Elab.async false

/-! ### Small states -/

/-- What the next state of a command shows. -/
def after (c : Instr) (s : State) (p : State → Bool) : Bool :=
  match exec c s with
  | .next s' => p s'
  | _ => false

/-- A core behind start-up: every domain on, ACLK running, no Frame. -/
def ready : State :=
  { State.reset with
    boot := { Boot.init with aonRst := false, coreRst := false, stage := 8, lintelDone := true, trimApplied := true,
                             troReady := true },
    pwr := { Power.init with on := BitVec.allOnes 80, shutLat := 0, shutSpare := 0, op := 1, target := 1 },
    clk := { Clocks.init with aclkOn := true }, door := { Doorway.init with held := false } }

/-- A thread at 0x1000 in a state, with two of its registers. -/
def thr (st : TState) (w : Wait) (a b : Word) : ThreadState :=
  { ThreadState.init with state := st, wait := w, pc := 0x1000, regs := [(1, a), (2, b)] }

/-- `ready` with thread F at 0x1000, RUN, s1 = a and s2 = b. -/
def runs (a b : Word) : State := ready.setTh .F (thr .run .none a b)

/-- `s` with a fatal strike that waits at a place. -/
def struckBy (k : Site) (s : State) : State := { s with int := { s.int with strikes := [⟨k, .fatal 0⟩] } }

/-- Does no strike wait in any of the states? -/
def allCalm (ss : List State) : Bool := ss.all fun s => decide (s.int.strikes = [])

/-- `runs` with thread S also RUN, in handler mode or not. -/
def runsS (a b : Word) (handler : Bool) : State :=
  { ready.setTh .S (thr .run .none a b) with sash := { Sash.init with handler := handler } }

/-- A Frame of CTXID 7 with a tensor descriptor table, no optional sections and entry points for F and S. -/
def frame0 : FrameCfg :=
  { ctxid := 7, check := 0, serial := 1, minGrade := 0, dtBase := 0x100000, dtCount := 16, entries := [0x2000, 0, 0, 0x3000],
    evec := 0x4000, step0s := [5, 0, 0, 6], assign := 0xFFFFFFFF,
    regions := [{ base := 0, size := 65536, space := 1, shared := false, save := true, tag := 1 }], mullion := [], latches := [(2, true)],
    fault := FaultCfg.init, doorway := none, power := none, update := none, seed := 0, cycDet := false, journal := false,
    grain := 0, jBase := 0, jSize := 0, tracker := (49152, 16384), digest := 0 }

/-- A LIVE plane whose context has started. -/
def live : Plane := { Plane.init with state := .live, frame := some frame0, started := true }

/-- `s` with plane 0 LIVE and its context started. -/
def withLive (s : State) : State := { s with frame := { s.frame with plane0 := live } }

/-- An FP32 tensor of 2 by 2 elements in the scratchpad at address a. -/
def tile (a : Nat) : Desc :=
  { gen := 3, base := a, fmt := 0, space := 1, rmode := 0, valid := true, lvEn := false, lvBlk := false, scaleSrc := false,
    mxAxis := false, n0 := 2, n1 := 2, n2 := 1, n3 := 1, s1 := 8, s2 := 0, s3 := 0, sb := 0, blkLog2 := 0, maskMode := 0,
    maskFill := false, moff := 0, winEn := false, window := 0, scale := 0, hrun := 0, hstep := 0, hptr := 0, hnf := false,
    href := 0, hist := [] }

/-- A row and a column of 8 INT8 elements. -/
def rowI8 (a : Nat) : Desc := { tile a with fmt := 9, n0 := 1, n1 := 8, s1 := 1 }

/-- An operand of context slot 0. -/
def opnd (h : Nat) (d : Desc) : Opnd := { ctx := 0, handle := h, desc := d }

/-- An entry of thread F in a queue. -/
def entryOf (uid q : Nat) (j : Job) (ph : Phase) : Entry :=
  { uid := uid, stream := .F, ctx := 0, queue := q, iseq := 3, step := 0, latch := none, wseq := 0, job := j, phase := ph,
    status := 0, formed := false, got := [], asked := none, rdWait := 0, wrWait := 0, tagWait := 0, kept := [], out := [], errStatus := 0,
    props := [], commits := [], aborted := false, clip := 0, wrote := [] }

/-- `s` with these entries in its lanes. -/
def withLanes (s : State) (es : List Entry) : State :=
  { s with eng := { s.eng with lanes := es, nextUid := 100 } }

/-- `s` with entry `uid` running on queue q. -/
def onEngine (s : State) (q uid : Nat) : State :=
  s.modEngine q fun g => { g with running := some uid, isOpen := false, everStarted := true }

/-- An UP link to core 2, with a credit in each class. -/
def up : Link :=
  { Link.init with state := .up, gen := 3, peer := 2, rdy := true, en := true,
                   credit := [(0, 4), (1, 4), (2, 4), (3, 4), (4, 4), (5, 4)] }

/-- `s` with link l, on core 1. -/
def withLink (s : State) (l : Nat) (k : Link) : State :=
  { s with door := { s.door with links := SMap.put s.door.links Link.init l k, node := 1 } }

/-- A packet of a class and kind, of core 2 for core d. -/
def pkt (c : Fin 6) (kind : BitVec 4) (d : BitVec 16) (payload : List Byte) : Packet :=
  { cls := c, kind := kind, hops := 0, err := false, dst := d, src := 2, seq := 0, tag := 9, ctxid := 7, h2 := 0, h3 := 0,
    payload := payload }

/-- The bytes of a packet with an empty trailer. -/
def wire (p : Packet) : Wire := packetWire p Trailer.none

/-- A packet whose last byte is damaged. -/
def broken (p : Packet) : Wire := (wire p).dropLast ++ [(wire p).getLastD 0 ^^^ 1]

/-- Does a whole packet without acknowledgement or NAK arrive: the conditions of `Arrives`? -/
def arrives (l : Nat) (w : Wire) (s : State) : Bool :=
  !s.door.held && decide ((s.link l).state = .up) && wireCrcOk w && !wireResv w && decide ((wireTrailer w).ack = none) &&
    decide ((wireTrailer w).nak = none)

/-- A host request of a host that takes responses. -/
def host : HgMeta := { bcast := false, group := 0, id := 5, ready := true }

/-! ### Well-formedness -/

theorem test_wf_casw : (Instr.casw .F 1 2 0 1 [0]).wf = false ∧ (Instr.casw .F 1 2 0 1 [0, 0]).wf = true := by decide

theorem test_wf_block : (Instr.blockCompletion 0 0 (2 ^ 24) 0 0 .clean).wf = false ∧
    (Instr.blockCompletion 0 0 0 (2 ^ 24) 0 .clean).wf = false := by decide

theorem test_wf_read_data : (Instr.jbRResponse 0 [1] 0 .clean).wf = false := by decide

/-- A packet is a whole number of flits, from two to ten (R291). -/
theorem test_wf_wire : ∀ w ∈ [List.replicate 33 (0 : Byte), List.replicate 352 0, []],
    ∀ c ∈ [Instr.rspAck 0 w, .rspData 0 w, .sigTerminal 0 ⟨0, w⟩, .redPartial 0 w, .redFinal 0 w, .wrData 0 ⟨0, w⟩, .rdRead 0 w,
      .mgtNull 0 w, .hello 0 w, .repoint 0 3 2 5 w, .mgtReset 0 w], c.wf = false := by decide +kernel

theorem test_wf_offset : (Instr.hingeRegisterWrite host 4 0).wf = false ∧ (Instr.hingeRegisterRead host 12).wf = false ∧
    (Instr.hingeRegisterRead host 16).wf = true := by decide

/-- No row of the opcode table gives bits, so no word spells a command. -/
theorem test_no_word_decodes : decodeTableWord 32 0xFFFFFFFF = none := by decide

/-! ### Words (spec/09 R204, R205; spec/13 R291, R293) -/

/-- Words written out from the formats of R204 and the majors of R205: ADDI s3, s1, -1; SUB s3, s1, s2; FMA s3, s1, s2, s4;
BEQ s1, s2, -1; JAL 2; CSRR s3, 0xF; LSIG 47; LAT.MM s3, s4, LAT 63, EF 0x80; and a zero word, which is none. -/
theorem test_words :
    sashCommand .F 0b000010_00011_00001_1111111111111111#32 [] = some (.addi .F 3 1 0xFFFF) ∧
    sashCommand .F 0b000001_00011_00001_00010_00000000001#32 [] = some (.op .F 3 1 2 1 .clean) ∧
    sashCommand .F 0b001011_00011_00001_00010_00100_000101#32 [] = some (.fp .F 3 1 2 4 5 .clean) ∧
    sashCommand .F 0b100000_00001_00010_1111111111111111#32 [] = some (.beq .F 1 2 0xFFFF) ∧
    sashCommand .F 0b100110_00000000000000000000000010#32 [] = some (.jal .F 2) ∧
    sashCommand .F 0b101000_00011_00000_0000_000000001111#32 [] = some (.csrr .F 3 0 15) ∧
    sashCommand .F 0b101001_00000_00000_0000_101111_000000#32 [] = some (.lsig .F 0 0 47 0 .clean) ∧
    sashCommand .F 0b110000_00011_00100_111111_0010000000#32 [] = some (.latMM .F 3 4 63 0x80) ∧
    sashCommand .F 0 [] = none ∧ sashCommand .F 0b101000_00000_00000_1111_000000000000#32 [] = none := by decide +kernel

/-- A word that spells an instruction is left to that instruction's row; a reserved one raises ILLEGAL (R205). -/
theorem test_illegal :
    after (.illegalInstruction .F 0) (runs 0 0) (fun s => decide (s.sash.excq.map (fun r => r.w0.toNat % 256) = [1])) ∧
    after (.illegalInstruction .F 0x08000000) (runs 0 0) (fun s => decide (s.sash.excq = [] ∧ (s.th .F).state = .run)) := by
  decide +kernel

/-- CRC-32C of the digits 1 to 9 is 0xE3069283 (R293). -/
theorem test_crc : crc32c [0x31, 0x32, 0x33, 0x34, 0x35, 0x36, 0x37, 0x38, 0x39] = 0xE3069283 := by decide +kernel

set_option maxRecDepth 100000 in
/-- The header of a WR packet with 8 bytes of payload: CLASS 3, PLEN 8, DST 1, SRC 2, TAG 9, CTXID 7 (R291), and its CRC. -/
theorem test_wire : (wire (pkt 3 0 1 [1, 0, 0, 0, 2, 0, 0, 0])).take 16 =
      [0x03, 0x08, 0, 0, 1, 0, 2, 0, 0, 0, 9, 0, 7, 0, 0, 0] ∧
    (wire (pkt 3 0 1 [1, 0, 0, 0, 2, 0, 0, 0])).length = 96 ∧ wireCrcOk (wire (pkt 3 0 1 [1, 0, 0, 0, 2, 0, 0, 0])) = true ∧
    wireResv (wire (pkt 3 0 1 [1, 0, 0, 0, 2, 0, 0, 0])) = false ∧ wireCrcOk (broken (pkt 3 0 1 [])) = false ∧
    wireResv (wire (pkt 3 1 1 [])) = true ∧ wireResv (wire { pkt 0 0 1 [] with h2 := 1 }) = true ∧
    wirePacket (wire (pkt 3 0 1 [1, 0, 0, 0, 2, 0, 0, 0])) = pkt 3 0 1 [1, 0, 0, 0, 2, 0, 0, 0] := by decide +kernel

/-! ### Scalar instructions (spec/09) -/

/-- ADDI wraps; ANDI zero-extends and SLTI sign-extends its immediate (R207). -/
theorem test_immediates :
    after (.addi .F 3 1 0xFFFF) (runs 0 0) (fun s => decide (s.reg .F 3 = 0xFFFFFFFFFFFFFFFF ∧ (s.th .F).pc = 0x1004)) ∧
    after (.andi .F 3 1 0xFFFF) (runs 0x123456789ABCDEF0 0) (fun s => decide (s.reg .F 3 = 0xDEF0)) ∧
    after (.slti .F 3 1 0xFFFF) (runs 0xFFFFFFFFFFFFFFFE 0) (fun s => decide (s.reg .F 3 = 1)) ∧
    after (.sltiu .F 3 1 0xFFFF) (runs 5 0) (fun s => decide (s.reg .F 3 = 1)) := by decide +kernel

theorem test_shifts_and_moves :
    after (.shi .F 3 1 0x84) (runs 0x8000000000000000 0) (fun s => decide (s.reg .F 3 = 0xF800000000000000)) ∧
    after (.shi .F 3 1 0x44) (runs 0x8000000000000000 0) (fun s => decide (s.reg .F 3 = 0x0800000000000000)) ∧
    after (.movi .F 3 0 0x8000) (runs 0 0) (fun s => decide (s.reg .F 3 = 0xFFFFFFFFFFFF8000)) ∧
    after (.ins16 .F 1 2 0xABCD) (runs 0x1111222233334444 0) (fun s => decide (s.reg .F 1 = 0x1111ABCD33334444)) := by
  decide +kernel

/-- A write of s0 is discarded (R193), and the pc moves on. -/
theorem test_s0_discards :
    after (.addi .F 0 1 1) (runs 7 0) (fun s => decide (s.reg .F 0 = 0 ∧ (s.th .F).pc = 0x1004)) := by decide +kernel

/-- Division by zero gives all ones and its remainder the dividend; the most negative number over -1 wraps (R206). -/
theorem test_division :
    after (.op .F 3 1 2 0x0D .clean) (runs 9 0) (fun s => decide (s.reg .F 3 = 0xFFFFFFFFFFFFFFFF)) ∧
    after (.op .F 3 1 2 0x0F .clean) (runs 9 0) (fun s => decide (s.reg .F 3 = 9)) ∧
    after (.op .F 3 1 2 0x0D .clean) (runs 0x8000000000000000 0xFFFFFFFFFFFFFFFF)
      (fun s => decide (s.reg .F 3 = 0x8000000000000000)) ∧
    after (.op .F 3 1 2 0x0C .clean) (runs 0xFFFFFFFFFFFFFFFF 2) (fun s => decide (s.reg .F 3 = 0xFFFFFFFFFFFFFFFF)) := by
  decide +kernel

theorem witness_ImmediateInstructions : ((runs 1 2).th .F).state = .run ∧ doubleFault (runs 1 2) .F = false ∧
    (0x00C0 : BitVec 16).toNat / 256 = 0 ∧ (0x00C0 : BitVec 16).toNat / 64 % 4 = 3 ∧ (0x00BF : BitVec 16).toNat / 64 % 4 = 2 ∧
    (0x007F : BitVec 16).toNat / 64 % 4 = 1 ∧ (0x003F : BitVec 16).toNat / 64 % 4 = 0 ∧ (0x0100 : BitVec 16).toNat / 256 ≠ 0 ∧
    4 ≤ (4 : Reg).val := by decide

theorem witness_OpResults : ((runs 1 2).th .F).state = .run ∧ doubleFault (runs 1 2) .F = false ∧
    (0x14 : BitVec 11).toNat ≤ 0x14 ∧ 0x14 < (0x15 : BitVec 11).toNat := by decide

/-- A command whose comparison passes. -/
theorem witness_clean : ∀ d, Upset.clean ≠ .fatal d := by intro d h; cases h

theorem witness_calm : (runs 1 2).calm := rfl

theorem witness_ReservedEncodings : ((runs 1 2).th .F).state = .run ∧ doubleFault (runs 1 2) .F = false ∧
    3 < (4 : BitVec 6).toNat ∧ (3 : Reg) ≠ 0 ∧ (0x0B ≤ 0x3F ∧ 0x28 ≤ 0x3F) ∧
    48 ≤ (48 : BitVec 6).toNat ∧ 11 ≤ (11 : BitVec 6).toNat ∧ (11 : BitVec 6).toNat ≠ 15 ∧
    (0x08000000 : BitVec 32).toNat / 2 ^ 26 = 2 ∧ (0xA400F000 : BitVec 32).toNat / 2 ^ 26 = 0x29 ∧
    (0xA4005000 : BitVec 32).toNat / 2 ^ 12 % 16 ≤ 5 ∧ 6 ≤ (0xA4006000 : BitVec 32).toNat / 2 ^ 12 % 16 ∧
    (0xA000F000 : BitVec 32).toNat / 2 ^ 12 % 16 = 15 := by decide +kernel

/-- 1 + 2 = 3, and 1 / 0 is an infinity (R208). -/
theorem test_fp :
    after (.fp .F 3 1 2 0 0 .clean) (runs 0x3FF0000000000000 0x4000000000000000)
      (fun s => decide (s.reg .F 3 = 0x4008000000000000 ∧ (s.th .F).fflags = 0)) ∧
    after (.fp .F 3 1 2 0 3 .clean) (runs 0x3FF0000000000000 0)
      (fun s => decide (s.reg .F 3 = 0x7FF0000000000000 ∧ (s.th .F).fflags ≠ 0)) := by decide +kernel

theorem witness_FpInstructions : ((runs 1 2).th .F).state = .run ∧
    fpResult (0 : BitVec 6).toNat 0 ((runs 0x3FF0000000000000 0).reg .F 1) 0 0 = some (0x3FF0000000000000, noFlags) ∧
    flags4 noFlags &&& (runs 1 2).alarmMask = 0 := by decide +kernel

theorem witness_FpDouble : (val64 0x7FF8000000000000).isNan = true ∧ (3 : Reg).val < 4 ∧
    (0x43E0000000000000 : Word).toNat ≤ 0x7FF0000000000000 ∧ 0xC3E0000000000000 < (0xC3E0000000000001 : Word).toNat ∧
    (0xC3E0000000000001 : Word).toNat ≤ 0xFFF0000000000000 ∧
    (val64 1).isZero = false ∧ (1 : Word).toNat / 2 ^ 52 % 2 ^ 11 ≠ 0x7FF ∧ 2 ^ 63 < (0x8000000000000001 : Word).toNat ∧
    (0x8000000000000000 : Word).toNat = 2 ^ 63 := by decide +kernel

theorem witness_FpSingle : (lFP32.decode 0x7FC00000).isNan = true ∧ (lFP32.decode 1).isZero = false ∧ 1 / 2 ^ 23 % 2 ^ 8 ≠ 0xFF ∧
    2 ^ 31 < 0x80000001 ∧ 0x80000001 ≤ 0xFF800000 ∧ 0x5F000000 ≤ 0x7F800000 ∧ 0xDF000000 < 0xDF000001 := by decide +kernel

/-- 1 / 3 is rounded to nearest, in FP64 and in FP32; -1 over -0 is an infinity; FCVT.LS saturates (R208). -/
theorem test_fp_more :
    after (.fp .F 3 1 2 0 3 .clean) (runs 0x3FF0000000000000 0x4008000000000000) (fun s => decide
      (s.reg .F 3 = 0x3FD5555555555555)) ∧
    after (.fp .F 3 1 2 0 0x13 .clean) (runs 0x3F800000 0x40400000) (fun s => decide (s.reg .F 3 = 0x3EAAAAAB)) ∧
    after (.fp .F 3 1 2 0 0x13 .clean) (runs 0xBF800000 0x80000000) (fun s => decide (s.reg .F 3 = 0x7F800000)) ∧
    after (.fp .F 3 1 2 0 0x25 .clean) (runs 0xFF800000 0) (fun s => decide (s.reg .F 3 = 0x8000000000000000)) := by
  decide +kernel

theorem witness_DataAccessRules : (0x44818 : Word).toNat % 8 = 0 ∧ (0x44817 : Word).toNat % 8 ≠ 0 ∧
    (0x40000 : Word).toNat % 8 = 0 ∧ (0x44810 : Word).toNat < 0x44818 ∧ (0x30000 : Word).toNat % 8 = 0 ∧
    (0x3FFF8 : Word).toNat < 0x40000 ∧ (0x2FFF8 : Word).toNat < 0x30000 ∧ (0x2FFF8 : Word).toNat / 0xC000 = 3 := by decide

/-- `runs` with four bytes in the shared window. -/
def withBytes (a b : Word) : State :=
  { runs a b with sash := { Sash.init with dmem := [(0x30000, 0x80), (0x30001, 0x01), (0x30007, 0xFF)] } }

/-- Loads are little-endian, LB extends the sign, and LBU does not (R209). -/
theorem test_loads :
    after (.lb .F 3 1 0 .clean) (withBytes 0x30000 0) (fun s => decide (s.reg .F 3 = 0xFFFFFFFFFFFFFF80)) ∧
    after (.lhu .F 3 1 0 .clean) (withBytes 0x30000 0) (fun s => decide (s.reg .F 3 = 0x0180)) ∧
    after (.ld .F 3 1 0 .clean) (withBytes 0x30000 0) (fun s => decide (s.reg .F 3 = 0xFF00000000000180)) := by
  decide +kernel

/-- SW stores four bytes and leaves the fifth; a misaligned one stops with cause 0x02 (R200, R209). -/
theorem test_stores :
    after (.sw .F 2 1 0 .clean) (withBytes 0x30000 0x1122334455667788) (fun s => decide
      (Mem.num s.sash.dmem 0x30000 4 = 0x55667788 ∧ Mem.num s.sash.dmem 0x30007 1 = 0xFF)) ∧
    after (.sw .F 2 1 1 .clean) (withBytes 0x30000 0) (fun s => decide
      ((s.th .F).state = .stopped ∧ s.sash.excq.map (fun r => r.w0.toNat % 256) = [2])) := by decide +kernel

theorem witness_Accesses : ((withBytes 0x30000 0).th .F).state = .run ∧ doubleFault (withBytes 0x30000 0) .F = false ∧
    (∀ n ∈ [1, 2, 4, 8], dataCause .F ((withBytes 0x30000 0).reg .F 1 + (0 : BitVec 16).signExtend 64) n false = none ∧
      dataCause .F ((withBytes 0x30000 0).reg .F 1 + (0 : BitVec 16).signExtend 64) n true = none ∧
      dataCause .F ((runs 0x44818 0).reg .F 1 + (0 : BitVec 16).signExtend 64) n true = some 0x03 ∧
      dataCause .F ((runs 0x44818 0).reg .F 1 + (0 : BitVec 16).signExtend 64) n false = some 0x03) := by decide +kernel

/-- AMO.ADD gives the old word and stores the sum (R210). -/
theorem test_amo :
    after (.amo .F 3 1 2 0 0) (withBytes 0x30000 1) (fun s => decide
      (s.reg .F 3 = 0xFF00000000000180 ∧ Mem.num s.sash.dmem 0x30000 8 = 0xFF00000000000181)) ∧
    after (.amo .F 3 1 2 0 0) (runs 0x40000 1) (fun s => decide (s.sash.excq.map (fun r => r.w0.toNat % 256) = [3])) := by
  decide +kernel

theorem witness_AmoInstruction : ((runs 0x3FFF8 0).th .F).state = .run ∧ (3 : BitVec 6).toNat ≤ 3 ∧
    0x30000 ≤ ((runs 0x3FFF8 0).reg .F 1).toNat ∧ ((runs 0x3FFF8 0).reg .F 1).toNat < 0x40000 ∧
    ((runs 0x3FFF8 0).reg .F 1).toNat % 8 = 0 ∧ ((runs 0x30000 0).reg .F 1).toNat = 0x30000 ∧
    ((runs 0x3FFF9 0).reg .F 1).toNat % 8 ≠ 0 ∧ ((runs 0x40000 0).reg .F 1).toNat % 8 = 0 ∧ doubleFault (runs 0 0) .F = false ∧
    3 < (4 : BitVec 6).toNat := by decide

theorem witness_MemoryInstructions : ((runs 0xFFFFFFFFFFF8 0).th .F).state = .run ∧ doubleFault (runs 0 0) .F = false ∧
    ((runs 0xFFFFFFFFFFF8 0).reg .F 1).toNat % 8 = 0 ∧ ((runs 0xFFFFFFFFFFF8 0).reg .F 1).toNat < 2 ^ 48 ∧
    ((runs 0 0).th .F).mstOut = 0 ∧ (((runs 0 0).modTh .F fun x => { x with mstOut := 1 }).th .F).mstOut ≠ 0 ∧
    2 ^ 48 ≤ ((runs 0x1000000000000 0).reg .F 1).toNat := by decide

/-- MLD asks for the sector that holds its 8 bytes and waits (R211). -/
theorem test_mld :
    after (.mld .F 3 1 0) (runs 0x1FE8 0) (fun s => decide ((s.th .F).state = .memory ∧
      s.jamb.reqs.map (fun r => (r.block, r.smask)) = [(0x1F, 0x80)])) := by decide +kernel

/-- A branch back by one word; JAL links to s31 (R212). -/
theorem test_jumps :
    after (.beq .F 1 2 0xFFFF) (runs 5 5) (fun s => decide ((s.th .F).pc = 0x0FFC)) ∧
    after (.bltu .F 1 2 4) (runs 0xFFFFFFFFFFFFFFFF 1) (fun s => decide ((s.th .F).pc = 0x1004)) ∧
    after (.jal .F 2) (runs 0 0) (fun s => decide ((s.th .F).pc = 0x1008 ∧ s.reg .F 31 = 0x1004)) ∧
    after (.jalr .F 3 1 0) (runs 0x2003 0) (fun s => decide ((s.th .F).pc = 0x2000 ∧ s.reg .F 3 = 0x1004)) := by decide +kernel

theorem witness_ControlTransfers : ((runs 0 0).th .F).state = .run ∧ doubleFault (runs 0 0) .F = false ∧
    (((runs 0 0).th .F).pc.zeroExtend 64 + 4 * (0x8000 : BitVec 16).signExtend 64 : Word).toNat ≥ 2 ^ 48 ∧
    (((runs 0 0).th .F).pc.zeroExtend 64 + 4 * (0x7FFF : BitVec 16).signExtend 64 : Word).toNat < 2 ^ 48 ∧
    (((runs 0 0).th .F).pc.zeroExtend 64 + 4 * (0x1FFFFFF : BitVec 26).signExtend 64 : Word).toNat < 2 ^ 48 ∧
    (((runs 0 0).th .F).pc.zeroExtend 64 + 4 * (0x2000000 : BitVec 26).signExtend 64 : Word).toNat ≥ 2 ^ 48 ∧
    (((runs 0 0).reg .F 1 + (0xFFFF : BitVec 16).signExtend 64) &&& ~~~3 : Word).toNat ≥ 2 ^ 48 ∧
    (((runs 0 0).reg .F 1 + (0x7FFF : BitVec 16).signExtend 64) &&& ~~~3 : Word).toNat < 2 ^ 48 := by decide

theorem witness_CsrAccess : ((runsS 1 0 false).th .S).state = .run ∧ doubleFault (runsS 1 0 false) .S = false ∧
    (∀ n : BitVec 12, n = 0x46 → n.toNat ≤ 0x48 ∧ 0x40 ≤ n.toNat) ∧ ¬((0x49 : BitVec 12).toNat ≤ 0x48) ∧
    ¬((0x07 : BitVec 12).toNat ≤ 6) ∧ (0x2A : BitVec 12).toNat ≤ 0x2A := by
  refine ⟨by decide, by decide, ?_, by decide, by decide, by decide⟩
  intro n h; subst h; decide

/-- CSRR of FFLAGS gives the old value, CSRS adds bits; FFLAGS read by F (R214). -/
theorem test_csr :
    after (.csrs .F 3 1 6) ((runs 0x11 0).modTh .F fun x => { x with fflags := 2 }) (fun s => decide
      (s.reg .F 3 = 2 ∧ (s.th .F).fflags = 0x13)) ∧
    after (.csrr .F 3 0 0x00F) (runs 0 0) (fun s => decide (s.reg .F 3 = 0x000059A10B4C0302)) ∧
    after (.csrw .F 0 1 0x001) (runs 1 0) (fun s => decide ((s.th .F).state = .stopped)) := by decide +kernel

theorem witness_LockstepHalts : ((struckBy .sash (runs 1 2)).th .F).state = .run ∧
    (struckBy .sash (runs 1 2)).upsetAt .sash = .fatal 0 := by decide +kernel

theorem witness_TrapsAndDoubleFaults : ((runs 0 0).th .F).state = .run ∧ doubleFault (runs 0 0) .F = false ∧
    (runsS 0 0 true).s.state = .run ∧ (runsS 0 0 true).sash.handler = true := by decide

/-- TRAP stops its thread behind itself, with its code as INFO and the next address as EXC1 (R213, R224). -/
theorem test_trap :
    after (.trap .F 0 0 0x123) (runs 0 0) (fun s => decide ((s.th .F).state = .stopped ∧ (s.th .F).pc = 0x1004 ∧
      s.sash.excq.map (fun r => (r.w0.toNat % 256, r.w1, r.w2)) = [(8, 0x1004, 0x123)])) ∧
    after (.trap .S 0 0 1) (runsS 0 0 true) (fun s => decide (s.s.state = .halted)) := by decide +kernel

/-! ### System, latch and queue instructions (spec/09, spec/11) -/

/-- A context in the other slot that F has not ended and that starts it. -/
def twoLive : State := { runs 0 0 with frame := { FrameUnit.init with plane1 := live } }

theorem witness_TendInstruction : allCalm [runs 0 0, twoLive, ready.setTh .F (thr .queue .tend 0 0)] = true ∧
    ((runs 0 0).eng.lanes.any (fun e => decide (e.stream = .F)) = false ∧ ((runs 0 0).th .F).posts = []) ∧
    ((runs 0 0).th .F).state = .run ∧ (runs 0 0).nextContext .F ((runs 0 0).th .F).ctx = none ∧
    (((runs 0 0).setTh .F { (runs 0 0).th .F with state := .idle, ended := [0] }).allEnded 0 = false) ∧
    twoLive.nextContext .F (twoLive.th .F).ctx = some frame0 ∧ twoLive.savedOf 1 .F = none ∧ (twoLive.th .F).ctx ≤ 1 ∧
    ¬((withLanes (runs 0 0) [entryOf 1 8 (.qsig 0) .queued]).eng.lanes.any (fun e => decide (e.stream = .F)) = false) ∧
    ((ready.setTh .F (thr .queue .tend 0 0)).th .F).wait = .tend := by decide +kernel

/-- TEND goes to the other context: its entry point, its STEPNO, WSEQ 0 (R197). -/
theorem test_tend : after (.tend .F 0 0 0) twoLive (fun s => decide
    ((s.th .F).ctx = 1 ∧ (s.th .F).pc = 0x2000 ∧ (s.th .F).stepno = 5)) := by decide +kernel

theorem witness_ThreadControl : allCalm [runsS 0x2000 0 true, runsS 0x2000 0 false, runs 0 0] = true ∧
    (runsS 0x2000 0 true).s.state = .run ∧ (runsS 0 0 true).sash.epc = 0 ∧
    ({ runsS 0 0 true with sash := { Sash.init with handler := true, epc := 0x5000 } } : State).sash.epc ≠ 0 ∧
    ((runsS 0x2000 0 false).th (threadOf 0)).state = .idle ∧ ((runsS 0x2000 0 false).reg .S 1).toNat % 4 = 0 ∧
    ((runsS 0x2000 0 false).reg .S 1).toNat < 2 ^ 48 ∧ 2 ^ 48 ≤ ((runsS 0x1000000000000 0 false).reg .S 1).toNat ∧
    (((runsS 0 0 false).setTh .F (thr .latch (.latch 0) 0 0)).th (threadOf 0)).state ≠ .idle ∧
    (((runsS 0 0 false).setTh .F (thr .run .none 0 0)).th (threadOf 0)).state = .run ∧ threadOf 0 ≠ .S ∧ threadOf 3 = .S ∧
    ((runs 0 0).th .F).state = .run ∧ doubleFault (runs 0 0) .F = false := by decide +kernel

/-- TSTART of an IDLE thread writes 0 and starts it; a bad address gives 2 (R213). -/
theorem test_tstart :
    after (.tstart .S 3 1 0) (runsS 0x2000 0 false) (fun s => decide
      (s.reg .S 3 = 0 ∧ (s.th .F).pc = 0x2000 ∧ (s.th .F).state ≠ .idle)) ∧
    after (.tstart .S 3 1 0) (runsS 0x2001 0 false) (fun s => decide (s.reg .S 3 = 2 ∧ (s.th .F).state = .idle)) := by
  decide +kernel

/-- `runs` with the descriptor `tile 0` in the cache as handle 4 of slot 0. -/
def cached (dirty : Bool) (a b : Word) : State :=
  { withLive (runs a b) with dcache := [{ ctx := 0, handle := 4, desc := tile 0, dirty := dirty }] }

/-- An accumulator whose residue does not match its values. -/
def unsound : State := (runs 0 0).setAccum 0 31 { Accum.init with resid := 1 }

theorem witness_FencesAndFlushes : allCalm [cached true 4 0, unsound] = true ∧ ((cached true 4 0).th .F).state = .run ∧
    (31 : BitVec 12).toNat < 32 ∧ ((cached true 4 0).accum 0 31).sound = true ∧ (unsound.accum 0 31).sound = false ∧
    (unsound.th .F).state = .run ∧
    32 ≤ (32 : BitVec 12).toNat ∧ doubleFault (cached true 4 0) .F = false ∧
    ((cached true 4 0).reg .F 1).toNat % 2 ^ 20 = 4 ∧ ((cached true 4 0).dcFind 0 4).map (fun e => e.dirty) = some true ∧
    ((cached false 4 0).dcFind 0 4).map (fun e => e.dirty) = some false ∧ (cached false 4 0).dcFind 0 5 = none ∧
    (cached false 4 0).wbPending 0 (some 4) = false := by decide +kernel

/-- DFL of a dirty descriptor writes its 64 bytes back (R60, R73). -/
theorem test_dfl : after (.dfl .F 0 1 0) (cached true 4 0) (fun s => decide
    (s.dcache = [] ∧ (s.jamb.reqs.map fun r => r.cells.length).sum = 64 ∧ (s.th .F).state = .memory)) := by decide +kernel

/-- A thread with four open posts. -/
def post0 : Post :=
  { seq := 1, step := 0, ctx := 0, ctxid := 7, lastIseq := 0, first := 0, firstIseq := 0, nbad := 0, waiting := [], stage := 0,
    cycle := 0, memErr := false, addr := none, digest := 0, entries := 0, digs := [] }

theorem witness_StepAdvance : allCalm [runs 0 0, ready.setTh .F (thr .queue .post 0 0)] = true ∧ ((runs 0 0).th .F).state = .run ∧
    ((withLanes (runs 0 0) [entryOf 1 8 (.qsig 0) .queued]).eng.lanes.filter fun e => e.stream = .F) ≠ [] ∧
    (post0.stage ≠ 3 ∧ ({ post0 with waiting := [1] } : Post).waiting ≠ []) ∧ (runs 0 0).eng.lanes = [] ∧
    ((runs 0 0).th .F).posts = [] ∧ (runs 0 0).hinge.mboxEn = false ∧ (runs 0 0).journals 0 = false ∧
    (runs 0 0).journalPending .F = false ∧ (runs 0 0).replayStop .F = false ∧
    ((runs 0 0).th .F).posts.length < 4 ∧
    4 ≤ (((runs 0 0).modTh .F fun x => { x with posts := [post0, post0, post0, post0] }).th .F).posts.length ∧
    (((ready.setTh .F (thr .queue .post 0 0)).modTh .F fun x => { x with posts := [post0, post0, post0] }).th .F).posts.length < 4 := by
  decide +kernel

/-- SADV counts the step and clears WSEQ (R213). -/
theorem test_sadv : after (.sadv .F 0 0 0) ((runs 0 0).modTh .F fun x => { x with wseq := 9, stepno := 0xFFFFFFFF })
    (fun s => decide ((s.th .F).stepno = 0 ∧ (s.th .F).wseq = 0 ∧ (s.th .F).seq = 1)) := by decide +kernel

/-- A core with a record in its exception queue. -/
def excepted : State :=
  { runsS 0 0 false with sash := { Sash.init with evec := 0x4000, excq := [{ w0 := 8, w1 := 0, w2 := 0, w3 := 0 }] } }

theorem witness_HandlerEntry : excepted.clk.aclkOn = true ∧ excepted.lt.hatchActive = false ∧ excepted.sash.evec ≠ 0 ∧ excepted.sash.excq ≠ [] ∧
    excepted.sash.handler = false ∧ excepted.s.state = .run ∧ ready.sash.evec = 0 ∧
    (excepted.setTh .S (thr .idle .none 0 0)).s.state = .idle ∧ (runsS 0 0 true).sash.handler = true := by decide

/-- Handler entry saves the pc in EPC (R225). -/
theorem test_handler_entry : after .handlerEntry excepted (fun s => decide
    (s.sash.handler = true ∧ s.s.pc = 0x4000 ∧ s.sash.epc = 0x1000)) := by decide +kernel

/-- `runs` with latch k of slot 0 at a count. -/
def latched (k : Nat) (v : BitVec 8) (s : State) : State := { s with latch := { s.latch with counts := SMap.put s.latch.counts 0 k v } }

/-- The waiting thread of `witness_LatchInstructions`, in the state in which a replay is up to date. -/
def latchWaiter : State := (latched 47 1 (ready.setTh .F (thr .latch (.latch 47) 0 0))).signalsAhead

theorem witness_LatchInstructions : allCalm [runs 0 0, latched 47 254 (runs 0 0), latchWaiter] = true ∧ (47 : BitVec 6).toNat < 48 ∧ (runs 0 0).rpl.active = false ∧
    ((latched 47 254 (runs 0 0)).signalsAhead.th .F).ctx < 2 ∧ ((latched 47 254 (runs 0 0)).th .F).state = .run ∧
    (latched 47 254 (runs 0 0)).signalsAhead.latchCount 0 47 ≠ 255 ∧
    (latched 47 1 (runs 0 0)).signalsAhead.latchCount 0 47 ≠ 0 ∧ (runs 0 0).signalsAhead.latchCount 0 47 = 0 ∧
    latchWaiter.clk.aclkOn = true ∧ (latchWaiter.th .F).state = .latch ∧ (latchWaiter.th .F).wait = .latch 47 ∧
    (latchWaiter.th .F).ctx < 2 ∧ latchWaiter.latchCount 0 47 ≠ 0 ∧ latchWaiter.firstWaiter .F = true := by decide +kernel

/-- LSIG counts up, LTRY takes one, LWAIT without a count waits (R221). -/
theorem test_latches :
    after (.lsig .F 0 0 5 0 .clean) (latched 5 254 (runs 0 0)) (fun s => decide (s.latchCount 0 5 = 255)) ∧
    after (.ltry .F 3 0 5 0) (latched 5 2 (runs 0 0)) (fun s => decide (s.latchCount 0 5 = 1 ∧ s.reg .F 3 = 1)) ∧
    after (.lwait .F 0 0 5 0) (runs 0 0) (fun s => decide ((s.th .F).state = .latch ∧ (s.th .F).pc = 0x1000)) := by decide +kernel

theorem witness_LatchOverflow : allCalm [latched 0 255 (runs 0 0)] = true ∧ (0 : BitVec 6).toNat < 48 ∧ ((latched 0 255 (runs 0 0)).signalsAhead.th .F).ctx < 2 ∧
    ((latched 0 255 (runs 0 0)).th .F).state = .run ∧ ((latched 0 255 (runs 0 0)).signalsAhead.th .F).state = .run ∧
    (latched 0 255 (runs 0 0)).signalsAhead.latchCount 0 0 = 255 ∧
    (latched 0 255 (runs 0 0)).frame.fault.latchPol = 0 ∧ (runs 0 0).sash.excq.length < 16 ∧
    16 ≤ ({ runs 0 0 with sash := { Sash.init with excq := List.replicate 16 ⟨0, 0, 0, 0⟩ } } : State).sash.excq.length ∧
    ({ runs 0 0 with frame := { FrameUnit.init with fault := { FaultCfg.init with latchPol := 1 } } } : State).frame.fault.latchPol = 1 := by
  decide +kernel

/-- The plan of QSIG K = 1 on the Casement queue, and a lane of 16 that is full. -/
def planQ : Plan := { job := .qsig 1, queue := 8, writes := 0, rd := 0, latch := none, tensor := false, bytes := 4 }

/-- `s` with a full Casement lane of F. -/
def fullLane (s : State) : State := withLanes s ((List.range 16).map fun i => entryOf i 8 (.qsig 0) .queued)

theorem witness_QueueInstructions : allCalm [runs 0 0, fullLane (runs 0 0), ready.setTh .F (thr .queue (.queue none) 0 0)] = true ∧
    ((runs 0 0).th .F).state = .run ∧ (47 : BitVec 6).toNat < 48 ∧ (10 : BitVec 6).toNat < 11 ∧
    (runs 0 0).planRoom .F planQ = true ∧ (fullLane (runs 0 0)).planRoom .F planQ = false ∧ ((runs 0 0).th .F).stopAsked = false ∧
    (runs 0 0).queueEmpty .F none = true ∧ (fullLane (runs 0 0)).queueEmpty .F (some 8) = false ∧
    ((ready.setTh .F (thr .queue (.queue none) 0 0)).th .F).wait = .queue none ∧
    (ready.setTh .F (thr .queue (.queue none) 0 0)).queueEmpty .F none = true ∧
    ((ready.setTh .F (thr .queue (.lane planQ) 0 0)).th .F).wait = .lane planQ ∧
    (ready.setTh .F (thr .queue (.lane planQ) 0 0)).planRoom .F planQ = true ∧ planQ.tensor = false := by decide +kernel

theorem test_qsig :
    after (.qsig .F 0 0 1 8) (runs 0 0) (fun s => decide (s.eng.lanes.map (fun e => (e.job, e.queue)) = [(.qsig 1, 8)])) ∧
    after (.qwait .F 0 0 0 8) (fullLane (runs 0 0)) (fun s => decide ((s.th .F).state = .queue)) := by decide +kernel

/-! ### Tensor instructions (spec/09) -/

/-- A core with three tensors: handle 4 an INT8 row, 5 an INT8 row and 6, 7 FP32 tiles. Thread F names them in s4, s5, s6;
s8 and s9 name the tiles, s10 nothing. -/
def tensors (d : TState) : State :=
  let s : State := withLive (ready.setTh .F { ThreadState.init with
    state := d, pc := 0x1000, regs := [(4, 4), (5, 5), (6, 6), (8, 6), (9, 7), (10, 99)] })
  { s with
    frame := { s.frame with assign := 0xFFFFFF00 },
    dcache := [{ ctx := 0, handle := 4, desc := { tile 0 with fmt := 9, n0 := 8, n1 := 1 }, dirty := false },
               { ctx := 0, handle := 5, desc := { tile 64 with fmt := 9, n0 := 1, n1 := 8, s1 := 1 }, dirty := false },
               { ctx := 0, handle := 6, desc := { tile 128 with n0 := 1, n1 := 1 }, dirty := false },
               { ctx := 0, handle := 7, desc := { tile 256 with n0 := 1, n1 := 1 }, dirty := false }] }

/-- Does the issue of `i` by F meet every hypothesis of `TensorIssueAccepted`? -/
def accepted (s : State) (i : Issue) : Bool :=
  let r := resolvedAtT s i
  allCalm [s] && decide ((s.th .F).state = .run) && decide (i.illegal = false) && decide (r.2.2 = none) &&
  decide (((fetchedAtF s i).th .F).state = .run) && decide (r.1.issuePre .F { i with resolved := r.2.1 } = none) &&
  match r.1.issueOwn .F { i with resolved := r.2.1 } with
  | .ok (p, _) => r.1.planRoom .F p
  | .error _ => false
where
  fetchedAtF (s : State) (i : Issue) : State := (s.issuedBy .F).fetchWords .F i
  resolvedAtT (s : State) (i : Issue) : State × (List (Option Opnd) × Option Resolution) :=
    let z := fetchedAtF s i
    z.resolveAll .F (z.handles .F i) [] ((z.handles .F i).length + 1)

theorem witness_TensorIssueAccepted :
    accepted (tensors .run) (issueOf .latMM 3 4 0 0 []) = true ∧ accepted (tensors .run) (issueOf .copy 3 8 0 0 []) = true ∧
    accepted (tensors .run) (issueOf .trn 3 8 63 0 []) = true ∧ accepted (tensors .run) (issueOf .trn 3 8 47 1 []) = true ∧
    ((accepted.fetchedAtF (tensors .run) (issueOf .casw 3 4 63 1 [0, 0])).th .F).state ≠ .run := by decide +kernel

/-- Does the issue meet the hypotheses of `TensorIssueRefused` with the status? -/
def refusedWith (s : State) (i : Issue) (st : Nat) : Bool :=
  let r := accepted.resolvedAtT s i
  let j := { i with resolved := r.2.1 }
  allCalm [s] && decide ((s.th .F).state = .run) && decide (((accepted.fetchedAtF s i).th .F).state = .run) &&
  decide (i.illegal = false) && (decide (r.2.2 = some (.bad st)) || (decide (r.2.2 = none) && (decide (r.1.issuePre .F j = some st) ||
    (decide (r.1.issuePre .F j = none) && match r.1.issueOwn .F j with
      | .error x => decide (x = st)
      | .ok _ => false))))

theorem witness_TensorIssueRefused :
    refusedWith (tensors .run) (issueOf .ssq 3 10 0 0 []) 1 = true ∧
    refusedWith (tensors .run) (issueOf .latMM 3 4 0 0x80 []) stBadPart = true ∧
    refusedWith (tensors .run) (issueOf .adv 3 4 0 1 []) stBadOperation = true ∧ doubleFault (tensors .run) .F = false := by
  decide +kernel

/-- LAT.MM enters partition 0's lane under ISEQ 0 and answers 0 in rd; a handle outside the table is BAD_HANDLE (R54, R218). -/
theorem test_latMM :
    after (.latMM .F 3 4 63 0) (tensors .run) (fun s => decide (s.eng.lanes.map (fun e => (e.queue, e.iseq)) = [(0, 0)] ∧
      (s.th .F).iseq = 1 ∧ s.reg .F 3 = 0 ∧ (s.th .F).pc = 0x1004)) ∧
    after (.updSsq .F 3 10 63 0) (tensors .run) (fun s => decide (s.eng.lanes = [] ∧ s.reg .F 3 = 1 ∧ (s.th .F).iseq = 0)) := by
  decide +kernel

/-! ### Update records and engines (spec/08, spec/10) -/

/-- A Frame with an update list of two records at 0x40000. -/
def updFrame : FrameCfg :=
  { frame0 with
    update := some { nfPolicy := false, normGrp := 0, clipMax := 0, listBase := 0x40000, listCount := 2, progs := [], groups := [] } }

/-- Thread U RUN with the record index a in s1. -/
def updState (a : Word) : State :=
  let s := ready.setTh .U (thr .run .none a 0)
  { s with frame := { s.frame with plane0 := { live with frame := some updFrame } } }

theorem witness_UpdApplyIssue : allCalm [updState 1, updState 2] = true ∧ ((updState 1).th .U).state = .run ∧ (issueOf .apply 3 1 63 0 []).illegal = false ∧
    (updState 1).issuePre .U (issueOf .apply 3 1 63 0 []) = none ∧ ((updState 1).updCfg 0).map (fun u => u.listCount) = some 2 ∧
    ((updState 1).reg .U 1).toNat < 2 ∧ 2 ≤ ((updState 2).reg .U 1).toNat ∧ (3 : Reg) ≠ 0 := by decide +kernel

/-- A record index at the list's count is BAD_RECORD; one below it reads 32 bytes of the record (R172, R173). -/
theorem test_updApply :
    after (.updApply .U 3 1 63 0) (updState 2) (fun s => decide (s.reg .U 3 = 0x0A)) ∧
    after (.updApply .U 3 1 63 0) (updState 1) (fun s => decide (s.jamb.reqs.map (fun r => (r.block, r.smask)) = [(0x400, 2)] ∧
      (s.th .U).state = .memory)) := by decide +kernel

/-- A record of the Casement with two slots, F and B, and LEND as given; or one slot of owner 7. -/
def record (owners : List Nat) (lend : Bool) : MulRec := { engine := 8, nslots := owners.length, lend := lend, owners := owners }

/-- A chain of one Casement operation. -/
def chain (op : CasOp) : CasUnit := { domain := none, loopDt := 0, order := 0, body := [op], group := none }

/-- ADD of FP32 Panes 0 and 1 into Pane 2. -/
def addOp : CasOp :=
  { op := 1, dt := 0, pd := 2, pa := 0, pb := 1, pc := 0, bVal := .pane, cVal := .pane, opnd := none, tile := (0, 0, 0), wseq := 0 }

/-- A core with a Casement chain of `addOp` queued for F, and a Mullion record of the Casement. -/
def woven (owners : List Nat) (lend : Bool) (t : Thread) : State :=
  let s := withLanes (withLive (runs 0 0)) [{ entryOf 1 8 (.casement (chain addOp)) .queued with stream := t }]
  { s with frame := { s.frame with mullion := [record owners lend] } }

/-- What a start leaves before the entry's job acts. -/
def begun (s : State) (q : Nat) (e : Entry) (lent : Bool) (props : List (Nat × Nat)) : State :=
  (s.modEngine q fun g => { g with
    running := some e.uid, isOpen := false, last := e.stream, lastLent := lent, everStarted := true, gated := false }).modEntry
      e.uid fun x => { x with phase := .running, props := props }

/-- Does the start of an entry read its proposals: `some true`; or is a tracked operand not cached: `some false`? -/
def starting (s : State) (q : Nat) (e : Option Entry) : Option Bool :=
  match e with
  | none => none
  | some e =>
    let z := s.propsRead e.job.tracked
    match z.readProps e e.job.tracked with
    | .ok props => some ((begun z q e false props).entry e.uid).isSome
    | .error _ => some false

/-- A chain that stores into a tensor with a Louvre that is not cached. -/
def tracking : State :=
  let st : CasOp := { op := 0x31, dt := 0, pd := 2, pa := 0, pb := 0, pc := 0, bVal := .pane, cVal := .pane,
                      opnd := some (opnd 4 { tile 0 with lvEn := true }), tile := (0, 0, 0), wseq := 0 }
  let s := withLanes (withLive (runs 0 0)) [entryOf 1 8 (.casement (chain st)) .queued]
  { s with frame := { s.frame with mullion := [record [0, 1] false] } }

theorem witness_WeaveStart : (woven [0, 1] false .F).mulRec 8 = some (record [0, 1] false) ∧
    ((woven [0, 1] false .F).engine 8).isOpen = true ∧ (woven [0, 1] false .F).int.qstop.getLsbD 8 = false ∧
    (record [0, 1] false).owners.getD ((woven [0, 1] false .F).eng.weave.toNat / 256 % 2) 7 = Thread.num .F ∧
    ((woven [0, 1] false .F).laneHead 8 .F).map (fun e => e.uid) = some 1 ∧
    starting (woven [0, 1] false .F) 8 ((woven [0, 1] false .F).laneHead 8 .F) = some true ∧
    starting tracking 8 (tracking.laneHead 8 .F) = some false ∧
    (woven [0, 1] true .B).laneHead 8 .F = none ∧
    ((woven [0, 1] true .B).firstHead 8 (streamsFrom (Thread.num .F + 1) 3)).map (fun e => e.uid) = some 1 ∧
    (woven [0, 1] false .B).laneHead 8 .F = none ∧ 4 ≤ (record [7] true).owners.getD 0 7 ∧
    ((woven [7] true .B).firstHead 8 [.F, .B, .U, .S]).map (fun e => e.uid) = some 1 := by decide +kernel

theorem witness_OpenWovenStart :
    let s := withLanes (withLive (runs 0 0)) [entryOf 1 8 (.casement (chain addOp)) .queued]
    s.mulRec 8 = none ∧ (s.engine 8).isOpen = true ∧ s.int.qstop.getLsbD 8 = false ∧
    (s.firstHead 8 (streamsFrom (Thread.num (s.engine 8).last + 1) 4)).map (fun e => e.uid) = some 1 ∧
    starting s 8 (s.firstHead 8 (streamsFrom (Thread.num (s.engine 8).last + 1) 4)) = some true ∧
    (runs 0 0).firstHead 8 (streamsFrom (Thread.num ((runs 0 0).engine 8).last + 1) 4) = none ∧
    (woven [0, 1] false .F).mulRec 8 ≠ none ∧ ((onEngine s 8 1).engine 8).isOpen = false := by decide +kernel

/-- A weave start marks the entry running and closes the engine; a stream that does not own the slot waits (R233, R240). -/
theorem test_weave :
    after (.weaveStart 8 .clean) (woven [0, 1] false .F) (fun s => decide ((s.engine 8).running = some 1 ∧
      s.eng.lanes.map (fun e => e.phase) = [.running] ∧ s.eng.cas.isSome = true)) ∧
    after (.weaveStart 8 .clean) (woven [0, 1] false .B) (fun s => decide (s.eng.lanes.map (fun e => e.phase) = [.queued])) ∧
    after (.weaveStart 8 .clean) (woven [0, 1] true .B) (fun s => decide ((s.engine 8).lastLent = true)) ∧
    after (.weaveStart 8 .clean) tracking (fun s => decide (s.eng.lanes.map (fun e => e.phase) = [.queued] ∧
      s.fillPending 0 4 = true)) := by decide +kernel

/-! ### Lattices (spec/02, spec/04) -/

/-- The product of the INT8 row 1 to 8 and a column of ones into an FP32 scalar at 128, on partition 0, with `inj` vectors
injected and the given blocks complete. -/
def product (inj : Nat) (acc : SMap (BitVec 32)) (blk : SMap Nat) : State :=
  let s := tensors .run
  let a := opnd 4 { tile 0 with fmt := 9, n0 := 8, n1 := 1, scale := 0x3F800000 }
  let b := opnd 5 { tile 64 with fmt := 9, n0 := 1, n1 := 8, s1 := 1, scale := 0x3F800000 }
  let c := opnd 6 { tile 128 with n0 := 1, n1 := 1 }
  let s := onEngine (withLanes s [entryOf 1 0 (.lattice a b c false false none) .running]) 0 1
  { s with eng := { s.eng with
      spad := [(0, 1), (1, 2), (2, 3), (3, 4), (4, 5), (5, 6), (6, 7), (7, 8), (64, 1), (65, 1), (66, 1), (67, 1), (68, 1),
               (69, 1), (70, 1), (71, 1)],
      lats := [{ uid := 1, plane := 0, acc := acc, blk := blk, inj := SMap.put [] 0 0 inj, fed := [], reuse := [], chk := [],
                 drained := [] }] } }

/-- The state of a slot once the feeder and the weight source have had their part. -/
def slotFed (s : State) (ready : Bool) : State := (s.feed 0 0 ready).loadTile 0 0 ready

theorem witness_VectorSlot : ((product 0 [] []).streaming 0 0).isSome = true ∧ (product 0 [] []).bandsReady 0 = true ∧
    (slotFed (product 0 [] []) true).hasPlane 0 1 0 = true ∧
    (((slotFed (product 0 [] []) true).streaming 0 0).map fun q => decide (q.1.injected 0 < SMap.look q.1.fed 0 0)) = some true ∧
    (((slotFed (product 0 [] []) false).streaming 0 0).map fun q => decide (q.1.injected 0 < SMap.look q.1.fed 0 0)) = some false ∧
    ((slotFed (product 0 [] []) true).weightsAt ((product 0 [] []).cellsOf 0 0)).shadow = some { uid := 1, pass := 0 } ∧
    ((product 0 [] []).runs 0).head?.map (fun q => ((product 0 [] []).vectorEnd q.1 q.2 0, (product 0 [] []).passes q.2,
      (product 0 [] []).rankRows q.2 0)) = some (1, 1, 1) ∧ (product 1 [] []).streaming 0 0 = none ∧
    (withLanes (product 0 [] []) ((List.range 3).map fun i => { (product 0 [] []).eng.lanes.headD (entryOf 1 0 (.qsig 0) .running)
      with uid := i })).hasPlane 0 1 0 = true := by decide +kernel

/-- The product's row with 20 rows, of which 16 stand in the row queues. -/
def crowded : State :=
  let s := product 0 [] []
  let a := opnd 4 { tile 0 with fmt := 9, n0 := 8, n1 := 20, scale := 0x3F800000 }
  let b := opnd 5 { tile 64 with fmt := 9, n0 := 1, n1 := 8, s1 := 1, scale := 0x3F800000 }
  let c := opnd 6 { tile 1024 with n0 := 1, n1 := 20, s1 := 4 }
  let s := withLanes s [entryOf 1 0 (.lattice a b c false false none) .running]
  { s with eng := { s.eng with lats := s.eng.lats.map fun r => { r with fed := [(0, 16)] } } }

theorem witness_FeederSlot : (crowded.runs 0).head?.map (fun q => decide ((if crowded.partHalf 0 then 8 else 16) ≤
    max (SMap.look q.1.fed 0 0) (q.1.injected 0) - q.1.injected 0 ∧
    max (SMap.look q.1.fed 0 0) (q.1.injected 0) < crowded.vectorEnd q.1 q.2 0)) = some true ∧
    crowded.bandsReady 0 = true := by decide +kernel

/-- A ready slot injects the row; a second one finds no vector (R87). -/
theorem test_vector :
    after (.vectorSlot 0 0 true .clean) (product 0 [] []) (fun s => decide ((s.eng.lats.map fun r => SMap.look r.inj 0 0) = [1] ∧
      (s.engine 0).isOpen = true)) ∧
    after (.vectorSlot 0 0 true .clean) (product 1 [] []) (fun s => decide (s = product 1 [] [])) := by decide +kernel

theorem witness_BlockCompletion : ((product 1 [] []).blockRun 0 0 0 0).map (fun r => r.2.2) = some 0 ∧
    (product 1 [] []).latDark (((product 1 [] []).partLats 0).getD 0 0) = false ∧
    ({ product 1 [] [] with pwr := { Power.init with leftOff := [0], on := BitVec.allOnes 80 } } : State).latDark 0 = true := by
  decide +kernel

/-- 1 + 2 + … + 8 = 36, or 0x42100000 as FP32 (R44, R45); a flipped accumulator bit is a residue mismatch (R50). -/
theorem test_block :
    after (.blockCompletion 0 0 0 0 0 .clean) (product 1 [] []) (fun s => decide
      ((s.eng.lats.map fun r => (r.acc, r.blk)) = [([(0, 0x42100000)], [(0, 1)])] ∧ s.int.qstop = 0)) ∧
    after (.blockCompletion 0 0 0 0 1 .clean) (product 1 [] []) (fun s => decide (s.int.qstop = 1 ∧
      s.er.latFaultCause = 1)) := by decide +kernel

theorem witness_ResidueClose : (product 1 [] []).eng.lats.map (fun r => ((product 1 [] []).product r).map fun x =>
    (x.n, ((product 1 [] []).halfCols x 0).length, SpareCheck.init.cols, SpareCheck.init.sum,
      ((product 1 [] []).halfCols x 0).filter fun j => j ≠ 0)) = [some (1, 1, 0, 0, [])] := by decide +kernel

theorem witness_ResidueCheck : ∀ f ∈ [2, 9], 2 ≤ ({ tile 0 with fmt := f } : Desc).fmt ∧ ({ tile 0 with fmt := f } : Desc).fmt ≤ 9 := by
  decide

theorem witness_LatticeDrain : ((product 1 [(0, 0x42100000)] [(0, 1)]).drainRun 0 0).map (fun r => r.2.k) = some 8 ∧
    (product 1 [] [(0, 1)]).latDark (((product 1 [] []).partLats 0).getD 0 0) = false ∧
    (product 1 [] []).drainRun 0 0 = none := by decide +kernel

/-- The drain writes the four bytes of 36.0 at 128 (R83) and ends the product. -/
theorem test_drain : after (.latticeDrain 0 0 .clean) (product 1 [(0, 0x42100000)] [(0, 1)]) (fun s => decide
    (Mem.num s.eng.spad 128 4 = 0x42100000 ∧ s.eng.lanes.map (fun e => e.phase) = [.finished] ∧ s.eng.lats = [])) := by
  decide +kernel

/-! ### Casement, Transom and Sill (spec/05, spec/06) -/

/-- A Casement chain that runs. -/
def casing (op : CasOp) : State :=
  let s := onEngine (withLanes (withLive (runs 0 0)) [entryOf 1 8 (.casement (chain op)) .running]) 8 1
  { s with eng := { s.eng with cas := some { uid := 1, iter := 0, pos := 0 } } }

theorem witness_CasementOperation : ((casing addOp).casNext).map (fun r => r.2.2) = some addOp ∧ addOp.isPort = false ∧
    (((casing addOp).casNext).map fun r => r.2.1.e.phase) = some .running ∧
    (((casing addOp).casNext).map fun r => decide ((casing addOp).entry r.2.1.e.uid = some r.2.1.e)) = some true ∧
    casIsRed 1 = false ∧ casIsConv 1 = false ∧ casIsRed 0x28 = true := by decide +kernel

/-- A fatal check of an operation is a CASEMENT_FAULT: the unit ends (R150). -/
theorem test_casement_fault : after (.casementOperationStart (.fatal 0)) (casing addOp) (fun s => decide
    (s.er.casFaultPend = true ∧ s.eng.cas = none ∧ s.eng.lanes.map (fun e => e.phase) = [.finished])) := by decide +kernel

theorem witness_CasementEnds :
    (withLanes ready [entryOf 1 8 (.casement (chain addOp)) .running]).casEnding.isSome = true ∧
    ((onEngine (withLanes ready [entryOf 1 8 (.casement (chain addOp)) .running]) 8 1).engine qCas).running = some 1 ∧
    (∀ n ∈ [1, 32], ({ ready with eng := { Engines.init with
        casLast := some (entryOf 1 8 (.casement (chain addOp)) .running, addOp), casIdle := n } } : State).replayCycle = true) ∧
    (∀ n ∈ [0, 33], ({ ready with eng := { Engines.init with
        casLast := some (entryOf 1 8 (.casement (chain addOp)) .running, addOp), casIdle := n } } : State).replayCycle = false) := by
  decide +kernel

/-- LD and ST of the tile at (0, 0) of `tile 0`, in a chain. -/
def portOp (op : Nat) : CasOp := { addOp with op := op, opnd := some (opnd 4 (tile 0)) }

theorem witness_CasementPort : (((casing (portOp 0x30)).casNext).map fun r => (r.2.2.op, r.2.2.opnd.isSome)) = some (0x30, true) ∧
    (((casing (portOp 0x31)).casNext).map fun r => (r.2.2.op, r.2.2.opnd.isSome, r.2.2.dt, r.2.1.inLoop)) =
      some (0x31, true, 0, false) ∧
    (let s := struckBy .louvre (casing { portOp 0x31 with opnd := some (opnd 4 { tile 0 with lvEn := true }) })
     s.upsetAt .louvre = .fatal 0 ∧ s.alarmMask = 0 ∧
     (s.casNext.map fun r => (decide (s.entry r.2.1.e.uid = some r.2.1.e), r.2.1.e.errStatus,
       r.2.2.opnd.map fun o => o.desc.lvEn)) = some (true, 0, some true)) := by decide +kernel

/-- A Transom instruction in queue 9 that runs. -/
def moving (tr : Bool) (a d : Desc) : State :=
  let s := onEngine (withLanes (withLive (runs 0 0)) [entryOf 1 9 (.transom tr (opnd 4 a) (opnd 5 d)) .running]) 9 1
  { s with eng := { s.eng with spad := [(0, 1), (4, 2), (8, 3), (12, 4)] } }

theorem witness_TransomMoves :
    (moving true (tile 0) (tile 64)).transomRun.map (fun r => (r.2.1, r.1.aborted, r.1.rdWait, r.1.formed, r.1.errStatus)) =
      some (true, false, 0, false, 0) ∧ isMx (tile 64).fmt = false ∧ footOverlap (tile 0) (tile 64) = false ∧
    (moving true (tile 0) (tile 64)).transomDark = false ∧
    ((moving true (tile 0) (tile 64)).transomRun.map fun r => decide ((moving true (tile 0) (tile 64)).entry r.1.uid = some r.1)) =
      some true ∧ (tile 64).space = 1 := by decide +kernel

/-- The transpose of ((1, 2), (3, 4)) is ((1, 3), (2, 4)) (R108). -/
theorem test_transpose : after (.transomComplete .clean) (moving true (tile 0) (tile 64)) (fun s => decide
    ((List.range 4).map (fun i => Mem.num s.eng.spad (64 + 4 * i) 4) = [1, 3, 2, 4])) := by decide +kernel

/-- A Sill drain into the scratchpad that runs. -/
def draining : State :=
  let hs := opnd 4 { tile 0 with space := 2 }
  let s := onEngine (withLanes (withLive (runs 0 0)) [entryOf 1 10 (.drain hs (opnd 5 (tile 64)) none) .running]) 10 1
  { s with eng := { s.eng with sill := [(2, 0x80), (3, 0x3F), (6, 0x00), (7, 0x40)], sillSet := [(0, true)] } }

theorem witness_SillReadOut : (draining.sillReader.map fun e => (e.uid, e.errStatus)) = some (1, 0) ∧ draining.sillDark = false ∧
    (draining.sillReader.map fun e => decide (draining.entry e.uid = some e)) = some true ∧ (tile 64).space ≠ 2 ∧
    (struckBy .alu draining).upsetAt .alu = .fatal 0 := by decide +kernel

/-- A drain moves the values and leaves zeros (R115, R118). -/
theorem test_sill_drain : after (.sillReadOut .clean) draining (fun s => decide
    ((List.range 4).map (fun i => Mem.num s.eng.spad (64 + 4 * i) 4) = [0x3F800000, 0x40000000, 0, 0] ∧ s.eng.sill = [])) := by
  decide +kernel

/-! ### Completion and roots (spec/08, spec/09) -/

/-- A finished SIG-less copy of F with a status and a latch. -/
def done (st : Nat) (k : Option Nat) : State :=
  withLanes (withLive (runs 0 0)) [{ entryOf 1 10 (.copy (opnd 4 (tile 0)) (opnd 5 (tile 64))) .finished with errStatus := st, latch := k }]

theorem witness_CompletionOfHead : (((done 0x45 none).lane 10 .F).head?.map fun e => (e.phase, e.commits)) = some (.finished, []) ∧
    (done 0x45 none).rpl.active = false ∧ isFaultClass 0x45 = true ∧ (done 0 (some 7)).latchCount 0 7 ≠ 255 ∧
    (((done 0x45 none).lane 10 .F).head?.map fun e => decide ((done 0x45 none).entry e.uid = some e)) = some true ∧
    (done 0x45 none).sash.excq.length < 16 ∧
    ((woven [0, 1] false .F).lane 8 .F).head?.map (fun e => (e.phase, e.job.zeroTime)) = some (.queued, false) ∧
    (woven [0, 1] false .F).eng.skipHold = [] := by decide +kernel

/-- A completion signals its latch; a fault sets QERR and raises COMPLETION_FAULT, cause 0x10 (R219, R220). -/
theorem test_completion :
    after (.completion 10 .F) (done 0 (some 7)) (fun s => decide (s.latchCount 0 7 = 1 ∧ s.eng.lanes = [])) ∧
    after (.completion 10 .F) (done 0x45 none) (fun s => decide (SMap.look (s.th .F).qerr 0 10 ≠ 0 ∧
      s.sash.excq.map (fun r => r.w0.toNat % 256) = [0x10])) := by decide +kernel

/-- A root computation of a group on 2 by 2 matrices that has begun. (R188 asks for 32 by 32; the statement speaks of any.) -/
def rooting (begun : Bool) : State :=
  let r : RootJob := { group := 0, s := opnd 4 (tile 0), q := opnd 5 (tile 64), w := opnd 6 { tile 128 with n2 := 4, s2 := 16 },
                       part := 0, fourth := false, maxIt := 8, eps := 0, tol := 0x3F800000, due := true }
  let s := withLanes (withLive (runs 0 0)) [entryOf 1 8 (.root r) .running, entryOf 2 0 (.rootPart r) .running]
  { s with eng := { s.eng with roots := [{ uid := 1, partUid := 2, iter := 0, begun := begun }] } }

/-- The same with the identity in S. -/
def rootingOne (begun : Bool) : State :=
  { rooting begun with eng := { (rooting begun).eng with spad := [(2, 0x80), (3, 0x3F), (14, 0x80), (15, 0x3F)] } }

theorem witness_RootIteration : allCalm [rooting true, rooting false, rootingOne false] = true ∧
    ((rooting true).rootReady .F).map (fun r => (r.1.begun, decide (r.1.uid ≠ r.1.partUid),
      decide ((rooting true).entry r.1.uid = some r.2.1))) = some (true, true, true) ∧
    ((rooting false).rootReady .F).map (fun r => (r.1.begun, ((rooting false).rootInit r.2.2).1.isSome)) = some (false, false) ∧
    ((rootingOne false).rootReady .F).map (fun r => (r.1.begun, ((rootingOne false).rootInit r.2.2).1.isSome)) =
      some (false, true) := by decide +kernel

/-- S = 0 fails at once: ROOT_FAIL, FAILS 1 and FALLBACK (R190). -/
theorem test_root_zero : after (.rootIterationCheck .F) (rooting false) (fun s => decide
    ((s.groupState 0 0).rootFail = true ∧ (s.groupState 0 0).fails = 1 ∧ (s.groupState 0 0).fallback = true ∧
      s.eng.lanes.map (fun e => (e.uid, e.phase, e.status)) = [(1, .finished, stRootFail)])) := by decide +kernel

/-- A workspace of four 2 by 2 slices of BF16. -/
def space4 : Desc := { tile 128 with fmt := 1, n2 := 4, s1 := 4, s2 := 8 }

theorem witness_SliceHolds : space4.space = 1 ∧ space4.fmt = 1 ∧ ready.pwr.leftOff = [] ∧
    (∀ i < 2, ∀ j < 2, takes space4 (sliceCoord 3 i j) = true) ∧
    (∀ i ∈ [0, 1], ∀ j ∈ [0, 1], ∀ i' ∈ [0, 1], ∀ j' ∈ [0, 1], (i, j) ≠ (i', j') →
      (elemAddr space4 (sliceCoord 3 i j)).1 + 2 ≤ (elemAddr space4 (sliceCoord 3 i' j')).1 ∨
      (elemAddr space4 (sliceCoord 3 i' j')).1 + 2 ≤ (elemAddr space4 (sliceCoord 3 i j)).1) ∧
    (∀ r ∈ ([[1, 2], [3, 0xFFFF]] : Matrix), r.length = 2 ∧ ∀ v ∈ r, v < 2 ^ 16) := by decide +kernel

/-! ### The memory port (spec/14) -/

/-- A read request of thread F for block 0x1F. -/
def readF (age : Nat) : JReq :=
  { owner := .mld .F 0x1FE8 4, client := .mldMst, pool := .general, write := false, block := 0x1F, smask := 0x80, cells := [],
    held := false, hold := 0, age := age, keep := none }

/-- A control read of another block. -/
def readC (age : Nat) : JReq := { readF age with owner := .replay 0, client := .descFill, pool := .control, block := 0x20 }

/-- A core with requests that wait, and requests that are outstanding under tags. -/
def porting (rs : List JReq) (gs : List JTag) : State :=
  { ready.setTh .F (thr .memory (.mld 3 4) 0 0) with jamb := { Jamb.init with reqs := rs, tags := gs } }

theorem witness_JambIssue : (porting [readF 3, readC 0] []).nextReq.map (fun r => r.1) = some 1 ∧
    (porting [readF 64000, readC 63999] []).nextReq.map (fun r => r.1) = some 0 ∧ (porting [readF 3] []).jambOn = true ∧
    (porting [readF 3] []).tagMay (readF 3) ((readF 3).keep.getD (5 : BitVec 16).toNat) = true := by decide +kernel

/-- The control pool goes first (R330); the issued request is outstanding under the tag. -/
theorem test_issue : after (.jambRequestIssue 5 .clean) (porting [readF 3, readC 0] []) (fun s => decide
    (s.jamb.tags = [{ tag := 5, req := readC 0, ticks := 0 }] ∧ s.jamb.reqs = [readF 3] ∧ s.jamb.reads = 1)) := by decide +kernel

/-- The MLD of F outstanding under tag 5, the write of an MST under tag 6. -/
def outstanding (n : Nat) : State :=
  porting [] [{ tag := 5, req := readF 0, ticks := n }, { tag := 6, req := { readF 0 with
    write := true, owner := .mst .F 0x1000, cells := [(0x1FE8, 1)] }, ticks := 0 }]

theorem witness_JambResponses : allCalm [outstanding 0, outstanding 999, outstanding 1000] = true ∧
    (outstanding 999).domOn 78 = true ∧ 7 ≤ (outstanding 999).boot.stage ∧ State.reset.domOn 78 = false ∧ (outstanding 0).tagOf (7 : BitVec 16).toNat = none ∧
    ((outstanding 0).tagOf 5).map (fun g => g.req.write) = some false ∧ ((outstanding 0).tagOf 6).map (fun g => g.req.write) = some true ∧
    ((outstanding 999).tagOf 5).map (fun g => decide (g.ticks < max 10 (outstanding 999).jamb.timeout.toNat)) = some true ∧
    ((outstanding 1000).tagOf 5).map (fun g => decide (max 10 (outstanding 1000).jamb.timeout.toNat ≤ g.ticks)) = some true := by
  decide +kernel

theorem witness_MldAnswer : allCalm [outstanding 0] = true ∧ (outstanding 0).jambLive = true ∧ ((outstanding 0).tagOf 5).map (fun g => (g.req.write, g.req.owner)) =
      some (false, .mld .F 0x1FE8 4) ∧ ((outstanding 0).th .F).wait = .mld 3 4 ∧
    (((outstanding 0).setTh .F (thr .memory (.mld 3 5) 0 0)).th .F).wait = .mld 3 5 ∧ (0x1FE8 : Nat) % 8 = 0 ∧
    ((outstanding 0).tagOf 5).map (fun g => (g.req.block, g.req.smask.getLsbD (0x1FE8 % 256 / 32))) = some (0x1FE8 / 256, true) ∧
    (List.replicate 256 (7 : Byte)).length = 256 ∧ (outstanding 0).rpl.active = false ∧ doubleFault (outstanding 0) .F = false ∧
    (outstanding 0).sash.excq.length < 16 := by decide +kernel

/-- The MLD's rd takes the 8 bytes at its address (R211); a response without a request is a stray (R331). -/
theorem test_read_answer :
    after (.jbRResponse 5 ((List.range 256).map (BitVec.ofNat 8)) 0 .clean) (outstanding 0) (fun s => decide
      (s.reg .F 3 = 0xEFEEEDECEBEAE9E8 ∧ (s.th .F).pc = 0x1004)) ∧
    after (.jbRResponse 9 (List.replicate 256 0) 0 .clean) (outstanding 0) (fun s => decide (s.jamb.stray = 1)) := by decide +kernel

/-! ### The Doorway (spec/13) -/

/-- A packet to be sent. -/
def item (c : Fin 6) (o : TxOrigin) (sends : Nat) : TxItem :=
  { pkt := pkt c 0 2 [], origin := o, held := false, hold := 0, sends := sends, slot := none }

/-- Core 1 with link 2 UP to core 2, with packets to send. -/
def linked (rs sent : List TxItem) : State := withLink (withLive (runs 0 0)) 2 { up with ready := rs, sent := sent }

theorem witness_PacketTransmit : ((linked [] []).link 2).state = .up ∧ ((ready.link 2).state ≠ .up) ∧
    ((linked [] []).link 2).nextTx 2 true = none ∧
    (((linked [item 3 .answer 0, item 0 .answer 0] []).link 2).nextTx 2 true).map (fun x => (x.pkt.cls, x.needsTag)) = some (0, false) ∧
    (((linked [item 3 (.own 1) 0, item 4 .answer 0] []).link 2).nextTx 2 false).map (fun x => x.pkt.cls) = some 4 ∧
    (((linked [item 3 (.own 1) 0] []).link 2).nextTx 2 true).map (fun x => x.needsTag) = some true ∧
    (linked [item 3 (.own 1) 0] []).doorTagFree (49152 : BitVec 16).toNat = true ∧
    (linked [item 3 (.own 1) 0] []).doorTagFree 49151 = false ∧
    ((withLink (withLink ready 0 { up with ready := [item 3 (.inject 2) 0] }) 2 up).link 0).ready.map (fun x => x.cameBy 0) = [some 2] := by
  decide +kernel

/-- RSP goes before WR (R296); a first sending takes a credit and a SEQ (R297). -/
theorem test_transmit : after (.packetTransmit 2 0) (linked [item 3 .answer 0, item 0 .answer 0] []) (fun s => decide
    ((s.link 2).ready.map (fun x => x.pkt.cls) = [3] ∧ SMap.look (s.link 2).credit 0 0 = 3 ∧
      SMap.look (s.link 2).txSeq 0 0 = 1)) := by decide +kernel

/-- A NULL with an acknowledgement of class 3 up to SEQ 1 and cumulative credits. -/
def nullWire : Wire :=
  packetWire (pkt 5 0 1 []) { ack := some (3, 1), nak := none, credits := [1, 2, 3, 4, 5, 6] }

set_option maxRecDepth 100000 in
theorem witness_NullReception : (linked [] []).door.held = false ∧ (linked [] []).door.sinks = [] ∧
    ((linked [] []).link 2).state = .up ∧ wireCrcOk nullWire = true ∧ wireResv nullWire = false ∧
    (wireTrailer nullWire).ack = some (3, 1) ∧ (wireTrailer nullWire).nak = none := by decide +kernel

/-- A packet with a reserved bit of H2 set, under its own CRC. -/
def reserved : Wire := wire { pkt 3 0 1 [] with h3 := 0xFFFFFFFFFFFFFFFF }

/-- A core whose ring links are UP, and whose link 2 is too. -/
def ringed : State := withLink (withLink (withLink ready 0 up) 1 up) 2 up

set_option maxRecDepth 100000 in
theorem witness_PacketChecks : (linked [] []).door.sinks = [] ∧ State.reset.door.held = true ∧ State.reset.door.sinks = [] ∧
    (ready.link 2).state ≠ .up ∧ wireCrcOk (broken (pkt 3 0 1 [])) = false ∧ wireCrcOk reserved = true ∧ wireResv reserved = true ∧
    arrives 2 (wire (pkt 3 0 1 [])) (linked [] []) = true ∧
    SMap.look ((linked [] []).link 2).rxSeq 0 3 = (asRow (wirePacket (wire (pkt 3 0 1 []))) clsWr 0).seq ∧
    SMap.look ((linked [] []).link 2).rxSeq 0 3 ≠ (asRow (wirePacket (wire { pkt 3 0 1 [] with seq := 1 })) clsWr 0).seq ∧
    arrives 2 (wire { pkt 3 0 1 [] with seq := 1 }) (linked [] []) = true ∧
    (asRow (wirePacket (wire (pkt 5 3 1 []))) clsMgt 3).cls = clsMgt := by decide +kernel

set_option maxRecDepth 100000 in
theorem witness_PacketPassing : (∀ l ∈ [0, 2], arrives l (wire (pkt 3 0 5 [])) ringed = true) ∧ ringed.door.sinks = [] ∧
    (wirePacket (wire (pkt 3 0 5 []))).dst ≠ ringed.door.node ∧ (wirePacket (wire (pkt 3 0 5 []))).hops.toNat ≠ 32 ∧
    (wirePacket (wire { pkt 3 0 5 [] with hops := 32 })).hops.toNat = 32 ∧ (ringed.link (pairLink 0)).state = .up ∧
    ringed.injectLink.isSome = true ∧ ((linked [] []).link 0).state ≠ .up ∧ ((linked [] []).link 1).state ≠ .up ∧
    arrives 2 (wire (pkt 3 0 5 [])) (linked [] []) = true := by decide +kernel

set_option maxRecDepth 100000 in
/-- A failed CRC asks for every class again (R294); a packet for another core on the ring goes on with a hop more (R302); a
packet that meets the Wicket of a core in reset leaves on the other ring link (R290). -/
theorem test_reception :
    after (.wrData 2 ⟨0, broken (pkt 3 0 1 [])⟩) (linked [] []) (fun s => decide ((s.link 2).crcErr = 1 ∧
      (s.link 2).nakDue.length = 6)) ∧
    after (.wrData 0 ⟨0, wire (pkt 3 0 5 [])⟩) ringed (fun s => decide
      ((s.link 1).ready.map (fun x => (x.pkt.hops, x.pkt.dst)) = [(1, 5)])) ∧
    after (.mgtReset 2 (wire (pkt 5 3 1 []))) (linked [] []) (fun s => decide ((s.link 2).state = .reset ∧ (s.link 2).cause = 8)) ∧
    after (.wrData 0 ⟨0, wire (pkt 3 0 5 [])⟩) State.reset (fun s => decide ((s.link 1).lastTx = some (wire (pkt 3 0 5 [])))) := by
  decide +kernel

/-- A core with a packet of entry 1 outstanding under Doorway tag 9. -/
def tagged : State :=
  let s := withLanes (linked [] []) [{ entryOf 1 10 (.put (opnd 6 (tile 128)) 0) .running with tagWait := 1 }]
  { s with door := { s.door with tags := [{ tag := 9, link := 2, uid := 1, index := 0, bytes := 0 }] } }

/-- The core that holds handle 6 of CTXID 7, a row of two FP32 elements. -/
def writer : State := { linked [] [] with dcache := [{ ctx := 0, handle := 6, desc := { tile 128 with n1 := 1 }, dirty := false }] }

/-- A packet for the row: HANDLE 6, INDEX 0, B = 8 (R292). -/
def rowPkt (c : Fin 6) (kind : BitVec 4) (payload : List Byte) : Packet := { pkt c kind 1 payload with h2 := 6, h3 := 8 }

/-- A WR packet that fills the row. -/
def wrPkt : Packet := rowPkt 3 0 [1, 0, 0, 0, 2, 0, 0, 0]

/-- A packet in the buffers. -/
def sinkP (p : Packet) : Sink :=
  { id := 0, link := 2, pkt := p, xfer := 0, slot := none, waiting := 0, fill := none, got := [], err := false, begun := false,
    reading := false, fillBad := false, work := none }

/-- `s` with ACLK stopped. -/
def stopped (s : State) : State := { s with clk := { s.clk with aclkOn := false } }

set_option maxRecDepth 100000 in
theorem witness_PacketWaits : (stopped writer).clk.aclkOn = false ∧ (stopped writer).door.sinks = [] ∧
    arrives 2 (wire wrPkt) (stopped writer) = true ∧ (stopped writer).isMine (wirePacket (wire wrPkt)) = true ∧
    SMap.look ((stopped writer).link 2).rxSeq 0 clsWr.val = (asRow (wirePacket (wire wrPkt)) clsWr 0).seq := by decide +kernel

set_option maxRecDepth 100000 in
theorem witness_PacketSinking : allCalm [tagged, writer] = true ∧ tagged.clk.aclkOn = true ∧
    arrives 2 (wire (pkt 0 0 1 [])) tagged = true ∧ tagged.isMine (wirePacket (wire (pkt 0 0 1 []))) = true ∧ tagged.door.sinks = [] ∧
    ((tagged.tagEntry (wirePacket (wire (pkt 0 0 1 []))).tag.toNat).map fun g => (g.1.tag, g.2.uid)) = some (9, 1) ∧
    tagged.redOf 1 = none ∧ bitN (0 : Word).toNat 34 = false ∧
    SMap.look (tagged.link 2).rxSeq 0 clsRsp.val = (wirePacket (wire (pkt 0 0 1 []))).seq ∧
    arrives 2 (wire wrPkt) writer = true ∧ (linked [] []).ctxSlot 8 = none ∧ writer.ctxSlot 7 = some 0 ∧
    (writer.putWork (sinkP (asRow (wirePacket (wire wrPkt)) clsWr 0))).2 = .data { tile 128 with n1 := 1 } 0 2 none ∧
    writer.areaSlot 2 3 = none := by decide +kernel

set_option maxRecDepth 100000 in
/-- The elements of a WR packet are written where its handle says, and it is answered (R313). -/
theorem test_wr : after (.wrData 2 ⟨0, wire wrPkt⟩) writer (fun s => decide
    (Mem.num s.eng.spad 128 4 = 1 ∧ Mem.num s.eng.spad 132 4 = 2 ∧
      (s.link 2).ready.map (fun x => (x.pkt.kind, x.pkt.err, x.pkt.tag)) = [(0, false, 9)])) := by decide +kernel

/-- The same core asked for the two elements. -/
def asked : State := { writer with eng := { Engines.init with spad := [(128, 5), (132, 6)] } }

/-- An RD packet for the row. -/
def rdPkt : Packet := rowPkt 4 0 []

/-- A fetch of this core for 8 bytes into the tensor, outstanding under Doorway tag 9. -/
def fetching : State :=
  let s := withLanes writer [{ entryOf 1 10 (.put (opnd 6 { tile 128 with n1 := 1 }) (BitVec.ofNat 64 (2 ^ 34))) .running with tagWait := 1 }]
  { s with door := { s.door with tags := [{ tag := 9, link := 2, uid := 1, index := 0, bytes := 8 }] } }

/-- The RSP DATA packet that answers it. -/
def dataPkt : Packet := pkt 0 1 1 [1, 0, 0, 0, 2, 0, 0, 0]

set_option maxRecDepth 100000 in
theorem witness_FetchPackets : allCalm [asked, fetching] = true ∧ arrives 2 (wire rdPkt) asked = true ∧
    asked.isMine (wirePacket (wire rdPkt)) = true ∧
    (asked.putWork (sinkP (asRow (wirePacket (wire rdPkt)) clsRd 0))).2 = .read { tile 128 with n1 := 1 } 0 2 ∧
    asked.responses < 4096 ∧ asked.door.sinks = [] ∧ SMap.look (asked.link 2).rxSeq 0 clsRd.val = (wirePacket (wire rdPkt)).seq ∧
    arrives 2 (wire dataPkt) fetching = true ∧ (wirePacket (wire dataPkt)).err = false ∧
    (wirePacket (wire { dataPkt with err := true })).err = true ∧
    ((fetching.tagEntry (wirePacket (wire dataPkt)).tag.toNat).map fun g => (g.1.bytes, g.2.uid, g.2.errStatus, g.2.aborted)) =
      some (8, 1, 0, false) ∧
    bitN (BitVec.ofNat 64 (2 ^ 34) : Word).toNat 34 = true ∧ runCount { tile 128 with n1 := 1 } 0 8 = some 2 ∧
    (wirePacket (wire dataPkt)).payload.length = 8 ∧ fetching.redOf 1 = none := by decide +kernel

set_option maxRecDepth 100000 in
/-- An RD is answered with the bytes (R298); an RSP DATA fills the destination of its fetch and frees its tag (R301). -/
theorem test_fetch :
    after (.rdRead 2 (wire rdPkt)) asked (fun s => decide
      ((s.link 2).ready.map (fun x => (x.pkt.kind, x.pkt.payload)) = [(1, [5, 0, 0, 0, 6, 0, 0, 0])])) ∧
    after (.rspData 2 (wire dataPkt)) fetching (fun s => decide (Mem.num s.eng.spad 132 4 = 2 ∧ s.door.tags = [] ∧
      s.eng.lanes.map (fun e => (e.tagWait, e.errStatus)) = [(0, 0)])) ∧
    after (.rspData 2 (wire { dataPkt with err := true })) fetching (fun s => decide (s.eng.spad = [] ∧
      s.eng.lanes.map (fun e => e.errStatus) = [0x46])) := by decide +kernel

/-- A DOORWAY section whose link record 2 expects core 2 in generation m or above. -/
def planned (expect : Bool) (m : Nat) : DoorCfg :=
  let r : LinkRec := { expect := expect, remap := false, minGen := m, peer := 2, alt := 0, timeout := 0, retryMax := 0, area := 0,
                       credRsp := 0, credRed := 0, credWr := 0, credRd := 0 }
  { links := [r, r, r, r, r, r], routes := [], groups := [], raw := [] }

/-- Member 0 of a group of 2 in FP32 with GID 3, whose operation 1 on one element, its own 1.0, is running or not yet ready. -/
def reducing (ready : Bool) : State :=
  let d : Desc := { tile 128 with n0 := 1, n1 := 1 }
  let s := withLanes (linked [] []) [entryOf 1 10 (.red (opnd 6 d) (opnd 6 d) 0) .running]
  let g : GroupRec := { size := 2, pos := 0, scatter := false, exact := false, fmt := 0, succ := 0, pred := 0, gid := 3 }
  { s with
    frame := { s.frame with doorway := some { planned true 1 with groups := [g] } },
    door := { s.door with opnos := [(0, 1)], reds := [{ uid := 1, group := 0, opno := 1, elems := 1, ready := ready,
                                                        vals := [(0, 0x3F800000)], finals := [], sum := Accum.init }] } }

/-- A RED packet of the value 2.0 with an OPNO. -/
def redPkt (gid opno : Nat) : Packet :=
  { pkt 2 0 1 [0, 0, 0, 0x40] with h2 := BitVec.ofNat 64 (gid + 2 ^ 32), h3 := BitVec.ofNat 64 (opno * 2 ^ 48) }

/-- The packet of its bytes, as the row REDPARTIAL reads it. -/
def redRow (gid opno : Nat) : Packet := asRow (wirePacket (wire (redPkt gid opno))) clsRed 0

set_option maxRecDepth 100000 in
theorem witness_ReductionPackets :
    (match (reducing true).redMatch (redRow 3 1) with
     | .sink r g => decide (r.uid = 1) && redShape r g (redRow 3 1)
     | _ => false) = true ∧ arrives 2 (wire (redPkt 3 1)) (reducing true) = true ∧
    (reducing true).isMine (wirePacket (wire (redPkt 3 1))) = true ∧
    (reducing false).redMatch (redRow 3 1) = .wait ∧ (reducing true).redMatch (redRow 3 2) = .wait ∧
    ready.redMatch (redRow 4 1) = .bad [] ∧
    SMap.look ((reducing true).link 2).rxSeq 0 clsRed.val = (wirePacket (wire (redPkt 3 1))).seq := by decide +kernel

set_option maxRecDepth 100000 in
/-- 2.0 + 1.0 = 3.0 is written and answered (R314); an OPNO ahead waits (R318). -/
theorem test_reduction :
    after (.redPartial 2 (wire (redPkt 3 1))) (reducing true) (fun s => decide (Mem.num s.eng.spad 128 4 = 0x40400000 ∧
      s.door.sinks = [])) ∧
    after (.redPartial 2 (wire (redPkt 3 2))) (reducing true) (fun s => decide (s.eng.spad = [] ∧ s.door.sinks.length = 1)) := by
  decide +kernel

set_option maxRecDepth 100000 in
/-- An acknowledgement frees its tag (R301). -/
theorem test_ack : after (.rspAck 2 (wire (pkt 0 0 1 []))) tagged (fun s => decide
    (s.door.tags = [] ∧ s.eng.lanes.map (fun e => e.tagWait) = [0])) := by decide +kernel

/-- A pending signal of 8 bytes that are all there. -/
def signalled (tally : Nat) : State :=
  { linked [] [] with latch := { LatchUnit.init with
      pending := [{ link := 2, src := 2, xfer := 0, tag := 9, slot := 0, ctxid := 7, latch := 3, handle := 6, bytes := 8, tally := tally }] } }

theorem witness_RemoteSignal :
    ((signalled 8).latch.pending.find? fun q => decide (q.link = 2) && decide (q.src = 2) && decide (q.tag = 9) &&
      decide (q.tally = q.bytes) && (signalled 8).ctxStarted q.slot).isSome = true ∧
    ((signalled 7).latch.pending.find? fun q => decide (q.tally = q.bytes)) = none ∧ (signalled 8).latchCount 0 3 ≠ 255 ∧
    (signalled 8).clk.aclkOn = true ∧ (stopped (signalled 8)).clk.aclkOn = false := by decide +kernel

/-- The signal adds 1 to its latch and leaves the table (11 R256). -/
theorem test_signal : after (.remoteSignalApply 2 2 9) (signalled 8) (fun s => decide
    (s.latchCount 0 3 = 1 ∧ s.latch.pending = [])) := by decide +kernel

/-- A link that has sent a WR packet n times and waits ticks for its acknowledgement, or for credit. -/
def late (n ticks : Nat) : State :=
  withLink (withLive (runs 0 0)) 2 { up with sent := [item 3 .answer n], ackTicks := [(3, ticks)] }

/-- A link without credit for a WR packet. -/
def starving (ticks : Nat) : State :=
  withLink (withLive (runs 0 0)) 2 { up with ready := [item 3 .answer 0], credit := [], credTicks := [(3, ticks)] }

/-- A HELLO of core n with generations and RESET. -/
def helloWire (n : BitVec 16) (gens : BitVec 4) (reset : Bool) : Wire :=
  wire { pkt 5 1 1 (helloBytes { node := n, gens := gens, credits := [1, 2, 3, 4, 5, 6], reset := reset }) with src := n }

/-- A REPOINT message of epoch 5: core 3 by way of core 2. -/
def repointWire : Wire := wire (pkt 5 2 1 (repointBytes 3 2 5))

/-- Link 2 UP to core 2, with a route to core 3 by link 3. -/
def routed : State :=
  let s := linked [] []
  { s with
    frame := { s.frame with doorway := some { planned true 1 with
      routes := [{ dest := 3, ctxid := 7, link := 3, unreach := false, repointed := false }] } }
    door := { s.door with routes := [(0, { dest := 3, ctxid := 7, link := 3, unreach := false, repointed := false })] } }

set_option maxRecDepth 100000 in
theorem witness_RepointReception : arrives 2 repointWire routed = true ∧ (routed.link 2).gen = 3 ∧
    ((withLink ready 2 { up with gen := 2 }).link 2).gen ≠ 3 ∧ arrives 2 repointWire (withLink ready 2 { up with gen := 2 }) = true ∧
    SMap.look (routed.link 2).rxSeq 0 5 = (wirePacket repointWire).seq ∧ routed.door.epoch < 5 ∧ routed.routeCount = 1 ∧
    (routed.route 0).dest = 3 ∧ 2 ≤ (routed.route 0).link ∧ routed.peerLink 2 = some 2 ∧ ready.peerLink 2 = none := by
  decide +kernel

set_option maxRecDepth 100000 in
/-- The route to core 3 leaves by link 2 from then on (R322). -/
theorem test_repoint : after (.repoint 2 3 2 5 repointWire) routed (fun s => decide
    ((s.route 0).link = s.roleLink 2 ∧ (s.route 0).unreach = false ∧ s.door.epoch = 5)) := by decide +kernel

set_option maxRecDepth 100000 in
theorem witness_ResetCauses : ((late 9 1000000).link 2).state = .up ∧
    (((late 9 1000000).link 2).oldest 3).isSome = true ∧ (late 9 1000000).linkTimedOut 2 1 1000000 = true ∧
    (late 8 1000000).retryMax 2 = 8 ∧ SMap.look ((starving 100000000).link 2).credit 0 3 = 0 ∧
    (starving 100000000).linkTimedOut 2 64 100000000 = true ∧ ((starving 0).link 2).ready.map (fun x => (x.held, x.sends)) = [(false, 0)] ∧
    (late 8 0).door.held = false ∧ wireCrcOk (helloWire 2 14 true) = true ∧ wireResv (helloWire 2 14 true) = false ∧
    (wireHello (helloWire 2 14 true)).reset = true ∧ (wireHello (helloWire 4 14 false)).reset = false ∧
    (wirePacket (helloWire 4 14 false)).src ≠ ((late 8 0).link 2).peer ∧
    (((late 8 0).link 2).sent.filter fun x => decide (x.pkt.cls.val = 3) && !seqBefore x.pkt.seq 0) ≠ [] := by decide +kernel

/-- A packet sent RETRYMAX + 1 = 9 times resets the link with cause 5; one sent 8 times goes again (R300). -/
theorem test_retry :
    after (.ackTimeout 2 3) (late 9 1000000) (fun s => decide ((s.link 2).state = .reset ∧ (s.link 2).cause = 5)) ∧
    after (.ackTimeout 2 3) (late 8 1000000) (fun s => decide ((s.link 2).state = .up ∧ (s.link 2).ready.length = 1)) := by
  decide +kernel

/-- Link 2 in a state of discovery. -/
def discovering (st : LinkState) (sent : Bool) (ticks : Nat) (d : DoorCfg) : State :=
  let s := withLink (withLive (runs 0 0)) 2 { Link.init with state := st, helloSent := sent, ticks := ticks, en := true, rdy := true }
  { s with frame := { s.frame with doorway := some d } }

set_option maxRecDepth 100000 in
theorem witness_LinkDiscovery : ((discovering .hello true 0 (planned true 3)).link 2).state = .hello ∧
    ((discovering .hello true 0 (planned true 3)).link 2).helloSent = true ∧
    ((discovering .hello true 0 (planned true 3)).link 2).helloTicks < helloEvery ∧
    ((discovering .hello false 0 (planned true 3)).link 2).helloSeen = none ∧
    ((discovering .hello true 0 (planned true 3)).linkRec 2).map (fun r => (r.expect, r.peer, r.minGen)) = some (true, 2, 3) ∧
    ((discovering .hello true 0 (planned false 1)).linkRec 2).map (fun r => r.expect) = some false ∧
    (discovering .hello true 0 (planned true 3)).door.held = false ∧ wireCrcOk (helloWire 2 14 false) = true ∧
    wireResv (helloWire 2 14 false) = false ∧ (wireHello (helloWire 2 14 false)).node = 2 ∧
    (wireHello (helloWire 2 14 false)).gens.getLsbD 3 = true ∧ (wireHello (helloWire 2 6 false)).gens.getLsbD 3 = false ∧
    tenMs ≤ ((discovering .wait false 10000 (planned true 1)).link 2).ticks ∧
    ((discovering .wait false 9999 (planned true 1)).link 2).ticks < tenMs ∧
    ((discovering .idle false 1000 (planned true 1)).link 2).state = .idle ∧
    oneMs ≤ ((discovering .reset false 1000 (planned true 1)).link 2).ticks := by decide +kernel

set_option maxRecDepth 100000 in
/-- The planned peer comes UP with the highest common generation and its credits, without one the link goes to QUARANTINE with
cause 4; ten milliseconds of WAIT are DOWN with cause 1 (R308 to R310). -/
theorem test_discovery :
    after (.hello 2 (helloWire 2 14 false)) (discovering .hello true 0 (planned true 3)) (fun s => decide
      ((s.link 2).state = .up ∧ (s.link 2).gen = 3 ∧ SMap.look (s.link 2).credit 0 5 = 6)) ∧
    after (.hello 2 (helloWire 2 6 false)) (discovering .hello true 0 (planned true 3)) (fun s => decide
      ((s.link 2).state = .quarantine ∧ (s.link 2).cause = 4)) ∧
    after (.discoveryTimeout 2) (discovering .wait false 10000 (planned true 1)) (fun s => decide
      ((s.link 2).state = .down ∧ (s.link 2).cause = 1)) := by decide +kernel

/-! ### The host port and the Frame (spec/12, spec/14) -/

theorem witness_HostAnswers : ready.hinge.waiting = [] ∧ State.reset.hgReady = false ∧ ready.hgReady = true ∧
    host.bcast = false ∧ ready.hgOutside { host with bcast := true, group := 1 } = true ∧ hregOf (0x1FFFF8 : BitVec 21).toNat = none ∧
    (hregOf (0x20000 : BitVec 21).toNat).isSome = true ∧ ready.regShut .irqEn = none ∧ ready.regOff .irqEn = false ∧
    ready.regOff .irqStat = false ∧ ready.regOff .intStat = false ∧
    ({ ready with pwr := { ready.pwr with on := 0 } } : State).regOff .frameCtl = true ∧
    16 ≤ ({ ready with hinge := { ready.hinge with
      waiting := List.replicate 16 { id := 0, rdata := 0, code := 0, done := true } } } : State).hinge.waiting.length ∧
    ({ ready with pwr := { ready.pwr with shutSill := true } } : State).regShut .sillStat = some 3 := by decide +kernel

/-- BELORE_ID reads its constant (R430); an offset without a register is DECERR (R336). -/
theorem test_reads :
    after (.hingeRegisterRead host 0x20000) ready (fun s => decide
      (s.hinge.answered = [{ id := 5, rdata := 0x000059A10B4C0302, code := 0, done := true }])) ∧
    after (.hingeRegisterRead host 0x1FFFF8) ready (fun s => decide (s.hinge.answered.map (fun r => r.code) = [3] ∧
      s.hinge.decErr = 1)) := by decide +kernel

theorem witness_HostCommands : ready.hgReady = true ∧ host.bcast = false ∧
    ∀ r ∈ [HReg.dcacheCtl, .lvAccCtl, .sashDoorbell, .sashCtl, .strmAbort, .latchHsig, .frameCtl, .dwLinkCtl, .dwRepoint, .clkCtl,
      .pwrCtl, .shutter, .intQstop, .rplCtl, .ckptCtl, .nodeAdopt], ready.regShut r = none ∧ ready.regOff r = false := by
  decide +kernel

/-- Bytes of 64-bit words, little-endian (R13). -/
def le (ws : List Nat) : List Byte := ws.flatMap fun w => (List.range 8).map fun i => BitVec.ofNat 8 (w / 256 ^ i)

/-- The smallest Frame: CONTEXT with ENTRY_F, PARTITION with Lattice 0 in partition 0, no REGIONS, LATCHES and REPLAY, with a
CHECK of its own (R265 to R274, R433). -/
def frameBytes (check : Nat) : List Byte :=
  le [0x4D524642 + 3 * 2 ^ 32 + 2 * 2 ^ 40 + 3 * 2 ^ 48 + 2 * 2 ^ 56, 320 + check * 2 ^ 32, 7, 5, 0, 0, 0, 0,
      0x01 + 72 * 2 ^ 16, 0x100000, 16, 0x2000, 0, 0, 0, 0, 0, 0, 0x02 + 8 * 2 ^ 16, 0xFFFFFF00, 0x03 + 8 * 2 ^ 16, 0,
      0x05 + 96 * 2 ^ 16, 0x0102, 0, 0, 0, 0, 0, 0, 0, 0, 0, 0, 0, 0x0A + 32 * 2 ^ 16, 0, 0, 0, 0]

/-- The Frame with its CHECK. -/
def frameImage : List Byte := frameBytes (crc32c (frameBytes 0)).toNat

/-- A core of four Lattices that stages an image in plane 0. -/
def staging (image : List Byte) (err : Bool) : State :=
  let p : Plane := { Plane.init with state := .staging, image := image, imageErr := err }
  { ready with frame := { FrameUnit.init with plane0 := p, busy := true },
               lt := { Lintel.init with applied := { Applied.init with grade := 4, latEn := 15 } } }

/-- A core with a plane STAGED, waiting for the other, or at its effect point. -/
def committed (st : PlaneState) (other : PlaneState) (effect : Option Nat) : State :=
  let f : FrameCfg := { frame0 with minGrade := 2, assign := 0xFFFFFF00 }
  let s := staging [] false
  { s with frame := { s.frame with
      plane0 := { Plane.init with state := st, frame := some f }, busy := st = .commitWait, effect := effect, effectDue := true
      plane1 := { Plane.init with state := other, frame := some { f with ctxid := 8, regions := [] } } } }

theorem witness_FrameOperations : ready.hgReady = true ∧ host.bcast = false ∧ ready.regOff .frameCtl = false ∧ ready.goIgnored .frame = false ∧
    ready.frame.busy = false ∧ (committed .commitWait .live none).frame.busy = true ∧
    (committed .commitWait .live none).waitingPlane = some 0 ∧
    (committed .staged .live none).frame.plane0.state ≠ .empty ∧ (committed .staged .live none).frame.plane1.state ≠ .empty ∧
    ready.frame.plane0.state = .empty ∧ ready.waitingPlane = none ∧ ready.stagedBy 0 = none := by decide +kernel

theorem witness_stage_lengths : ((64 : BitVec 17).toNat % 8 = 0 ∧ 64 ≤ (64 : BitVec 17).toNat ∧ (64 : BitVec 17).toNat ≤ 65536) ∧
    ((65536 : BitVec 17).toNat % 8 = 0 ∧ 64 ≤ (65536 : BitVec 17).toNat ∧ (65536 : BitVec 17).toNat ≤ 65536) ∧
    (68 : BitVec 17).toNat % 8 ≠ 0 := by decide

theorem witness_commits : (committed .staged .empty none).stagedBy 0 = some 0 ∧
    ((committed .staged .empty none).frameOf 0).isSome = true ∧
    (((committed .staged .empty none).frameOf 0).map (committed .staged .empty none).commitBad) = some none ∧
    (committed .staged .empty none).otherRuns 0 = false ∧ (committed .staged .live none).otherRuns 0 = true := by decide +kernel

theorem witness_overlap :
    ((committed .staged .live none).frameOf 1).bind (fun o => ((committed .staged .live none).frameOf 0).map (overlapOk o)) = some true ∧
    overlapOk frame0 frame0 = false := by decide +kernel

theorem witness_low_grade : ({ committed .staged .empty none with lt := Lintel.init } : State).commitBad { frame0 with minGrade := 2 } ≠ none := by
  decide +kernel

theorem witness_ending : ((committed .live .empty none).plane 0).state = .live ∧ ((committed .live .empty none).plane 0).finished = false ∧
    (committed .live .empty none).quiescent 0 = true ∧
    ((committed .live .empty none).setTh .F (thr .run .none 0 0)).quiescent 0 = false := by decide +kernel

/-- A commit brings the plane LIVE and waits for the effect point (R279, R281); LEN 68 is BAD_LENGTH (R278). -/
theorem test_frame :
    after (.frameCommit host false 0) (committed .staged .empty none) (fun s => decide
      (s.frame.plane0.state = .live ∧ s.frame.effect = some 0 ∧ s.frame.result = 0 ∧ s.latchCount 0 0 = 2)) ∧
    after (.frameStage host 68) ready (fun s => decide (s.frame.result = 2)) ∧
    after (.frameStage host 320) ready (fun s => decide (s.frame.plane0.state = .staging ∧ s.frame.busy = true)) := by decide +kernel

set_option maxRecDepth 100000 in
theorem witness_staging : (staging frameImage false).stagingPlane = some 0 ∧ ((staging frameImage false).plane 0).readsOut = 0 ∧
    frameFault ((staging frameImage false).plane 0).image ((staging frameImage false).frameEnv 0) = none ∧
    ((staging frameImage true).plane 0).imageErr = true ∧
    frameFault ((staging (frameBytes 0) false).plane 0).image ((staging (frameBytes 0) false).frameEnv 0) = some (0x05, 12) := by
  decide +kernel

theorem witness_CommitWait : (committed .commitWait .empty none).waitingPlane = some 0 ∧
    (committed .commitWait .live none).otherRuns 0 = true ∧ (committed .commitWait .empty none).otherRuns 0 = false ∧
    ((committed .commitWait .empty none).frameOf 0).map (committed .commitWait .empty none).commitBad = some none := by decide +kernel

theorem witness_effect : (committed .live .empty (some 0)).frame.effect = some 0 ∧ (committed .live .empty (some 0)).frame.effectDue = true ∧
    (committed .live .empty (some 0)).clk.aclkOn = true ∧ ((committed .live .empty (some 0)).frameOf 0).isSome = true ∧
    (committed .live .empty (some 0)).rpl.plane = none ∧ (committed .live .empty (some 0)).rpl.active = false ∧
    (committed .live .empty (some 0)).otherRuns 0 = false ∧ (committed .live .empty (some 0)).startsDue = [0] ∧ ((committed .live .empty (some 0)).plane 0).restored = none ∧
    ((committed .live .empty (some 0)).plane 0).started = false ∧ ((committed .live .empty (some 0)).th .F).state = .idle ∧
    frame0.entry .F ≠ 0 := by decide +kernel

set_option maxRecDepth 100000 in
/-- A Frame whose checks pass is STAGED (R278); a wrong CHECK is BAD_CRC. -/
theorem test_staging :
    after .frameStagingResult (staging frameImage false) (fun s => decide (s.frame.plane0.state = .staged ∧ s.frame.result = 0)) ∧
    after .frameStagingResult (staging (frameBytes 0) false) (fun s => decide (s.frame.plane0.state = .empty ∧ s.frame.result = 5)) := by
  decide +kernel

/-- The effect point starts F at its entry point (R281). -/
theorem test_effect : after .effectPoint (committed .live .empty (some 0)) (fun s => decide
    ((s.th .F).pc = 0x2000 ∧ (s.th .F).stepno = 5 ∧ s.frame.assign = 0xFFFFFF00 ∧ s.sash.evec = 0x4000)) := by decide +kernel

/-! ### Watchdog, scrubbing and cut points (spec/10, spec/11, spec/16) -/

/-- Thread F has waited for latch 0 for n ticks. -/
def waiting (n : Nat) (pol : Nat) : State :=
  let s := ready.setTh .F { thr .latch (.latch 0) 0 0 with timer := n }
  { s with frame := { FrameUnit.init with fault := { FaultCfg.init with wdPol := pol } } }

theorem witness_WatchdogFire : ((waiting 100000 0).th .F).state = .latch ∧
    (waiting 100000 0).wd.period.toNat ≤ ((waiting 100000 0).th .F).timer ∧
    ((waiting 99999 0).th .F).timer < (waiting 99999 0).wd.period.toNat ∧ (waiting 100000 0).wd.pend = false ∧
    (waiting 100000 1).frame.fault.wdPol = 1 ∧
    (waiting 100000 2).frame.fault.wdPol = 2 ∧ (waiting 100000 0).frame.fault.wdPol = 0 ∧ (waiting 100000 0).sash.excq.length < 14 ∧
    ({ waiting 100000 0 with wd := { (waiting 100000 0).wd with pend := true } } : State).wd.pend = true := by decide

/-- At the period the watchdog fires, names F and restarts its timer; a tick before it does not (R260). -/
theorem test_watchdog :
    after .watchdogFire (waiting 100000 0) (fun s => decide (s.wd.fires = 1 ∧ s.wd.mask = 1 ∧ (s.th .F).timer = 0 ∧
      (s.th .F).state = .latch)) ∧
    after .watchdogFire (waiting 99999 0) (fun s => decide (s.wd.fires = 0)) ∧
    after .watchdogFire (waiting 100000 1) (fun s => decide ((s.th .F).state = .stopped)) := by decide +kernel

/-- `s`, n cycles behind the commit of its Frame. -/
def aged (n : Nat) (s : State) : State := { s with time := { s.time with sinceCommit := n } }

theorem witness_HoldAndScrub : (aged 4096 ready).clk.aclkOn = true ∧ (aged 4096 ready).pwr.parked = false ∧
    (aged 4096 ready).sillDark = false ∧ ({ ready with pwr := { ready.pwr with shutSill := true } } : State).sillDark = true ∧
    SMap.look (aged 4096 ready).int.doneSpad 0 3 < (aged 4096 ready).time.sinceCommit / 4096 ∧
    (aged 4095 ready).time.sinceCommit / 4096 ≤ SMap.look (aged 4095 ready).int.doneSpad 0 3 ∧
    State.reset.clk.aclkOn = false := by decide

/-- The scrubber goes around its bank of 5,120 lines (R385). -/
theorem test_scrub : after (.scrub (.scratchpad 3) .clean) 
      (aged 4096 { ready with int := { Integrity.init with scrubSpad := [(3, 5119)] } }) (fun s => decide (s.int.scrubSpad = [])) ∧
    after (.scrub (.scratchpad 3) .clean) (aged 4095 ready) (fun s => decide (s = aged 4095 ready)) := by decide +kernel

/-- An aborted entry that runs. -/
def cutting (q : Nat) (j : Job) (rd : Nat) : State :=
  onEngine (withLanes (withLive (runs 0 0)) [{ entryOf 1 q j .running with aborted := true, rdWait := rd }]) q 1

/-- A loop over `tile 0`, and its run at an iteration. -/
def looping (i : Nat) : State :=
  let s := cutting 8 (.casement { chain addOp with domain := some (opnd 4 { tile 0 with n0 := 128 }) }) 0
  { s with eng := { s.eng with cas := some { uid := 1, iter := i, pos := 0 } } }

/-- The aborted entry that the cut point acts on. -/
def cutOf (s : State) (q : Nat) : Option Entry :=
  (s.lane q .F).find? fun e => e.aborted && decide (e.phase = .running)

/-- An aborted product before its first vector, and one whose vector's block is not complete. -/
def cutProduct : State :=
  let s := product 0 [] []
  { s with eng := { s.eng with lanes := s.eng.lanes.map fun e => { e with aborted := true } } }
def cutHalf : State :=
  let s := product 1 [] []
  { s with eng := { s.eng with lanes := s.eng.lanes.map fun e => { e with aborted := true } } }

/-- An aborted root computation. -/
def cutRoot : State :=
  let s := rooting true
  { s with eng := { s.eng with lanes := s.eng.lanes.map fun e => if e.uid = 1 then { e with aborted := true } else e } }

theorem witness_CutPoint : (cutOf (cutting 9 (.transom false (opnd 4 (tile 0)) (opnd 5 (tile 64))) 0) 9).isSome = true ∧
    (cutOf (cutting 9 (.transom false (opnd 4 (tile 0)) (opnd 5 (tile 64))) 1) 9).map (fun e => e.rdWait) = some 1 ∧
    (cutOf (cutting 10 (.copy (opnd 4 (tile 0)) (opnd 5 (tile 64))) 0) 10).isSome = true ∧
    (cutOf cutProduct 0).map (fun e => (e.uid, decide (cutProduct.entry e.uid = some e))) = some (1, true) ∧
    (cutProduct.runs 0).map (fun q => (q.1.uid, cutProduct.atPass q.1 q.2)) = [(1, true)] ∧
    (cutHalf.runs 0).map (fun q => (q.1.uid, cutHalf.atPass q.1 q.2)) = [(1, false)] ∧
    (cutOf cutRoot 8).map (fun e => e.uid) = some 1 ∧
    (cutRoot.eng.roots.find? fun k => k.uid = 1).map (fun k => decide (k.partUid ≠ 1)) = some true ∧
    (Job.copy (opnd 4 (tile 0)) (opnd 5 (tile 64))).transfers = true ∧
    (cutOf (looping 0) 8).isSome = true ∧ (looping 0).eng.cas.map (fun r => (r.uid, r.pos, r.iter % 2)) = some (1, 0, 0) ∧
    (looping 1).eng.cas.map (fun r => r.iter % 2) = some 1 ∧ cutOf ready 8 = none := by decide +kernel

/-- A loop is cut behind a pair of iterations only (R247). -/
theorem test_cut :
    after (.cutPoint 8 .F) (looping 2) (fun s => decide (s.eng.cas = none ∧ s.eng.lanes.map (fun e => e.phase) = [.finished])) ∧
    after (.cutPoint 8 .F) (looping 1) (fun s => decide (s.eng.cas.isSome = true)) := by decide +kernel

/-! ### Deadbolt, Lintel and Hatch (spec/17) -/

/-- A core with Lintel state. -/
def lintel (l : Lintel) : State := { ready with lt := l }

/-- Deadbolt asserted, and a Hatch request of n ticks made with both planes EMPTY. -/
def hatching (n : Nat) : Lintel :=
  { Lintel.init with asserted := true, seen := true, hatchReq := true, hatchTicks := n, hatchArmed := true }

theorem witness_DeadboltAndHatch : ready.boot.aonRst = false ∧ ready.lt.hatchActive = false ∧
    (lintel { Lintel.init with hatchActive := true }).lt.hatchActive = true ∧ ready.regOff .hatchCtl = false ∧
    (lintel { Lintel.init with asserted := true }).goIgnored .hatch = false ∧ (lintel (hatching 0)).lt.hatchArmed = true ∧
    ready.hinge.waiting = [] ∧ ready.lt.asserted = false ∧ (lintel (hatching 0)).lt.asserted = true ∧
    (lintel (hatching 1000000)).lt.hatchReq = true ∧ (lintel (hatching 1000000)).hatchWriting = false ∧
    (lintel (hatching 1000000)).lt.hatchTicks ≤ 1000000 ∧
    ready.frame.plane0.state = .empty ∧ ready.frame.plane1.state = .empty ∧ (withLive ready).frame.plane0.state ≠ .empty ∧
    100000 ≤ ((lintel { hatching 0 with shadow := [(16, { data := 0, count := 100000, bad := false })] }).record 16).count ∧
    ((lintel { hatching 0 with shadow := [(16, { data := 0, count := 99999, bad := false })] }).record 16).count < 100000 := by
  decide +kernel

/-- A Hatch request without the Deadbolt is DENIED (R420). -/
theorem test_hatch :
    after (.hatchRequest host) ready (fun s => decide (s.hinge.answered.map (fun r => r.code) = [2] ∧ s.lt.hatchReq = false)) ∧
    after (.hatchRequest host) (lintel { Lintel.init with asserted := true }) (fun s => decide (s.lt.hatchReq = true)) ∧
    after .deadboltAssert (lintel { Lintel.init with lowTicks := 15 }) (fun s => decide (s.lt.asserted = false)) ∧
    after .deadboltAssert (lintel { Lintel.init with lowTicks := 16 }) (fun s => decide (s.lt.asserted = true)) := by decide +kernel

theorem witness_HatchEntry : (lintel { hatching 0 with reqs := [.hatch] }).lt.late = false ∧
    (lintel { hatching 0 with reqs := [.hatch] }).lt.reqs = [.hatch] ∧ (lintel { hatching 0 with reqs := [.hatch] }).lt.asserted = true := by
  decide +kernel

theorem witness_LintelStore : ready.hgReady = true ∧ ready.hgOutside host = false ∧ ready.hinge.waiting = [] ∧
    ready.regOff (.lintel 64) = false ∧ hregOf (0x110000 + 8 * 64) = some (.lintel 64) ∧ ready.ltRefuses false 64 = some 1 ∧
    (lintel { Lintel.init with asserted := true }).ltRefuses false 64 = none ∧
    (lintel { Lintel.init with reqs := [.write 64 5] }).lt.late = false ∧ (64 : Nat) ≠ 68 ∧
    (lintel { Lintel.init with reqs := [.write 64 5] }).lt.taken = false ∧
    ((lintel { Lintel.init with reqs := [.write 64 5] }).record 64).count < 2 ^ 32 - 1 ∧
    (lintel { Lintel.init with taken := true, ticks := 49 }).lt.ticks < 50 ∧ 50 ≤ (lintel { Lintel.init with ticks := 50 }).lt.ticks ∧
    (lintel { Lintel.init with reqs := [.readBack 64 5] }).lt.reqs = [.readBack 64 5] ∧
    (ltParse (BitVec.ofNat 128 (leNat (ltBytes 5 1)))).map (fun r => (r.data, r.count)) = some (5, 1) ∧
    ({ State.reset with boot := { Boot.init with stage := 1 } } : State).boot.lintelDone = false := by decide +kernel

/-- A retired write counts (R413). -/
theorem test_lintel : after (.lintelResponse 0 0) (lintel { Lintel.init with reqs := [.write 64 5] }) (fun s => decide
    (s.record 64 = { data := 5, count := 1, bad := false } ∧ s.lt.reqs = [])) := by decide +kernel

/-! ### Resets, clocks and power (spec/15) -/

/-- A core in a stage of start-up with its domains off. -/
def atStage (n : Nat) : State :=
  { State.reset with boot := { Boot.init with aonRst := false, stage := n, trimApplied := true, lintelDone := true } }

theorem witness_Resets : State.reset.boot.aonRst = true ∧ (atStage 2).boot.aonRst = false ∧ (atStage 2).boot.stage = 2 ∧
    (atStage 2).lt.hatchActive = false ∧ (atStage 2).pwr.starting = none ∧ (atStage 2).pwr.batch = [] ∧ (atStage 2).pwr.leftOff = [] ∧
    (atStage 2).domOn 79 = false ∧ (atStage 2).locked = false ∧ (atStage 6).boot.stage = 6 := by decide +kernel

/-- The release of CORE_RST_N in stage 2 begins stage 3 (R373); AON_RST_N low empties the core (R372). -/
theorem test_resets :
    after .coreRstNRelease (atStage 2) (fun s => decide (s.boot.stage = 3 ∧ s.pwr.pswReq = true)) ∧
    after .aonRstNAssert (runs 1 2) (fun s => decide ((s.th .F).state = .idle ∧ s.boot.stage = 0 ∧ s.pwr.on = 0)) ∧
    after .coreRstNAssert (runs 1 2) (fun s => decide ((s.th .F).state = .idle ∧ s.boot.stage = 2)) := by decide +kernel

/-- A core on a source, with others ready. -/
def clocked (c : Clocks) : State := { ready with clk := { c with aclkOn := true } }

theorem witness_ClockEvents : ready.boot.aonRst = false ∧ ready.clk.aonLost = false ∧
    (clocked { Clocks.init with inForce := .refClk }).clk.inForce = .refClk ∧ ready.clk.slewTo = none ∧
    (clocked { Clocks.init with fell := true, sel := .refClk, ready := [(1, true)], readyTicks := 1000 }).clk.fell = true ∧
    (clocked { Clocks.init with fell := true, sel := .refClk, ready := [(1, true)] }).srcReady .refClk = true ∧
    (clocked { Clocks.init with sel := .refClk }).clk.sel ≠ (clocked Clocks.init).clk.inForce ∧
    (clocked { Clocks.init with slewTo := some .tro }).clk.slewTo = some .tro ∧ ready.boot.trimApplied = true ∧
    State.reset.boot.trimApplied = false ∧ ready.domOn 79 = true ∧ (atStage 3).boot.stage = 3 := by decide +kernel

/-- A reference is ready after a second count within the window, and not after one outside it (R348). -/
theorem test_frequency :
    after (.frequencyCheck 6400 6400 6015 true) (clocked { Clocks.init with passes := [(1, 1), (3, 1)] }) (fun s => decide
      (s.srcReady .refClk = true ∧ s.srcReady .rref0 = false ∧ s.srcReady .rref1 = false)) ∧
    after .refRdyFall (clocked { Clocks.init with inForce := .refClk, ready := [(1, true)] }) (fun s => decide
      (s.clk.fallback = true ∧ s.clk.slewTo = some .tro)) := by decide +kernel

/-- A core with a sequencer move. -/
def sequencing (p : Power) : State := { ready with pwr := { p with on := BitVec.allOnes 80 } }

/-- A parked plan of a core that is idle. -/
def idling (n : Nat) : State :=
  { sequencing { Power.init with op := 1, target := 1, parkTicks := n } with
    frame := { FrameUnit.init with plan := { PowerPlan.init with park := true } } }

theorem witness_PowerPoints : ready.boot.stage ≠ 4 ∧ (sequencing { Power.init with moving := .volt, vackTicks := 500 }).pwr.moving = .volt ∧
    (sequencing { Power.init with moving := .volt, vackTicks := 499 }).pwr.vackTicks < 500 ∧
    (sequencing { Power.init with moving := .slew, op := 1, moveTo := 2, target := 2 }).pwr.op < 2 ∧
    (sequencing { Power.init with moving := .slew, op := 2, moveTo := 1, target := 1 }).pwr.moveTo < 2 ∧
    (sequencing { Power.init with vack := 2 }).pwr.vack ≠ BitVec.ofNat 3 1 ∧
    ((atStage 4).boot.stage = 4 ∧ ready.pwr.moving = .none) ∧ 7 ≤ ready.boot.stage ∧
    (sequencing { Power.init with moving := .drop, vreq := 1 }).pwr.vreq = 1 ∧
    (sequencing { Power.init with moving := .drop, parked := true, waking := true, target := 0 }).pwr.target = 0 ∧
    (sequencing { Power.init with moving := .slew, parked := true, waking := true }).domOn 79 = true ∧ ready.door.sinks = [] ∧
    (sequencing { Power.init with parked := true, waking := true }).pwr.moving = .none ∧
    (sequencing { Power.init with parked := true, waking := true }).pwr.target = 0 := by decide +kernel

/-- The conditions of R368 hold in an idle core, and not in one with a thread at work. -/
theorem witness_ParkConditions : ParkConditions (idling 1000) ∧ ¬ParkConditions (runs 0 0) :=
  ⟨⟨by decide, by intro t; cases t <;> decide, by decide, by decide, by intro t; cases t <;> decide, by decide, by decide, by decide,
    by decide, by decide⟩, fun h => absurd h.park (by decide)⟩

/-- Without the voltage for 500 ticks the move ends (R364); an idle core parks after PARKDELAY ticks (R368). -/
theorem test_power_points :
    after .vackTimeout (sequencing { Power.init with moving := .volt, vackTicks := 500, vreq := 2, confirmed := 1 }) (fun s => decide
      (s.pwr.moving = .none ∧ s.pwr.vtimeout = true ∧ s.pwr.vreq = 1)) ∧
    after .park (idling 1000) (fun s => decide (s.pwr.parked = true ∧ s.clk.aclkOn = false)) ∧
    after .park (idling 999) (fun s => decide (s.pwr.parked = false)) := by decide +kernel

/-- A batch that switches domains on. -/
def switching (starting : Option Nat) (batch : List Nat) (ticks : Nat) : State :=
  { ready with pwr := { Power.init with starting := starting, batch := batch, pswReq := true, settleTicks := ticks } }

/-- Lattice 0 in partition 0 with its row bands idle, under LATOFF 10. -/
def banded (n : Nat) (cyc : Bool) : State :=
  let s := ready.modEngine 0 fun g => { g with idleTicks := n }
  { s with frame := { FrameUnit.init with
      assign := 0xFFFFFF00, plan := { PowerPlan.init with latOff := 10 },
      plane0 := { live with frame := some { frame0 with cycDet := cyc } } } }

/-- A product of one row on a partition of two Lattices: the second rank has no rows. -/
def paired : State :=
  let s := product 0 [] []
  { s with frame := { s.frame with assign := 0xFFFF0000 } }

theorem witness_PowerDomains : (switching none [5, 6] 0).pwr.pswReq = true ∧ (switching none [5, 6] 0).pwr.starting = none ∧
    (switching none [5, 6] 0).pwr.batch = 5 :: [6] ∧ (switching (some 79) [] 100).pwr.starting = some (79 : Fin 80).val ∧
    ready.boot.stage = 8 ∧ 100 ≤ (switching (some 79) [] 100).pwr.settleTicks ∧ domShutters 48 = true ∧ domShutters 79 = false ∧
    (casing addOp).unitIdle .casement = false ∧ (product 1 [] []).unitIdle (.partition 0) = false ∧
    (paired.runs 0).map (fun q => (paired.rankRows q.2 0, paired.rankRows q.2 1)) = [(1, 0)] ∧ 1 < (paired.partLats 0).length ∧
    ready.unitIdle .transom = true ∧ ready.unitIdle .jambTransfer = true ∧ ready.unitIdle .casement = true ∧
    ready.unitIdle .drainLouvre = true ∧ ready.unitIdle .egressLouvre = true ∧ ready.unitIdle (.partition 7) = true ∧ ready.unitIdle .sash = true ∧
    (banded 9 false).bandIdle 0 = false ∧ (banded 10 false).bandIdle 0 = true ∧
    ((banded 10 true).liveFrame.map fun f => f.cycDet) = some true ∧ ((banded 10 false).liveFrame.map fun f => f.cycDet) = some false ∧
    (banded 10 false).partLats 0 = [0] ∧ ((banded 10 false).partsOf 0).all (banded 10 false).bandIdle = true := by decide +kernel

/-- A settled domain is on; one that does not settle is left off when it has a shutter (R357, R358). -/
theorem test_domains :
    after (.domainSettled 79) (switching (some 79) [] 0) (fun s => decide (s.domOn 79 = true ∧ s.pwr.pswReq = false)) ∧
    after (.domainSettleTimeout 48) (switching (some 48) [] 100) (fun s => decide (s.pwr.leftOff = [48] ∧ s.pwr.pdFail = 48)) ∧
    after (.latticeBandOff 0) (banded 10 false) (fun s => decide (s.domOn 0 = false ∧ s.domOn 8 = true)) := by decide +kernel

/-! ### The machine as a whole -/

theorem witness_StepRunsFrontCommand :
    ({ runs 1 0 with pending := [.addi .F 3 1 1] } : State).pending = .addi .F 3 1 1 :: [] ∧ (runs 1 0).pending = [] := by decide

/-- A state that meets the invariants and takes a step. -/
theorem witness_StepKeeps : (runs 1 0).storageWf ∧ (runs 1 0).excBound ∧ (runs 1 0).periodOk ∧ (runs 1 0).tagsOnce ∧ (runs 1 0).oneLive ∧
    ∃ s', step (runs 1 0) = .next s' :=
  ⟨⟨by decide, by decide, by decide⟩, by unfold State.excBound; decide, by unfold State.periodOk; decide,
   by unfold State.tagsOnce; decide, by unfold State.oneLive; decide, ⟨_, rfl⟩⟩

/-- The front command runs, and the rest of the queue stays. -/
theorem test_step :
    (match step { runs 1 0 with pending := [.addi .F 3 1 1, .aonClkRestored] } with
     | .next s => decide (s.reg .F 3 = 2 ∧ s.pending = [.aonClkRestored])
     | _ => false) = true := by decide +kernel

/-- With nothing to do a cycle of ACLK passes. -/
theorem test_idle_step :
    (match step ready with
     | .next s => decide (s.time.cycle = 1)
     | _ => false) = true := by decide +kernel

/-- How a program comes to run: a Frame whose context starts brings thread F to its entry point, and the command that
stands for its instruction runs (R281). -/
theorem test_program :
    (match step { committed .live .empty (some 0) with pending := [.effectPoint] } with
     | .next s => after (.movi .F 3 0 7) (s.setTh .F { s.th .F with state := .run }) (fun z => decide (z.reg .F 3 = 7 ∧ (z.th .F).pc = 0x2004))
     | _ => false) = true := by decide +kernel

end Sys2Proof.Tests
end

/-! PROOFS. Running one scalar instruction of a thread that is RUN: how it completes (spec/09 R206 to R212). -/

section
namespace Sys2Proof.Machine

@[simp] theorem State.pcRel_issued (s : State) (t : Thread) (off : Word) :
    (s.issuedBy t).pcRel t off = (s.th t).pc.zeroExtend 64 + 4 * off := by
  rw [State.pcRel, State.th_issued]

@[simp] theorem State.linkAddr_issued (s : State) (t : Thread) :
    (s.issuedBy t).linkAddr t = ((s.th t).pc + 4).zeroExtend 64 := by
  rw [State.linkAddr, State.th_issued]

@[simp] theorem State.illegal_issued (s : State) (t : Thread) :
    (s.issuedBy t).illegal t = (s.issuedBy t).stopExc t 0x01 0 0 (s.th t).pc := by
  rw [State.illegal, State.th_issued]

/-- A jump to an address of 48 bits (R212). -/
theorem State.jump_near {s : State} {t : Thread} {target : Word} (h : target.toNat < 2 ^ 48) (k : State → State) :
    s.jump t target k = (k s).goto t (target.setWidth 48) := if_neg (Nat.not_le.mpr h)

/-- A jump to an address with any of bits [63:48] set (R212). -/
theorem State.jump_far {s : State} {t : Thread} {target : Word} (h : 2 ^ 48 ≤ target.toNat) (k : State → State) :
    s.jump t target k = s.stopExc t 0x05 0 0 (s.th t).pc := if_pos h

/-! The command `c` runs `g` on the state in which its thread has issued, because the thread is RUN and no disturbance
waits. What `g` makes of that state decides how `c` completes. -/

section
variable {s : State} {t : Thread} {c : Instr} {g : State → State}
variable (hc : s.calm) (hr : (s.th t).state = .run) (hx : exec c s = .next (s.ifRun t g))
include hc hr hx

theorem Completes.of_ifRun {s' : State} {P : State → Prop} (hg : g (s.issuedBy t) = s') (hp : P s') : Completes c s P :=
  ⟨s', by rw [hx, State.ifRun_run hr (State.upsetAt_calm hc _), hg], hp⟩

theorem Completes.writesRd {rd : Reg} {v : Word} (hg : g (s.issuedBy t) = (s.issuedBy t).writeRd t rd v) :
    Completes c s (WritesRd t rd v ((s.th t).pc + 4) s) :=
  .of_ifRun hc hr hx hg (.of_writeRd hc hr rd v)

theorem Completes.stopsWith {cause : Nat} {info : Word} (hd : doubleFault s t = false)
    (hg : g (s.issuedBy t) = (s.issuedBy t).stopExc t cause 0 info (s.th t).pc) :
    Completes c s (StopsWith t (excOf s t cause (s.th t).pc info) s) :=
  .of_ifRun hc hr hx hg (.of_stopExc hd cause info)

/-- A jump that writes a register first: to a near target it does both, and to a far one neither (R212). -/
theorem Completes.jumps {k : State → State} {rd : Reg} {v target : Word}
    (hg : g (s.issuedBy t) = (s.issuedBy t).jump t target k) (hk : k (s.issuedBy t) = (s.issuedBy t).setReg t rd v) :
    (target.toNat < 2 ^ 48 → Completes c s (WritesRd t rd v (target.setWidth 48) s)) ∧
      (2 ^ 48 ≤ target.toNat → doubleFault s t = false →
        Completes c s (StopsWith t (excOf s t 0x05 (s.th t).pc 0) s)) := by
  refine ⟨fun h => .of_ifRun hc hr hx ?_ (.of_goto hc hr rd v _), fun h hd => .stopsWith hc hr hx hd ?_⟩
  · rw [hg, State.jump_near h, hk]
  · rw [hg, State.jump_far h, State.th_issued]

end

end Sys2Proof.Machine
end

/-! PROOFS. The immediate instructions (spec/09 R207). -/

section
namespace Sys2Proof.Machine

/-- SLTI compares with the immediate's own signed value. -/
theorem slt_signExtend (a : Word) (imm : BitVec 16) : a.slt (imm.signExtend 64) = decide (a.toInt < imm.toInt) := by
  rw [BitVec.slt_eq_decide, BitVec.toInt_signExtend_of_le (by decide)]

/-- Half-word `h` takes the bits of `imm`, and every other bit is as before. -/
theorem getLsbD_insHalf (v : Word) (h : Nat) (imm : BitVec 16) (i : Nat) (hi : i < 64) :
    (insHalf v h imm).getLsbD i = if i / 16 = h then imm.getLsbD (i % 16) else v.getLsbD i := by
  have mask : (0xFFFF : Word) = (BitVec.allOnes 16).setWidth 64 := by decide
  unfold insHalf
  rw [mask]
  simp only [BitVec.getLsbD_or, BitVec.getLsbD_and, BitVec.getLsbD_not, BitVec.getLsbD_shiftLeft, BitVec.getLsbD_setWidth,
    BitVec.getLsbD_allOnes, hi, decide_true, Bool.true_and, BitVec.truncate_eq_setWidth]
  by_cases hh : i / 16 = h
  · have hge : ¬i < 16 * h := by omega
    have hoff : i - 16 * h = i % 16 := by omega
    have hlt : i % 16 < 16 := by omega
    have hlt' : i % 16 < 64 := by omega
    simp [hh, hge, hoff, hlt, hlt']
  · rcases Nat.lt_or_ge i (16 * h) with hlt | hge
    · simp [hh, hlt]
    · have hout : 16 ≤ i - 16 * h := by omega
      simp [hh, BitVec.getLsbD_of_ge imm _ hout, Nat.not_lt.mpr hout]

theorem extractLsb'_insHalf (v : Word) (h i : Fin 4) (imm : BitVec 16) :
    (insHalf v h imm).extractLsb' (16 * i) 16 = if i = h then imm else v.extractLsb' (16 * i) 16 := by
  ext j hj
  have hi : 16 * i.val + j < 64 := by omega
  have hq : (16 * i.val + j) / 16 = i := by omega
  have hm : (16 * i.val + j) % 16 = j := by omega
  simp only [BitVec.getElem_extractLsb', getLsbD_insHalf v h imm _ hi, hq, hm, Fin.val_inj]
  split
  · exact BitVec.getLsbD_eq_getElem hj
  · rw [BitVec.getElem_extractLsb']

/-- The fields of SHI's immediate: the amount, the kind and the bits that are zero. -/
theorem shi_fields (imm : BitVec 16) : bitsN imm.toNat 0 6 = imm.toNat % 64 ∧
    bitsN imm.toNat 6 2 = imm.toNat / 64 % 4 ∧ bitsN imm.toNat 8 8 = imm.toNat / 256 := by
  have := imm.isLt
  simp only [bitsN, Nat.shiftRight_eq_div_pow]
  omega

theorem shiResult_reserved {imm : BitVec 16} (h : imm.toNat / 256 ≠ 0 ∨ imm.toNat / 64 % 4 = 3) (a : Word) :
    shiResult a imm = none := by
  obtain ⟨-, kind, high⟩ := shi_fields imm
  rcases h with h | h <;> simp [shiResult, kind, high, h]

/-- Settles O7: each form writes its value behind the issue, and INS16's value is known by its half-words. -/
theorem immediateInstructions : Obligations.ImmediateInstructions := by
  intro s t rd ra imm hc hr
  dsimp only
  refine ⟨?addi, ?andi, ?ori, ?xori, ?slti, ?sltiu, ?movi, ?ins16, ?shi, ?illegal⟩
  case addi | andi | ori | xori => exact .writesRd hc hr rfl (by rw [State.reg_issued])
  case slti => exact .writesRd hc hr rfl (by simp [slt_signExtend])
  case sltiu => exact .writesRd hc hr rfl (by simp [BitVec.ult_eq_decide])
  case movi => exact .writesRd hc hr rfl (by rw [if_pos rfl])
  case ins16 =>
    intro h
    refine .of_ifRun hc hr rfl (by rw [if_pos h.isLt]) ⟨_, .of_writeRd hc hr rd _, fun i => ?_⟩
    rw [State.reg_issued]
    exact extractLsb'_insHalf (s.reg t rd) h i imm
  case shi =>
    obtain ⟨amount, kind, high⟩ := shi_fields imm
    intro h0
    refine ⟨fun hk => ?_, fun hk => ?_, fun hk => ?_⟩ <;>
      exact .writesRd hc hr rfl (by simp [shiResult, amount, kind, high, h0, hk])
  case illegal =>
    intro hd
    refine ⟨fun h => ?_, fun h => ?_, fun h => ?_⟩
    · exact .stopsWith hc hr rfl hd (by simp [shiResult_reserved h])
    · exact .stopsWith hc hr rfl hd (by simp [h])
    · exact .stopsWith hc hr rfl hd (by simp [Nat.not_lt.mpr h])

end Sys2Proof.Machine
end

/-! PROOFS. The OP major (spec/09 R206). -/

section
namespace Sys2Proof.Machine

/-- The signed quotient; the most negative number over -1 wraps. -/
theorem sdiv_eq_ofInt_tdiv (a b : Word) : a.sdiv b = BitVec.ofInt 64 (a.toInt.tdiv b.toInt) := by
  apply BitVec.eq_of_toInt_eq
  rw [BitVec.toInt_sdiv, BitVec.toInt_ofInt]

theorem srem_eq_ofInt_tmod (a b : Word) : a.srem b = BitVec.ofInt 64 (a.toInt.tmod b.toInt) := by
  rw [← BitVec.toInt_srem, BitVec.ofInt_toInt]

theorem udiv_eq_ofNat_div (a b : Word) : a / b = BitVec.ofNat 64 (a.toNat / b.toNat) := by
  rw [← BitVec.toNat_udiv, BitVec.ofNat_toNat, BitVec.setWidth_eq]

theorem umod_eq_ofNat_mod (a b : Word) : a % b = BitVec.ofNat 64 (a.toNat % b.toNat) := by
  rw [← BitVec.toNat_umod, BitVec.ofNat_toNat, BitVec.setWidth_eq]

theorem opResult_reserved {fn : Nat} (h : 0x14 < fn) (a b : Word) : opResult fn a b = none := by
  obtain ⟨k, rfl⟩ := Nat.exists_eq_add_of_le' h
  rfl

/-- The 21 functions one by one: only the divisions are stated otherwise than the model computes them. -/
theorem opResult_listed {fn : Nat} (h : fn ≤ 0x14) (a b : Word) : opResult fn a b = some (opTable fn a b) := by
  interval_cases fn <;>
    simp [opResult, opTable, BitVec.slt_eq_decide, BitVec.ult_eq_decide, sdiv_eq_ofInt_tdiv, srem_eq_ofInt_tmod,
      udiv_eq_ofNat_div, umod_eq_ofNat_mod, Nat.shiftRight_eq_div_pow]

/-- Settles O8, by the value of each listed FN and the absence of one for the others. -/
theorem opResults : Obligations.OpResults := by
  intro s t rd ra rb fn u hc hr hu
  refine ⟨fun h => .writesRd hc hr rfl ?_, fun h hd => .stopsWith hc hr rfl hd ?_⟩
  · simp [State.lockstep_ok hu, opResult_listed h]
  · simp [State.lockstep_ok (u := .clean) nofun, opResult_reserved h]

end Sys2Proof.Machine
end

/-! PROOFS. AMO on the shared window (spec/09 R210). -/

section
namespace Sys2Proof.Machine

theorem amoResult_reserved {fn : Nat} (h : 3 < fn) (old b c : Word) : amoResult fn old b c = none := by
  obtain ⟨k, rfl⟩ := Nat.exists_eq_add_of_le' h
  rfl

theorem amoResult_listed {fn : Nat} (h : fn ≤ 3) (old b c : Word) : amoResult fn old b c =
    some ([old + b, b, if old = c then b else old, if old.toInt < b.toInt then b else old].getD fn 0) := by
  interval_cases fn <;> simp [amoResult, BitVec.slt_eq_decide]

/-- An aligned word lies in the shared window exactly when its address does (R198). -/
theorem dataWindow_shared_iff {a : Nat} (h : a % 8 = 0) : dataWindow a 8 = some 4 ↔ 0x30000 ≤ a ∧ a < 0x40000 := by
  unfold dataWindow
  split_ifs <;> simp_all <;> omega

theorem State.dataRead_dmem (s : State) (t : Thread) {a : Nat} (h : a < 0x40000) (n : Nat) :
    s.dataRead t a n = Mem.num s.sash.dmem a n := if_pos h

theorem Memory.num_putWord (m : Mem) (a : Nat) (v : Word) : Mem.num (Mem.putNum m a 8 v.toNat) a 8 = v.toNat := by
  rw [Memory.num_putNum]
  exact Nat.mod_eq_of_lt v.isLt

theorem Memory.look_putNum_outside (m : Mem) {a n x : Nat} (v : Nat) (h : x < a ∨ a + n ≤ x) :
    SMap.look (Mem.putNum m a n v) 0 x = SMap.look m 0 x := by
  rw [Mem.putNum, Memory.look_putBytes, natLe_length, if_neg (by omega)]

/-- A store into the data memory followed by a register write: beside the register only the data memory changes. -/
theorem WritesRd.of_dataWrite {s : State} {t : Thread} (hc : s.calm) (hr : (s.th t).state = .run) (rd : Reg) (v : Word)
    (a n x : Nat) :
    WritesRd t rd v ((s.th t).pc + 4)
      { s with sash := { s.sash with dmem := (((s.issuedBy t).dataWrite a n x).writeRd t rd v).sash.dmem } }
      (((s.issuedBy t).dataWrite a n x).writeRd t rd v) ∧
    (((s.issuedBy t).dataWrite a n x).writeRd t rd v).sash.dmem = Mem.putNum s.sash.dmem a n x := by
  have hth : (s.dataWrite a n x).th t = s.th t := by cases t <;> rfl
  have hw := WritesRd.of_writeRd (s := s.dataWrite a n x) (t := t) hc (by rw [hth, hr]) rd v
  rw [hth] at hw
  have hm : (((s.issuedBy t).dataWrite a n x).writeRd t rd v).sash.dmem = Mem.putNum s.sash.dmem a n x :=
    congrArg Sash.dmem hw.sash
  exact ⟨by rw [hm]; exact hw, hm⟩

/-- Settles O15: the function is checked first, then the alignment, then the window. -/
theorem amoInstruction : Obligations.AmoInstruction := by
  intro s t rd ra rb rc fn hc hr at' a old b new stops
  refine ⟨fun h => ?listed, fun hd h => .stopsWith hc hr rfl hd (by simp [amoResult_reserved h])⟩
  refine ⟨fun hlo hhi ha => ?shared, fun hd => ⟨fun ha => ?misaligned, fun ha hw => ?outside⟩⟩
  case shared =>
    have hold : w64 ((s.issuedBy t).dataRead t (s.reg t ra).toNat 8) = old :=
      congrArg w64 (State.dataRead_dmem _ _ hhi _)
    have hnew : amoResult fn.toNat old (s.reg t rb) (s.reg t rc) = some new := amoResult_listed h _ _ _
    have hal : (s.reg t ra).toNat % 8 = 0 := ha
    have hwin : dataWindow (s.reg t ra).toNat 8 = some 4 := (dataWindow_shared_iff hal).mpr ⟨hlo, hhi⟩
    have hup : (s.issuedBy t).upsetAt .dmem = .clean := State.upsetAt_calm hc _
    obtain ⟨hw, hm⟩ := WritesRd.of_dataWrite hc hr rd old (s.reg t ra).toNat 8 new.toNat
    refine .of_ifRun hc hr rfl ?acts ⟨hw, ?_, fun x hx => ?_⟩
    case acts => simp only [State.reg_issued, hold, hnew, hal, hwin, hup, ne_eq, not_true, if_false]
    · rw [hm, Memory.num_putWord]
    · rw [hm, Memory.look_putNum_outside _ _ hx]
  case misaligned =>
    have hal : (s.reg t ra).toNat % 8 ≠ 0 := ha
    exact .stopsWith hc hr rfl hd (by simp [amoResult_listed h, hal, at'])
  case outside =>
    have hal : (s.reg t ra).toNat % 8 = 0 := ha
    have hout : (s.reg t ra).toNat < 0x30000 ∨ 0x40000 ≤ (s.reg t ra).toNat := hw
    have hwin : dataWindow (s.reg t ra).toNat 8 ≠ some 4 := mt (dataWindow_shared_iff hal).mp (by omega)
    exact .stopsWith hc hr rfl hd (by simp [amoResult_listed h, hal, hwin, at'])

end Sys2Proof.Machine
end

/-! PROOFS. Branches and jumps (spec/09 R212). -/

section
namespace Sys2Proof.Machine

/-- What R212 says of the branch `c` of thread `t` whose condition is `p`. -/
def BranchGoes (s : State) (t : Thread) (off : BitVec 16) (p : Prop) (c : Instr) : Prop :=
  let target : Word := (s.th t).pc.zeroExtend 64 + 4 * off.signExtend 64
  (¬p → Completes c s (WritesRd t 0 0 ((s.th t).pc + 4) s)) ∧
    (p → target.toNat < 2 ^ 48 → Completes c s (WritesRd t 0 0 (target.setWidth 48) s)) ∧
    (p → 2 ^ 48 ≤ target.toNat → doubleFault s t = false →
      Completes c s (StopsWith t (excOf s t 0x05 (s.th t).pc 0) s))

/-- The model's branch goes as R212 says when the comparison that it makes decides the condition. -/
theorem BranchGoes.of_branch {s : State} {t : Thread} {c : Instr} {g : State → State} {taken : Bool} {off : BitVec 16}
    {p : Prop} (hc : s.calm) (hr : (s.th t).state = .run) (hx : exec c s = .next (s.ifRun t g))
    (hg : g (s.issuedBy t) = (s.issuedBy t).branch t taken off) (hp : taken = true ↔ p) : BranchGoes s t off p c := by
  have behind : ¬p → taken = false := fun h => by simpa using mt hp.mp h
  have jumps := fun h : p => Completes.jumps (rd := 0) (v := 0) (k := id) hc hr hx
    (by rw [hg, hp.mpr h, State.branch, if_pos rfl, State.pcRel_issued]) rfl
  exact ⟨fun h => .writesRd hc hr hx (by rw [hg, behind h]; rfl), fun h => (jumps h).1, fun h => (jumps h).2⟩

theorem branchInstructions : BranchInstructions := by
  intro s t ra rb off hc hr
  refine ⟨?beq, ?bne, ?blt, ?bge, ?bltu, ?bgeu⟩ <;> refine BranchGoes.of_branch hc hr rfl rfl ?_ <;>
    simp [BitVec.slt_eq_decide, BitVec.ult_eq_decide]

theorem jumpInstructions : JumpInstructions := by
  intro s t rd ra off imm hc hr
  obtain ⟨jalNear, jalFar⟩ := Completes.jumps (c := .jal t off) (rd := 31) hc hr rfl
    (by rw [State.pcRel_issued]) (by rw [State.linkAddr_issued])
  obtain ⟨jalrNear, jalrFar⟩ := Completes.jumps (c := .jalr t rd ra imm) (rd := rd) hc hr rfl
    (by rw [State.reg_issued]) (by rw [State.linkAddr_issued])
  exact ⟨jalNear, jalrNear, fun hd => ⟨fun h => jalFar h hd, fun h => jalrFar h hd⟩⟩

/-- Settles O17. -/
theorem controlTransfers : Obligations.ControlTransfers := ⟨branchInstructions, jumpInstructions⟩

end Sys2Proof.Machine
end

/-! PROOFS. The machine as a whole: a step, the invariants, the frames of commands and the state after reset. -/

section
namespace Sys2Proof.Machine

/-- Settles O1: the definition of a step, by the front of the queue. -/
theorem stepRunsFrontCommand : Obligations.StepRunsFrontCommand :=
  ⟨fun s c rest h => by rw [step, h], fun s h => by rw [step, h]⟩

/-- Settles O2, by evaluation of the state after reset. -/
theorem resetInvariants : Obligations.ResetInvariants :=
  ⟨⟨rfl, rfl, rfl⟩, Nat.zero_le _, rfl, List.nodup_nil, nofun⟩

/-- The next state of a step keeps the invariants; the front of the queue, which no invariant speaks of, is gone. -/
theorem step_next_keeps {s s' : State} (h : step s = .next s') : ({ s with pending := s.pending.tail } : State).Keeps s' := by
  obtain ⟨z, hz, hk⟩ := step_keeps s
  rw [hz] at h
  cases h
  exact hk

/-- Settles O3. -/
theorem stepKeepsStorage : Obligations.StepKeepsStorage := fun _ _ hw h =>
  (step_next_keeps h).storage ⟨hw.dmem, hw.spad, hw.sill⟩

/-- Settles O4. -/
theorem stepKeepsInvariants : Obligations.StepKeepsInvariants := fun _ _ h =>
  have k := step_next_keeps h
  ⟨k.exc, k.period, k.tags, k.live⟩

/-- Settles O5: `exec_keeps` answers for the queue, and `exec_same` for the bytes. -/
theorem commandFrames : Obligations.CommandFrames := by
  intro c s
  obtain ⟨z, hz, hk⟩ := exec_keeps c (State.Keeps.refl s)
  refine ⟨z, hz, hk.queue, fun hm => ?_⟩
  obtain ⟨y, hy, same⟩ := exec_same c hm (State.Same.refl s)
  obtain rfl : z = y := by rw [hz] at hy; cases hy; rfl
  exact ⟨same.spad, same.sill, same.dmem⟩

/-- Settles O6, by evaluation of the state after reset. -/
theorem resetState : Obligations.ResetState := by
  refine ⟨fun t => ?threads, rfl, rfl, fun l => rfl, fun b k => ?latches, rfl, rfl, rfl, rfl, rfl, rfl, rfl, rfl, rfl, rfl,
    rfl, rfl, rfl, rfl, rfl, rfl, rfl, rfl, rfl, rfl, rfl, rfl, rfl⟩
  case threads => cases t <;> rfl
  case latches => rfl

/-- The window of an aligned address (R198): the five parts of the map, and none behind them. -/
theorem dataWindow_aligned {a n : Nat} (hn : n = 1 ∨ n = 2 ∨ n = 4 ∨ n = 8) (h : a % n = 0) :
    dataWindow a n = if a < 0x30000 then some (a / 0xC000) else if a < 0x40000 then some 4
      else if a < 0x44818 then some 5 else none := by
  have h1 : a + n ≤ 0x30000 ↔ a < 0x30000 := by rcases hn with rfl | rfl | rfl | rfl <;> omega
  have h2 : a + n ≤ 0x40000 ↔ a < 0x40000 := by rcases hn with rfl | rfl | rfl | rfl <;> omega
  have h3 : a + n ≤ 0x44818 ↔ a < 0x44818 := by rcases hn with rfl | rfl | rfl | rfl <;> omega
  simp only [dataWindow, h1, h2, h3, Bool.and_eq_true, decide_eq_true_eq]
  grind

/-- The thread windows are open to their thread and to S. -/
theorem windowOk_thread {w : Nat} (hw : w < 4) (t : Thread) (write : Bool) :
    windowOk t w write = true ↔ w = Thread.num t ∨ t = .S := by
  interval_cases w <;> simp [windowOk]

/-- Settles O11: the alignment is checked first, then the window of the address. -/
theorem dataAccessRules : Obligations.DataAccessRules := by
  intro t a n write hn
  have window := fun h : a.toNat % n = 0 => dataWindow_aligned hn h
  refine ⟨fun h => if_pos h, fun h lo => ?outside, fun h lo hi => ?groups, fun h lo hi => ?shared, fun h hi => ?own⟩
  all_goals simp only [dataCause, h, ne_eq, not_true, if_false, window h]
  case outside => simp [show ¬a.toNat < 0x30000 by omega, show ¬a.toNat < 0x40000 by omega, Nat.not_lt.mpr lo]
  case groups => cases write <;> simp [windowOk, show ¬a.toNat < 0x30000 by omega, Nat.not_lt.mpr lo, hi]
  case shared => simp [windowOk, Nat.not_lt.mpr lo, hi]
  case own => simp [windowOk_thread (show a.toNat / 0xC000 < 4 by omega), hi]

end Sys2Proof.Machine
end

/-! PROOFS. Little-endian bytes, and the data memory as bytes (spec/00 R12, spec/09 R199). -/

section
namespace Sys2Proof.Machine

theorem natLe_eq_map (n v : Nat) : natLe n v = (List.range n).map fun i => BitVec.ofNat 8 (v / 256 ^ i) := by
  induction n generalizing v with
  | zero => rfl
  | succ n ih =>
    rw [natLe, ih, List.range_succ_eq_map, List.map_cons, List.map_map]
    simp [Function.comp_def, Nat.pow_succ, Nat.div_div_eq_div_mul, Nat.mul_comm]

theorem leNat_map_eq_sum (n : Nat) (f : Nat → Byte) :
    leNat ((List.range n).map f) = ((List.range n).map fun i => (f i).toNat * 256 ^ i).sum := by
  induction n generalizing f with
  | zero => rfl
  | succ n ih =>
    simp only [List.range_succ_eq_map, List.map_cons, List.map_map, leNat, ih, List.sum_cons, Function.comp_def]
    rw [← List.sum_map_mul_left]
    simp [Nat.pow_succ, Nat.mul_comm, Nat.mul_left_comm]

theorem ofNat_byte_eq_extractLsb' (v : Word) (i : Nat) : BitVec.ofNat 8 (v.toNat / 256 ^ i) = v.extractLsb' (8 * i) 8 := by
  rw [show 256 ^ i = 2 ^ (8 * i) by rw [Nat.pow_mul], ← Nat.shiftRight_eq_div_pow]
  rfl

/-- The low bytes of a word as a store writes them. -/
theorem natLe_word (n : Nat) (v : Word) :
    natLe n v.toNat = (List.range n).map fun i => v.extractLsb' (8 * i) 8 := by
  simp only [natLe_eq_map, ofNat_byte_eq_extractLsb']

theorem cellsAt_eq_map (a : Nat) (bs : List Byte) :
    cellsAt a bs = (List.range bs.length).map fun i => (a + i, bs.getD i 0) := by
  induction bs generalizing a with
  | nil => rfl
  | cons b r ih =>
    rw [cellsAt, ih, List.length_cons, List.range_succ_eq_map, List.map_cons, List.map_map]
    simp [Function.comp_def, Nat.add_comm, Nat.add_left_comm]

/-- The cells of the low bytes of a word. -/
theorem cellsAt_word (a n : Nat) (v : Word) :
    cellsAt a (natLe n v.toNat) = (List.range n).map fun i => (a + i, v.extractLsb' (8 * i) 8) := by
  rw [cellsAt_eq_map, natLe_length, natLe_word]
  refine List.map_congr_left fun i hi => ?_
  simp [List.mem_range.mp hi]

/-- Bytes of one block need one request. -/
theorem blocksOf_same {as : List Nat} {b : Nat} (h : ∀ a ∈ as, a / 256 = b) (hne : as ≠ []) : blocksOf as = [b] := by
  have stays : ∀ l : List Nat, (∀ a ∈ l, a / 256 = b) → l.foldl (fun l a => insertNat (a / 256) l) [b] = [b] := by
    intro l hl
    induction l with
    | nil => rfl
    | cons a r ih => simp [insertNat, hl a (by simp), ih fun c hc => hl c (by simp [hc])]
  cases as with
  | nil => exact absurd rfl hne
  | cons a r => simp [blocksOf, insertNat, h a (by simp), stays r fun c hc => h c (by simp [hc])]

theorem writeReqs_same {o : Owner} {c : Client} {cs : List Host.Cell} {b : Nat} (h : ∀ x ∈ cs, x.1 / 256 = b)
    (hne : cs ≠ []) (held : Bool) : writeReqs o c held cs = [writeReq o c held none b cs] := by
  have one : blocksOf (cs.map fun x => x.1) = [b] :=
    blocksOf_same (by simpa using fun a v hx => h (a, v) hx) (by simpa using hne)
  have all : cs.filter (fun x => x.1 / 256 = b) = cs := List.filter_eq_self.mpr fun x hx => by simp [h x hx]
  simp [writeReqs, cellBlocks, one, all]

/-- The read of an aligned double-word: one sector of one block. -/
theorem readRange_word (o : Owner) (c : Client) {a : Nat} (h : a % 8 = 0) :
    readRange o c a 8 = [readReq o c (a / 256) (BitVec.ofNat 8 (2 ^ (a % 256 / 32)))] := by
  have one : (a + 8 - 1) / 256 - a / 256 + 1 = 1 := by omega
  have sector : ∀ j < 8, (256 * (a / 256) + 32 * j < a + 8 ∧ a < 256 * (a / 256) + 32 * j + 32) ↔ j = a % 256 / 32 := by omega
  have hk : a % 256 / 32 < 8 := by omega
  generalize a % 256 / 32 = k at sector hk
  have mask : (List.range 8).foldl (fun m j =>
      if decide (256 * (a / 256) + 32 * j < a + 8) && decide (a < 256 * (a / 256) + 32 * j + 32) then m + 2 ^ j else m) 0 =
      (List.range 8).foldl (fun m j => if j = k then m + 2 ^ j else m) 0 :=
    List.foldl_ext _ _ _ fun m j hj => by simp [sector j (List.mem_range.mp hj)]
  simp only [readRange, one, List.range_one, List.map_cons, List.map_nil, Nat.add_zero, mask]
  interval_cases k <;> rfl

end Sys2Proof.Machine
end

/-! PROOFS. Loads, stores and accesses of memory (spec/09 R198 to R200, R209, R211). -/

section
namespace Sys2Proof.Machine

section
variable {s : State} {t : Thread} {c : Instr} {g : State → State}
variable (hc : s.calm) (hr : (s.th t).state = .run) (hx : exec c s = .next (s.ifRun t g))
include hc hr hx

/-- An instruction that writes rd behind another change `z` of the state. -/
theorem Completes.writesRd_of {z : State} (hcz : z.calm) (hrz : (z.th t).state = .run) {rd : Reg} {v : Word}
    {P : State → Prop} (hg : g (s.issuedBy t) = (z.issuedBy t).writeRd t rd v)
    (hp : ∀ s', WritesRd t rd v ((z.th t).pc + 4) z s' → P s') : Completes c s P :=
  .of_ifRun hc hr hx hg (hp _ (.of_writeRd hcz hrz rd v))

end

theorem State.groupWindow_issued (s : State) (u : Thread) : (s.issuedBy u).groupWindow = s.groupWindow := by
  have plane : (s.issuedBy u).plane = s.plane := rfl
  funext c i
  simp only [State.groupWindow, State.groupEntry, State.groupState, State.frameOf, plane]

theorem State.dataRead_issued (s : State) (t u : Thread) (a n : Nat) : (s.issuedBy u).dataRead t a n = s.dataRead t a n := by
  have bytes : (s.issuedBy u).sash.dmem = s.sash.dmem := rfl
  rw [State.dataRead, State.dataRead, State.th_issued, State.groupWindow_issued, bytes]

/-- A refused load or store stops its thread with the cause of the refusal (R200). -/
theorem Completes.load_stops {s : State} {t : Thread} {c : Instr} {rd ra : Reg} {imm : BitVec 16} {u : Upset} {n k : Nat}
    {ext : Nat → Word} (hc : s.calm) (hr : (s.th t).state = .run) (hd : doubleFault s t = false)
    (hx : exec c s = .next (s.load t rd ra imm u n ext))
    (h : dataCause t (s.reg t ra + imm.signExtend 64) n false = some k) :
    Completes c s (StopsWith t (excOf s t k (s.th t).pc (s.reg t ra + imm.signExtend 64)) s) :=
  .stopsWith hc hr hx hd (by simp [h])

theorem Completes.store_stops {s : State} {t : Thread} {c : Instr} {rd ra : Reg} {imm : BitVec 16} {u : Upset} {n k : Nat}
    (hc : s.calm) (hr : (s.th t).state = .run) (hd : doubleFault s t = false)
    (hx : exec c s = .next (s.store t rd ra imm u n))
    (h : dataCause t (s.reg t ra + imm.signExtend 64) n true = some k) :
    Completes c s (StopsWith t (excOf s t k (s.th t).pc (s.reg t ra + imm.signExtend 64)) s) :=
  .stopsWith hc hr hx hd (by simp [h])

/-- Settles O14. -/
theorem dataAccessStops : Obligations.DataAccessStops := by
  intro s t rd ra imm u hc hr hd
  refine ⟨fun k h => ⟨?_, ?_⟩, fun k h => ⟨?_, ?_⟩, fun k h => ⟨?_, ?_⟩, fun k h => ?_, fun k h => ?_, fun k h => ?_,
    fun k h => ?_, fun k h => ?_⟩
  iterate 7 exact .load_stops hc hr hd rfl h
  iterate 4 exact .store_stops hc hr hd rfl h

/-- A load that passes the check gives rd the bytes that it reads (R209). -/
theorem Completes.load_clean {s : State} {t : Thread} {c : Instr} {rd ra : Reg} {imm : BitVec 16} {n : Nat}
    {ext : Nat → Word} (hc : s.calm) (hr : (s.th t).state = .run)
    (hx : exec c s = .next (s.load t rd ra imm .clean n ext))
    (h : dataCause t (s.reg t ra + imm.signExtend 64) n false = none) :
    Completes c s (WritesRd t rd (ext (s.dataRead t (s.reg t ra + imm.signExtend 64).toNat n)) ((s.th t).pc + 4) s) :=
  .writesRd hc hr hx (by simp [h, State.dataRead_issued])

theorem loadInstructions : LoadInstructions := by
  intro s t rd ra imm hc hr
  have signed := fun (c : Instr) (n w : Nat) => Completes.load_clean (c := c) (rd := rd) (ra := ra) (imm := imm) (n := n) (ext := sext w) hc hr
  have zeroed := fun (c : Instr) (n : Nat) => Completes.load_clean (c := c) (rd := rd) (ra := ra) (imm := imm) (n := n) (ext := w64) hc hr
  refine ⟨fun h => ⟨signed _ 1 8 rfl h, zeroed _ 1 rfl h⟩, fun h => ⟨signed _ 2 16 rfl h, zeroed _ 2 rfl h⟩,
    fun h => ⟨signed _ 4 32 rfl h, zeroed _ 4 rfl h⟩, fun h => ⟨zeroed _ 8 rfl h, ?corrected⟩⟩
  have hth : s.dmemCe.th t = s.th t := by cases t <;> rfl
  refine .writesRd_of (z := s.dmemCe) hc hr rfl hc (by rw [hth, hr]) (v := BitVec.ofNat 64 (s.dataRead t _ 8)) ?_
    fun s' hw => hth ▸ hw
  simp only [State.reg_issued, h, State.dataRead_issued]
  rfl

/-- The words of the group-table window (R199). -/
theorem State.dataRead_window (s : State) (t : Thread) {i : Nat} :
    s.dataRead t (0x40000 + 8 * i) 8 = (s.groupWindow (s.th t).ctx i).toNat := by
  have hi : (0x40000 + 8 * i - 0x40000) / 8 = i := by omega
  have hm : 8 * ((0x40000 + 8 * i) % 8) = 0 := by omega
  have hlt := (s.groupWindow (s.th t).ctx i).isLt
  rw [State.dataRead, if_neg (by omega), hi, hm, bitsN, Nat.shiftRight_zero, Nat.mod_eq_of_lt hlt]

theorem dataReadValue : DataReadValue := by
  intro s t a
  refine ⟨fun n h => ?dmem, fun g j hg hj => ?entry, fun g hg => ?group, s.dataRead_window t (i := 2304),
    s.dataRead_window t (i := 2305), s.dataRead_window t (i := 2306)⟩
  case dmem => rw [State.dataRead_dmem s t h, Mem.num, Mem.bytes, leNat_map_eq_sum]
  case entry =>
    rw [show 0x40000 + 64 * g + 8 * j = 0x40000 + 8 * (8 * g + j) by omega, s.dataRead_window, State.groupWindow]
    simp [show 8 * g + j < 2048 by omega, show (8 * g + j) / 8 = g by omega, Nat.mod_eq_of_lt hj]
  case group =>
    rw [show 0x44000 + 8 * g = 0x40000 + 8 * (2048 + g) by omega, s.dataRead_window, State.groupWindow]
    simp [show 2048 + g < 2304 by omega]

/-- Settles O12. -/
theorem dataLoads : Obligations.DataLoads := ⟨loadInstructions, dataReadValue⟩

/-- A store that passes the check writes the low bytes of its register (R209). -/
theorem Completes.store_clean {s : State} {t : Thread} {c : Instr} {rd ra : Reg} {imm : BitVec 16} {u : Upset} {n : Nat}
    (hc : s.calm) (hr : (s.th t).state = .run) (hu : ∀ d, u ≠ .fatal d)
    (hx : exec c s = .next (s.store t rd ra imm u n))
    (h : dataCause t (s.reg t ra + imm.signExtend 64) n true = none) :
    Completes c s (StoresTo t (s.reg t ra + imm.signExtend 64).toNat
      ((List.range n).map fun i => (s.reg t rd).extractLsb' (8 * i) 8) s) := by
  obtain ⟨hw, hm⟩ := WritesRd.of_dataWrite hc hr 0 0 (s.reg t ra + imm.signExtend 64).toNat n (s.reg t rd).toNat
  have hbytes := natLe_word n (s.reg t rd)
  refine .of_ifRun hc hr hx (by simp [h, State.lockstep_ok hu]; rfl) ⟨hw.toRegFrame, fun r => ?_, hw.pcNow, fun i hi => ?_,
    fun b hb => ?_⟩
  · rw [hw.regs r, if_neg (by simp)]
    cases t <;> rfl
  · rw [hm, Mem.putNum, Memory.look_putBytes, hbytes, if_pos (by omega), Nat.add_sub_cancel_left]
  · rw [hm, Mem.putNum, Memory.look_putBytes, hbytes, if_neg (by omega)]

/-- Settles O13. -/
theorem storeInstructions : Obligations.StoreInstructions := by
  intro s t rd ra imm u hc hr hu
  refine ⟨fun h => ?_, fun h => ?_, fun h => ?_, fun h => ?_⟩
  iterate 4 exact .store_clean hc hr hu rfl h

theorem memAddrOk_iff (a : Word) : memAddrOk a = true ↔ a.toNat % 8 = 0 ∧ a.toNat < 2 ^ 48 := by
  simp [memAddrOk]

/-- The cells of an aligned double-word lie in one block. -/
theorem cellsAt_word_block {a : Nat} (h : a % 8 = 0) (v : Word) :
    ∀ x ∈ cellsAt a (natLe 8 v.toNat), x.1 / 256 = a / 256 := by
  simp only [cellsAt_word, List.mem_map, List.mem_range]
  rintro x ⟨i, hi, rfl⟩
  dsimp only
  omega

/-- What an accepted MST leaves behind it beside its thread's pc: the write of its 8 bytes, and one more unacknowledged. -/
def mstPosted (s : State) (t : Thread) (a : Nat) (v : Word) : State :=
  ({ s with jamb := { s.jamb with reqs := s.jamb.reqs ++
    [writeReq (.mst t (s.th t).pc) .mldMst false none (a / 256) (cellsAt a (natLe 8 v.toNat))] } } : State).modTh t fun x =>
      { x with mstOut := x.mstOut + 1 }

/-- Settles O16. -/
theorem memoryInstructions : Obligations.MemoryInstructions := by
  intro s t rd ra imm n hc hr
  generalize ha : s.reg t ra + imm.signExtend 64 = a
  have accepted : a.toNat % 8 = 0 → a.toNat < 2 ^ 48 → memAddrOk a = true := fun h1 h2 => (memAddrOk_iff a).mpr ⟨h1, h2⟩
  refine ⟨fun hal hlt => ⟨?mld, ?mst⟩, fun h => ?goes, fun h => ?waits, fun hd h => ?refused⟩
  case mld =>
    refine .of_ifRun hc hr rfl (s' := ((s.issuedBy t).jambAdd _).modTh t _ |>.waitMem t _)
      (by simp only [State.reg_issued, ha, accepted hal hlt, if_true, readRange_word _ _ hal, State.th_issued]; rfl)
      ⟨readReq (.mld t a.toNat (s.th t).accesses) .mldMst (a.toNat / 256) (BitVec.ofNat 8 (2 ^ (a.toNat % 256 / 32))), ?_,
        rfl, rfl, rfl, rfl, rfl⟩
    cases t <;> rfl
  case mst =>
    have one := writeReqs_same (o := .mst t (s.th t).pc) (c := .mldMst) (cellsAt_word_block hal (s.reg t rd)) nofun false
    have acts : (mstPosted s t a.toNat (s.reg t rd)).issuedBy t =
      ((s.issuedBy t).jambAdd (writeReqs (.mst t (s.th t).pc) .mldMst false
        (cellsAt a.toNat (natLe 8 (s.reg t rd).toNat)))).modTh t fun x => { x with mstOut := x.mstOut + 1 } := by
      rw [one]
      cases t <;> rfl
    refine .writesRd_of (z := mstPosted s t a.toNat (s.reg t rd)) (rd := 0) (v := 0) hc hr rfl (by cases t <;> exact hc)
      (by cases t <;> exact hr) ?_ fun s' hw => ⟨_, hw.toRegFrame, fun k => ?_, ?_, rfl, rfl, rfl, rfl, ?_⟩
    · rw [acts]
      simp only [State.reg_issued, ha, accepted hal hlt, if_true, State.th_issued]
      rfl
    · rw [hw.regs k, if_neg (by simp)]
      cases t <;> rfl
    · rw [hw.pcNow]
      cases t <;> rfl
    · exact cellsAt_word a.toNat 8 (s.reg t rd)
  case goes =>
    refine .writesRd_of (z := s) (rd := 0) (v := 0) hc hr rfl hc hr ?_ fun s' hw => ⟨hw.toRegFrame, fun k => ?_, hw.pcNow⟩
    · rw [State.th_issued, if_pos h]
      rfl
    · rw [hw.regs k, if_neg (by simp)]
  case waits =>
    refine .of_ifRun hc hr rfl (s' := (s.issuedBy t).waitMem t .mfence) (by rw [State.th_issued, if_neg h]) ?_
    rw [State.waitMem, State.modTh, State.th_issued]
  case refused =>
    have no : memAddrOk a = false := Bool.eq_false_iff.mpr fun ok => by
      obtain ⟨h1, h2⟩ := (memAddrOk_iff a).mp ok
      omega
    exact ⟨.stopsWith hc hr rfl hd (by simp [ha, no]), .stopsWith hc hr rfl hd (by simp [ha, no])⟩

end Sys2Proof.Machine
end

/-! PROOFS. The FP major (spec/09 R208): the functions on exact values, and the encodings of the corners. -/

section
namespace Sys2Proof.Machine

/-! ### The functions of one format -/

/-- The sum, difference, product and fused product are rounded once. -/
theorem fpArith_exact (l : Layout) {fn : Nat} {a b c v : Val} (h : (fn, v) ∈ fpExactValues a b c) :
    ∃ f, fpArith l fn a b c = some (w64 (l.ofVal .rne 0 v).1, f) ∧ flagsOr f (l.ofVal .rne 0 v).2 = f := by
  have again : ∀ f g : Flags, flagsOr (flagsOr f g) g = flagsOr f g := by simp [flagsOr]
  simp only [fpExactValues, List.mem_cons, Prod.mk.injEq, List.not_mem_nil, or_false] at h
  rcases h with ⟨rfl, rfl⟩ | ⟨rfl, rfl⟩ | ⟨rfl, rfl⟩ | ⟨rfl, rfl⟩ <;> exact ⟨_, rfl, again _ _⟩

theorem Val.eq_nan_of_isNan {v : Val} (h : v.isNan = true) : v = .nan := by
  cases v with
  | nan => rfl
  | inf s => cases h
  | fin s m e => cases h

/-- A binary operation that gives NaN for a NaN on either side. -/
theorem fpExact_nan {l : Layout} {r : Val × Flags} (h : r.1 = .nan) : ∃ f, some (fpExact l r) = some (w64 l.nan, f) := by
  simp [fpExact, h, Layout.ofVal]

theorem Val.mul_nan {a b : Val} (h : a = .nan ∨ b = .nan) : (Val.mul a b).1 = .nan := by
  rcases h with rfl | rfl
  · rfl
  · cases a <;> rfl

theorem Val.add_nan {a b : Val} (h : a = .nan ∨ b = .nan) : (Val.add a b).1 = .nan := by
  rcases h with rfl | rfl
  · rfl
  · cases a <;> rfl

theorem Val.div_nan {a b : Val} (h : a = .nan ∨ b = .nan) : (Val.div a b).1 = .nan := by
  rcases h with rfl | rfl
  · rfl
  · cases a <;> rfl

theorem fmaVal_nan {a b c : Val} (h : a = .nan ∨ b = .nan ∨ c = .nan) : (fmaVal a b c).1 = .nan := by
  unfold fmaVal
  dsimp only
  split
  · rfl
  · rcases h with h | h | h
    · exact Val.add_nan (.inl (Val.mul_nan (.inl h)))
    · exact Val.add_nan (.inl (Val.mul_nan (.inr h)))
    · exact Val.add_nan (.inr h)

/-- A NaN among the operands that an arithmetic function reads gives the canonical NaN. -/
theorem fpArith_nan (l : Layout) {fn : Nat} {a b c : Val} (hf : fn ≤ 7)
    (h : ((fpOperands fn a b c).any fun v => v.isNan) = true) : ∃ f, fpArith l fn a b c = some (w64 l.nan, f) := by
  have nan := fun v : Val => @Val.eq_nan_of_isNan v
  interval_cases fn <;>
    simp only [fpOperands, Nat.reduceMod, List.any_cons, List.any_nil, Bool.or_false, Bool.or_eq_true] at h
  · exact fpExact_nan (Val.add_nan (h.imp (nan a) (nan b)))
  · exact fpExact_nan (Val.add_nan (h.imp (nan a) fun hb => by rw [nan b hb]; rfl))
  · exact fpExact_nan (Val.mul_nan (h.imp (nan a) (nan b)))
  · exact fpExact_nan (Val.div_nan (h.imp (nan a) (nan b)))
  · exact fpExact_nan (by rw [nan a h]; rfl)
  · exact fpExact_nan (fmaVal_nan (h.imp (nan a) (Or.imp (nan b) (nan c))))
  · exact fpExact_nan (by simp [valMin, h])
  · exact fpExact_nan (by simp [valMax, h])

/-- A comparison with a NaN gives 0 and reports the NaN. -/
theorem fpArith_cmp_nan (l : Layout) {fn : Nat} {a b c : Val} (lo : 8 ≤ fn) (hi : fn ≤ 10)
    (h : ((fpOperands fn a b c).any fun v => v.isNan) = true) : fpArith l fn a b c = some (0, flagNanin) := by
  have two : fpOperands fn a b c = [a, b] := by interval_cases fn <;> rfl
  have hn : a.isNan = true ∨ b.isNan = true := by simpa [two] using h
  have flags : nanFlags a b = flagNanin := by simp [nanFlags, hn]
  have lt : Val.lt a b = false := by
    rcases hn with h | h <;> rw [Val.eq_nan_of_isNan h]
    · rfl
    · cases a <;> rfl
  have eq : Val.eq a b = false := by rcases hn with h | h <;> simp [Val.eq, h]
  interval_cases fn <;> simp [fpArith, fpCmp, lt, eq, flags]

/-- A nonzero finite value over a zero. -/
theorem fpArith_div_zero (l : Layout) {s t : Bool} {m : Nat} {e f : Int} (c : Val) (hm : m ≠ 0) :
    ∃ g, fpArith l 3 (.fin s m e) (.fin t 0 f) c = some (w64 (l.signed (s != t) l.infBits), g) ∧ g.divZero = true := by
  exact ⟨_, by simp [fpArith, fpExact, Val.div, hm, Layout.ofVal]; rfl, rfl⟩

/-- The value is negative and not a zero: -∞ among them. -/
def Val.below (v : Val) : Prop := v = .inf true ∨ ∃ m e, v = .fin true m e ∧ m ≠ 0

theorem fpArith_sqrt_below (l : Layout) {a : Val} (b c : Val) (h : a.below) :
    ∃ g, fpArith l 4 a b c = some (w64 l.nan, g) ∧ g.invalid = true := by
  rcases h with rfl | ⟨m, e, rfl, hm⟩
  · exact ⟨_, rfl, rfl⟩
  · exact ⟨_, by simp [fpArith, fpExact, Val.sqrt, hm, Layout.ofVal]; rfl, rfl⟩

/-! ### Conversions to integers -/

theorem fpToInt_nan {v : Val} (h : v.isNan = true) (mode : RMode) : ∃ f, fpToInt mode v = (0, f) ∧ f.invalid = true := by
  rw [Val.eq_nan_of_isNan h]
  exact ⟨_, rfl, rfl⟩

/-- The value is an infinity, or an integer of the sign `s` and of magnitude `n` at least. -/
def Val.wide (v : Val) (s : Bool) (n : Nat) : Prop := v = .inf s ∨ ∃ m e, v = .fin s m e ∧ 0 ≤ e ∧ n ≤ m * 2 ^ e.toNat

/-- An integer is its own rounding. -/
theorem roundAt_integer (mode : RMode) (u : Nat) (s : Bool) (m : Nat) {e : Int} (h : 0 ≤ e) :
    roundAt mode u s m e 0 = (m * 2 ^ e.toNat, false) := by
  simp [roundAt, h, Nat.shiftLeft_eq]

theorem fpToInt_high {v : Val} (h : v.wide false (2 ^ 63)) (mode : RMode) :
    ∃ f, fpToInt mode v = (0x7FFFFFFFFFFFFFFF, f) ∧ f.overflow = true := by
  rcases h with rfl | ⟨m, e, rfl, he, hm⟩
  · exact ⟨_, rfl, rfl⟩
  · generalize hn : m * 2 ^ e.toNat = n at hm
    have low : ¬(n : Int) < -2 ^ (64 - 1) := by omega
    have high : (2 : Int) ^ (64 - 1) - 1 < n := by omega
    refine ⟨flagOverflow, ?_, rfl⟩
    simp only [fpToInt, toSigned, roundAt_integer _ _ _ _ he, hn, Bool.false_eq_true, if_false, low, high, if_true]
    rfl

theorem fpToInt_low {v : Val} (h : v.wide true (2 ^ 63 + 1)) (mode : RMode) :
    ∃ f, fpToInt mode v = (0x8000000000000000, f) ∧ f.overflow = true := by
  rcases h with rfl | ⟨m, e, rfl, he, hm⟩
  · exact ⟨_, rfl, rfl⟩
  · generalize hn : m * 2 ^ e.toNat = n at hm
    have low : -(n : Int) < -2 ^ (64 - 1) := by omega
    refine ⟨flagOverflow, ?_, rfl⟩
    simp only [fpToInt, toSigned, roundAt_integer _ _ _ _ he, hn, if_true, low]
    rfl

/-! ### Encodings of FP64 and FP32 -/

/-- The value of an encoding by its fields. -/
theorem decode_ieee {l : Layout} (h : l.special = .ieee) (b : Nat) :
    l.decode b = if b / 2 ^ l.mb % 2 ^ l.eb = 2 ^ l.eb - 1 then
        (if b % 2 ^ l.mb = 0 then .inf (b.testBit (l.eb + l.mb)) else .nan)
      else if b / 2 ^ l.mb % 2 ^ l.eb = 0 then .fin (b.testBit (l.eb + l.mb)) (b % 2 ^ l.mb) l.unit
      else .fin (b.testBit (l.eb + l.mb)) (2 ^ l.mb + b % 2 ^ l.mb) ((b / 2 ^ l.mb % 2 ^ l.eb : Nat) - l.bias - l.mb) := by
  simp [Layout.decode, bitsN, bitN, h, Nat.shiftRight_eq_div_pow]

theorem testBit_top {b n : Nat} (h : b < 2 ^ (n + 1)) : b.testBit n = decide (2 ^ n ≤ b) := by
  rcases Nat.lt_or_ge b (2 ^ n) with hlt | hge
  · rw [Nat.testBit_lt_two_pow hlt, decide_eq_false (Nat.not_le.mpr hlt)]
  · obtain ⟨r, rfl⟩ := Nat.exists_eq_add_of_le hge
    have hr : r < 2 ^ n := by omega
    rw [Nat.testBit_two_pow_add_eq, Nat.testBit_lt_two_pow hr, decide_eq_true hge]
    rfl

theorem two_pow_le_mul {n mb m : Nat} {e : Int} (hm : 2 ^ mb ≤ m) (hn : mb ≤ n) (he : (n : Int) - mb ≤ e) :
    2 ^ n ≤ m * 2 ^ e.toNat :=
  calc 2 ^ n = 2 ^ mb * 2 ^ (n - mb) := by rw [← Nat.pow_add, Nat.add_sub_cancel' hn]
    _ ≤ m * 2 ^ e.toNat := Nat.mul_le_mul hm (Nat.pow_le_pow_right (by decide) (by omega))

section
variable {l : Layout} (hl : l = lFP64 ∨ l = lFP32) {b : Nat} (hb : b < 2 ^ (l.eb + l.mb + 1))
include hl

theorem special_ieee : l.special = .ieee := by rcases hl with rfl | rfl <;> rfl

/-- An encoding whose exponent is not the top one is finite. -/
theorem decode_finite (h : b / 2 ^ l.mb % 2 ^ l.eb ≠ 2 ^ l.eb - 1) :
    ∃ m e, l.decode b = .fin (b.testBit (l.eb + l.mb)) m e := by
  rw [decode_ieee (special_ieee hl), if_neg h]
  split_ifs
  · exact ⟨_, _, rfl⟩
  · exact ⟨_, _, rfl⟩

include hb

/-- Encodings behind that of -0, up to -∞. -/
theorem decode_below (lo : 2 ^ (l.eb + l.mb) < b) (hi : b ≤ 2 ^ (l.eb + l.mb) + l.infBits) : (l.decode b).below := by
  rw [decode_ieee (special_ieee hl), testBit_top hb, decide_eq_true lo.le]
  split_ifs with top zero sub
  · exact .inl rfl
  · rcases hl with rfl | rfl <;> simp [lFP64, lFP32, Layout.infBits] at * <;> omega
  · refine .inr ⟨_, _, rfl, ?_⟩
    rcases hl with rfl | rfl <;> simp [lFP64, lFP32, Layout.infBits] at * <;> omega
  · exact .inr ⟨_, _, rfl, by have := Nat.two_pow_pos l.mb; omega⟩

/-- Encodings from that of 2^63, up to +∞. -/
theorem decode_high (lo : (l.bias + 63) * 2 ^ l.mb ≤ b) (hi : b ≤ l.infBits) : (l.decode b).wide false (2 ^ 63) := by
  have pos : ¬2 ^ (l.eb + l.mb) ≤ b := by rcases hl with rfl | rfl <;> simp [lFP64, lFP32, Layout.infBits] at * <;> omega
  rw [decode_ieee (special_ieee hl), testBit_top hb, decide_eq_false pos]
  split_ifs with top zero sub
  · exact .inl rfl
  · rcases hl with rfl | rfl <;> simp [lFP64, lFP32, Layout.infBits] at * <;> omega
  · rcases hl with rfl | rfl <;> simp [lFP64, lFP32] at * <;> omega
  · have exp : (l.bias : Int) + 63 ≤ (b / 2 ^ l.mb % 2 ^ l.eb : Nat) := by
      rcases hl with rfl | rfl <;> simp [lFP64, lFP32, Layout.infBits] at * <;> omega
    have mb : l.mb ≤ 63 := by rcases hl with rfl | rfl <;> decide
    exact .inr ⟨_, _, rfl, by omega, two_pow_le_mul (n := 63) (mb := l.mb) (by omega) mb (by omega)⟩

/-- Encodings behind that of -2^63, up to -∞. -/
theorem decode_low (lo : 2 ^ (l.eb + l.mb) + (l.bias + 63) * 2 ^ l.mb < b) (hi : b ≤ 2 ^ (l.eb + l.mb) + l.infBits) :
    (l.decode b).wide true (2 ^ 63 + 1) := by
  rw [decode_ieee (special_ieee hl), testBit_top hb, decide_eq_true (by omega)]
  split_ifs with top zero sub
  · exact .inl rfl
  · rcases hl with rfl | rfl <;> simp [lFP64, lFP32, Layout.infBits] at * <;> omega
  · rcases hl with rfl | rfl <;> simp [lFP64, lFP32] at * <;> omega
  · have mb : l.mb ≤ 62 := by rcases hl with rfl | rfl <;> decide
    have fields : (l.bias : Int) + 63 ≤ (b / 2 ^ l.mb % 2 ^ l.eb : Nat) ∧
        (0 < b % 2 ^ l.mb ∨ (l.bias : Int) + 64 ≤ (b / 2 ^ l.mb % 2 ^ l.eb : Nat)) := by
      rcases hl with rfl | rfl <;> simp [lFP64, lFP32, Layout.infBits] at * <;> omega
    obtain ⟨exp, more⟩ := fields
    refine .inr ⟨_, _, rfl, by omega, ?_⟩
    rcases more with frac | exp64
    · have unit := two_pow_le_mul (n := 63) (mb := l.mb) (m := 2 ^ l.mb)
        (e := (b / 2 ^ l.mb % 2 ^ l.eb : Nat) - l.bias - l.mb) le_rfl (by omega) (by omega)
      have pow := Nat.two_pow_pos ((b / 2 ^ l.mb % 2 ^ l.eb : Nat) - l.bias - l.mb : Int).toNat
      have := Nat.mul_le_mul_right (2 ^ ((b / 2 ^ l.mb % 2 ^ l.eb : Nat) - l.bias - l.mb : Int).toNat)
        (show 2 ^ l.mb + 1 ≤ 2 ^ l.mb + b % 2 ^ l.mb by omega)
      rw [Nat.add_mul, Nat.one_mul] at this
      omega
    · have := two_pow_le_mul (n := 64) (mb := l.mb) (m := 2 ^ l.mb + b % 2 ^ l.mb)
        (e := (b / 2 ^ l.mb % 2 ^ l.eb : Nat) - l.bias - l.mb) (by omega) (by omega) (by omega)
      omega

end

/-! ### The .D and the .S functions -/

theorem fpResult_double {fn : Nat} {rc : Reg} (h : fn = 5 ∨ rc = 0) (hf : fn < 0x10) (a b c : Word) :
    fpResult fn rc a b c = fpArith lFP64 fn (val64 a) (val64 b) (val64 c) := by
  have ok : fn % 16 = 5 ∨ rc = 0 := h.imp_left fun h => by omega
  simp [fpResult, hf, ok]

theorem fpResult_single {fn : Nat} {rc : Reg} (h : fn = 5 ∨ rc = 0) (hf : fn < 0x10) (a b c : Word) :
    fpResult (16 + fn) rc a b c = fpArith lFP32 fn (lFP32.decode (a.toNat % 2 ^ 32)) (lFP32.decode (b.toNat % 2 ^ 32))
      (lFP32.decode (c.toNat % 2 ^ 32)) := by
  have ok : (16 + fn) % 16 = 5 ∨ rc = 0 := h.imp_left fun h => by omega
  have lo : ¬16 + fn < 0x10 := by omega
  have hi : 16 + fn < 0x20 := by omega
  simp only [fpResult, lo, hi, ok, if_false, if_true, ← Bool.decide_or, decide_true, Nat.add_sub_cancel_left]

theorem fpResult_convert {fn : Nat} {rc : Reg} (h : rc.val < 4) (hf : 0x20 ≤ fn) (a b c : Word) :
    fpResult fn rc a b c = fpConvert fn (rmodeOf rc.val) a := by
  simp [fpResult, h, show ¬fn < 0x10 by omega, show ¬fn < 0x20 by omega]

theorem fpExactValues_lt {fn : Nat} {a b c v : Val} (h : (fn, v) ∈ fpExactValues a b c) : fn < 0x10 := by
  simp only [fpExactValues, List.mem_cons, Prod.mk.injEq, List.not_mem_nil, or_false] at h
  omega

/-- A zero encoding is +0 or -0. -/
theorem decode_zero {l : Layout} (hl : l = lFP64 ∨ l = lFP32) {y : Nat} (h : y = 0 ∨ y = 2 ^ (l.eb + l.mb)) :
    ∃ f, l.decode y = .fin (!decide (y = 0)) 0 f := by
  refine ⟨l.unit, ?_⟩
  rcases hl with rfl | rfl <;> rcases h with rfl | rfl <;> decide

/-- A nonzero finite encoding over a zero: an infinity with the sign of the quotient. -/
theorem fpArith_div_zero_decode {l : Layout} (hl : l = lFP64 ∨ l = lFP32) {x y : Nat} (c : Val)
    (hx : x < 2 ^ (l.eb + l.mb + 1)) (nonzero : (l.decode x).isZero = false) (finite : x / 2 ^ l.mb % 2 ^ l.eb ≠ 2 ^ l.eb - 1)
    (hy : y = 0 ∨ y = 2 ^ (l.eb + l.mb)) :
    ∃ g, fpArith l 3 (l.decode x) (l.decode y) c =
      some (w64 (if decide (2 ^ (l.eb + l.mb) ≤ x) = decide (y = 0) then l.infBits + 2 ^ (l.eb + l.mb) else l.infBits), g) ∧
      g.divZero = true := by
  obtain ⟨m, e, hm⟩ := decode_finite hl finite
  obtain ⟨f, hf⟩ := decode_zero hl hy
  have hne : m ≠ 0 := by simpa [hm, Val.isZero] using nonzero
  have sign : (decide (2 ^ (l.eb + l.mb) ≤ x) != !decide (y = 0)) = decide (decide (2 ^ (l.eb + l.mb) ≤ x) = decide (y = 0)) := by
    by_cases 2 ^ (l.eb + l.mb) ≤ x <;> by_cases y = 0 <;> simp [*]
  obtain ⟨g, hg, div⟩ := fpArith_div_zero l (s := decide (2 ^ (l.eb + l.mb) ≤ x)) (t := !decide (y = 0)) (e := e) (f := f) c hne
  refine ⟨g, ?_, div⟩
  rw [hm, testBit_top hx, hf, hg, sign, Layout.signed]
  simp only [decide_eq_true_eq]

/-- What R208 says of the arithmetic functions and the comparisons of one format, for the result `res` of a function on three
encodings. -/
theorem fpArith_corners {l : Layout} (hl : l = lFP64 ∨ l = lFP32) {fn x y z : Nat} {res : Option (Word × Flags)}
    (hx : x < 2 ^ (l.eb + l.mb + 1)) (arith : fn < 0x10 → res = fpArith l fn (l.decode x) (l.decode y) (l.decode z)) :
    let reads := fpOperands fn (l.decode x) (l.decode y) (l.decode z)
    let gives := fun (v : Word) (P : Flags → Prop) => ∃ f : Flags, res = some (v, f) ∧ P f
    (∀ v, (fn, v) ∈ fpExactValues (l.decode x) (l.decode y) (l.decode z) →
      gives (w64 (l.ofVal .rne 0 v).1) fun f => flagsOr f (l.ofVal .rne 0 v).2 = f) ∧
    (fn ≤ 7 → (reads.any fun v => v.isNan) = true → gives (w64 l.nan) fun _ => True) ∧
    (8 ≤ fn → fn ≤ 10 → (reads.any fun v => v.isNan) = true → gives 0 fun f => f.nanin = true) ∧
    (fn = 3 → (l.decode x).isZero = false → x / 2 ^ l.mb % 2 ^ l.eb ≠ 2 ^ l.eb - 1 → y = 0 ∨ y = 2 ^ (l.eb + l.mb) →
      gives (w64 (if decide (2 ^ (l.eb + l.mb) ≤ x) = decide (y = 0) then l.infBits + 2 ^ (l.eb + l.mb) else l.infBits))
        fun f => f.divZero = true) ∧
    (fn = 4 → 2 ^ (l.eb + l.mb) < x → x ≤ 2 ^ (l.eb + l.mb) + l.infBits → gives (w64 l.nan) fun f => f.invalid = true) := by
  refine ⟨fun v h => ?exact, fun hf h => ?nan, fun lo hi h => ?cmp, ?div, ?sqrt⟩
  case exact => rw [arith (fpExactValues_lt h)]; exact fpArith_exact l h
  case nan =>
    obtain ⟨f, hf'⟩ := fpArith_nan l hf h
    exact ⟨f, (arith (by omega)).trans hf', trivial⟩
  case cmp => exact ⟨_, (arith (by omega)).trans (fpArith_cmp_nan l lo hi h), rfl⟩
  case div =>
    rintro rfl nonzero finite hy
    rw [arith (by omega)]
    exact fpArith_div_zero_decode hl _ hx nonzero finite hy
  case sqrt =>
    rintro rfl lo hi
    rw [arith (by omega)]
    exact fpArith_sqrt_below l _ _ (decode_below hl hx lo hi)

/-- What R208 says of the conversion of one format to an integer. -/
theorem fpConvert_corners {l : Layout} (hl : l = lFP64 ∨ l = lFP32) {x : Nat} {mode : RMode} {res : Option (Word × Flags)}
    (hx : x < 2 ^ (l.eb + l.mb + 1)) (conv : res = some (fpToInt mode (l.decode x))) :
    ((l.decode x).isNan = true → ∃ f, res = some (0, f) ∧ f.invalid = true) ∧
    ((l.bias + 63) * 2 ^ l.mb ≤ x → x ≤ l.infBits → ∃ f, res = some (0x7FFFFFFFFFFFFFFF, f) ∧ f.overflow = true) ∧
    (2 ^ (l.eb + l.mb) + (l.bias + 63) * 2 ^ l.mb < x → x ≤ 2 ^ (l.eb + l.mb) + l.infBits →
      ∃ f, res = some (0x8000000000000000, f) ∧ f.overflow = true) := by
  subst conv
  refine ⟨fun h => ?_, fun lo hi => ?_, fun lo hi => ?_⟩
  · obtain ⟨f, hf, inv⟩ := fpToInt_nan h mode
    exact ⟨f, by rw [hf], inv⟩
  · obtain ⟨f, hf, sat⟩ := fpToInt_high (decode_high hl hx lo hi) mode
    exact ⟨f, by rw [hf], sat⟩
  · obtain ⟨f, hf, sat⟩ := fpToInt_low (decode_low hl hx lo hi) mode
    exact ⟨f, by rw [hf], sat⟩

theorem fpDouble : FpDouble := by
  intro fn rc a b c hrc
  have is64 : lFP64 = lFP64 ∨ lFP64 = lFP32 := .inl rfl
  have zero : b.toNat = 0 ↔ b = 0 := ⟨fun h => BitVec.eq_of_toNat_eq h, congrArg BitVec.toNat⟩
  obtain ⟨exact', nan, cmp, div, sqrt⟩ := fpArith_corners is64 a.isLt fun hf => fpResult_double hrc hf a b c
  refine ⟨exact', nan, cmp, ?_, ?_, fun hm => fpConvert_corners is64 a.isLt (fpResult_convert hm (by decide) a b c)⟩
  · rintro rfl nonzero finite hb
    obtain ⟨f, hf, dz⟩ := div rfl nonzero finite (hb.imp_left zero.mpr)
    simp only [zero] at hf
    exact ⟨f, hf.trans (congrArg (fun v => some (v, f)) (apply_ite w64 _ _ _)), dz⟩
  · rintro rfl
    exact sqrt rfl

theorem fpSingle : FpSingle := by
  intro fn rc a b c hrc
  have is32 : lFP32 = lFP64 ∨ lFP32 = lFP32 := .inr rfl
  have low : a.toNat % 2 ^ 32 < 2 ^ (lFP32.eb + lFP32.mb + 1) := Nat.mod_lt _ (by decide)
  obtain ⟨exact', nan, cmp, div, sqrt⟩ := fpArith_corners is32 low fun hf => fpResult_single hrc hf a b c
  refine ⟨exact', nan, cmp, ?_, ?_, fun hm => fpConvert_corners is32 low (fpResult_convert hm (by decide) a b c)⟩
  · rintro rfl nonzero finite hb
    obtain ⟨f, hf, dz⟩ := div rfl nonzero finite hb
    exact ⟨f, hf.trans (congrArg (fun v => some (v, f)) (apply_ite w64 _ _ _)), dz⟩
  · rintro rfl
    exact sqrt rfl

theorem fpInstructions : FpInstructions := by
  intro s t rd ra rb rc fn u v f hc hr hu hres hmask
  let z := s.modTh t fun x => { x with fflags := x.fflags ||| fflagsOf f }
  have hpc : (z.th t).pc = (s.th t).pc := by rw [State.th_modTh]
  have acts : (s.issuedBy t).raiseFflags t f = z.issuedBy t := by
    have mask : ((s.issuedBy t).modTh t fun x => { x with fflags := x.fflags ||| fflagsOf f }).alarmMask = s.alarmMask := by
      cases t <;> rfl
    rw [State.raiseFflags, State.alarmFlags, mask, if_pos hmask]
    cases t <;> rfl
  refine .writesRd_of (z := z) (rd := rd) (v := v) hc hr rfl (by cases t <;> exact hc) (by rw [State.th_modTh]; exact hr) ?_
    fun s' hw => by rwa [hpc] at hw
  simp only [State.lockstep_ok hu, State.reg_issued, hres, acts]

/-- Settles O10. -/
theorem floatingPoint : Obligations.FloatingPoint := ⟨fpInstructions, fpDouble, fpSingle⟩

end Sys2Proof.Machine
end

/-! PROOFS. Reserved encodings (spec/09 R204, R205, R208, R213, R221). -/

section
namespace Sys2Proof.Machine

/-- What a word spells by its major opcode and its SUB field: the opcodes of R205, with 15 functions of SYS and 6 of LATCH. -/
def spells (maj sub : Nat) : Bool :=
  majors.contains maj && (maj != 0x28 || decide (sub < 15)) && (maj != 0x29 || decide (sub < 6))

theorem isSome_sysCommand (t : Thread) (w : BitVec 32) :
    (sysCommand t w).isSome = decide (bitsN w.toNat 12 4 < 15) := by
  have hk : bitsN w.toNat 12 4 < 16 := Nat.mod_lt _ (by decide)
  unfold sysCommand
  generalize bitsN w.toNat 12 4 = k at hk ⊢
  interval_cases k <;> rfl

theorem isSome_latchCommand (t : Thread) (w : BitVec 32) :
    (latchCommand t w).isSome = decide (bitsN w.toNat 12 4 < 6) := by
  have hk : bitsN w.toNat 12 4 < 16 := Nat.mod_lt _ (by decide)
  unfold latchCommand
  generalize bitsN w.toNat 12 4 = k at hk ⊢
  interval_cases k <;> rfl

theorem isSome_sashCommand (t : Thread) (w : BitVec 32) :
    (sashCommand t w []).isSome = spells (w.toNat / 2 ^ 26) (w.toNat / 2 ^ 12 % 16) := by
  have hw := w.isLt
  have maj : insMaj w = w.toNat / 2 ^ 26 := by
    rw [insMaj, bitsN, Nat.shiftRight_eq_div_pow]
    exact Nat.mod_eq_of_lt (by omega)
  have sub : bitsN w.toNat 12 4 = w.toNat / 2 ^ 12 % 16 := by simp [bitsN, Nat.shiftRight_eq_div_pow]
  have hm : w.toNat / 2 ^ 26 < 64 := by omega
  have sys := isSome_sysCommand t w
  have latch := isSome_latchCommand t w
  rw [sub] at sys latch
  unfold sashCommand tensorCommand scalarCommand branchCommand
  rw [maj]
  generalize w.toNat / 2 ^ 26 = m at hm ⊢
  obtain below | rfl | rfl | above : m < 40 ∨ m = 40 ∨ m = 41 ∨ 41 < m := by omega
  · interval_cases m <;> rfl
  · exact sys.trans (by simp [spells, show 40 ∈ majors by decide])
  · exact latch.trans (by simp [spells, show 41 ∈ majors by decide])
  · interval_cases m <;> rfl

theorem fpResult_reserved {fn : Nat} {rc : Reg} (h : fpReserved fn rc) (a b c : Word) : fpResult fn rc a b c = none := by
  rcases h with ⟨lo, hi⟩ | ⟨lo, hi⟩ | h | ⟨h, hf, hrc⟩ | ⟨lo, hrc⟩
  · interval_cases fn <;> simp [fpResult, fpArith]
  · interval_cases fn <;> simp [fpResult, fpArith]
  · obtain ⟨n, rfl⟩ := Nat.exists_eq_add_of_le' h
    simp [fpResult, fpConvert, show ¬n + 40 < 0x10 by omega, show ¬n + 40 < 0x20 by omega]
  · simp [fpResult, h, hf, hrc]
  · simp [fpResult, show ¬fn < 0x10 by omega, show ¬fn < 0x20 by omega, show ¬rc.val < 4 by omega]

/-- A function that reads K, with a reserved K or X (R221). -/
theorem Completes.latchFn_stops {s : State} {t : Thread} {c : Instr} {k : BitVec 6} {bad : Bool} {g : State → State}
    (hc : s.calm) (hr : (s.th t).state = .run) (hd : doubleFault s t = false) (hx : exec c s = .next (s.latchFn t k bad g))
    (h : 48 ≤ k.toNat ∨ bad = true) : Completes c s (StopsWith t (excOf s t 0x01 (s.th t).pc 0) s) :=
  .stopsWith hc hr hx hd (by simp [h])

/-- Settles O9: the decoder names the words that spell an instruction, and each reserved field is its command's own check. -/
theorem reservedEncodings : Obligations.ReservedEncodings := by
  intro s t rd ra rb rc k x u hc hr
  refine ⟨fun w hm hs hl => ?spelled, fun hd => ⟨fun fn h => ?amo, fun fn h => ?fp, fun w h => ?word, fun h => ?latch, fun h => ?qsig,
    fun h => ?qwait⟩⟩
  case spelled =>
    have some' : (sashCommand t w []).isSome = true := by
      have h15 := Nat.mod_lt (w.toNat / 2 ^ 12) (show 0 < 16 by decide)
      simp only [isSome_sashCommand, spells, List.contains_iff_mem, hm, Bool.and_eq_true, Bool.or_eq_true, bne_iff_ne,
        decide_eq_true_eq, true_and]
      omega
    obtain ⟨i, hi⟩ := Option.isSome_iff_exists.mp some'
    exact .of_ifRun hc hr rfl (by rw [hi]) rfl
  case amo => exact .stopsWith hc hr rfl hd (by simp [amoResult_reserved h])
  case fp => exact .stopsWith hc hr rfl hd (by simp [State.lockstep_ok (u := .clean) nofun, fpResult_reserved h])
  case word =>
    have none' : sashCommand t w [] = none := by
      rw [← Option.not_isSome_iff_eq_none, isSome_sashCommand]
      simp only [spells, List.contains_iff_mem, Bool.and_eq_true, Bool.or_eq_true, bne_iff_ne, decide_eq_true_eq]
      rintro ⟨⟨hm, hs⟩, hl⟩
      have := h.resolve_left (not_not.mpr hm)
      omega
    exact .stopsWith hc hr rfl hd (by simp [none'])
  case latch => 
    have h' := h.imp_right (decide_eq_true (p := x ≠ 0))
    exact ⟨.latchFn_stops hc hr hd rfl h', .latchFn_stops hc hr hd rfl h', .latchFn_stops hc hr hd rfl h', .latchFn_stops hc hr hd rfl h'⟩
  case qsig => exact .latchFn_stops hc hr hd rfl (h.imp_right fun h => by simpa using h)
  case qwait =>
    have field : queueField x = false := by
      have hx : x.toNat ≠ 15 := fun hx => h.2 (BitVec.eq_of_toNat_eq hx)
      simp [queueField, hx, h.1]
    exact .stopsWith hc hr rfl hd (by simp [field])

end Sys2Proof.Machine
end

/-! PROOFS. The control and status registers (spec/09 R214). -/

section
namespace Sys2Proof.Machine

theorem csrValues : CsrValues := by
  intro s t
  refine ⟨?hartid, rfl, rfl, rfl, rfl, rfl, rfl, rfl, fun i hi => ?feature, fun q hq => ?qerr, rfl, rfl, fun r rest h => ?head, ?stat, ?tstate⟩
  case hartid => simp [State.csrValue, Nat.shiftLeft_eq, Nat.mul_comm]
  case feature => interval_cases i <;> rfl
  case qerr => interval_cases q <;> rfl
  case head => simp [State.csrValue, State.excWord, h]
  case stat => cases h : s.sash.handler <;> simp [State.csrValue, b2n, h, Nat.shiftLeft_eq]
  case tstate => simp [State.csrValue, State.tstate, allThreads, State.th, Thread.num, Nat.shiftLeft_eq, Nat.mul_comm, Nat.add_assoc]

theorem csrOk_iff (t : Thread) (k : Nat) : csrOk t k = true ↔ 
    k ≤ 6 ∨ k = 0x0F ∨ (0x10 ≤ k ∧ k ≤ 0x17) ∨ (0x20 ≤ k ∧ k ≤ 0x2A) ∨ (0x40 ≤ k ∧ k ≤ 0x48 ∧ t = .S) := by
  simp [csrOk, or_assoc, and_assoc]

theorem csrWritable_iff (k : Nat) : csrWritable k = true ↔ k = 6 ∨ (0x20 ≤ k ∧ k ≤ 0x2A) ∨ k = 0x40 ∨ k = 0x41 ∨ k = 0x46 := by
  simp [csrWritable, or_assoc]

theorem State.csrValue_issued (s : State) (t : Thread) (k : Nat) : (s.issuedBy t).csrValue t k = s.csrValue t k := by
  unfold State.csrValue
  rw [State.th_issued]
  rfl

theorem State.csrSet_issued (s : State) (t : Thread) (k : Nat) (v : Word) :
    (s.issuedBy t).csrSet t k v = (s.csrSet t k v).issuedBy t := by
  unfold State.csrSet
  split <;> cases t <;> rfl

/-- A CSR write leaves the thread at its instruction. -/
theorem State.csrSet_th (s : State) (t : Thread) (k : Nat) (v : Word) :
    ((s.csrSet t k v).th t).pc = (s.th t).pc ∧ ((s.csrSet t k v).th t).state = (s.th t).state := by
  unfold State.csrSet
  split <;> cases t <;> exact ⟨rfl, rfl⟩

theorem State.csrSet_calm {s : State} (h : s.calm) (t : Thread) (k : Nat) (v : Word) : (s.csrSet t k v).calm := by
  unfold State.csrSet
  split <;> cases t <;> exact h

section
variable {s : State} {t : Thread} {c : Instr} {rd : Reg} {n : BitVec 12} {old : Bool} {f : Word → Word}
variable (hc : s.calm) (hr : (s.th t).state = .run) (hx : exec c s = .next (s.csrWrite t rd n old f))
include hc hr hx

theorem Completes.csrWrite (hl : csrOk t n.toNat = true) (hw : csrWritable n.toNat = true) :
    Completes c s (WritesRd t (cond old rd 0) (cond old (s.csrValue t n.toNat) 0) ((s.th t).pc + 4)
      (s.csrSet t n.toNat (f (s.csrValue t n.toNat)))) := by
  obtain ⟨hpc, hst⟩ := s.csrSet_th t n.toNat (f (s.csrValue t n.toNat))
  refine .writesRd_of (z := s.csrSet t n.toNat (f (s.csrValue t n.toNat))) hc hr hx (State.csrSet_calm hc _ _ _) (hst.trans hr) ?_
    fun s' h => hpc ▸ h
  simp only [hl, hw, Bool.and_self, if_true, State.csrValue_issued, State.csrSet_issued]
  cases old <;> rfl

theorem Completes.csrWrite_stops (hd : doubleFault s t = false) (h : ¬(csrOk t n.toNat = true ∧ csrWritable n.toNat = true)) :
    Completes c s (StopsWith t (excOf s t 0x01 (s.th t).pc 0) s) :=
  .stopsWith hc hr hx hd (by simp [h])

end

theorem csrInstructions : CsrInstructions := by
  intro s t rd ra n hc hr
  dsimp only
  simp only [← csrOk_iff, ← csrWritable_iff]
  refine ⟨fun hl => .writesRd hc hr rfl ?_, fun hl hw => ⟨?_, ?_, ?_⟩, fun hd hl => .stopsWith hc hr rfl hd ?_, fun hd h => ⟨?_, ?_, ?_⟩⟩
  · simp only [hl, if_true, State.csrValue_issued]
    rfl
  · exact .csrWrite (rd := rd) (old := false) (f := fun _ => s.reg t ra) hc hr rfl hl hw
  · exact .csrWrite (old := true) (f := fun v => v ||| s.reg t ra) hc hr rfl hl hw
  · exact .csrWrite (old := true) (f := fun v => v &&& ~~~s.reg t ra) hc hr rfl hl hw
  · simp [hl]
  · exact .csrWrite_stops (rd := rd) (old := false) (f := fun _ => s.reg t ra) hc hr rfl hd h
  · exact .csrWrite_stops (rd := rd) (old := true) (f := fun v => v ||| s.reg t ra) hc hr rfl hd h
  · exact .csrWrite_stops (rd := rd) (old := true) (f := fun v => v &&& ~~~s.reg t ra) hc hr rfl hd h

theorem csrWriteEffects : CsrWriteEffects := by
  intro s t v
  refine ⟨rfl, rfl, rfl, rfl, fun q hq => ?_⟩
  have set : s.csrSet t (0x020 + q) v = s.modTh t fun x => { x with qerr := SMap.put x.qerr 0 q (v &&& qerrMask) } := by
    interval_cases q <;> rfl
  rw [set, State.th_modTh]
  exact ⟨fun p => SMap.look_put q _ p, rfl, fun u hu => State.th_modTh_ne _ _ hu⟩

/-- Settles O18. -/
theorem csrAccess : Obligations.CsrAccess := ⟨csrValues, csrInstructions, csrWriteEffects⟩

end Sys2Proof.Machine
end

/-! PROOFS. Integrity events, TRAP, double faults and the lockstep pair (spec/09 R224, R227, spec/16 R381, R386, R391). -/

section
namespace Sys2Proof.Machine

/-! ### What an integrity event does -/

/-- The log of an integrity event, before a record of it is offered to thread S (R391). -/
structure Logs (i : EventInfo) (s s' : State) : Prop where
  rest : { s' with hinge := s.hinge, time := s.time, int := s.int, fresh := s.fresh } = s
  time : { s'.time with now := { s'.time.now with logged := s.time.now.logged } } = s.time
  hinge : s'.hinge = { s.hinge with irqStat := s.hinge.irqStat ||| 0x400 }
  stat : s'.int.stat = s.int.stat ||| BitVec.ofNat 9 (2 ^ i.causeBit) ||| 0x100
  events : s'.int.events = satInc 16 s.int.events
  int : { s'.int with log0 := s.int.log0, log1 := s.int.log1, stat := s.int.stat, events := s.int.events } = s.int

/-- An integrity event is logged, and while Sash is on a record of it is offered to thread S (R391). -/
theorem State.integrity_cases (s : State) (i : EventInfo) : ∃ z, Logs i s z ∧
    (s.integrity i = z ∨ ∃ log, s.integrity i =
      z.excPush { cause := 0x14, thread := 0, ctx := 0, status := 0, queue := 0, bel := true, pc := 0, info := log }) := by
  obtain ⟨bits, n, detail⟩ : ∃ bits n, s.eventDetail i.detail = (bits, { s with fresh := n }) := by
    unfold State.eventDetail
    cases i.detail <;> exact ⟨_, _, rfl⟩
  unfold State.integrity
  rw [detail]
  refine ⟨_, ?_, (Decidable.em _).symm.imp (fun h => if_neg h) fun h => ⟨eventLog0 i bits, if_pos h⟩⟩
  exact ⟨rfl, rfl, rfl, rfl, rfl, rfl⟩

/-- A push into the exception queue sets no bit of IRQ_STAT but EXC, and clears none. -/
theorem State.excPush_irqStat (s : State) (i : ExcInfo) (k : Nat) :
    s.hinge.irqStat.getLsbD k = true → (s.excPush i).hinge.irqStat.getLsbD k = true := by
  intro h
  unfold State.excPush State.irqSet
  dsimp only
  split
  · simp [h]
  · split <;> simp [h]

/-- What an integrity event leaves as it is: all but the log, the exception queue and the notes of its cycle. -/
structure OnlyLogs (s s' : State) : Prop where
  rest : { s' with sash := s.sash, hinge := s.hinge, time := s.time, int := s.int, fresh := s.fresh } = s
  sash : { s'.sash with excq := s.sash.excq, lost := s.sash.lost } = s.sash
  hinge : { s'.hinge with irqStat := s.hinge.irqStat } = s.hinge
  time : { s'.time with now := { s'.time.now with logged := s.time.now.logged, recs := s.time.now.recs } } = s.time
  int : { s'.int with log0 := s.int.log0, log1 := s.int.log1, stat := s.int.stat, events := s.int.events } = s.int

namespace OnlyLogs

theorem refl (s : State) : OnlyLogs s s := ⟨rfl, rfl, rfl, rfl, rfl⟩

theorem trans {a b c : State} (h : OnlyLogs a b) (k : OnlyLogs b c) : OnlyLogs a c where
  rest := by rw [← h.rest, ← k.rest]
  sash := by rw [← h.sash, ← k.sash]
  hinge := by rw [← h.hinge, ← k.hinge]
  time := by rw [← h.time, ← k.time]
  int := by rw [← h.int, ← k.int]

theorem of_logs {i : EventInfo} {s s' : State} (h : Logs i s s') : OnlyLogs s s' where
  rest := by rw [← h.rest]
  sash := by rw [← h.rest]
  hinge := by rw [h.hinge]
  time := by rw [← h.time]
  int := h.int

theorem of_excPush (s : State) (i : ExcInfo) : OnlyLogs s (s.excPush i) := by
  unfold State.excPush State.irqSet
  dsimp only
  split
  · exact ⟨rfl, rfl, rfl, rfl, rfl⟩
  · split <;> exact ⟨rfl, rfl, rfl, rfl, rfl⟩

theorem of_irqSet (s : State) (n : Nat) : OnlyLogs s (s.irqSet n) := ⟨rfl, rfl, rfl, rfl, rfl⟩

theorem of_integrity (s : State) (i : EventInfo) : OnlyLogs s (s.integrity i) := by
  obtain ⟨z, hz, h | ⟨log, h⟩⟩ := s.integrity_cases i <;> rw [h]
  · exact .of_logs hz
  · exact (of_logs hz).trans (of_excPush z _)

theorem th {s s' : State} (h : OnlyLogs s s') (t : Thread) : s'.th t = s.th t := by
  rw [← h.rest]
  cases t <;> rfl

end OnlyLogs

@[simp] theorem State.th_integrity (s : State) (i : EventInfo) (t : Thread) : (s.integrity i).th t = s.th t :=
  (OnlyLogs.of_integrity s i).th t

@[simp] theorem State.th_excPush (s : State) (i : ExcInfo) (t : Thread) : (s.excPush i).th t = s.th t :=
  (OnlyLogs.of_excPush s i).th t

@[simp] theorem State.th_irqSet (s : State) (n : Nat) (t : Thread) : (s.irqSet n).th t = s.th t :=
  (OnlyLogs.of_irqSet s n).th t

@[simp] theorem State.th_struck (s : State) (k : Site) (t : Thread) : (s.struck k).th t = s.th t := by cases t <;> rfl

/-- The event is an integrity event with its cause bit, ALARM and IRQ_STAT.INT (R391). -/
theorem State.integrity_int (s : State) (i : EventInfo) :
    (s.integrity i).int.stat = s.int.stat ||| BitVec.ofNat 9 (2 ^ i.causeBit) ||| 0x100 ∧
    (s.integrity i).int.events = satInc 16 s.int.events := by
  obtain ⟨z, hz, h | ⟨log, h⟩⟩ := s.integrity_cases i <;> rw [h]
  · exact ⟨hz.stat, hz.events⟩
  · rw [State.excPush_int]
    exact ⟨hz.stat, hz.events⟩

/-- An integrity event clears no bit of IRQ_STAT. -/
theorem State.integrity_irqStat (s : State) (i : EventInfo) (k : Nat) (h : s.hinge.irqStat.getLsbD k = true) :
    (s.integrity i).hinge.irqStat.getLsbD k = true := by
  obtain ⟨z, hz, hi | ⟨log, hi⟩⟩ := s.integrity_cases i <;> rw [hi]
  · rw [hz.hinge]
    simp [h]
  · refine State.excPush_irqStat z _ k ?_
    rw [hz.hinge]
    simp [h]

/-! ### TRAP and the double fault -/

theorem trapInstruction : TrapInstruction := by
  intro s t rd ra n hc hr hd
  refine .of_ifRun hc hr rfl (s' := ((s.issuedBy t).modTh t fun x =>
    { x with state := .stopped, wait := .none, stopAsked := false, pc := (s.th t).pc + 4 }).excPush
      (excOf s t 0x08 ((s.th t).pc + 4) (n.zeroExtend 64))) ?_ (Records.of_excPush _ _)
  have outside : ¬(decide (t = .S) && ((s.issuedBy t).pcAdd t 4).sash.handler) = true := by
    rw [State.pcAdd_sash]
    simpa [doubleFault, State.issuedBy] using hd
  dsimp only
  rw [State.stopExc, if_neg outside]
  cases t <;> rfl

/-- The state of a double fault before its integrity event (R227). -/
def halting (s : State) (i : ExcInfo) : State :=
  ((s.excPush i).modTh .S fun x => { x with state := .halted, wait := .none, stopAsked := false }).irqSet 6

theorem State.stopExc_doubleFault {s : State} (h : s.sash.handler = true) (cause st : Nat) (info : Word) (pc : BitVec 48) :
    ∃ i e, e.causeBit = 1 ∧ s.stopExc .S cause st info pc = (halting s i).integrity e :=
  ⟨_, _, rfl, if_pos (by simp [h])⟩

theorem getLsbD_stat (x : BitVec 9) (b : Fin 9) : (x ||| BitVec.ofNat 9 (2 ^ b.val) ||| 0x100).getLsbD 8 = true ∧
    (x ||| BitVec.ofNat 9 (2 ^ b.val) ||| 0x100).getLsbD b = true := by
  fin_cases b <;> simp

theorem doubleFaultHalts : DoubleFaultHalts := by
  intro s rd ra n hc hr hh
  obtain ⟨i, e, hb, stops⟩ := State.stopExc_doubleFault (s := (s.issuedBy .S).pcAdd .S 4) (by rw [State.pcAdd_sash]; exact hh)
    0x08 0 (n.zeroExtend 64) (((s.issuedBy .S).pcAdd .S 4).th .S).pc
  obtain ⟨stat, -⟩ := State.integrity_int (halting ((s.issuedBy .S).pcAdd .S 4) i) e
  obtain ⟨alarm, double⟩ := getLsbD_stat (halting ((s.issuedBy .S).pcAdd .S 4) i).int.stat 1
  have others : ∀ t, t ≠ .S → ((halting ((s.issuedBy .S).pcAdd .S 4) i).integrity e).th t = s.th t := fun t ht => by
    simp [halting, State.pcAdd, State.th_modTh_ne _ _ ht]
  refine .of_ifRun hc (t := .S) hr rfl stops ⟨?halted, others .F nofun, others .B nofun, others .U nofun, ?irq, ?alarm, ?double⟩
  case halted =>
    have : (((halting ((s.issuedBy .S).pcAdd .S 4) i).integrity e).th .S).state = .halted := by simp [halting]
    exact this
  case irq => exact State.integrity_irqStat _ _ 6 (by simp [halting, State.irqSet])
  case alarm => rw [stat, hb]; exact alarm
  case double => rw [stat, hb]; exact double

/-! ### The withdrawal of held requests and packets (R386) -/

theorem length_updFirst {α : Type} (p : α → Bool) (f : α → α) (l : List α) : (updFirst p f l).length = l.length := by
  induction l with
  | nil => rfl
  | cons x r ih => unfold updFirst; split <;> simp [ih]

/-- What a withdrawal may touch: the entries, but not how many there are, the requests, the links, a checkpoint operation and the notes
of the cycle. -/
structure Withdraws (s s' : State) : Prop where
  rest : { s' with eng := s.eng, jamb := s.jamb, door := s.door, rpl := s.rpl, time := s.time } = s
  lanes : s'.eng.lanes.length = s.eng.lanes.length

namespace Withdraws

theorem refl (s : State) : Withdraws s s := ⟨rfl, rfl⟩

theorem trans {a b c : State} (h : Withdraws a b) (k : Withdraws b c) : Withdraws a c :=
  ⟨by rw [← h.rest, ← k.rest], k.lanes.trans h.lanes⟩

theorem foldl {α : Type} {g : State → α → State} (hg : ∀ x a, Withdraws x (g x a)) (l : List α) (s : State) :
    Withdraws s (l.foldl g s) := by
  induction l generalizing s with
  | nil => exact refl s
  | cons a r ih => exact (hg s a).trans (ih (g s a))

theorem modEntry (s : State) (uid : Nat) (g : Entry → Entry) : Withdraws s (s.modEntry uid g) :=
  ⟨rfl, length_updFirst _ _ _⟩

theorem modLink (s : State) (l : Nat) (g : Link → Link) : Withdraws s (s.modLink l g) := ⟨rfl, rfl⟩

theorem ofDoor (s : State) (d : Doorway) : Withdraws s { s with door := d } := ⟨rfl, rfl⟩

theorem ofJamb (s : State) (j : Jamb) : Withdraws s { s with jamb := j } := ⟨rfl, rfl⟩

theorem ckptWrote (s : State) (ok : Bool) : Withdraws s (s.ckptWrote ok) := by
  unfold State.ckptWrote State.ckptSettle
  split
  · unfold State.ckptDone State.goCleared
    dsimp only
    split
    · split <;> exact ⟨rfl, rfl⟩
    · exact ⟨rfl, rfl⟩
  · exact ⟨rfl, rfl⟩

theorem withdrawReq (s : State) (r : JReq) : Withdraws s (s.withdrawReq r) := by
  unfold State.withdrawReq
  split
  · exact modEntry s _ _
  · exact ckptWrote s _
  · exact refl s

theorem engineOpen (s : State) (q uid : Nat) : Withdraws s (s.engineOpen q uid) := by
  unfold State.engineOpen
  split
  · exact ⟨rfl, rfl⟩
  · exact refl s

theorem withdrawSends (s : State) (uid : Nat) : Withdraws s (s.withdrawSends uid) := by
  have unsent : Withdraws s (s.unsend uid) := foldl (fun x l => (modLink x l _).trans (modEntry _ uid _)) _ s
  have marked := unsent.trans (modEntry _ uid fun e => { (e.fail stRemoteFault) with formed := true })
  unfold State.withdrawSends
  generalize (s.unsend uid).modEntry uid _ = x at marked ⊢
  dsimp only
  split
  · exact (marked.trans (ofDoor x _)).trans (engineOpen _ _ _)
  · exact marked.trans (ofDoor x _)

theorem withdrawHeld (s : State) : Withdraws s s.withdrawHeld := by
  unfold State.withdrawHeld
  dsimp only
  exact (((ofJamb s _).trans (foldl withdrawReq _ _)).trans (foldl withdrawSends _ _)).trans
    (foldl (fun x l => modLink x l _) _ _)

theorem th {s s' : State} (h : Withdraws s s') (t : Thread) : s'.th t = s.th t := by
  rw [← h.rest]
  cases t <;> rfl

end Withdraws

/-! ### The lockstep pair (R381, R388) -/

/-- The state of a mismatch of the copies before its integrity event. -/
def mismatched (s : State) (t : Thread) : State :=
  let x := (((s.stopAtBoundary .F).stopAtBoundary .B).stopAtBoundary .U).modTh .S fun x =>
    { x with state := .halted, wait := .none, stopAsked := false }
  (x.excPush { cause := 0x04, thread := Thread.num t, ctx := (x.th t).ctx, status := 0, queue := 0, bel := false,
               pc := (s.th t).pc, info := 0 }).irqSet 6

theorem State.sashMismatch_eq (s : State) (t : Thread) (d : BitVec 16) :
    ∃ e, e.causeBit = 0 ∧ s.sashMismatch t d = ((mismatched s t).integrity e).withdrawHeld :=
  ⟨{ eventOf mechSashLockstep 0 with stream := Thread.num t, ctx := ((mismatched s t).th t).ctx, detail := some d }, rfl, rfl⟩

/-- A disagreement of the copies comes before anything that an instruction does (R381). -/
theorem State.ifRun_fatal {s : State} {t : Thread} {d : BitVec 16} (h : (s.th t).state = .run) (hu : s.upsetAt .sash = .fatal d)
    (g : State → State) : s.ifRun t g = ((s.issuedBy t).struck .sash).sashMismatch t d := by
  have upset : (s.issuedBy t).upsetAt .sash = .fatal d := hu
  unfold State.issuedBy at upset ⊢
  simp [State.ifRun, State.isRun, h, upset, State.lockstep]

/-- What a stop at the next instruction boundary makes of its thread (R213). -/
def boundaryStop (x : ThreadState) : ThreadState :=
  match x.state with
  | .run | .latch | .queue => { x with state := .stopped, wait := .none, stopAsked := false }
  | .memory => { x with stopAsked := true }
  | .idle | .stopped | .halted => x

theorem State.setTh_th (s : State) (t : Thread) : s.setTh t (s.th t) = s := by cases t <;> rfl

theorem State.stopAtBoundary_eq (s : State) (t : Thread) : s.stopAtBoundary t = s.modTh t boundaryStop := by
  unfold State.stopAtBoundary State.stopped State.modTh boundaryStop
  cases h : (s.th t).state <;> simp [h, State.setTh_th]

theorem boundaryStop_rest (x : ThreadState) :
    { boundaryStop x with state := x.state, wait := x.wait, stopAsked := x.stopAsked } = x := by
  unfold boundaryStop
  split <;> rfl

theorem boundaryStop_state {x : ThreadState} (h : x.state = .run ∨ x.state = .latch ∨ x.state = .queue) :
    (boundaryStop x).state = .stopped := by
  unfold boundaryStop
  rcases h with h | h | h <;> simp [h]

/-- Every thread after a mismatch: F, B and U stop at their boundary, and S is halted. -/
theorem mismatched_th (s : State) (t u : Thread) : (mismatched s t).th u =
    if u = .S then { s.th .S with state := .halted, wait := .none, stopAsked := false } else boundaryStop (s.th u) := by
  simp only [mismatched, State.th_irqSet, State.th_excPush, State.stopAtBoundary_eq]
  cases u <;> simp [State.th_modTh_ne]

@[simp] theorem State.excPush_dmem (s : State) (i : ExcInfo) : (s.excPush i).sash.dmem = s.sash.dmem :=
  have h := congrArg Sash.dmem (OnlyLogs.of_excPush s i).sash
  h

/-- What a mismatch of the copies leaves behind its integrity event and the withdrawal of what was held. -/
theorem State.sashMismatch_frame (s : State) (t : Thread) (d : BitVec 16) :
    let s' := s.sashMismatch t d
    (∀ u, s'.th u = if u = .S then { s.th .S with state := .halted, wait := .none, stopAsked := false }
      else boundaryStop (s.th u)) ∧
    s'.sash.dmem = s.sash.dmem ∧ s'.latch = s.latch ∧ s'.eng.lanes.length = s.eng.lanes.length ∧
    s'.hinge.irqStat.getLsbD 6 = true ∧ s'.int.stat.getLsbD 8 = true ∧ s'.int.stat.getLsbD 0 = true := by
  obtain ⟨e, he, eq⟩ := s.sashMismatch_eq t d
  have held := Withdraws.withdrawHeld ((mismatched s t).integrity e)
  have logs := OnlyLogs.of_integrity (mismatched s t) e
  have sash := congrArg State.sash held.rest
  have latch := congrArg State.latch held.rest
  have hinge := congrArg State.hinge held.rest
  have int := congrArg State.int held.rest
  obtain ⟨alarm, detected⟩ := getLsbD_stat (mismatched s t).int.stat 0
  dsimp only at sash latch hinge int ⊢
  rw [eq, sash, latch, hinge, int, held.lanes, (State.integrity_int _ e).1, he]
  refine ⟨fun u => ?th, ?dmem, ?latch, ?lanes, State.integrity_irqStat _ e 6 ?irq, alarm, detected⟩
  case th => rw [held.th, State.th_integrity, mismatched_th]
  case dmem => exact (congrArg Sash.dmem logs.sash).trans (by simp [mismatched])
  case latch => exact (congrArg State.latch logs.rest).trans (by simp [mismatched])
  case lanes => 
    have same := congrArg (fun x : State => x.eng.lanes.length) logs.rest
    exact same.trans (by simp [mismatched])
  case irq => simp [mismatched, State.irqSet]

theorem lockstepHalts : LockstepHalts := by
  intro s t rd ra rb rc imm lat fn k x ef f11 n off d hr hu c hcmd
  have mismatch : exec c s = .next (((s.issuedBy t).struck .sash).sashMismatch t d) := by
    simp only [List.mem_cons, List.not_mem_nil, or_false] at hcmd
    rcases hcmd with rfl | rfl | rfl | rfl | rfl | rfl | rfl | rfl | rfl | rfl | rfl | rfl | rfl | rfl | rfl | rfl | rfl | rfl |
      rfl | rfl <;> exact congrArg Host.Outcome.next (State.ifRun_fatal hr hu _)
  obtain ⟨th, dmem, latch, lanes, irq, alarm, detected⟩ := ((s.issuedBy t).struck .sash).sashMismatch_frame t d
  simp only [State.th_struck, State.th_issued] at th
  refine ⟨_, mismatch, ?halted, fun u hne hs => ?stopped, fun u => ?kept, dmem, congrArg LatchUnit.counts latch, lanes, irq, alarm,
    detected⟩
  case halted =>
    have := congrArg ThreadState.state (th .S)
    rwa [if_pos rfl] at this
  case stopped => rw [th, if_neg hne, boundaryStop_state hs]
  case kept =>
    rw [th]
    split
    · subst u
      exact ⟨rfl, rfl, rfl, rfl⟩
    · have rest := boundaryStop_rest (s.th u)
      have regs := congrArg ThreadState.regs rest
      have pc := congrArg ThreadState.pc rest
      have iseq := congrArg ThreadState.iseq rest
      have fflags := congrArg ThreadState.fflags rest
      exact ⟨regs, pc, iseq, fflags⟩

/-- Settles O19. -/
theorem trapsAndDoubleFaults : Obligations.TrapsAndDoubleFaults := ⟨trapInstruction, doubleFaultHalts, lockstepHalts⟩

end Sys2Proof.Machine
end

/-! PROOFS. What the fetch of a thread's next instruction changes, whatever disturbance waits for a check (spec/09 R201,
R202). -/

section
namespace Sys2Proof.Machine

/-- From `s` to `s'` thread `t` has fetched: it is as before, or waits in MEMORY for a line. -/
structure Fetched (t : Thread) (s s' : State) : Prop where
  threads : ∀ u, u ≠ t → s'.th u = s.th u
  own : { s'.th t with state := (s.th t).state, wait := (s.th t).wait, fetchLine := (s.th t).fetchLine } = s.th t
  waits : s'.th t = s.th t ∨ (s'.th t).state = .memory ∧ (s'.th t).wait = .fetch
  sash : { s'.sash with icache := s.sash.icache, icRefetch := s.sash.icRefetch } = s.sash
  int : { s'.int with ce := s.int.ce, strikes := s.int.strikes } = s.int
  rest : { s' with f := s.f, b := s.b, u := s.u, s := s.s, sash := s.sash, jamb := s.jamb, int := s.int } = s

theorem Fetched.refl (t : Thread) (s : State) : Fetched t s s := ⟨fun _ _ => rfl, rfl, .inl rfl, rfl, rfl, rfl⟩

/-- A change of the instruction cache, its counter and the counters of integrity alone. -/
theorem Fetched.of_cache (t : Thread) {s s' : State} (th : s'.th = s.th)
    (sash : { s'.sash with icache := s.sash.icache, icRefetch := s.sash.icRefetch } = s.sash)
    (int : { s'.int with ce := s.int.ce, strikes := s.int.strikes } = s.int)
    (rest : { s' with f := s.f, b := s.b, u := s.u, s := s.s, sash := s.sash, jamb := s.jamb, int := s.int } = s) :
    Fetched t s s' where
  threads u _ := congrFun th u
  own := by rw [th]
  waits := .inl (congrFun th t)
  sash := sash
  int := int
  rest := rest

/-- A thread that asks for a line waits in MEMORY for it. -/
theorem State.fetchAsk_fetched (s : State) (t : Thread) (again : Bool) (line : Nat) : Fetched t s (s.fetchAsk t again line) := by
  have asked : ∃ rs, s.fetchAsk t again line =
      { s.setTh t { s.th t with state := .memory, wait := .fetch, fetchLine := line } with
        jamb := { s.jamb with reqs := s.jamb.reqs ++ rs } } := by
    unfold State.fetchAsk
    dsimp only
    split
    · exact ⟨[], by cases t <;> simp [State.setTh, State.modTh, State.waitMem, State.th]⟩
    · exact ⟨[fetchReq t again line], by cases t <;> rfl⟩
  obtain ⟨rs, eq⟩ := asked
  rw [eq]
  refine ⟨fun u hu => ?_, ?_, .inr ?_, ?_, ?_, ?_⟩
  · cases t <;> cases u <;> first | rfl | exact absurd rfl hu
  all_goals cases t <;> first | rfl | exact ⟨rfl, rfl⟩

theorem Fetched.of_asked {t : Thread} {s z s' : State} (hz : Fetched t s z) (th : z.th = s.th) (h : Fetched t z s') :
    Fetched t s s' where
  threads u hu := (h.threads u hu).trans (hz.threads u hu)
  own := by have := h.own; rwa [th] at this
  waits := by have := h.waits; rwa [th] at this
  sash := by
    have first := hz.sash
    have second := h.sash
    grind
  int := by
    have first := hz.int
    have second := h.int
    grind
  rest := by
    have first := hz.rest
    have second := h.rest
    grind

theorem State.fetchAt_fetched (s : State) (t : Thread) (line : Nat) : Fetched t s (s.fetchAt t line) := by
  unfold State.fetchAt
  dsimp only
  split
  · exact .refl t s
  · split
    · split
      · exact .of_cache t rfl rfl rfl rfl
      · exact .of_cache t rfl rfl rfl rfl
      · refine .of_asked ?_ ?_ (State.fetchAsk_fetched _ t true line)
        · exact .of_cache t rfl rfl rfl rfl
        · rfl
    · exact State.fetchAsk_fetched s t false line

theorem State.fetchNext_fetched (s : State) (t : Thread) : Fetched t s (s.fetchNext t) := s.fetchAt_fetched t _

/-- What a fetch keeps of its thread: everything but its state, its wait and the line that it waits for. -/
theorem Fetched.keep {t : Thread} {s s' : State} (h : Fetched t s s') {α : Type} (f : ThreadState → α)
    (hf : ∀ x a b c, f { x with state := a, wait := b, fetchLine := c } = f x) : f (s'.th t) = f (s.th t) :=
  (hf _ _ _ _).symm.trans (congrArg f h.own)

/-- A running thread goes on running behind a fetch, or waits for its line. -/
theorem Fetched.runs {t : Thread} {s s' : State} (h : Fetched t s s') (hr : (s.th t).state = .run) :
    (s'.th t).state = .run ∨ (s'.th t).state = .memory ∧ (s'.th t).wait = .fetch :=
  h.waits.imp_left fun same => by rw [same, hr]

@[simp] theorem State.th_fetchNext_ne (s : State) {t u : Thread} (h : u ≠ t) : (s.fetchNext t).th u = s.th u :=
  (s.fetchNext_fetched t).threads u h

@[simp] theorem State.fetchNext_regs (s : State) (t : Thread) : ((s.fetchNext t).th t).regs = (s.th t).regs :=
  (s.fetchNext_fetched t).keep ThreadState.regs fun _ _ _ _ => rfl

@[simp] theorem State.fetchNext_pc (s : State) (t : Thread) : ((s.fetchNext t).th t).pc = (s.th t).pc :=
  (s.fetchNext_fetched t).keep ThreadState.pc fun _ _ _ _ => rfl

@[simp] theorem State.fetchNext_ctx (s : State) (t : Thread) : ((s.fetchNext t).th t).ctx = (s.th t).ctx :=
  (s.fetchNext_fetched t).keep ThreadState.ctx fun _ _ _ _ => rfl

theorem State.fetchNext_runs {s : State} {t : Thread} (h : (s.th t).state = .run) : ((s.fetchNext t).th t).state = .run ∨
    ((s.fetchNext t).th t).state = .memory ∧ ((s.fetchNext t).th t).wait = .fetch :=
  (s.fetchNext_fetched t).runs h

@[simp] theorem State.th_goto_ne (s : State) {t u : Thread} (h : u ≠ t) (pc : BitVec 48) : (s.goto t pc).th u = s.th u := by
  simp [State.goto, State.th_modTh_ne, h]

@[simp] theorem State.goto_pc (s : State) (t : Thread) (pc : BitVec 48) : ((s.goto t pc).th t).pc = pc := by simp [State.goto]

@[simp] theorem State.goto_regs (s : State) (t : Thread) (pc : BitVec 48) : ((s.goto t pc).th t).regs = (s.th t).regs := by
  simp [State.goto]

theorem State.reg_congr {s s' : State} {t : Thread} (h : (s'.th t).regs = (s.th t).regs) (r : Reg) : s'.reg t r = s.reg t r := by
  unfold State.reg
  rw [h]

@[simp] theorem State.goto_reg (s : State) (t u : Thread) (pc : BitVec 48) (r : Reg) : (s.goto t pc).reg u r = s.reg u r := by
  by_cases h : u = t
  · subst h
    simp [State.reg]
  · simp [State.reg, h]

@[simp] theorem State.th_advance_ne (s : State) {t u : Thread} (h : u ≠ t) (n : Nat) : (s.advance t n).th u = s.th u :=
  s.th_goto_ne h _

@[simp] theorem State.th_setReg_ne (s : State) {t u : Thread} (h : u ≠ t) (r : Reg) (v : Word) :
    (s.setReg t r v).th u = s.th u := by
  unfold State.setReg
  split
  · rfl
  · exact State.th_modTh_ne _ _ h

@[simp] theorem State.setReg_pc (s : State) (t : Thread) (r : Reg) (v : Word) : ((s.setReg t r v).th t).pc = (s.th t).pc := by
  unfold State.setReg
  split <;> simp

end Sys2Proof.Machine
end

/-! PROOFS. ERET, TSTART and TSTOP (spec/09 R213, R225). -/

section
namespace Sys2Proof.Machine

/-- ERET of thread S leaves handler mode (R225). -/
theorem Completes.eret {s : State} (hc : s.calm) (hr : (s.th .S).state = .run) (rd ra : Reg) (n : BitVec 12) :
    (s.sash.epc = 0 → Completes (.eret .S rd ra n) s fun s' => s'.s = { s.s with state := .idle, wait := .none } ∧
      s'.sash = { s.sash with handler := false, lastIssued := .S }) ∧
    (s.sash.epc ≠ 0 → Completes (.eret .S rd ra n) s
      (WritesRd .S 0 0 (s.sash.epc &&& ~~~3) { s with sash := { s.sash with handler := false } })) := by
  refine ⟨fun h => ?_, fun h => ?_⟩
  · refine .of_ifRun (t := .S) hc hr rfl (s' := ({ s with sash := { s.sash with handler := false, lastIssued := .S } }).modTh .S
      fun x => { x with state := .idle, wait := .none }) ?_ ⟨rfl, rfl⟩
    exact if_pos h
  · refine .of_ifRun (t := .S) hc hr rfl (s' := ({ s with sash := { s.sash with handler := false, lastIssued := .S } }).goto .S
      (pcOf s.sash.epc)) ?_ ?_
    · exact if_neg h
    · exact .of_goto (s := { s with sash := { s.sash with handler := false } }) (t := .S) hc hr 0 0 _

/-- What TSTART makes of the thread that it starts, with 0 in rd of thread S. -/
def startedThread (s : State) (rd : Reg) (u : Thread) (pc : BitVec 48) : State :=
  ((s.issuedBy .S).setReg .S rd 0).modTh u fun x => { x with
    ctx := if (s.th u).state = .idle then (s.th .S).ctx else (s.th u).ctx, pc := pc, state := .run, wait := .none,
    stopAsked := false }

/-- TSTART starts a thread that is IDLE or STOPPED at a good address (R213). -/
theorem Completes.tstart_starts {s : State} (hc : s.calm) (hr : (s.th .S).state = .run) (rd ra : Reg) {n : BitVec 12} {u : Thread}
    (hu : threadOf n.toNat = u) (hs : (s.th u).state = .idle ∨ (s.th u).state = .stopped)
    (hal : (s.reg .S ra).toNat % 4 = 0) (hlt : (s.reg .S ra).toNat < 2 ^ 48) :
    Completes (.tstart .S rd ra n) s fun s' => s'.reg .S rd = 0 ∧ s'.s.pc = s.s.pc + 4 ∧
      (s'.th u).pc = (s.reg .S ra).setWidth 48 ∧ (s'.th u).regs = (s.th u).regs ∧
      ((s'.th u).state = .run ∨ ((s'.th u).state = .memory ∧ (s'.th u).wait = .fetch)) ∧
      (s'.th u).ctx = if (s.th u).state = .idle then s.s.ctx else (s.th u).ctx := by
  have hne : u ≠ .S := by
    rintro rfl
    rcases hs with h | h <;> exact absurd (hr.symm.trans h) (by decide)
  have alive : ¬(decide ((s.th u).state ≠ .idle) && decide ((s.th u).state ≠ .stopped)) = true := by
    rcases hs with h | h <;> simp [h]
  have good : ¬(decide ((s.reg .S ra).toNat % 4 ≠ 0) || decide (2 ^ 48 ≤ (s.reg .S ra).toNat)) = true := by
    simp only [hal, Bool.or_eq_true, decide_eq_true_eq]
    omega
  refine .of_ifRun (t := .S) hc hr rfl (s' := (((startedThread s rd u ((s.reg .S ra).setWidth 48)).fetchNext u).advance .S 4)) ?_ ?_
  · simp only [State.reg_issued, State.th_issued, hu, alive, good]
    rfl
  have own : (startedThread s rd u ((s.reg .S ra).setWidth 48)).th u = { s.th u with
      ctx := if (s.th u).state = .idle then (s.th .S).ctx else (s.th u).ctx, pc := (s.reg .S ra).setWidth 48, state := .run,
      wait := .none, stopAsked := false } := by simp [startedThread, hne]
  have other : (startedThread s rd u ((s.reg .S ra).setWidth 48)).th .S = ((s.issuedBy .S).setReg .S rd 0).th .S := by
    simp [startedThread, State.th_modTh_ne, hne.symm]
  refine ⟨?_, ?_, ?_, ?_, ?_, ?_⟩
  · have same := State.reg_congr (s := (s.issuedBy .S).setReg .S rd 0) (t := .S)
      (s' := (startedThread s rd u ((s.reg .S ra).setWidth 48)).fetchNext u) (by simp [hne.symm, other]) rd
    rw [State.advance, State.goto_reg, same, State.reg_setReg]
    by_cases h : rd = 0 <;> simp [h, State.reg]
  · have pc := State.goto_pc ((startedThread s rd u ((s.reg .S ra).setWidth 48)).fetchNext u) .S
      ((((startedThread s rd u ((s.reg .S ra).setWidth 48)).fetchNext u).th .S).pc + BitVec.ofNat 48 4)
    refine Eq.trans pc ?_
    rw [State.th_fetchNext_ne _ hne.symm, other, State.setReg_pc]
    rfl
  · simp [hne, own]
  · simp [hne, own]
  · rw [State.th_advance_ne _ hne]
    exact State.fetchNext_runs (by rw [own])
  · simp only [State.th_advance_ne _ hne, State.fetchNext_ctx, own]
    rfl

/-- Settles O21. -/
theorem threadControl : Obligations.ThreadControl := by
  intro s rd ra n t hc
  refine ⟨fun hr => ⟨(Completes.eret hc hr rd ra n).1, (Completes.eret hc hr rd ra n).2, fun hi hs => ?_, fun hs bad => ?_,
    fun hs hal hlt => .tstart_starts hc hr rd ra rfl hs hal hlt, fun hne hrun => ?_⟩, fun hr hd => ⟨fun hne => ⟨?_, ?_⟩, fun h => ?_⟩⟩
  · refine .writesRd (t := .S) hc hr rfl ?_
    simp [hi, hs, State.writeRd]
  · refine .writesRd (t := .S) hc hr rfl ?_
    have far : (decide ((s.reg .S ra).toNat % 4 ≠ 0) || decide (2 ^ 48 ≤ (s.reg .S ra).toNat)) = true := by simpa using bad
    rcases hs with h | h <;> simp only [State.reg_issued, State.th_issued, h, far] <;> rfl
  · have other : (s.setTh (threadOf n.toNat) { s.th (threadOf n.toNat) with
        state := .stopped, wait := .none, stopAsked := false }).th .S = s.th .S := State.th_setTh_ne _ _ hne.symm
    have self : (decide (Thread.S ≠ .S) || decide (threadOf n.toNat = .S)) = false := by simp [hne]
    refine .writesRd_of (t := .S) hc hr rfl (z := s.setTh (threadOf n.toNat) { s.th (threadOf n.toNat) with
        state := .stopped, wait := .none, stopAsked := false }) ?_ (by rw [other]; exact hr) (rd := 0) (v := 0) ?_ fun s' h => ?_
    · cases threadOf n.toNat <;> exact hc
    · simp only [State.stopAtBoundary, State.th_issued, hrun, self, Bool.false_eq_true, if_false]
      cases threadOf n.toNat <;> rfl
    · rw [GoesOn]
      rwa [other] at h ⊢
  · refine .stopsWith hc hr rfl hd ?_
    simp [hne]
  · refine .stopsWith hc hr rfl hd ?_
    simp [hne]
  · refine .stopsWith hc hr rfl hd ?_
    simp [h]

end Sys2Proof.Machine
end

/-! PROOFS. The entry of the exception handler (spec/09 R225). -/

section
namespace Sys2Proof.Machine

/-- Thread S at EVEC in handler mode, before it fetches there. -/
def enteredHandler (s : State) : State :=
  ({ s with sash := { s.sash with handler := true, epc := if s.s.state = TState.idle then 0 else s.s.pc } }).modTh .S fun x => { x with
    ctx := if s.s.state = TState.idle then s.newestCtx else s.s.ctx, state := .run, wait := .none, stopAsked := false,
    pc := s.sash.evec &&& ~~~3 }

theorem State.handlerDue_iff (s : State) : s.handlerDue = true ↔
    s.clk.aclkOn = true ∧ s.lt.hatchActive = false ∧ s.sash.evec ≠ 0 ∧ s.sash.excq ≠ [] ∧ s.sash.handler = false ∧
    (s.s.state = .run ∨ s.s.state = .latch ∨ s.s.state = .queue ∨ s.s.state = .idle) := by
  have own : s.th .S = s.s := rfl
  rw [State.handlerDue, own]
  simp [and_assoc, or_assoc]

theorem execHandlerEntry_due {s : State} (h : s.handlerDue = true) :
    exec .handlerEntry s = .next ((enteredHandler s).fetchNext .S) := by
  refine congrArg Host.Outcome.next ((if_neg (by simp [h])).trans ?_)
  simp only [decide_eq_true_eq]
  rfl

/-- Settles O24. -/
theorem handlerEntry : Obligations.HandlerEntry := by
  refine fun s => ⟨fun clk lt evec excq handler st => ?_, fun h => ⟨s, ?_, rfl⟩⟩
  · have fetched := (enteredHandler s).fetchNext_fetched .S
    have sash := fetched.sash
    have own := fetched.own
    have regs := congrArg ThreadState.regs own
    have queue := congrArg Sash.excq sash
    refine ⟨_, execHandlerEntry_due (s.handlerDue_iff.mpr ⟨clk, lt, evec, excq, handler, st⟩), congrArg Sash.handler sash,
      congrArg ThreadState.pc own, congrArg Sash.epc sash, congrArg ThreadState.ctx own, regs, queue,
      fetched.runs rfl, fetched.threads .F (by decide), fetched.threads .B (by decide),
      fetched.threads .U (by decide)⟩
  · refine congrArg Host.Outcome.next (if_pos ?_)
    rw [Bool.not_eq_true', ← Bool.not_eq_true, State.handlerDue_iff]
    rintro ⟨clk, lt, evec, excq, handler, st⟩
    rcases h with h | h | h | h | h | h | h | h <;> simp_all

end Sys2Proof.Machine
end

/-! PROOFS. What the journal, the credits and the end of a context leave alone: the threads, Sash and the host port
(spec/12 R283, spec/16 R397). -/

section
namespace Sys2Proof.Machine

/-- Nothing has changed outside the planes, the ports, the latches, the engines and the descriptor cache. -/
def Beside (s s' : State) : Prop :=
  { s' with frame := s.frame, jamb := s.jamb, latch := s.latch, door := s.door, eng := s.eng, dcache := s.dcache,
            rpl := s.rpl } = s

theorem Beside.refl (s : State) : Beside s s := rfl

theorem Beside.trans {a b c : State} (h : Beside a b) (h' : Beside b c) : Beside a c :=
  Eq.trans (congrArg (fun x : State => { x with
    frame := a.frame, jamb := a.jamb, latch := a.latch, door := a.door, eng := a.eng, dcache := a.dcache, rpl := a.rpl }) h') h

theorem Beside.th {s s' : State} (h : Beside s s') (u : Thread) : s'.th u = s.th u :=
  have same := congrArg (fun x : State => x.th u) h
  same

theorem Beside.foldl {α : Type} {f : State → α → State} (hf : ∀ s x, Beside s (f s x)) (l : List α) (s : State) :
    Beside s (l.foldl f s) := by
  induction l generalizing s with
  | nil => exact .refl s
  | cons x l ih => exact (hf s x).trans (ih _)

theorem Beside.ite {s a b : State} {p : Prop} [Decidable p] (ha : Beside s a) (hb : Beside s b) : Beside s (if p then a else b) := by
  split
  · exact ha
  · exact hb

theorem Beside.modPlane (s : State) (c : Nat) (g : Plane → Plane) : Beside s (s.modPlane c g) := .ite rfl rfl

theorem Beside.journalPut (s : State) (c : Nat) (t : Thread) (bs : List Byte) : Beside s (s.journalPut c t bs) := by
  unfold State.journalPut
  split
  · exact .refl s
  · exact Beside.trans (b := s.jambAdd _) rfl (.modPlane ..)

theorem Beside.journalLatch (n : Nat) (s : State) (c : Nat) : Beside s (s.journalLatch c n) := by
  induction n generalizing s with
  | zero => exact .refl s
  | succ n ih => exact .ite (.refl s) (((Beside.journalPut ..).trans (.modPlane ..)).trans (ih _))

theorem Beside.journalFlush (s : State) (c : Nat) : Beside s (s.journalFlush c) := .ite (.journalLatch ..) (.refl s)

theorem Beside.journalStream (s : State) (c k : Nat) (t : Thread) (step : BitVec 32) (ws : List Word) :
    Beside s (s.journalStream c k t step ws) :=
  .ite ((Beside.journalFlush s c).trans (.journalPut ..)) (.refl s)

theorem Beside.journalOpen (s : State) (t : Thread) : Beside s (s.journalOpen t) := by
  unfold State.journalOpen
  dsimp only
  split
  · exact .refl s
  · exact Beside.trans (.ite (.modPlane ..) (.refl s)) (.journalStream ..)

theorem Beside.sigExtend (s : State) (l : Nat) : Beside s (s.sigExtend l) := .ite rfl (.refl s)

theorem Beside.sigRelease (s : State) : Beside s s.sigRelease :=
  .foldl (fun s l => .foldl (fun s _ => .sigExtend s l) _ s) _ s

theorem Beside.dropSignals (s : State) (c : Nat) : Beside s (s.dropSignals c) := by
  unfold State.dropSignals
  exact .trans (by rfl) (.sigRelease _)

theorem Beside.dcFlushAll (s : State) (c : Nat) : Beside s (s.dcFlushAll c) := by
  refine Beside.trans (b := s.dcClean c) ?_ rfl
  unfold State.dcClean
  exact .trans (by rfl) (.foldl (f := State.dcWriteback) (fun _ _ => rfl) _ _)

theorem Beside.fillsDrop (s : State) (c : Nat) : Beside s (s.fillsDrop c) := rfl

theorem Beside.of_parts (s : State) (l : LatchUnit) (e : Engines) : Beside s { s with latch := l, eng := e } := rfl

theorem Beside.of_rpl (s : State) (r : Replay) : Beside s { s with rpl := r } := rfl

theorem Beside.planeEmpty (s : State) (c : Nat) : Beside s (s.planeEmpty c) := .ite (.modPlane ..) (.refl s)

/-- The thread has not ended its part in context `c`. -/
def forgetEnd (c : Nat) (x : ThreadState) : ThreadState := { x with ended := x.ended.filter fun o => o ≠ c }

/-- The end of a context: what it does beside the threads, and that each of them forgets that it ended there. -/
theorem State.endContext_eq (s : State) (c : Nat) :
    ∃ z, Beside s z ∧ s.endContext c = (allThreads.foldl (fun s t => s.modTh t (forgetEnd c)) z).planeEmpty c := by
  have dropped : Beside s ((s.dropSignals c).fillsDrop c) :=
    (Beside.dropSignals s c).trans (.fillsDrop _ c)
  have cleared : Beside s { (s.dropSignals c).fillsDrop c with
      latch := { ((s.dropSignals c).fillsDrop c).latch with
        counts := SMap.drop ((s.dropSignals c).fillsDrop c).latch.counts fun k => k / 48 = c }
      eng := { ((s.dropSignals c).fillsDrop c).eng with
        accums := SMap.drop ((s.dropSignals c).fillsDrop c).eng.accums fun k => k / 32 = c } } := dropped.trans (.of_parts ..)
  have flushed := ((cleared.trans (.journalFlush _ c)).trans (.dcFlushAll _ c)).trans (.modPlane _ c fun p => { p with
    groups := [], norm := { step := 0, state := 0, sum := 0, kappa := 0 }, held := none, finished := true })
  exact ⟨_, .ite (flushed.trans (.of_rpl ..)) flushed, rfl⟩

theorem State.th_endContext (s : State) (c : Nat) (u : Thread) : (s.endContext c).th u = forgetEnd c (s.th u) := by
  obtain ⟨z, beside, eq⟩ := s.endContext_eq c
  rw [eq, (Beside.planeEmpty _ c).th, ← beside.th u]
  cases u <;> rfl

end Sys2Proof.Machine
end

/-! PROOFS. TEND and the end of a thread's part (spec/09 R197). -/

section
namespace Sys2Proof.Machine

theorem State.plane_modTh (s : State) (t : Thread) (g : ThreadState → ThreadState) : (s.modTh t g).plane = s.plane := by
  funext i
  simp [State.plane]

theorem State.plane_setTh (s : State) (t : Thread) (x : ThreadState) : (s.setTh t x).plane = s.plane := by
  funext i
  simp [State.plane]

/-- The context that a thread goes to does not depend on its having ended the one that it leaves. -/
theorem State.nextContext_ended (s : State) (t : Thread) (c : Nat) :
    (s.modTh t fun x => { x with ended := c :: x.ended.filter fun o => o ≠ c }).nextContext t c = s.nextContext t c := by
  have other : 1 - c ≠ c := by omega
  have contains : (c :: (s.th t).ended.filter fun o => o ≠ c).contains (1 - c) = (s.th t).ended.contains (1 - c) := by
    simp [other]
  simp only [State.nextContext, State.frameOf, State.ctxStarted, State.startsIn, State.savedOf, State.plane_modTh,
    State.th_modTh, contains]
  rfl

theorem State.allEnded_congr {s s' : State} (plane : s'.plane = s.plane) (sash : s'.sash.handler = s.sash.handler)
    (epc : s'.sash.epc = s.sash.epc)
    (th : ∀ u, (s'.th u).ended = (s.th u).ended ∧ (s'.th u).state = (s.th u).state ∧ (s'.th u).ctx = (s.th u).ctx) (c : Nat) :
    s'.allEnded c = s.allEnded c := by
  simp only [State.allEnded, State.startsIn, State.savedOf, State.frameOf, plane, sash, epc, fun u => (th u).1,
    fun u => (th u).2.1, fun u => (th u).2.2]

/-- Where the end of its part leaves a thread: the context may end with it. -/
theorem State.th_ite_endContext (s : State) (c : Nat) (u : Thread) :
    (if s.allEnded c then s.endContext c else s).th u = if s.allEnded c then forgetEnd c (s.th u) else s.th u := by
  split
  · exact s.th_endContext c u
  · rfl

/-- A thread's part in `c` has ended. -/
def endedIn (c : Nat) (x : ThreadState) : ThreadState := { x with ended := c :: x.ended.filter fun o => o ≠ c }

/-- A thread without a context to go to is IDLE. -/
theorem State.endPart_idle {s : State} {t : Thread} (h : s.nextContext t (s.th t).ctx = none) :
    let c := (s.th t).ctx
    ((s.endPart t).th t).state = .idle ∧ ((s.setTh t { endedIn c (s.th t) with state := .idle }).allEnded c = false →
      ((s.endPart t).th t).ended = (endedIn c (s.th t)).ended) := by
  have eq : s.endPart t =
      let z := (s.modTh t (endedIn (s.th t).ctx)).modTh t fun x => { x with state := .idle, wait := .none, stopAsked := false }
      if z.allEnded (s.th t).ctx then z.endContext (s.th t).ctx else z := by
    unfold State.endPart
    dsimp only
    rw [State.nextContext_ended, h]
    rfl
  rw [eq]
  dsimp only
  rw [State.th_ite_endContext, State.allEnded_congr (s := s.setTh t { endedIn (s.th t).ctx (s.th t) with state := .idle })]
  · simp only [State.th_modTh]
    refine ⟨by split <;> rfl, fun h => by rw [h]; rfl⟩
  · rw [State.plane_modTh, State.plane_modTh, State.plane_setTh]
  · simp
  · simp
  · intro u
    by_cases hu : u = t
    · subst hu
      simp
    · simp [State.th_modTh_ne, State.th_setTh_ne, hu]

/-- A thread that a Frame starts stands at its entry point (R196). -/
theorem State.th_startThread {s : State} {t : Thread} {c : Nat} (f : FrameCfg) (h : s.savedOf c t = none) :
    let x := (s.startThread c t f).th t
    x.ctx = c ∧ x.pc = f.entry t ∧ x.stepno = f.step0 t ∧ x.wseq = 0 ∧ x.regs = (s.th t).regs := by
  unfold State.startThread
  rw [h]
  dsimp only
  have fetched := State.fetchNext_fetched ((s.modTh t fun x => { x with
    ctx := c, state := .run, wait := .none, stopAsked := false, pc := f.entry t, stepno := f.step0 t, wseq := 0 }).journalOpen t) t
  have own := fetched.own
  rw [(Beside.journalOpen _ t).th, State.th_modTh] at own
  have ctx := congrArg ThreadState.ctx own
  have pc := congrArg ThreadState.pc own
  have stepno := congrArg ThreadState.stepno own
  have wseq := congrArg ThreadState.wseq own
  have regs := congrArg ThreadState.regs own
  exact ⟨ctx, pc, stepno, wseq, regs⟩

/-- A thread with a context to go to starts there. -/
theorem State.endPart_starts {s : State} {t : Thread} {f : FrameCfg} (h : s.nextContext t (s.th t).ctx = some f)
    (hs : s.savedOf (1 - (s.th t).ctx) t = none) :
    let x := (s.endPart t).th t
    x.ctx = 1 - (s.th t).ctx ∧ x.pc = f.entry t ∧ x.stepno = f.step0 t ∧ x.wseq = 0 ∧ x.regs = (s.th t).regs := by
  have eq : s.endPart t =
      let z := (s.modTh t (endedIn (s.th t).ctx)).startThread (1 - (s.th t).ctx) t f
      if z.allEnded (s.th t).ctx then z.endContext (s.th t).ctx else z := by
    unfold State.endPart
    dsimp only
    rw [State.nextContext_ended, h]
    rfl
  have saved : (s.modTh t (endedIn (s.th t).ctx)).savedOf (1 - (s.th t).ctx) t = none := by
    rw [State.savedOf, State.plane_modTh]
    exact hs
  obtain ⟨ctx, pc, stepno, wseq, regs⟩ := State.th_startThread f saved
  rw [State.th_modTh] at regs
  rw [eq]
  dsimp only
  rw [State.th_ite_endContext]
  split
  · exact ⟨ctx, pc, stepno, wseq, regs⟩
  · exact ⟨ctx, pc, stepno, wseq, regs⟩

theorem State.tendReady_iff (s : State) (t : Thread) :
    s.tendReady t = true ↔ s.eng.lanes.any (fun e => decide (e.stream = t)) = false ∧ (s.th t).posts = [] := by
  simp [State.tendReady]

/-- Settles O20. -/
theorem tendInstruction : Obligations.TendInstruction := by
  intro s t rd ra n hc
  refine ⟨fun busy hr => ?_, fun done i hi => ?_⟩
  · refine .of_ifRun hc hr rfl (s' := (s.issuedBy t).setTh t { s.th t with state := .queue, wait := .tend, timer := 0 }) ?_ rfl
    refine (if_neg fun ready => busy ((s.tendReady_iff t).mp ready)).trans ?_
    rw [State.waitIn, State.modTh, State.th_issued]
  · have ends : ∃ z, exec i s = .next (z.endPart t) ∧ (z = s ∨ z = s.issuedBy t) := by
      have ready := (s.tendReady_iff t).mpr done
      rcases hi with ⟨rfl, hr⟩ | ⟨rfl, hq, hw⟩
      · refine ⟨s.issuedBy t, ?_, .inr rfl⟩
        exact congrArg Host.Outcome.next ((State.ifRun_run hr (State.upsetAt_calm hc _) _).trans (if_pos ready))
      · exact ⟨s, congrArg Host.Outcome.next (if_pos (by simp [hq, hw, ready])), .inl rfl⟩
    obtain ⟨z, run, hz⟩ := ends
    have th : z.th t = s.th t := by rcases hz with rfl | rfl <;> simp
    have next : z.nextContext t (z.th t).ctx = s.nextContext t (s.th t).ctx := by rcases hz with rfl | rfl <;> rfl
    refine ⟨fun none => ?_, fun f some hs _ => ?_⟩
    · obtain ⟨idle, ended⟩ := State.endPart_idle (next.trans none)
      rw [th] at ended
      refine ⟨_, run, idle, fun h => ended ?_⟩
      refine Eq.trans ?_ h
      rcases hz with rfl | rfl
      · rfl
      · refine State.allEnded_congr (funext fun i => ?_) ?_ ?_ (fun u => ?_) _
        · simp [State.plane, State.issuedBy]
        · simp [State.issuedBy]
        · simp [State.issuedBy]
        · cases t <;> cases u <;> exact ⟨rfl, rfl, rfl⟩
    · obtain ⟨ctx, pc, stepno, wseq, regs⟩ := State.endPart_starts (next.trans some) (by rcases hz with rfl | rfl <;> exact hs)
      rw [th] at ctx regs
      exact ⟨_, run, ctx, pc, stepno, wseq, State.reg_congr regs⟩

end Sys2Proof.Machine
end

/-! PROOFS. FENCE.I, the accumulator instructions and DFL (spec/09 R203, R213; spec/07 R163; spec/03 R73). -/

section
namespace Sys2Proof.Machine

/-- A thread that asks for a line waits for it. -/
theorem State.fetchAsk_waits (s : State) (t : Thread) (again : Bool) (line : Nat) :
    ((s.fetchAsk t again line).th t).state = .memory ∧ ((s.fetchAsk t again line).th t).wait = .fetch := by
  unfold State.fetchAsk
  dsimp only
  split <;> cases t <;> exact ⟨rfl, rfl⟩

/-- With an empty instruction cache a running thread waits for its line. -/
theorem State.fetchNext_miss {s : State} {t : Thread} (hr : (s.th t).state = .run) (hi : s.sash.icache = []) :
    s.fetchNext t = s.fetchAsk t false ((s.th t).pc.toNat / 128) := by
  simp [State.fetchNext, State.fetchAt, State.isRun, hr, hi]

/-- An instruction that goes on behind a flush of the instruction cache goes on. -/
theorem GoesOn.of_icFlush {t : Thread} {s s' : State} (h : GoesOn t s.icFlush s') : GoesOn t s s' where
  threads := h.threads
  sash := have same := congrArg (fun x : Sash => { x with icache := s.sash.icache }) h.sash
    same
  jamb := h.jamb
  rest := have same := congrArg (fun x : State => { x with sash := s.sash }) h.rest
    same
  own := h.own
  runs := h.runs
  regs := h.regs
  pcNow := h.pcNow

theorem Completes.fenceI {s : State} {t : Thread} (hc : s.calm) (hr : (s.th t).state = .run) (rd ra : Reg) (n : BitVec 12) :
    Completes (.fenceI t rd ra n) s fun s' => s'.sash.icache = [] ∧ (s'.th t).state = .memory ∧
      (s'.th t).wait = .fetch ∧ GoesOn t s s' := by
  have misses : (s.icFlush.issuedBy t).writeRd t 0 0 = State.fetchAsk ((s.icFlush.issuedBy t).modTh t fun x =>
      { x with pc := (s.th t).pc + 4 }) t false (((s.th t).pc + 4).toNat / 128) := by
    refine Eq.trans (State.fetchNext_miss ?_ ?_) ?_
    · cases t <;> exact hr
    · cases t <;> rfl
    · cases t <;> rfl
  refine .of_ifRun hc hr rfl (s' := (s.icFlush.issuedBy t).writeRd t 0 0) rfl ⟨?_, ?_, ?_, ?_⟩
  · rw [misses, State.fetchAsk_sash, State.modTh_sash]
    rfl
  · rw [misses]
    exact (State.fetchAsk_waits ..).1
  · rw [misses]
    exact (State.fetchAsk_waits ..).2
  · exact .of_icFlush (.of_writeRd (s := s.icFlush) hc hr 0 0)

/-! ### The accumulators -/

/-- The check of an accumulator reports nothing when its residue matches. -/
theorem State.accumCheck_sound {s : State} {c n : Nat} {u : Upset} (hu : ∀ d, u ≠ .fatal d) (h : (s.accum c n).sound = true) :
    s.accumCheck c n u = s := by
  cases u with
  | fatal d => exact absurd rfl (hu d)
  | clean => exact if_pos h
  | corrected => exact if_pos h

/-- The check of an accumulator is an integrity event of group 0 when the residue does not match (16 R380). -/
theorem State.accumCheck_event {s : State} {c n : Nat} {u : Upset} (h : (∃ d, u = .fatal d) ∨ (s.accum c n).sound = false) :
    ∃ i : EventInfo, i.causeBit = 0 ∧ s.accumCheck c n u = s.integrity i := by
  cases u with
  | fatal d => exact ⟨_, rfl, rfl⟩
  | clean => exact ⟨_, rfl, if_neg (by simpa using h)⟩
  | corrected => exact ⟨_, rfl, if_neg (by simpa using h)⟩

theorem State.th_setAccum (s : State) (c n : Nat) (a : Accum) (u : Thread) : (s.setAccum c n a).th u = s.th u := rfl

theorem State.accum_setAccum (s : State) (c n : Nat) (a : Accum) : (s.setAccum c n a).accum c n = a := by
  simp [State.accum, State.setAccum, SMap.look_put]

/-- An accumulator instruction of a running thread whose accumulator is sound. -/
theorem Completes.accum_sound {s : State} {t : Thread} (hc : s.calm) (hr : (s.th t).state = .run) (rd ra : Reg) {n : BitVec 12}
    {u : Upset} (hn : n.toNat < 32) (hu : ∀ d, u ≠ .fatal d) (hs : (s.accum (s.th t).ctx n.toNat).sound = true) :
    Completes (.lvRd t rd ra n u) s (WritesRd t rd (accumRead (s.accum (s.th t).ctx n.toNat)) ((s.th t).pc + 4) s) ∧
    Completes (.lvClr t rd ra n u) s fun s' => GoesOn t (s.setAccum (s.th t).ctx n.toNat Accum.init) s' ∧
      s'.accum (s.th t).ctx n.toNat = Accum.init := by
  have good : decide (32 ≤ n.toNat) = false := by simpa using hn
  have checked : (s.issuedBy t).accumCheck (s.th t).ctx n.toNat u = s.issuedBy t := State.accumCheck_sound hu hs
  constructor
  · refine .writesRd hc hr rfl ?_
    simp only [good, Bool.false_eq_true, if_false, State.th_issued, checked]
    rfl
  · refine .writesRd_of (z := s.setAccum (s.th t).ctx n.toNat Accum.init) (rd := 0) (v := 0) hc hr rfl hc hr ?_
      fun s' h => ⟨h, ?_⟩
    · simp only [good, Bool.false_eq_true, if_false, State.th_issued, checked]
      rfl
    · have eng := congrArg State.eng h.rest
      rw [State.accum, eng]
      exact State.accum_setAccum ..

/-- A detection event has been counted, and thread `t` goes on at `pc`. -/
def Detected (t : Thread) (pc : BitVec 48) (events : Nat) (s' : State) : Prop :=
  s'.int.stat.getLsbD 0 = true ∧ s'.int.stat.getLsbD 8 = true ∧ s'.int.events = satInc 16 events ∧ (s'.th t).pc = pc

/-- An instruction that goes on behind an event of group 0. -/
theorem Detected.of_advance {s z : State} {t : Thread} {i : EventInfo} (hi : i.causeBit = 0) (hz : z.int = (s.integrity i).int)
    (hpc : (z.th t).pc = (s.th t).pc) : Detected t ((s.th t).pc + 4) s.int.events (z.advance t 4) := by
  have int := (State.fetchNext_fetched (z.modTh t fun x => { x with pc := (z.th t).pc + BitVec.ofNat 48 4 }) t).int
  have stat := congrArg Integrity.stat int
  have events := congrArg Integrity.events int
  obtain ⟨alarm, detected⟩ := getLsbD_stat s.int.stat 0
  rw [State.modTh_int, hz] at stat events
  rw [(s.integrity_int i).1, hi] at stat
  rw [(s.integrity_int i).2] at events
  refine ⟨?_, ?_, events, ?_⟩
  · exact (congrArg (BitVec.getLsbD · 0) stat).trans detected
  · exact (congrArg (BitVec.getLsbD · 8) stat).trans alarm
  · rw [State.advance, State.goto_pc, hpc]
    rfl

/-- An accumulator instruction of a running thread whose accumulator fails its check. -/
theorem Completes.accum_event {s : State} {t : Thread} (hc : s.calm) (hr : (s.th t).state = .run) (rd ra : Reg) {n : BitVec 12}
    {u : Upset} (hn : n.toNat < 32) (h : (∃ d, u = .fatal d) ∨ (s.accum (s.th t).ctx n.toNat).sound = false) :
    Completes (.lvRd t rd ra n u) s (fun s' => Detected t ((s.th t).pc + 4) s.int.events s' ∧
      (rd ≠ 0 → s'.reg t rd = accumRead (s.accum (s.th t).ctx n.toNat))) ∧
    Completes (.lvClr t rd ra n u) s fun s' => Detected t ((s.th t).pc + 4) s.int.events s' ∧
      s'.accum (s.th t).ctx n.toNat = Accum.init := by
  have good : decide (32 ≤ n.toNat) = false := by simpa using hn
  obtain ⟨i, hi, event⟩ := State.accumCheck_event (s := s.issuedBy t) (c := (s.th t).ctx) (n := n.toNat) (u := u) h
  have accum : ((s.issuedBy t).integrity i).accum (s.th t).ctx n.toNat = s.accum (s.th t).ctx n.toNat :=
    have eng := congrArg State.eng (OnlyLogs.of_integrity (s.issuedBy t) i).rest
    congrArg (fun e : Engines => SMap.look e.accums Accum.init (32 * (s.th t).ctx + n.toNat)) eng
  constructor
  · refine .of_ifRun hc hr rfl (s' := (((s.issuedBy t).integrity i).setReg t rd
      (accumRead (s.accum (s.th t).ctx n.toNat))).advance t 4) ?_ ⟨?_, fun h0 => ?_⟩
    · simp only [good, Bool.false_eq_true, if_false, State.th_issued, event, State.th_integrity, accum]
    · have := Detected.of_advance (s := s.issuedBy t) hi (z := ((s.issuedBy t).integrity i).setReg t rd
        (accumRead (s.accum (s.th t).ctx n.toNat))) (t := t) (by simp) (by simp)
      rwa [State.th_issued] at this
    · rw [State.advance, State.goto_reg, State.reg_setReg]
      simp [h0]
  · refine .of_ifRun hc hr rfl (s' := (((s.issuedBy t).integrity i).setAccum (s.th t).ctx n.toNat Accum.init).advance t 4) ?_ ⟨?_, ?_⟩
    · simp only [good, Bool.false_eq_true, if_false, State.th_issued, event, State.th_integrity]
    · have := Detected.of_advance (s := s.issuedBy t) hi (z := ((s.issuedBy t).integrity i).setAccum (s.th t).ctx n.toNat
        Accum.init) (t := t) (by simp) (by
          rw [State.th_setAccum, State.th_integrity])
      rwa [State.th_issued] at this
    · rw [State.accum, State.advance_eng]
      exact State.accum_setAccum ..

theorem fenceAndAccumulators : FenceAndAccumulators := by
  intro s t rd ra n u hc hr
  refine ⟨.fenceI hc hr rd ra n, fun hu hn hs => Completes.accum_sound hc hr rd ra hn hu hs, fun hn h => Completes.accum_event hc hr rd ra hn h,
    fun hd hn => ⟨.stopsWith hc hr rfl hd ?_, .stopsWith hc hr rfl hd ?_⟩⟩ <;>
  · simp [hn]

/-! ### The flush of a descriptor -/

theorem mem_insertNat {x y : Nat} {l : List Nat} : y ∈ insertNat x l ↔ y = x ∨ y ∈ l := by
  induction l with
  | nil => simp [insertNat]
  | cons z r ih =>
    unfold insertNat
    split
    · simp
    · split
      · next h => simp [h]
      · simp only [List.mem_cons, ih]
        tauto

theorem mem_blocksOf {b : Nat} {as : List Nat} : b ∈ blocksOf as ↔ ∃ a ∈ as, a / 256 = b := by
  have inserts : ∀ l : List Nat, b ∈ as.foldl (fun l a => insertNat (a / 256) l) l ↔ b ∈ l ∨ ∃ a ∈ as, a / 256 = b := by
    induction as with
    | nil => simp
    | cons a r ih =>
      intro l
      simp only [List.foldl_cons, ih, mem_insertNat, List.mem_cons, exists_eq_or_imp, eq_comm (a := b)]
      tauto
  exact (inserts []).trans (by simp)

/-- The writes of a list of cells carry these cells and no others. -/
theorem mem_cells_writeReqs {o : Owner} {c : Client} {held : Bool} {cs : List Host.Cell} {x : Host.Cell} :
    x ∈ (writeReqs o c held cs).flatMap (fun r => r.cells) ↔ x ∈ cs := by
  simp only [writeReqs, cellBlocks, List.map_map, List.mem_flatMap, List.mem_map, Function.comp_apply]
  constructor
  · rintro ⟨_, ⟨b, _, rfl⟩, h⟩
    exact (List.mem_filter.mp h).1
  · intro h
    refine ⟨_, ⟨x.1 / 256, mem_blocksOf.mpr ⟨x.1, List.mem_map_of_mem h, rfl⟩, rfl⟩, ?_⟩
    exact List.mem_filter.mpr ⟨h, by simp⟩

theorem mem_writeReqs {o : Owner} {c : Client} {held : Bool} {cs : List Host.Cell} {r : JReq} (h : r ∈ writeReqs o c held cs) :
    r.write = true ∧ r.owner = o := by
  simp only [writeReqs, List.mem_map] at h
  obtain ⟨b, _, rfl⟩ := h
  exact ⟨rfl, rfl⟩

theorem writeReqs_ne_nil {o : Owner} {c : Client} {held : Bool} {cs : List Host.Cell} (h : cs ≠ []) : writeReqs o c held cs ≠ [] := by
  intro none
  obtain ⟨x, hx⟩ := List.exists_mem_of_ne_nil cs h
  have := mem_cells_writeReqs (o := o) (c := c) (held := held).mpr hx
  simp [none] at this

theorem cellsAt_descBytes_ne_nil (a : Nat) (d : Desc) : cellsAt a (descBytes d) ≠ [] := by
  have long : descBytes d ≠ [] := by
    intro h
    have := congrArg List.length h
    simp [descBytes, natLe_length] at this
  cases h : descBytes d with
  | nil => exact absurd h long
  | cons b r => simp [cellsAt]

/-- The state without the entry of a handle in the descriptor cache. -/
def State.dcWithout (s : State) (c h : Nat) : State :=
  { s with dcache := s.dcache.filter fun x => !(x.ctx = c && x.handle = h) }

theorem bitsN_zero (v n : Nat) : bitsN v 0 n = v % 2 ^ n := by simp [bitsN]

theorem State.dcFlush_none {s : State} {c h : Nat} (none : s.dcFind c h = none) : s.dcFlush c h = s := by
  rw [State.dcFlush, none]

theorem State.dcFlush_clean {s : State} {c h : Nat} {e : DcEntry} (some : s.dcFind c h = some e) (clean : e.dirty = false) :
    s.dcFlush c h = s.dcWithout c h := by
  simp [State.dcFlush, some, clean, State.dcWithout]

theorem State.dcFlush_dirty {s : State} {c h : Nat} {e : DcEntry} (some : s.dcFind c h = some e) (dirty : e.dirty = true) :
    s.dcFlush c h = (s.dcWithout c h).jambAdd
      (writeReqs (.writeback c h) .descWriteback false (cellsAt (s.descAddr c h) (descBytes e.desc))) := by
  have found := List.find?_some some
  simp only [Bool.and_eq_true, decide_eq_true_eq] at found
  simp only [State.dcFlush, some, dirty, if_true, State.dcWriteback, found]
  rfl

/-- A write-back that has been asked for is pending. -/
theorem State.wbPending_jambAdd {s : State} {c h : Nat} {rs : List JReq} (hne : rs ≠ [])
    (howner : ∀ r ∈ rs, r.owner = .writeback c h) : (s.jambAdd rs).wbPending c (some h) = true := by
  obtain ⟨r, hr⟩ := List.exists_mem_of_ne_nil rs hne
  rw [State.wbPending, Bool.or_eq_true, List.any_eq_true]
  exact .inl ⟨r, List.mem_append_right _ hr, by simp [howner r hr]⟩

/-- DFL flushes its handle, and waits while a write-back of it is pending. -/
theorem Completes.dfl {s s' : State} {t : Thread} {rd ra : Reg} {P : State → Prop} (hc : s.calm) (hr : (s.th t).state = .run)
    {h : Nat} (hh : (s.reg t ra).toNat % 2 ^ 20 = h)
    (acts : (if ((s.issuedBy t).dcFlush (s.th t).ctx h).wbPending (s.th t).ctx (some h)
      then ((s.issuedBy t).dcFlush (s.th t).ctx h).waitMem t (.flush h)
      else ((s.issuedBy t).dcFlush (s.th t).ctx h).advance t 4) = s') (hp : P s') : Completes (.dfl t rd ra 0) s P := by
  refine .of_ifRun hc hr rfl ?_ hp
  simp only [State.th_issued, State.reg_issued, bitsN_zero, hh]
  exact acts

theorem descriptorFlush : DescriptorFlush := by
  intro s t rd ra hc hr
  dsimp only
  generalize hh : (s.reg t ra).toNat % 2 ^ 20 = h
  refine ⟨fun none idle => ?_, fun e some clean idle => ?_, fun e some dirty => ?_⟩
  · refine .dfl hc hr hh ?_ (.of_writeRd hc hr 0 0)
    rw [State.dcFlush_none (s := s.issuedBy t) none]
    exact if_neg (Bool.not_eq_true _ ▸ idle)
  · refine .dfl hc hr hh ?_ (.of_writeRd (s := s.dcWithout (s.th t).ctx h) hc hr 0 0)
    rw [State.dcFlush_clean (s := s.issuedBy t) some clean]
    exact if_neg (Bool.not_eq_true _ ▸ idle)
  · have back := State.dcFlush_dirty (s := s.issuedBy t) some dirty
    have cells : writeReqs (.writeback (s.th t).ctx h) .descWriteback false
        (cellsAt (s.descAddr (s.th t).ctx h) (descBytes e.desc)) ≠ [] := writeReqs_ne_nil (cellsAt_descBytes_ne_nil _ _)
    refine .dfl hc hr hh (if_pos ?_) ?_
    · rw [back]
      exact State.wbPending_jambAdd cells fun r hr => (mem_writeReqs hr).2
    · rw [back]
      refine ⟨?_, ?_, ?_, ?_, _, ?_, cells, fun r hr => mem_writeReqs hr, fun b v => mem_cells_writeReqs⟩
      · rw [State.waitMem_dcache]
        rfl
      · rw [State.waitMem, State.th_modTh]
      · rw [State.waitMem, State.th_modTh]
      · rw [State.waitMem, State.th_modTh]
        rfl
      · rw [State.waitMem_jamb]
        rfl

/-- Settles O22. -/
theorem fencesAndFlushes : Obligations.FencesAndFlushes := ⟨fenceAndAccumulators, descriptorFlush⟩

end Sys2Proof.Machine
end

/-! PROOFS. SADV and its completion post (spec/09 R213, spec/14 R339 to R341). -/

section
namespace Sys2Proof.Machine

/-- Of thread `t` only the posts and the mirror have changed. -/
def PostsOnly (t : Thread) (s s' : State) : Prop :=
  { s'.th t with posts := (s.th t).posts, cmpl0 := (s.th t).cmpl0, cmpl1 := (s.th t).cmpl1 } = s.th t

theorem PostsOnly.refl (t : Thread) (s : State) : PostsOnly t s s := rfl

theorem PostsOnly.trans {t : Thread} {a b c : State} (h : PostsOnly t a b) (h' : PostsOnly t b c) : PostsOnly t a c :=
  Eq.trans (congrArg (fun x : ThreadState => { x with
    posts := (a.th t).posts, cmpl0 := (a.th t).cmpl0, cmpl1 := (a.th t).cmpl1 }) h') h

theorem PostsOnly.of_th {t : Thread} {s s' : State} (h : s'.th t = s.th t) : PostsOnly t s s' := by rw [PostsOnly, h]

theorem PostsOnly.modPost (s : State) (t : Thread) (n : BitVec 32) (g : Post → Post) : PostsOnly t s (s.modPost t n g) := by
  rw [PostsOnly, State.modPost, State.th_modTh]

theorem PostsOnly.foldl {α : Type} {t : Thread} {f : State → α → State} (hf : ∀ s x, PostsOnly t s (f s x)) (l : List α)
    (s : State) : PostsOnly t s (l.foldl f s) := by
  induction l generalizing s with
  | nil => exact .refl t s
  | cons x l ih => exact (hf s x).trans (ih _)

theorem Beside.journalClose (s : State) (t : Thread) (p : Post) : Beside s (s.journalClose t p) := by
  unfold State.journalClose
  split
  · exact .refl s
  · exact .ite ((Beside.journalStream ..).trans (.modPlane ..)) (.journalStream ..)

theorem PostsOnly.postBegin (s : State) (t : Thread) (p : Post) : PostsOnly t s (s.postBegin t p) := by
  unfold State.postBegin
  dsimp only
  have closed (z : State) (p : Post) : PostsOnly t z (z.journalClose t p) := .of_th ((Beside.journalClose z t p).th t)
  split
  · exact ((PostsOnly.modPost ..).trans (closed _ _)).trans (.of_th rfl)
  · exact ((PostsOnly.modPost ..).trans (closed _ _)).trans (.modPost ..)

theorem PostsOnly.postDone (s : State) (t : Thread) (p : Post) : PostsOnly t s (s.postDone t p) := by
  rw [PostsOnly, State.postDone, State.th_irqSet, State.th_modTh]

theorem PostsOnly.postsEnd (n : Nat) (s : State) (t : Thread) : PostsOnly t s (s.postsEnd t n) := by
  induction n generalizing s with
  | zero => exact .refl t s
  | succ n ih =>
    unfold State.postsEnd
    split
    · exact .refl t s
    · split
      · exact (PostsOnly.postDone ..).trans (ih _)
      · exact .refl t s

theorem PostsOnly.postsGo (s : State) (t : Thread) : PostsOnly t s (s.postsGo t) :=
  (PostsOnly.foldl (fun s p => .postBegin s t p) _ s).trans (.postsEnd ..)

/-- Where no post may begin or complete, all of them stay. -/
theorem State.postsGo_waiting {s : State} {t : Thread} (h : ∀ p ∈ (s.th t).posts, p.stage ≠ 3 ∧ (p.stage = 0 → p.waiting ≠ [])) :
    s.postsGo t = s := by
  have none : ((s.th t).posts.filter fun p => decide (p.stage = 0) && p.waiting.isEmpty) = [] := by
    rw [List.filter_eq_nil_iff]
    intro p hp
    simpa using (h p hp).2
  rw [State.postsGo, State.postsBegin, none, List.foldl_nil]
  cases hp : (s.th t).posts with
  | nil => rfl
  | cons p r =>
    rw [List.length_cons, State.postsEnd]
    simp [hp, (h p (by simp [hp])).1]

theorem State.journalClose_quiet {s : State} {t : Thread} {p : Post} (h : s.journals p.ctx = false) :
    (s.journalClose t p).th t = s.th t ∧ (s.journalClose t p).hinge = s.hinge ∧ (s.journalClose t p).jamb = s.jamb := by
  have stream (k : Nat) (step : BitVec 32) (ws : List Word) : s.journalStream p.ctx k t step ws = s :=
    if_neg (by simp [h])
  refine ⟨(Beside.journalClose s t p).th t, ?_, ?_⟩
  · have same := congrArg State.hinge (Beside.journalClose s t p)
    exact same
  · unfold State.journalClose
    split
    · rfl
    · simp only [stream]
      split
      · exact State.modPlane_jamb ..
      · rfl

theorem State.th_modPost {s : State} {t : Thread} {p : Post} (hp : (s.th t).posts = [p]) (g : Post → Post) :
    (s.modPost t p.seq g).th t = { s.th t with posts := [g p] } := by
  rw [State.modPost, State.th_modTh, hp, updFirst, if_pos (by simp)]

/-- The post as it stands when its writes are through: there are none without a mailbox. -/
def throughPost (s : State) (p : Post) : Post := { p with stage := 3, cycle := s.time.cycle, addr := none }

/-- A post without a mailbox and a journal is through at its start. -/
theorem State.postBegin_alone {s : State} {t : Thread} {p : Post} (hp : (s.th t).posts = [p])
    (hbox : s.hinge.mboxEn = false) (hj : s.journals p.ctx = false) :
    (s.postBegin t p).th t = { s.th t with posts := [throughPost s p] } ∧
    (s.postBegin t p).hinge = s.hinge ∧ (s.postBegin t p).jamb = s.jamb := by
  have addr : s.postAddr t p.seq = none := by simp [State.postAddr, hbox]
  generalize hq : ({ p with stage := 1, cycle := s.time.cycle, addr := none } : Post) = q
  have begun : (s.modPost t p.seq fun _ => q).th t = { s.th t with posts := [q] } := State.th_modPost hp _
  have quiet : (s.modPost t p.seq fun _ => q).journals q.ctx = false := by
    rw [← hj, ← hq]
    simp [State.journals, State.frameOf, State.modPost, State.plane_modTh]
  obtain ⟨th, hinge, jamb⟩ := State.journalClose_quiet (t := t) quiet
  have eq : s.postBegin t p = ((s.modPost t p.seq fun _ => q).journalClose t q).modPost t q.seq fun p => { p with stage := 3 } := by
    rw [State.postBegin, addr, hq]
    subst hq
    rfl
  rw [eq]
  refine ⟨?_, ?_, ?_⟩
  · rw [State.th_modPost (p := q) (by rw [th, begun]), th, begun, ← hq]
    rfl
  · rw [State.modPost, State.modTh_hinge, hinge, State.modPost, State.modTh_hinge]
  · rw [State.modPost, State.modTh_jamb, jamb, State.modPost, State.modTh_jamb]

/-- A post without entries, mailbox and journal completes at once. -/
theorem State.postsGo_alone {s : State} {t : Thread} {p : Post} (hp : (s.th t).posts = [p]) (hstage : p.stage = 0)
    (hwait : p.waiting = []) (hbox : s.hinge.mboxEn = false) (hj : s.journals p.ctx = false) (hpend : s.journalPending t = false) :
    (s.postsGo t).th t = { s.th t with posts := [], cmpl0 := postWord0 t p true p.memErr, cmpl1 := (postBody p).getD 0 0 } ∧
    (s.postsGo t).hinge = (s.irqSet (Thread.num t)).hinge := by
  obtain ⟨th, hinge, jamb⟩ := State.postBegin_alone hp hbox hj
  have idle : (s.postBegin t p).journalPending t = false := by rw [State.journalPending, jamb]; exact hpend
  have eq : s.postsGo t = (s.postBegin t p).postDone t (throughPost s p) := by
    simp [State.postsGo, State.postsBegin, hp, hstage, hwait, State.postsEnd, th, idle, throughPost]
  rw [eq, State.postDone, State.th_irqSet, State.th_modTh, th]
  refine ⟨rfl, ?_⟩
  rw [State.irqSet, State.modTh_hinge, hinge]
  rfl

/-- The post that an SADV opens (R339, R340). -/
def openedPost (s : State) (t : Thread) : Post :=
  { seq := nextSeq (s.th t).seq, step := (s.th t).stepno, ctx := (s.th t).ctx
    ctxid := match s.frameOf (s.th t).ctx with
      | some f => f.ctxid
      | none => 0
    lastIseq := (s.th t).iseq - 1, first := (s.th t).stepFirst, firstIseq := (s.th t).stepFirstIseq, nbad := (s.th t).stepNbad
    waiting := (s.eng.lanes.filter fun e => e.stream = t).map fun e => e.uid
    stage := 0, cycle := 0, memErr := false, addr := none
    digest := SMap.look (s.plane (s.th t).ctx).digestSum 0 (Thread.num t)
    entries := ((s.th t).iseq - 1 - (s.th t).lastIseq).toNat
    digs := SMap.look (s.plane (s.th t).ctx).stepDigests [] (Thread.num t) }

/-- The thread in its next step, with the post of the one that it has left. -/
def nextStep (s : State) (t : Thread) : ThreadState :=
  { s.th t with
    stepno := (s.th t).stepno + 1, wseq := 0, seq := nextSeq (s.th t).seq, lastIseq := (s.th t).iseq - 1, stepFirst := 0,
    stepFirstIseq := 0, stepNbad := 0, posts := (s.th t).posts ++ [openedPost s t] }

/-- The state in which the posts go on behind an SADV. -/
def stepState (s : State) (t : Thread) : State :=
  (s.modPlane (s.th t).ctx fun x => { x with
    digestSum := SMap.put x.digestSum 0 (Thread.num t) 0
    stepDigests := SMap.put x.stepDigests [] (Thread.num t) [] }).setTh t (nextStep s t)

theorem State.stepAdvance_eq (s : State) (t : Thread) : s.stepAdvance t = ((stepState s t).postsGo t).journalOpen t := by
  have th := (Beside.modPlane s (s.th t).ctx fun x => { x with
    digestSum := SMap.put x.digestSum 0 (Thread.num t) 0
    stepDigests := SMap.put x.stepDigests [] (Thread.num t) [] }).th t
  unfold State.stepAdvance
  dsimp only
  rw [State.modTh, th]
  rfl

theorem State.th_stepState (s : State) (t : Thread) : (stepState s t).th t = nextStep s t := by rw [stepState, State.th_setTh]

theorem State.frameOf_modPlane (s : State) (i j : Nat) {g : Plane → Plane} (hg : ∀ p, (g p).frame = p.frame) :
    (s.modPlane i g).frameOf j = s.frameOf j := by
  unfold State.frameOf State.plane State.modPlane
  split <;> split <;> simp [hg]

theorem State.journals_stepState (s : State) (t : Thread) (c : Nat) : (stepState s t).journals c = s.journals c := by
  have frame : (stepState s t).frameOf c = s.frameOf c := by
    rw [stepState, State.frameOf, State.plane_setTh]
    exact s.frameOf_modPlane _ _ fun _ => rfl
  rw [State.journals, State.journals, frame]
  simp [stepState]

/-- What `steps` of the statement says, of the state that an SADV is done in. -/
theorem State.th_stepAdvance (s : State) (t : Thread) :
    let y := (s.stepAdvance t).th t
    { y with posts := (nextStep s t).posts, cmpl0 := (s.th t).cmpl0, cmpl1 := (s.th t).cmpl1 } = nextStep s t ∧
    ((openedPost s t).waiting ≠ [] → (∀ p ∈ (s.th t).posts, p.stage ≠ 3 ∧ (p.stage = 0 → p.waiting ≠ [])) →
      y.posts = (s.th t).posts ++ [openedPost s t]) ∧
    ((openedPost s t).waiting = [] → (s.th t).posts = [] → s.hinge.mboxEn = false → s.journals (s.th t).ctx = false →
      s.journalPending t = false →
      y.posts = [] ∧ y.cmpl0 = postWord0 t (openedPost s t) true false ∧ y.cmpl1 = (postBody (openedPost s t)).getD 0 0 ∧
      (s.stepAdvance t).hinge.irqStat.getLsbD (Thread.num t) = true) := by
  rw [State.stepAdvance_eq]
  dsimp only
  rw [(Beside.journalOpen _ t).th]
  refine ⟨?_, fun waits earlier => ?_, fun none posts box quiet pend => ?_⟩
  · have only := PostsOnly.postsGo (stepState s t) t
    rwa [PostsOnly, State.th_stepState] at only
  · rw [State.postsGo_waiting, State.th_stepState]
    · rfl
    · rw [State.th_stepState]
      intro p hp
      rcases List.mem_append.mp hp with h | h
      · exact earlier p h
      · rw [List.mem_singleton.mp h]
        exact ⟨nofun, fun _ => waits⟩
  · have own : ((stepState s t).th t).posts = [openedPost s t] := by
      rw [State.th_stepState, nextStep, posts]
      rfl
    obtain ⟨th, hinge⟩ := State.postsGo_alone own rfl none (by simpa [stepState] using box)
      ((s.journals_stepState t _).trans quiet) (by simpa [State.journalPending, stepState] using pend)
    have irq := congrArg State.hinge (Beside.journalOpen ((stepState s t).postsGo t) t)
    dsimp only at irq
    rw [th, irq, hinge]
    refine ⟨rfl, rfl, rfl, ?_⟩
    cases t <;> simp [State.irqSet, Thread.num]

/-- From `s` to `s'` thread `t` has gone on to `pc`, and nothing else of it has changed but whether it runs, waits or stops. -/
structure WentOn (t : Thread) (pc : BitVec 48) (s s' : State) : Prop where
  own : { s'.th t with pc := (s.th t).pc, state := (s.th t).state, wait := (s.th t).wait, fetchLine := (s.th t).fetchLine,
                       stopAsked := (s.th t).stopAsked } = s.th t
  pcNow : (s'.th t).pc = pc
  hinge : s'.hinge = s.hinge

theorem WentOn.of_fetch {t : Thread} {pc : BitVec 48} {s z : State} (hz : WentOn t pc s z) : WentOn t pc s (z.fetchNext t) where
  own := by
    have own := congrArg (fun x : ThreadState => { x with pc := (s.th t).pc, state := (s.th t).state, wait := (s.th t).wait, fetchLine := (s.th t).fetchLine, stopAsked := (s.th t).stopAsked }) (z.fetchNext_fetched t).own
    exact own.trans hz.own
  pcNow := by rw [State.fetchNext_pc, hz.pcNow]
  hinge := by rw [State.fetchNext_hinge, hz.hinge]

theorem State.advance_wentOn (s : State) (t : Thread) (n : Nat) :
    WentOn t ((s.th t).pc + BitVec.ofNat 48 n) s (s.advance t n) := by
  refine .of_fetch ⟨?_, ?_, State.modTh_hinge ..⟩
  · rw [State.th_modTh]
  · rw [State.th_modTh]

theorem State.resume_wentOn (s : State) (t : Thread) (n : Nat) :
    WentOn t ((s.th t).pc + BitVec.ofNat 48 n) s (s.resume t n) := by
  refine .of_fetch ?_
  unfold State.wakeUp
  split
  · exact ⟨by simp [State.stopped], by simp [State.stopped], by simp⟩
  · exact ⟨by simp, by simp, by simp⟩

/-- An SADV has been done for thread `t`, from `s` to `s'` (R213, R339 to R341). -/
def Stepped (t : Thread) (s s' : State) : Prop :=
  (s'.th t).stepno = (s.th t).stepno + 1 ∧ (s'.th t).wseq = 0 ∧ (s'.th t).seq = nextSeq (s.th t).seq ∧
  (s'.th t).pc = (s.th t).pc + 4 ∧ (s'.th t).regs = (s.th t).regs ∧ (s'.th t).iseq = (s.th t).iseq ∧
  ((openedPost s t).waiting ≠ [] → (∀ p ∈ (s.th t).posts, p.stage ≠ 3 ∧ (p.stage = 0 → p.waiting ≠ [])) →
    (s'.th t).posts = (s.th t).posts ++ [openedPost s t]) ∧
  ((openedPost s t).waiting = [] → (s.th t).posts = [] → s.hinge.mboxEn = false → s.journals (s.th t).ctx = false →
    s.journalPending t = false →
    (s'.th t).posts = [] ∧ s'.hinge.irqStat.getLsbD (Thread.num t) = true ∧
      (s'.th t).cmpl0 = postWord0 t (openedPost s t) true false ∧ (s'.th t).cmpl1 = (postBody (openedPost s t)).getD 0 0)

theorem Stepped.of_wentOn {t : Thread} {s s' : State} (h : WentOn t (((s.stepAdvance t).th t).pc + 4) (s.stepAdvance t) s') :
    Stepped t s s' := by
  obtain ⟨next, waits, alone⟩ := s.th_stepAdvance t
  have pc := congrArg ThreadState.pc next
  have posts := congrArg ThreadState.posts h.own
  have cmpl0 := congrArg ThreadState.cmpl0 h.own
  have cmpl1 := congrArg ThreadState.cmpl1 h.own
  have own := (congrArg (fun x : ThreadState => { x with
    posts := (nextStep s t).posts, cmpl0 := (s.th t).cmpl0, cmpl1 := (s.th t).cmpl1 }) h.own).trans next
  have stepno := congrArg ThreadState.stepno own
  have wseq := congrArg ThreadState.wseq own
  have seq := congrArg ThreadState.seq own
  have regs := congrArg ThreadState.regs own
  have iseq := congrArg ThreadState.iseq own
  refine ⟨stepno, wseq, seq, ?_, regs, iseq, fun hw he => posts.trans (waits hw he), fun hw hp hb hj hj' => ?_⟩
  · rw [h.pcNow]
    exact congrArg (· + 4) pc
  · obtain ⟨none, word0, word1, irq⟩ := alone hw hp hb hj hj'
    exact ⟨posts.trans none, by rw [h.hinge]; exact irq, cmpl0.trans word0, cmpl1.trans word1⟩

/-- The two words of the mirror (R340, R341). -/
theorem postWord0_opened (s : State) (t : Thread) : postWord0 t (openedPost s t) true false =
    BitVec.ofNat 64 (1 + 4 * Thread.num t + 16 * (s.th t).ctx + 2 ^ 8 * (s.th t).stepFirst + 2 ^ 16 * (s.th t).stepNbad +
      2 ^ 32 * (nextSeq (s.th t).seq).toNat) := by
  simp only [postWord0, w64, openedPost, b2n, Nat.shiftLeft_eq]
  congr 1
  simp only [if_true, Bool.false_eq_true, if_false]
  ring

theorem postBody_opened (s : State) (t : Thread) : (postBody (openedPost s t)).getD 0 0 =
    BitVec.ofNat 64 ((s.th t).stepno.toNat + 2 ^ 32 * (openedPost s t).ctxid.toNat) := by
  simp [postBody, w64, openedPost, Nat.shiftLeft_eq, Nat.mul_comm]

/-- Settles O23. -/
theorem stepAdvance : Obligations.StepAdvance := by
  intro s t rd ra n hc x seq entries ctxid steps
  have stated {s' : State} (h : Stepped t s s') : steps s' := by
    obtain ⟨stepno, wseq, seq, pc, regs, iseq, waits, alone⟩ := h
    refine ⟨stepno, wseq, seq, pc, regs, iseq, fun hw he => ⟨openedPost s t, waits hw he, ?_⟩, fun hw hp hb hj hj' => ?_⟩
    · exact ⟨rfl, rfl, rfl, rfl, rfl, rfl, rfl, rfl, rfl, rfl⟩
    · obtain ⟨none, irq, word0, word1⟩ := alone hw hp hb hj hj'
      exact ⟨none, irq, word0.trans (postWord0_opened s t), word1.trans (postBody_opened s t)⟩
  refine ⟨fun hr go room => ?_, fun hr go full => ?_, fun hq hw room => ?_⟩
  · refine .of_ifRun hc hr rfl (s' := ((s.issuedBy t).stepAdvance t).advance t 4) ?_ (stated ?_)
    · exact (if_neg (Bool.not_eq_true _ ▸ go)).trans (if_neg (Nat.not_le.mpr room))
    · exact Stepped.of_wentOn (s := s.issuedBy t) (State.advance_wentOn ..)
  · refine .of_ifRun hc hr rfl (s' := (s.issuedBy t).setTh t { s.th t with state := .queue, wait := .post, timer := 0 }) ?_ rfl
    refine (if_neg (Bool.not_eq_true _ ▸ go)).trans ((if_pos full).trans ?_)
    rw [State.waitIn, State.modTh, State.th_issued]
  · refine ⟨_, congrArg Host.Outcome.next (if_pos (by simp [hq, hw, room])), stated ?_⟩
    exact Stepped.of_wentOn (State.resume_wentOn ..)

end Sys2Proof.Machine
end

/-! PROOFS. What happens ahead of a latch event does not depend on the thread that issued last, and leaves no check to a
disturbance (spec/11 R252, spec/16 R401). -/

section
namespace Sys2Proof.Machine

section
variable (s : State) (t : Thread)

theorem State.issued_excPush (i : ExcInfo) : (s.issuedBy t).excPush i = (s.excPush i).issuedBy t := by
  unfold State.excPush
  dsimp only
  rw [apply_ite (State.issuedBy · t), apply_ite (State.issuedBy · t)]
  rfl

theorem State.issued_integrity (i : EventInfo) : (s.issuedBy t).integrity i = (s.integrity i).issuedBy t := by
  unfold State.integrity
  dsimp only
  rw [apply_ite (State.issuedBy · t), ← State.issued_excPush]
  cases i.detail <;> rfl

theorem State.issued_modTh (u : Thread) (g : ThreadState → ThreadState) :
    (s.issuedBy t).modTh u g = (s.modTh u g).issuedBy t := by cases u <;> rfl

theorem State.issued_stopAtBoundary (u : Thread) : (s.issuedBy t).stopAtBoundary u = (s.stopAtBoundary u).issuedBy t := by
  rw [State.stopAtBoundary_eq, State.stopAtBoundary_eq, State.issued_modTh]

theorem State.issued_wakeAsk : (s.issuedBy t).wakeAsk = s.wakeAsk.issuedBy t := by
  unfold State.wakeAsk
  rw [apply_ite (State.issuedBy · t)]
  rfl

theorem State.issued_modPlane (c : Nat) (g : Plane → Plane) : (s.issuedBy t).modPlane c g = (s.modPlane c g).issuedBy t := by
  unfold State.modPlane
  rw [apply_ite (State.issuedBy · t)]
  rfl

theorem State.issued_latchEvent (bank k : Nat) (src : SigSrc) :
    (s.issuedBy t).latchEvent bank k src = (s.latchEvent bank k src).issuedBy t := by
  have frame : (s.issuedBy t).frameOf bank = s.frameOf bank := rfl
  unfold State.latchEvent
  rw [frame]
  split
  · rw [apply_ite (State.issuedBy · t), State.issued_modPlane]
  · rfl

/-- What the latch unit notes of an overflow (R255). -/
def noteOverflow (s : State) (bank k : Nat) (src : SigSrc) : State :=
  { s with latch := { s.latch with
    fLatch := BitVec.ofNat 6 k, fBank := decide (bank = 1), fSource := BitVec.ofNat 3 src.kind,
    fCount := satInc 16 s.latch.fCount, fPend := true } }

/-- The record of an overflow (R255). -/
def overflowInfo (bank k : Nat) (src : SigSrc) : ExcInfo :=
  { cause := 0x12, thread := if decide (src.kind ≤ 2) then Thread.num src.thread else 0, ctx := bank, status := 0,
    queue := 0, bel := !decide (src.kind ≤ 2), pc := if src.kind = 2 then src.pc else 0,
    info := w64 (k % 64 + ((bank % 2) <<< 6) + ((src.kind % 8) <<< 7) +
      (if src.kind ≤ 1 then (src.queue % 16) <<< 10 else 0)) }

/-- A thread of the bank's context stops under LATCHPOL 2 (R255). -/
def stopIn (bank : Nat) (s : State) (u : Thread) : State :=
  if (s.th u).ctx = bank && decide ((s.th u).state ≠ .idle) then s.stopAtBoundary u else s

/-- The action of LATCHPOL (R255). -/
def overflowPolicy (s : State) (bank : Nat) (src : SigSrc) : State :=
  match s.frame.fault.latchPol with
  | 1 => if decide (src.kind ≤ 2) then s.stopAtBoundary src.thread else s
  | 2 => (stopIn bank (stopIn bank (stopIn bank s .F) .B) .U).integrity { eventOf mechLatchPol 3 with ctx := bank }
  | _ => s

theorem State.latchOverflow_eq (bank k : Nat) (src : SigSrc) :
    s.latchOverflow bank k src = overflowPolicy ((noteOverflow s bank k src).excPush (overflowInfo bank k src)) bank src := rfl

theorem issued_stopIn (bank : Nat) (u : Thread) : stopIn bank (s.issuedBy t) u = (stopIn bank s u).issuedBy t := by
  unfold stopIn
  rw [apply_ite (State.issuedBy · t), State.issued_stopAtBoundary, State.th_issued]

theorem issued_overflowPolicy (bank : Nat) (src : SigSrc) :
    overflowPolicy (s.issuedBy t) bank src = (overflowPolicy s bank src).issuedBy t := by
  have pol : (s.issuedBy t).frame.fault.latchPol = s.frame.fault.latchPol := rfl
  unfold overflowPolicy
  rw [pol]
  split
  · rw [apply_ite (State.issuedBy · t), State.issued_stopAtBoundary]
  · rw [issued_stopIn, issued_stopIn, issued_stopIn, State.issued_integrity]
  · rfl

theorem State.issued_latchOverflow (bank k : Nat) (src : SigSrc) :
    (s.issuedBy t).latchOverflow bank k src = (s.latchOverflow bank k src).issuedBy t := by
  have note : noteOverflow (s.issuedBy t) bank k src = (noteOverflow s bank k src).issuedBy t := rfl
  rw [State.latchOverflow_eq, State.latchOverflow_eq, note, State.issued_excPush, issued_overflowPolicy]

theorem State.issued_controlParity (d : BitVec 16) : (s.issuedBy t).controlParity d = (s.controlParity d).issuedBy t := by
  unfold State.controlParity
  have stop (z : State) : ({ z.issuedBy t with int := { (z.issuedBy t).int with qstop := 0x7FF } } : State) =
    State.issuedBy { z with int := { z.int with qstop := 0x7FF } } t := rfl
  dsimp only
  rw [State.issued_stopAtBoundary, State.issued_stopAtBoundary, State.issued_stopAtBoundary, stop, State.issued_integrity]

theorem State.issued_parityCheck (k : Site) : (s.issuedBy t).parityCheck k = (s.parityCheck k).issuedBy t := by
  have upset : (s.issuedBy t).upsetAt k = s.upsetAt k := rfl
  have struck : (s.issuedBy t).struck k = (s.struck k).issuedBy t := rfl
  unfold State.parityCheck
  rw [upset]
  split
  · rfl
  · rfl
  · rw [struck, State.issued_controlParity]

theorem State.issued_latchSignal (bank k : Nat) (src : SigSrc) :
    (s.issuedBy t).latchSignal bank k src = (s.latchSignal bank k src).issuedBy t := by
  have count : (s.wakeAsk.issuedBy t).latchCount bank k = s.wakeAsk.latchCount bank k := rfl
  have set (v : BitVec 8) : (s.wakeAsk.issuedBy t).setLatch bank k v = (s.wakeAsk.setLatch bank k v).issuedBy t := rfl
  unfold State.latchSignal
  dsimp only
  rw [State.issued_wakeAsk, count, set, State.issued_latchEvent, State.issued_latchOverflow, ← apply_ite (State.issuedBy · t),
    State.issued_parityCheck]

theorem State.issued_goCleared (b : GoBit) : (s.issuedBy t).goCleared b = (s.goCleared b).issuedBy t := by
  have erred : (s.issuedBy t).time.now.erred = s.time.now.erred := rfl
  unfold State.goCleared
  rw [erred]
  split
  · cases b <;> rfl
  · rfl

theorem State.issued_rplPost (r : Replay) : (s.issuedBy t).rplPost r = (s.rplPost r).issuedBy t := by
  unfold State.rplPost
  dsimp only
  rw [apply_ite (State.issuedBy · t)]
  have clears := State.issued_goCleared { s with rpl := r } t .replay
  exact congrArg (ite _ · _) clears

theorem State.issued_rplReport : (s.issuedBy t).rplReport = s.rplReport.issuedBy t := by
  have first : (s.issuedBy t).firstDivergence = s.firstDivergence := rfl
  have rpl : (s.issuedBy t).rpl = s.rpl := rfl
  unfold State.rplReport
  dsimp only
  rw [first, rpl]
  split
  · exact State.issued_rplPost ..
  · split
    · exact State.issued_rplPost ..
    · rfl

theorem State.issued_rplCompare (c count : Nat) (w : Word) : (s.issuedBy t).rplCompare c count w = (s.rplCompare c count w).issuedBy t := by
  unfold State.rplCompare
  dsimp only
  rw [apply_ite (State.issuedBy · t), ← State.issued_rplReport]
  rfl

theorem State.issued_rplLatch (c count : Nat) (w : Word) :
    (s.issuedBy t).rplLatch c count w = (s.rplLatch c count w).map (State.issuedBy · t) := by
  have plane (z : State) : (z.issuedBy t).plane = z.plane := rfl
  have rpl (z : State) : (z.issuedBy t).rpl = z.rpl := rfl
  have skip (z : State) : (z.issuedBy t).rplSkip = z.rplSkip.issuedBy t := rfl
  unfold State.rplLatch
  dsimp only
  simp only [State.issued_latchSignal, plane, rpl, skip, State.issued_rplCompare]
  split
  · split <;> rfl
  · split <;> rfl

end

theorem State.issued_rplSignals (t : Thread) (c : Nat) (items : List RItem) (n : Nat) (s : State) :
    (s.issuedBy t).rplSignals c items n = (s.rplSignals c items n).issuedBy t := by
  induction n generalizing s with
  | zero => rfl
  | succ n ih =>
    have pos : (s.issuedBy t).rpl.inputPos = s.rpl.inputPos := rfl
    rw [State.rplSignals, State.rplSignals, pos]
    split
    · rw [State.issued_rplLatch]
      cases s.rplLatch c _ _ with
      | none => rfl
      | some z => exact ih z
    · rfl

theorem State.issued_signalsAhead (s : State) (t : Thread) : (s.issuedBy t).signalsAhead = s.signalsAhead.issuedBy t := by
  have rpl : (s.issuedBy t).rpl = s.rpl := rfl
  have items : (s.issuedBy t).rplItems = s.rplItems := rfl
  unfold State.signalsAhead
  rw [rpl, items]
  split
  · exact State.issued_rplSignals ..
  · rfl

/-! No disturbance waits for a check behind any of these either. -/

theorem State.parityCheck_calm {s : State} (h : s.calm) (k : Site) : s.parityCheck k = s := by
  rw [State.parityCheck, State.upsetAt_calm h]

theorem State.strikes_integrity (s : State) (i : EventInfo) : (s.integrity i).int.strikes = s.int.strikes :=
  have same := congrArg Integrity.strikes (OnlyLogs.of_integrity s i).int
  same

theorem State.strikes_latchEvent (s : State) (bank k : Nat) (src : SigSrc) :
    (s.latchEvent bank k src).int.strikes = s.int.strikes := by
  unfold State.latchEvent
  split
  · split
    · rw [State.modPlane_int]
    · rfl
  · rfl

theorem strikes_stopIn (bank : Nat) (s : State) (u : Thread) : (stopIn bank s u).int.strikes = s.int.strikes := by
  unfold stopIn
  split
  · rw [State.stopAtBoundary_int]
  · rfl

theorem State.strikes_latchOverflow (s : State) (bank k : Nat) (src : SigSrc) :
    (s.latchOverflow bank k src).int.strikes = s.int.strikes := by
  rw [State.latchOverflow_eq]
  unfold overflowPolicy
  split
  · split
    · rw [State.stopAtBoundary_int, State.excPush_int]
      rfl
    · rw [State.excPush_int]
      rfl
  · rw [State.strikes_integrity, strikes_stopIn, strikes_stopIn, strikes_stopIn, State.excPush_int]
    rfl
  · rw [State.excPush_int]
    rfl

theorem State.latchSignal_calm {s : State} (h : s.calm) (bank k : Nat) (src : SigSrc) : (s.latchSignal bank k src).calm := by
  have woken : s.wakeAsk.calm := by
    rw [State.calm, State.wakeAsk_int]
    exact h
  have signalled : State.calm (if s.wakeAsk.latchCount bank k = 255 then s.wakeAsk.latchOverflow bank k src
      else (s.wakeAsk.setLatch bank k (s.wakeAsk.latchCount bank k + 1)).latchEvent bank k src) := by
    split
    · exact (State.strikes_latchOverflow ..).trans woken
    · exact (State.strikes_latchEvent ..).trans woken
  rw [State.latchSignal, State.parityCheck_calm signalled]
  exact signalled

theorem State.int_rplReport (s : State) : s.rplReport.int = s.int := by
  have cleared (z : State) : (z.goCleared .replay).int = z.int := by
    unfold State.goCleared
    split <;> rfl
  have posted (r : Replay) : (s.rplPost r).int = s.int := by
    unfold State.rplPost
    dsimp only
    split
    · exact cleared _
    · rfl
  unfold State.rplReport
  dsimp only
  split
  · exact posted _
  · split
    · exact posted _
    · rfl

theorem State.int_rplCompare (s : State) (c count : Nat) (w : Word) : (s.rplCompare c count w).int = s.int := by
  unfold State.rplCompare
  dsimp only
  split
  · rfl
  · exact State.int_rplReport _

theorem State.rplLatch_calm {s z : State} (h : s.calm) {c count : Nat} {w : Word} (hz : s.rplLatch c count w = some z) : z.calm := by
  unfold State.rplLatch at hz
  dsimp only at hz
  split at hz
  · have signalled := State.latchSignal_calm h c (bitsN w.toNat 0 6)
      { kind := 3, thread := .F, queue := 0, pc := 0, iseq := 0, link := bitsN w.toNat 12 3 }
    cases hz
    split
    · exact signalled
    · rw [State.calm, State.int_rplCompare]
      exact signalled
  · split at hz
    · cases hz
    · cases hz
      rw [State.calm, State.int_rplCompare]
      exact h

theorem State.rplSignals_calm (c : Nat) (items : List RItem) (n : Nat) {s : State} (h : s.calm) : (s.rplSignals c items n).calm := by
  induction n generalizing s with
  | zero => exact h
  | succ n ih =>
    unfold State.rplSignals
    split
    · split
      · next hz => exact ih (State.rplLatch_calm h hz)
      · exact h
    · exact h

theorem State.signalsAhead_calm {s : State} (h : s.calm) : s.signalsAhead.calm := by
  unfold State.signalsAhead
  split
  · exact State.rplSignals_calm _ _ _ h
  · exact h

theorem State.fetchAt_calm {s : State} (h : s.calm) (t : Thread) (line : Nat) : (s.fetchAt t line).calm := by
  unfold State.fetchAt
  rw [State.upsetAt_calm h]
  split
  · exact h
  · split
    · exact h
    · rw [State.calm, State.fetchAsk_int]
      exact h

theorem State.fetchNext_calm {s : State} (h : s.calm) (t : Thread) : (s.fetchNext t).calm := State.fetchAt_calm h t _

end Sys2Proof.Machine
end

/-! PROOFS. The latch instructions and the overflow of a latch (spec/09 R221, spec/11 R250 to R255). -/

section
namespace Sys2Proof.Machine

theorem Beside.latchEvent (s : State) (bank k : Nat) (src : SigSrc) : Beside s (s.latchEvent bank k src) := by
  unfold State.latchEvent
  split
  · exact .ite (.modPlane ..) (.refl s)
  · exact .refl s

theorem State.latchEvent_latch (s : State) (bank k : Nat) (src : SigSrc) : (s.latchEvent bank k src).latch = s.latch := by
  unfold State.latchEvent
  split
  · split
    · rw [State.modPlane_latch]
    · rfl
  · rfl

theorem State.latchCount_setLatch (s : State) {c k b j : Nat} (hk : k < 48) (hj : j < 48) (v : BitVec 8) :
    (s.setLatch c k v).latchCount b j = if b = c ∧ j = k then v else s.latchCount b j := by
  have same : 48 * b + j = 48 * c + k ↔ b = c ∧ j = k := by omega
  simp [State.latchCount, State.setLatch, SMap.look_put, same]

theorem State.th_wakeAsk (s : State) (u : Thread) : s.wakeAsk.th u = s.th u := by
  unfold State.wakeAsk
  split <;> rfl

theorem State.latchCount_congr {s s' : State} (h : s'.latch = s.latch) (b j : Nat) : s'.latchCount b j = s.latchCount b j := by
  rw [State.latchCount, h]
  rfl

/-- A signal to a latch that is not full adds 1 and changes no thread (R252). -/
theorem State.latchSignal_counts {s : State} (h : s.calm) {c k : Nat} (hn : s.latchCount c k ≠ 255) (src : SigSrc) :
    (s.latchSignal c k src).latch = (s.setLatch c k (s.latchCount c k + 1)).latch ∧
    ∀ u, (s.latchSignal c k src).th u = s.th u := by
  have count : s.wakeAsk.latchCount c k = s.latchCount c k := State.latchCount_congr (State.wakeAsk_latch s) c k
  have woken : s.wakeAsk.calm := by rw [State.calm, State.wakeAsk_int]; exact h
  have eq : s.latchSignal c k src = (s.wakeAsk.setLatch c k (s.latchCount c k + 1)).latchEvent c k src := by
    unfold State.latchSignal
    dsimp only
    rw [count, if_neg hn, State.parityCheck_calm]
    exact (State.strikes_latchEvent ..).trans woken
  rw [eq]
  refine ⟨?_, fun u => ?_⟩
  · rw [State.latchEvent_latch, State.setLatch, State.setLatch, State.wakeAsk_latch]
  · rw [(Beside.latchEvent ..).th]
    exact s.th_wakeAsk u

/-- A consumption takes 1 and changes no thread. -/
theorem State.latchConsume_counts (s : State) (c k : Nat) (src : SigSrc) :
    (s.latchConsume c k src).latch = (s.setLatch c k (s.latchCount c k - 1)).latch ∧
    (∀ u, (s.latchConsume c k src).th u = s.th u) ∧ (s.latchConsume c k src).int.strikes = s.int.strikes :=
  ⟨State.latchEvent_latch .., fun u => (Beside.latchEvent ..).th u, State.strikes_latchEvent ..⟩

theorem State.latchCount_issued (s : State) (t : Thread) (c k : Nat) : (s.issuedBy t).latchCount c k = s.latchCount c k := rfl

/-- The state behind a consumption by an instruction of thread `t`. -/
def consumed (r : State) (t : Thread) (k : Nat) : State :=
  (r.issuedBy t).latchConsume (r.th t).ctx k ((r.issuedBy t).instrSrc t 5)

theorem consumed_counts {r : State} (calm : r.calm) (t : Thread) (k : Nat) :
    (consumed r t k).latch = (r.setLatch (r.th t).ctx k (r.latchCount (r.th t).ctx k - 1)).latch ∧
    (∀ u, (consumed r t k).th u = r.th u) ∧ (consumed r t k).calm := by
  obtain ⟨latch, th, strikes⟩ := (r.issuedBy t).latchConsume_counts (r.th t).ctx k ((r.issuedBy t).instrSrc t 5)
  exact ⟨latch, fun u => (th u).trans (r.th_issued t u), strikes.trans calm⟩

/-- Of the latches only latch `k` of bank `c` has changed, to `v`. -/
def CountOnly (c k : Nat) (v : BitVec 8) (s s' : State) : Prop :=
  ∀ b j, b < 2 → j < 48 → s'.latchCount b j = if b = c ∧ j = k then v else s.latchCount b j

theorem CountOnly.of_latch {c k : Nat} {v : BitVec 8} {s s' : State} (hk : k < 48) (h : s'.latch = (s.setLatch c k v).latch) :
    CountOnly c k v s s' := fun b j _ hj =>
  (State.latchCount_congr h b j).trans (State.latchCount_setLatch s hk hj v)

section
variable {s : State} {t : Thread} {c : Instr} {k : BitVec 6} {g : State → State}
variable (hc : s.calm) (hr : (s.th t).state = .run) (hk : k.toNat < 48) (hx : exec c s = .next (s.latchFn t k (decide ((0 : BitVec 6) ≠ 0)) g))
include hc hr hk hx

/-- A latch instruction on a latch that there is acts. -/
theorem Completes.latchFn {s' : State} {P : State → Prop} (hg : g (s.issuedBy t) = s') (hp : P s') : Completes c s P :=
  .of_ifRun hc hr hx ((if_neg (by simpa using hk)).trans hg) hp

end

section
variable {s : State} {t : Thread} {k : BitVec 6} (hc : s.calm) (hr : (s.th t).state = .run) (hk : k.toNat < 48)
include hc hr hk

theorem Completes.lsig (rd ra : Reg) {u : Upset} (hu : ∀ d, u ≠ .fatal d)
    (hn : s.signalsAhead.latchCount (s.signalsAhead.th t).ctx k.toNat ≠ 255) :
    Completes (.lsig t rd ra k 0 u) s fun s' =>
      CountOnly (s.signalsAhead.th t).ctx k.toNat (s.signalsAhead.latchCount (s.signalsAhead.th t).ctx k.toNat + 1) s.signalsAhead s' ∧
      (s'.th t).pc = (s.signalsAhead.th t).pc + 4 ∧ ∀ x, s'.reg t x = s.signalsAhead.reg t x := by
  generalize hr' : s.signalsAhead = r at hn ⊢
  have calm : r.calm := hr' ▸ State.signalsAhead_calm hc
  have ahead : (s.issuedBy t).signalsAhead = r.issuedBy t := by rw [State.issued_signalsAhead, hr']
  generalize hsrc : (r.issuedBy t).instrSrc t 2 = src
  obtain ⟨latch, th⟩ := State.latchSignal_counts (s := r.issuedBy t) (c := (r.th t).ctx) (k := k.toNat) calm hn src
  have goes : (s.issuedBy t).lsigGo t k.toNat = ((r.issuedBy t).latchSignal (r.th t).ctx k.toNat src).advance t 4 := by
    unfold State.lsigGo
    rw [ahead]
    dsimp only
    have notFull : decide ((r.issuedBy t).latchCount (r.th t).ctx k.toNat = 255) = false := decide_eq_false hn
    rw [State.th_issued, hsrc, notFull]
    rfl
  refine .latchFn hc hr hk rfl (s' := ((r.issuedBy t).latchSignal (r.th t).ctx k.toNat src).advance t 4) ?_ ⟨?_, ?_, fun x => ?_⟩
  · rw [← goes]
    cases u with
    | fatal d => exact absurd rfl (hu d)
    | clean => rfl
    | corrected => rfl
  · refine .of_latch hk ?_
    rw [State.advance_latch, latch]
    rfl
  · rw [State.advance, State.goto_pc, th, State.th_issued]
    rfl
  · rw [State.advance, State.goto_reg, State.reg_congr (s := r) (by rw [th, State.th_issued])]

theorem Completes.lwait_takes (rd ra : Reg) (hn : s.signalsAhead.latchCount (s.signalsAhead.th t).ctx k.toNat ≠ 0) :
    Completes (.lwait t rd ra k 0) s fun s' =>
      CountOnly (s.signalsAhead.th t).ctx k.toNat (s.signalsAhead.latchCount (s.signalsAhead.th t).ctx k.toNat - 1) s.signalsAhead s' ∧
      (s'.th t).pc = (s.signalsAhead.th t).pc + 4 ∧ ∀ x, s'.reg t x = s.signalsAhead.reg t x := by
  generalize hr' : s.signalsAhead = r at hn ⊢
  have calm : r.calm := hr' ▸ State.signalsAhead_calm hc
  have ahead : (s.issuedBy t).signalsAhead = r.issuedBy t := by rw [State.issued_signalsAhead, hr']
  obtain ⟨latch, th, taken⟩ := consumed_counts calm t k.toNat
  refine .latchFn hc hr hk rfl (s' := (consumed r t k.toNat).advance t 4) ?_ ⟨?_, ?_, fun x => ?_⟩
  · dsimp only
    rw [ahead, State.th_issued, State.latchCount_issued, if_neg hn, State.parityCheck_calm]
    · rfl
    · refine State.fetchNext_calm ?_ t
      rw [State.calm, State.modTh_int]
      exact taken
  · refine .of_latch hk ?_
    rw [State.advance_latch, latch]
  · rw [State.advance, State.goto_pc, th]
    rfl
  · rw [State.advance, State.goto_reg, State.reg_congr (s := r) (by rw [th])]

theorem Completes.ltry_takes (rd ra : Reg) (hn : s.signalsAhead.latchCount (s.signalsAhead.th t).ctx k.toNat ≠ 0) :
    Completes (.ltry t rd ra k 0) s fun s' =>
      CountOnly (s.signalsAhead.th t).ctx k.toNat (s.signalsAhead.latchCount (s.signalsAhead.th t).ctx k.toNat - 1) s.signalsAhead s' ∧
      (s'.th t).pc = (s.signalsAhead.th t).pc + 4 ∧ ∀ x, s'.reg t x = if x = rd ∧ rd ≠ 0 then 1 else s.signalsAhead.reg t x := by
  generalize hr' : s.signalsAhead = r at hn ⊢
  have calm : r.calm := hr' ▸ State.signalsAhead_calm hc
  have ahead : (s.issuedBy t).signalsAhead = r.issuedBy t := by rw [State.issued_signalsAhead, hr']
  obtain ⟨latch, th, taken⟩ := consumed_counts calm t k.toNat
  refine .latchFn hc hr hk rfl (s' := ((consumed r t k.toNat).setReg t rd 1).advance t 4) ?_ ⟨?_, ?_, fun x => ?_⟩
  · dsimp only
    rw [ahead, State.th_issued, State.latchCount_issued, if_neg hn, State.parityCheck_calm]
    · rfl
    · refine State.fetchNext_calm ?_ t
      rw [State.calm, State.modTh_int, State.setReg_int]
      exact taken
  · refine .of_latch hk ?_
    rw [State.advance_latch, State.setReg_latch, latch]
  · rw [State.advance, State.goto_pc, State.setReg_pc, th]
    rfl
  · rw [State.advance, State.goto_reg, State.reg_setReg, State.reg_congr (s := r) (by rw [th])]

theorem Completes.lwait_waits (rd ra : Reg) (hn : s.signalsAhead.latchCount (s.signalsAhead.th t).ctx k.toNat = 0) :
    Completes (.lwait t rd ra k 0) s (WaitsIn t .latch (.latch k.toNat) s.signalsAhead) := by
  generalize hr' : s.signalsAhead = r at hn ⊢
  have calm : r.calm := hr' ▸ State.signalsAhead_calm hc
  have ahead : (s.issuedBy t).signalsAhead = r.issuedBy t := by rw [State.issued_signalsAhead, hr']
  refine .latchFn hc hr hk rfl (s' := (r.issuedBy t).waitIn t .latch (.latch k.toNat)) ?_ ?_
  · dsimp only
    rw [ahead, State.th_issued, State.latchCount_issued, if_pos hn, State.parityCheck_calm]
    rw [State.calm, State.waitIn_int]
    exact calm
  · rw [WaitsIn, State.waitIn, State.modTh, State.th_issued]

theorem Completes.ltry_fails (rd ra : Reg) (hn : s.signalsAhead.latchCount (s.signalsAhead.th t).ctx k.toNat = 0)
    (hrun : (s.signalsAhead.th t).state = .run) :
    Completes (.ltry t rd ra k 0) s (WritesRd t rd 0 ((s.signalsAhead.th t).pc + 4) s.signalsAhead) := by
  generalize hr' : s.signalsAhead = r at hn hrun ⊢
  have calm : r.calm := hr' ▸ State.signalsAhead_calm hc
  have ahead : (s.issuedBy t).signalsAhead = r.issuedBy t := by rw [State.issued_signalsAhead, hr']
  refine .latchFn hc hr hk rfl (s' := (r.issuedBy t).writeRd t rd 0) ?_ (.of_writeRd calm hrun rd 0)
  dsimp only
  rw [ahead, State.th_issued, State.latchCount_issued, if_pos hn, State.parityCheck_calm]
  · rfl
  · refine State.fetchNext_calm ?_ t
    rw [State.calm, State.modTh_int, State.setReg_int]
    exact calm

theorem Completes.lread (rd ra : Reg) : Completes (.lread t rd ra k 0) s
    (WritesRd t rd ((s.latchCount (s.th t).ctx k.toNat).zeroExtend 64) ((s.th t).pc + 4) s) := by
  refine .latchFn hc hr hk rfl ?_ (.of_writeRd hc hr rd _)
  rw [State.th_issued, State.parityCheck_calm]
  · rfl
  · refine State.fetchNext_calm ?_ t
    rw [State.calm, State.modTh_int, State.setReg_int]
    exact hc

end

theorem State.fetchNext_halted {s : State} {t : Thread} (h : (s.th t).state ≠ .run) : s.fetchNext t = s := by
  simp [State.fetchNext, State.fetchAt, State.isRun, h]

theorem State.resume_resumes (s : State) (t : Thread) : Resumes t s (s.resume t 4) := by
  unfold State.resume State.wakeUp
  dsimp only
  rw [State.th_modTh]
  by_cases asked : (s.th t).stopAsked = true
  · rw [if_pos asked, State.fetchNext_halted (by simp [State.stopped])]
    exact ⟨by simp [State.stopped], by simp [State.stopped, asked], fun u hu => by simp [State.stopped, State.th_modTh_ne, hu]⟩
  · rw [if_neg asked]
    exact ⟨by simp, by rw [if_neg asked]; exact State.fetchNext_runs (by simp), fun u hu => by simp [State.th_modTh_ne, hu]⟩

theorem Resumes.congr {t : Thread} {s z s' : State} (th : ∀ u, z.th u = s.th u) (h : Resumes t z s') : Resumes t s s' where
  pcNow := by rw [h.pcNow, th]
  state := by
    have := h.state
    rwa [th] at this
  threads u hu := by rw [h.threads u hu, th]

/-- A thread that waits for a latch resumes with its count (R254). -/
theorem Completes.latchWaitReady {s : State} {t : Thread} {k : BitVec 6} (hc : s.calm) (hk : k.toNat < 48)
    (clk : s.signalsAhead.clk.aclkOn = true) (hs : (s.signalsAhead.th t).state = .latch)
    (hw : (s.signalsAhead.th t).wait = .latch k.toNat)
    (hn : s.signalsAhead.latchCount (s.signalsAhead.th t).ctx k.toNat ≠ 0) (first : s.signalsAhead.firstWaiter t = true) :
    Completes (.latchWaitReady t) s fun s' =>
      CountOnly (s.signalsAhead.th t).ctx k.toNat (s.signalsAhead.latchCount (s.signalsAhead.th t).ctx k.toNat - 1) s.signalsAhead s' ∧
      Resumes t s.signalsAhead s' := by
  generalize hr' : s.signalsAhead = r at *
  have calm : r.calm := hr' ▸ State.signalsAhead_calm hc
  obtain ⟨latch, th, taken⟩ := consumed_counts calm t k.toNat
  refine ⟨(consumed r t k.toNat).resume t 4, ?_, .of_latch hk ?_, ?_⟩
  · have ready : r.latchReady t = true := by simpa [State.latchReady, hw, hs] using hn
    refine congrArg Host.Outcome.next ?_
    rw [hr', hw]
    dsimp only
    rw [if_pos (by simp [clk, ready, first]), State.parityCheck_calm]
    · rfl
    · refine State.fetchNext_calm ?_ t
      rw [State.calm, State.wakeUp_int, State.modTh_int]
      exact taken
  · rw [State.resume_latch, latch]
  · exact .congr (fun u => th u) (State.resume_resumes _ t)

theorem State.signalsAhead_idle {s : State} (h : s.rpl.active = false) : s.signalsAhead = s := by
  rw [State.signalsAhead, h]

theorem latchInstructions : LatchInstructions := by
  intro s t rd ra k u hk hc
  exact ⟨State.signalsAhead_idle, fun hr _ hu hn => .lsig hc hr hk rd ra hu hn,
    fun hr _ hn => ⟨.lwait_takes hc hr hk rd ra hn, .ltry_takes hc hr hk rd ra hn⟩,
    fun hr hn => ⟨.lwait_waits hc hr hk rd ra hn, fun hrun => .ltry_fails hc hr hk rd ra hn hrun⟩,
    fun hr => .lread hc hr hk rd ra, fun clk hs hw _ hn first => .latchWaitReady hc hk clk hs hw hn first⟩

/-! ### The overflow -/

/-- The record of an overflowing LSIG of thread `t` has been offered, and LATCHPOL is still to act. -/
def overflowed (r : State) (t : Thread) (k : Nat) : State :=
  (noteOverflow (r.issuedBy t).wakeAsk (r.th t).ctx k ((r.issuedBy t).instrSrc t 2)).excPush
    (overflowInfo (r.th t).ctx k ((r.issuedBy t).instrSrc t 2))

theorem overflowed_rest (r : State) (t : Thread) (k : Nat) :
    (overflowed r t k).latch = { r.latch with
      fLatch := BitVec.ofNat 6 k, fBank := decide ((r.th t).ctx = 1), fSource := 2, fCount := satInc 16 r.latch.fCount,
      fPend := true } ∧
    (∀ u, (overflowed r t k).th u = r.th u) ∧ (overflowed r t k).frame = r.frame ∧
    (overflowed r t k).int = r.int := by
  refine ⟨?_, fun u => ?_, ?_, ?_⟩
  · rw [overflowed, State.excPush_latch, noteOverflow]
    simp only [State.wakeAsk_latch]
    rfl
  · rw [overflowed, State.th_excPush]
    exact (State.th_wakeAsk ..).trans (State.th_issued ..)
  · rw [overflowed, State.excPush_frame]
    exact State.wakeAsk_frame _
  · rw [overflowed, State.excPush_int]
    exact State.wakeAsk_int _

theorem excRecord_cause (cycle : Word) (i : ExcInfo) : (excRecord cycle i).w0.toNat % 256 = i.cause % 256 := by
  simp only [excRecord, w64, BitVec.toNat_ofNat, Nat.shiftLeft_eq]
  omega

/-- What the record of an overflow does to the exception queue (R226). -/
theorem overflowed_queue (r : State) (t : Thread) (k : Nat) :
    (r.sash.excq.length < 16 → Enters (fun x => x.w0.toNat % 256 = 0x12) r (overflowed r t k)) ∧
    (r.sash.excq.length = 16 → (overflowed r t k).sash.excq.length = 16 ∧
      (overflowed r t k).sash.lost = satInc 16 r.sash.lost ∧
      (r.time.now.recs = 0 → (overflowed r t k).sash.excq = r.sash.excq)) := by
  generalize hn : noteOverflow (r.issuedBy t).wakeAsk (r.th t).ctx k ((r.issuedBy t).instrSrc t 2) = n
  generalize hi : overflowInfo (r.th t).ctx k ((r.issuedBy t).instrSrc t 2) = i
  have pushed : overflowed r t k = n.excPush i := by rw [overflowed, hn, hi]
  have sash : n.sash = (r.issuedBy t).sash := by
    rw [← hn]
    exact State.wakeAsk_sash _
  have time : n.time = r.time := by
    rw [← hn]
    exact State.wakeAsk_time _
  obtain ⟨⟨a, b, enters, room, full⟩, _, _⟩ := Records.of_excPush n i
  have split : r.sash.excq = a ++ b := by
    have := enters.split
    rwa [sash] at this
  rw [sash] at room full
  rw [pushed]
  refine ⟨fun h => ⟨a, _, b, ⟨split, time ▸ enters.cycle, enters.order⟩, ?_, ?_⟩, fun h => ?_⟩
  · rw [(room h).1]
  · refine (excRecord_cause _ i).trans ?_
    rw [← hi]
    rfl
  · have long : (a ++ b).length = 16 := split ▸ h
    rw [List.length_append] at long
    rw [(full h).1]
    refine ⟨by simp; omega, rfl, fun first => ?_⟩
    have none : b = [] := by
      have := enters.cycle
      rw [time, first] at this
      exact List.length_eq_zero_iff.mp (Nat.le_zero.mp this)
    subst none
    simp only [split, List.append_nil, List.length_nil, Nat.add_zero] at long ⊢
    rw [← long, List.take_left]

theorem latchOverflow : LatchOverflow := by
  intro s t rd ra k hc hk hr
  dsimp only
  have calm := State.signalsAhead_calm hc
  have ahead := State.issued_signalsAhead s t
  generalize s.signalsAhead = r at *
  intro hrun _ full pol
  obtain ⟨latch, th, frame, int⟩ := overflowed_rest r t k.toNat
  obtain ⟨enters, drops⟩ := overflowed_queue r t k.toNat
  generalize hp : overflowed r t k.toNat = p at *
  have signals : (r.issuedBy t).latchSignal (r.th t).ctx k.toNat ((r.issuedBy t).instrSrc t 2) =
      if r.frame.fault.latchPol = 1 then p.stopAtBoundary t else p := by
    have count : (r.issuedBy t).wakeAsk.latchCount (r.th t).ctx k.toNat = 255 :=
      (State.latchCount_congr (State.wakeAsk_latch _) _ _).trans full
    have policy : overflowPolicy p (r.th t).ctx ((r.issuedBy t).instrSrc t 2) =
        if r.frame.fault.latchPol = 1 then p.stopAtBoundary t else p := by
      rw [overflowPolicy, frame]
      interval_cases r.frame.fault.latchPol <;> rfl
    unfold State.latchSignal
    dsimp only
    rw [if_pos count, State.latchOverflow_eq, ← overflowed, hp, policy, State.parityCheck_calm]
    rw [State.calm, apply_ite (fun z : State => z.int.strikes), State.stopAtBoundary_int, int, ite_self]
    exact calm
  have goes : (s.issuedBy t).lsigGo t k.toNat =
      if r.frame.fault.latchPol = 1 then p.stopAtBoundary t else p.advance t 4 := by
    have overflows : decide ((r.issuedBy t).latchCount (r.th t).ctx k.toNat = 255) = true := decide_eq_true full
    unfold State.lsigGo
    rw [ahead]
    dsimp only
    rw [State.th_issued, overflows, signals]
    split
    · next h => simp [h, frame]
    · next h => simp [h, frame]
  have states (s' : State) (hl : s'.latch = p.latch) (hq : s'.sash.excq = p.sash.excq) (hd : s'.sash.lost = p.sash.lost) :
      s'.latch.counts = r.latch.counts ∧ s'.latch.fLatch = k ∧ s'.latch.fBank = decide ((r.th t).ctx = 1) ∧
      s'.latch.fSource = 2 ∧ s'.latch.fPend = true ∧ s'.latch.fCount = satInc 16 r.latch.fCount ∧
      (r.sash.excq.length < 16 → Enters (fun x => x.w0.toNat % 256 = 0x12) r s') ∧
      (r.sash.excq.length = 16 → s'.sash.excq.length = 16 ∧ s'.sash.lost = satInc 16 r.sash.lost ∧
        (r.time.now.recs = 0 → s'.sash.excq = r.sash.excq)) := by
    rw [hl, latch, hq, hd]
    refine ⟨rfl, by simp, rfl, rfl, rfl, rfl, fun h => ?_, drops⟩
    obtain ⟨a, x, b, at', queue, cause⟩ := enters h
    exact ⟨a, x, b, at', hq.trans queue, cause⟩
  refine .latchFn hc hr hk rfl goes ?_
  by_cases stops : r.frame.fault.latchPol = 1
  · rw [if_pos stops]
    obtain ⟨counts, fLatch, fBank, fSource, fPend, fCount, queue⟩ :=
      states (p.stopAtBoundary t) (State.stopAtBoundary_latch ..) (by simp) (by simp)
    refine ⟨counts, fLatch, fBank, fSource, fPend, fCount, queue.1, queue.2, fun h => absurd (stops.symm.trans h) (by decide),
      fun _ => ?_⟩
    rw [State.stopAtBoundary_eq, State.th_modTh, th]
    have kept := congrArg ThreadState.pc (boundaryStop_rest (r.th t))
    exact ⟨kept, boundaryStop_state (.inl hrun)⟩
  · rw [if_neg stops]
    have sash := (State.fetchNext_fetched (p.modTh t fun x => { x with pc := (p.th t).pc + BitVec.ofNat 48 4 }) t).sash
    have excq := congrArg Sash.excq sash
    have lost := congrArg Sash.lost sash
    rw [State.modTh_sash] at excq lost
    obtain ⟨counts, fLatch, fBank, fSource, fPend, fCount, queue⟩ := states (p.advance t 4) (State.advance_latch ..) excq lost
    refine ⟨counts, fLatch, fBank, fSource, fPend, fCount, queue.1, queue.2, fun _ => ?_, fun h => absurd h stops⟩
    rw [State.advance, State.goto_pc, th]
    rfl

/-- Settles O25. -/
theorem latches : Obligations.Latches := ⟨latchInstructions, latchOverflow⟩

end Sys2Proof.Machine
end

/-! PROOFS. The steps of R218: what the resolution of handles leaves alone, and what an accepted plan changes (spec/09 R201,
R218). -/

section
namespace Sys2Proof.Machine

/-- What the steps of an issue before its outcome leave alone: the threads, the engines, the exception queue and the clock, and
the disturbances that wait. -/
structure Aside (s s' : State) : Prop where
  th : ∀ u, s'.th u = s.th u
  eng : s'.eng = s.eng
  strikes : s'.int.strikes = s.int.strikes
  excq : s'.sash.excq = s.sash.excq
  handler : s'.sash.handler = s.sash.handler
  time : s'.time = s.time

namespace Aside

theorem refl (s : State) : Aside s s := ⟨fun _ => rfl, rfl, rfl, rfl, rfl, rfl⟩

theorem trans {a b c : State} (h : Aside a b) (k : Aside b c) : Aside a c where
  th u := (k.th u).trans (h.th u)
  eng := k.eng.trans h.eng
  strikes := k.strikes.trans h.strikes
  excq := k.excq.trans h.excq
  handler := k.handler.trans h.handler
  time := k.time.trans h.time

theorem calm {s s' : State} (h : Aside s s') (hc : s.calm) : s'.calm := h.strikes.trans hc

/-- A change of the planes, Jamb, the descriptor cache and the control registers. -/
theorem of_eq {s s' : State} (h : { s' with frame := s.frame, jamb := s.jamb, dcache := s.dcache, cr := s.cr } = s) : Aside s s' where
  th u := have th := congrArg (fun x : State => x.th u) h
    th
  eng := have eng := congrArg State.eng h
    eng
  strikes := have int := congrArg (fun x : State => x.int.strikes) h
    int
  excq := have sash := congrArg (fun x : State => x.sash.excq) h
    sash
  handler := have sash := congrArg (fun x : State => x.sash.handler) h
    sash
  time := have time := congrArg State.time h
    time

theorem dcRead {s : State} (hc : s.calm) (c h : Nat) : Aside s (s.dcRead c h).1 := by
  have touch : Aside s (s.dcTouch c h) := by
    unfold State.dcTouch
    split
    · exact of_eq rfl
    · exact refl s
  unfold State.dcRead
  rw [State.upsetAt_calm hc]
  split
  · exact refl s
  · exact touch

theorem fillAsk (s : State) (c h : Nat) : Aside s (s.fillAsk c h) := by
  unfold State.fillAsk
  split
  · exact refl s
  · exact of_eq rfl

theorem digestResolve (s : State) (t : Thread) (h : Nat) (d : Desc) : Aside s (s.digestResolve t h d) := by
  unfold State.digestResolve State.modPlane
  dsimp only
  split <;> exact of_eq rfl

theorem resolve1 {s : State} (hc : s.calm) (c v : Nat) (dest : Bool) : Aside s (s.resolve1 c v dest).1 := by
  unfold State.resolve1
  split
  · exact refl s
  · exact dcRead hc c v

theorem resolveAll (n : Nat) {s : State} (hc : s.calm) (t : Thread) (hs : HandleList) (got : List (Option Opnd)) :
    Aside s (s.resolveAll t hs got n).1 := by
  induction n generalizing s got with
  | zero => exact refl s
  | succ n ih =>
    unfold State.resolveAll
    split
    · exact refl s
    · exact ih hc _
    · next v dest _ =>
      have first := resolve1 hc (s.th t).ctx v dest
      dsimp only
      split
      · exact (first.trans (digestResolve ..)).trans (ih ((first.trans (digestResolve ..)).calm hc) _)
      · exact first.trans (of_eq rfl)
      · exact first.trans (fillAsk ..)

end Aside

/-! ### The words of a CASW -/

theorem Fetched.trans {t : Thread} {a b c : State} (h : Fetched t a b) (k : Fetched t b c) : Fetched t a c where
  threads u hu := (k.threads u hu).trans (h.threads u hu)
  own := by
    have := congrArg (fun x : ThreadState => { x with state := (a.th t).state, wait := (a.th t).wait, fetchLine := (a.th t).fetchLine }) k.own
    exact this.trans h.own
  waits := by
    rcases k.waits with same | waits
    · rw [same]
      exact h.waits
    · exact .inr waits
  sash := by
    have := congrArg (fun x : Sash => { x with icache := a.sash.icache, icRefetch := a.sash.icRefetch }) k.sash
    exact this.trans h.sash
  int := by
    have := congrArg (fun x : Integrity => { x with ce := a.int.ce, strikes := a.int.strikes }) k.int
    exact this.trans h.int
  rest := by
    have := congrArg (fun x : State => { x with f := a.f, b := a.b, u := a.u, s := a.s, sash := a.sash, jamb := a.jamb, int := a.int }) k.rest
    exact this.trans h.rest

theorem Fetched.foldl {α : Type} (t : Thread) (line : α → Nat) (l : List α) (s : State) :
    Fetched t s (l.foldl (fun s j => s.fetchAt t (line j)) s) := by
  induction l generalizing s with
  | nil => exact .refl t s
  | cons x l ih => exact (s.fetchAt_fetched t (line x)).trans (ih _)

theorem State.foldl_fetchAt_calm {α : Type} (t : Thread) (line : α → Nat) (l : List α) {s : State} (h : s.calm) :
    (l.foldl (fun s j => s.fetchAt t (line j)) s).calm := by
  induction l generalizing s with
  | nil => exact h
  | cons x l ih => exact ih (State.fetchAt_calm h t (line x))

theorem fetchedAt_fetched (s : State) (t : Thread) (i : Issue) : Fetched t (s.issuedBy t) (fetchedAt s t i) := by
  unfold fetchedAt State.fetchWords
  dsimp only
  split
  · exact .refl ..
  · exact .foldl t (fun j => (((s.issuedBy t).th t).pc.toNat + 4) / 128 + j) _ _

theorem fetchedAt_calm {s : State} (h : s.calm) (t : Thread) (i : Issue) : (fetchedAt s t i).calm := by
  unfold fetchedAt State.fetchWords
  dsimp only
  split
  · exact h
  · exact State.foldl_fetchAt_calm t (fun j => (((s.issuedBy t).th t).pc.toNat + 4) / 128 + j) _ h

/-- A thread that has fetched its words and runs on is as before; so is everything that the outcome of the issue depends on. -/
theorem fetchedAt_aside {s : State} (hc : s.calm) {t : Thread} {i : Issue} (h : ((fetchedAt s t i).th t).state = .run) :
    Aside s (fetchedAt s t i) := by
  have fetched := fetchedAt_fetched s t i
  have eng := congrArg State.eng fetched.rest
  have time := congrArg State.time fetched.rest
  have excq := congrArg Sash.excq fetched.sash
  have handler := congrArg Sash.handler fetched.sash
  refine ⟨fun u => ?_, eng, (fetchedAt_calm hc t i).trans hc.symm, excq, handler, time⟩
  by_cases hu : u = t
  · subst hu
    rcases fetched.waits with same | ⟨waits, _⟩
    · exact same.trans (State.th_issued ..)
    · exact absurd (h.symm.trans waits) (by decide)
  · exact (fetched.threads u hu).trans (State.th_issued ..)

/-- What step 1 of R218 leaves alone. -/
theorem resolvedAt_aside {s : State} (hc : s.calm) {t : Thread} {i : Issue} (h : ((fetchedAt s t i).th t).state = .run) :
    Aside s (resolvedAt s t i).1 :=
  (fetchedAt_aside hc h).trans (.resolveAll _ (fetchedAt_calm hc t i) ..)

/-! ### The outcomes of R218 -/

/-- Each of the tensor commands is the issue of its fields. -/
theorem exec_tensor {t : Thread} {rd ra : Reg} {lat : BitVec 6} {ef : BitVec 10} {ef9 : BitVec 9} {words : List (BitVec 32)}
    {c : Instr × Issue} (hm : c ∈ tensorCommands t rd ra lat ef ef9 words) (s : State) :
    exec c.1 s = .next (s.issue t c.2) ∧ c.2.kind ≠ .apply ∧ c.2.rd = rd ∧ c.2.resolved = [] := by
  simp only [tensorCommands, List.mem_cons, List.not_mem_nil, or_false] at hm
  rcases hm with rfl | rfl | rfl | rfl | rfl | rfl | rfl | rfl | rfl | rfl | rfl | rfl | rfl | rfl | rfl | rfl <;>
    exact ⟨rfl, nofun, rfl, rfl⟩

/-- A tensor instruction of a running thread: it is issued once its words are fetched. -/
theorem Completes.tensor {s : State} {t : Thread} {rd ra : Reg} {lat : BitVec 6} {ef : BitVec 10} {ef9 : BitVec 9}
    {words : List (BitVec 32)} {c : Instr × Issue} (hm : c ∈ tensorCommands t rd ra lat ef ef9 words) (hc : s.calm)
    (hr : (s.th t).state = .run) (hi : c.2.illegal = false) {s' : State} {P : State → Prop}
    (h : (if !(fetchedAt s t c.2).isRun t then fetchedAt s t c.2
      else ((fetchedAt s t c.2).issueResolve t c.2).parityCheck .plane) = s') (hp : P s') : Completes c.1 s P := by
  obtain ⟨issues, kind, _, _⟩ := exec_tensor hm s
  refine .of_ifRun hc hr issues ?_ hp
  dsimp only
  rw [hi, if_neg kind]
  exact h

/-- What the issue makes of the resolution of the handles. -/
theorem issueResolve_eq (s : State) (t : Thread) {i : Issue} (hi : i.resolved = []) :
    (fetchedAt s t i).issueResolve t i =
      match (resolvedAt s t i).2.2 with
      | some (.miss h) => (resolvedAt s t i).1.waitFill t { i with resolved := (resolvedAt s t i).2.1 } h
      | some (.bad st) => (resolvedAt s t i).1.refuse t i.rd st i.bytes
      | _ => (resolvedAt s t i).1.issueChecked t { i with resolved := (resolvedAt s t i).2.1 } := by
  unfold State.issueResolve resolvedAt
  dsimp only
  rw [hi]
  rfl

/-! ### An accepted plan -/

/-- Switching domains on changes the power unit only. -/
theorem State.bandsOn_rest (s : State) (l : List Nat) : { s.bandsOn l with pwr := s.pwr } = s := by
  have go (z : State) : { z.batchGo with pwr := z.pwr } = z := by
    unfold State.batchGo
    dsimp only
    split
    · rfl
    · split
      · rfl
      · split <;> rfl
  unfold State.bandsOn State.batchAdd
  dsimp only
  split
  · rfl
  · have := congrArg (fun z : State => { z with pwr := s.pwr }) (go { s with pwr := { s.pwr with
      batch := s.pwr.batch ++ (bandOrder l).filter fun d => !s.domOn d && !s.pwr.leftOff.contains d && !s.pwr.batch.contains d &&
        decide (s.pwr.starting ≠ some d), pswReq := true } })
    exact this

/-- An entry goes behind every other one. -/
theorem State.laneAdd_rest (s : State) (e : Entry) :
    { s.laneAdd e with pwr := s.pwr } =
      { s with eng := { s.eng with lanes := s.eng.lanes ++ [e], nextUid := s.eng.nextUid + 1 } } := by
  unfold State.laneAdd
  dsimp only
  split
  · exact State.bandsOn_rest _ _
  · rfl

theorem State.laneAdd_lanes (s : State) (e : Entry) : (s.laneAdd e).eng.lanes = s.eng.lanes ++ [e] :=
  have eng := congrArg (fun x : State => x.eng.lanes) (s.laneAdd_rest e)
  eng

theorem State.laneAdd_two (s : State) (e e' : Entry) : ((s.laneAdd e).laneAdd e').eng.lanes = s.eng.lanes ++ [e, e'] := by
  rw [State.laneAdd_lanes, State.laneAdd_lanes, List.append_assoc]
  rfl

theorem State.th_laneAdd (s : State) (e : Entry) (u : Thread) : (s.laneAdd e).th u = s.th u :=
  have th := congrArg (fun x : State => x.th u) (s.laneAdd_rest e)
  th

theorem State.int_laneAdd (s : State) (e : Entry) : (s.laneAdd e).int = s.int :=
  have int := congrArg State.int (s.laneAdd_rest e)
  int

/-- A plan's entry is of thread `t`, with its job, its queue and its latch, and waits for its start. -/
def EntryOf (t : Thread) (p : Plan) (s : State) (e : Entry) : Prop :=
  e.stream = t ∧ e.iseq = (s.th t).iseq ∧ e.queue = p.queue ∧ e.phase = .queued ∧ e.latch = p.latch

theorem State.planEnter_adds (s : State) (t : Thread) (p : Plan) :
    (∃ e more, (s.planEnter t p).eng.lanes = s.eng.lanes ++ e :: more ∧ EntryOf t p s e ∧ more.length ≤ 1 ∧
      ((∀ j, p.job ≠ .root j) → e.job = p.job ∧ more = [])) ∧
    (∀ u, (s.planEnter t p).th u = s.th u) ∧ (s.planEnter t p).int = s.int := by
  unfold State.planEnter
  split
  · next r hr =>
    dsimp only
    split
    · refine ⟨⟨_, [_], State.laneAdd_two .., ⟨rfl, rfl, rfl, rfl, rfl⟩, le_rfl, fun h => absurd hr (h r)⟩, fun u => ?_, ?_⟩
      · rw [State.th_laneAdd, State.th_laneAdd]
      · rw [State.int_laneAdd, State.int_laneAdd]
    · exact ⟨⟨_, [], s.laneAdd_lanes _, ⟨rfl, rfl, rfl, rfl, rfl⟩, Nat.zero_le 1, fun h => absurd hr (h r)⟩, State.th_laneAdd s _,
        State.int_laneAdd s _⟩
  · exact ⟨⟨_, [], s.laneAdd_lanes _, ⟨rfl, rfl, rfl, rfl, rfl⟩, Nat.zero_le 1, fun _ => ⟨rfl, rfl⟩⟩, State.th_laneAdd s _,
      State.int_laneAdd s _⟩

theorem State.resume_calm {s : State} (h : s.calm) (t : Thread) (n : Nat) : (s.resume t n).calm := by
  refine State.fetchNext_calm ?_ t
  rw [State.calm, State.wakeUp_int, State.modTh_int]
  exact h

theorem State.reg_zero (s : State) (t : Thread) : s.reg t 0 = 0 := rfl

/-- The registers and counts that an accepted tensor instruction writes. -/
theorem State.writesStatus (s : State) (t : Thread) (p : Plan) :
    let z := (s.setReg t p.rd 0).modTh t fun x => { x with iseq := x.iseq + 1, wseq := x.wseq + BitVec.ofNat 32 p.writes }
    z.th t = { s.th t with
      regs := (z.th t).regs, iseq := (s.th t).iseq + 1, wseq := (s.th t).wseq + BitVec.ofNat 32 p.writes } ∧
    (∀ k, z.reg t k = if k = p.rd then 0 else s.reg t k) ∧ z.int = s.int ∧ z.eng = s.eng := by
  have own : (s.setReg t p.rd 0).th t = { s.th t with regs := ((s.setReg t p.rd 0).th t).regs } := by
    unfold State.setReg
    split
    · rfl
    · rw [State.th_modTh]
  refine ⟨?_, fun k => ?_, by simp, by simp⟩
  · rw [State.th_modTh, own]
  · rw [State.reg_congr (s := s.setReg t p.rd 0) (by rw [State.th_modTh]), State.reg_setReg]
    by_cases h : k = p.rd
    · by_cases h0 : p.rd = 0
      · rw [h, h0, if_neg (fun h => h.2 rfl), if_pos rfl, State.reg_zero]
      · rw [if_pos ⟨h, h0⟩, if_pos h]
    · rw [if_neg (fun x => h x.1), if_neg h]

/-- Step 4 of R218: the plan's entry, rd, ISEQ and WSEQ, and the pc. -/
structure Accepts (t : Thread) (p : Plan) (s s' : State) : Prop where
  lanes : ∃ e more, s'.eng.lanes = s.eng.lanes ++ e :: more ∧ EntryOf t p s e ∧ more.length ≤ 1 ∧
    ((∀ j, p.job ≠ .root j) → e.job = p.job ∧ more = [])
  pc : (s'.th t).pc = (s.th t).pc + BitVec.ofNat 48 p.bytes
  tensor : p.tensor = true → (s'.th t).iseq = (s.th t).iseq + 1 ∧ (s'.th t).wseq = (s.th t).wseq + BitVec.ofNat 32 p.writes ∧
    ∀ k, s'.reg t k = if k = p.rd then 0 else s.reg t k
  other : p.tensor = false → (s'.th t).iseq = (s.th t).iseq ∧ (s'.th t).regs = (s.th t).regs
  calm : s.calm → s'.calm

theorem State.accept_accepts (s : State) (t : Thread) (p : Plan) : Accepts t p s (s.accept t p) := by
  obtain ⟨lanes, th, int⟩ := s.planEnter_adds t p
  generalize hz : s.planEnter t p = z at lanes th int
  have iseq (y : State) := congrArg ThreadState.iseq (y.resume_wentOn t p.bytes).own
  have wseq (y : State) := congrArg ThreadState.wseq (y.resume_wentOn t p.bytes).own
  have regs (y : State) := congrArg ThreadState.regs (y.resume_wentOn t p.bytes).own
  have pc (y : State) := (y.resume_wentOn t p.bytes).pcNow
  unfold State.accept
  rw [hz]
  dsimp only at iseq wseq regs ⊢
  cases ht : p.tensor with
  | false =>
    refine ⟨?_, ?_, fun h => absurd (ht.symm.trans h) (by decide), fun _ => ⟨?_, ?_⟩, fun h => ?_⟩
    · rw [State.resume_eng]
      exact lanes
    · rw [if_neg (by decide), pc, th]
    · rw [if_neg (by decide), iseq, th]
    · rw [if_neg (by decide), regs, th]
    · refine State.resume_calm ?_ t p.bytes
      exact (congrArg Integrity.strikes int).trans h
  | true =>
    obtain ⟨own, reg, quiet, eng⟩ := z.writesStatus t p
    rw [if_pos rfl]
    refine ⟨?_, ?_, fun _ => ⟨?_, ?_, fun k => ?_⟩, fun h => absurd (ht.symm.trans h) (by decide), fun h => ?_⟩
    · rw [State.resume_eng, eng]
      exact lanes
    · rw [pc, own, th]
    · rw [iseq, own, th]
    · rw [wseq, own, th]
    · rw [State.reg_congr (regs _), reg, State.reg_congr (s := s) (by rw [th])]
    · refine State.resume_calm ?_ t p.bytes
      exact (congrArg Integrity.strikes (quiet.trans int)).trans h

end Sys2Proof.Machine
end

/-! PROOFS. QSIG, QWAIT and the end of a wait for a lane (spec/09 R218, R221). -/

section
namespace Sys2Proof.Machine

/-- A plan that is no UPD.ROOT adds its entry alone. -/
theorem Accepts.alone {t : Thread} {p : Plan} {s s' : State} (h : Accepts t p s s') (hp : ∀ r, p.job ≠ .root r) :
    ∃ e, s'.eng.lanes = s.eng.lanes ++ [e] ∧ EntryOf t p s e ∧ e.job = p.job := by
  obtain ⟨e, more, lanes, entry, _, own⟩ := h.lanes
  obtain ⟨job, none⟩ := own hp
  subst none
  exact ⟨e, lanes, entry, job⟩

/-- The plan of QSIG (R221). -/
def qsigPlan (k x : BitVec 6) : Plan :=
  { job := .qsig k.toNat, queue := x.toNat, writes := 0, rd := 0, latch := none, tensor := false, bytes := 4 }

theorem Completes.qsig {s : State} {t : Thread} (hc : s.calm) (hr : (s.th t).state = .run) (rd ra : Reg) {k x : BitVec 6}
    (hk : k.toNat < 48) (hx : x.toNat < 11) {s' : State} {P : State → Prop} (h : (s.issuedBy t).enter t (qsigPlan k x) = s')
    (hp : P s') : Completes (.qsig t rd ra k x) s P := by
  refine .of_ifRun hc hr rfl ?_ hp
  exact (if_neg (by simpa using ⟨hk, hx⟩)).trans h

theorem State.planRoom_issued (s : State) (t : Thread) (p : Plan) : (s.issuedBy t).planRoom t p = s.planRoom t p := by
  unfold State.planRoom
  rw [State.th_issued]
  rfl

theorem queueField_iff {x : BitVec 6} : queueField x = true ↔ x.toNat < 11 ∨ x.toNat = 15 := by simp [queueField]

/-- Settles O26. -/
theorem queueInstructions : Obligations.QueueInstructions := by
  intro s t rd ra k x hc plan q
  refine ⟨fun hr hk hx => ⟨fun room => ?enters, fun full asked => ?waits⟩, fun hr hx => ⟨fun empty => ?goes, fun busy => ?queues⟩,
    fun hs hw empty => ?done, fun hs p hw room hp => ?room⟩
  case' goes => have field : ¬(!queueField x) = true := by rw [queueField_iff.mpr hx]; decide
  case' queues => have field : ¬(!queueField x) = true := by rw [queueField_iff.mpr hx]; decide
  case enters =>
    have accepts := (s.issuedBy t).accept_accepts t (qsigPlan k x)
    obtain ⟨e, lanes, ⟨stream, _, queue, phase, latch⟩, job⟩ := accepts.alone (by simp [qsigPlan])
    obtain ⟨iseq, regs⟩ := accepts.other rfl
    have pc := accepts.pc
    rw [State.th_issued] at iseq regs pc
    refine .qsig hc hr rd ra hk hx (s' := (s.issuedBy t).accept t (qsigPlan k x)) ?_ ?_
    · rw [State.enter, State.planRoom_issued]
      exact if_pos room
    · refine ⟨e, lanes, job, queue, stream, latch, phase, iseq, regs, ?_⟩
      rw [pc]
      rfl
  case waits =>
    refine .qsig hc hr rd ra hk hx (s' := (s.issuedBy t).waitIn t .queue (.lane plan)) ?_ ?_
    · refine (if_neg (Bool.not_eq_true _ ▸ (s.planRoom_issued t plan).trans full)).trans (if_neg ?_)
      rw [State.th_issued, asked]
      decide
    · rw [WaitsIn, State.waitIn, State.modTh, State.th_issued]
  case goes =>
    refine .writesRd (rd := 0) (v := 0) hc hr rfl ?_
    exact (if_neg field).trans (if_pos empty)
  case queues =>
    refine .of_ifRun hc hr rfl (s' := (s.issuedBy t).waitIn t .queue (.queue q)) ?_ ?_
    · exact (if_neg field).trans (if_neg (Bool.not_eq_true _ ▸ busy))
    · rw [WaitsIn, State.waitIn, State.modTh, State.th_issued]
  case done =>
    refine ⟨_, congrArg Host.Outcome.next ?_, s.resume_resumes t⟩
    rw [hw]
    exact if_pos (by simp [hs, empty])
  case room =>
    have accepts := s.accept_accepts t p
    obtain ⟨e, lanes, ⟨_, iseq, queue, _, latch⟩, job⟩ := accepts.alone hp
    refine ⟨s.accept t p, ?_, e, lanes, job, queue, latch, iseq, accepts.pc, fun ht => ?_⟩
    · change execLaneRoom t s = _
      rw [execLaneRoom, hw]
      exact congrArg Host.Outcome.next (if_pos (by simp [hs, room]))
    · obtain ⟨next, _, regs⟩ := accepts.tensor ht
      exact ⟨next, fun _ => by rw [regs, if_pos rfl]⟩

end Sys2Proof.Machine
end

/-! PROOFS. The acceptance and the refusal of tensor instructions, and the record of UPD.APPLY (spec/09 R218; spec/08 R172,
R173). -/

section
namespace Sys2Proof.Machine

/-! ### The plans of the owning chapters -/

/-- A plan of a tensor instruction writes its rd. -/
def TensorPlan (i : Issue) (p : Plan) : Prop := p.rd = i.rd ∧ p.tensor = true

theorem TensorPlan.of_plan (i : Issue) (q : Nat) (j : Job) (w : Nat) : TensorPlan i (i.plan q j w) := ⟨rfl, rfl⟩

theorem TensorPlan.of_plain {i : Issue} {bad : Option Nat} {q w : Nat} {j : Job} {p : Plan} {f : Flags}
    (h : plain (orElsePlan bad (i.plan q j w)) = .ok (p, f)) : TensorPlan i p := by
  cases bad with
  | some st => cases h
  | none =>
    cases h
    exact .of_plan ..

theorem TensorPlan.of_caswPlan {s : State} {t : Thread} {i : Issue} {p : Plan} {f : Flags} (h : s.caswPlan t i = .ok (p, f)) :
    TensorPlan i p := by
  unfold State.caswPlan at h
  dsimp only at h
  split at h
  · cases h
  · cases h
    exact .of_plan ..

theorem TensorPlan.of_applyPlan {s : State} {t : Thread} {i : Issue} {bs : List Byte} {p : Plan} {f : Flags}
    (h : s.applyPlan t i bs = .ok (p, f)) : TensorPlan i p := by
  unfold State.applyPlan at h
  dsimp only at h
  split at h
  · cases h
  · split at h
    · cases h
    · split at h
      · cases h
      · cases h
        exact .of_plan ..

theorem TensorPlan.of_issueOwn {s : State} {t : Thread} {i : Issue} {p : Plan} {f : Flags} (h : s.issueOwn t i = .ok (p, f)) :
    TensorPlan i p := by
  unfold State.issueOwn at h
  dsimp only at h
  split at h
  case h_3 => exact .of_caswPlan h
  case h_11 =>
    split at h
    · exact .of_applyPlan h
    · cases h
  case h_12 =>
    split at h
    · cases h
      exact .of_plan ..
    · cases h
  case h_15 =>
    split at h
    · cases h
      exact .of_plan ..
    · cases h
  case h_16 => cases h
  all_goals exact .of_plain h

/-! ### The outcomes -/

/-- Raised Casement flags change the flag registers and the logs only. -/
theorem State.casRaise_logs (s : State) (t : Thread) (c : Nat) (n : BitVec 32) (f : Flags) :
    ∃ r, OnlyLogs (s.modEr r) (s.casRaise t c n f) := by
  unfold State.casRaise
  split
  · exact ⟨id, .refl s⟩
  · refine ⟨fun r => { r with casFlags := r.casFlags ||| BitVec.ofNat 32 (flags7 f <<< (8 * Thread.num t)) }, ?_⟩
    unfold State.alarmFlags
    dsimp only
    split
    · exact .refl _
    · exact .of_integrity _ _

theorem State.casRaise_rest (s : State) (t : Thread) (c : Nat) (n : BitVec 32) (f : Flags) :
    (∀ u, (s.casRaise t c n f).th u = s.th u) ∧ (s.casRaise t c n f).eng = s.eng ∧ (s.casRaise t c n f).frame = s.frame ∧
    (s.casRaise t c n f).int.strikes = s.int.strikes := by
  obtain ⟨r, logs⟩ := s.casRaise_logs t c n f
  have eng := congrArg State.eng logs.rest
  have frame := congrArg State.frame logs.rest
  have strikes := congrArg Integrity.strikes logs.int
  exact ⟨fun u => logs.th u, eng, frame, strikes⟩

theorem State.planRoom_congr {s s' : State} (th : ∀ u, s'.th u = s.th u) (eng : s'.eng = s.eng) (frame : s'.frame = s.frame)
    (t : Thread) (p : Plan) : s'.planRoom t p = s.planRoom t p := by
  have free (q : Nat) (w : Nat) : s'.laneFree q t w = s.laneFree q t w := by
    unfold State.laneFree State.laneHeld State.lane
    rw [eng]
  have plane : s'.plane = s.plane := by
    funext i
    rw [State.plane, State.plane, frame]
  have due (c g : Nat) : s'.rootDue c g = s.rootDue c g := by
    unfold State.rootDue State.g0 State.groupEntry State.frameOf State.groupState State.advWaiting
    rw [plane, eng]
  simp only [State.planRoom, free, due, th]

theorem State.parityCheck_next {s z : State} (hz : z.calm) (k : Site) (h : s = z) : s.parityCheck k = z := by
  rw [h, State.parityCheck_calm hz]

/-- A refusal that writes its status (R218 step 3). -/
theorem State.refuse_writes (s : State) (t : Thread) {rd : Reg} (h0 : rd ≠ 0) (st n : Nat) :
    let s' := s.refuse t rd st n
    s'.eng = s.eng ∧ (s'.th t).iseq = (s.th t).iseq ∧ (s'.th t).wseq = (s.th t).wseq ∧
    (∀ k, s'.reg t k = if k = rd then w64 st else s.reg t k) ∧ (s'.th t).pc = (s.th t).pc + BitVec.ofNat 48 n ∧
    (s.calm → s'.calm) := by
  have own : (s.setReg t rd (w64 st)).th t = { s.th t with regs := ((s.setReg t rd (w64 st)).th t).regs } := by
    rw [State.setReg, if_neg h0, State.th_modTh]
  have on := (s.setReg t rd (w64 st)).resume_wentOn t n
  have iseq := congrArg ThreadState.iseq on.own
  have wseq := congrArg ThreadState.wseq on.own
  have regs := congrArg ThreadState.regs on.own
  dsimp only at iseq wseq regs ⊢
  rw [State.refuse, if_neg h0]
  refine ⟨by simp, ?_, ?_, fun k => ?_, ?_, fun h => ?_⟩
  · rw [iseq, own]
  · rw [wseq, own]
  · rw [State.reg_congr regs, State.reg_setReg]
    simp only [h0, ne_eq, not_false_eq_true, and_true]
  · rw [on.pcNow, State.setReg_pc]
  · refine State.resume_calm ?_ t n
    rw [State.calm, State.setReg_int]
    exact h

/-- The record of ISSUE_REFUSED (R223). -/
def refusedInfo (s : State) (t : Thread) (st : Nat) : ExcInfo :=
  { cause := 0x07, thread := Thread.num t, ctx := (s.th t).ctx, status := st, queue := 0, bel := false, pc := (s.th t).pc,
    info := (s.th t).iseq.zeroExtend 64 }

/-- The status of a record (R223). -/
theorem excRecord_status (cycle : Word) (i : ExcInfo) : (excRecord cycle i).w0.toNat / 2 ^ 11 % 256 = i.status % 256 := by
  have bel : b2n i.bel ≤ 1 := by cases i.bel <;> decide
  simp only [excRecord, w64, BitVec.toNat_ofNat, Nat.shiftLeft_eq]
  omega

/-- A refusal whose rd is s0 (R218 step 3, R224). -/
theorem State.refuse_stops {s : State} {t : Thread} (hd : doubleFault s t = false) (st n : Nat) :
    let s' := s.refuse t 0 st n
    s'.eng = s.eng ∧ (s'.th t).state = .stopped ∧ (s'.th t).pc = (s.th t).pc ∧ (s'.th t).iseq = (s.th t).iseq ∧
    (s.sash.excq.length < 16 → Enters (fun x => x.w0.toNat % 256 = 0x07 ∧ x.w0.toNat / 2 ^ 11 % 256 = st % 256 ∧
      x.w2 = (s.th t).iseq.zeroExtend 64) s s') ∧ (s.calm → s'.calm) := by
  have eq : s.refuse t 0 st n = (s.stopped t).excPush (refusedInfo s t st) := by
    rw [State.refuse, if_pos rfl, State.stopExc, if_neg]
    · rfl
    · simpa [doubleFault] using hd
  dsimp only
  rw [eq]
  refine ⟨by simp, by simp [State.stopped], by simp [State.stopped], by simp [State.stopped], fun room => ?_, fun h => ?_⟩
  · obtain ⟨⟨a, b, enters, push, _⟩, _, _⟩ := Records.of_excPush (s.stopped t) (refusedInfo s t st)
    rw [State.stopped_sash] at push
    refine ⟨a, _, b, ⟨?_, ?_, enters.order⟩, congrArg Sash.excq (push room).1, ?_, ?_, rfl⟩
    · have := enters.split
      rwa [State.stopped_sash] at this
    · have := enters.cycle
      rwa [State.stopped_time] at this
    · exact excRecord_cause ..
    · exact excRecord_status ..
  · rw [State.calm, State.excPush_int, State.stopped_int]
    exact h

/-- The issue of a running thread whose words are fetched: what follows from its resolution stands, since no disturbance waits. -/
theorem Completes.tensor_run {s : State} {t : Thread} {rd ra : Reg} {lat : BitVec 6} {ef : BitVec 10} {ef9 : BitVec 9}
    {words : List (BitVec 32)} {c : Instr × Issue} (hm : c ∈ tensorCommands t rd ra lat ef ef9 words) (hc : s.calm)
    (hr : (s.th t).state = .run) (hi : c.2.illegal = false) (hf : ((fetchedAt s t c.2).th t).state = .run) {s' : State}
    {P : State → Prop} (h : (fetchedAt s t c.2).issueResolve t c.2 = s') (calm : s'.calm) (hp : P s') : Completes c.1 s P := by
  refine .tensor hm hc hr hi ?_ hp
  rw [State.isRun, hf, h, State.parityCheck_calm calm]
  rfl

/-- Settles O27. -/
theorem tensorIssueAccepted : Obligations.TensorIssueAccepted := by
  intro s t rd ra lat ef ef9 words c hm hc hr hi r i
  obtain ⟨_, _, hrd, hres⟩ := exec_tensor hm s
  refine ⟨fun waits => ?_, fun hf ok pre p f own room => ?_⟩
  · have fetched := fetchedAt_fetched s t c.2
    have pc := congrArg ThreadState.pc fetched.own
    have regs := congrArg ThreadState.regs fetched.own
    have iseq := congrArg ThreadState.iseq fetched.own
    have lanes := congrArg (fun x : State => x.eng.lanes) fetched.rest
    rw [State.th_issued] at pc regs iseq
    have memory : ((fetchedAt s t c.2).th t).state = .memory ∧ ((fetchedAt s t c.2).th t).wait = .fetch := by
      refine fetched.waits.resolve_left fun same => waits ?_
      rw [same, State.th_issued]
      exact hr
    exact .tensor hm hc hr hi (if_pos (by simp [State.isRun, waits])) ⟨memory.1, memory.2, pc, regs, iseq, lanes⟩
  · have aside := resolvedAt_aside hc hf
    obtain ⟨th, eng, frame, strikes⟩ := r.1.casRaise_rest t (r.1.th t).ctx (r.1.th t).iseq f
    generalize hz : r.1.casRaise t (r.1.th t).ctx (r.1.th t).iseq f = z at th eng frame strikes
    have accepts := z.accept_accepts t p
    obtain ⟨prd, tensor⟩ := TensorPlan.of_issueOwn own
    obtain ⟨e, more, lanes, ⟨stream, eseq, queue, phase, latch⟩, short, alone⟩ := accepts.lanes
    obtain ⟨iseq, wseq, regs⟩ := accepts.tensor tensor
    have same : z.th t = s.th t := (th t).trans (aside.th t)
    rw [eng, aside.eng] at lanes
    rw [same] at eseq iseq wseq
    refine .tensor_run hm hc hr hi hf (s' := z.accept t p) ?_ (accepts.calm (strikes.trans (aside.calm hc))) ?_
    · rw [issueResolve_eq s t hres, ok]
      refine Eq.trans (b := State.enter z t p) ?_ (if_pos ((State.planRoom_congr th eng frame t p).trans room))
      rw [← hz]
      change State.issueChecked r.1 t i = _
      rw [State.issueChecked, pre]
      dsimp only
      rw [own]
    · refine ⟨⟨e, more, lanes, stream, eseq, queue, phase, latch, short, alone⟩, iseq, wseq, fun k => ?_, ?_, prd.trans hrd⟩
      · rw [regs, State.reg_congr (s := s) (by rw [same])]
      · rw [accepts.pc, same]

/-- Settles O28. -/
theorem tensorIssueRefused : Obligations.TensorIssueRefused := by
  intro s t rd ra lat ef ef9 words c hm hc hr hi hf r i st bad
  obtain ⟨_, _, hrd, hres⟩ := exec_tensor hm s
  have aside := resolvedAt_aside hc hf
  have refuses : (fetchedAt s t c.2).issueResolve t c.2 = r.1.refuse t rd st i.bytes := by
    rw [issueResolve_eq s t hres, ← hrd]
    rcases bad with bad | ⟨ok, pre | ⟨pre, own⟩⟩
    · rw [bad]
      rfl
    · rw [ok]
      change State.issueChecked r.1 t i = _
      rw [State.issueChecked, pre]
    · rw [ok]
      change State.issueChecked r.1 t i = _
      rw [State.issueChecked, pre]
      dsimp only
      rw [own]
  refine ⟨fun h0 => ?_, fun h0 hd => ?_⟩
  · obtain ⟨eng, iseq, wseq, regs, pc, calm⟩ := r.1.refuse_writes t h0 st i.bytes
    rw [aside.th] at iseq wseq pc
    refine .tensor_run hm hc hr hi hf refuses (calm (aside.calm hc))
      ⟨congrArg Engines.lanes (eng.trans aside.eng), iseq, wseq, fun k => ?_, pc⟩
    rw [regs, State.reg_congr (s := s) (by rw [aside.th])]
  · subst h0
    have hd' : doubleFault r.1 t = false := by rw [doubleFault, aside.handler]; exact hd
    obtain ⟨eng, stopped, pc, iseq, enters, calm⟩ := State.refuse_stops hd' st i.bytes
    rw [aside.th] at pc iseq enters
    refine .tensor_run hm hc hr hi hf refuses (calm (aside.calm hc))
      ⟨congrArg Engines.lanes (eng.trans aside.eng), stopped, pc, iseq, fun room => ?_⟩
    obtain ⟨a, x, b, ⟨split, cycle, order⟩, queue, record⟩ := enters (aside.excq ▸ room)
    exact ⟨a, x, b, ⟨aside.excq ▸ split, aside.time ▸ cycle, order⟩, queue, record⟩

/-! ### UPD.APPLY -/

theorem State.issuePre_issued (s : State) (t : Thread) (i : Issue) : (s.issuedBy t).issuePre t i = s.issuePre t i := by
  have grp (k : Nat) : (s.issuedBy t).grp t i k = s.grp t i k := State.reg_issued ..
  unfold State.issuePre State.regUnused
  simp only [grp]

theorem Completes.updApply {s : State} {t : Thread} {rd ra : Reg} {lat : BitVec 6} {ef : BitVec 10} (hc : s.calm)
    (hr : (s.th t).state = .run) (hi : (issueOf .apply rd ra lat ef []).illegal = false) {s' : State} {P : State → Prop}
    (h : (s.issuedBy t).issueRecord t (issueOf .apply rd ra lat ef []) = s') (calm : s'.calm) (hp : P s') :
    Completes (.updApply t rd ra lat ef) s P := by
  have run : (s.issuedBy t).isRun t = true := by rw [State.isRun, State.th_issued, hr]; rfl
  refine .of_ifRun hc hr rfl ?_ hp
  rw [hi]
  change (if !(s.issuedBy t).isRun t then s.issuedBy t
    else ((s.issuedBy t).issueRecord t (issueOf .apply rd ra lat ef [])).parityCheck .plane) = s'
  rw [run, h, State.parityCheck_calm calm]
  rfl

/-- Settles O29. -/
theorem updApplyIssue : Obligations.UpdApplyIssue := by
  intro s t rd ra lat ef hc hr i x hi pre
  have index : ((s.issuedBy t).grp t i 0).toNat = x := by
    rw [State.grp, State.regN, State.reg_issued]
    have self : Fin.ofNat 32 (i.ra.val + 0) = ra := Fin.ext (Nat.mod_eq_of_lt ra.isLt)
    rw [self]
  have passes : (s.issuedBy t).issuePre t i = none := (s.issuePre_issued t i).trans pre
  refine ⟨fun u hu lt => ?_, fun h0 absent => ?_⟩
  · refine .updApply hc hr hi (s' := (((s.issuedBy t).jambAdd (readRange (.record t (s.th t).accesses) .record
      (u.listBase + 32 * x) 32)).setTh t { s.th t with
        accesses := (s.th t).accesses + 1, state := .memory, wait := .record i (s.th t).accesses })) ?_ ?_ ?_
    · have cfg : (s.issuedBy t).updCfg ((s.issuedBy t).th t).ctx = some u := by rw [State.th_issued]; exact hu
      unfold State.issueRecord
      rw [passes]
      dsimp only
      rw [cfg]
      dsimp only
      rw [index, if_neg (Nat.not_le.mpr lt), State.th_issued]
      cases t <;> rfl
    · rw [State.calm, State.setTh_int]
      exact hc
    · rw [State.th_setTh, State.setTh_jamb, State.setTh_eng]
      exact ⟨rfl, rfl, rfl, rfl, rfl, rfl⟩
  · obtain ⟨eng, iseq, _, regs, _, calm⟩ := (s.issuedBy t).refuse_writes t h0 stBadRecord i.bytes
    rw [State.th_issued] at iseq
    refine .updApply hc hr hi ?_ (calm hc) ⟨congrArg Engines.lanes eng, iseq, by rw [regs, if_pos rfl]; rfl⟩
    unfold State.issueRecord
    rw [passes]
    dsimp only
    rw [index, State.th_issued]
    have cfg : (s.issuedBy t).updCfg (s.th t).ctx = s.updCfg (s.th t).ctx := rfl
    rw [cfg]
    cases hu : s.updCfg (s.th t).ctx with
    | none => rfl
    | some u => exact if_pos (absent u hu)

end Sys2Proof.Machine
end

/-! PROOFS. The residue code (spec/02 R50 to R52): the residue modulo 251 is a ring homomorphism on the block's exact
integers, which the 72-bit accumulator holds without overflow, and no power of two is 0 modulo 251. -/

section
namespace Sys2Proof.Machine

/-! ### Elements in units of 2^-16 -/

/-- The value of a finite element times 2^16. -/
def units (v : Val) : Int :=
  match v with
  | .fin s m e => if s then -(shiftBy m (e + 16) : Nat) else (shiftBy m (e + 16) : Nat)
  | _ => 0

/-- A multiple of 2^-16 below 2^17, where it is finite. -/
def SmallVal (v : Val) : Prop :=
  match v with
  | .fin _ m e => 0 ≤ e + 16 ∧ m * 2 ^ (e + 16).toNat < 2 ^ 33
  | _ => True

theorem residue_units (v : Val) : residue v = (units v % 251).toNat := by
  cases v <;> rfl

theorem shiftBy_nonneg {m : Nat} {e : Int} (h : 0 ≤ e) : shiftBy m e = m * 2 ^ e.toNat := by
  rw [shiftBy, if_neg (by omega), Nat.shiftLeft_eq]

/-- The exact product of two such elements in units of 2^-32 (R42). -/
theorem fixedProd_units {a b : Val} (ha : SmallVal a) (hb : SmallVal b) : fixedProd a b = units a * units b := by
  cases a with
  | nan => simp [fixedProd, units]
  | inf => simp [fixedProd, units]
  | fin s m e =>
    cases b with
    | nan => simp [fixedProd, units]
    | inf => simp [fixedProd, units]
    | fin t n f =>
      have exact : shiftBy (m * n) (e + f + 32) = shiftBy m (e + 16) * shiftBy n (f + 16) := by
        have split : (e + f + 32).toNat = (e + 16).toNat + (f + 16).toNat := by
          have := ha.1
          have := hb.1
          omega
        rw [shiftBy_nonneg ha.1, shiftBy_nonneg hb.1, shiftBy_nonneg (by have := ha.1; have := hb.1; omega), split, pow_add]
        ring
      simp only [fixedProd, units, exact]
      cases s <;> cases t <;> simp

theorem units_bound {v : Val} (h : SmallVal v) : |units v| < 2 ^ 33 := by
  cases v with
  | nan => simp [units]
  | inf => simp [units]
  | fin s m e =>
    have bound : ((shiftBy m (e + 16) : Nat) : Int) < 2 ^ 33 := by
      rw [shiftBy_nonneg h.1]
      exact_mod_cast h.2
    rw [units]
    split <;> simpa [abs_neg, abs_of_nonneg] using bound

/-- A layout whose values are multiples of 2^-16 below 2^17. -/
theorem SmallVal.decode {l : Layout} (unit : l.bias + l.mb ≤ 17) (top : 2 ^ l.eb ≤ l.bias + 17) (b : Nat) : SmallVal (l.decode b) := by
  have hm : bitsN b 0 l.mb < 2 ^ l.mb := Nat.mod_lt _ (by positivity)
  have he : bitsN b l.mb l.eb < 2 ^ l.eb := Nat.mod_lt _ (by positivity)
  unfold Layout.decode
  dsimp only
  generalize bitsN b 0 l.mb = m at *
  generalize bitsN b l.mb l.eb = e at *
  have small (m : Nat) (k : Nat) (hm : m < 2 ^ (l.mb + 1)) (hk : l.mb + 1 + k ≤ 33) : m * 2 ^ k < 2 ^ 33 :=
    calc m * 2 ^ k < 2 ^ (l.mb + 1) * 2 ^ k := by gcongr
      _ = 2 ^ (l.mb + 1 + k) := (pow_add ..).symm
      _ ≤ 2 ^ 33 := Nat.pow_le_pow_right (by decide) hk
  split
  · split <;> trivial
  · split
    · trivial
    · split
      · exact ⟨by rw [Layout.unit]; omega, small _ _ (by rw [pow_succ]; omega) (by rw [Layout.unit]; omega)⟩
      · exact ⟨by omega, small _ _ (by rw [pow_succ]; omega) (by omega)⟩

theorem SmallVal.ofFmt {f : Nat} (lo : 2 ≤ f) (hi : f ≤ 9) (b : Nat) : SmallVal (ofFmt f b) := by
  unfold Sys2Proof.Machine.ofFmt
  split
  · have range : signedN b 8 < 2 ^ 8 ∧ -2 ^ 8 < signedN b 8 := by
      unfold signedN
      dsimp only
      split <;> omega
    refine ⟨by decide, ?_⟩
    have : (signedN b 8).natAbs < 2 ^ 8 := by omega
    exact lt_of_lt_of_le (Nat.mul_lt_mul_of_pos_right this (by positivity)) (by decide)
  · interval_cases f
    all_goals exact .decode (by decide) (by decide) b

/-- An element that may contribute an exact zero, in units of 2^-16. -/
def unitsOf (v : Option Val) : Int := v.elim 0 units

/-- A residue as an element of the ring of the integers modulo 251. -/
theorem residueOf_cast (v : Option Val) : (residueOf v : ZMod 251) = (unitsOf v : ZMod 251) := by
  cases v with
  | none => simp [residueOf, unitsOf]
  | some v => rw [residueOf, residue_units]; exact residue_cast (units v)
where
  residue_cast (i : Int) : (((i % 251).toNat : Nat) : ZMod 251) = (i : ZMod 251) := by
    rw [← Int.cast_natCast, Int.toNat_of_nonneg (Int.emod_nonneg _ (by decide))]
    exact (ZMod.intCast_eq_intCast_iff_dvd_sub _ _ 251).2 (Int.dvd_self_sub_emod ..)

theorem accResidue_cast (acc : BitVec 72) : (accResidue acc : ZMod 251) = (acc.toInt : ZMod 251) :=
  residueOf_cast.residue_cast acc.toInt

/-! ### The exact sum of a block -/

/-- The exact integer of a block of an output, in units of 2^-32 (R42). -/
def State.blockInt (s : State) (x : Product) (m n b : Nat) : Int :=
  (((List.range 32).map fun i => 32 * b + i).map fun k =>
    if x.k ≤ k then 0
    else unitsOf ((latA x.a.desc m k).map fun c => ofFmt x.a.desc.fmt (elemBits s.eng.spad x.a.desc c)) *
      unitsOf ((latBEl x.b.desc x.trans k n).map fun c => ofFmt x.b.desc.fmt (elemBits s.eng.spad x.b.desc c))).sum

theorem foldl_add_eq_sum {α : Type} (f : α → Int) (l : List α) (a : Int) :
    l.foldl (fun a p => a + f p) a = a + (l.map f).sum := by
  induction l generalizing a with
  | nil => simp
  | cons p ps ih => rw [List.foldl_cons, ih, List.map_cons, List.sum_cons, add_assoc]

/-- A sum over what is chosen is one with zeros for the rest. -/
theorem sum_filterMap {α β : Type} (g : α → Option β) (f : β → Int) (l : List α) :
    ((l.filterMap g).map f).sum = (l.map fun k => (g k).elim 0 f).sum := by
  induction l with
  | nil => rfl
  | cons k ks ih => cases h : g k <;> simp [h, ih]

theorem sum_small (l : List Int) (c : Int) (h : ∀ i ∈ l, |i| ≤ c) : |l.sum| ≤ l.length * c := by
  induction l with
  | nil => simp
  | cons i is ih =>
    have head := h i (by simp)
    have tail := ih fun j hj => h j (by simp [hj])
    rw [List.sum_cons, List.length_cons]
    push_cast
    linarith [abs_add_le i is.sum]

section
variable {s : State} {x : Product} (ha : 2 ≤ x.a.desc.fmt ∧ x.a.desc.fmt ≤ 9) (hb : 2 ≤ x.b.desc.fmt ∧ x.b.desc.fmt ≤ 9)
include ha hb

theorem State.blockInt_fold (m n b : Nat) :
    ((s.pairs x (x.live m n b)).foldl (fun a p => a + fixedProd p.1 p.2) 0) = s.blockInt x m n b := by
  refine (foldl_add_eq_sum (fun p : Val × Val => fixedProd p.1 p.2) _ 0).trans ?_
  rw [zero_add, State.pairs, List.map_map, Product.live, sum_filterMap, State.blockInt]
  congr 1
  refine List.map_congr_left fun k _ => ?_
  by_cases hk : x.k ≤ k
  · simp [hk]
  · rcases hA : latA x.a.desc m k with _ | p
    · simp [hk, unitsOf]
    rcases hB : latBEl x.b.desc x.trans k n with _ | q
    · simp [hk, unitsOf]
    · simpa [hk, unitsOf] using fixedProd_units (.ofFmt ha.1 ha.2 _) (.ofFmt hb.1 hb.2 _)

/-- The 72-bit accumulator holds the sum of 32 products exactly (R42). -/
theorem State.exactBlock_toInt (m n b : Nat) : (s.exactBlock x m n b).toInt = s.blockInt x m n b := by
  have unit (d : Desc) (hd : 2 ≤ d.fmt ∧ d.fmt ≤ 9) (o : Option Coord) :
      |unitsOf (o.map fun c => ofFmt d.fmt (elemBits s.eng.spad d c))| ≤ 2 ^ 33 - 1 := by
    cases o with
    | none => simp [unitsOf]
    | some c => exact Int.le_sub_one_of_lt (units_bound (.ofFmt hd.1 hd.2 _))
  have small : |s.blockInt x m n b| ≤ 32 * (2 ^ 33 - 1) ^ 2 := by
    refine (sum_small _ ((2 ^ 33 - 1) ^ 2) ?_).trans (by simp)
    intro i hi
    obtain ⟨k, -, rfl⟩ := List.mem_map.1 hi
    split
    · norm_num
    · rw [abs_mul, sq]
      exact mul_le_mul (unit _ ha _) (unit _ hb _) (abs_nonneg _) (by norm_num)
  obtain ⟨lo, hi⟩ := abs_le.1 small
  rw [State.exactBlock, blockSum, State.blockInt_fold ha hb]
  exact BitVec.toInt_ofInt_eq_self (by decide) (by norm_num at lo ⊢; omega) (by norm_num at hi ⊢; omega)

end

/-! ### The spare column -/

theorem sum_swap {R α β : Type} [AddCommMonoid R] (l : List α) (ks : List β) (f : α → β → R) :
    (l.map fun j => (ks.map fun k => f j k).sum).sum = (ks.map fun k => (l.map fun j => f j k).sum).sum := by
  induction l with
  | nil => simp
  | cons j js ih => simp [ih, List.sum_map_add]

/-- The spare column's residue is that of the sum of the half's blocks (R51). -/
theorem State.spareSum_cast (s : State) (x : Product) (m n b : Nat) :
    (s.spareSum x m n b : ZMod 251) = ((s.halfCols x n).map fun j => (s.blockInt x m j b : ZMod 251)).sum := by
  simp only [State.spareSum, State.blockInt, ZMod.natCast_mod, Nat.cast_list_sum, Int.cast_list_sum, List.map_map]
  rw [sum_swap]
  congr 1
  refine List.map_congr_left fun k _ => ?_
  dsimp only [Function.comp_apply]
  split
  · simp
  · simp only [State.spareWeight, Nat.cast_mul, ZMod.natCast_mod, Nat.cast_list_sum, List.map_map, residueOf_cast, Int.cast_mul,
      Function.comp_def, List.sum_map_mul_left]

theorem halfCols_split (s : State) (x : Product) {n : Nat} (hn : n < x.n) (f : Nat → ZMod 251) :
    ((s.halfCols x n).map f).sum = f n + (((s.halfCols x n).filter fun j => j ≠ n).map f).sum := by
  have nodup : (s.halfCols x n).Nodup := List.nodup_range.filter _
  have mem : n ∈ s.halfCols x n := by simp [State.halfCols, hn]
  rw [← List.sum_map_erase f mem, nodup.erase_eq_filter]
  congr 4
  funext j
  rw [decide_not]
  rfl

/-! ### An inverted bit -/

theorem Nat.xor_two_pow_eq (a i : Nat) : ∃ e : Int, (e = 1 ∨ e = -1) ∧ ((a ^^^ 2 ^ i : Nat) : Int) = a + e * 2 ^ i := by
  have high : (a ^^^ 2 ^ i) / 2 ^ i = (a / 2 ^ i) ^^^ 1 := by
    rw [Nat.xor_div_two_pow, Nat.div_self (by positivity)]
  have low : (a ^^^ 2 ^ i) % 2 ^ i = a % 2 ^ i := by
    rw [Nat.xor_mod_two_pow, Nat.mod_self, Nat.xor_zero]
  have whole := Nat.div_add_mod (a ^^^ 2 ^ i) (2 ^ i)
  have whole' := Nat.div_add_mod a (2 ^ i)
  rw [high, low] at whole
  generalize a / 2 ^ i = q at *
  generalize a % 2 ^ i = r at *
  rw [← whole]
  rcases Nat.even_or_odd q with even | odd
  · exact ⟨1, .inl rfl, by rw [Nat.xor_one_of_even even, ← whole']; push_cast; ring⟩
  · obtain ⟨h, rfl⟩ := odd
    refine ⟨-1, .inr rfl, ?_⟩
    rw [Nat.xor_one_of_odd ⟨h, rfl⟩, ← whole']
    push_cast
    ring

/-- An inverted bit changes the accumulator by a power of two. -/
theorem BitVec.toInt_xor_bit (x : BitVec 72) {i : Nat} (hi : i < 72) :
    ∃ e : Int, (e = 1 ∨ e = -1) ∧ (x ^^^ ((1 <<< i : Nat) : BitVec 72)).toInt = x.toInt + e * 2 ^ i := by
  have one : ((1 <<< i : Nat) : BitVec 72).toNat = 2 ^ i := by
    rw [BitVec.natCast_eq_ofNat, BitVec.toNat_ofNat, Nat.shiftLeft_eq, one_mul]
    exact Nat.mod_eq_of_lt (Nat.pow_lt_pow_right (by decide) hi)
  obtain ⟨e, he, nat⟩ := Nat.xor_two_pow_eq x.toNat i
  rw [← one, ← BitVec.toNat_xor] at nat
  have sign : (x ^^^ ((1 <<< i : Nat) : BitVec 72)).msb = (x.msb ^^ decide (i = 71)) := by
    have top : 2 ^ 71 ≤ 2 ^ i ↔ i = 71 := by
      rw [Nat.pow_le_pow_iff_right (by decide)]
      omega
    rw [BitVec.msb_xor, BitVec.msb_eq_decide ((1 <<< i : Nat) : BitVec 72), one]
    simp only [Nat.add_one_sub_one, top]
  rw [BitVec.toInt_eq_msb_cond, BitVec.toInt_eq_msb_cond, sign, nat]
  by_cases h71 : i = 71
  · subst h71
    refine ⟨-e, by omega, ?_⟩
    have := (x ^^^ ((1 <<< 71 : Nat) : BitVec 72)).isLt
    have := x.isLt
    have msb := BitVec.msb_eq_decide x
    rcases he with rfl | rfl <;> cases hm : x.msb <;> (simp [hm] at msb ⊢; omega)
  · refine ⟨e, he, ?_⟩
    cases x.msb <;> simp [h71] <;> ring

theorem two_pow_ne_zero_mod (i : Nat) : (2 : ZMod 251) ^ i ≠ 0 := by
  have : Fact (Nat.Prime 251) := ⟨by norm_num⟩
  exact pow_ne_zero _ ((ZMod.natCast_eq_zero_iff 2 251).not.2 (by decide))

/-- Settles O33: the residue is a ring homomorphism, and an inverted bit adds or takes a power of two. -/
theorem residueCheck : Obligations.ResidueCheck := by
  intro s x m n b acc c a2 a9 b2 b9 hn half others residues
  have plain : x.serial = false := by simp [Product.serial]; omega
  have out (flip : BitVec 72) : (s.blockOut x m n b acc flip c).mismatch = (decide (c.cols + 1 = half.length) &&
      decide ((c.sum + accResidue (s.exactBlock x m n b ^^^ flip)) % 251 ≠ s.spareSum x m n b)) := by
    simp only [State.blockOut, plain, SpareCheck.add, half, ite_false, Bool.false_eq_true]
    rfl
  refine ⟨fun hopen flip => by rw [out, decide_eq_false hopen, Bool.false_and], fun closes sound => ?_⟩
  have exact (j : Nat) := State.exactBlock_toInt (s := s) ⟨a2, a9⟩ ⟨b2, b9⟩ m j b
  have rest : (c.sum : ZMod 251) = (others.map fun j => (s.blockInt x m j b : ZMod 251)).sum := by
    rw [(ZMod.natCast_eq_natCast_iff' _ _ 251).2 sound]
    simp only [residues, Nat.cast_list_sum, List.map_map, Function.comp_def, accResidue_cast, exact]
  have spare : (s.spareSum x m n b : ZMod 251) = s.blockInt x m n b + c.sum := by
    rw [rest, State.spareSum_cast, halfCols_split s x hn]
  have matches_iff (v : BitVec 72) : (c.sum + accResidue v) % 251 = s.spareSum x m n b ↔
      (v.toInt : ZMod 251) = s.blockInt x m n b := by
    have below : s.spareSum x m n b % 251 = s.spareSum x m n b := Nat.mod_mod ..
    rw [← below, ← ZMod.natCast_eq_natCast_iff', Nat.cast_add, accResidue_cast, spare, add_comm]
    exact add_left_inj _
  constructor
  · rw [out, Bool.and_eq_false_iff, decide_eq_false_iff_not, decide_eq_false_iff_not, not_not, matches_iff]
    exact .inr ((congrArg (fun v : BitVec 72 => (v.toInt : ZMod 251)) (BitVec.xor_zero)).trans (by rw [exact]))
  · intro i hi
    rw [out, Bool.and_eq_true_iff, decide_eq_true_iff, decide_eq_true_iff, Ne, matches_iff]
    refine ⟨closes, fun same => two_pow_ne_zero_mod i ?_⟩
    obtain ⟨e, he, flipped⟩ := BitVec.toInt_xor_bit (s.exactBlock x m n b) hi
    rw [flipped, exact] at same
    push_cast at same
    rcases he with rfl | rfl <;> simpa using same

end Sys2Proof.Machine
end

/-! PROOFS. Operating points, parking, waking and the clocks (spec/15 R346 to R369), over the equations of the sequencer and of
the stages of start-up. -/

section
namespace Sys2Proof.Machine

/-- A command whose next state is an expression that a fact evaluates. -/
theorem Completes.of_eq {c : Instr} {s z s' : State} {P : State → Prop} (run : exec c s = .next z) (eval : z = s') (hp : P s') :
    Completes c s P := ⟨s', run.trans (congrArg _ eval), hp⟩

/-! ### The sequencer -/

/-- A core that runs with no move under way begins one towards its target. -/
theorem State.seqGo_toward {s : State} (still : s.pwr.moving = .none) (awake : s.pwr.parked = false) (ready : 7 ≤ s.boot.stage) :
    TowardTarget s s.seqGo := by
  have go : s.seqGo = if s.pwr.op < s.pwr.target then s.voltUp s.pwr.target
      else if s.pwr.target < s.pwr.op then { s with pwr := { s.pwr with moving := .slew, moveTo := s.pwr.target } } else s :=
    if_neg (by simp [still, awake, ready])
  rw [go]
  refine ⟨fun up => if_pos up, fun down => (if_neg (by omega)).trans (if_pos down), fun there => ?_⟩
  rw [if_neg (by omega), if_neg (by omega)]

theorem State.seqGo_stays {s : State} (h : s.pwr.moving ≠ .none ∨ s.pwr.parked = true ∨ s.boot.stage < 7) : s.seqGo = s :=
  if_pos (by rcases h with h | h | h <;> simp [h])

theorem State.seqGo_there {s : State} (h : s.pwr.target = s.pwr.op) : s.seqGo = s := by
  unfold State.seqGo
  simp [h]

theorem State.voltUp_eq_rising (s : State) (n : Nat) : s.voltUp n = rising n s := rfl

@[simp] theorem State.seqGo_parked (s : State) : s.seqGo.pwr.parked = s.pwr.parked := by
  unfold State.seqGo State.voltUp
  dsimp only
  split_ifs <;> rfl

@[simp] theorem State.seqGo_door (s : State) : s.seqGo.door = s.door := by
  unfold State.seqGo State.voltUp
  dsimp only
  split_ifs <;> rfl

theorem State.wakeGo_begins {s : State} (parked : s.pwr.parked = true) (waking : s.pwr.waking = true) (still : s.pwr.moving = .none)
    (target : s.pwr.target = 0) : s.wakeGo = rising s.pwr.runPoint { s with pwr := { s.pwr with target := s.pwr.runPoint } } :=
  if_pos (by simp [parked, waking, still, target])

theorem State.wakeGo_stays {s : State}
    (h : s.pwr.parked = false ∨ s.pwr.waking = false ∨ s.pwr.moving ≠ .none ∨ s.pwr.target ≠ 0) : s.wakeGo = s :=
  if_neg (by rcases h with h | h | h | h <;> simp [h])

/-! ### The stages of start-up -/

/-- What start-up leaves as it is when it goes on (R373). -/
structure StartsUp (s s' : State) : Prop where
  rest : { s' with boot := s.boot, clk := s.clk, pwr := s.pwr, wd := s.wd } = s
  boot : { s'.boot with stage := s.boot.stage } = s.boot
  stage : s.boot.stage ≤ s'.boot.stage
  clk : { s'.clk with slewTo := s.clk.slewTo, aclkOn := s.clk.aclkOn } = s.clk
  pwr : { s'.pwr with
    op := s.pwr.op, target := s.pwr.target, vreq := s.pwr.vreq, confirmed := s.pwr.confirmed, pswReq := s.pwr.pswReq
    batchOn := s.pwr.batchOn, starting := s.pwr.starting, batch := s.pwr.batch, settleTicks := s.pwr.settleTicks } = s.pwr
  confirmed : s'.pwr.confirmed = s.pwr.confirmed ∨ s'.pwr.confirmed = 1

theorem StartsUp.refl (s : State) : StartsUp s s := ⟨rfl, rfl, le_rfl, rfl, rfl, .inl rfl⟩

theorem StartsUp.trans {a b c : State} (h : StartsUp a b) (k : StartsUp b c) : StartsUp a c where
  rest := (congrArg (fun z : State => { z with boot := a.boot, clk := a.clk, pwr := a.pwr, wd := a.wd }) k.rest).trans h.rest
  boot := (congrArg (fun z : Boot => { z with stage := a.boot.stage }) k.boot).trans h.boot
  stage := h.stage.trans k.stage
  clk := (congrArg (fun z : Clocks => { z with slewTo := a.clk.slewTo, aclkOn := a.clk.aclkOn }) k.clk).trans h.clk
  pwr := (congrArg (fun z : Power => { z with
    op := a.pwr.op, target := a.pwr.target, vreq := a.pwr.vreq, confirmed := a.pwr.confirmed, pswReq := a.pwr.pswReq
    batchOn := a.pwr.batchOn, starting := a.pwr.starting, batch := a.pwr.batch, settleTicks := a.pwr.settleTicks }) k.pwr).trans h.pwr
  confirmed := k.confirmed.elim (fun same => same ▸ h.confirmed) .inr

/-- A batch changes only the switching of the domains (R357). -/
theorem State.batchGo_batch (s : State) : ∃ req on start batch ticks, s.batchGo = { s with pwr := { s.pwr with
    pswReq := req, batchOn := on, starting := start, batch := batch, settleTicks := ticks } } := by
  unfold State.batchGo
  dsimp only
  split
  · exact ⟨_, _, _, _, _, rfl⟩
  · split
    · exact ⟨_, _, _, _, _, rfl⟩
    · split <;> exact ⟨_, _, _, _, _, rfl⟩

theorem State.batchAdd_batch (s : State) (ds : List Nat) : ∃ req on start batch ticks, s.batchAdd ds = { s with pwr := { s.pwr with
    pswReq := req, batchOn := on, starting := start, batch := batch, settleTicks := ticks } } := by
  unfold State.batchAdd
  dsimp only
  split
  · exact ⟨_, _, _, _, _, rfl⟩
  · obtain ⟨req, on, start, batch, ticks, h⟩ := State.batchGo_batch { s with pwr := { s.pwr with
      batch := s.pwr.batch ++ ds.filter fun d => !s.domOn d && !s.pwr.leftOff.contains d && !s.pwr.batch.contains d &&
        decide (s.pwr.starting ≠ some d)
      pswReq := true } }
    exact ⟨req, on, start, batch, ticks, h⟩

theorem StartsUp.batchAdd (s : State) (ds : List Nat) : StartsUp s (s.batchAdd ds) := by
  obtain ⟨req, on, start, batch, ticks, h⟩ := s.batchAdd_batch ds
  rw [h]
  exact ⟨rfl, rfl, le_rfl, rfl, rfl, .inl rfl⟩

theorem State.endAon_starts (s : State) : StartsUp s s.endAon := by
  unfold State.endAon
  split_ifs with h
  · exact ⟨rfl, rfl, by simp at h; show s.boot.stage ≤ 2; omega, rfl, rfl, .inl rfl⟩
  · exact .refl s

theorem State.endOpen_starts (s : State) : StartsUp s s.endOpen := by
  unfold State.endOpen
  split_ifs with h
  · refine .trans (b := s.toStage 3) ?_ (.batchAdd _ _)
    exact ⟨rfl, rfl, by simp at h; show s.boot.stage ≤ 3; omega, rfl, rfl, .inl rfl⟩
  · exact .refl s

theorem State.followSource_slews (s : State) : ∃ x, s.followSource = { s with clk := { s.clk with slewTo := x } } := by
  unfold State.followSource
  dsimp only
  split_ifs
  · exact ⟨_, rfl⟩
  · exact ⟨_, rfl⟩

theorem State.endPll_starts (s : State) : StartsUp s s.endPll := by
  unfold State.endPll
  split_ifs with h
  · obtain ⟨x, hx⟩ := (s.toStage 4).followSource_slews
    rw [hx]
    exact ⟨rfl, rfl, by simp at h; show s.boot.stage ≤ 4; omega, rfl, rfl, .inl rfl⟩
  · exact .refl s

theorem State.endRail_starts (s : State) : StartsUp s s.endRail := by
  unfold State.endRail
  split_ifs with h
  · refine .trans (b := { s.toStage 5 with pwr := { s.pwr with confirmed := 1 } }) ?_ (.batchAdd _ _)
    exact ⟨rfl, rfl, by simp at h; show s.boot.stage ≤ 5; omega, rfl, rfl, .inr rfl⟩
  · exact .refl s

theorem State.endDomains_starts (s : State) : StartsUp s s.endDomains := by
  unfold State.endDomains
  split_ifs with h
  · exact ⟨rfl, rfl, by simp at h; show s.boot.stage ≤ 6; omega, rfl, rfl, .inl rfl⟩
  · exact .refl s

theorem State.stageGo_starts (s : State) : StartsUp s s.stageGo :=
  s.endAon_starts.trans (.trans (State.endOpen_starts _) (.trans (State.endPll_starts _) (.trans (State.endRail_starts _)
    (State.endDomains_starts _))))

theorem State.endAon_stays {s : State} (h : s.boot.stage ≠ 1) : s.endAon = s := if_neg (by simp [h])
theorem State.endOpen_stays {s : State} (h : s.boot.stage ≠ 2) : s.endOpen = s := if_neg (by simp [h])
theorem State.endPll_stays {s : State} (h : s.boot.stage ≠ 3) : s.endPll = s := if_neg (by simp [h])
theorem State.endRail_stays {s : State} (h : s.boot.stage ≠ 4) : s.endRail = s := if_neg (by simp [h])
theorem State.endDomains_stays {s : State} (h : s.boot.stage ≠ 5) : s.endDomains = s := if_neg (by simp [h])

/-- From stage 3 on only the later ends of stages can come. -/
theorem State.stageGo_pll {s : State} (h : 3 ≤ s.boot.stage) : s.stageGo = s.endPll.endRail.endDomains := by
  rw [State.stageGo, State.endAon_stays (by omega), State.endOpen_stays (by omega)]

theorem State.stageGo_rail {s : State} (h : 4 ≤ s.boot.stage) : s.stageGo = s.endRail.endDomains := by
  rw [State.stageGo_pll (by omega), State.endPll_stays (by omega)]

/-- Start-up of a core in stage 6 or behind it has no condition left to wait for. -/
theorem State.stageGo_done {s : State} (h : 6 ≤ s.boot.stage) : s.stageGo = s := by
  rw [State.stageGo_rail (by omega), State.endRail_stays (by omega), State.endDomains_stays (by omega)]

/-! ### The voltage -/

theorem State.endRail_waits {s : State} (h : s.pwr.vack ≠ 1) : s.endRail = s := if_neg (by simpa using fun _ => h)

/-- Stage 5 begins with the rail confirmed. -/
def railed (s : State) : State := { s.toStage 5 with pwr := { s.pwr with confirmed := 1 } }

/-- With VACK at 1 in stage 4 the rail is confirmed, and the next stage begins (R373). -/
theorem State.stageGo_confirms {s : State} (h : s.boot.stage = 4) (one : s.pwr.vack = 1) :
    s.stageGo.pwr.vack = 1 ∧ s.stageGo.pwr.confirmed = 1 ∧ 5 ≤ s.stageGo.boot.stage := by
  have rail : s.endRail = (railed s).batchAdd (railed s).startDomains := if_pos (by simp [h, one])
  have up := (StartsUp.batchAdd (railed s) (railed s).startDomains).trans (State.endDomains_starts _)
  rw [State.stageGo_rail h.ge, rail]
  have vack := congrArg Power.vack up.pwr
  exact ⟨vack.trans one, up.confirmed.elim id id, up.stage⟩

theorem vackEvents : VackEvents := by
  intro s code shown confirmed
  refine ⟨fun h4 => ⟨fun hne => ?_, ?_⟩, fun h4 => ⟨?_, ?_, ?_, ?_⟩⟩
  · refine .of_eq rfl ((if_pos h4).trans ?_) rfl
    exact (State.stageGo_rail (s := shown) h4.ge).trans (by
      rw [State.endRail_waits hne, State.endDomains_stays (by show s.boot.stage ≠ 5; omega)])
  · rintro rfl
    exact .of_eq rfl (if_pos h4) (State.stageGo_confirms h4 rfl)
  · intro h
    refine .of_eq rfl (if_neg h4) ?_
    rcases h with hne | hslew
    · exact if_pos hne
    · dsimp only
      split_ifs
      · rfl
      · simp only [hslew, shown]
  · rintro rfl hm
    exact .of_eq rfl ((if_neg h4).trans (if_neg (not_not.2 rfl))) (by simp only [hm, confirmed])
  · rintro rfl hm
    exact .of_eq rfl ((if_neg h4).trans (if_neg (not_not.2 rfl))) (by simp only [hm, confirmed])
  · rintro rfl hm
    have run (P : State → Prop) (hp : P (confirmed .none).seqGo.wakeGo) : Completes (.vack s.pwr.vreq) s P :=
      .of_eq rfl ((if_neg h4).trans (if_neg (not_not.2 rfl))) (by simpa only [hm] using hp)
    refine ⟨fun awake ready => run _ ?_, fun awake early => run _ ?_, fun parked h => run _ ?_, fun parked waking target => run _ ?_⟩
    · rw [State.wakeGo_stays (.inl (by rw [State.seqGo_parked]; exact awake))]
      exact State.seqGo_toward rfl awake ready
    · rw [State.seqGo_stays (s := confirmed .none) (.inr (.inr early)), State.wakeGo_stays (s := confirmed .none) (.inl awake)]
    · rw [State.seqGo_stays (s := confirmed .none) (.inr (.inl parked)),
        State.wakeGo_stays (s := confirmed .none) (.inr (h.elim .inl fun t => .inr (.inr t)))]
    · rw [State.seqGo_stays (s := confirmed .none) (.inr (.inl parked)),
        State.wakeGo_begins (s := confirmed .none) parked waking rfl target]

theorem vackTimeouts : VackTimeouts := by
  intro s ended
  refine ⟨fun h => .of_eq rfl (if_neg ?_) rfl, fun late move => ?_⟩
  · rcases h with h | h | h <;> simp [h]
  have due : ((s.pwr.moving = .volt || s.pwr.moving = .drop) && decide (500 ≤ s.pwr.vackTicks)) = true := by
    rcases move with h | h <;> simp [h, late]
  refine ⟨fun parked => .of_eq rfl ((if_pos due).trans (if_pos (by simp [parked]))) ?_, fun awake => ?_⟩
  · simp only [parked, if_true, ended]
    rfl
  intro out
  have run (P : State → Prop) (hp : P (if s.pwr.target = s.pwr.moveTo then out else out.seqGo)) : Completes .vackTimeout s P := by
    refine .of_eq rfl ((if_pos due).trans ?_) hp
    simp only [awake, Bool.false_or, decide_eq_true_eq, Bool.false_eq_true, if_false, out, ended]
    rfl
  refine ⟨fun h => run _ ?_, fun h ready => run _ ?_⟩
  · split_ifs with there
    · rfl
    · exact State.seqGo_stays (.inr (.inr (h.resolve_left there)))
  · rw [if_neg h]
    exact State.seqGo_toward rfl awake ready

theorem slewEvents : SlewEvents := by
  intro s
  refine ⟨fun h => .of_eq rfl (if_pos ?_) rfl, fun slew awake ready => ?_⟩
  · rcases h with h | h <;> simp [h]
  have moves : ¬(s.pwr.moving ≠ .slew || s.pwr.parked) = true := by simp [slew, awake]
  refine ⟨fun up => ?_, fun down far => ?_, fun down there => ?_⟩
  · exact .of_eq rfl ((if_neg moves).trans (if_pos up)) (State.seqGo_toward rfl awake ready)
  · refine .of_eq rfl ((if_neg moves).trans (if_neg (by omega))) ?_
    rw [State.voltDown, State.seqGo_stays (.inl (by simp [far]))]
    simp [far]
  · refine .of_eq rfl ((if_neg moves).trans (if_neg (by omega))) ?_
    simp only [State.voltDown, there, if_true]
    exact State.seqGo_toward rfl awake ready

/-! ### Sleep -/

theorem State.parkIdle_iff (s : State) : s.parkIdle = true ∧ s.frame.plan.parkDelay ≤ s.pwr.parkTicks ∧ s.pwr.moving = .none ↔
    ParkConditions s := by
  constructor
  · rintro ⟨idle, delay, still⟩
    simp only [State.parkIdle, State.linkUp, allThreads, Bool.and_eq_true, Bool.not_eq_true', decide_eq_true_eq, List.isEmpty_iff,
      Option.isNone_iff_eq_none, List.all_eq_true, Bool.or_eq_true, decide_eq_false_iff_not] at idle
    obtain ⟨⟨⟨⟨⟨⟨⟨⟨⟨⟨⟨⟨park, stage⟩, awake⟩, threads⟩, handler⟩, lanes⟩, tags⟩, reqs⟩, door⟩, busy⟩, effect⟩, up4⟩, up5⟩ := idle
    have every (t : Thread) := threads t (by cases t <;> simp)
    exact ⟨⟨park, stage, awake⟩, fun t => (every t).1, handler, lanes, fun t => (every t).2, ⟨tags, reqs, door⟩, ⟨busy, effect⟩,
      ⟨up4, up5⟩, delay, still⟩
  · intro h
    obtain ⟨⟨park, stage, awake⟩, threads, handler, lanes, posts, ⟨tags, reqs, door⟩, ⟨busy, effect⟩, ⟨up4, up5⟩, delay, still⟩ := h
    exact ⟨by simp [State.parkIdle, State.linkUp, park, stage, awake, threads, posts, handler, lanes, tags, reqs, door, busy, effect,
      up4, up5], delay, still⟩

theorem parkAndWake : ParkAndWake := by
  intro s
  refine ⟨fun h => ?_, fun h => ?_, fun parked waking still target => ?_, fun h => ?_, fun parked waking slew pll ready empty => ?_⟩
  · obtain ⟨idle, delay, still⟩ := s.parkIdle_iff.2 h
    exact .of_eq rfl (if_pos (by simp [idle, delay, still])) rfl
  · exact .of_eq rfl (if_neg (by simpa [and_assoc] using fun i d m => h (s.parkIdle_iff.1 ⟨i, d, m⟩))) rfl
  · exact ⟨_, rfl, State.wakeGo_begins parked waking still target⟩
  · exact ⟨_, rfl, State.wakeGo_stays h⟩
  · refine .of_eq rfl ((if_neg (by simp [pll])).trans ((if_neg (by omega)).trans (if_pos (by simp [parked, waking, slew])))) ?_
    have sinks (z : State) (h : z.door.sinks = []) : z.sinksGo = z := by rw [State.sinksGo, h]; rfl
    rw [State.wakeDone, sinks _ (by rw [State.seqGo_door]; exact empty)]
    exact State.seqGo_toward rfl rfl ready

/-- Settles O59: each event is one branch of its function, and what follows it is the sequencer's next move. -/
theorem powerPoints : Obligations.PowerPoints := ⟨vackEvents, vackTimeouts, slewEvents, parkAndWake⟩

/-! ### The sources -/

theorem State.powerIrq_bit (s : State) : s.powerIrq.hinge.irqStat.getLsbD 11 = true := by
  simp [State.powerIrq, State.irqSet]

/-- The check of the sources moves only what a fallback and a slew move (R350, R352). -/
theorem State.sourceCheck_slews (s : State) : ∃ back fell ticks slew irq, s.sourceCheck = { s with
    clk := { s.clk with fallback := back, fell := fell, readyTicks := ticks, slewTo := slew }
    hinge := { s.hinge with irqStat := irq } } := by
  obtain ⟨x, follows⟩ := s.followSource_slews
  unfold State.sourceCheck
  dsimp only
  split_ifs
  · exact ⟨_, _, _, _, _, rfl⟩
  · exact ⟨_, _, _, _, _, follows⟩

/-- The source in force that is no longer ready falls back to TRO (R350). -/
theorem State.sourceCheck_falls {s : State} (force : s.clk.inForce ≠ .tro) (lost : s.srcReady s.clk.inForce = false)
    (still : s.clk.slewTo = none) : s.sourceCheck.clk.fallback = true ∧ s.sourceCheck.clk.slewTo = some .tro ∧
      s.sourceCheck.hinge.irqStat.getLsbD 11 = true := by
  have falls : s.sourceCheck = s.fallBack := if_pos (by simp [force, lost, still])
  rw [falls]
  exact ⟨rfl, if_neg force.symm, State.powerIrq_bit _⟩

theorem State.srcReady_sourceCheck (s : State) (x : Source) : s.sourceCheck.srcReady x = s.srcReady x := by
  obtain ⟨_, _, _, _, _, h⟩ := s.sourceCheck_slews
  rw [h]
  rfl

theorem srcNum_inj {x y : Source} : srcNum x = srcNum y ↔ x = y := by
  cases x <;> cases y <;> decide

/-- Two counts in a row within the window make a source ready (R348). -/
theorem State.srcReady_sourceCount (s : State) (x y : Source) (ok : Bool) : (s.sourceCount x ok).srcReady y =
    if y = x then ok && decide (1 ≤ SMap.look s.clk.passes 0 (srcNum x)) else s.srcReady y := by
  unfold State.srcReady State.sourceCount
  simp only [SMap.look_put, srcNum_inj]
  by_cases h : y = x
  · rw [if_pos h, if_pos h]
    cases ok
    · rfl
    · simp only [if_true, Bool.true_and]
      exact decide_eq_decide.2 (by omega)
  · rw [if_neg h, if_neg h]

theorem State.passes_sourceCount (s : State) {x y : Source} (ok : Bool) (h : y ≠ x) :
    SMap.look (s.sourceCount x ok).clk.passes 0 (srcNum y) = SMap.look s.clk.passes 0 (srcNum y) := by
  simp [State.sourceCount, SMap.look_put, srcNum_inj, h]

/-- What the three counts of FREQUENCY_CHECK make ready. -/
theorem State.srcReady_counted (z : State) (ref r0 r1 : Bool) :
    let w := (((z.sourceCount .refClk ref).sourceCount .rref0 r0).sourceCount .rref1 r1).sourceCheck
    w.clk.refRdy = z.clk.refRdy ∧ w.srcReady .refClk = (ref && decide (1 ≤ SMap.look z.clk.passes 0 1)) ∧
      w.srcReady .rref0 = (r0 && decide (1 ≤ SMap.look z.clk.passes 0 2)) ∧
      w.srcReady .rref1 = (r1 && decide (1 ≤ SMap.look z.clk.passes 0 3)) ∧ w.srcReady .tro = z.srcReady .tro := by
  have level (s : State) : s.sourceCheck.clk.refRdy = s.clk.refRdy := by
    obtain ⟨_, _, _, _, _, h⟩ := s.sourceCheck_slews
    rw [h]
  dsimp only
  simp only [State.srcReady_sourceCheck, State.srcReady_sourceCount]
  rw [State.passes_sourceCount _ _ (by decide), State.passes_sourceCount _ _ (by decide), State.passes_sourceCount _ _ (by decide)]
  exact ⟨level _, rfl, rfl, rfl, rfl⟩

theorem State.countOk_iff (s : State) (n : Nat) :
    s.countOk n = true ↔ if s.clk.aonLost then 6208 ≤ n ∧ n ≤ 6592 else 6016 ≤ n ∧ n ≤ 6784 := by
  unfold State.countOk
  split_ifs <;> simp

theorem State.locked_of_starts {s s' : State} (h : StartsUp s s') : s'.locked = s.locked := by
  have locks := h.clk
  have a := congrArg Clocks.lockA locks
  have d := congrArg Clocks.lockD locks
  exact congrArg₂ and a d

/-- Settles O58, by the equation of each event and by what the check of the sources and the stages of start-up leave. -/
theorem clockEvents : Obligations.ClockEvents := by
  intro s out near
  refine ⟨fun kept => ?_, .of_eq rfl (if_neg (by simp [out])) rfl, fun ref r0 r1 rdy => ?_, ?_, fun fell still sel ready => ?_,
    fun still => ?_, fun x slew => ?_, fun trim => ?_, fun trim => .of_eq rfl (if_neg (by simp [trim])) rfl, fun a pll stage => ?_⟩
  · exact .of_eq rfl (if_neg (by simp [out, kept])) ⟨rfl, rfl, State.powerIrq_bit _⟩
  · refine .of_eq rfl (if_neg (by simp [out])) ?_
    set z : State := { s with clk := { s.clk with refRdy := rdy } } with hz
    have iff (n : Nat) : z.countOk n = true ↔ near n := z.countOk_iff n
    obtain ⟨level, c, c0, c1, tro⟩ := z.srcReady_counted (rdy && z.countOk ref) (z.countOk r0) (z.countOk r1)
    refine ⟨level, c ▸ ?_, c0 ▸ ?_, c1 ▸ ?_, tro⟩ <;>
      simp only [Bool.and_eq_true, iff, decide_eq_true_eq, and_assoc] <;> rfl
  · refine .of_eq rfl (if_neg (by simp [out])) ?_
    set z : State := { s with clk := { s.clk with refRdy := false } }.sourceCount .refClk false with hz
    have gone : z.srcReady .refClk = false := State.srcReady_sourceCount _ _ _ _
    obtain ⟨_, _, _, _, _, h⟩ := z.sourceCheck_slews
    refine ⟨by rw [h]; rfl, by rw [State.srcReady_sourceCheck, gone], fun force still => ?_⟩
    exact z.sourceCheck_falls (by rw [show z.clk.inForce = s.clk.inForce from rfl, force]; decide) (by
      rw [show z.clk.inForce = s.clk.inForce from rfl, force, gone]) still
  · by_cases early : s.clk.readyTicks < 1000
    · exact .of_eq rfl (if_neg (by simp; omega)) (by rw [if_pos early])
    · refine .of_eq rfl (if_pos (by simp [fell, still, sel, ready]; omega)) ?_
      rw [if_neg early]
      exact ⟨if_neg sel, rfl⟩
  · exact .of_eq rfl (by rw [still]) rfl
  · refine .of_eq rfl (by rw [slew]) ?_
    obtain ⟨_, _, _, _, _, h⟩ := State.sourceCheck_slews { s with clk := { s.clk with inForce := x, slewTo := none } }
    exact congrArg (fun z : State => z.clk.inForce) h
  · refine .of_eq rfl (if_pos trim) ?_
    have up := State.stageGo_starts { s with
      clk := { s.clk with ready := SMap.put s.clk.ready false 0 true }, boot := { s.boot with troReady := true } }
    have ready := congrArg Clocks.ready up.clk
    have tro := congrArg Boot.troReady up.boot
    exact ⟨(congrArg (fun m => SMap.look m false 0) ready).trans (by simp [SMap.look_put]), tro⟩
  · refine .of_eq rfl ((if_neg (by simp [pll])).trans (if_pos stage)) ?_
    set z : State := { s with clk := { s.clk with lockA := s.clk.lockA || a, lockD := s.clk.lockD || !a } } with hz
    have up := z.stageGo_starts
    have lockA := congrArg Clocks.lockA up.clk
    have lockD := congrArg Clocks.lockD up.clk
    refine ⟨lockA, lockD, fun locked sound => ?_⟩
    rw [State.locked_of_starts up] at locked
    have pll : z.endPll.boot.stage = 4 := by
      rw [State.endPll, if_pos (by rw [locked, show z.boot = s.boot from rfl, stage, sound]; rfl)]
      obtain ⟨x, follows⟩ := (z.toStage 4).followSource_slews
      rw [follows]
      rfl
    rw [State.stageGo_pll (s := z) (by rw [stage])]
    exact pll.ge.trans ((State.endRail_starts _).stage.trans (State.endDomains_starts _).stage)

end Sys2Proof.Machine
end

/-! PROOFS. The power domains and the resets (spec/15 R357 to R373). -/

section
namespace Sys2Proof.Machine

/-! ### Switching domains -/

theorem getLsbD_domMask (ds : List Nat) (k : Nat) (h : k < 80) : (domMask ds).getLsbD k = decide (k ∈ ds) := by
  have fold (m : BitVec 80) : (ds.foldl (fun m d => m ||| BitVec.ofNat 80 (2 ^ d)) m).getLsbD k =
      (m.getLsbD k || decide (k ∈ ds)) := by
    induction ds generalizing m with
    | nil => simp
    | cons d r ih =>
      rw [List.foldl_cons, ih]
      simp only [BitVec.getLsbD_or, BitVec.getLsbD_ofNat, h, decide_true, Bool.true_and, Nat.testBit_two_pow, List.mem_cons,
        Bool.decide_or, Bool.or_assoc, eq_comm]
  simpa [domMask] using fold 0

@[simp] theorem State.batchGo_on (s : State) : s.batchGo.pwr.on = s.pwr.on := by
  obtain ⟨_, _, _, _, _, h⟩ := s.batchGo_batch
  rw [h]

theorem State.domOn_domainsOff (s : State) {ds : List Nat} {k : Nat} (h : k ∈ ds) : (s.domainsOff ds).domOn k = false := by
  unfold State.domOn State.domainsOff
  by_cases hk : k < 80
  · simp [getLsbD_domMask ds k hk, h]
  · exact BitVec.getLsbD_of_ge _ _ (by omega)

theorem mem_bandOrder {lats : List Nat} {l b : Nat} (hl : l ∈ lats) (hb : b < 8) : 8 * l + b ∈ bandOrder lats := by
  simp only [bandOrder, List.mem_flatMap, List.mem_range, List.mem_map]
  exact ⟨b, hb, l, hl, rfl⟩

/-! ### What a domain that comes on is initialised with -/

theorem State.linkTo_door (s : State) (l : Nat) (st : LinkState) : { s.linkTo l st with door := s.door, hinge := s.hinge } = s := rfl

theorem State.linkWait_door (s : State) (l : Nat) : { s.linkWait l with door := s.door, hinge := s.hinge } = s := rfl

theorem State.linkBack_door (s : State) (l : Nat) : { s.linkBack l with door := s.door, hinge := s.hinge } = s := by
  have back (c d : Bool) : { (if c then s else if d then (s.linkWait l).linkTo l .hello else s.linkWait l : State) with
      door := s.door, hinge := s.hinge } = s := by
    cases c <;> cases d
    · exact s.linkWait_door l
    · exact (congrArg (fun z : State => { z with door := s.door, hinge := s.hinge }) ((s.linkWait l).linkTo_door l .hello)).trans
        (s.linkWait_door l)
    · rfl
    · rfl
  exact back _ _

/-- Only the block of the domain is initialised. -/
theorem State.domainBack_rest (s : State) (d : Nat) :
    { s.domainBack d with eng := s.eng, er := s.er, door := s.door, hinge := s.hinge } = s := by
  unfold State.domainBack
  split_ifs
  · rfl
  · rfl
  · rfl
  · exact (congrArg (fun z : State => { z with eng := s.eng, er := s.er, door := s.door, hinge := s.hinge })
      (State.linkBack_door (s.linkBack 2) 3)).trans (congrArg (fun z : State => { z with eng := s.eng, er := s.er }) (s.linkBack_door 2))
  · exact (congrArg (fun z : State => { z with eng := s.eng, er := s.er, door := s.door, hinge := s.hinge })
      (State.linkBack_door (s.linkBack 4) 5)).trans (congrArg (fun z : State => { z with eng := s.eng, er := s.er }) (s.linkBack_door 4))
  · rfl

theorem State.domainBack_sill {s : State} {d : Nat} (lo : 56 ≤ d) (hi : d ≤ 59) : s.domainBack d = s.sillLost := by
  unfold State.domainBack
  rw [if_neg (by omega), if_pos (by simp [lo, hi])]

theorem State.domainBack_transom {s : State} {d : Nat} (h : d = 60 ∨ d = 61) : s.domainBack d = s.transomLost := by
  rcases h with rfl | rfl <;> rfl

/-! ### The clocks of the ranks (spec/04 R97) -/

theorem sorted_insertNat {x : Nat} {l : List Nat} (h : l.Pairwise (· < ·)) : (insertNat x l).Pairwise (· < ·) := by
  induction l with
  | nil => simp [insertNat]
  | cons y r ih =>
    obtain ⟨above, sorted⟩ := List.pairwise_cons.1 h
    unfold insertNat
    split_ifs with lt eq
    · exact List.pairwise_cons.2 ⟨by simpa [lt] using fun a ha => lt.trans (above a ha), h⟩
    · exact h
    · refine List.pairwise_cons.2 ⟨fun a ha => ?_, ih sorted⟩
      rcases mem_insertNat.1 ha with rfl | ha
      · omega
      · exact above a ha

theorem State.partLats_sorted (s : State) (p : Nat) : (s.partLats p).Pairwise (· < ·) := by
  have fold (hs : List (Nat × Nat)) (l : List Nat) (h : l.Pairwise (· < ·)) :
      (hs.foldl (fun l h => insertNat h.1 l) l).Pairwise (· < ·) := by
    induction hs generalizing l with
    | nil => exact h
    | cons h hs ih => exact ih _ (sorted_insertNat ‹_›)
  exact fold _ _ List.Pairwise.nil

/-- No two ranks share their cells. -/
theorem State.cellsOf_inj (s : State) (p : Nat) {i j : Nat} (hi : i < (s.partLats p).length) (hj : j < (s.partLats p).length)
    (h : s.cellsOf p i = s.cellsOf p j) : i = j := by
  unfold State.cellsOf at h
  split at h
  next half hh =>
    have one : (s.partLats p).length = 1 := by simp [State.partLats, hh, insertNat]
    omega
  · have nodup : (s.partLats p).Nodup := (s.partLats_sorted p).imp fun h => h.ne
    rw [List.getD_eq_getElem _ _ hi, List.getD_eq_getElem _ _ hj] at h
    exact (nodup.getElem_inj_iff).1 (by omega)

/-- The clock of each rank's cells stands as asked for. -/
theorem State.clockRanks_gated (s : State) (p : Nat) (stop : Nat → Bool) :
    (∀ r < (s.partLats p).length, ((s.clockRanks p stop).weightsAt (s.cellsOf p r)).gated = stop r) ∧
      { s.clockRanks p stop with eng := { (s.clockRanks p stop).eng with cells := s.eng.cells } } = s := by
  have go (n : Nat) (hn : n ≤ (s.partLats p).length) :
      ∃ cells, (List.range n).foldl (fun s rank => s.modCells (s.cellsOf p rank) fun c => { c with gated := stop rank }) s =
        { s with eng := { s.eng with cells := cells } } ∧
        ∀ r < n, (SMap.look cells Cells.init (s.cellsOf p r)).gated = stop r := by
    induction n with
    | zero => exact ⟨s.eng.cells, rfl, nofun⟩
    | succ n ih =>
      obtain ⟨cells, eq, gated⟩ := ih (by omega)
      rw [List.range_succ, List.foldl_append, eq]
      refine ⟨_, rfl, fun r hr => ?_⟩
      change (SMap.look (SMap.put cells Cells.init (s.cellsOf p n) _) Cells.init (s.cellsOf p r)).gated = stop r
      rw [SMap.look_put]
      split_ifs with same
      · rw [s.cellsOf_inj p (by omega) (by omega) same]
      · exact gated r (by rcases Nat.lt_succ_iff_lt_or_eq.1 hr with h | rfl; exacts [h, absurd rfl same])
  obtain ⟨cells, eq, gated⟩ := go _ le_rfl
  rw [State.clockRanks, eq]
  exact ⟨gated, rfl⟩

/-! ### The events of the domains -/

theorem State.domainFail_off (s : State) : s.domainFail.boot.pdFail = true ∧ s.domainFail.pwr.batch = [] ∧
    s.domainFail.pwr.starting = none ∧ s.domainFail.pwr.pdFail = s.pwr.pdFail ∧ s.domainFail.pwr.pdFailV = s.pwr.pdFailV ∧
    ∀ k, s.hinge.irqStat.getLsbD k = true → s.domainFail.hinge.irqStat.getLsbD k = true := by
  have logs := OnlyLogs.of_integrity ({ s with
    pwr := { s.pwr with
      batch := [], starting := none, on := s.pwr.on &&& ~~~(domMask s.pwr.batchOn), batchOn := [], pswReq := false }
    boot := { s.boot with pdFail := true } }) { eventOf mechDomain 6 with detail := none }
  have pwr : s.domainFail.pwr = { s.pwr with
      batch := [], starting := none, on := s.pwr.on &&& ~~~(domMask s.pwr.batchOn), batchOn := [], pswReq := false } :=
    congrArg State.pwr logs.rest
  have boot : s.domainFail.boot = { s.boot with pdFail := true } := congrArg State.boot logs.rest
  exact ⟨by rw [boot], by rw [pwr], by rw [pwr], by rw [pwr], by rw [pwr], fun k hk => State.integrity_irqStat _ _ k hk⟩

/-- The domain in progress is on, and the next of the batch starts. -/
def domainOn (s : State) (d : Nat) : State := State.batchGo { s with pwr := { s.pwr with
  on := s.pwr.on ||| domMask [d], starting := none, batchOn := s.pwr.batchOn ++ [d] } }

theorem domainOn_rest (s : State) (d : Nat) : { domainOn s d with pwr := s.pwr } = s := by
  obtain ⟨_, _, _, _, _, h⟩ := State.batchGo_batch { s with pwr := { s.pwr with
    on := s.pwr.on ||| domMask [d], starting := none, batchOn := s.pwr.batchOn ++ [d] } }
  rw [domainOn, h]

theorem domOn_domainOn (s : State) (d k : Nat) (h : k < 80) : (domainOn s d).domOn k = (s.domOn k || decide (k = d)) := by
  simp [State.domOn, domainOn, getLsbD_domMask _ _ h]

theorem domainOn_last (s : State) (d : Nat) (h : s.pwr.batch = []) :
    (domainOn s d).pwr.starting = none ∧ (domainOn s d).pwr.pswReq = false := by
  simp [domainOn, State.batchGo, h]

/-- Settles O60, by the equation of each event; what a domain brings back touches only its own block. -/
theorem powerDomains : Obligations.PowerDomains := by
  intro s
  refine ⟨fun d rest req still batch => ?grant, .of_eq rfl (if_neg (by simp)) rfl, fun d start ready => ?settled,
    fun d other => ⟨.of_eq rfl (if_neg other) rfl, .of_eq rfl (if_neg (by simp [other])) rfl⟩, fun d start late => ?timeout,
    fun u other busy => ?busy, fun q idle => ?gates, fun q busy => ?spare, fun c hc idle => ?units, fun c hc idle => ?engines,
    fun q => ⟨fun busy => .of_eq rfl (if_neg (by simp [busy])) rfl, fun f idle live det => ?det, fun f idle live det => ?off⟩⟩
  case grant =>
    exact .of_eq rfl ((if_pos (by simp [req])).trans (by simp [State.batchGo, still, batch]; rfl)) ⟨rfl, rfl, rfl, rfl⟩
  case settled =>
    have back := State.domainBack_rest (domainOn s d) d
    have pwr := congrArg State.pwr back
    have same := congrArg State.boot (domainOn_rest s d)
    have boot : ((domainOn s d).domainBack d).boot = s.boot := (congrArg State.boot back).trans same
    have domOn (k : Nat) (hk : k < 80) : ((domainOn s d).domainBack d).domOn k = (s.domOn k || decide (k = d)) :=
      (congrArg (fun p : Power => p.on.getLsbD k) pwr).trans (domOn_domainOn s d k hk)
    refine .of_eq rfl ((if_pos start).trans (State.stageGo_done (s := (domainOn s d).domainBack d) (by rw [boot, ready]; decide)))
      ⟨?_, fun k hk other => ?_, fun lo hi => ?_, fun h => ?_, fun last => ?_⟩
    · simp [domOn d d.isLt]
    · simp [domOn k hk, other]
    · rw [State.domainBack_sill lo hi]
      exact ⟨rfl, rfl, rfl, rfl⟩
    · rw [State.domainBack_transom h]
      exact ⟨rfl, rfl, rfl⟩
    · exact pwr ▸ domainOn_last s d last
  case timeout =>
    set z : State := State.powerIrq { s with pwr := { s.pwr with pdFail := BitVec.ofNat 7 d.val, pdFailV := true } } with hz
    have due : (decide (s.pwr.starting = some d.val) && decide (100 ≤ s.pwr.settleTicks)) = true := by simp [start, late]
    by_cases shutters : domShutters d = true
    · set w : State := State.batchGo { z with pwr := { z.pwr with starting := none, leftOff := z.pwr.leftOff ++ [d.val] } } with hw
      obtain ⟨_, _, _, _, _, batch⟩ :=
        State.batchGo_batch { z with pwr := { z.pwr with starting := none, leftOff := z.pwr.leftOff ++ [d.val] } }
      refine .of_eq rfl ((if_pos due).trans (if_pos shutters) : _ = w.stageGo) ?_
      have up := w.stageGo_starts
      have fail := congrArg Power.pdFail up.pwr
      have failV := congrArg Power.pdFailV up.pwr
      have left := congrArg Power.leftOff up.pwr
      have hinge := congrArg State.hinge up.rest
      dsimp only at fail failV left hinge
      rw [fail, failV, left, hinge, hw, batch]
      exact ⟨rfl, rfl, State.powerIrq_bit _, fun _ => rfl, fun no => absurd shutters (by simp [no])⟩
    · obtain ⟨failed, batch, start, fail, failV, irq⟩ := z.domainFail_off
      exact .of_eq rfl ((if_pos due).trans (if_neg shutters)) ⟨failV, fail, irq 11 (State.powerIrq_bit _),
        fun yes => absurd yes shutters, fun _ => ⟨failed, batch, start⟩⟩
  case busy =>
    refine .of_eq rfl (if_pos (by simp [busy])) ?_
    cases u with
    | partition q => exact absurd rfl (other q)
    | _ => rfl
  case gates =>
    obtain ⟨gated, rest⟩ := (s.modEngine q fun g => { g with gated := true }).clockRanks_gated q fun _ => true
    refine .of_eq rfl (if_neg (by simp [idle])) ⟨?_, gated, congrArg (fun z : State => { z with eng := s.eng }) rest⟩
    have engs := congrArg (fun z : State => SMap.look z.eng.engs Engine.init q) rest
    exact (congrArg Engine.gated engs).trans (by simp [State.modEngine, SMap.look_put])
  case spare =>
    refine .of_eq rfl (if_pos (by simp [busy])) ?_
    dsimp only
    unfold State.spareRanksOff
    split_ifs with none
    · exact ⟨rfl, fun some => absurd none (by simp [some])⟩
    · obtain ⟨gated, rest⟩ := s.clockRanks_gated q fun rank =>
        (s.weightsAt (s.cellsOf q rank)).gated || (s.runs q).all fun r => decide (s.rankRows r.2 rank = 0)
      exact ⟨rest, fun _ r hr rows => (gated r hr).trans (by simp only [Bool.or_eq_true, List.all_eq_true, decide_eq_true_eq]; exact .inr rows)⟩
  case units =>
    simp only [List.mem_cons, List.not_mem_nil, or_false] at hc
    rcases hc with rfl | rfl | rfl | rfl <;> exact .of_eq rfl (if_neg (by simp [idle])) rfl
  case engines =>
    simp only [List.mem_cons, List.not_mem_nil, or_false] at hc
    rcases hc with rfl | rfl <;>
      exact .of_eq rfl (if_neg (by simp [idle])) ⟨by simp [State.modEngine, State.engine, SMap.look_put], rfl⟩
  case det => exact .of_eq rfl (if_neg (by simp [live, det])) rfl
  case off =>
    refine .of_eq rfl (if_pos (by simp [live, det, idle])) fun l hl rest b hb => State.domOn_domainsOff _ (mem_bandOrder ?_ hb)
    exact List.mem_filter.2 ⟨hl, List.all_eq_true.2 rest⟩

/-! ### The resets (R372, R373) -/

theorem look_linksReset (s : State) {l : Nat} (h : l < 6) :
    SMap.look s.linksReset Link.init l = { Link.init with rdy := (s.link l).rdy } := by
  have put (l k : Nat) (m : SMap Link) (v : Link) : SMap.look (SMap.put m Link.init k v) Link.init l =
      if l = k then v else SMap.look m Link.init l := SMap.look_put ..
  have links : s.linksReset = (List.range 6).foldl (fun m l => SMap.put m Link.init l { Link.init with rdy := (s.link l).rdy }) [] :=
    rfl
  rw [links, show List.range 6 = [0, 1, 2, 3, 4, 5] from rfl]
  simp only [List.foldl_cons, List.foldl_nil, put]
  interval_cases l <;> rfl

@[simp] theorem State.seqGo_boot (s : State) : s.seqGo.boot = s.boot := by
  unfold State.seqGo State.voltUp
  dsimp only
  split_ifs <;> rfl

@[simp] theorem State.setRunPoint_boot (s : State) (n : Nat) : (s.setRunPoint n).boot = s.boot := by
  unfold State.setRunPoint State.setTarget
  dsimp only
  split_ifs
  · rfl
  · rw [State.seqGo_boot]

/-- Stage 3 asks for the domain of the loops. -/
theorem State.endOpen_asks {s : State} (stage : s.boot.stage = 2) (free : s.boot.coreRst = false) (hatch : s.lt.hatchActive = false)
    (still : s.pwr.starting = none) (batch : s.pwr.batch = []) (left : s.pwr.leftOff = []) (off : s.domOn 79 = false) :
    s.endOpen.pwr.pswReq = true ∧ s.endOpen.boot.stage = 3 ∧
      s.endOpen.pwr.starting = if s.pwr.pswGnt then some 79 else none := by
  have ask : s.endOpen = (s.toStage 3).batchAdd [79] := if_pos (by simp [stage, free, hatch])
  have off79 : (s.toStage 3).domOn 79 = false := off
  have need : (s.toStage 3).batchAdd [79] =
      { s.toStage 3 with pwr := { s.pwr with batch := [79], pswReq := true } }.batchGo := by
    have pwr : (s.toStage 3).pwr = s.pwr := rfl
    simp [State.batchAdd, off79, pwr, still, batch, left]
  rw [ask, need]
  cases grant : s.pwr.pswGnt <;> simp [State.batchGo, State.toStage, still, grant]

/-- The state that CORE_RST_N low leaves but for the watchdog, and with what Hatch's end sets in IRQ_STAT (R372). -/
def coreFalls (s : State) : State :=
  let s := { s with boot := { s.boot with coreRst := true } }
  let s := if s.lt.hatchActive then s.irqSet 12 else s
  { s with boot := { s.boot with cause := 1 } }.coreReset

theorem coreFalls_state (s : State) (n : Nat) :
    let s' := (coreFalls s).wdSet 0 n
    s'.boot.coreRst = true ∧ s'.boot.cause = 1 ∧ s'.boot.stage = min s.boot.stage 2 ∧ (∀ t, (s'.th t).state = .idle) ∧
      s'.frame.plane0.state = .empty ∧ s'.frame.plane1.state = .empty ∧ s'.pwr.on = 0 ∧ s'.clk.aclkOn = false ∧ s'.eng.spad = [] ∧
      s'.eng.sill = [] ∧ s'.eng.lanes = [] ∧ s'.sash.dmem = [] ∧ s'.pwr.shutLat = 0xFF ∧ s'.door.node = s.lt.applied.node ∧
      s'.lt.shadow = s.lt.shadow ∧ s'.int.log0 = s.int.log0 := by
  unfold coreFalls
  dsimp only
  cases s.lt.hatchActive <;>
    exact ⟨rfl, rfl, rfl, fun t => by cases t <;> rfl, rfl, rfl, rfl, rfl, rfl, rfl, rfl, rfl, rfl, rfl, rfl, rfl⟩

/-- Settles O57: each reset is one branch of its function, and the reset contents are those of the parts. -/
theorem resets : Obligations.Resets := by
  intro s
  have off (l : Nat) (hl : l < 6) : SMap.look s.linksReset Link.init l = { Link.init with rdy := (s.link l).rdy } :=
    look_linksReset s hl
  refine ⟨⟨_, rfl, rfl, rfl, rfl, rfl, rfl, rfl, rfl, rfl, ?_, ?_, rfl, rfl, rfl, rfl⟩, fun low => .of_eq rfl (if_pos low) ⟨rfl, rfl, rfl⟩,
    fun high => ?core, fun out stage hatch still batch left off locks => ?release, fun stage => ?init,
    fun stage => .of_eq rfl (if_neg stage) rfl⟩
  · exact fun t => by cases t <;> rfl
  · intro l hl
    have link : s.aonReset.link l = { Link.init with rdy := (s.link l).rdy } := off l hl
    rw [link]
    exact ⟨rfl, rfl⟩
  case core =>
    exact .of_eq rfl (if_neg (by simp [high])) (coreFalls_state s _)
  case release =>
    set z : State := { s with boot := { s.boot with coreRst := false } } with hz
    have locked : z.locked = false := locks
    obtain ⟨req, three, start⟩ := State.endOpen_asks (s := z) stage rfl hatch still batch left off
    have waits : z.endOpen.endPll = z.endOpen := if_neg (by
      have same := State.locked_of_starts z.endOpen_starts
      simp [same, locked])
    have go : z.stageGo = z.endOpen := by
      rw [State.stageGo, State.endAon_stays (s := z) (by rw [stage]; decide), waits, State.endRail_stays (by rw [three]; decide),
        State.endDomains_stays (by rw [three]; decide)]
    have boot := congrArg Boot.coreRst z.endOpen_starts.boot
    exact .of_eq rfl ((if_neg (by simp [out])).trans go) ⟨boot, three, req, start⟩
  case init =>
    exact .of_eq rfl (if_pos stage) (by rw [State.setRunPoint_boot]; rfl)

end Sys2Proof.Machine
end

/-! PROOFS. The host port (spec/14 R335 to R337): a request of a ready port is answered, and a write of a register does what its
table says. -/

section
namespace Sys2Proof.Machine

/-! ### Requests and answers -/

/-- A request brings the level that HG_RSP_READY has from now on. -/
def State.hinged (s : State) (h : HgMeta) : State := { s with hinge := { s.hinge with rspReady := h.ready } }

theorem State.hgFlush_none {s : State} (h : s.hinge.waiting = []) : s.hgFlush = s := by
  unfold State.hgFlush
  cases level : s.hinge.rspReady <;> simp [h, level]

theorem State.hgFlush_held {s : State} (h : s.hinge.rspReady = false) : s.hgFlush = s := by
  unfold State.hgFlush
  simp [h]

/-- A response with no other before it is all that an answer adds (R335). -/
theorem State.hgQueue_answers {s : State} {h : HgMeta} (alone : s.hinge.waiting = []) (ready : s.hinge.rspReady = h.ready) (v : Word)
    (code : BitVec 2) : ∃ w a, s.hgQueue h v code true = { s with hinge := { s.hinge with waiting := w, answered := a } } ∧
      if h.ready then a = [{ id := h.id, rdata := v, code := code, done := true }] ∧ w = []
      else a = s.hinge.answered ∧ w = [{ id := h.id, rdata := v, code := code, done := true }] := by
  unfold State.hgQueue State.hgFlush
  cases level : h.ready
  · simp only [alone, ready, level, List.nil_append]
    exact ⟨_, _, rfl, rfl, rfl⟩
  · simp only [alone, ready, level, List.nil_append, List.takeWhile_cons, List.takeWhile_nil, List.dropWhile_cons, List.dropWhile_nil]
    exact ⟨_, _, rfl, rfl, rfl⟩

/-- What counting an answer may change: HG_STAT (R344). -/
theorem State.hgCount_stat (s : State) (code : BitVec 2) : ∃ off denied dec pend, s.hgCount code = { s with hinge := { s.hinge with
    off := off, denied := denied, decErr := dec, pend := pend } } := by
  unfold State.hgCount State.hgDenied
  dsimp only
  split <;> exact ⟨_, _, _, _, rfl⟩

/-- An answer changes the order of the responses and HG_STAT only. -/
theorem State.hgRsp_answers {s : State} {h : HgMeta} (alone : s.hinge.waiting = []) (ready : s.hinge.rspReady = h.ready) (v : Word)
    (code : BitVec 2) : ∃ w a, s.hgRsp h v code = { s.hgCount code with hinge := { (s.hgCount code).hinge with
      waiting := w, answered := a } } ∧ Answers h code v s (s.hgRsp h v code) := by
  obtain ⟨off, denied, dec, pend, count⟩ := s.hgCount_stat code
  have alone' : (s.hgCount code).hinge.waiting = [] := by rw [count]; exact alone
  have ready' : (s.hgCount code).hinge.rspReady = h.ready := by rw [count]; exact ready
  obtain ⟨w, a, eq, out⟩ := State.hgQueue_answers alone' ready' v code
  refine ⟨w, a, eq, ?_⟩
  have kept : (s.hgCount code).hinge.answered = s.hinge.answered := by rw [count]
  rw [State.hgRsp, eq]
  unfold Answers
  rw [kept] at out
  exact out

/-- The state `z` of a request has been answered: the response is what `s` says of the responses before it. -/
structure Responds (h : HgMeta) (code : BitVec 2) (v : Word) (s z s' : State) : Prop where
  answers : Answers h code v s s'
  rest : { s' with hinge := z.hinge } = z
  hinge : { s'.hinge with
    waiting := z.hinge.waiting, answered := z.hinge.answered, off := z.hinge.off, denied := z.hinge.denied, decErr := z.hinge.decErr
    pend := z.hinge.pend } = z.hinge
  dec : code = 3 → s'.hinge.decErr = satInc 16 z.hinge.decErr ∧ s'.hinge.pend = true
  off : code = 1 → s'.hinge.off = satInc 16 z.hinge.off

theorem Responds.of_hgRsp {s z : State} {h : HgMeta} (alone : z.hinge.waiting = []) (ready : z.hinge.rspReady = h.ready)
    (before : z.hinge.answered = s.hinge.answered) (v : Word) (code : BitVec 2) : Responds h code v s z (z.hgRsp h v code) := by
  obtain ⟨w, a, eq, out⟩ := State.hgRsp_answers alone ready v code
  have out' : Answers h code v s (z.hgRsp h v code) := by
    unfold Answers at out ⊢
    rw [← before]
    exact out
  obtain ⟨off, denied, dec, pend, count⟩ := z.hgCount_stat code
  refine ⟨out', ?_, ?_, ?_, ?_⟩
  · rw [eq, count]
  · rw [eq, count]
  · rintro rfl
    rw [eq]
    exact ⟨rfl, rfl⟩
  · rintro rfl
    rw [eq]
    rfl

/-! ### Which request is performed (R336) -/

section
variable {s : State} {h : HgMeta} {off : Nat} {data : Option Word}

/-- A port that is not ready takes nothing but the level of HG_RSP_READY. -/
theorem State.hgRequest_unready (flush : (s.hinged h).hgFlush = s.hinged h) (ready : s.hgReady = false) :
    s.hgRequest h off data = s.hinged h := by
  unfold State.hgRequest
  dsimp only
  rw [← State.hinged, flush]
  exact if_pos (by rw [show (s.hinged h).hgReady = s.hgReady from rfl, ready]; rfl)

variable (alone : s.hinge.waiting = []) (ready : s.hgReady = true)
include alone ready

theorem State.hgRequest_alone : s.hgRequest h off data =
    if h.bcast && data.isNone then (s.hinged h).hgRsp h 0 hgDecErr
    else if s.hgOutside h then (s.hinged h).hgRsp h 0 hgOk
    else match hregOf off with
      | none => (s.hinged h).hgRsp h 0 hgDecErr
      | some r =>
        match s.regShut r with
        | some code => (((s.hinged h).regWake r).shutAccess code 1).hgRsp h 0 hgOk
        | none =>
          if s.regOff r then ((s.hinged h).regWake r).hgRsp h 0 hgOff
          else match data with
            | none => ((s.hinged h).regWake r).hgRsp h (((s.hinged h).regWake r).regRead r) hgOk
            | some d => ((s.hinged h).regWake r).hgWrite h r d := by
  unfold State.hgRequest
  dsimp only
  rw [← State.hinged, State.hgFlush_none (s := s.hinged h) alone, show (s.hinged h).hgReady = s.hgReady from rfl, ready]
  simp only [Bool.not_true, Bool.false_eq_true, if_false, State.regShut_regWake, State.regOff_regWake]
  rfl

end

/-! ### Waking a parked core -/

theorem State.regWake_pwr (s : State) (r : HReg) : ∃ p, s.regWake r = { s with pwr := p } := by
  unfold State.regWake State.wakeAsk
  split
  · split_ifs
    · exact ⟨_, rfl⟩
    · exact ⟨s.pwr, rfl⟩
    · exact ⟨s.pwr, rfl⟩
  · exact ⟨s.pwr, rfl⟩

theorem State.regWake_hinged (s : State) (h : HgMeta) (r : HReg) : (s.hinged h).regWake r = (s.regWake r).hinged h := by
  have ask : (s.hinged h).wakeAsk = s.wakeAsk.hinged h := by
    unfold State.wakeAsk
    rw [apply_ite (fun z : State => z.hinged h)]
    rfl
  unfold State.regWake
  split
  · rw [ask]
    rw [apply_ite (fun z : State => z.hinged h)]
  · rfl

theorem State.regRead_hinged (s : State) (h : HgMeta) (r : HReg) : (s.hinged h).regRead r = s.regRead r := by
  cases r <;> rfl

section
variable {s : State} {h : HgMeta}

/-- The answer of a state that has only changed outside the host port since the request. -/
theorem Responds.of_hinged (alone : s.hinge.waiting = []) {z : State} (same : z.hinge = (s.hinged h).hinge) (v : Word) (code : BitVec 2) :
    Responds h code v s z (z.hgRsp h v code) :=
  .of_hgRsp (by rw [same]; exact alone) (by rw [same]; rfl) (by rw [same]; rfl) v code

theorem Responds.irq {code : BitVec 2} {v : Word} {z s' : State} (r : Responds h code v s z s') :
    s'.hinge.irqEn = z.hinge.irqEn ∧ s'.hinge.irqStat = z.hinge.irqStat := by
  have en := congrArg Hinge.irqEn r.hinge
  have stat := congrArg Hinge.irqStat r.hinge
  exact ⟨en, stat⟩

theorem Responds.only {code : BitVec 2} {v : Word} {z s' : State} (r : Responds h code v s z s') (same : { z with hinge := s.hinge } = s) :
    { s' with hinge := s.hinge } = s := (congrArg (fun z : State => { z with hinge := s.hinge }) r.rest).trans same

theorem Responds.onlyWakes {code : BitVec 2} {v : Word} {z s' : State} (r : Responds h code v s z s')
    (same : { z with hinge := s.hinge, pwr := s.pwr } = s) : { s' with hinge := s.hinge, pwr := s.pwr } = s :=
  (congrArg (fun z : State => { z with hinge := s.hinge, pwr := s.pwr }) r.rest).trans same

theorem State.regWake_rest (s : State) (h : HgMeta) (r : HReg) :
    { (s.hinged h).regWake r with hinge := s.hinge, pwr := s.pwr } = s ∧ ((s.hinged h).regWake r).hinge = (s.hinged h).hinge := by
  obtain ⟨p, wake⟩ := (s.hinged h).regWake_pwr r
  rw [wake]
  exact ⟨rfl, rfl⟩

end

/-- Settles O49: each row of R336 is one branch of the request, and an answer adds only the response. -/
theorem hostAnswers : Obligations.HostAnswers := by
  intro s h off data read write only refuses
  refine ⟨fun full low c hc => ?full, fun alone => ⟨fun closed c hc => ?closed, fun ready => ?_⟩⟩
  case full =>
    have unready : s.hgReady = false := by simp [State.hgReady, full]
    have held (d : Option Word) := State.hgRequest_unready (h := h) (off := off.toNat) (data := d) (State.hgFlush_held (s := s.hinged h) low) unready
    simp only [List.mem_cons, List.not_mem_nil, or_false] at hc
    rcases hc with rfl | rfl <;> exact .of_eq rfl (held _) rfl
  case closed =>
    have held (d : Option Word) := State.hgRequest_unready (h := h) (off := off.toNat) (data := d) (State.hgFlush_none (s := s.hinged h) alone) closed
    simp only [List.mem_cons, List.not_mem_nil, or_false] at hc
    rcases hc with rfl | rfl <;> exact .of_eq rfl (held _) rfl
  have run (d : Option Word) := State.hgRequest_alone (h := h) (off := off.toNat) (data := d) alone ready
  have inside (one : h.bcast = false) : s.hgOutside h = false := by simp [State.hgOutside, one]
  refine ⟨fun bcast => ?bcast, fun outside => ?outside, fun one unmapped c hc => ?unmapped, fun one r b reg shut c hc => ?shut,
    fun one r reg open' => ?mapped⟩
  case bcast =>
    have out := Responds.of_hinged (h := h) alone (z := s.hinged h) rfl 0 3
    exact .of_eq rfl ((run none).trans (if_pos (by simp [bcast]))) ⟨out.answers, out.only rfl, (out.dec rfl).1⟩
  case outside =>
    have out := Responds.of_hinged (h := h) alone (z := s.hinged h) rfl 0 0
    exact .of_eq rfl ((run (some data)).trans ((if_neg (by simp)).trans (if_pos outside))) ⟨out.answers, out.only rfl⟩
  case unmapped =>
    have out := Responds.of_hinged (h := h) alone (z := s.hinged h) rfl 0 3
    have eval (d : Option Word) : s.hgRequest h off.toNat d = (s.hinged h).hgRsp h 0 3 := by
      rw [run, if_neg (by simp [one]), if_neg (by simp [inside one]), unmapped]
      rfl
    simp only [List.mem_cons, List.not_mem_nil, or_false] at hc
    rcases hc with rfl | rfl <;> exact .of_eq rfl (eval _) ⟨out.answers, out.only rfl, out.dec rfl⟩
  case shut =>
    obtain ⟨p, wake⟩ := (s.hinged h).regWake_pwr r
    have out := Responds.of_hinged (h := h) alone (z := ((s.hinged h).regWake r).shutAccess b 1) (by rw [wake]; rfl) 0 0
    have eval (d : Option Word) : s.hgRequest h off.toNat d = (((s.hinged h).regWake r).shutAccess b 1).hgRsp h 0 0 := by
      rw [run, if_neg (by simp [one]), if_neg (by simp [inside one]), reg]
      simp only [shut]
      rfl
    have counted : (((s.hinged h).regWake r).shutAccess b 1).int = { s.int with
        shutCount := satAdd 32 s.int.shutCount 1, shutBlock := BitVec.ofNat 4 b, shutPend := true } := by rw [wake]; rfl
    have only : { ((s.hinged h).regWake r).shutAccess b 1 with hinge := s.hinge, pwr := s.pwr, int := s.int } = s := by rw [wake]; rfl
    have kept := congrArg State.int out.rest
    have int := kept.trans counted
    have rest := (congrArg (fun z : State => { z with hinge := s.hinge, pwr := s.pwr, int := s.int }) out.rest).trans only
    dsimp only at int
    simp only [List.mem_cons, List.not_mem_nil, or_false] at hc
    rcases hc with rfl | rfl <;> exact .of_eq rfl (eval _) ⟨out.answers, by rw [int], by rw [int], by rw [int], rest⟩
  case mapped =>
    obtain ⟨wakes, level⟩ := s.regWake_rest h r
    have eval (d : Option Word) : s.hgRequest h off.toNat d = if s.regOff r then ((s.hinged h).regWake r).hgRsp h 0 hgOff
        else match d with
          | none => ((s.hinged h).regWake r).hgRsp h (((s.hinged h).regWake r).regRead r) hgOk
          | some d => ((s.hinged h).regWake r).hgWrite h r d := by
      rw [run, if_neg (by simp [one]), if_neg (by simp [inside one]), reg]
      simp only [open']
    refine ⟨fun off c hc => ?off, fun on => ?read, fun on hr => ?irqEn, fun on hr => ?irqStat, fun on hr => ?intStat⟩
    case off =>
      have out := Responds.of_hinged (h := h) alone level 0 1
      simp only [List.mem_cons, List.not_mem_nil, or_false] at hc
      rcases hc with rfl | rfl <;>
        exact .of_eq rfl ((eval _).trans (if_pos off)) ⟨out.answers, (out.off rfl).trans (by rw [level]; rfl), out.onlyWakes wakes⟩
    case read =>
      have out := Responds.of_hinged (h := h) alone level ((s.regWake r).regRead r) 0
      refine .of_eq rfl ((eval _).trans ((if_neg (by simp [on])).trans ?_)) ⟨out.answers, out.onlyWakes wakes⟩
      rw [State.regWake_hinged, State.regRead_hinged]
      rfl
    all_goals subst hr; have eval := (eval (some data)).trans (if_neg (by simp [on]))
    case irqEn =>
      have out := Responds.of_hgRsp (s := s) (z := (s.hinged h).regWrite .irqEn data) alone rfl rfl 0 0
      exact .of_eq rfl eval ⟨out.answers, out.irq⟩
    case irqStat =>
      have out := Responds.of_hgRsp (s := s) (z := (s.hinged h).regWrite .irqStat data) alone rfl rfl 0 0
      exact .of_eq rfl eval ⟨out.answers, out.irq.2, out.irq.1⟩
    case intStat =>
      have out := Responds.of_hgRsp (s := s) (z := (s.hinged h).regWrite .intStat data) alone rfl rfl 0 0
      have stat := congrArg (fun z : State => z.int.stat) out.rest
      exact .of_eq rfl eval ⟨out.answers, stat⟩

/-! ### The fields of a written word -/

theorem getLsbD_pack_cons (lo len v : Nat) (r : List (Nat × Nat × Nat)) (i : Nat) : (pack ((lo, len, v) :: r)).getLsbD i =
    ((decide (i < 64) && decide (lo ≤ i) && decide (i < lo + len) && v.testBit (i - lo)) || (pack r).getLsbD i) := by
  rw [pack, BitVec.getLsbD_or, getLsbD_fld]

theorem getLsbD_wfld (d : Word) (lo w i : Nat) : (wfld d lo w).getLsbD i = (decide (i < w) && d.getLsbD (lo + i)) := by
  rw [wfld, BitVec.getLsbD_extractLsb']

theorem wfld_pack_here {lo len v : Nat} {r : List (Nat × Nat × Nat)} (fits : lo + len ≤ 64) :
    wfld (pack ((lo, len, v) :: r)) lo len = BitVec.ofNat len v ||| wfld (pack r) lo len := by
  refine BitVec.eq_of_getLsbD_eq fun i hi => ?_
  rw [BitVec.getLsbD_or, getLsbD_wfld, getLsbD_wfld, getLsbD_pack_cons, BitVec.getLsbD_ofNat]
  simp [hi, show lo + i < 64 by omega]

theorem wfld_pack_skip {lo' len' lo len v : Nat} {r : List (Nat × Nat × Nat)} (apart : lo' + len' ≤ lo ∨ lo + len ≤ lo') :
    wfld (pack ((lo', len', v) :: r)) lo len = wfld (pack r) lo len := by
  refine BitVec.eq_of_getLsbD_eq fun i hi => ?_
  rw [getLsbD_wfld, getLsbD_wfld, getLsbD_pack_cons]
  rcases apart with below | above
  · simp [show ¬lo + i < lo' + len' by omega]
  · simp [show ¬lo' ≤ lo + i by omega]

theorem wfld_pack_nil (lo len : Nat) : wfld (pack []) lo len = 0#len := by
  simp [wfld, pack]

theorem bit_pack_here {i v : Nat} {r : List (Nat × Nat × Nat)} (fits : i < 64) :
    (pack ((i, 1, v) :: r)).getLsbD i = (decide (v % 2 = 1) || (pack r).getLsbD i) := by
  rw [getLsbD_pack_cons]
  simp [fits, Nat.testBit_zero]

theorem bit_pack_skip {i lo len v : Nat} {r : List (Nat × Nat × Nat)} (apart : i < lo ∨ lo + len ≤ i) :
    (pack ((lo, len, v) :: r)).getLsbD i = (pack r).getLsbD i := by
  rw [getLsbD_pack_cons]
  rcases apart with below | above
  · simp [show ¬lo ≤ i by omega]
  · simp [show ¬i < lo + len by omega]

theorem bit_pack_nil (i : Nat) : (pack []).getLsbD i = false := by
  simp [pack]

/-! ### The rows that are one write (R335, R369) -/

theorem State.hgFlush_hinge (s : State) : ∃ w a, s.hgFlush = { s with hinge := { s.hinge with waiting := w, answered := a } } ∧
    w.length ≤ s.hinge.waiting.length := by
  unfold State.hgFlush
  dsimp only
  split
  · exact ⟨_, _, rfl, le_rfl⟩
  · exact ⟨_, _, rfl, le_rfl⟩
  · exact ⟨_, _, rfl, List.Sublist.length_le (List.dropWhile_sublist _)⟩

/-- A row that writes one register of the port does what the register's table does with the word (R336). -/
theorem Completes.hostWrite {s : State} {h : HgMeta} {c : Instr} {r : HReg} {off : Nat} {d : Word} {g : State → State}
    (run : exec c s = .next (s.hgRequest h off (some d))) (reg : hregOf off = some r)
    (writes : ∀ z : State, z.hgWrite h r d = (g z).hgRsp h 0 0) (ready : s.hgReady = true) (one : h.bcast = false)
    (shut : s.regShut r = none) (on : s.regOff r = false) :
    Completes c s fun s' => s' = (g ((s.hinged h).hgFlush.regWake r)).hgRsp h 0 0 := by
  obtain ⟨w, a, eq, shorter⟩ := (s.hinged h).hgFlush_hinge
  have ready' : (s.hinged h).hgFlush.hgReady = true := by
    rw [eq]
    simp only [State.hgReady, Bool.and_eq_true, decide_eq_true_eq] at ready ⊢
    exact ⟨ready.1, lt_of_le_of_lt shorter ready.2⟩
  have shut' : (s.hinged h).hgFlush.regShut r = none := by rw [eq]; exact shut
  have on' : (s.hinged h).hgFlush.regOff r = false := by rw [eq]; exact on
  exact .of_eq run ((State.hgRequest_write rfl ready' one reg shut' on').trans (writes _)) rfl

theorem w1c_eq {w : Nat} (x : BitVec w) (d : Word) (lo : Nat) : w1c x d lo = x &&& ~~~wfld d lo w := rfl

theorem State.sashCtl_stop (s : State) (t : Thread) :
    s.sashCtl false false (wfld (pack [(2 + Thread.num t, 1, 1)]) 2 4) = s.stopAtBoundary t := by
  cases t <;> rfl

theorem sourceOf_srcNum (x : Source) : sourceOf (BitVec.ofNat 2 (srcNum x)).toNat = x := by
  cases x <;> rfl

/-- Settles O50: each row is the write of one register, whose table gives the register's unit the operands. -/
theorem hostCommands_answered : Obligations.HostCommands := by
  intro s h t slot handle index k word q len wait sill transom near far link x v epoch src mask ready one c hc shut on
  have bit : slot.val % 2 = slot.val := Nat.mod_eq_of_lt slot.isLt
  have bank : b2n (decide (slot.val = 1)) = slot.val := by fin_cases slot <;> rfl
  have flag (b : Bool) : decide (b2n b % 2 = 1) = b := by cases b <;> rfl
  simp only [hostCommands, List.mem_cons, List.not_mem_nil, or_false] at hc
  rcases hc with rfl | rfl | rfl | rfl | rfl | rfl | rfl | rfl | rfl | rfl | rfl | rfl | rfl | rfl | rfl | rfl | rfl | rfl | rfl |
    rfl | rfl | rfl | rfl | rfl | rfl <;> refine .hostWrite rfl rfl (fun z => ?_) ready one shut on
  all_goals
    simp only [State.hgWrite, State.regWrite, State.writeEngine, State.writeControl, State.writePort, State.writeSystem]
    simp (disch := omega) only [w1cBit, w1c_eq, wfld_pack_here, wfld_pack_skip, wfld_pack_nil, bit_pack_here, bit_pack_skip,
      bit_pack_nil, bit, bank, bitAt, flag, State.sashCtl_stop, sourceOf_srcNum, BitVec.ofNat_toNat, BitVec.setWidth_eq,
      BitVec.or_zero, Bool.or_false, Bool.not_false, Bool.and_true, decide_true]
    rfl

end Sys2Proof.Machine
end

/-! PROOFS. The links of the Doorway (spec/13 R308 to R322): what a link discards when it leaves UP, discovery, forced resets and
re-points. -/

section
namespace Sys2Proof.Machine

/-! ### One link and the others -/

theorem State.link_modLink (s : State) (l : Nat) (g : Link → Link) (m : Nat) :
    (s.modLink l g).link m = if m = l then g (s.link l) else s.link m := SMap.look_put ..

@[simp] theorem State.link_modLink_same (s : State) (l : Nat) (g : Link → Link) : (s.modLink l g).link l = g (s.link l) := by
  rw [State.link_modLink, if_pos rfl]

theorem State.link_modLink_ne {s : State} {l m : Nat} (h : m ≠ l) (g : Link → Link) : (s.modLink l g).link m = s.link m := by
  rw [State.link_modLink, if_neg h]

theorem State.link_linkTo (s : State) (l : Nat) (st : LinkState) (m : Nat) :
    (s.linkTo l st).link m = if m = l then { s.link l with state := st, en := st.en, ticks := 0 } else s.link m :=
  s.link_modLink l (fun k => { k with state := st, en := st.en, ticks := 0 }) m

/-! ### What a discard leaves as it is (R302, R320, R321) -/

/-- What the discard of packets, tags, signals and reductions leaves as it is: links keep all but what waits on them and what they
grant, a link that is not UP gets nothing to send, and what is discarded does not come back. -/
structure Sheds (s s' : State) : Prop where
  rest : { s' with door := s.door, eng := s.eng, latch := s.latch, fresh := s.fresh } = s
  eng : { s'.eng with
    spad := s.eng.spad, sill := s.eng.sill, sillSet := s.eng.sillSet, lanes := s.eng.lanes, engs := s.eng.engs } = s.eng
  door : { s'.door with
    links := s.door.links, tags := s.door.tags, sinks := s.door.sinks, reds := s.door.reds, swept := s.door.swept } = s.door
  latch : { s'.latch with pending := s.latch.pending, tallies := s.latch.tallies, lostlink := s.latch.lostlink } = s.latch
  tags : s'.door.tags ⊆ s.door.tags
  sinks : s'.door.sinks ⊆ s.door.sinks
  pending : s'.latch.pending ⊆ s.latch.pending
  link : ∀ m, { s'.link m with ready := (s.link m).ready, freed := (s.link m).freed, sigHeld := (s.link m).sigHeld } = s.link m
  ready : ∀ m, (s.link m).state ≠ .up → (s'.link m).ready ⊆ (s.link m).ready

namespace Sheds

theorem refl (s : State) : Sheds s s :=
  ⟨rfl, rfl, rfl, rfl, fun _ h => h, fun _ h => h, fun _ h => h, fun _ => rfl, fun _ _ _ h => h⟩

theorem state {s s' : State} (h : Sheds s s') (m : Nat) : (s'.link m).state = (s.link m).state := by
  have same := congrArg Link.state (h.link m)
  exact same

theorem faults {s s' : State} (h : Sheds s s') : s'.door.faultPend = s.door.faultPend ∧ s'.door.faultLink = s.door.faultLink ∧
    s'.door.resets = s.door.resets := by
  have pend := congrArg Doorway.faultPend h.door
  have link := congrArg Doorway.faultLink h.door
  have resets := congrArg Doorway.resets h.door
  exact ⟨pend, link, resets⟩

theorem trans {a b c : State} (h : Sheds a b) (k : Sheds b c) : Sheds a c where
  rest := (congrArg (fun z : State => { z with door := a.door, eng := a.eng, latch := a.latch, fresh := a.fresh }) k.rest).trans h.rest
  eng := (congrArg (fun z : Engines => { z with
    spad := a.eng.spad, sill := a.eng.sill, sillSet := a.eng.sillSet, lanes := a.eng.lanes, engs := a.eng.engs }) k.eng).trans h.eng
  door := (congrArg (fun z : Doorway => { z with
    links := a.door.links, tags := a.door.tags, sinks := a.door.sinks, reds := a.door.reds, swept := a.door.swept }) k.door).trans h.door
  latch := (congrArg (fun z : LatchUnit => { z with
    pending := a.latch.pending, tallies := a.latch.tallies, lostlink := a.latch.lostlink }) k.latch).trans h.latch
  tags _ hx := h.tags (k.tags hx)
  sinks _ hx := h.sinks (k.sinks hx)
  pending _ hx := h.pending (k.pending hx)
  link m := (congrArg (fun z : Link => { z with
    ready := (a.link m).ready, freed := (a.link m).freed, sigHeld := (a.link m).sigHeld }) (k.link m)).trans (h.link m)
  ready m down _ hx := h.ready m down (k.ready m (by rw [h.state]; exact down) hx)

theorem foldl {α : Type} {f : State → α → State} (step : ∀ s a, Sheds s (f s a)) (l : List α) (s : State) : Sheds s (l.foldl f s) := by
  induction l generalizing s with
  | nil => exact refl s
  | cons a as ih => exact (step s a).trans (ih _)

theorem ite {s a b : State} (c : Prop) [Decidable c] (ha : Sheds s a) (hb : Sheds s b) : Sheds s (if c then a else b) := by
  split
  · exact ha
  · exact hb

theorem modEntry (s : State) (uid : Nat) (g : Entry → Entry) : Sheds s (s.modEntry uid g) := { refl s with }

theorem modEngine (s : State) (q : Nat) (g : Engine → Engine) : Sheds s (s.modEngine q g) := { refl s with }

theorem modLink (s : State) (l : Nat) {g : Link → Link}
    (link : ∀ k, { g k with ready := k.ready, freed := k.freed, sigHeld := k.sigHeld } = k) (ready : ∀ k, (g k).ready ⊆ k.ready) :
    Sheds s (s.modLink l g) where
  rest := rfl
  eng := rfl
  door := rfl
  latch := rfl
  tags _ h := h
  sinks _ h := h
  pending _ h := h
  link m := by
    rw [State.link_modLink]
    split
    next same => subst same; exact link _
    · rfl
  ready m _ := by
    rw [State.link_modLink]
    split
    next same => subst same; exact ready _
    · exact fun _ h => h

theorem freeBuffer (s : State) (l c : Nat) : Sheds s (s.freeBuffer l c) := modLink s l (fun _ => rfl) (fun _ _ h => h)

theorem modSigHeld (s : State) (l : Nat) (g : Nat → Nat) : Sheds s (s.modLink l fun k => { k with sigHeld := g k.sigHeld }) :=
  modLink s l (fun _ => rfl) (fun _ _ h => h)

theorem filterReady (s : State) (l : Nat) (p : TxItem → Bool) : Sheds s (s.modLink l fun k => { k with ready := k.ready.filter p }) :=
  modLink s l (fun _ => rfl) (fun _ => List.filter_subset_self _)

theorem freeSig (s : State) (l : Nat) : Sheds s (s.freeSig l) := by
  unfold State.freeSig
  exact ite _ ((modSigHeld s l (· + 1)).trans ((modSigHeld _ l (· - 1)).trans (freeBuffer _ _ _))) (modSigHeld s l (· + 1))

theorem sigExtend (s : State) (l : Nat) : Sheds s (s.sigExtend l) := by
  unfold State.sigExtend
  exact ite _ ((modSigHeld s l (· - 1)).trans (freeBuffer _ _ _)) (refl s)

theorem sigRelease (s : State) : Sheds s s.sigRelease :=
  foldl (fun _ _ => foldl (fun _ _ => sigExtend _ _) _ _) _ _

theorem bufferFree (s : State) (l c : Nat) : Sheds s (s.bufferFree l c) := ite _ (freeSig s l) (freeBuffer s l c)

/-- Packets put on an UP link. -/
theorem txAdd {s : State} {l : Nat} (up : (s.link l).state = .up) (xs : List TxItem) : Sheds s (s.txAdd l xs) where
  rest := rfl
  eng := rfl
  door := rfl
  latch := rfl
  tags _ h := h
  sinks _ h := h
  pending _ h := h
  link m := by
    rw [State.txAdd, State.link_modLink]
    split
    next same => subst same; rfl
    · rfl
  ready m down := by
    rw [State.txAdd, State.link_modLink_ne (by rintro rfl; exact down up)]
    exact fun _ h => h

theorem answer (s : State) (l : Nat) (p : Packet) (kind : Nat) (err held : Bool) (payload : List Byte) :
    Sheds s (s.answer l p kind err held payload) := by
  unfold State.answer
  split
  next up => exact txAdd (of_decide_eq_true up) _
  · exact refl s

theorem dropAnswer (s : State) (l : Nat) (p : Packet) : Sheds s (s.dropAnswer l p) := ite _ (refl s) (answer s l p 0 true false [])

theorem remoteFail (s : State) (uid n : Nat) : Sheds s (s.remoteFail uid n) := modEntry s uid _

theorem lostPacket (s : State) (l : Nat) (x : TxItem) : Sheds s (s.lostPacket l x) := by
  unfold State.lostPacket
  split
  · exact remoteFail _ _ _
  · exact (dropAnswer s _ _).trans (bufferFree _ _ _)
  · exact (dropAnswer s _ _).trans (bufferFree _ _ _)
  · exact refl s
  · exact refl s

theorem engineOpen (s : State) (q uid : Nat) : Sheds s (s.engineOpen q uid) := ite _ (modEngine s q _) (refl s)

theorem unsend (s : State) (uid : Nat) : Sheds s (s.unsend uid) :=
  foldl (fun s l => (filterReady s l fun x => !(decide (x.origin = .own uid) && decide (x.sends = 0))).trans (modEntry _ uid _)) _ _

theorem freeFootprint (s : State) (d : Desc) : Sheds s (s.freeFootprint d) := by
  unfold State.freeFootprint
  dsimp only
  split
  · exact { refl s with }
  · exact ite _ (refl s) { refl s with }
  · exact refl s

theorem entryDone (s : State) (uid : Nat) : Sheds s (s.entryDone uid) := by
  unfold State.entryDone
  split
  · exact refl s
  · exact (modEntry s uid _).trans (engineOpen _ _ _)

theorem entryEnd (s : State) (uid : Nat) : Sheds s (s.entryEnd uid) := by
  unfold State.entryEnd
  split
  · exact refl s
  · exact (ite _ (foldl (fun s (d : Opnd) => freeFootprint s d.desc) _ _) (refl s)).trans (entryDone _ _)

theorem entrySettle (s : State) (uid : Nat) : Sheds s (s.entrySettle uid) := by
  unfold State.entrySettle
  split
  · exact refl s
  · exact ite _ (entryEnd s uid) (refl s)

theorem settleAll (s : State) : Sheds s s.settleAll := foldl entrySettle _ _

theorem redFormed (s : State) (uid : Nat) : Sheds s (s.redFormed uid) := by
  have opens (z : State) (o : Option Entry) : Sheds z (match o with
      | some e => if z.ownWaiting uid then z else z.engineOpen e.queue uid
      | none => z) := by
    cases o with
    | none => exact refl z
    | some e => exact ite _ (refl z) (engineOpen z e.queue uid)
  exact ((modEntry s uid fun e => { e with formed := true }).trans (opens _ _)).trans (entrySettle _ uid)

theorem redEnd (s : State) (uid : Nat) : Sheds s (s.redEnd uid) :=
  trans (b := { s with door := { s.door with reds := s.door.reds.filter fun r => r.uid ≠ uid } }) { refl s with } (redFormed _ uid)

theorem redFail (s : State) (uid status : Nat) : Sheds s (s.redFail uid status) :=
  (unsend s uid).trans ((modEntry _ _ _).trans (redEnd _ uid))

theorem redsOff (s : State) (l : Nat) : Sheds s (s.redsOff l) := foldl (fun s (r : RedRun) => redFail s r.uid stRemoteFault) _ _

theorem passingClear (s : State) (l : Nat) : Sheds s (s.passingClear l) :=
  foldl (fun s m => filterReady s m fun x => !(decide (x.sends = 0) && decide (x.cameBy m = some l))) _ _

theorem signalsLost (s : State) (p : Pending → Bool) : Sheds s (s.signalsLost p) :=
  { refl s with pending := List.filter_subset_self _ }

/-- The tags of a link are gone after its sweep (R321). -/
theorem sweep (s : State) (l : Nat) : Sheds s (s.sweep l) ∧ ∀ g ∈ (s.sweep l).door.tags, g.link ≠ l := by
  let z : State := { s with door := { s.door with
    tags := s.door.tags.filter fun g => g.link ≠ l
    swept := satAdd 16 s.door.swept (s.door.tags.filter fun g => g.link = l).length } }
  have taken : Sheds s z := { refl s with tags := List.filter_subset_self _ }
  have fails : Sheds z (s.sweep l) := foldl (fun s (g : DoorTag) => remoteFail s g.uid 1) _ z
  exact ⟨taken.trans fails, fun g hg => of_decide_eq_true (List.mem_filter.1 (fails.tags hg)).2⟩

end Sheds

/-! ### A link that leaves UP -/

/-- A link with nothing of its past but its counters. -/
def Link.emptied (k : Link) : Link := { k with
  ready := [], sent := [], credit := [], creditSeen := [], freed := [], sigHeld := 0, txSeq := [], rxSeq := []
  ackDue := [], nakDue := [], ackTicks := [], credTicks := [], helloSent := false, helloSeen := none }

/-- A link is emptied when it is cleared, and nothing of it is left in the tables (R320 steps 2 to 6). -/
theorem State.linkClear_sheds (s : State) (l : Nat) :
    Sheds (s.modLink l Link.emptied) (s.linkClear l) ∧ (∀ x ∈ (s.linkClear l).door.sinks, x.link ≠ l) ∧
      (∀ q ∈ (s.linkClear l).latch.pending, q.link ≠ l) ∧ ∀ g ∈ (s.linkClear l).door.tags, g.link ≠ l := by
  let a := s.modLink l Link.emptied
  let b : State := { a with door := { a.door with sinks := a.door.sinks.filter fun x => x.link ≠ l } }
  let c := (((s.link l).ready.filter fun x => x.sends = 0).foldl (fun s x => s.lostPacket l x) (b.passingClear l)).signalsLost
    fun p => p.link = l
  let d : State := { c with latch := { c.latch with tallies := c.latch.tallies.filter fun y => y.link ≠ l } }
  have ab : Sheds a b := { Sheds.refl a with sinks := List.filter_subset_self _ }
  have bc : Sheds b c := (Sheds.passingClear b l).trans
    ((Sheds.foldl (fun s x => Sheds.lostPacket s l x) _ _).trans (Sheds.signalsLost _ _))
  have cd : Sheds c d := { Sheds.refl c with }
  obtain ⟨swept, tags⟩ := Sheds.sweep d l
  have last : Sheds (d.sweep l) (s.linkClear l) := (Sheds.redsOff _ l).trans ((Sheds.settleAll _).trans (Sheds.sigRelease _))
  have cz := cd.trans (Sheds.trans swept last)
  exact ⟨ab.trans (bc.trans cz), fun x hx => of_decide_eq_true (List.mem_filter.1 ((bc.trans cz).sinks hx)).2,
    fun q hq => by simpa using (List.mem_filter.1 (cz.pending hq)).2, fun g hg => tags g (last.tags hg)⟩

theorem Link.cleared {k e : Link} (link : { k with ready := e.ready, freed := e.freed, sigHeld := e.sigHeld } = e)
    (ready : k.ready ⊆ e.ready) (empty : e.ready = [] ∧ e.freed = [] ∧ e.sigHeld = 0) : { k with freed := [], sigHeld := 0 } = e := by
  obtain ⟨none, freed, held⟩ := empty
  have gone : k.ready = [] := List.subset_nil.1 (none ▸ ready)
  rw [← link, none, freed, held, gone]

/-- A cleared link: what of it stays. -/
theorem State.link_linkClear {s : State} {l : Nat} (down : (s.link l).state ≠ .up) :
    { (s.linkClear l).link l with freed := [], sigHeld := 0 } = (s.link l).emptied := by
  obtain ⟨sheds, -⟩ := s.linkClear_sheds l
  have link := sheds.link l
  have ready := sheds.ready l (by rw [State.link_modLink_same]; exact down)
  rw [State.link_modLink_same] at link ready
  exact Link.cleared link ready ⟨rfl, rfl, rfl⟩

/-- A forced reset leaves the link in RESET with nothing of its past, and DW_FAULT holds it (R320, R321, R324). -/
theorem State.forceReset_wasReset (s : State) (l cause : Nat) :
    WasReset l cause s (s.forceReset l cause) ∧ ((s.forceReset l cause).link l).peer = (s.link l).peer := by
  let a := (s.modLink l fun k => { k with cause := BitVec.ofNat 4 cause, bypass := false, resetFlag := true }).linkTo l .reset
  let b : State := { a with door := { a.door with
    resets := satInc 16 s.door.resets, faultLink := BitVec.ofNat 3 l, faultPend := true } }
  have run : s.forceReset l cause = b.linkClear l := rfl
  rw [run]
  have link : b.link l = { s.link l with
      cause := BitVec.ofNat 4 cause, bypass := false, resetFlag := true, state := .reset, en := true, ticks := 0 } := by
    refine (State.link_linkTo _ l .reset l).trans ((if_pos rfl).trans ?_)
    rw [State.link_modLink_same]
    rfl
  have down : (b.link l).state ≠ .up := by rw [link]; exact nofun
  obtain ⟨sheds, sinks, signals, tags⟩ := b.linkClear_sheds l
  have gone := State.link_linkClear down
  rw [link] at gone
  have field {β : Type} (f : Link → β) (h : ∀ k : Link, f { k with freed := [], sigHeld := 0 } = f k) :
      f ((b.linkClear l).link l) = f (Link.emptied { s.link l with
        cause := BitVec.ofNat 4 cause, bypass := false, resetFlag := true, state := .reset, en := true, ticks := 0 }) := by
    rw [← gone, h]
  have fault := sheds.faults
  exact ⟨⟨⟨field Link.state fun _ => rfl, field Link.cause fun _ => rfl, field Link.resetFlag fun _ => rfl⟩,
    ⟨field Link.ready fun _ => rfl, field Link.sent fun _ => rfl, field Link.credit fun _ => rfl, field Link.txSeq fun _ => rfl,
      field Link.rxSeq fun _ => rfl⟩, tags, sinks, signals, fault⟩, field Link.peer fun _ => rfl⟩

/-! ### Forced resets (R300, R310, R320) -/

/-- A forced reset of a state that has changed since `s`, but not in the count of resets. -/
theorem Completes.resets {s y z : State} {l cause : Nat} {c : Instr} (run : exec c s = .next y) (eval : y = z.forceReset l cause)
    (same : z.door.resets = s.door.resets) :
    Completes c s fun s' => WasReset l cause s s' ∧ (s'.link l).peer = (z.link l).peer := by
  obtain ⟨⟨state, empty, tags, sinks, signals, pend, fault, resets⟩, peer⟩ := z.forceReset_wasReset l cause
  exact .of_eq run eval ⟨⟨state, empty, tags, sinks, signals, pend, fault, by rw [resets, same]⟩, peer⟩

theorem Completes.mono {c : Instr} {s : State} {P Q : State → Prop} (h : Completes c s P) (weaker : ∀ s', P s' → Q s') :
    Completes c s Q := by
  obtain ⟨s', run, hp⟩ := h
  exact ⟨s', run, weaker s' hp⟩

theorem State.helloTaken_up {s : State} {l : Nat} (up : (s.link l).state = .up) (h : HelloMsg) (t : Trailer) : s.helloTaken l h t =
    if h.reset then (s.modLink l fun k => { k with peer := h.node }).forceReset l causePeerReset
    else if h.node ≠ (s.link l).peer then (s.modLink l fun k => { k with peer := h.node }).forceReset l causeChanged
    else (s.trailerTaken l t).sinksGo := by
  unfold State.helloTaken
  dsimp only
  rw [up]

theorem resetCauses : ResetCauses := by
  intro s l up k
  have peer (n : BitVec 16) : ((s.modLink l fun k => { k with peer := n }).link l).peer = n := by rw [State.link_modLink_same]
  have isUp : s.linkUp l = true := decide_eq_true up
  refine ⟨fun w out crc resv => ?hello, fun c q old => ?ack, fun c none waits late => ?credit⟩
  case hello =>
    have taken : (if s.door.held then s.wicket l w
        else if k.state ≠ .hello && k.state ≠ .up && k.state ≠ .quarantine then s
        else if !wireCrcOk w then s.crcFailed l
        else if wireResv w then s.forceReset l causeProtocol
        else s.helloTaken l (wireHello w) (wireTrailer w)) = s.helloTaken l (wireHello w) (wireTrailer w) := by
      simp [out, crc, resv, k, up]
    refine ⟨fun reset => ?_, fun reset other => ?_⟩
    · refine .mono (.resets rfl (taken.trans ((State.helloTaken_up up _ _).trans (if_pos reset))) rfl) fun s' h => ?_
      exact ⟨h.1, h.2.trans (peer _)⟩
    · refine .mono (.resets rfl (taken.trans ((State.helloTaken_up up _ _).trans
        ((if_neg (by simp [reset])).trans (if_pos other)))) rfl) fun s' h => ?_
      exact ⟨h.1, h.2.trans (peer _)⟩
  case ack =>
    intro again late some
    have run : execAckTimeout l c s = .next (s.resend l c q) := by
      unfold execAckTimeout
      dsimp only
      rw [old]
      exact congrArg _ (if_pos (Bool.and_eq_true_iff.2 ⟨isUp, late⟩))
    have nonempty : ¬again.isEmpty = true := by simpa using some
    refine ⟨fun ⟨x, hx, spent⟩ => ?_, fun left => ?_⟩
    · exact .mono (.resets run ((if_neg nonempty).trans (if_pos (List.any_eq_true.2 ⟨x, hx, decide_eq_true spent⟩))) rfl) fun _ h => h.1
    · have notSpent : ¬(again.any fun x => decide (s.retryMax l + 1 ≤ x.sends)) = true := by
        simpa using fun x hx => left x hx
      refine .of_eq run ((if_neg nonempty).trans (if_neg notSpent)) ⟨?_, ?_, rfl⟩
      · rw [State.link_modLink_same]
      · rw [State.link_modLink_same]
  case credit =>
    obtain ⟨x, hx, cls, free, unsent⟩ := waits
    have starved : k.starved c = true := by
      simp only [Link.starved, none, decide_true, Bool.true_and, List.any_eq_true]
      exact ⟨x, hx, by simp [cls, free, unsent]⟩
    exact .mono (.resets rfl (if_pos (Bool.and_eq_true_iff.2 ⟨Bool.and_eq_true_iff.2 ⟨isUp, starved⟩, late⟩)) rfl) fun _ h => h.1

/-! ### A packet in sequence (R290, R293, R294) -/

/-- A receive buffer of a far link takes the packet's bytes; only the scratchpad and the count of accesses to dark banks change. -/
theorem State.areaWrite_rest (s : State) (l : Nat) (slot : Option Nat) (w : Wire) :
    { s.areaWrite l slot w with eng := s.eng, int := s.int } = s := by
  unfold State.areaWrite
  split
  · split
    · unfold State.spadWrite State.shutAccess
      dsimp only
      split <;> rfl
    · rfl
  · rfl

/-- The credits that a trailer returns, and nothing else of the link. -/
theorem State.creditsTaken_link (s : State) (l : Nat) (cs : List (BitVec 16)) : ∃ a b, s.creditsTaken l cs =
    s.modLink l fun k => { k with credit := a, creditSeen := b } := by
  let take (k : Link) (c : Nat) : Link := { k with
    credit := SMap.put k.credit 0 c (SMap.look k.credit 0 c + (cs.getD c 0 - SMap.look k.creditSeen 0 c).toNat)
    creditSeen := SMap.put k.creditSeen 0 c (cs.getD c 0) }
  have fold (ns : List Nat) (k : Link) : ∃ a b, ns.foldl take k = { k with credit := a, creditSeen := b } := by
    induction ns generalizing k with
    | nil => exact ⟨_, _, rfl⟩
    | cons n ns ih => exact ih (take k n)
  obtain ⟨a, b, h⟩ := fold (List.range cs.length) (s.link l)
  exact ⟨a, b, congrArg (fun k : Link => ({ s with door := { s.door with links := SMap.put s.door.links Link.init l k } } : State)) h⟩

/-- The trailer of a packet and its SEQ taken (R293, R300). -/
def State.arrived (s : State) (l : Nat) (w : Wire) (c : Nat) : State := (s.creditsTaken l (wireTrailer w).credits).seqTaken l c

theorem State.areaWrite_door (s : State) (l : Nat) (slot : Option Nat) (w : Wire) : (s.areaWrite l slot w).door = s.door := by
  have door := congrArg State.door (s.areaWrite_rest l slot w)
  exact door

/-- What the trailer of a packet without acknowledgement and NAK, and its SEQ, change of a link. -/
structure Took (l c : Nat) (s z : State) : Prop where
  rest : { z with door := { z.door with links := s.door.links } } = s
  other : ∀ m, m ≠ l → z.link m = s.link m
  link : { z.link l with
    credit := (s.link l).credit, creditSeen := (s.link l).creditSeen, rxSeq := (s.link l).rxSeq, ackDue := (s.link l).ackDue } = s.link l
  seq : SMap.look (z.link l).rxSeq 0 c = SMap.look (s.link l).rxSeq 0 c + 1
  ack : (c, SMap.look (s.link l).rxSeq 0 c + 1) ∈ (z.link l).ackDue

theorem State.arrived_took (s : State) (l : Nat) (w : Wire) (c : Nat) : Took l c s (s.arrived l w c) := by
  obtain ⟨a, b, credits⟩ := s.creditsTaken_link l (wireTrailer w).credits
  rw [State.arrived, credits, State.seqTaken]
  refine ⟨rfl, fun m hm => ?_, ?_, ?_, ?_⟩
  · rw [State.link_modLink_ne hm, State.link_modLink_ne hm]
  · rw [State.link_modLink_same, State.link_modLink_same]
  · rw [State.link_modLink_same, State.link_modLink_same, SMap.look_put, if_pos rfl]
  · rw [State.link_modLink_same, State.link_modLink_same]
    exact List.mem_append_right _ (List.mem_singleton.2 rfl)

theorem Took.keeps {l c : Nat} {s z : State} (h : Took l c s z) (m : Nat) : (z.link m).state = (s.link m).state ∧
    (z.link m).remapped = (s.link m).remapped ∧ (z.link m).ready = (s.link m).ready ∧ (z.link m).freed = (s.link m).freed ∧
    (z.link m).peer = (s.link m).peer ∧ (z.link m).gen = (s.link m).gen := by
  by_cases hm : m = l
  · subst hm
    have same := h.link
    have state := congrArg Link.state same
    have remapped := congrArg Link.remapped same
    have ready := congrArg Link.ready same
    have freed := congrArg Link.freed same
    have peer := congrArg Link.peer same
    have gen := congrArg Link.gen same
    exact ⟨state, remapped, ready, freed, peer, gen⟩
  · rw [h.other m hm]
    exact ⟨rfl, rfl, rfl, rfl, rfl, rfl⟩

theorem Took.node {l c : Nat} {s z : State} (h : Took l c s z) : z.door.node = s.door.node := by
  have node := congrArg (fun z : State => z.door.node) h.rest
  exact node

/-- What the links give a receive area is no part of what a packet's arrival changes. -/
theorem Took.areaSlot {l c : Nat} {s z : State} (h : Took l c s z) (n m : Nat) : z.areaSlot n m = s.areaSlot n m := by
  have frame := congrArg State.frame h.rest
  have sinks := congrArg (fun z : State => z.door.sinks) h.rest
  dsimp only at frame sinks
  have used (k : Nat) : z.areaUsed n k = s.areaUsed n k := by
    simp only [State.areaUsed, sinks, fun m => (h.keeps m).2.2.1]
  have rec' : z.linkRec n = s.linkRec n := by
    simp only [State.linkRec, frame, (h.keeps n).2.1]
  simp only [State.areaSlot, rec', used]

theorem State.isMine_congr {s z : State} (h : z.door.node = s.door.node) (p : Packet) : z.isMine p = s.isMine p := by
  unfold State.isMine
  rw [h]

/-- A whole packet on an UP link: out of sequence it is answered with a NAK, and else it is handed on with its buffer, or passed on
(R294, R300, R302). -/
theorem State.receive_arrives {s : State} {l : Nat} {w : Wire} (h : Arrives l w s) (c : Fin 6) (kind : Nat)
    (g : Packet → Option Nat → State → State) :
    let p := asRow (wirePacket w) c kind
    let z := (s.arrived l w c).areaWrite l (s.areaSlot l c) w
    s.receive l w c kind g = if SMap.look (s.link l).rxSeq 0 c.val ≠ p.seq then (s.creditsTaken l (wireTrailer w).credits).nak l c
      else if s.isMine p || decide (c = clsMgt) then g p (s.areaSlot l c) z else z.passOn l p (s.areaSlot l c) := by
  obtain ⟨out, up, crc, resv, ack, nak⟩ := h
  dsimp only
  have taken : s.trailerTaken l (wireTrailer w) = s.creditsTaken l (wireTrailer w).credits := by
    unfold State.trailerTaken
    rw [ack, nak]
  obtain ⟨a, b, credits⟩ := s.creditsTaken_link l (wireTrailer w).credits
  have isUp : s.linkUp l = true := decide_eq_true up
  have still : (s.creditsTaken l (wireTrailer w).credits).linkUp l = true := by
    rw [credits]
    simp [State.linkUp, up]
  have seq : SMap.look ((s.creditsTaken l (wireTrailer w).credits).link l).rxSeq 0 c.val = SMap.look (s.link l).rxSeq 0 c.val := by
    rw [credits, State.link_modLink_same]
  have took := s.arrived_took l w c
  have slot := took.areaSlot l c
  unfold State.receive
  simp only [out, isUp, crc, resv, taken, still, seq, Bool.not_true, Bool.false_eq_true, if_false]
  have mine := State.isMine_congr (z := (s.arrived l w c).areaWrite l (s.areaSlot l c) w) (s := s)
    ((State.areaWrite_door _ _ _ _).symm ▸ took.node)
  simp only [show (s.creditsTaken l (wireTrailer w).credits).seqTaken l c = s.arrived l w c from rfl, slot, mine]

/-! ### Re-points (R322) -/

/-- Packets have been put on links, and nothing else has happened. -/
structure OnlySends (s s' : State) : Prop where
  rest : { s' with door := { s'.door with links := s.door.links } } = s
  link : ∀ m, { s'.link m with ready := (s.link m).ready } = s.link m

namespace OnlySends

theorem refl (s : State) : OnlySends s s := ⟨rfl, fun _ => rfl⟩

theorem trans {a b c : State} (h : OnlySends a b) (k : OnlySends b c) : OnlySends a c where
  rest := (congrArg (fun z : State => { z with door := { z.door with links := a.door.links } }) k.rest).trans h.rest
  link m := (congrArg (fun z : Link => { z with ready := (a.link m).ready }) (k.link m)).trans (h.link m)

theorem foldl {α : Type} {f : State → α → State} (step : ∀ s a, OnlySends s (f s a)) (l : List α) (s : State) :
    OnlySends s (l.foldl f s) := by
  induction l generalizing s with
  | nil => exact refl s
  | cons a as ih => exact (step s a).trans (ih _)

theorem txAdd (s : State) (l : Nat) (xs : List TxItem) : OnlySends s (s.txAdd l xs) where
  rest := rfl
  link m := by
    rw [State.txAdd, State.link_modLink]
    split
    next same => subst same; rfl
    · rfl

theorem link_fields {s s' : State} (h : OnlySends s s') (m : Nat) :
    (s'.link m).rxSeq = (s.link m).rxSeq ∧ (s'.link m).freed = (s.link m).freed := by
  have seq := congrArg Link.rxSeq (h.link m)
  have freed := congrArg Link.freed (h.link m)
  exact ⟨seq, freed⟩

theorem door_fields {s s' : State} (h : OnlySends s s') : s'.door.epoch = s.door.epoch ∧ s'.door.routes = s.door.routes := by
  have epoch := congrArg (fun z : State => z.door.epoch) h.rest
  have routes := congrArg (fun z : State => z.door.routes) h.rest
  exact ⟨epoch, routes⟩

end OnlySends

/-- A table that is written at the first `n` keys. -/
theorem look_foldl_put {α : Type} [DecidableEq α] (d : α) (f : Nat → α) (n r : Nat) (m : SMap α) :
    SMap.look ((List.range n).foldl (fun m k => SMap.put m d k (f k)) m) d r = if r < n then f r else SMap.look m d r := by
  induction n with
  | zero => simp
  | succ n ih =>
    rw [List.range_succ, List.foldl_append, List.foldl_cons, List.foldl_nil, SMap.look_put, ih]
    by_cases hr : r = n
    · subst hr; simp
    · rw [if_neg hr]
      exact if_congr (by omega) rfl rfl

/-- An accepted re-point sets the epoch and the routes, and goes on over UP links (R322). -/
theorem State.repoint_routes (s : State) (x v : BitVec 16) (epoch : BitVec 24) (via : Option Nat) :
    (s.repoint x v epoch via).door.epoch = epoch ∧
      (∀ r < s.routeCount, (s.repoint x v epoch via).route r = s.repointed x v (s.route r)) ∧
      ∀ m, ((s.repoint x v epoch via).link m).rxSeq = (s.link m).rxSeq ∧ ((s.repoint x v epoch via).link m).freed = (s.link m).freed := by
  let z : State := { s with door := { s.door with
    epoch := epoch
    routes := (List.range s.routeCount).foldl (fun m r => SMap.put m Route.init r (s.repointed x v (s.route r))) s.door.routes } }
  have sends : OnlySends z (s.repoint x v epoch via) :=
    OnlySends.foldl (fun s l => by
      split
      · exact .txAdd _ _ _
      · exact .refl _) _ _
  obtain ⟨epochs, routes⟩ := sends.door_fields
  refine ⟨epochs, fun r hr => ?_, sends.link_fields⟩
  rw [State.route, routes]
  exact (look_foldl_put Route.init (fun r => s.repointed x v (s.route r)) _ r _).trans (if_pos hr)

theorem repointed_cases (s : State) (x v : BitVec 16) (t : Route) :
    (t.dest ≠ x ∨ t.link < 2 → s.repointed x v t = t) ∧
      (t.dest = x → 2 ≤ t.link →
        (∀ m, s.peerLink v = some m → (s.repointed x v t).link = s.roleLink m ∧ (s.repointed x v t).unreach = false) ∧
        (s.peerLink v = none → (s.repointed x v t).unreach = true)) := by
  refine ⟨fun h => if_neg ?_, fun dest link => ⟨fun m hm => ?_, fun hm => ?_⟩⟩
  · rcases h with h | h <;> simp [h, isRing]
  · have mine : (decide (t.dest = x) && !isRing t.link) = true := by simp [dest, isRing]; omega
    unfold State.repointed
    rw [if_pos mine, hm]
    dsimp only
    split
    next same => exact ⟨(congrArg Route.link same).symm, (congrArg Route.unreach same).symm⟩
    · exact ⟨rfl, rfl⟩
  · have mine : (decide (t.dest = x) && !isRing t.link) = true := by simp [dest, isRing]; omega
    unfold State.repointed
    rw [if_pos mine, hm]
    dsimp only
    split
    next same => exact (congrArg Route.unreach same).symm
    · rfl

theorem State.repointed_congr {s z : State}
    (links : ∀ m, (z.link m).state = (s.link m).state ∧ (z.link m).remapped = (s.link m).remapped ∧ (z.link m).peer = (s.link m).peer)
    (x v : BitVec 16) (t : Route) : z.repointed x v t = s.repointed x v t := by
  have role (m : Nat) : z.roleLink m = s.roleLink m := by rw [State.roleLink, State.roleLink, (links m).2.1]
  have peers : z.peerLink v = s.peerLink v := by
    simp only [State.peerLink, State.linkUp, fun m => (links m).1, fun m => (links m).2.2]
  simp only [State.repointed, role, peers]

/-- The state in which a packet's row acts on it: the trailer and the SEQ are taken, and the buffer is full. -/
def State.buffered (s : State) (l : Nat) (w : Wire) (c : Nat) : State := (s.arrived l w c).areaWrite l (s.areaSlot l c) w

theorem State.buffered_link (s : State) (l : Nat) (w : Wire) (c m : Nat) : (s.buffered l w c).link m = (s.arrived l w c).link m := by
  rw [State.link, State.buffered, State.areaWrite_door]
  rfl

/-- A full buffer changes the link, the scratchpad and the count of accesses to dark banks. -/
theorem State.buffered_rest (s : State) (l : Nat) (w : Wire) (c : Nat) :
    { s.buffered l w c with door := { (s.buffered l w c).door with links := s.door.links }, eng := s.eng, int := s.int } = s := by
  have took := (s.arrived_took l w c).rest
  have wrote := (s.arrived l w c).areaWrite_rest l (s.areaSlot l c) w
  rw [← State.buffered] at wrote
  generalize s.buffered l w c = y at *
  generalize s.arrived l w c = z at *
  rw [← took, ← wrote]

theorem State.buffered_keeps (s : State) (l : Nat) (w : Wire) (c m : Nat) :
    ((s.buffered l w c).link m).state = (s.link m).state ∧ ((s.buffered l w c).link m).remapped = (s.link m).remapped ∧
      ((s.buffered l w c).link m).ready = (s.link m).ready ∧ ((s.buffered l w c).link m).freed = (s.link m).freed ∧
      ((s.buffered l w c).link m).peer = (s.link m).peer ∧ ((s.buffered l w c).link m).gen = (s.link m).gen := by
  rw [State.buffered_link]
  exact (s.arrived_took l w c).keeps m

theorem State.buffered_door (s : State) (l : Nat) (w : Wire) (c : Nat) :
    { (s.buffered l w c).door with links := s.door.links } = s.door ∧ (s.buffered l w c).frame = s.frame := by
  have rest := s.buffered_rest l w c
  have door := congrArg State.door rest
  have frame := congrArg State.frame rest
  exact ⟨door, frame⟩

theorem State.freeBuffer_link (s : State) (l c m : Nat) : (s.freeBuffer l c).link m =
    if m = l then { s.link l with freed := SMap.put (s.link l).freed 0 c (SMap.look (s.link l).freed 0 c + 1) } else s.link m :=
  s.link_modLink l (fun k => { k with freed := SMap.put k.freed 0 c (SMap.look k.freed 0 c + 1) }) m

theorem repointReception : RepointReception := by
  intro s l x v epoch w arrives k p seq
  obtain ⟨door, frame⟩ := s.buffered_door l w 5
  have resets := congrArg Doorway.resets door
  have epochs := congrArg Doorway.epoch door
  have routes := congrArg Doorway.routes door
  have run : exec (.repoint l x v epoch w) s = .next (if ((s.buffered l w 5).link l).gen ≠ 3
      then (s.buffered l w 5).forceReset l causeProtocol
      else if ((s.buffered l w 5).freeBuffer l 5).door.epoch < epoch then ((s.buffered l w 5).freeBuffer l 5).repoint x v epoch (some l)
        else (s.buffered l w 5).freeBuffer l 5) :=
    congrArg _ ((State.receive_arrives arrives clsMgt 2 _).trans ((if_neg (not_not.2 seq)).trans (if_pos (by simp))))
  have keeps := s.buffered_keeps l w 5
  have took := s.arrived_took l w 5
  have taken : SMap.look ((s.buffered l w 5).link l).rxSeq 0 5 = p.seq + 1 := by
    rw [State.buffered_link, took.seq, seq]
  generalize s.buffered l w 5 = y at *
  refine ⟨fun old => ?old, fun new => ?new⟩
  case old =>
    exact .mono (.resets run (if_pos (by rw [(keeps l).2.2.2.2.2]; exact old)) resets) fun _ h => h.1
  case new =>
    set f := y.freeBuffer l 5 with hf
    have link (m : Nat) := y.freeBuffer_link l 5 m
    have rx : SMap.look (f.link l).rxSeq 0 5 = p.seq + 1 := by rw [hf, link, if_pos rfl]; exact taken
    have freed : SMap.look (f.link l).freed 0 5 = SMap.look k.freed 0 5 + 1 := by
      rw [hf, link, if_pos rfl, (keeps l).2.2.2.1]
      simp [SMap.look_put, k]
    have same : f.door.epoch = s.door.epoch := epochs
    have three : ¬(y.link l).gen ≠ 3 := by rw [(keeps l).2.2.2.2.2]; exact not_not.2 new
    by_cases later : s.door.epoch < epoch
    · obtain ⟨epochNow, routesNow, links⟩ := f.repoint_routes x v epoch (some l)
      refine .of_eq run ((if_neg three).trans (if_pos (by rw [same]; exact later))) ⟨?_, ?_, ?_, fun _ r hr => ?_⟩
      · rw [if_pos later, epochNow]
      · rw [(links l).1, rx]
      · rw [(links l).2, freed]
      · have count : f.routeCount = s.routeCount := by
          show y.routeCount = s.routeCount
          rw [State.routeCount, State.routeCount, frame]
        have route : f.route r = s.route r := by
          show SMap.look y.door.routes Route.init r = SMap.look s.door.routes Route.init r
          rw [← routes]
        have points : f.repointed x v (s.route r) = s.repointed x v (s.route r) := by
          refine State.repointed_congr (fun m => ?_) x v _
          rw [hf, link]
          split
          next hm => subst hm; exact ⟨(keeps l).1, (keeps l).2.1, (keeps l).2.2.2.2.1⟩
          · exact ⟨(keeps m).1, (keeps m).2.1, (keeps m).2.2.2.2.1⟩
        rw [routesNow r (by rw [count]; exact hr), route, points]
        exact repointed_cases s x v (s.route r)
    · refine .of_eq run ((if_neg three).trans (if_neg (by rw [same]; exact later))) ⟨?_, rx, freed, fun h => absurd h later⟩
      rw [if_neg later, same]

/-- Settles O47: a forced reset is one operation, and a re-point writes the routes of the plan. -/
theorem linkFailures : Obligations.LinkFailures := ⟨repointReception, resetCauses⟩

/-! ### Discovery (R308 to R310) -/

theorem pairLink_pairLink (l : Fin 6) : pairLink (pairLink l) = l ∧ pairLink l ≠ l := by
  fin_cases l <;> decide

theorem State.link_linkCause (s : State) (l cause m : Nat) :
    (s.linkCause l cause).link m = if m = l then { s.link l with cause := BitVec.ofNat 4 cause } else s.link m :=
  s.link_modLink l (fun k => { k with cause := BitVec.ofNat 4 cause }) m

theorem State.link_negotiate_ne {s : State} {l m : Nat} (h : m ≠ l) (x : HelloMsg) (r : LinkRec) :
    (s.negotiate l x r).link m = s.link m := by
  unfold State.negotiate
  dsimp only
  split
  · rw [State.link_linkTo, if_neg h, State.link_linkCause, if_neg h]
  · rw [State.link_linkTo, if_neg h, State.link_modLink_ne h]

/-- The decision of a link changes no other unless the other sees a HELLO in HELLO too, for an exchange of roles (R310). -/
theorem State.link_decideLink_ne {s : State} {l m : Nat} (h : m ≠ l)
    (alone : (s.link (pairLink l)).helloSeen = none ∨ (s.link (pairLink l)).state ≠ .hello) (late : Bool) :
    (s.decideLink l late).link m = s.link m := by
  have quarantine : ((s.linkCause l causeIdentity).linkTo l .quarantine).link m = s.link m := by
    rw [State.link_linkTo, if_neg h, State.link_linkCause, if_neg h]
  unfold State.decideLink
  split
  next x r _ _ =>
    split
    · rw [State.link_linkTo, if_neg h]
    · split
      · exact State.link_negotiate_ne h x r
      · dsimp only
        split
        next both =>
          have seen : (s.link (pairLink l)).helloSeen ≠ none := by
            simp only [Bool.and_eq_true, Option.isSome_iff_ne_none] at both
            exact both.2
          rw [if_neg (by simp [alone.resolve_left seen])]
          exact quarantine
        · split
          · rfl
          · exact quarantine
  · rfl

/-- Has a link exchanged HELLOs? -/
def State.exchanged (s : State) (l : Nat) : Bool :=
  decide ((s.link l).state = .hello) && (s.link l).helloSent && (s.link l).helloSeen.isSome

theorem State.discover_eq (s : State) (l : Nat) : s.discover l =
    let s := if s.exchanged l then s.decideLink l false else s
    if s.exchanged (pairLink l) then s.decideLink (pairLink l) false else s := rfl

theorem State.grant_modLink (s : State) (l c m : Nat) {g : Link → Link} (same : ∀ k, (g k).remapped = k.remapped) :
    (s.modLink l g).grant m c = s.grant m c := by
  have linkRec : (s.modLink l g).linkRec m = s.linkRec m := by
    have remapped : ((s.modLink l g).link m).remapped = (s.link m).remapped := by
      rw [State.link_modLink]
      split
      next h => rw [h, same]
      · rfl
    simp only [State.linkRec, remapped, State.modLink_frame]
  simp only [State.grant, linkRec]

/-- Discovery of a link that has seen no HELLO changes nothing of it. -/
theorem State.link_discover_unseen {s : State} (l : Fin 6) (unseen : (s.link l).helloSeen = none) :
    (s.discover l).link l = s.link l := by
  obtain ⟨pair, ne⟩ := pairLink_pairLink l
  have waits : s.exchanged l = false := by simp [State.exchanged, unseen]
  rw [State.discover_eq, waits]
  simp only [Bool.false_eq_true, if_false]
  split
  · exact State.link_decideLink_ne ne.symm (.inl (by rw [pair]; exact unseen)) false
  · rfl

/-- Discovery of a link that leaves HELLO by its decision. -/
theorem State.link_discover_decides {s : State} (l : Fin 6) (seen : s.exchanged l = true)
    (leaves : ((s.decideLink l false).link l).state ≠ .hello) : (s.discover l).link l = (s.decideLink l false).link l := by
  obtain ⟨pair, ne⟩ := pairLink_pairLink l
  rw [State.discover_eq, seen]
  simp only [if_true]
  split
  · exact State.link_decideLink_ne ne.symm (.inr (by rw [pair]; exact leaves)) false
  · rfl

/-- The HELLO that a link sends (R309). -/
theorem State.helloOut_link (s : State) (l : Nat) : ∃ held p h, (s.helloOut l).link l = { s.link l with
      sigHeld := held, helloSent := true, resetFlag := false, helloTicks := 0, ackDue := (s.link l).ackDue.drop 1
      nakDue := (s.link l).nakDue.drop 1, lastTx := some (packetWire p (s.link l).trailerNow) } ∧
    p.cls = clsMgt ∧ p.kind = 1 ∧ p.src = s.door.node ∧ p.payload = helloBytes h ∧ h.gens = 14 ∧ h.reset = (s.link l).resetFlag ∧
    ∀ c < 6, c ≠ 1 → h.credits.getD c 0 = BitVec.ofNat 16 (s.grant l c) := by
  let a := s.modLink l fun k => { k with sigHeld := s.grant l 1, helloSent := true, resetFlag := false, helloTicks := 0 }
  let give := min (a.grant l 1) (pendingSize - s.latch.pending.length - a.sigOut)
  let b := a.modLink l fun k => { k with sigHeld := a.grant l 1 - give }
  let h : HelloMsg := { node := b.door.node, gens := ownGens, credits := b.helloCredits l give, reset := (s.link l).resetFlag }
  refine ⟨a.grant l 1 - give, b.packet clsMgt 1 (b.link l).peer.toNat 0 0 0 0 (helloBytes h), h, ?_, rfl, rfl, rfl, rfl, rfl, rfl,
    fun c hc ne => ?_⟩
  · show (b.drive l _).link l = _
    rw [State.drive, State.link_modLink_same, State.link_modLink_same, State.link_modLink_same]
    rfl
  · have same : b.grant l c = s.grant l c :=
      (State.grant_modLink a l c l (g := fun k => { k with sigHeld := a.grant l 1 - give }) fun _ => rfl).trans
        (State.grant_modLink s l c l
          (g := fun k => { k with sigHeld := s.grant l 1, helloSent := true, resetFlag := false, helloTicks := 0 }) fun _ => rfl)
    show ((List.range 6).map fun c => BitVec.ofNat 16 (if c = 1 then give else b.grant l c)).getD c 0 = _
    rw [List.getD_eq_getElem _ _ (by simpa using hc)]
    simp [ne, same]

/-- The decision over a planned peer brings the link UP with its generation and credits, or to QUARANTINE (R310). -/
theorem State.link_negotiate (s : State) (l : Nat) (h : HelloMsg) (r : LinkRec) :
    (commonGen h.gens ≠ 0 → r.minGen ≤ commonGen h.gens → ((s.negotiate l h r).link l).state = .up ∧
      ((s.negotiate l h r).link l).gen = commonGen h.gens ∧ ((s.negotiate l h r).link l).peer = (s.link l).peer ∧
      ∀ c < 6, SMap.look ((s.negotiate l h r).link l).credit 0 c = (h.credits.getD c 0).toNat) ∧
    (commonGen h.gens = 0 ∨ commonGen h.gens < r.minGen → ((s.negotiate l h r).link l).state = .quarantine ∧
      ((s.negotiate l h r).link l).cause = 4) := by
  refine ⟨fun some enough => ?_, fun none => ?_⟩
  · unfold State.negotiate
    rw [if_neg (by simp [some, enough]), State.link_linkTo, if_pos rfl, State.link_modLink_same]
    exact ⟨rfl, rfl, rfl, fun c hc => (look_foldl_put 0 (fun c => (h.credits.getD c 0).toNat) 6 c []).trans (if_pos hc)⟩
  · unfold State.negotiate
    rw [if_pos (by simpa using none), State.link_linkTo, if_pos rfl, State.link_linkCause, if_pos rfl]
    exact ⟨rfl, rfl⟩

theorem commonGen_highest {gens : BitVec 4} {g : Nat} (own : g = 1 ∨ g = 2 ∨ g = 3) (has : gens.getLsbD g = true)
    (top : ∀ i, g < i → i < 4 → gens.getLsbD i = false) : commonGen gens = g := by
  rcases own with rfl | rfl | rfl
  · simp only [commonGen, List.find?, top 3 (by decide) (by decide), top 2 (by decide) (by decide), has, Option.getD_some]
  · simp only [commonGen, List.find?, top 3 (by decide) (by decide), has, Option.getD_some]
  · simp only [commonGen, List.find?, has, Option.getD_some]

theorem commonGen_common {gens : BitVec 4} (h : commonGen gens ≠ 0) :
    (commonGen gens = 1 ∨ commonGen gens = 2 ∨ commonGen gens = 3) ∧ gens.getLsbD (commonGen gens) = true := by
  unfold commonGen at h ⊢
  cases found : [3, 2, 1].find? fun g => gens.getLsbD g with
  | none => simp [found] at h
  | some g =>
    have mem := List.mem_of_find?_eq_some found
    simp only [List.mem_cons, List.not_mem_nil, or_false] at mem
    exact ⟨by simp only [Option.getD_some]; omega, List.find?_some found⟩

theorem Link.state_of_emptied {x y : Link} (h : { x with freed := [], sigHeld := 0 } = y.emptied) :
    x.state = y.state ∧ x.cause = y.cause := by
  have state := congrArg Link.state h
  have cause := congrArg Link.cause h
  exact ⟨state, cause⟩

/-- A link that goes OFF keeps its cause. -/
theorem State.link_linkOff {s : State} {l : Nat} (on : (s.link l).state ≠ .off) :
    ((s.linkOff l).link l).state = .off ∧ ((s.linkOff l).link l).cause = (s.link l).cause := by
  let y := (s.modLink l fun k => { k with gen := 0, bypass := false }).linkTo l .off
  have link : y.link l = { s.link l with gen := 0, bypass := false, state := .off, en := false, ticks := 0 } := by
    rw [State.link_linkTo, if_pos rfl, State.link_modLink_same]
    rfl
  obtain ⟨state, cause⟩ := Link.state_of_emptied (State.link_linkClear (s := y) (l := l) (by rw [link]; exact nofun))
  rw [State.linkOff, if_neg on]
  exact ⟨state.trans (by rw [link]), cause.trans (by rw [link])⟩

/-- The decision over an acceptable peer is the negotiation (R310). -/
theorem State.decideLink_peer {s : State} {l : Fin 6} {h : HelloMsg} {r : LinkRec} (seen : (s.link l).helloSeen = some h)
    (planned : s.linkRec l = some r) (expected : r.expect = true)
    (peer : h.node = r.peer ∨ (l.val < 2 ∧ r.alt ≠ 0 ∧ h.node = r.alt)) : s.decideLink l false = s.negotiate l h r := by
  have ok : peerOk l r h.node = true := by
    rcases peer with peer | ⟨ring, alt, peer⟩
    · simp [peerOk, peer]
    · simp only [peerOk, isRing, ring, alt, peer, ne_eq, not_false_eq_true, decide_true, Bool.and_self, Bool.or_true]
  simp only [State.decideLink, seen, planned, expected, ok, Bool.not_true, Bool.false_eq_true, if_false, if_true]

/-- What a HELLO to a link in HELLO leads to: the link has seen it, and decides. -/
theorem Completes.hello_decides {s : State} {l : Fin 6} {w : Wire} {r : LinkRec} (out : s.door.held = false)
    (hello : (s.link l).state = .hello) (sent : (s.link l).helloSent = true) (crc : wireCrcOk w = true) (resv : wireResv w = false)
    (planned : s.linkRec l = some r) {P : State → Prop} (hp : ∀ y : State, (y.link l).helloSeen = some (wireHello w) →
      (y.link l).state = .hello → (y.link l).peer = (wireHello w).node → y.linkRec l = some r →
      ((y.decideLink l false).link l).state ≠ .hello ∧ ∀ z : State, z.link l = (y.decideLink l false).link l → P z) :
    Completes (.hello l w) s P := by
  let see := fun k : Link => { k with
    helloSeen := some (wireHello w), peer := (wireHello w).node
    ticks := if (s.link l).helloSeen.isNone && s.mayRemap l then 0 else k.ticks }
  have seen : (s.modLink l see).link l = see (s.link l) := State.link_modLink_same s l see
  have rec' : (s.modLink l see).linkRec l = some r := by
    simp only [State.linkRec, seen, State.modLink_frame]
    exact planned
  obtain ⟨leaves, rest⟩ := hp (s.modLink l see) (by rw [seen]) (by rw [seen]; exact hello) (by rw [seen]) rec'
  have taken : s.helloTaken l (wireHello w) (wireTrailer w) = (s.modLink l see).discover l := by
    unfold State.helloTaken
    simp only [hello]
    rfl
  have exchanged : (s.modLink l see).exchanged l = true := by
    simp [State.exchanged, see, hello, sent]
  have run : exec (.hello l w) s = .next (s.helloTaken l (wireHello w) (wireTrailer w)) := by
    refine congrArg Host.Outcome.next ?_
    rw [out, hello, crc, resv]
    rfl
  exact .of_eq run taken (rest _ (State.link_discover_decides l exchanged leaves))

/-- Settles O48: every event is one branch of its function, and no link decides for another outside an exchange of roles. -/
theorem linkDiscovery : Obligations.LinkDiscovery := by
  intro s l k others
  refine ⟨fun level => ?rdy, fun hello unseen due => ?send, fun still => .of_eq rfl (if_neg ?still) rfl,
    fun w r out hello sent crc resv planned => ⟨fun stray => ?stray, fun expected peer => ⟨fun g own has top min => ?common, fun old => ?old⟩⟩,
    fun late lost => ?timeout, fun early => .of_eq rfl (if_pos early) rfl, fun idle => ?idle, fun reset late => ?reset⟩
  case rdy =>
    have seen : (s.modLink l fun k => { k with rdy := level }).link l = { k with rdy := level } := State.link_modLink_same ..
    by_cases goes : level = true ∧ k.state = .wait
    · refine .of_eq rfl (if_pos (by rw [seen]; simpa using goes)) ⟨?_, rfl, ?_⟩
      · rw [State.link_linkTo, if_pos rfl, seen]
      · rw [State.link_linkTo, if_pos rfl, if_pos goes]
    · refine .of_eq rfl (if_neg (by rw [seen]; simpa using goes)) ⟨?_, rfl, ?_⟩
      · rw [seen]
      · rw [seen, if_neg goes]
  case send =>
    obtain ⟨held, p, h, link, cls, kind, src, payload, gens, flag, credits⟩ := s.helloOut_link l
    have same := State.link_discover_unseen (s := s.helloOut l) l (by rw [link]; exact unseen)
    refine .of_eq rfl (if_pos (by simpa using ⟨hello, due⟩)) ?_
    rw [same, link]
    exact ⟨rfl, hello, rfl, rfl, p, h, rfl, cls, kind, src, payload, gens, flag, credits⟩
  case still =>
    rcases still with other | ⟨sent, early⟩
    · simp [k, other]
    · simp [k, sent, early]
  case stray =>
    refine .hello_decides out hello sent crc resv planned fun y seen _ _ planned => ?_
    have idle : y.decideLink l false = y.linkTo l .idle := by
      simp only [State.decideLink, seen, planned, stray, Bool.not_false, if_true]
    rw [idle, State.link_linkTo, if_pos rfl]
    exact ⟨nofun, fun z link => by rw [link]⟩
  case common =>
    have found := commonGen_highest own has top
    refine .hello_decides out hello sent crc resv planned fun y seen _ from' planned => ?_
    have decides := y.decideLink_peer seen planned expected peer
    obtain ⟨up, gen, peer, credit⟩ := (y.link_negotiate l (wireHello w) r).1 (by omega) (by omega)
    rw [decides]
    exact ⟨by rw [up]; exact nofun, fun z link => by rw [link, up, gen, peer]; exact ⟨rfl, found, from', credit⟩⟩
  case old =>
    have none : commonGen (wireHello w).gens = 0 ∨ commonGen (wireHello w).gens < r.minGen := by
      by_cases zero : commonGen (wireHello w).gens = 0
      · exact .inl zero
      · exact .inr (old _ (commonGen_common zero).1 (commonGen_common zero).2)
    refine .hello_decides out hello sent crc resv planned fun y seen _ _ planned => ?_
    obtain ⟨quarantine, cause⟩ := (y.link_negotiate l (wireHello w) r).2 none
    rw [y.decideLink_peer seen planned expected peer]
    exact ⟨by rw [quarantine]; exact nofun, fun z link => by rw [link]; exact ⟨quarantine, cause⟩⟩
  case timeout =>
    have cause (c : Nat) : (s.linkCause l c).link l = { k with cause := BitVec.ofNat 4 c } := by rw [State.link_linkCause, if_pos rfl]
    have expects (c : Nat) : (s.linkCause l c).expects l = s.expects l := by
      have remapped : ((s.linkCause l c).link l).remapped = k.remapped := by rw [cause]
      simp only [State.expects, State.linkRec, remapped, k]
      rfl
    have gone (c : Nat) (run : exec (.discoveryTimeout l) s = .next (if (s.linkCause l c).expects l then (s.linkCause l c).linkTo l .down
        else (s.linkCause l c).linkOff l)) (on : k.state ≠ .off) :
        Completes (.discoveryTimeout l) s fun s' => (s'.link l).cause = BitVec.ofNat 4 c ∧
          (s'.link l).state = if s.expects l then .down else .off := by
      by_cases planned : s.expects l = true
      · refine .of_eq run (if_pos ((expects c).trans planned)) ?_
        rw [State.link_linkTo, if_pos rfl, cause, if_pos planned]
        exact ⟨rfl, rfl⟩
      · obtain ⟨off, same⟩ := State.link_linkOff (s := s.linkCause l c) (l := l) (by rw [cause]; exact on)
        refine .of_eq run (if_neg (by rw [expects]; exact planned)) ⟨?_, ?_⟩
        · rw [same, cause]
        · rw [off, if_neg planned]
    have late : ¬ (s.link l).ticks < tenMs := Nat.not_lt.2 late
    rcases lost with wait | ⟨hello, unseen⟩
    · refine .mono (gone 1 ?_ (by rw [wait]; exact nofun)) fun s' h => by rw [if_pos wait]; exact h
      refine congrArg _ ((if_neg late).trans ?_)
      simp only [show (s.link l).state = .wait from wait]
      rfl
    · refine .mono (gone 2 ?_ (by rw [hello]; exact nofun)) fun s' h => by rw [if_neg (by rw [hello]; exact nofun)]; exact h
      refine congrArg _ ((if_neg late).trans ?_)
      simp only [show (s.link l).state = .hello from hello, show (s.link l).helloSeen = none from unseen]
      rfl
  case idle =>
    by_cases late : oneMs ≤ k.ticks
    · refine .of_eq rfl (if_pos (by simpa using ⟨idle, late⟩)) ?_
      rw [State.link_modLink_same, if_pos late]
      exact ⟨rfl, idle⟩
    · refine .of_eq rfl (if_neg (by simpa [idle, k] using late)) ?_
      rw [if_neg late]
      exact ⟨rfl, idle⟩
  case reset =>
    have wait : (s.linkWait l).link l = { k with
        gen := 0, bypass := false, helloSent := false, helloSeen := none, state := .wait, en := true, ticks := 0 } := by
      rw [State.linkWait, State.link_linkTo, if_pos rfl, State.link_modLink_same]
      rfl
    have ends : exec (.linkResetEnd l) s = .next (if k.rdy then (s.linkWait l).linkTo l .hello else s.linkWait l) :=
      congrArg _ (if_pos (by simpa using ⟨reset, late⟩))
    by_cases trained : k.rdy = true
    · refine .of_eq ends (if_pos trained) ⟨?_, ?_, (congrArg (fun z : State => { z with door := s.door, hinge := s.hinge })
        ((s.linkWait l).linkTo_door l .hello)).trans (s.linkWait_door l)⟩
      · rw [State.link_linkTo, if_pos rfl, if_pos trained]
      · rw [State.link_linkTo, if_pos rfl, wait]
    · refine .of_eq ends (if_neg trained) ⟨?_, ?_, s.linkWait_door l⟩
      · rw [wait, if_neg trained]
      · rw [wait]

end Sys2Proof.Machine
end

/-! PROOFS. The Deadbolt, the Lintel store and Hatch (spec/17 R409 to R425). -/
section
namespace Sys2Proof.Machine

/-! ### The state behind the port -/

theorem natLe_leNat (bs : List Byte) : natLe bs.length (leNat bs) = bs := by
  induction bs with
  | nil => rfl
  | cons b bs ih =>
    have low : BitVec.ofNat 8 (b.toNat + 256 * leNat bs) = b := by
      apply BitVec.eq_of_toNat_eq
      have := b.isLt
      simp only [BitVec.toNat_ofNat]
      omega
    have high : (b.toNat + 256 * leNat bs) / 256 = leNat bs := by
      have := b.isLt
      omega
    rw [leNat, List.length_cons, natLe, low, high, ih]

/-- A decided response changes the host port only (14 R335). -/
theorem State.hgDecide_hinge (s : State) (code : BitVec 2) : ∃ h, s.hgDecide code = { s with hinge := h } := by
  unfold State.hgDecide State.hgDenied
  dsimp only
  split
  · obtain ⟨w, a, eq, -⟩ := State.hgFlush_hinge { s with hinge := { s.hinge with
      waiting := updFirst (fun r => !r.done) (fun r => { r with code := code, done := true }) s.hinge.waiting
      denied := satInc 16 s.hinge.denied, pend := true } }
    exact ⟨_, eq⟩
  · obtain ⟨w, a, eq, -⟩ := State.hgFlush_hinge { s with hinge := { s.hinge with
      waiting := updFirst (fun r => !r.done) (fun r => { r with code := code, done := true }) s.hinge.waiting } }
    exact ⟨_, eq⟩

/-- A retired write puts the record into the shadow with COUNT one more, and counts (R413, R416). -/
theorem State.ltRetire_record {s : State} {i : Nat} (d : Word) (plain : i ≠ 68) : ∃ w g li lc le ln h, s.ltRetire i d = { s with
    lt := { s.lt with
      shadow := SMap.put s.lt.shadow LtRec.init i { data := d, count := (s.record i).count + 1, bad := false }
      writes := w, warn := g, logIndex := li, logCause := lc, logEvent := le, logCount := ln }
    hinge := h } := by
  unfold State.ltRetire
  dsimp only
  rw [if_neg plain]
  split <;> exact ⟨_, _, _, _, _, _, _, rfl⟩

theorem State.record_put {s : State} {m : SMap LtRec} {i : Nat} {r : LtRec} (h : s.lt.shadow = SMap.put m LtRec.init i r) (k : Nat) :
    s.record k = if k = i then r else SMap.look m LtRec.init k := by
  rw [State.record, h, SMap.look_put]

/-! ### The Deadbolt and Hatch -/

theorem Responds.lt {h : HgMeta} {code : BitVec 2} {v : Word} {s z s' : State} (r : Responds h code v s z s') : s'.lt = z.lt := by
  have lt := congrArg State.lt r.rest
  exact lt

theorem Responds.field {h : HgMeta} {code : BitVec 2} {v : Word} {s z s' : State} (r : Responds h code v s z s') {α : Type}
    (f : Lintel → α) : f s'.lt = f z.lt := by
  rw [r.lt]

/-- A write that reaches a register of the always-on region. -/
theorem State.hgRequest_aon {s : State} {h : HgMeta} {off : Nat} {r : HReg} {d : Word} (alone : s.hinge.waiting = [])
    (ready : s.hgReady = true) (inside : s.hgOutside h = false) (reg : hregOf off = some r) (aon : r.domain = none) :
    s.hgRequest h off (some d) = (s.hinged h).hgWrite h r d := by
  rw [State.hgRequest_alone alone ready, if_neg (by simp), if_neg (by simp [inside]), reg]
  simp only [State.regShut, State.regOff, State.regWake, aon, Bool.false_eq_true, if_false]

/-- Settles O55: each event is one branch of its function, and Hatch's end is the reset of the core at stage 1. -/
theorem deadboltAndHatch : Obligations.DeadboltAndHatch := by
  intro s
  have ends (y : State) : ((y.coreReset.stageOne).wdSet 0 0).ltIrq.lt.hatchActive = false ∧
      ((y.coreReset.stageOne).wdSet 0 0).ltIrq.boot.stage = 1 ∧
      ((y.coreReset.stageOne).wdSet 0 0).ltIrq.frame.plane0.state = .empty ∧
      ((y.coreReset.stageOne).wdSet 0 0).ltIrq.frame.plane1.state = .empty ∧
      ((y.coreReset.stageOne).wdSet 0 0).ltIrq.wd.period = 100000 ∧
      ((y.coreReset.stageOne).wdSet 0 0).ltIrq.hinge.irqStat.getLsbD 12 = true := by
    refine ⟨rfl, rfl, rfl, rfl, rfl, ?_⟩
    show (y.hinge.irqStat ||| BitVec.ofNat 13 (2 ^ 12)).getLsbD 12 = true
    rw [BitVec.getLsbD_or, Bool.or_eq_true]
    exact .inr (by decide)
  have req : (pack [(0, 1, 1)]).getLsbD 0 = true := by decide
  have run (h : HgMeta) (ready : s.hgReady = true) (one : h.bcast = false) (alone : s.hinge.waiting = []) :
      exec (.hatchRequest h) s = .next ((s.hinged h).hgWrite h .hatchCtl (pack [(0, 1, 1)])) :=
    congrArg _ (State.hgRequest_aon alone ready (by simp [State.hgOutside, one]) (by decide) rfl)
  refine ⟨fun out => ?assert, fun core => .of_eq rfl (if_neg (by simp [core])) rfl, fun active c hc => ?ends, fun _ => ⟨_, rfl, rfl⟩,
    fun h ready one on alone => ⟨fun open' => ?denied, fun held now due => ?asks⟩,
    fun req still early held => ?procedure, fun still => ?timeout⟩
  case assert =>
    by_cases early : s.lt.lowTicks < 16
    · exact .of_eq rfl (if_pos (by simp [early])) (if_pos early).symm
    · exact .of_eq rfl (if_neg (by simp [out, early])) (if_neg early).symm
  case ends =>
    simp only [List.mem_cons, List.not_mem_nil, or_false] at hc
    rcases hc with rfl | rfl
    · exact .of_eq rfl (if_pos active) (ends _)
    · exact .of_eq rfl (if_pos active) (ends _)
  case denied =>
    have out := Responds.of_hgRsp (s := s) (h := h)
      (z := { s.hinged h with lt := { s.lt with deny := true, denies := satInc 16 s.lt.denies } }.ltIrq) alone rfl rfl 0 2
    refine .of_eq (run h ready one alone) (if_pos (by rw [req, show (s.hinged h).lt.asserted = s.lt.asserted from rfl, open']; rfl))
      ⟨?_, ?_, ?_, out.answers⟩
    · exact out.field Lintel.hatchReq
    · exact out.field Lintel.deny
    · exact out.field Lintel.denies
  case asks =>
    have out := Responds.of_hgRsp (s := s) (h := h) (z := { s.hinged h with lt := { s.lt with
      hatchErr := w1cBit s.lt.hatchErr (pack [(0, 1, 1)]) 1, hatchReq := true, hatchArmed := s.planesEmpty, hatchTicks := 0 } })
      alone rfl rfl 0 0
    have writes : (s.hinged h).hatchCtl (pack [(0, 1, 1)]) = { s.hinged h with lt := { s.lt with
        hatchErr := w1cBit s.lt.hatchErr (pack [(0, 1, 1)]) 1, hatchReq := true, hatchArmed := s.planesEmpty, hatchTicks := 0 } } := by
      have due' : (s.lt.hatchReq && decide (1000000 ≤ s.lt.hatchTicks)) = false := by
        rcases due with idle | early
        · rw [idle, Bool.false_and]
        · rw [decide_eq_false (by omega), Bool.and_false]
      unfold State.hatchCtl
      refine (if_pos ?_)
      show ((pack [(0, 1, 1)]).getLsbD 0 && !(s.lt.hatchReq && decide (1000000 ≤ s.lt.hatchTicks)) && !s.goIgnored .hatch) = true
      rw [req, due', now]
      rfl
    refine .of_eq (run h ready one alone) ((if_neg (by rw [req, show (s.hinged h).lt.asserted = s.lt.asserted from rfl, held]; exact nofun)).trans
      (congrArg (fun z : State => z.hgRsp h 0 0) writes)) ⟨?_, ?_, ?_, ?_, out.answers⟩
    · exact out.field Lintel.hatchReq
    · exact out.field Lintel.hatchTicks
    · exact out.field Lintel.deny
    · rw [out.field Lintel.hatchArmed]
      simp [State.planesEmpty]
  case procedure =>
    intro empty refused
    have waits : (!s.lt.hatchReq || s.hatchWriting || decide (1000000 < s.lt.hatchTicks)) = false := by
      simp [req, still, early]
    have clear : ((!s.lt.hatchArmed || !s.planesEmpty) = false) ↔ empty := by
      simp [empty, State.planesEmpty]
    have run (z : State) (h : (if !s.lt.hatchArmed || !s.planesEmpty then s.hatchRefuse (some 1)
        else if ltWornAt ≤ (s.record 16).count then s.hatchRefuse (some 2) else s.ltSend .hatch) = z) :
        exec .hatchProcedureComplete s = .next z := by
      refine congrArg _ ((if_neg (by rw [waits]; exact nofun)).trans ((if_neg (by simp [held])).trans h))
    refine ⟨fun full => ?one, fun clear' worn => ?two, fun clear' fresh => ?goes⟩
    case one => exact ⟨_, run _ (if_pos (by rwa [← clear, Bool.not_eq_false] at full)), rfl⟩
    case two => exact ⟨_, run _ ((if_neg (by rw [clear.2 clear']; exact nofun)).trans (if_pos worn)), rfl⟩
    case goes => exact ⟨_, run _ ((if_neg (by rw [clear.2 clear']; exact nofun)).trans (if_neg (Nat.not_le.2 fresh))), rfl, req⟩
  case timeout =>
    by_cases late : s.lt.hatchReq = true ∧ 1000000 ≤ s.lt.hatchTicks
    · have ends : { s with lt := { s.lt with hatchReq := false } }.goCleared .hatch = { s with
          lt := { s.lt with hatchReq := false }
          time := { s.time with now := { s.time.now with cleared := GoBit.hatch :: s.time.now.cleared } } } := by
        unfold State.goCleared
        split <;> rfl
      refine .of_eq rfl ((if_pos (by simp [late, still])).trans ends) ⟨?_, rfl⟩
      simp [late]
    · refine .of_eq rfl (if_neg (by simpa [still] using late)) ⟨?_, rfl⟩
      have same : (s.lt.hatchReq && decide (s.lt.hatchTicks < 1000000)) = s.lt.hatchReq := by
        cases req : s.lt.hatchReq
        · rfl
        · simpa [req] using late
      rw [same]

/-! ### The entry into Hatch (R419, R421) -/

/-- What turning links off leaves: only the links, the engines' entries, the latches and the host port's interrupt change, and a link
that is OFF stays OFF. -/
structure Shuts (ls : List Nat) (s s' : State) : Prop where
  rest : { s' with door := s.door, eng := s.eng, latch := s.latch, fresh := s.fresh, hinge := s.hinge } = s
  held : s'.door.held = s.door.held
  off : ∀ m, m ∈ ls ∨ (s.link m).state = .off → (s'.link m).state = .off

namespace Shuts

theorem refl (s : State) : Shuts [] s s := ⟨rfl, rfl, fun _ h => h.resolve_left (by simp)⟩

theorem trans {ls ks : List Nat} {a b c : State} (h : Shuts ls a b) (k : Shuts ks b c) : Shuts (ls ++ ks) a c where
  rest := (congrArg (fun z : State => { z with
    door := a.door, eng := a.eng, latch := a.latch, fresh := a.fresh, hinge := a.hinge }) k.rest).trans h.rest
  held := k.held.trans h.held
  off m hm := by
    rw [List.mem_append] at hm
    rcases hm with (hm | hm) | hm
    · exact k.off m (.inr (h.off m (.inl hm)))
    · exact k.off m (.inl hm)
    · exact k.off m (.inr (h.off m (.inr hm)))

theorem of_sheds {s s' : State} (h : Sheds s s') : Shuts [] s s' where
  rest := congrArg (fun z : State => { z with hinge := s.hinge }) h.rest
  held := by
    have held := congrArg Doorway.held h.door
    exact held
  off m hm := (h.state m).trans (hm.resolve_left (by simp))

theorem modLink (s : State) (l : Nat) (g : Link → Link) (off : ∀ k, k.state = .off → (g k).state = .off) : Shuts [] s (s.modLink l g) where
  rest := rfl
  held := rfl
  off m hm := by
    have was := hm.resolve_left (by simp)
    rw [State.link_modLink]
    split
    next here => rw [← here]; exact off _ was
    · exact was

theorem linkClear (s : State) (l : Nat) : Shuts [] s (s.linkClear l) :=
  (modLink s l Link.emptied fun _ h => h).trans (of_sheds (s.linkClear_sheds l).1)

theorem linkOff (s : State) (l : Nat) : Shuts [l] s (s.linkOff l) := by
  by_cases off : (s.link l).state = .off
  · rw [State.linkOff, if_pos off]
    exact ⟨rfl, rfl, fun m hm => hm.elim (fun here => by rw [List.mem_singleton.1 here]; exact off) id⟩
  · have goes : Shuts [l] s ((s.modLink l fun k => { k with gen := 0, bypass := false }).linkTo l .off) := by
      refine ⟨rfl, rfl, fun m hm => ?_⟩
      rw [State.link_linkTo]
      split
      · rfl
      next other =>
        rw [State.link_modLink_ne other]
        exact hm.resolve_left (by simpa using other)
    rw [State.linkOff, if_neg off]
    exact goes.trans (linkClear _ l)

theorem foldl (ls : List Nat) (s : State) : Shuts ls s (ls.foldl (fun s l => (s.linkClear l).linkOff l) s) := by
  induction ls generalizing s with
  | nil => exact refl s
  | cons l ls ih =>
    have rest := ih ((s.linkClear l).linkOff l)
    rw [List.foldl_cons]
    exact ((linkClear s l).trans (linkOff _ l)).trans rest

theorem fields {ls : List Nat} {s s' : State} (h : Shuts ls s s') : s'.lt = s.lt ∧ s'.frame = s.frame ∧ ∀ t, s'.th t = s.th t := by
  have lt := congrArg State.lt h.rest
  have frame := congrArg State.frame h.rest
  have f := congrArg State.f h.rest
  have b := congrArg State.b h.rest
  have u := congrArg State.u h.rest
  have s := congrArg State.s h.rest
  exact ⟨lt, frame, fun t => by cases t; exacts [f, b, u, s]⟩

end Shuts

/-- The state in Hatch. -/
theorem State.hatchEnter_state (s : State) :
    s.hatchEnter.lt = { s.lt with hatchReq := false, hatchResult := 0, hatchActive := true, hatchSince := true } ∧
    (∀ t, (s.hatchEnter.th t).state = .idle) ∧ s.hatchEnter.frame.plane0.state = .empty ∧ s.hatchEnter.frame.plane1.state = .empty ∧
    (∀ l < 6, (s.hatchEnter.link l).state = .off) ∧ s.hatchEnter.door.held = true := by
  let y := allThreads.foldl (fun s t => s.modTh t fun x => { x with state := .idle, wait := .none, stopAsked := false })
    { s with lt := { s.lt with hatchReq := false, hatchResult := 0, hatchActive := true, hatchSince := true } }.ltIrq
  let z : State := { y with
    frame := { y.frame with plane0 := Plane.init, plane1 := Plane.init, busy := false }
    door := { y.door with held := true } }
  have shuts : Shuts (List.range 6) z s.hatchEnter := Shuts.foldl _ z
  obtain ⟨lt, frame, th⟩ := shuts.fields
  have idle (t : Thread) : (z.th t).state = .idle := by cases t <;> rfl
  have links (l : Nat) (hl : l < 6) : (s.hatchEnter.link l).state = .off := shuts.off l (.inl (List.mem_range.2 hl))
  have held := shuts.held
  generalize s.hatchEnter = r at *
  exact ⟨lt, fun t => by rw [th]; exact idle t, by rw [frame]; rfl, by rw [frame]; rfl, links, held⟩

theorem hatchEntry : HatchEntry := by
  intro s rdata late reqs held
  obtain ⟨w, g, li, lc, le, ln, h, eq⟩ := State.ltRetire_record (s := s.ltNext none) (i := 16) s.hatchCount (by decide)
  have held' : ((s.ltNext none).ltRetire 16 s.hatchCount).lt.asserted = true := by rw [eq]; exact held
  have run : exec (.lintelResponse 0 rdata) s = .next ((s.ltNext none).ltRetire 16 s.hatchCount).hatchEnter := by
    refine congrArg Host.Outcome.next ((if_neg (by simp [late])).trans ?_)
    rw [reqs]
    exact (if_pos rfl).trans (if_pos held')
  have shadow : ((s.ltNext none).ltRetire 16 s.hatchCount).lt.shadow = SMap.put s.lt.shadow LtRec.init 16
      { data := s.hatchCount, count := (s.record 16).count + 1, bad := false } := by rw [eq]; rfl
  obtain ⟨lt, idle, plane0, plane1, links, closed⟩ := ((s.ltNext none).ltRetire 16 s.hatchCount).hatchEnter_state
  have record := State.record_put (s := ((s.ltNext none).ltRetire 16 s.hatchCount).hatchEnter) (by rw [lt]; exact shadow) 16
  rw [if_pos rfl] at record
  exact ⟨_, run, by rw [lt], by rw [lt], by rw [lt], by rw [record]; rfl, by rw [record], idle, plane0, plane1, links, closed⟩

/-! ### Writes of the store (R412 to R417) -/

/-- What the answers of the port do with a write at the head (R413, R414). -/
theorem State.ltNext_record (s : State) (q : Option LtReq) (k : Nat) : (s.ltNext q).record k = s.record k := rfl

/-- A write that is denied behind the port changes no record (R414). -/
theorem State.ltDeny_readBack (s : State) (n : Nat) (d : Word) (cause : Nat) : ∃ h,
    ((s.ltNext (some (.readBack n d))).ltDeny n cause 2).hgDecide 2 =
      { (s.ltNext (some (.readBack n d))).ltDeny n cause 2 with hinge := h } :=
  State.hgDecide_hinge _ 2

/-- A response that waits for its write (14 R335). -/
theorem State.hgQueue_waits {s : State} {h : HgMeta} (alone : s.hinge.waiting = []) (v : Word) (code : BitVec 2) :
    s.hgQueue h v code false =
      { s with hinge := { s.hinge with waiting := [{ id := h.id, rdata := v, code := code, done := false }] } } := by
  unfold State.hgQueue State.hgFlush
  cases level : s.hinge.rspReady <;> simp [alone, level]

theorem StartsUp.store {s s' : State} (h : StartsUp s s') :
    s'.boot.lintelErr = s.boot.lintelErr ∧ s'.lt.shadow = s.lt.shadow ∧ s'.door.node = s.door.node := by
  have err := congrArg Boot.lintelErr h.boot
  have lt := congrArg State.lt h.rest
  have door := congrArg State.door h.rest
  exact ⟨err, congrArg Lintel.shadow lt, congrArg Doorway.node door⟩

/-- What the port shows of a write at the head: the bytes of its record (R409, R413, R417). -/
theorem State.ltPort_write {s : State} {n : Nat} {d : Word} {rest : List LtReq} (late : s.lt.late = false) (free : s.lt.taken = false)
    (reqs : s.lt.reqs = .write n d :: rest) : let bs := natLe 16 s.ltPort.wdata
    s.ltPort.valid = true ∧ s.ltPort.write = true ∧ s.ltPort.index = n ∧
    bs.take 12 = natLe 8 d.toNat ++ natLe 4 ((s.record n).count + 1) ∧ leNat (bs.drop 12) = (crc32c (bs.take 12)).toNat := by
  have shown : s.ltPort = { valid := true, write := true, index := n, wdata := s.ltWdata n d } := by
    simp [State.ltPort, late, free, reqs]
  have length : (ltBytes d ((s.record n).count + 1)).length = 16 := by simp [ltBytes, natLe_length]
  have whole := natLe_leNat (ltBytes d ((s.record n).count + 1))
  rw [length] at whole
  have first : (natLe 8 d.toNat ++ natLe 4 ((s.record n).count + 1)).length = 12 := by simp [natLe_length]
  rw [shown]
  dsimp only
  rw [State.ltWdata, whole, ltBytes, List.take_left' first, List.drop_left' first, leNat_natLe]
  exact ⟨rfl, rfl, rfl, rfl, Nat.mod_eq_of_lt (BitVec.isLt _)⟩

theorem storeWrites : StoreWrites := by
  intro s h i d
  refine ⟨fun ready inside alone on reg => ⟨fun cause refused => ?denied, fun allowed => ?sent⟩,
    fun n rest late free reqs room => ?port, fun n late reqs plain => ⟨fun rdata => ?ok, fun rdata => ?error, fun early => ?early,
      fun taken late' => ?timeout⟩, fun n rdata r late reqs plain parsed => ?back, fun stage unread => ?unread⟩
  case denied =>
    have out := Responds.of_hgRsp (s := s) (h := h) (z := (s.hinged h).ltDeny i.toNat cause 1) alone rfl rfl 0 2
    refine .of_eq (congrArg Host.Outcome.next (State.hgRequest_aon alone ready inside reg rfl)) (s' := ((s.hinged h).ltDeny i.toNat cause 1).hgRsp h 0 2) ?_
      ⟨out.answers, ?_, ?_, ?_, ?_, ?_⟩
    · show (s.hinged h).lintelReq h i.toNat d = _
      unfold State.lintelReq
      rw [show (s.hinged h).ltRefuses h.bcast i.toNat = some cause from refused]
      rfl
    · exact out.field Lintel.shadow
    · exact out.field Lintel.reqs
    · exact out.field Lintel.logCause
    · exact (out.field Lintel.logIndex).trans (by simp [State.ltDeny, State.ltLog, State.ltIrq])
    · exact out.field Lintel.denies
  case sent =>
    have waits := State.hgQueue_waits (s := (s.hinged h).ltSend (.write i.toNat (d &&& ltMask i.toNat))) (h := h) alone 0 0
    have sends : (s.hinged h).lintelReq h i.toNat d =
        ((s.hinged h).ltSend (.write i.toNat (d &&& ltMask i.toNat))).hgQueue h 0 0 false := by
      unfold State.lintelReq
      rw [show (s.hinged h).ltRefuses h.bcast i.toNat = none from allowed]
      rfl
    exact .of_eq (congrArg Host.Outcome.next (State.hgRequest_aon alone ready inside reg rfl)) (sends.trans waits) ⟨rfl, rfl, rfl⟩
  case port => exact State.ltPort_write late free reqs
  case ok =>
    obtain ⟨w, g, li, lc, le, ln, h', eq⟩ := State.ltRetire_record (s := s.ltNext none) (i := n) d plain
    obtain ⟨hinge, decided⟩ := ((s.ltNext none).ltRetire n d).hgDecide_hinge 0
    have run : exec (.lintelResponse 0 rdata) s = .next (((s.ltNext none).ltRetire n d).hgDecide 0) := by
      refine congrArg Host.Outcome.next ((if_neg (by simp [late])).trans ?_)
      rw [reqs]
      exact if_pos rfl
    rw [decided, eq] at run
    refine ⟨_, run, (State.record_put rfl n).trans (if_pos rfl), ?_, rfl, fun k hk => (State.record_put rfl k).trans (if_neg hk)⟩
    show s.lt.reqs.drop 1 = []
    rw [reqs]
    rfl
  case error =>
    obtain ⟨hinge, decided⟩ := s.ltDeny_readBack n d 6
    have run : exec (.lintelResponse 1 rdata) s = .next (((s.ltNext (some (.readBack n d))).ltDeny n 6 2).hgDecide 2) := by
      refine congrArg Host.Outcome.next ((if_neg (by simp [late])).trans ?_)
      rw [reqs]
      exact if_neg (by decide)
    rw [decided] at run
    refine ⟨_, run, rfl, ?_, rfl, rfl⟩
    show LtReq.readBack n d :: s.lt.reqs.drop 1 = _
    rw [reqs]
    rfl
  case early => exact .of_eq rfl (if_pos (by rcases early with h | h <;> simp [h])) rfl
  case timeout =>
    obtain ⟨hinge, decided⟩ := s.ltDeny_readBack n d 7
    have run : exec .lintelTimeout s = .next (let s := ((s.ltNext (some (.readBack n d))).ltDeny n 7 2).hgDecide 2
        { s with lt := { s.lt with late := true } }) := by
      refine congrArg Host.Outcome.next ((if_neg (by simp [late, taken, late'])).trans ?_)
      rw [reqs]
      rfl
    rw [decided] at run
    refine ⟨_, run, rfl, ?_, rfl, rfl⟩
    show LtReq.readBack n d :: s.lt.reqs.drop 1 = _
    rw [reqs]
    rfl
  case back =>
    have run : exec (.lintelResponse 0 rdata) s = .next ((s.ltNext none).ltResolve n d (some r)) := by
      refine congrArg Host.Outcome.next ((if_neg (by simp [late])).trans ?_)
      rw [reqs]
      exact congrArg ((s.ltNext none).ltResolve n d) ((if_pos rfl).trans parsed)
    refine .of_eq run (if_neg plain) ⟨(State.record_put rfl n).trans (if_pos rfl), rfl, rfl, ?_⟩
    show s.lt.reqs.drop 1 = []
    rw [reqs]
    rfl
  case unread =>
    by_cases early : s.time.bootTicks < 2000
    · exact .of_eq rfl (if_neg (by simp [early])) (by rw [if_pos early])
    · let y : State := { s.noStore with lt := { s.noStore.lt with
        late := (match s.lt.reqs.head? with
          | some (.read _) => s.lt.taken
          | _ => s.lt.late)
        taken := s.lt.taken && !(match s.lt.reqs.head? with
          | some (.read _) => s.lt.taken
          | _ => s.lt.late) } }
      have run : exec .lintelReadTimeout s = .next (y.toStage 2).stageGo :=
        congrArg _ (if_pos (by simp [stage, unread]; omega))
      have up := (y.toStage 2).stageGo_starts
      refine ⟨_, run, ?_⟩
      simp only [if_neg early]
      obtain ⟨err, shadow, node⟩ := up.store
      exact ⟨err, shadow, node, up.stage⟩

/-- Settles O56: a write is refused by R412 or sent, and each answer of the port is one branch of its function. -/
theorem lintelStore : Obligations.LintelStore := ⟨storeWrites, hatchEntry⟩

end Sys2Proof.Machine
end

/-! PROOFS. The starts of engines and the completion of entries (spec/10 R233 to R242; spec/09 R219). -/
section
namespace Sys2Proof.Machine

/-! ### The start of an entry -/

theorem threadOf_num (t : Thread) : threadOf (Thread.num t) = t := by cases t <;> rfl

theorem num_threadOf {n : Nat} (h : n < 4) : Thread.num (threadOf n) = n := by
  interval_cases n <;> rfl

theorem num_lt_four (t : Thread) : Thread.num t < 4 := by cases t <;> decide

theorem OnlyLogs.eng {s s' : State} (h : OnlyLogs s s') : s'.eng = s.eng := by
  have eng := congrArg State.eng h.rest
  exact eng

/-- Reading a cached descriptor leaves the engines as they are (R71). -/
theorem State.dcRead_eng (s : State) (c h : Nat) : (s.dcRead c h).1.eng = s.eng := by
  have touch (z : State) : (z.dcTouch c h).eng = z.eng := by
    unfold State.dcTouch
    split <;> rfl
  unfold State.dcRead
  split
  · rfl
  · split
    · exact touch s
    · exact touch _
    · exact (OnlyLogs.of_integrity _ _).eng

theorem State.propsRead_eng (s : State) (os : List Opnd) : (s.propsRead os).eng = s.eng := by
  induction os generalizing s with
  | nil => rfl
  | cons o os ih => exact (ih _).trans (s.dcRead_eng o.ctx o.handle)

/-- A fill that is asked for is on its way (R58, R71). -/
theorem State.fillAsk_pending (s : State) (c h : Nat) : (s.fillAsk c h).fillPending c h = true ∧ (s.fillAsk c h).eng = s.eng := by
  unfold State.fillAsk
  split
  next pending => exact ⟨pending, rfl⟩
  · refine ⟨?_, rfl⟩
    have first : ∃ r ∈ readRange (.fill c h) .descFill (s.descAddr c h) 64, r.owner = .fill c h := by
      unfold readRange
      rw [if_neg (by decide)]
      exact ⟨_, List.mem_map.2 ⟨0, List.mem_range.2 (by omega), rfl⟩, rfl⟩
    obtain ⟨r, mem, owner⟩ := first
    simp only [State.fillPending, State.jambAdd, List.any_append, Bool.or_eq_true, List.any_eq_true, decide_eq_true_eq]
    exact .inl (.inr ⟨r, mem, owner⟩)

/-- A start whose checks all pass (R233, R242). -/
theorem State.startOn_clean {s : State} {q : Nat} {e e' : Entry} {lent : Bool} {props : List (Nat × Nat)}
    (found : (started s q e lent props).entry e.uid = some e') :
    s.startOn q e lent props .clean = ((started s q e lent props).jobStart e' false).sinksGo := by
  unfold State.startOn
  simp only [startUpset, decide_false, reduceCtorEq, Bool.false_and, Bool.false_eq_true, if_false]
  rw [← started, found]

/-- The start of a chosen entry whose checks all pass. -/
theorem startsEntry {i : Instr} {s : State} {q : Nat} {e : Entry} {lent : Bool}
    (run : exec i s = .next (s.startEntry q e lent .clean)) : StartsEntry i s q e lent := by
  refine ⟨fun props e' read found => ?_, fun c h missing => ?_⟩
  · refine .of_eq run ?_ rfl
    unfold State.startEntry
    simp only [read]
    exact State.startOn_clean found
  · have asks : s.startEntry q e lent .clean =
        ((s.propsRead e.job.tracked).modEntry e.uid fun x => { x with asked := some (c, h) }).fillAsk c h := by
      unfold State.startEntry
      simp only [missing]
    obtain ⟨pending, eng⟩ := State.fillAsk_pending ((s.propsRead e.job.tracked).modEntry e.uid fun x => { x with asked := some (c, h) }) c h
    have same : ((s.propsRead e.job.tracked).modEntry e.uid fun x => { x with asked := some (c, h) }).eng.engs = s.eng.engs := by
      have read := congrArg Engines.engs (s.propsRead_eng e.job.tracked)
      exact read
    exact .of_eq run asks ⟨rfl, (congrArg Engines.engs eng).trans same, pending⟩

theorem weaveStart : WeaveStart := by
  intro s q r record isOpen runs owner starts
  have startable : s.startable q = true := by rw [State.startable, isOpen, runs]; rfl
  have run : exec (.weaveStart q .clean) s = .next (match s.weaveChoice q r with
      | some c => s.startEntry q c.1 c.2 .clean
      | none => s) := by
    refine congrArg Host.Outcome.next ?_
    rw [record]
    exact (if_neg (by decide)).trans (if_pos startable)
  have chosen {c : Entry × Bool} (h : s.weaveChoice q r = some c) : starts c.1 c.2 := startsEntry (by rw [run, h])
  have nothing (h : s.weaveChoice q r = none) : Completes (.weaveStart q .clean) s fun s' => s' = s := ⟨s, by rw [run, h], rfl⟩
  have choice : s.weaveChoice q r = match (if owner < 4 then s.laneHead q (threadOf owner) else none) with
      | some e => some (e, false)
      | none => if r.lend then (s.firstHead q (if owner < 4 then streamsFrom (owner + 1) 3 else streamsFrom 0 4)).map fun e => (e, true)
        else none := rfl
  have own (t : Thread) (h : owner = Thread.num t) : (if owner < 4 then s.laneHead q (threadOf owner) else none) = s.laneHead q t := by
    rw [if_pos (h ▸ num_lt_four t), h, threadOf_num]
  have free (h : 4 ≤ owner) : (if owner < 4 then s.laneHead q (threadOf owner) else none) = none := if_neg (Nat.not_lt.2 h)
  refine ⟨fun t e is head => chosen (c := (e, false)) ?_, fun t is empty lend => ⟨fun e first => chosen (c := (e, true)) ?_, fun no => nothing ?_⟩,
    fun is lend e first => chosen (c := (e, true)) ?_, fun stays empty => nothing ?_⟩
  · rw [choice, own t is, head]
  · rw [choice, own t is, empty, lend, if_pos (rfl : true = true), if_pos (is ▸ num_lt_four t : owner < 4), is, first]
    rfl
  · rw [choice, own t is, empty, lend, if_pos (rfl : true = true), if_pos (is ▸ num_lt_four t : owner < 4), is, no]
    rfl
  · rw [choice, free is, lend, if_pos (rfl : true = true), if_neg (Nat.not_lt.2 is : ¬owner < 4), show streamsFrom 0 4 = [.F, .B, .U, .S] from rfl, first]
    rfl
  · have none' : (if owner < 4 then s.laneHead q (threadOf owner) else none) = none := by
      by_cases small : owner < 4
      · have is : owner = Thread.num (threadOf owner) := (num_threadOf small).symm
        rw [own _ is]
        exact empty _ is
      · exact if_neg small
    rw [choice, none', stays]
    rfl

theorem openWovenStart : OpenWovenStart := by
  intro s q
  refine ⟨fun woven isOpen runs => ?_, fun closed => ?_⟩
  · have run : exec (.openWovenStart q .clean) s = .next (match s.openChoice q with
        | some e => s.startEntry q e false .clean
        | none => s) :=
      congrArg Host.Outcome.next (if_pos (by rw [woven, State.startable, isOpen, runs]; rfl))
    refine ⟨fun e first => startsEntry ?_, fun no => ⟨s, ?_, rfl⟩⟩
    · rw [run, State.openChoice, first]
    · rw [run, State.openChoice, no]
  · refine .of_eq rfl (if_neg ?_) rfl
    rw [State.startable, Bool.and_eq_true, Bool.and_eq_true]
    rintro ⟨none', isOpen, runs⟩
    rw [Bool.not_eq_true'] at runs
    rcases closed with h | h | h
    · exact h (Option.isNone_iff_eq_none.1 none')
    · rw [h] at isOpen; exact nomatch isOpen
    · rw [h] at runs; exact nomatch runs

/-- Settles O30: the choice is that of R238 and R240, and the start is one operation. -/
theorem engineStarts : Obligations.EngineStarts := ⟨weaveStart, openWovenStart⟩

/-! ### What a completion leaves as it is -/

/-- The lanes, the replay and the error records stay. -/
structure Bystands (s s' : State) : Prop where
  lanes : s'.eng.lanes = s.eng.lanes
  rpl : s'.rpl.active = s.rpl.active
  qerr : ∀ t, (s'.th t).qerr = (s.th t).qerr

/-- The exception queue and the latches stay too. -/
structure Tidies (s s' : State) : Prop extends Bystands s s' where
  sash : s'.sash = s.sash
  latch : s'.latch = s.latch
  recs : s'.time.now.recs = s.time.now.recs

theorem Bystands.trans {a b c : State} (h : Bystands a b) (k : Bystands b c) : Bystands a c :=
  ⟨k.lanes.trans h.lanes, k.rpl.trans h.rpl, fun t => (k.qerr t).trans (h.qerr t)⟩

namespace Tidies

theorem refl (s : State) : Tidies s s := ⟨⟨rfl, rfl, fun _ => rfl⟩, rfl, rfl, rfl⟩

theorem trans {a b c : State} (h : Tidies a b) (k : Tidies b c) : Tidies a c :=
  ⟨h.toBystands.trans k.toBystands, k.sash.trans h.sash, k.latch.trans h.latch, k.recs.trans h.recs⟩

theorem ite {s a b : State} {p : Prop} [Decidable p] (ha : Tidies s a) (hb : Tidies s b) : Tidies s (if p then a else b) := by
  split
  · exact ha
  · exact hb

theorem foldl {α : Type} {f : State → α → State} (hf : ∀ s x, Tidies s (f s x)) (l : List α) (s : State) : Tidies s (l.foldl f s) := by
  induction l generalizing s with
  | nil => exact refl s
  | cons x l ih => exact (hf s x).trans (ih _)

theorem modTh (s : State) (t : Thread) (g : ThreadState → ThreadState) (same : ∀ x, (g x).qerr = x.qerr) : Tidies s (s.modTh t g) := by
  refine ⟨⟨by rw [State.modTh_eng], by rw [State.modTh_rpl], fun u => ?_⟩, by rw [State.modTh_sash], by rw [State.modTh_latch],
    by rw [State.modTh_time]⟩
  by_cases h : u = t
  · rw [h, State.th_modTh, same]
  · rw [State.th_modTh_ne s g h]

theorem modPlane (s : State) (c : Nat) (g : Plane → Plane) : Tidies s (s.modPlane c g) :=
  .ite ⟨⟨rfl, rfl, fun _ => rfl⟩, rfl, rfl, rfl⟩ ⟨⟨rfl, rfl, fun _ => rfl⟩, rfl, rfl, rfl⟩

theorem journalPut (s : State) (c : Nat) (t : Thread) (bs : List Byte) : Tidies s (s.journalPut c t bs) := by
  unfold State.journalPut
  split
  · exact refl s
  · exact trans (b := s.jambAdd _) ⟨⟨rfl, rfl, fun _ => rfl⟩, rfl, rfl, rfl⟩ (.modPlane ..)

theorem journalLatch (n : Nat) (s : State) (c : Nat) : Tidies s (s.journalLatch c n) := by
  induction n generalizing s with
  | zero => exact refl s
  | succ n ih => exact .ite (refl s) (((journalPut ..).trans (.modPlane ..)).trans (ih _))

theorem journalStream (s : State) (c k : Nat) (t : Thread) (step : BitVec 32) (ws : List Word) :
    Tidies s (s.journalStream c k t step ws) :=
  .ite (trans (b := s.journalFlush c) (.ite (journalLatch ..) (refl s)) (journalPut ..)) (refl s)

theorem journalClose (s : State) (t : Thread) (p : Post) : Tidies s (s.journalClose t p) := by
  unfold State.journalClose
  split
  · exact refl s
  · exact .ite ((journalStream ..).trans (.modPlane ..)) (journalStream ..)

theorem postBegin (s : State) (t : Thread) (p : Post) : Tidies s (s.postBegin t p) := by
  have post (z : State) (n : BitVec 32) (g : Post → Post) : Tidies z (z.modPost t n g) := modTh z t _ fun _ => rfl
  unfold State.postBegin
  dsimp only
  split
  · exact ((post ..).trans (journalClose _ t _)).trans ⟨⟨rfl, rfl, fun _ => rfl⟩, rfl, rfl, rfl⟩
  · exact ((post ..).trans (journalClose _ t _)).trans (post ..)

theorem irqSet (s : State) (n : Nat) : Tidies s (s.irqSet n) := ⟨⟨rfl, rfl, fun _ => rfl⟩, rfl, rfl, rfl⟩

theorem postsEnd (n : Nat) (s : State) (t : Thread) : Tidies s (s.postsEnd t n) := by
  induction n generalizing s with
  | zero => exact refl s
  | succ n ih =>
    unfold State.postsEnd
    split
    · exact refl s
    next p _ _ =>
      have done : Tidies s (s.postDone t p) := by
        refine trans ?_ (irqSet _ _)
        exact modTh s t _ fun _ => rfl
      exact .ite (done.trans (ih _)) (refl s)

theorem postsGo (s : State) (t : Thread) : Tidies s (s.postsGo t) :=
  (foldl (fun s p => postBegin s t p) _ s).trans (postsEnd ..)

theorem stepDigest (s : State) (e : Entry) (ds : List (BitVec 32)) : Tidies s (s.stepDigest e ds) := by
  unfold State.stepDigest
  exact .ite (modTh _ _ _ fun _ => rfl) (modPlane ..)

theorem journalEntry (s : State) (e : Entry) (status : Nat) : Tidies s (s.journalEntry e status) := by
  unfold State.journalEntry
  split
  · exact refl s
  · dsimp only
    exact .ite ((Tidies.ite (stepDigest ..) (refl s)).trans (foldl (fun s ws => journalStream s ..) _ _)) (refl s)

theorem postCount (s : State) (e : Entry) (status : Nat) : Tidies s (s.postCount e status) := by
  refine modTh s _ _ fun x => ?_
  dsimp only
  split
  · rfl
  · split <;> rfl

theorem completionCount (s : State) (e : Entry) (status : Nat) : Tidies s (s.completionCount e status) := by
  have er (z : State) (g : EngRegs → EngRegs) : Tidies z (z.modEr g) := ⟨⟨rfl, rfl, fun _ => rfl⟩, rfl, rfl, rfl⟩
  have cr (z : State) (g : CtlRegs → CtlRegs) : Tidies z (z.modCr g) := ⟨⟨rfl, rfl, fun _ => rfl⟩, rfl, rfl, rfl⟩
  unfold State.completionCount
  dsimp only
  split
  · exact .ite (refl s) (er ..)
  · exact .ite (refl s) (er ..)
  · exact .ite (cr ..) (refl s)
  · exact cr ..
  · exact cr ..
  · exact refl s

theorem advEffect (s : State) (e : Entry) : Tidies s (s.advEffect e) := by
  unfold State.advEffect
  split
  · exact .ite (refl s) (modPlane ..)
  · exact refl s

theorem goCleared (s : State) (b : GoBit) : Tidies s (s.goCleared b) := by
  have err (v : Bool) : Tidies s (s.setGoErr b v) := by cases b <;> exact ⟨⟨rfl, rfl, fun _ => rfl⟩, rfl, rfl, rfl⟩
  exact (Tidies.ite (err false) (refl s)).trans ⟨⟨rfl, rfl, fun _ => rfl⟩, rfl, rfl, rfl⟩

theorem abortNote (s : State) (e : Entry) : Tidies s (s.abortNote e) := by
  unfold State.abortNote
  dsimp only
  have cr (g : CtlRegs → CtlRegs) : Tidies s (s.modCr g) := ⟨⟨rfl, rfl, fun _ => rfl⟩, rfl, rfl, rfl⟩
  exact .ite (.ite ((cr _).trans (goCleared ..)) (cr _)) (refl s)

theorem queueRelease (s : State) (q : Nat) : Tidies s (s.queueRelease q) := .ite ⟨⟨rfl, rfl, fun _ => rfl⟩, rfl, rfl, rfl⟩ (refl s)

theorem faultReleased (s : State) (e : Entry) : Tidies s (s.faultReleased e) := by
  unfold State.faultReleased
  exact .ite (.ite ((queueRelease ..).trans (foldl queueRelease _ _)) (queueRelease ..)) (refl s)

end Tidies

/-! ### The signals of a completion -/

theorem Bystands.of_logs {s s' : State} (h : OnlyLogs s s') : Bystands s s' := by
  have eng := h.eng
  have rpl := congrArg State.rpl h.rest
  exact ⟨by rw [eng], congrArg Replay.active rpl, fun t => by rw [h.th]⟩

theorem Tidies.stopAtBoundary (s : State) (t : Thread) : Tidies s (s.stopAtBoundary t) := by
  rw [State.stopAtBoundary_eq]
  refine modTh s t _ fun x => ?_
  have same := congrArg ThreadState.qerr (boundaryStop_rest x)
  exact same

theorem Bystands.latchOverflow (s : State) (bank k : Nat) (src : SigSrc) : Bystands s (s.latchOverflow bank k src) := by
  have stopIn (z : State) (u : Thread) : Tidies z (stopIn bank z u) := .ite (.stopAtBoundary ..) (.refl z)
  have pushed : Bystands s ((noteOverflow s bank k src).excPush (overflowInfo bank k src)) :=
    trans (b := noteOverflow s bank k src) ⟨rfl, rfl, fun _ => rfl⟩ (of_logs (.of_excPush ..))
  rw [State.latchOverflow_eq]
  refine pushed.trans ?_
  unfold overflowPolicy
  split
  · exact (Tidies.ite (.stopAtBoundary ..) (.refl _)).toBystands
  · exact (((stopIn _ .F).trans (stopIn _ .B)).trans (stopIn _ .U)).toBystands.trans (of_logs (.of_integrity ..))
  · exact (Tidies.refl _).toBystands

theorem Tidies.latchEvent (s : State) (bank k : Nat) (src : SigSrc) : Tidies s (s.latchEvent bank k src) := by
  unfold State.latchEvent
  split
  · exact .ite (.modPlane ..) (.refl s)
  · exact .refl s

/-- What a failed parity check of the latch unit changes is not a latch (16 R384, R388). -/
theorem Bystands.parityCheck (s : State) (k : Site) : Bystands s (s.parityCheck k) ∧ (s.parityCheck k).latch = s.latch := by
  unfold State.parityCheck
  split
  · exact ⟨(Tidies.refl s).toBystands, rfl⟩
  · exact ⟨⟨rfl, rfl, fun _ => rfl⟩, rfl⟩
  next d _ =>
    let y := (((s.struck k).stopAtBoundary .F).stopAtBoundary .B).stopAtBoundary .U
    have stops : Tidies (s.struck k) y := ((Tidies.stopAtBoundary _ _).trans (.stopAtBoundary _ _)).trans (.stopAtBoundary _ _)
    have logs : OnlyLogs { y with int := { y.int with qstop := 0x7FF } } ((s.struck k).controlParity d) := .of_integrity ..
    have latch := congrArg State.latch logs.rest
    have stopped : Bystands s { y with int := { y.int with qstop := 0x7FF } } := ⟨stops.lanes, stops.rpl, stops.qerr⟩
    exact ⟨stopped.trans (of_logs logs), latch.trans stops.latch⟩

theorem Bystands.latchSignal (s : State) (bank k : Nat) (src : SigSrc) : Bystands s (s.latchSignal bank k src) := by
  have woken : Bystands s s.wakeAsk := ⟨by rw [State.wakeAsk_eng], by rw [State.wakeAsk_rpl], fun t => by rw [State.th_wakeAsk]⟩
  unfold State.latchSignal
  dsimp only
  refine woken.trans (Bystands.trans ?_ (Bystands.parityCheck _ _).1)
  split
  · exact latchOverflow ..
  · exact trans (b := s.wakeAsk.setLatch bank k _) ⟨rfl, rfl, fun _ => rfl⟩ (Tidies.latchEvent ..).toBystands

/-- A signal to a latch that is not full adds 1, whatever the check of its parity finds (R252). -/
theorem State.latchCount_latchSignal {s : State} {bank k : Nat} (room : s.latchCount bank k ≠ 255) (src : SigSrc) :
    (s.latchSignal bank k src).latchCount bank k = s.latchCount bank k + 1 := by
  have count : s.wakeAsk.latchCount bank k = s.latchCount bank k := State.latchCount_congr (State.wakeAsk_latch s) bank k
  unfold State.latchSignal
  dsimp only
  rw [State.latchCount_congr (Bystands.parityCheck _ _).2, count, if_neg room, State.latchCount_congr (State.latchEvent_latch ..)]
  simp [State.latchCount, State.setLatch, SMap.look_put]

theorem Bystands.completionSignal (s : State) (e : Entry) : Bystands s (s.completionSignal e) := by
  have lat (src : SigSrc) : Bystands s (match e.latch with
      | some k => s.latchSignal e.ctx k src
      | none => s) := by
    split
    · exact latchSignal ..
    · exact (Tidies.refl s).toBystands
  unfold State.completionSignal
  dsimp only
  split
  · exact (lat _).trans (latchSignal ..)
  · exact lat _

/-! ### The status -/

theorem excRecord_queue (cycle : Word) (i : ExcInfo) : (excRecord cycle i).w0.toNat / 2 ^ 19 % 16 = i.queue % 16 := by
  simp only [excRecord, w64, BitVec.toNat_ofNat, Nat.shiftLeft_eq]
  omega

/-- The record of a completion of the fault class (R223). -/
def faultInfo (e : Entry) (st : Nat) : ExcInfo :=
  { cause := 0x10, thread := Thread.num e.stream, ctx := e.ctx, status := st, queue := e.queue, bel := false, pc := 0
    info := e.iseq.zeroExtend 64 }

/-- The error record after a status (R219). -/
def State.errored (s : State) (e : Entry) (st : Nat) : State :=
  s.modTh e.stream fun x => { x with qerr := SMap.put x.qerr 0 e.queue (qerrWord (SMap.look x.qerr 0 e.queue) st e.iseq) }

theorem State.postStatus_eq (s : State) (e : Entry) (st : Nat) : s.postStatus e st =
    if st = 0 then s else if isFaultClass st then (s.errored e st).excPush (faultInfo e st) else s.errored e st := rfl

theorem State.errored_qerr (s : State) (e : Entry) (st k : Nat) : SMap.look ((s.errored e st).th e.stream).qerr 0 k =
    if k = e.queue then qerrWord (SMap.look (s.th e.stream).qerr 0 k) st e.iseq else SMap.look (s.th e.stream).qerr 0 k := by
  rw [State.errored, State.th_modTh]
  refine (SMap.look_put e.queue _ k).trans ?_
  split
  next h => rw [h]
  · rfl

/-- What posting a status does (R219). -/
theorem State.postStatus_posts (s : State) (e : Entry) (st : Nat) :
    (s.postStatus e st).eng.lanes = s.eng.lanes ∧ (s.postStatus e st).rpl.active = s.rpl.active ∧ (s.postStatus e st).latch = s.latch ∧
    (∀ k, SMap.look ((s.postStatus e st).th e.stream).qerr 0 k =
      if k = e.queue ∧ st ≠ 0 then qerrWord (SMap.look (s.th e.stream).qerr 0 k) st e.iseq else SMap.look (s.th e.stream).qerr 0 k) ∧
    (isFaultClass st = true → s.sash.excq.length < 16 → Enters (fun x => x.w0.toNat % 256 = 0x10 ∧
      x.w0.toNat / 2 ^ 19 % 16 = e.queue % 16 ∧ x.w2 = e.iseq.zeroExtend 64) s (s.postStatus e st)) := by
  rw [State.postStatus_eq]
  by_cases fine : st = 0
  · rw [if_pos fine]
    exact ⟨rfl, rfl, rfl, fun k => (if_neg (by simp [fine])).symm, fun fault => absurd fault (by simp [isFaultClass, fine])⟩
  · have qerr (k : Nat) := s.errored_qerr e st k
    have pick (k : Nat) : (k = e.queue ∧ st ≠ 0) = (k = e.queue) := by simp [fine]
    rw [if_neg fine]
    simp only [pick]
    split
    next fault =>
      refine ⟨by rw [State.excPush_eng, State.errored, State.modTh_eng], by rw [State.excPush_rpl, State.errored, State.modTh_rpl],
        by rw [State.excPush_latch, State.errored, State.modTh_latch], fun k => by rw [State.th_excPush]; exact qerr k, fun _ room => ?_⟩
      obtain ⟨⟨a, b, enters, push, _⟩, _, _⟩ := Records.of_excPush (s.errored e st) (faultInfo e st)
      rw [State.errored, State.modTh_sash] at push
      refine ⟨a, _, b, ⟨?_, ?_, enters.order⟩, congrArg Sash.excq (push room).1, ?_, ?_, rfl⟩
      · have := enters.split
        rwa [State.errored, State.modTh_sash] at this
      · have := enters.cycle
        rwa [State.errored, State.modTh_time] at this
      · exact excRecord_cause ..
      · exact excRecord_queue ..
    next plain =>
      exact ⟨by rw [State.errored, State.modTh_eng], by rw [State.errored, State.modTh_rpl], by rw [State.errored, State.modTh_latch], qerr,
        fun fault => absurd fault plain⟩

/-! ### The completion of a head -/

theorem updFirst_same {α : Type} {p : α → Bool} {f : α → α} {l : List α} {x : α} (first : l.find? p = some x) (same : f x = x) :
    updFirst p f l = l := by
  induction l with
  | nil => rfl
  | cons y l ih =>
    unfold updFirst
    cases hp : p y
    · rw [List.find?_cons, hp] at first
      simp [ih first]
    · rw [List.find?_cons, hp] at first
      simp only [if_true]
      rw [Option.some.inj first, same]

theorem State.modEntry_lanes_same {s : State} {e : Entry} {g : Entry → Entry} (entry : s.entry e.uid = some e) (same : g e = e) :
    (s.modEntry e.uid g).eng.lanes = s.eng.lanes := updFirst_same entry same

/-- Preparing the completion of a finished entry changes neither its lane nor it. -/
theorem State.completePrepare_finished {s : State} {e : Entry} (entry : s.entry e.uid = some e) (done : e.phase = .finished) :
    Tidies s (s.completePrepare e) := by
  let z : State := { s with eng := { s.eng with skipHold := s.eng.skipHold.filter fun h => h.1 ≠ e.uid } }
  have opens (q uid : Nat) (x : State) : Tidies x (x.engineOpen q uid) := .ite ⟨⟨rfl, rfl, fun _ => rfl⟩, rfl, rfl, rfl⟩ (.refl x)
  have ends : Tidies s (z.entryDone e.uid) := by
    have found : z.entry e.uid = some e := entry
    unfold State.entryDone
    rw [found]
    have same : (z.modEntry e.uid fun e => { e with phase := .finished }).eng.lanes = s.eng.lanes :=
      State.modEntry_lanes_same found (by rw [← done])
    exact Tidies.trans (b := z.modEntry e.uid fun e => { e with phase := .finished }) ⟨⟨same, rfl, fun _ => rfl⟩, rfl, rfl, rfl⟩ (opens ..)
  have settles (y : State) (h : Tidies s y) : Tidies s (y.entrySettle e.uid) := by
    have found : y.entry e.uid = some e := by rw [State.entry, h.lanes]; exact entry
    unfold State.entrySettle
    rw [found]
    simp only [done, reduceCtorEq, decide_false, Bool.and_false, Bool.false_eq_true, if_false]
    exact h
  unfold State.completePrepare
  simp only [done, reduceCtorEq, decide_false, Bool.and_false, Bool.false_eq_true, if_false]
  refine settles _ ?_
  split
  · exact ends
  · exact .refl s

/-- What follows the status of a completing entry. -/
def completeRest (s : State) (e : Entry) (st : Nat) : State :=
  let s := (((s.completionCount e st).journalEntry e st).postCount e st).usesNoted e
  let s := { s with eng := { s.eng with lanes := s.eng.lanes.filter fun x => x.uid ≠ e.uid } }
  ((s.abortNote e).faultReleased e).postsGo e.stream

theorem completeRest_rest (s : State) (e : Entry) (st : Nat) :
    (completeRest s e st).eng.lanes = s.eng.lanes.filter (fun x => x.uid ≠ e.uid) ∧ (completeRest s e st).latch = s.latch ∧
    (completeRest s e st).sash = s.sash ∧ (∀ t, ((completeRest s e st).th t).qerr = (s.th t).qerr) ∧
    (completeRest s e st).rpl.active = s.rpl.active := by
  have first : Tidies s ((((s.completionCount e st).journalEntry e st).postCount e st).usesNoted e) :=
    (((Tidies.completionCount s e st).trans (.journalEntry ..)).trans (.postCount ..)).trans ⟨⟨rfl, rfl, fun _ => rfl⟩, rfl, rfl, rfl⟩
  unfold completeRest
  dsimp only
  generalize (((s.completionCount e st).journalEntry e st).postCount e st).usesNoted e = y at *
  have last : Tidies { y with eng := { y.eng with lanes := y.eng.lanes.filter fun x => x.uid ≠ e.uid } } _ :=
    ((Tidies.abortNote _ e).trans (.faultReleased _ e)).trans (.postsGo _ e.stream)
  exact ⟨last.lanes.trans (by rw [first.lanes]), last.latch.trans first.latch, last.sash.trans first.sash,
    fun t => (last.qerr t).trans (first.qerr t), last.rpl.trans first.rpl⟩

theorem State.rplDigest_idle {s : State} (idle : s.rpl.active = false) (e : Entry) (st : Nat) : s.rplDigest e st = s :=
  if_pos (by rw [idle]; rfl)

theorem State.replayGo_idle {s : State} (idle : s.rpl.active = false) : s.replayGo = s := if_neg (by rw [idle]; exact nofun)

/-- A completion outside replay (R219). -/
theorem State.completeNow_eq {s : State} (e : Entry) (idle : s.rpl.active = false) :
    s.completeNow e = completeRest (((s.advEffect e).completionSignal e).postStatus e e.finalStatus) e e.finalStatus := by
  have adv : (s.advEffect e).rpl.active = false := (Tidies.advEffect s e).rpl.trans idle
  have posted : (((s.advEffect e).completionSignal e).postStatus e e.finalStatus).rpl.active = false :=
    ((State.postStatus_posts _ e _).2.1.trans (Bystands.completionSignal _ e).rpl).trans adv
  have counted := (Tidies.completionCount (((s.advEffect e).completionSignal e).postStatus e e.finalStatus) e e.finalStatus).rpl.trans posted
  unfold State.completeNow
  dsimp only
  rw [State.signalsAhead_idle adv, State.rplDigest_idle counted]
  refine State.replayGo_idle ?_
  exact (completeRest_rest _ e _).2.2.2.2.trans posted

/-- The completion of a head that has finished and has no commit left. -/
theorem Completes.completion {s : State} {q : Fin 11} {t : Thread} {e : Entry} (head : (s.lane q t).head? = some e)
    (entry : s.entry e.uid = some e) (done : e.phase = .finished) (made : e.commits = []) (plain : ∀ j, e.job ≠ .norm j)
    {P : State → Prop} (h : ∀ z, Tidies s z → P (z.completeNow e)) : Completes (.completion q t) s P := by
  have prepared := State.completePrepare_finished entry done
  have found : (s.completePrepare e).entry e.uid = some e := by rw [State.entry, prepared.lanes]; exact entry
  let z := (s.completePrepare e).modEntry e.uid fun e => { e with commits := [] }
  have lanes : z.eng.lanes = (s.completePrepare e).eng.lanes := State.modEntry_lanes_same found (by rw [← made])
  have found' : z.entry e.uid = some e := by rw [State.entry, lanes]; exact found
  have committed : (s.completePrepare e).commits e.uid = (z, true) := by
    unfold State.commits
    rw [found]
    simp only [made, List.filter_nil, List.append_nil, ite_self, State.commitRun]
    rfl
  have norm : z.normComplete e = z := by
    unfold State.normComplete
    split
    next j hj => exact absurd hj (plain j)
    · rfl
  have tidy : Tidies s z := prepared.trans ⟨⟨lanes, rfl, fun _ => rfl⟩, rfl, rfl, rfl⟩
  refine ⟨_, congrArg Host.Outcome.next ?_, h z tidy⟩
  rw [head]
  simp only [found]
  rw [if_pos (by simp [Entry.mayComplete, done]), committed]
  simp only [if_true, norm, found']

/-- Settles O39: a completion is the signals, the status and what only tidies up behind them. -/
theorem completionOfHead : Obligations.CompletionOfHead := by
  intro s q t e head entry
  have lane : e ∈ s.lane q t := List.mem_of_mem_head? (Option.mem_def.2 head)
  simp only [State.lane, List.mem_filter, Bool.and_eq_true, decide_eq_true_eq] at lane
  obtain ⟨-, queue, stream⟩ := lane
  refine ⟨fun done made plain idle => ?_, fun queued takes held => ?_⟩
  · intro st
    refine .completion head entry done made plain fun z tidy => ?_
    have adv := tidy.trans (Tidies.advEffect z e)
    rw [State.completeNow_eq e (tidy.rpl.trans idle)]
    generalize z.advEffect e = y at *
    have signalled := Bystands.completionSignal y e
    obtain ⟨lanes, -, latch, qerr, record⟩ := (y.completionSignal e).postStatus_posts e e.finalStatus
    obtain ⟨rest, latch', sash, qerr', -⟩ := completeRest_rest ((y.completionSignal e).postStatus e e.finalStatus) e e.finalStatus
    generalize (y.completionSignal e).postStatus e e.finalStatus = x at *
    generalize completeRest x e e.finalStatus = r at *
    have counts (c k : Nat) : r.latchCount c k = (y.completionSignal e).latchCount c k :=
      State.latchCount_congr (latch'.trans latch) c k
    have before (c k : Nat) : y.latchCount c k = s.latchCount c k := State.latchCount_congr adv.latch c k
    have final : e.finalStatus = st := rfl
    refine ⟨fun w hw => ?_, fun k => ?_, fun noSig k lat room => ?_, fun k sig none' room => ?_, fun fault none' noSig room => ?_⟩
    · rw [rest, List.mem_filter] at hw
      simpa using hw.2
    · rw [qerr', ← stream, qerr, signalled.qerr, adv.qerr, queue, final]
    · have eq : y.completionSignal e = y.latchSignal e.ctx k
          { kind := 0, thread := e.stream, queue := e.queue, pc := 0, iseq := e.iseq, link := 0 } := by
        unfold State.completionSignal
        simp only [lat]
      rw [counts, eq, State.latchCount_latchSignal (by rw [before]; exact room), before]
    · have eq : y.completionSignal e = y.latchSignal e.ctx k
          { kind := 1, thread := e.stream, queue := e.queue, pc := 0, iseq := e.iseq, link := 0 } := by
        unfold State.completionSignal
        simp only [none', sig]
      rw [counts, eq, State.latchCount_latchSignal (by rw [before]; exact room), before]
    · have eq : y.completionSignal e = y := by
        unfold State.completionSignal
        simp only [none']
      rw [eq] at record
      obtain ⟨a, w, b, enters, queue', cause, place, iseq⟩ := record fault (by rw [adv.sash]; exact room)
      refine ⟨a, w, b, ⟨?_, ?_, enters.order⟩, by rw [sash]; exact queue', cause, ?_, iseq⟩
      · rw [← adv.sash]; exact enters.split
      · rw [← adv.recs]; exact enters.cycle
      · rw [place, queue]
        have := q.isLt
        omega
  · have prepared : s.completePrepare e = s := by
      have held' : (s.eng.skipHold.any fun h => h.1 = e.uid) = false := by simpa using held
      unfold State.completePrepare State.entrySettle
      simp only [held', queued, reduceCtorEq, decide_false, Bool.and_false, Bool.false_eq_true, if_false, entry]
    refine .of_eq (congrArg Host.Outcome.next ?_) rfl rfl
    rw [head]
    simp only [prepared, entry]
    exact if_neg (by simp [Entry.mayComplete, queued, takes])

end Sys2Proof.Machine
end

/-! PROOFS. The issue of requests of the memory port and the transmission of packets (spec/14 R326 to R330; spec/13 R296 to R302). -/
section
namespace Sys2Proof.Machine

/-! ### The request that is issued next (R330) -/

theorem Pool.rank_control (p : Pool) : Pool.control.rank ≤ p.rank := Nat.zero_le _

theorem Pool.rank_of_ne {p q : Pool} (h : q ≠ .control) (hp : p = .sink ∨ q ≠ .sink) : p.rank ≤ q.rank := by
  cases p <;> cases q <;> simp_all [Pool.rank]

/-- A request that may be issued stands at its place among those that wait. -/
theorem State.mem_readyReqs {s : State} {p : Nat × JReq} (h : p ∈ s.readyReqs) :
    s.jamb.reqs[p.1]? = some p.2 ∧ s.reqReady (s.jamb.reqs.take p.1) p.2 = true := by
  simp only [State.readyReqs, List.mem_map, List.mem_filter] at h
  obtain ⟨⟨r, i⟩, ⟨mem, ready⟩, rfl⟩ := h
  exact ⟨List.mem_zipIdx_iff_getElem?.1 mem, ready⟩

/-- Which of those that may be issued is next (R330). -/
theorem State.nextReq_cases {s : State} {p : Nat × JReq} (h : s.nextReq = some p) : p ∈ s.readyReqs ∧
    (∀ q ∈ s.readyReqs, agedAt ≤ q.2.age → agedAt ≤ p.2.age) ∧
    ((∀ q ∈ s.readyReqs, q.2.age < agedAt) → ∀ q ∈ s.readyReqs, p.2.pool.rank ≤ q.2.pool.rank) := by
  unfold State.nextReq at h
  dsimp only at h
  have young (none : s.readyReqs.find? (fun p => decide (agedAt ≤ p.2.age)) = none) (q) (hq : q ∈ s.readyReqs) :
      ¬agedAt ≤ q.2.age := by simpa using List.find?_eq_none.1 none q hq
  split at h
  next a aged =>
    obtain rfl := Option.some.inj h
    have old : agedAt ≤ a.2.age := by simpa using List.find?_some aged
    exact ⟨List.mem_of_find?_eq_some aged, fun _ _ _ => old,
      fun all => absurd old (Nat.not_le.2 (all a (List.mem_of_find?_eq_some aged)))⟩
  next none =>
    have noAged (r : Prop) (q) (hq : q ∈ s.readyReqs) (old : agedAt ≤ q.2.age) : r := absurd old (young none q hq)
    split at h
    next a control =>
      obtain rfl := Option.some.inj h
      have pool : a.2.pool = .control := by simpa using List.find?_some control
      exact ⟨List.mem_of_find?_eq_some control, noAged _, fun _ q _ => pool ▸ Pool.rank_control _⟩
    next noControl =>
      have other (q) (hq : q ∈ s.readyReqs) : q.2.pool ≠ .control := by simpa using List.find?_eq_none.1 noControl q hq
      split at h
      next a sink =>
        obtain rfl := Option.some.inj h
        have pool : a.2.pool = .sink := by simpa using List.find?_some sink
        exact ⟨List.mem_of_find?_eq_some sink, noAged _, fun _ q hq => Pool.rank_of_ne (other q hq) (.inl pool)⟩
      next noSink =>
        have last (q) (hq : q ∈ s.readyReqs) : q.2.pool ≠ .sink := by simpa using List.find?_eq_none.1 noSink q hq
        exact ⟨List.mem_of_head? h, noAged _, fun _ q hq => Pool.rank_of_ne (other q hq) (.inr (last q hq))⟩

theorem State.issuedOpens_engs (s : State) (uid : Nat) : ∃ g, s.issuedOpens uid = { s with eng := { s.eng with engs := g } } := by
  have opens (q : Nat) : ∃ g, s.engineOpen q uid = { s with eng := { s.eng with engs := g } } := by
    unfold State.engineOpen
    split
    · exact ⟨_, rfl⟩
    · exact ⟨s.eng.engs, rfl⟩
  unfold State.issuedOpens
  split
  · exact ⟨s.eng.engs, rfl⟩
  · dsimp only
    split
    · exact opens qJamb
    · exact ⟨s.eng.engs, rfl⟩

/-- Settles O41: the choice is the first of its kind in the order of R330, and an issue moves it to the tags. -/
theorem jambIssue : Obligations.JambIssue := by
  intro s tag i r next
  obtain ⟨ready, aged, pools⟩ := State.nextReq_cases next
  obtain ⟨place, may⟩ := State.mem_readyReqs ready
  refine ⟨place, may, aged, pools, fun on free => ?_⟩
  have run : exec (.jambRequestIssue tag .clean) s = .next (s.issueReq i r (r.keep.getD tag.toNat)) := by
    refine congrArg Host.Outcome.next ((if_neg (by rw [on]; exact nofun)).trans ?_)
    rw [next]
    exact if_neg (by rw [free]; exact nofun)
  refine ⟨_, run, ?_⟩
  unfold State.issueReq
  dsimp only
  split
  next uid _ =>
    obtain ⟨g, eq⟩ := State.issuedOpens_engs _ uid
    rw [eq]
    exact ⟨rfl, rfl, rfl, rfl, rfl⟩
  · exact ⟨rfl, rfl, rfl, rfl, rfl⟩

/-! ### The packet that is sent next (R296) -/

/-- Which packet goes: the first of its class that may, with none of a class before it (R296). -/
theorem Link.nextTx_first {k : Link} {l : Nat} {free : Bool} {x : TxItem} (next : k.nextTx l free = some x) :
    x ∈ k.ready ∧ x.canGo k l free = true ∧ (∀ y ∈ k.ready, y.pkt.cls.val < x.pkt.cls.val → y.canGo k l free = false) ∧
    ∃ a b, k.ready = a ++ x :: b ∧ ∀ y ∈ a, y.pkt.cls = x.pkt.cls → y.canGo k l free = false := by
  unfold Link.nextTx at next
  rw [List.head?_filterMap, List.findSome?_eq_some_iff] at next
  obtain ⟨before, c, after, range, found, none⟩ := next
  have place : c = before.length := by
    have at' := congrArg (fun l : List Nat => l[before.length]?) range
    rw [List.getElem?_append_right le_rfl, Nat.sub_self, List.getElem?_cons_zero] at at'
    obtain ⟨_, eq⟩ := List.getElem?_eq_some_iff.1 at'
    rw [← eq, List.getElem_range]
  have small : before = List.range c := by
    have taken := congrArg (List.take before.length) range
    rw [List.take_left' rfl, List.take_range] at taken
    have := congrArg List.length range
    simp only [List.length_range, List.length_append, List.length_cons] at this
    rw [← taken, ← place, Nat.min_eq_left (by omega)]
  have test := List.find?_some found
  simp only [Bool.and_eq_true, decide_eq_true_eq] at test
  obtain ⟨cls, go⟩ := test
  obtain ⟨-, a, b, split, first⟩ := List.find?_eq_some_iff_append.1 found
  refine ⟨List.mem_of_find?_eq_some found, go, fun y hy less => ?_, a, b, split, fun y hy same => ?_⟩
  · have gone := none y.pkt.cls.val (by rw [small]; exact List.mem_range.2 (cls ▸ less))
    simpa using List.find?_eq_none.1 gone y hy
  · have skipped := first y hy
    rw [same, cls] at skipped
    simpa using skipped

theorem Link.nextTx_none {k : Link} {l : Nat} {free : Bool} (h : ∀ y ∈ k.ready, y.canGo k l free = false) : k.nextTx l free = none := by
  unfold Link.nextTx
  rw [List.head?_filterMap, List.findSome?_eq_none_iff]
  intro c _
  rw [List.find?_eq_none]
  intro y hy
  simp [h y hy]

/-! ### Sending it (R296 to R302) -/

/-- Two records of a link that differ in what it grants only; `other` says that the credits given back are the same. -/
structure Link.Granted (other : Prop) (k k' : Link) : Prop where
  rest : { k' with freed := k.freed, sigHeld := k.sigHeld } = k
  freed : other → k'.freed = k.freed

theorem Link.Granted.refl {other : Prop} (k : Link) : Link.Granted other k k := ⟨rfl, fun _ => rfl⟩

/-- Freeing a receive buffer changes what its link grants, and nothing else. -/
theorem State.bufferFree_link (s : State) (f c m : Nat) : ((s.link m).Granted (m ≠ f) ((s.bufferFree f c).link m)) ∧
    (c ≠ clsSig.val → SMap.look ((s.bufferFree f c).link f).freed 0 c = SMap.look (s.link f).freed 0 c + 1) := by
  have held (z : State) (g : Nat → Nat) : (z.link m).Granted (m ≠ f) ((z.modLink f fun k => { k with sigHeld := g k.sigHeld }).link m) := by
    rw [State.link_modLink]
    split
    next h => subst h; exact ⟨rfl, fun _ => rfl⟩
    · exact .refl _
  have buffer (z : State) (c : Nat) : (z.link m).Granted (m ≠ f) ((z.freeBuffer f c).link m) := by
    rw [State.freeBuffer_link]
    split
    next h => subst h; exact ⟨rfl, fun other => absurd rfl other⟩
    · exact .refl _
  have trans {a b c : Link} (h : a.Granted (m ≠ f) b) (k : b.Granted (m ≠ f) c) : a.Granted (m ≠ f) c :=
    ⟨(congrArg (fun z : Link => { z with freed := a.freed, sigHeld := a.sigHeld }) k.rest).trans h.rest,
      fun other => (k.freed other).trans (h.freed other)⟩
  by_cases sig : c = clsSig.val
  · refine ⟨?_, fun h => absurd sig h⟩
    rw [State.bufferFree, if_pos sig]
    unfold State.freeSig
    dsimp only
    split
    · exact (trans (held s (· + 1)) (held _ (· - 1)) |> fun h => trans h (buffer _ 1))
    · exact held s (· + 1)
  · rw [State.bufferFree, if_neg sig]
    refine ⟨buffer s c, fun _ => ?_⟩
    rw [State.freeBuffer_link, if_pos rfl]
    simp [SMap.look_put]

/-- The record of a link after a packet has left it for good: its place, SEQ and credit. -/
def Link.sends (k : Link) (x : TxItem) (p : Packet) : Link :=
  let c := x.pkt.cls.val
  let first := decide (x.sends = 0)
  { k with
    ready := dropFirst (fun y => decide (y = x)) k.ready
    sent := k.sent ++ [{ x with pkt := p, sends := x.sends + 1, slot := none }]
    txSeq := if first then SMap.put k.txSeq 0 c (SMap.look k.txSeq 0 c + 1) else k.txSeq
    credit := if first then SMap.put k.credit 0 c (SMap.look k.credit 0 c - 1) else k.credit }

theorem Link.sends_look (k : Link) (x : TxItem) (p : Packet) :
    SMap.look (k.sends x p).txSeq 0 x.pkt.cls.val =
      (if decide (x.sends = 0) then SMap.look k.txSeq 0 x.pkt.cls.val + 1 else SMap.look k.txSeq 0 x.pkt.cls.val) ∧
    SMap.look (k.sends x p).credit 0 x.pkt.cls.val =
      (if decide (x.sends = 0) then SMap.look k.credit 0 x.pkt.cls.val - 1 else SMap.look k.credit 0 x.pkt.cls.val) := by
  unfold Link.sends
  dsimp only
  split <;> simp [SMap.look_put]

/-- The packet as it goes out: its SEQ and its tag. -/
def Link.stamped (k : Link) (x : TxItem) (tag : Nat) : Packet := { x.pkt with
  seq := if decide (x.sends = 0) then SMap.look k.txSeq 0 x.pkt.cls.val else x.pkt.seq
  tag := if x.needsTag then BitVec.ofNat 16 tag else x.pkt.tag }

/-- The tags behind a packet of this core's own. -/
def tagged (s : State) (l tag : Nat) (x : TxItem) (p : Packet) : State :=
  if x.needsTag then
    match x.origin with
    | .own uid => { s with door := { s.door with tags := s.door.tags ++ [doorTagOf tag l uid p] } }
    | _ => s
  else s

theorem tagged_link (s : State) (l tag : Nat) (x : TxItem) (p : Packet) (m : Nat) : (tagged s l tag x p).link m = s.link m := by
  unfold tagged
  split
  · split <;> rfl
  · rfl

theorem State.sendNow_eq (s : State) (l tag : Nat) (x : TxItem) : s.sendNow l tag x =
    ((((tagged s l tag x ((s.link l).stamped x tag)).modLink l fun k => k.sends x ((s.link l).stamped x tag)).forwarded l x).drive l
      ((s.link l).stamped x tag)) := by
  have packet : (let p : Packet := if decide (x.sends = 0) then { x.pkt with seq := SMap.look (s.link l).txSeq 0 x.pkt.cls.val } else x.pkt
      if x.needsTag then { p with tag := BitVec.ofNat 16 tag } else p) = (s.link l).stamped x tag := by
    unfold Link.stamped
    cases decide (x.sends = 0) <;> cases x.needsTag <;> rfl
  rw [← packet]
  rfl

theorem State.drive_link (s : State) (l : Nat) (p : Packet) (m : Nat) : (s.drive l p).link m = if m = l then { s.link l with
    ackDue := (s.link l).ackDue.drop 1, nakDue := (s.link l).nakDue.drop 1, lastTx := some (packetWire p (s.link l).trailerNow) }
    else s.link m :=
  s.link_modLink l (fun k => { k with
    ackDue := k.ackDue.drop 1, nakDue := k.nakDue.drop 1, lastTx := some (packetWire p k.trailerNow) }) m

/-- A packet of another core that leaves frees its receive buffer (R302). -/
theorem State.forwarded_link (s : State) (l : Nat) (x : TxItem) (m : Nat) :
    ((s.link m).Granted (x.cameBy l ≠ some m) ((s.forwarded l x).link m)) ∧
    (x.sends = 0 → x.cameBy l = some m → x.pkt.cls ≠ clsSig → SMap.look ((s.forwarded l x).link m).freed 0 x.pkt.cls.val =
      SMap.look (s.link m).freed 0 x.pkt.cls.val + 1) := by
  unfold State.forwarded
  split
  next again => exact ⟨.refl _, fun first => absurd first again⟩
  · split
    next f came =>
      obtain ⟨granted, more⟩ := s.bufferFree_link f x.pkt.cls.val m
      refine ⟨⟨granted.rest, fun other => granted.freed fun h => other (by rw [came, h])⟩, fun _ here cls => ?_⟩
      obtain rfl : f = m := Option.some.inj (came.symm.trans here)
      exact more fun h => cls (Fin.ext h)
    next none => exact ⟨.refl _, fun _ here => absurd (none.symm.trans here) nofun⟩

theorem State.sentOpens_door (s : State) (x : TxItem) : (s.sentOpens x).door = s.door := by
  unfold State.sentOpens State.engineOpen
  split
  · split
    · split
      · split <;> rfl
      · rfl
    · rfl
  · rfl

theorem State.link_of_door {a b : State} (h : a.door = b.door) (m : Nat) : a.link m = b.link m := by
  rw [State.link, State.link, h]

/-- The link after a packet has left: its place, SEQ, credit and tag, and the trailer that was due (R293, R296). -/
theorem Link.sent_granted {k k' : Link} {other : Prop} {x : TxItem} {p : Packet} (h : (k.sends x p).Granted other k') :
    (k'.ready = (k.sends x p).ready ∧ k'.sent = (k.sends x p).sent) ∧ (k'.txSeq = (k.sends x p).txSeq ∧
      k'.credit = (k.sends x p).credit) ∧ (other → k'.trailerNow = k.trailerNow) := by
  obtain ⟨rest, freed⟩ := h
  have ready := congrArg Link.ready rest
  have sent := congrArg Link.sent rest
  have txSeq := congrArg Link.txSeq rest
  have credit := congrArg Link.credit rest
  have ack := congrArg Link.ackDue rest
  have nak := congrArg Link.nakDue rest
  refine ⟨⟨ready, sent⟩, ⟨txSeq, credit⟩, fun same => ?_⟩
  have freed' : k'.freed = k.freed := freed same
  have ack' : k'.ackDue = k.ackDue := ack
  have nak' : k'.nakDue = k.nakDue := nak
  rw [Link.trailerNow, freed', ack', nak']
  rfl

/-- Settles O43: the packet is the first that may go, and its sending writes its link's record. -/
theorem packetTransmit : Obligations.PacketTransmit := by
  intro s l tag k free
  refine ⟨fun down => .of_eq rfl (if_pos (by simp [State.linkUp, down, k])) rfl, fun up none => ?null, fun x up next => ?_⟩
  case null =>
    have on : s.linkUp l = true := by simpa [State.linkUp] using up
    have run : exec (.packetTransmit l tag) s = .next (s.drive l (s.packet clsMgt 0 (s.link l).peer.toNat 0 0 0 0 [])) := by
      refine congrArg Host.Outcome.next ((if_neg (by rw [on]; exact nofun)).trans ?_)
      rw [Link.nextTx_none none]
    refine .of_eq run rfl ?_
    rw [State.drive_link, if_pos rfl]
    exact ⟨⟨_, rfl, rfl, rfl, rfl, rfl⟩, rfl, rfl, rfl, rfl, rfl⟩
  obtain ⟨mem, go, before, order⟩ := Link.nextTx_first next
  refine ⟨mem, go, before, order, ?_⟩
  have on : s.linkUp l = true := by simpa [State.linkUp] using up
  have run : exec (.packetTransmit l tag) s = .next ((s.sendNow l tag.toNat x).sentOpens x) := by
    refine congrArg Host.Outcome.next ((if_neg (by rw [on]; exact nofun)).trans ?_)
    rw [show (s.link l).nextTx l (s.doorTagFree tag.toNat) = some x from next]
  have opens := State.sentOpens_door (s.sendNow l tag.toNat x) x
  refine ⟨_, run, ?_⟩
  dsimp only
  simp only [State.link_of_door opens, opens]
  set q := k.stamped x tag.toNat with hq
  let y := (tagged s l tag.toNat x q).modLink l fun k => k.sends x q
  have sends : s.sendNow l tag.toNat x = (y.forwarded l x).drive l q := State.sendNow_eq s l tag.toNat x
  have link (m : Nat) : y.link m = if m = l.val then k.sends x q else s.link m := by
    refine (State.link_modLink _ l _ m).trans ?_
    rw [tagged_link, tagged_link]
  obtain ⟨granted, -⟩ := y.forwarded_link l x l
  rw [link, if_pos rfl] at granted
  obtain ⟨⟨ready, sent⟩, ⟨txSeq, credit⟩, trailer⟩ := Link.sent_granted granted
  obtain ⟨seq', credit'⟩ := k.sends_look x q
  have here : (s.sendNow l tag.toNat x).link l = { (y.forwarded l x).link l with
      ackDue := ((y.forwarded l x).link l).ackDue.drop 1, nakDue := ((y.forwarded l x).link l).nakDue.drop 1
      lastTx := some (packetWire q ((y.forwarded l x).link l).trailerNow) } := by
    rw [sends, State.drive_link, if_pos rfl]
  rw [here]
  refine ⟨ready, sent, fun away => ?_, ?_, ?_, fun f hf ne came first cls => ?_, fun uid own first => ?_⟩
  · rw [trailer away]
    rfl
  · rw [txSeq, seq']
  · rw [credit, credit']
  · have there : (s.sendNow l tag.toNat x).link f = (y.forwarded l x).link f := by rw [sends, State.drive_link, if_neg ne]
    obtain ⟨-, more⟩ := y.forwarded_link l x f
    rw [there, more (of_decide_eq_true first) came cls, link, if_neg ne]
  · have needs : x.needsTag = true := by rw [TxItem.needsTag, first, own]; rfl
    have stays : y.forwarded l x = y := by
      unfold State.forwarded TxItem.cameBy
      rw [if_neg (not_not.2 (of_decide_eq_true first)), own]
    have tags : (tagged s l tag.toNat x q).door.tags = s.door.tags ++ [doorTagOf tag.toNat l uid q] := by
      unfold tagged
      rw [if_pos needs, own]
    rw [sends, stays]
    exact ⟨_, tags, rfl, rfl, rfl⟩

end Sys2Proof.Machine
end

/-! PROOFS. The reception of packets (spec/13 R290, R293, R294, R297, R300, R302). -/
section
namespace Sys2Proof.Machine

/-! ### What a packet command does -/

/-- With empty receive buffers nothing is sunk. -/
theorem State.sinksGo_empty {s : State} (empty : s.door.sinks = []) : s.sinksGo = s := by
  unfold State.sinksGo
  rw [empty]
  rfl

theorem State.receive_down {s : State} {l : Nat} (down : s.linkUp l = false) (w : Wire) (c : Fin 6) (kind : Nat)
    (g g' : Packet → Option Nat → State → State) : s.receive l w c kind g = s.receive l w c kind g' := by
  unfold State.receive
  simp only [down, Bool.not_false, if_true]

theorem State.sunk_eq {s z : State} {l : Nat} {w : Wire} {xfer : Nat} {c : Fin 6} {kind : Nat}
    (received : s.receive l w c kind (fun p slot s => s.sinkAdd l p xfer slot) = z) (empty : z.door.sinks = []) :
    s.sunk l w xfer c kind = z := by
  unfold State.sunk
  split
  · rw [received, State.sinksGo_empty empty]
  next down => rw [← received, State.receive_down (by simpa using down)]

/-- The command `c.1` receives the packet `c.2` and hands one in sequence for this core to `g`: to be sunk, or for MGT_RESET to a
reset of the link. -/
structure Receives (l : Nat) (w : Wire) (c : Instr × Packet) (kind : Nat) (g : Packet → Option Nat → State → State) : Prop where
  row : c.2 = asRow (wirePacket w) c.2.cls kind
  resets : c.2.cls = clsMgt → g = fun _ _ z => z.forceReset l causePeerReset
  sinks : c.2.cls ≠ clsMgt → ∃ xfer, (g = fun p slot z => z.sinkAdd l p xfer slot) ∧
    ∀ s, exec c.1 s = .next (s.sunk l w xfer c.2.cls kind)
  run : ∀ s z, s.receive l w c.2.cls kind g = z → z.door.sinks = [] → exec c.1 s = .next z

theorem Receives.of_sunk {l : Nat} {w : Wire} {i : Instr} {xfer : Nat} {cls : Fin 6} {kind : Nat} (traffic : cls ≠ clsMgt)
    (run : ∀ s, exec i s = .next (s.sunk l w xfer cls kind)) :
    Receives l w (i, asRow (wirePacket w) cls kind) kind fun p slot z => z.sinkAdd l p xfer slot :=
  ⟨rfl, fun h => absurd h traffic, fun _ => ⟨xfer, rfl, run⟩,
    fun s _ received empty => (run s).trans (congrArg _ (State.sunk_eq received empty))⟩

theorem packetCommand_receives {l : Fin 6} {x : Nat} {w : Wire} {c : Instr × Packet} (hm : c ∈ packetCommands l x w) :
    ∃ kind g, Receives l w c kind g := by
  have traffic {cls : Fin 6} (h : cls.val ≠ 5) : cls ≠ clsMgt := fun same => h (congrArg Fin.val same)
  simp only [packetCommands, List.mem_cons, List.not_mem_nil, or_false] at hm
  rcases hm with rfl | rfl | rfl | rfl | rfl | rfl | rfl | rfl
  · exact ⟨0, _, .of_sunk (traffic (by decide)) fun _ => rfl⟩
  · exact ⟨1, _, .of_sunk (traffic (by decide)) fun _ => rfl⟩
  · exact ⟨0, _, .of_sunk (traffic (by decide)) fun _ => rfl⟩
  · exact ⟨0, _, .of_sunk (traffic (by decide)) fun _ => rfl⟩
  · exact ⟨1, _, .of_sunk (traffic (by decide)) fun _ => rfl⟩
  · exact ⟨0, _, .of_sunk (traffic (by decide)) fun _ => rfl⟩
  · exact ⟨0, _, .of_sunk (traffic (by decide)) fun _ => rfl⟩
  · exact ⟨3, _, rfl, fun _ => rfl, fun h => absurd rfl h, fun s z received _ => congrArg Host.Outcome.next received⟩

/-! ### Trailers (R293, R294) -/

/-- The credit counts of a trailer, each as far as it is new. -/
theorem creditsTaken_look (cs : List (BitVec 16)) (n : Nat) (k : Link) (i : Nat) :
    let take := fun (k : Link) (c : Nat) => { k with
      credit := SMap.put k.credit 0 c (SMap.look k.credit 0 c + (cs.getD c 0 - SMap.look k.creditSeen 0 c).toNat)
      creditSeen := SMap.put k.creditSeen 0 c (cs.getD c 0) }
    SMap.look ((List.range n).foldl take k).credit 0 i =
        (if i < n then SMap.look k.credit 0 i + (cs.getD i 0 - SMap.look k.creditSeen 0 i).toNat else SMap.look k.credit 0 i) ∧
      (n ≤ i → SMap.look ((List.range n).foldl take k).creditSeen 0 i = SMap.look k.creditSeen 0 i) := by
  intro take
  induction n with
  | zero => exact ⟨rfl, fun _ => rfl⟩
  | succ n ih =>
    obtain ⟨credit, seen⟩ := ih
    rw [List.range_succ, List.foldl_append]
    simp only [List.foldl_cons, List.foldl_nil]
    generalize (List.range n).foldl take k = j at *
    refine ⟨?_, fun h => ?_⟩
    · show SMap.look (SMap.put j.credit 0 n _) 0 i = _
      rw [SMap.look_put]
      by_cases here : i = n
      · subst here
        rw [if_pos rfl, credit, seen le_rfl, if_neg (Nat.lt_irrefl i), if_pos (Nat.lt_succ_self i)]
      · rw [if_neg here, credit]
        have : i < n + 1 ↔ i < n := by omega
        simp only [this]
    · show SMap.look (SMap.put j.creditSeen 0 n _) 0 i = _
      rw [SMap.look_put, if_neg (by omega), seen (by omega)]

theorem nullReception : NullReception := by
  intro s l w c q out empty up crc resv ack nak
  have isUp : s.linkUp l = true := decide_eq_true up
  let y := (s.creditsTaken l (wireTrailer w).credits).ackTaken l c.val q
  have run : exec (.mgtNull l w) s = .next y.sinksGo := by
    refine congrArg Host.Outcome.next ?_
    rw [out, isUp, crc, resv]
    show (s.trailerTaken l (wireTrailer w)).sinksGo = _
    unfold State.trailerTaken
    rw [ack, nak]
  have none : y.door.sinks = [] := empty
  rw [State.sinksGo_empty none] at run
  refine ⟨y, run, ?_⟩
  have link : y.link l = _ := State.link_modLink_same (s.creditsTaken l (wireTrailer w).credits) l _
  have before : (s.creditsTaken l (wireTrailer w).credits).link l = _ := State.link_modLink_same s l _
  obtain ⟨a, b, credits⟩ := s.creditsTaken_link l (wireTrailer w).credits
  have plain : (s.creditsTaken l (wireTrailer w).credits).link l = { s.link l with credit := a, creditSeen := b } := by
    rw [credits, State.link_modLink_same]
  refine ⟨?_, ?_, fun i hi => ?_, rfl⟩
  · rw [link, plain]
  · rw [link, plain]
  · have length : (wireTrailer w).credits.length = 6 := by simp [wireTrailer]
    have value : (wireTrailer w).credits.getD i 0 = BitVec.ofNat 16 (wireTail w (1 + i / 4) (16 * (i % 4)) 16) := by
      rw [List.getD_eq_getElem _ _ (by rw [length]; exact hi)]
      simp [wireTrailer]
    have look := (creditsTaken_look (wireTrailer w).credits 6 (s.link l) i).1
    rw [if_pos hi, value] at look
    rw [link]
    dsimp only
    rw [before, length]
    exact look

/-! ### The checks of a packet (R290, R294, R300, R320) -/

/-- A NAK of the first `n` classes. -/
theorem State.naks_link (s : State) (l n : Nat) : let z := (List.range n).foldl (fun s c => s.nak l c) s
    { z with door := { z.door with links := s.door.links } } = s ∧ { z.link l with nakDue := (s.link l).nakDue } = s.link l ∧
    ∀ i < n, (i, SMap.look (s.link l).rxSeq 0 i) ∈ (z.link l).nakDue := by
  induction n with
  | zero => exact ⟨rfl, rfl, fun i hi => absurd hi (Nat.not_lt_zero i)⟩
  | succ n ih =>
    rw [List.range_succ, List.foldl_append]
    simp only [List.foldl_cons, List.foldl_nil]
    dsimp only at ih
    generalize (List.range n).foldl (fun s c => s.nak l c) s = y at *
    obtain ⟨rest, link, mem⟩ := ih
    have seq := congrArg Link.rxSeq link
    dsimp only at seq
    refine ⟨rest, ?_, fun i hi => ?_⟩
    · rw [State.nak, State.link_modLink_same]
      exact link
    · rw [State.nak, State.link_modLink_same, seq]
      by_cases here : i = n
      · exact List.mem_append_right _ (by rw [here]; exact List.mem_singleton.2 rfl)
      · exact List.mem_append_left _ (List.mem_filter.2 ⟨mem i (by omega), by simpa using here⟩)

theorem State.forceReset_sinks {s : State} {l cause : Nat} (empty : s.door.sinks = []) : (s.forceReset l cause).door.sinks = [] := by
  let a := (s.modLink l fun k => { k with cause := BitVec.ofNat 4 cause, bypass := false, resetFlag := true }).linkTo l .reset
  let b : State := { a with door := { a.door with
    resets := satInc 16 s.door.resets, faultLink := BitVec.ofNat 3 l, faultPend := true } }
  have run : s.forceReset l cause = b.linkClear l := rfl
  have left := (b.linkClear_sheds l).1.sinks
  have none : (b.modLink l Link.emptied).door.sinks = [] := empty
  rw [run]
  rw [none] at left
  exact List.subset_nil.1 left

theorem packetChecks : PacketChecks := by
  intro s l x w empty c hm k row
  obtain ⟨kind, g, cmd⟩ := packetCommand_receives hm
  refine ⟨fun held => ?held, fun out down => ?down, fun out up bad => ?crc, fun out up crc resv => ?resv, fun arr other => ?nak,
    fun arr seq mgt => ?mgt⟩
  case held =>
    have received : s.receive l w c.2.cls kind g = s.wicket l w := if_pos held
    by_cases ring : l.val < 2
    · have wicket : s.wicket l w = s.modLink (pairLink l) fun k => { k with lastTx := some w } := if_pos (by simpa [isRing] using ring)
      refine ⟨_, cmd.run s _ (received.trans wicket) empty, rfl, fun _ => ?_, fun far => absurd ring (Nat.not_lt.2 far)⟩
      rw [State.link_modLink_same]
    · have wicket : s.wicket l w = s := if_neg (by simpa [isRing] using ring)
      exact ⟨s, cmd.run s _ (received.trans wicket) empty, rfl, fun near => absurd near ring, fun _ => rfl⟩
  case down =>
    have off : s.linkUp l = false := decide_eq_false down
    exact ⟨s, cmd.run s s ((if_neg (by rw [out]; exact nofun)).trans (if_pos (by rw [off]; rfl))) empty, rfl⟩
  case crc =>
    have on : s.linkUp l = true := decide_eq_true up
    have received : s.receive l w c.2.cls kind g = s.crcFailed l :=
      (if_neg (by rw [out]; exact nofun)).trans ((if_neg (by rw [on]; exact nofun)).trans (if_pos (by rw [bad]; rfl)))
    let y := s.modLink l fun k => { k with crcErr := satInc 16 k.crcErr }
    have seen : y.link l = { s.link l with crcErr := satInc 16 (s.link l).crcErr } := State.link_modLink_same ..
    have failed : s.crcFailed l = (List.range 6).foldl (fun s c => s.nak l c) y := if_pos (by
      rw [State.linkUp, seen]
      exact on)
    have received' := received.trans failed
    have naks := y.naks_link l 6
    dsimp only at naks
    generalize (List.range 6).foldl (fun s c => s.nak l c) y = z at *
    obtain ⟨rest, link, mem⟩ := naks
    have sinks := congrArg (fun z : State => z.door.sinks) rest
    have err := congrArg Link.crcErr link
    have seq := congrArg Link.rxSeq link
    rw [seen] at err seq mem
    exact ⟨z, cmd.run s z received' (sinks.trans empty), err, fun i hi => mem i hi, seq,
      congrArg (fun z : State => { z with door := { z.door with links := s.door.links } }) rest⟩
  case resv =>
    have on : s.linkUp l = true := decide_eq_true up
    have received : s.receive l w c.2.cls kind g = s.forceReset l causeProtocol :=
      (if_neg (by rw [out]; exact nofun)).trans ((if_neg (by rw [on]; exact nofun)).trans
        ((if_neg (by rw [crc]; exact nofun)).trans (if_pos resv)))
    exact ⟨_, cmd.run s _ received (State.forceReset_sinks empty), (s.forceReset_wasReset l causeProtocol).1⟩
  case nak =>
    have received := State.receive_arrives arr c.2.cls kind g
    rw [← cmd.row] at received
    dsimp only at received
    rw [if_pos other] at received
    obtain ⟨a, b, credits⟩ := s.creditsTaken_link l (wireTrailer w).credits
    rw [credits] at received
    refine ⟨_, cmd.run s _ received empty, ?_, ?_, rfl⟩
    · rw [State.nak, State.link_modLink_same, State.link_modLink_same]
      exact List.mem_append_right _ (List.mem_singleton.2 rfl)
    · rw [State.nak, State.link_modLink_same, State.link_modLink_same]
  case mgt =>
    have received : s.receive l w c.2.cls kind g = (s.buffered l w c.2.cls.val).forceReset l causePeerReset := by
      refine (State.receive_arrives arr c.2.cls kind g).trans ?_
      rw [← cmd.row, if_neg (not_not.2 seq), if_pos (by simp [mgt]), cmd.resets mgt]
      rfl
    obtain ⟨door, -⟩ := s.buffered_door l w c.2.cls
    generalize s.buffered l w c.2.cls.val = y at *
    have sinks := congrArg Doorway.sinks door
    have resets := congrArg Doorway.resets door
    have run := cmd.run s _ received (State.forceReset_sinks (sinks.trans empty))
    exact (Completes.resets (z := y) (cause := causePeerReset) run rfl resets).mono fun _ h => h.1

/-! ### Packets for other cores (R297, R302) -/

/-- The scratchpad after a write; bytes in a dark bank are dropped (15 R357). -/
def spadWritten (dark : Nat → Bool) (m : Mem) (w : BitWrite) : Mem :=
  ((writeCells (fun a => SMap.look m 0 a) w).filter fun c => !dark c.1).foldl (fun m c => SMap.put m 0 c.1 c.2) m

theorem State.spadWrite_writes (s : State) (w : BitWrite) : ∃ i, s.spadWrite w =
    { s with eng := { s.eng with spad := spadWritten s.bankDark s.eng.spad w }, int := i } := by
  unfold State.spadWrite State.shutAccess
  dsimp only
  split <;> exact ⟨_, rfl⟩

theorem State.spadWrite_eng (s : State) (w : BitWrite) :
    (s.spadWrite w).eng = { s.eng with spad := spadWritten s.bankDark s.eng.spad w } := by
  obtain ⟨i, h⟩ := s.spadWrite_writes w
  rw [h]

theorem State.areaWrite_eng {s z : State} (l : Nat) (slot : Option Nat) (w : Wire) (eng : z.eng = s.eng) (rec' : z.linkRec l = s.linkRec l)
    (clk : z.clk = s.clk) (dark : z.bankDark = s.bankDark) :
    (z.areaWrite l slot w).eng.spad = (s.areaWrite l slot w).eng.spad ∧ (z.areaWrite l slot w).eng.sill = s.eng.sill := by
  unfold State.areaWrite
  rw [rec', clk]
  split
  · split
    · rw [State.spadWrite_eng, State.spadWrite_eng, eng, dark]
      exact ⟨rfl, rfl⟩
    · exact ⟨congrArg Engines.spad eng, congrArg Engines.sill eng⟩
  · exact ⟨congrArg Engines.spad eng, congrArg Engines.sill eng⟩

/-- What an arrival leaves of the byte stores: the packet lies in its receive area. -/
theorem State.buffered_eng (s : State) (l : Nat) (w : Wire) (c : Nat) :
    (s.buffered l w c).eng.spad = (s.areaWrite l (s.areaSlot l c) w).eng.spad ∧ (s.buffered l w c).eng.sill = s.eng.sill := by
  have took := s.arrived_took l w c
  have eng := congrArg State.eng took.rest
  have frame := congrArg State.frame took.rest
  have clk := congrArg State.clk took.rest
  have dark := congrArg State.bankDark took.rest
  have remapped := (took.keeps l).2.1
  unfold State.buffered
  generalize s.arrived l w c = z at *
  have rec' : z.linkRec l = s.linkRec l := by
    simp only [State.linkRec, remapped]
    rw [show z.frame = s.frame from frame]
  exact State.areaWrite_eng l _ w eng rec' clk dark

/-- Without a receive area an arrival changes its link only. -/
theorem State.buffered_near {s : State} {l : Nat} (near : l < 4) (w : Wire) (c : Nat) :
    { s.buffered l w c with door := { (s.buffered l w c).door with links := s.door.links } } = s := by
  have slot : s.areaSlot l c = none := if_pos near
  have none : s.buffered l w c = s.arrived l w c := by
    rw [State.buffered, slot]
    rfl
  rw [none]
  exact (s.arrived_took l w c).rest

/-- What passing a packet on leaves as it is: all but the links, and of the link it came by what has arrived. -/
structure PassesOn (l : Nat) (s s' : State) : Prop where
  rest : { s' with door := { s'.door with links := s.door.links } } = s
  seq : (s'.link l).rxSeq = (s.link l).rxSeq
  ack : (s'.link l).ackDue = (s.link l).ackDue

theorem PassesOn.refl (l : Nat) (s : State) : PassesOn l s s := ⟨rfl, rfl, rfl⟩

theorem PassesOn.trans {l : Nat} {a b c : State} (h : PassesOn l a b) (k : PassesOn l b c) : PassesOn l a c where
  rest := (congrArg (fun z : State => { z with door := { z.door with links := a.door.links } }) k.rest).trans h.rest
  seq := k.seq.trans h.seq
  ack := k.ack.trans h.ack

theorem PassesOn.txAdd (l : Nat) (s : State) (m : Nat) (xs : List TxItem) : PassesOn l s (s.txAdd m xs) := by
  refine ⟨rfl, ?_, ?_⟩ <;>
  · rw [State.txAdd, State.link_modLink]
    split
    next h => rw [h]
    · rfl

theorem PassesOn.bufferFree (l : Nat) (s : State) (c : Nat) : PassesOn l s (s.bufferFree l c) := by
  obtain ⟨⟨rest, -⟩, -⟩ := s.bufferFree_link l c l
  have seq := congrArg Link.rxSeq rest
  have ack := congrArg Link.ackDue rest
  have links : { s.bufferFree l c with door := { (s.bufferFree l c).door with links := s.door.links } } = s := by
    unfold State.bufferFree State.freeSig
    split
    · dsimp only
      split <;> rfl
    · rfl
  exact ⟨links, seq, ack⟩

/-- The link that gets a packet. -/
theorem State.link_txAdd (s : State) (l : Nat) (xs : List TxItem) (m : Nat) : (s.txAdd l xs).link m =
    if m = l then { s.link l with ready := (s.link l).ready ++ xs } else s.link m :=
  s.link_modLink l (fun k => { k with ready := k.ready ++ xs }) m

/-- A packet that is dropped: its buffer is free, and unless it is an RSP its sender gets an error (R302). -/
theorem State.drops {s : State} {l : Nat} (up : (s.link l).state = .up) (p : Packet) :
    PassesOn l s ((s.dropAnswer l p).bufferFree l p.cls.val) ∧
    (p.cls ≠ clsSig → SMap.look (((s.dropAnswer l p).bufferFree l p.cls.val).link l).freed 0 p.cls.val =
      SMap.look (s.link l).freed 0 p.cls.val + 1) ∧
    (p.cls ≠ clsRsp → ∃ y ∈ (((s.dropAnswer l p).bufferFree l p.cls.val).link l).ready, y.pkt.cls = clsRsp ∧ y.pkt.kind = 0 ∧
      y.pkt.tag = p.tag ∧ y.pkt.dst = p.src ∧ y.pkt.err = true) := by
  have answered : PassesOn l s (s.dropAnswer l p) ∧ ((s.dropAnswer l p).link l).freed = (s.link l).freed ∧
      (p.cls ≠ clsRsp → ∃ y ∈ ((s.dropAnswer l p).link l).ready, y.pkt.cls = clsRsp ∧ y.pkt.kind = 0 ∧
        y.pkt.tag = p.tag ∧ y.pkt.dst = p.src ∧ y.pkt.err = true) := by
    unfold State.dropAnswer
    split
    next rsp => exact ⟨.refl l s, rfl, fun other => absurd rsp other⟩
    · unfold State.answer
      rw [if_pos (show s.linkUp l = true from decide_eq_true up)]
      refine ⟨.txAdd l s l _, ?_, fun _ => ?_⟩
      · rw [State.link_txAdd, if_pos rfl]
      · rw [State.link_txAdd, if_pos rfl]
        exact ⟨_, List.mem_append_right _ (List.mem_singleton.2 rfl), rfl, rfl, rfl, by simp [State.packet, txItem], rfl⟩
  obtain ⟨passes, freed, sent⟩ := answered
  obtain ⟨⟨rest, -⟩, more⟩ := (s.dropAnswer l p).bufferFree_link l p.cls.val l
  have ready := congrArg Link.ready rest
  refine ⟨passes.trans (.bufferFree l _ _), fun cls => ?_, fun cls => ?_⟩
  · rw [more fun h => cls (Fin.ext h), freed]
  · obtain ⟨y, mem, facts⟩ := sent cls
    exact ⟨y, ready ▸ mem, facts⟩

theorem packetPassing : PacketPassing := by
  intro s l x w empty arr c hm k row seq traffic other taken goesOn dropped
  obtain ⟨kind, g, cmd⟩ := packetCommand_receives hm
  have mine : s.isMine c.2 = false := by
    simp only [State.isMine, Bool.and_eq_false_iff, decide_eq_false_iff_not, not_not]
    tauto
  have received : s.receive l w c.2.cls kind g = (s.buffered l w row).passOn l c.2 (s.areaSlot l row) := by
    refine (State.receive_arrives arr c.2.cls kind g).trans ?_
    rw [← cmd.row, if_neg (not_not.2 seq), if_neg (by simp [mine, traffic])]
    rfl
  have rest := s.buffered_rest l w row
  have eng := s.buffered_eng l w row
  have near := fun h : l.val < 4 => State.buffered_near (s := s) h w row
  have keeps := s.buffered_keeps l w row
  have took := s.arrived_took l w row
  have rx : SMap.look ((s.buffered l w row).link l).rxSeq 0 row = c.2.seq + 1 := by rw [State.buffered_link, took.seq, seq]
  have ack : (row, c.2.seq + 1) ∈ ((s.buffered l w row).link l).ackDue := by rw [State.buffered_link, ← seq]; exact took.ack
  have isUp (m : Nat) : (s.buffered l w row).linkUp m = s.linkUp m := by rw [State.linkUp, (keeps m).1]; rfl
  have sinks := congrArg (fun z : State => z.door.sinks) rest
  generalize s.buffered l w row = z at *
  have takes {s' : State} (h : PassesOn l z s') : taken s' ∧ s'.door.sinks = [] := by
    obtain ⟨rest', seq', ack'⟩ := h
    have eng' := congrArg State.eng rest'
    have sinks' : s'.door.sinks = [] := (congrArg (fun z : State => z.door.sinks) rest').trans (sinks.trans empty)
    dsimp only at eng'
    refine ⟨⟨by rw [seq', rx], by rw [ack']; exact ack, by rw [eng', eng.1], by rw [eng', eng.2], sinks', fun h => ?_⟩, sinks'⟩
    exact (congrArg (fun z : State => { z with door := { z.door with links := s.door.links } }) rest').trans (near h)
  have goes {m : Nat} {q : Packet} {o : TxOrigin} (hm : m ≠ l)
      (sends : z.passOn l c.2 (s.areaSlot l row) = z.txAdd m [{ txItem q o false with slot := s.areaSlot l row }]) :
      Completes c.1 s (goesOn m q o) := by
    obtain ⟨took', sinks'⟩ := takes (PassesOn.txAdd l z m [{ txItem q o false with slot := s.areaSlot l row }])
    refine ⟨_, cmd.run s _ (received.trans sends) sinks', took', ?_, { txItem q o false with slot := s.areaSlot l row }, ?_, rfl, rfl, rfl⟩
    · rw [State.link_txAdd, if_neg hm.symm]
      exact (keeps l).2.2.2.1
    · rw [State.link_txAdd, if_pos rfl, (keeps m).2.2.1]
  have drops (h : z.passOn l c.2 (s.areaSlot l row) = (z.dropAnswer l c.2).bufferFree l c.2.cls.val) : Completes c.1 s dropped := by
    obtain ⟨passes, free, sent⟩ := State.drops (s := z) (l := l) ((keeps l).1.trans arr.up) c.2
    obtain ⟨took', sinks'⟩ := takes passes
    refine ⟨_, cmd.run s _ (received.trans h) sinks', took', fun cls => ?_, sent⟩
    rw [free cls, (keeps l).2.2.2.1]
  have ring (h : l.val < 2) : isRing l = true := decide_eq_true h
  have far (h : 2 ≤ l.val) : isRing l = false := decide_eq_false (Nat.not_lt.2 h)
  refine ⟨fun near' hops up => ?_, fun near' stuck => drops ?_, fun away r inject => ?_, fun away down0 down1 => drops ?_⟩
  · refine goes (pairLink_pairLink l).2 ?_
    unfold State.passOn
    rw [ring near']
    refine (if_pos rfl).trans (if_neg ?_)
    rw [isUp, State.linkUp, up]
    simpa using hops
  · unfold State.passOn
    rw [ring near']
    refine (if_pos rfl).trans (if_pos ?_)
    rw [isUp]
    rcases stuck with h | h <;> simp [State.linkUp, h]
  · have inject' : z.injectLink = some r := by
      simp only [State.injectLink, isUp]
      exact inject
    have small : r < 2 := by
      unfold State.injectLink at inject
      split at inject
      · cases inject; decide
      · split at inject
        · cases inject; decide
        · cases inject
    refine goes (by omega) ?_
    unfold State.passOn
    rw [far away, inject']
    exact if_neg nofun
  · have none : z.injectLink = none := by
      simp only [State.injectLink, isUp]
      simp [State.linkUp, down0, down1]
    unfold State.passOn
    rw [far away, none]
    exact if_neg nofun

/-- Settles O44: a NULL's trailer is taken, and each check of a packet and each way on is one branch of its reception. -/
theorem packetReception : Obligations.PacketReception := ⟨nullReception, packetChecks, packetPassing⟩

end Sys2Proof.Machine
end

/-! PROOFS. The watchdog, the egress hold and the scrubber (spec/11, 16): O53. -/

section
namespace Sys2Proof.Machine

/-! ### The exception queue takes records -/

/-- The exception queue has taken at most `n` records. -/
def TakesRecords (n : Nat) (s s' : State) : Prop :=
  ∃ l, s'.sash.excq.Perm (l ++ s.sash.excq) ∧ l.length ≤ n

theorem TakesRecords.of_eq {s s' : State} (h : s'.sash.excq = s.sash.excq) (n : Nat) : TakesRecords n s s' :=
  ⟨[], by simp [h], Nat.zero_le n⟩

theorem TakesRecords.trans {m n : Nat} {a b c : State} (h : TakesRecords m a b) (k : TakesRecords n b c) :
    TakesRecords (m + n) a c := by
  obtain ⟨l, hl, hm⟩ := h
  obtain ⟨l', hl', hn⟩ := k
  refine ⟨l' ++ l, (hl'.trans (hl.append_left l')).trans (by simp), ?_⟩
  rw [List.length_append]
  omega

theorem TakesRecords.length_le {n : Nat} {s s' : State} (h : TakesRecords n s s') :
    s'.sash.excq.length ≤ s.sash.excq.length + n := by
  obtain ⟨l, hl, hn⟩ := h
  have := hl.length_eq
  rw [List.length_append] at this
  omega

theorem TakesRecords.count_le {n : Nat} {s s' : State} (h : TakesRecords n s s') (x : ExcRec) :
    s.sash.excq.count x ≤ s'.sash.excq.count x := by
  obtain ⟨l, hl, -⟩ := h
  rw [hl.count_eq, List.count_append]
  exact Nat.le_add_left ..

theorem excInsert_perm (x : ExcRec) (l : List ExcRec) : (excInsert x l).Perm (x :: l) := by
  induction l with
  | nil => exact .refl _
  | cons y r ih =>
    unfold excInsert
    split
    · exact .refl _
    · exact (ih.cons y).trans (.swap x y r)

/-- With room the record enters, whatever its place among those of the cycle. -/
theorem State.excPush_perm {s : State} (room : s.sash.excq.length < 16) (i : ExcInfo) :
    (s.excPush i).sash.excq.Perm (excRecord s.time.cycle i :: s.sash.excq) := by
  unfold State.excPush
  dsimp only
  rw [if_pos room]
  refine ((excInsert_perm ..).append_left _).trans (List.perm_middle.trans (.cons _ ?_))
  rw [List.take_append_drop]

theorem State.excPush_takes {s : State} (room : s.sash.excq.length < 16) (i : ExcInfo) :
    TakesRecords 1 s (s.excPush i) :=
  ⟨[excRecord s.time.cycle i], State.excPush_perm room i, Nat.le_refl 1⟩

theorem State.integrity_takes {s : State} (room : s.sash.excq.length < 16) (i : EventInfo) :
    TakesRecords 1 s (s.integrity i) := by
  obtain ⟨z, hz, h⟩ := s.integrity_cases i
  have same : z.sash.excq = s.sash.excq := congrArg (fun z => z.sash.excq) hz.rest
  obtain h | ⟨log, h⟩ := h <;> rw [h]
  · exact .of_eq same 1
  · obtain ⟨l, hl, hn⟩ := State.excPush_takes (same ▸ room)
      { cause := 0x14, thread := 0, ctx := 0, status := 0, queue := 0, bel := true, pc := 0, info := log }
    exact ⟨l, same ▸ hl, hn⟩

/-! ### Threads changed one after another -/

/-- What a change of some threads leaves as it is. -/
structure OnlyThreads (s s' : State) : Prop where
  rest : { s' with f := s.f, b := s.b, u := s.u, s := s.s } = s

theorem OnlyThreads.trans {a b c : State} (h : OnlyThreads a b) (k : OnlyThreads b c) : OnlyThreads a c :=
  ⟨by rw [← h.rest, ← k.rest]⟩

theorem OnlyThreads.fields {s s' : State} (h : OnlyThreads s s') : s'.wd = s.wd ∧ s'.frame = s.frame ∧ s'.hinge = s.hinge ∧
    s'.int = s.int ∧ s'.sash.excq = s.sash.excq := by
  have r := h.rest
  have sash := congrArg State.sash r
  have wd := congrArg State.wd r
  have frame := congrArg State.frame r
  have hinge := congrArg State.hinge r
  have int := congrArg State.int r
  exact ⟨wd, frame, hinge, int, congrArg Sash.excq sash⟩

theorem OnlyLogs.fields {s s' : State} (h : OnlyLogs s s') : s'.wd = s.wd ∧ s'.frame = s.frame :=
  have wd := congrArg State.wd h.rest
  have frame := congrArg State.frame h.rest
  ⟨wd, frame⟩

theorem State.modTh_threads (s : State) (t : Thread) (g : ThreadState → ThreadState) : OnlyThreads s (s.modTh t g) := by
  cases t <;> exact ⟨rfl⟩

theorem State.foldl_modTh_threads (g : ThreadState → ThreadState) (ts : List Thread) (s : State) :
    OnlyThreads s (ts.foldl (fun s t => s.modTh t g) s) := by
  induction ts generalizing s with
  | nil => exact ⟨rfl⟩
  | cons t ts ih => exact (s.modTh_threads t g).trans (ih _)

/-- A change that is the same when it is made twice reaches each thread of the list. -/
theorem State.th_foldl_modTh {g : ThreadState → ThreadState} (idem : ∀ x, g (g x) = g x) (ts : List Thread) (s : State)
    (u : Thread) : (ts.foldl (fun s t => s.modTh t g) s).th u = if u ∈ ts then g (s.th u) else s.th u := by
  induction ts generalizing s with
  | nil => rfl
  | cons t ts ih =>
    rw [List.foldl_cons, ih]
    by_cases h : u = t
    · subst h
      simp [State.th_modTh, idem]
    · simp [h, State.th_modTh_ne]

theorem boundaryStop_idem (x : ThreadState) : boundaryStop (boundaryStop x) = boundaryStop x := by
  rcases h : x.state <;> simp [boundaryStop, h]

/-! ### The watchdog -/

/-- The threads that wait with a timer. -/
def State.timedThreads (s : State) : List Thread := allThreads.filter s.timed

theorem State.mem_timedThreads (s : State) (t : Thread) :
    t ∈ s.timedThreads ↔ (s.th t).state = .latch ∨ (s.th t).state = .queue := by
  have all : t ∈ allThreads := by cases t <;> decide
  simp [State.timedThreads, State.timed, all]

/-- The sum that MASK holds: the bit of each waiting thread. -/
def State.timedMask (s : State) : Nat := (s.timedThreads.map fun t => 2 ^ Thread.num t).sum

theorem maskOf_bits (f : Thread → Bool) (t : Thread) :
    (BitVec.ofNat 4 ((allThreads.filter f).map fun t => 2 ^ Thread.num t).sum).getLsbD (Thread.num t) = f t := by
  unfold allThreads
  cases hF : f .F <;> cases hB : f .B <;> cases hU : f .U <;> cases hS : f .S <;> cases t <;>
    simp only [List.filter, hF, hB, hU, hS] <;> rfl

/-- The report of the watchdog before the exception queue: FIRES, PEND and MASK, and WD of IRQ_STAT. -/
def State.wdReport (s : State) : State :=
  ({ s with wd := { s.wd with
    mask := BitVec.ofNat 4 s.timedMask
    fires := satInc 16 s.wd.fires
    pend := true
    threads := s.timedThreads.foldl (fun m t => SMap.put m 0 (Thread.num t) (s.wdWord t)) [] } }.irqSet 8).wakeAsk

/-- The report with its event and its record. -/
def State.wdTold (s : State) : State :=
  (if s.wd.pend then s.wdReport.integrity (eventOf mechWatchdog 2) else s.wdReport).excPush
    { cause := 0x13, thread := 0, ctx := 0, status := 0, queue := 0, bel := true, pc := 0,
      info := w64 (s.timedMask + (satInc 16 s.wd.fires <<< 16)) }

/-- The report with the timers of the waiting threads at 0. -/
def State.wdZeroed (s : State) : State :=
  s.timedThreads.foldl (fun s t => s.modTh t fun x => { x with timer := 0 }) s.wdTold

theorem execWatchdogFire_eq (s : State) : execWatchdogFire s = .next
    (if s.timedThreads.any fun t => decide (s.wd.period.toNat ≤ (s.th t).timer) then s.wdZeroed.wdPolicy s.timedThreads
      else s) := by
  unfold execWatchdogFire State.wdZeroed State.wdTold State.wdReport State.timedMask State.timedThreads
  dsimp only
  split <;> simp_all

/-- The threads of a list are stopped at their next instruction boundary; S goes on. -/
def State.stopsAll (s : State) (ts : List Thread) : State :=
  (ts.filter (· ≠ .S)).foldl (fun s t => s.modTh t boundaryStop) s

theorem foldl_stop_eq (s : State) (ts : List Thread) :
    ts.foldl (fun s t => if t = .S then s else s.stopAtBoundary t) s = s.stopsAll ts := by
  unfold State.stopsAll
  rw [List.foldl_filter]
  congr 1
  funext s t
  by_cases h : t = .S <;> simp [h, State.stopAtBoundary_eq]

theorem State.th_stopsAll (s : State) (ts : List Thread) (t : Thread) :
    (s.stopsAll ts).th t = if t ∈ ts ∧ t ≠ .S then boundaryStop (s.th t) else s.th t := by
  unfold State.stopsAll
  rw [State.th_foldl_modTh boundaryStop_idem]
  simp

theorem State.wdPolicy_stops {s : State} (h : s.frame.fault.wdPol = 1) (ts : List Thread) :
    s.wdPolicy ts = s.stopsAll ts := by
  unfold State.wdPolicy
  rw [h]
  exact foldl_stop_eq s ts

theorem State.wdPolicy_alarms {s : State} (h : s.frame.fault.wdPol = 2) (ts : List Thread) :
    ∃ us, s.wdPolicy ts = (s.stopsAll us).integrity (eventOf mechWatchdog 2) := by
  unfold State.wdPolicy
  rw [h]
  exact ⟨_, congrArg (State.integrity · (eventOf mechWatchdog 2)) (foldl_stop_eq s _)⟩

theorem State.wdPolicy_none {s : State} (h1 : s.frame.fault.wdPol ≠ 1) (h2 : s.frame.fault.wdPol ≠ 2) (ts : List Thread) :
    s.wdPolicy ts = s := by
  unfold State.wdPolicy
  split
  · contradiction
  · contradiction
  · rfl

theorem State.stopsAll_threads (s : State) (ts : List Thread) : OnlyThreads s (s.stopsAll ts) :=
  State.foldl_modTh_threads ..

/-- The policy leaves the timers alone. -/
theorem State.wdPolicy_timer (s : State) (ts : List Thread) (t : Thread) : ((s.wdPolicy ts).th t).timer = (s.th t).timer := by
  have stopped : ∀ us, ((s.stopsAll us).th t).timer = (s.th t).timer := by
    intro us
    rw [State.th_stopsAll]
    split
    · have h := congrArg ThreadState.timer (boundaryStop_rest (s.th t))
      exact h
    · rfl
  by_cases h1 : s.frame.fault.wdPol = 1
  · rw [State.wdPolicy_stops h1, stopped]
  by_cases h2 : s.frame.fault.wdPol = 2
  · obtain ⟨us, h⟩ := State.wdPolicy_alarms h2 ts
    rw [h, (OnlyLogs.of_integrity _ _).th, stopped]
  · rw [State.wdPolicy_none h1 h2]

/-- What the policy leaves as it is: the registers of the watchdog and, but for WDPOL 2, all but the threads. -/
theorem State.wdPolicy_leaves (s : State) (ts : List Thread) :
    (s.wdPolicy ts).wd = s.wd ∧ (s.hinge.irqStat.getLsbD 8 = true → (s.wdPolicy ts).hinge.irqStat.getLsbD 8 = true) ∧
    (s.sash.excq.length < 16 → TakesRecords 1 s (s.wdPolicy ts)) ∧
    (s.frame.fault.wdPol ≠ 2 → (s.wdPolicy ts).int = s.int) := by
  by_cases h1 : s.frame.fault.wdPol = 1
  · rw [State.wdPolicy_stops h1]
    obtain ⟨wd, -, hinge, int, excq⟩ := (s.stopsAll_threads ts).fields
    exact ⟨wd, fun h => hinge ▸ h, fun _ => .of_eq excq 1, fun _ => int⟩
  by_cases h2 : s.frame.fault.wdPol = 2
  · obtain ⟨us, h⟩ := State.wdPolicy_alarms h2 ts
    rw [h]
    obtain ⟨wd, -, hinge, -, excq⟩ := (s.stopsAll_threads us).fields
    have told := OnlyLogs.of_integrity (s.stopsAll us) (eventOf mechWatchdog 2)
    refine ⟨told.fields.1.trans wd, fun h => State.integrity_irqStat _ _ _ (by rw [hinge]; exact h), fun room => ?_,
      fun n => absurd h2 n⟩
    obtain ⟨l, hl, hn⟩ := State.integrity_takes (excq ▸ room) (eventOf mechWatchdog 2)
    exact ⟨l, excq ▸ hl, hn⟩
  · rw [State.wdPolicy_none h1 h2]
    exact ⟨rfl, id, fun _ => .of_eq rfl 1, fun _ => rfl⟩

theorem State.wdPolicy_stat (s : State) (ts : List Thread) : (s.wdPolicy ts).int.stat =
    if s.frame.fault.wdPol = 2 then s.int.stat ||| BitVec.ofNat 9 (2 ^ 2) ||| 0x100 else s.int.stat := by
  split
  next h =>
    obtain ⟨us, h⟩ := State.wdPolicy_alarms h ts
    rw [h, (State.integrity_int _ _).1, (s.stopsAll_threads us).fields.2.2.2.1]
    rfl
  next h => rw [(s.wdPolicy_leaves ts).2.2.2 h]

/-- The told report: what it leaves as it is, its registers, and the records that it has offered. -/
theorem State.wdTold_tells (s : State) : (∀ t, s.wdTold.th t = s.th t) ∧ s.wdTold.frame = s.frame ∧
    s.wdTold.wd = s.wdReport.wd ∧ s.wdTold.hinge.irqStat.getLsbD 8 = true ∧
    (s.wd.pend = false → s.wdTold.int = s.int) ∧
    (s.wd.pend = true → s.wdTold.int.stat = s.int.stat ||| BitVec.ofNat 9 (2 ^ 2) ||| 0x100) := by
  have th : ∀ t, s.wdReport.th t = s.th t := by
    intro t
    unfold State.wdReport State.wakeAsk
    split <;> cases t <;> rfl
  have report : s.wdReport.frame = s.frame ∧ s.wdReport.int = s.int ∧ s.wdReport.hinge.irqStat.getLsbD 8 = true := by
    unfold State.wdReport State.wakeAsk
    split <;> exact ⟨rfl, rfl, by simp [State.irqSet]⟩
  obtain ⟨frame, int, irq⟩ := report
  have told : OnlyLogs s.wdReport s.wdTold := by
    unfold State.wdTold
    refine OnlyLogs.trans ?_ (.of_excPush _ _)
    split
    · exact .of_integrity _ _
    · exact .refl _
  refine ⟨fun t => (told.th t).trans (th t), told.fields.2.trans frame, told.fields.1, ?_,
    fun h => ?_, fun h => ?_⟩ <;> unfold State.wdTold
  · refine State.excPush_irqStat _ _ 8 ?_
    split
    · exact State.integrity_irqStat _ _ 8 irq
    · exact irq
  · rw [h, State.excPush_int]
    exact int
  · rw [h, State.excPush_int]
    refine (State.integrity_int _ _).1.trans ?_
    rw [int]
    rfl

/-- The record that the watchdog offers, with its INFO. -/
def wdRecord (info : Word) : ExcInfo :=
  { cause := 0x13, thread := 0, ctx := 0, status := 0, queue := 0, bel := true, pc := 0, info := info }

theorem wdRecord_fields (cycle info : Word) :
    (excRecord cycle (wdRecord info)).w0.toNat % 256 = 0x13 ∧ (excRecord cycle (wdRecord info)).w0.getLsbD 23 = true := by
  have w0 : (excRecord cycle (wdRecord info)).w0 = w64 (0x13 + 2 ^ 23) := by
    simp [excRecord, wdRecord, b2n]
  rw [w0]
  decide

/-- A record of cause WATCHDOG, of Belore, enters the exception queue. -/
theorem State.wdTold_gains {s : State} (room : s.sash.excq.length < 14) :
    Gains (fun x => x.w0.toNat % 256 = 0x13 ∧ x.w0.getLsbD 23 = true) s s.wdTold ∧ s.wdTold.sash.excq.length < 16 := by
  have excq : s.wdReport.sash.excq = s.sash.excq := by
    unfold State.wdReport State.wakeAsk
    split <;> rfl
  obtain ⟨z, info, told, takes⟩ : ∃ z info, s.wdTold = z.excPush (wdRecord info) ∧ TakesRecords 1 s z := by
    refine ⟨_, _, rfl, ?_⟩
    split
    · obtain ⟨l, hl, hn⟩ := State.integrity_takes (s := s.wdReport) (by rw [excq]; omega) (eventOf mechWatchdog 2)
      exact ⟨l, excq ▸ hl, hn⟩
    · exact .of_eq excq 1
  have full := takes.length_le
  have perm := State.excPush_perm (s := z) (by omega) (wdRecord info)
  rw [told]
  refine ⟨⟨_, wdRecord_fields z.time.cycle info, ?_⟩, ?_⟩
  · rw [perm.count_eq, List.count_cons_self]
    exact Nat.lt_succ_of_le (takes.count_le _)
  · rw [perm.length_eq, List.length_cons]
    omega

theorem State.wdZeroed_threads (s : State) : OnlyThreads s.wdTold s.wdZeroed := State.foldl_modTh_threads ..

theorem State.th_wdZeroed (s : State) (t : Thread) :
    s.wdZeroed.th t = if t ∈ s.timedThreads then { s.th t with timer := 0 } else s.th t := by
  unfold State.wdZeroed
  rw [State.th_foldl_modTh (g := fun x => { x with timer := 0 }) (fun _ => rfl), s.wdTold_tells.1]

theorem watchdogFire : WatchdogFire := by
  intro s waits
  have mem : ∀ t, t ∈ s.timedThreads ↔ waits t := s.mem_timedThreads
  constructor
  · intro early
    refine .of_eq (execWatchdogFire_eq s) (if_neg ?_) rfl
    simp only [List.any_eq_true, decide_eq_true_eq, not_exists, not_and]
    intro t ht
    have := early t ((mem t).mp ht)
    omega
  intro t0 hw due
  obtain ⟨th, frame, wd, irq, int0, int1⟩ := s.wdTold_tells
  obtain ⟨zwd, zframe, zhinge, zint, zexcq⟩ := s.wdZeroed_threads.fields
  rw [wd] at zwd
  rw [frame] at zframe
  obtain ⟨pwd, pirq, pexcq, pint⟩ := s.wdZeroed.wdPolicy_leaves s.timedThreads
  rw [zframe, zint] at pint
  have report : (s.wdZeroed.wdPolicy s.timedThreads).wd = s.wdReport.wd := pwd.trans zwd
  have fields : s.wdReport.wd.fires = satInc 16 s.wd.fires ∧ s.wdReport.wd.pend = true ∧
      s.wdReport.wd.mask = BitVec.ofNat 4 s.timedMask := by
    unfold State.wdReport State.wakeAsk
    split <;> exact ⟨rfl, rfl, rfl⟩
  obtain ⟨hfires, hpend, hmask⟩ := fields
  have mask : ∀ t, (s.wdZeroed.wdPolicy s.timedThreads).wd.mask.getLsbD (Thread.num t) = s.timed t := by
    intro t
    rw [report, hmask]
    exact maskOf_bits s.timed t
  have timed : ∀ t, s.timed t = true ↔ waits t := by
    intro t
    simp [State.timed, waits]
  refine .of_eq (execWatchdogFire_eq s) (if_pos ?_) ?_
  · exact List.any_eq_true.mpr ⟨t0, (mem t0).mpr hw, decide_eq_true due⟩
  have stops : s.frame.fault.wdPol = 1 → ∀ t, (s.wdZeroed.wdPolicy s.timedThreads).th t =
      if waits t ∧ t ≠ .S then boundaryStop { s.th t with timer := 0 } else s.wdZeroed.th t := by
    intro h t
    rw [State.wdPolicy_stops (zframe ▸ h), State.th_stopsAll]
    simp only [mem]
    by_cases hw : waits t ∧ t ≠ .S
    · rw [if_pos hw, if_pos hw, State.th_wdZeroed, if_pos ((mem t).mpr hw.1)]
    · rw [if_neg hw, if_neg hw]
  have alone : ∀ t, ¬waits t → s.frame.fault.wdPol ≠ 2 → (s.wdZeroed.wdPolicy s.timedThreads).th t = s.th t := by
    intro t ht h2
    have same : s.wdZeroed.th t = s.th t := by rw [State.th_wdZeroed, if_neg (mt (mem t).mp ht)]
    by_cases h1 : s.frame.fault.wdPol = 1
    · rw [stops h1, if_neg (fun h => ht h.1), same]
    · rw [State.wdPolicy_none (zframe ▸ h1) (zframe ▸ h2), same]
  have zero : ∀ t, waits t → (s.wdZeroed.th t) = { s.th t with timer := 0 } := by
    intro t ht
    rw [State.th_wdZeroed, if_pos ((mem t).mpr ht)]
  have timer : ∀ t, waits t → ((s.wdZeroed.wdPolicy s.timedThreads).th t).timer = 0 := by
    intro t ht
    rw [s.wdZeroed.wdPolicy_timer, zero t ht]
  refine ⟨report ▸ hfires, report ▸ hpend, pirq (zhinge ▸ irq), fun t ht => ⟨timer t ht, ?_⟩, fun t ht => ⟨?_, alone t ht⟩,
    fun room => ?_, fun h => ?_, fun hp h2 => (pint h2).trans (int0 hp), fun h0 t ht => ?_, fun h1 t ht hs => ?_,
    fun h1 hs => ?_⟩
  · rw [mask, (timed t).mpr ht]
  · rw [mask, Bool.eq_false_iff]
    exact mt (timed t).mp ht
  · obtain ⟨⟨x, hx, more⟩, full⟩ := State.wdTold_gains room
    refine ⟨x, hx, Nat.lt_of_lt_of_le more ?_⟩
    rw [← zexcq]
    exact (pexcq (zexcq ▸ full)).count_le x
  · rw [State.wdPolicy_stat, zframe, zint]
    rcases h with h | h
    · split <;> rw [int1 h] <;> simp
    · rw [if_pos h]
      simp
  · rw [State.wdPolicy_none (by rw [zframe, h0]; decide) (by rw [zframe, h0]; decide), zero t ht]
  · rw [stops h1, if_pos ⟨ht, hs⟩]
    exact boundaryStop_state (.inr ht)
  · rw [stops h1, if_neg (fun h => h.2 rfl), zero .S hs]

/-! ### The egress hold and the scrubber -/

theorem State.link_foldl_modLink (g : Link → Link) (n : Nat) (s : State) (l : Nat) :
    ((List.range n).foldl (fun s l => s.modLink l g) s).link l = if l < n then g (s.link l) else s.link l := by
  induction n generalizing l with
  | zero => rfl
  | succ n ih =>
    rw [List.range_succ, List.foldl_append, List.foldl_cons, List.foldl_nil, State.link_modLink, ih, ih]
    by_cases h : l = n
    · subst h
      simp
    · have : l < n + 1 ↔ l < n := by omega
      simp only [if_neg h, this]

theorem State.foldl_modLink_rest (g : Link → Link) (ls : List Nat) (s : State) :
    { ls.foldl (fun s l => s.modLink l g) s with door := s.door } = s := by
  induction ls generalizing s with
  | nil => rfl
  | cons l ls ih =>
    have h := ih (s.modLink l g)
    have x := congrArg (fun z => { z with door := s.door }) h
    exact x

/-- A link whose packets go when their 40 cycles have passed (R386). -/
def Link.released (k : Link) : Link :=
  { k with ready := k.ready.map fun x => if x.hold = 0 then { x with held := false } else x }

/-- May a held request go? -/
def JReq.due (r : JReq) : Bool := decide (r.held = true) && decide (r.hold = 0)

/-- The requests that may go stand behind those that were ready before them. -/
def State.reqsReleased (s : State) : State :=
  { s with jamb := { s.jamb with
      reqs := s.jamb.reqs.filter (fun r => !r.due) ++ (s.jamb.reqs.filter JReq.due).map fun r => { r with held := false, age := 0 } } }

theorem execEgressHoldRelease_eq (s : State) : execEgressHoldRelease s =
    .next ((List.range 6).foldl (fun s l => s.modLink l Link.released) s.reqsReleased) := by
  have due : JReq.due = fun r => r.held && decide (r.hold = 0) := by
    funext r
    simp [JReq.due]
  unfold State.reqsReleased
  rw [due]
  rfl

theorem egressReleases (s : State) : Completes .egressHoldRelease s fun s' =>
    let due := fun r : JReq => decide (r.held = true) && decide (r.hold = 0)
    s'.jamb.reqs = s.jamb.reqs.filter (fun r => !due r) ++
      (s.jamb.reqs.filter due).map (fun r => { r with held := false, age := 0 }) ∧
    (∀ l < 6, (s'.link l).ready = (s.link l).ready.map (fun x => if x.hold = 0 then { x with held := false } else x) ∧
      { s'.link l with ready := (s.link l).ready } = s.link l) ∧
    { s' with jamb := s.jamb, door := s.door } = s := by
  refine .of_eq (execEgressHoldRelease_eq s) rfl ?_
  intro due
  have rest := State.foldl_modLink_rest Link.released (List.range 6) s.reqsReleased
  refine ⟨?_, fun l hl => ?_, ?_⟩
  · have jamb := congrArg (fun z => z.jamb.reqs) rest
    exact jamb
  · rw [State.link_foldl_modLink, if_pos hl]
    exact ⟨rfl, rfl⟩
  · have h := congrArg (fun z => { z with jamb := s.jamb, door := s.door }) rest
    exact h

/-- A scrub before its time, or of a core that does not run, does nothing (R385). -/
theorem scrub_nothing {s : State} {unit : ScrubUnit} (h : s.clk.aclkOn = false ∨ s.pwr.parked = true ∨ s.scrubDue unit = false)
    (u : Upset) : Completes (.scrub unit u) s fun s' => s' = s := by
  refine .of_eq rfl (if_pos ?_) rfl
  rcases h with h | h | h <;> simp [h]

theorem holdAndScrub : HoldAndScrub := by
  refine ⟨egressReleases, ?_⟩
  intro s a b spad sill
  refine ⟨fun on awake => ⟨fun due => ?_, fun early u => scrub_nothing (.inr (.inr ?_)) u, fun due => ?_, fun early u =>
    scrub_nothing (.inr (.inr ?_)) u⟩, fun h unit u => scrub_nothing (h.imp_right .inl) u⟩
  · have goes : ¬(!s.clk.aclkOn || s.pwr.parked || !s.scrubDue (.scratchpad a)) = true := by
      simp [on, awake, State.scrubDue, scrubEvery, due]
    refine ⟨.of_eq rfl (if_neg goes) rfl, fun d => .of_eq rfl (if_neg goes) ?_⟩
    have cause : (spad.scrubEvent 1 (32 * SMap.look s.int.scrubSpad 0 a.val + a.val)).causeBit = 0 := by
      unfold State.scrubEvent
      dsimp only
      split <;> rfl
    have told := OnlyLogs.of_integrity spad
      { spad.scrubEvent 1 (32 * SMap.look s.int.scrubSpad 0 a.val + a.val) with detail := some d }
    have eng := congrArg State.eng told.rest
    have scrubbed := congrArg Integrity.scrubSpad told.int
    have stat := (State.integrity_int spad
      { spad.scrubEvent 1 (32 * SMap.look s.int.scrubSpad 0 a.val + a.val) with detail := some d }).1
    rw [cause] at stat
    refine ⟨eng, ?_, ?_, scrubbed⟩
    · exact (congrArg (BitVec.getLsbD · 0) stat).trans (by simp)
    · exact (congrArg (BitVec.getLsbD · 8) stat).trans (by simp)
  · exact decide_eq_false (Nat.not_lt.mpr early)
  · have goes : ¬(!s.clk.aclkOn || s.pwr.parked || !s.scrubDue (.sill b)) = true := by
      simp [on, awake, State.scrubDue, scrubEvery, due]
    refine ⟨.of_eq rfl (if_neg goes) ?_, fun dark u => .of_eq rfl (if_neg goes) ?_, fun dark => ?_⟩
    · exact ite_self sill
    · have zeros : s.sillDark = true := dark
      refine if_pos ?_
      exact zeros
    · have lit : ¬(decide (2 = 2) && sill.sillDark) = true := by
        have : sill.sillDark = false := dark
        simp [this]
      exact .of_eq rfl ((if_neg goes).trans (if_neg lit)) ⟨rfl, rfl⟩
  · exact decide_eq_false (Nat.not_lt.mpr early)

/-- Settles O53: the policy acts on the threads of the report, whose record and events have entered before. -/
theorem upkeep : Obligations.Upkeep := ⟨watchdogFire, holdAndScrub⟩

end Sys2Proof.Machine
end

/-! PROOFS. What the writes of an entry reach: its destination, its own record, and the count of a dark block (spec/02, 05). -/

section
namespace Sys2Proof.Machine

/-! ### Entries by name -/

theorem find?_updFirst {α β : Type} [DecidableEq β] (name : α → β) {f : α → α} (keeps : ∀ x, name (f x) = name x) (u v : β)
    (l : List α) : (updFirst (fun x => name x = u) f l).find? (fun x => name x = v) =
      if v = u then (l.find? fun x => name x = v).map f else l.find? fun x => name x = v := by
  induction l with
  | nil => simp [updFirst]
  | cons x r ih =>
    unfold updFirst
    by_cases h : name x = u
    · rw [if_pos (decide_eq_true h)]
      by_cases hv : v = u
      · subst hv
        simp [h, keeps]
      · have : name x ≠ v := fun e => hv (e.symm.trans h)
        simp [keeps, this, hv]
    · rw [if_neg (by simp [h])]
      by_cases hx : name x = v
      · have : v ≠ u := fun e => h (hx.trans e)
        simp [hx, this]
      · simp [hx, ih]

theorem State.entry_modEntry (s : State) (u v : Nat) {g : Entry → Entry} (keeps : ∀ e, (g e).uid = e.uid) :
    (s.modEntry u g).entry v = if v = u then (s.entry v).map g else s.entry v :=
  find?_updFirst Entry.uid keeps u v s.eng.lanes

theorem State.entry_modEntry_same {s : State} {u : Nat} {e : Entry} (h : s.entry u = some e) {g : Entry → Entry}
    (keeps : ∀ e, (g e).uid = e.uid) : (s.modEntry u g).entry u = some (g e) := by
  rw [State.entry_modEntry _ _ _ keeps, if_pos rfl, h]
  rfl

theorem State.uid_of_entry {s : State} {u : Nat} {e : Entry} (h : s.entry u = some e) : e.uid = u := by
  simpa using List.find?_some h

theorem State.entry_of_lanes {s s' : State} (h : s'.eng.lanes = s.eng.lanes) (u : Nat) : s'.entry u = s.entry u := by
  unfold State.entry
  rw [h]

/-! ### The frame of a write -/

/-- What a write of an entry changes of it: what it has written, the bytes gathered for memory, and the Louvre codes seen. -/
def Entry.Written (e e' : Entry) : Prop := { e' with commits := e.commits, out := e.out, wrote := e.wrote } = e

theorem Entry.Written.refl (e : Entry) : e.Written e := rfl

theorem Entry.Written.trans {a b c : Entry} (h : a.Written b) (k : b.Written c) : a.Written c := by
  unfold Entry.Written at *
  rw [← h, ← k]

/-- Some bytes of the space `k` have changed, all at addresses `as`; entries have only noted and gathered their writes, and
accesses of dark blocks have been counted. -/
structure Stores (k : Nat) (as : Nat → Prop) (s s' : State) : Prop where
  rest : { s' with
      eng := { s'.eng with spad := s.eng.spad, sill := s.eng.sill, sillSet := s.eng.sillSet, lanes := s.eng.lanes }
      int := { s'.int with shutCount := s.int.shutCount, shutBlock := s.int.shutBlock, shutPend := s.int.shutPend }
      fresh := s.fresh } = s
  spad : ∀ a, k ≠ 1 ∨ ¬as a → SMap.look s'.eng.spad 0 a = SMap.look s.eng.spad 0 a
  sill : ∀ a, k ≠ 2 ∨ ¬as a → SMap.look s'.eng.sill 0 a = SMap.look s.eng.sill 0 a
  entries : ∀ u e, s.entry u = some e → ∃ e', s'.entry u = some e' ∧ e.Written e'

namespace Stores

variable {k : Nat} {as : Nat → Prop}

theorem refl (s : State) : Stores k as s s := ⟨rfl, fun _ _ => rfl, fun _ _ => rfl, fun _ e h => ⟨e, h, .refl e⟩⟩

theorem trans {a b c : State} (h : Stores k as a b) (i : Stores k as b c) : Stores k as a c where
  rest := by
    have r := i.rest
    have q := h.rest
    rw [← q, ← r]
  spad := fun x n => (i.spad x n).trans (h.spad x n)
  sill := fun x n => (i.sill x n).trans (h.sill x n)
  entries := fun u e he => by
    obtain ⟨e1, h1, w1⟩ := h.entries u e he
    obtain ⟨e2, h2, w2⟩ := i.entries u e1 h1
    exact ⟨e2, h2, w1.trans w2⟩

theorem foldl {α : Type} {g : State → α → State} {l : List α} (h : ∀ s, ∀ x ∈ l, Stores k as s (g s x)) (s : State) :
    Stores k as s (l.foldl g s) := by
  induction l generalizing s with
  | nil => exact refl s
  | cons x l ih => exact (h s x (.head l)).trans (ih (fun s y hy => h s y (.tail x hy)) (g s x))

theorem weaken {bs : Nat → Prop} (sub : ∀ a, as a → bs a) {s s' : State} (h : Stores k as s s') : Stores k bs s s' :=
  ⟨h.rest, fun a n => h.spad a (n.imp_right (mt (sub a))), fun a n => h.sill a (n.imp_right (mt (sub a))), h.entries⟩

theorem onlyTensor {d : Desc} {p : Coord → Bool} {s s' : State} (h : Stores d.space (· ∈ tensorAddrs d p) s s') :
    OnlyTensor d p s s' where
  spad := h.spad
  sill := h.sill
  dmem := by
    have dmem := congrArg (fun z : State => z.sash.dmem) h.rest
    exact dmem

end Stores

theorem OnlyTensor.trans_same {d : Desc} {p : Coord → Bool} {a b c : State} (h : OnlyTensor d p a b) (k : b.Same c) :
    OnlyTensor d p a c where
  spad := fun x n => k.spad ▸ h.spad x n
  sill := fun x n => k.sill ▸ h.sill x n
  dmem := k.dmem.trans h.dmem

theorem OnlyTensor.same_trans {d : Desc} {p : Coord → Bool} {a b c : State} (k : a.Same b) (h : OnlyTensor d p b c) :
    OnlyTensor d p a c where
  spad := fun x n => (h.spad x n).trans (by rw [k.spad])
  sill := fun x n => (h.sill x n).trans (by rw [k.sill])
  dmem := h.dmem.trans k.dmem

theorem State.shutAccess_stores {k : Nat} {as : Nat → Prop} (s : State) (block n : Nat) : Stores k as s (s.shutAccess block n) := by
  unfold State.shutAccess
  split
  · exact .refl s
  · exact ⟨rfl, fun _ _ => rfl, fun _ _ => rfl, fun _ e h => ⟨e, h, .refl e⟩⟩

theorem State.modEntry_stores {k : Nat} {as : Nat → Prop} (s : State) (u : Nat) {g : Entry → Entry} (h : ∀ e : Entry, e.Written (g e)) :
    Stores k as s (s.modEntry u g) := by
  refine ⟨rfl, fun _ _ => rfl, fun _ _ => rfl, fun v e he => ?_⟩
  have uid : ∀ e, (g e).uid = e.uid := fun e => by
    have w := congrArg Entry.uid (h e)
    exact w
  rw [State.entry_modEntry _ _ _ uid, he]
  split
  · exact ⟨g e, rfl, h e⟩
  · exact ⟨e, rfl, .refl e⟩

theorem State.noteWrite_stores {k : Nat} {as : Nat → Prop} (s : State) (u n : Nat) (w : BitWrite) : Stores k as s (s.noteWrite u n w) := by
  unfold State.noteWrite
  split
  · exact .refl s
  · split
    · split
      · exact s.modEntry_stores u fun _ => rfl
      · exact .refl s
    · exact .refl s

theorem State.louvreSees_stores {k : Nat} {as : Nat → Prop} (s : State) (u : Nat) (o : Opnd) (drain : Bool) (vs : List Val) :
    Stores k as s (s.louvreSees u o drain vs) := by
  unfold State.louvreSees
  split
  · exact s.modEntry_stores u fun _ => rfl
  · exact .refl s

/-! ### The bytes of a write -/

/-- The bytes that a write covers. -/
def BitWrite.covers (w : BitWrite) (a : Nat) : Prop := w.addr ≤ a ∧ a < w.addr + (w.bit + w.width + 7) / 8

theorem mem_writeCells {f : Nat → Byte} {w : BitWrite} {c : Host.Cell} (h : c ∈ writeCells f w) : w.covers c.1 := by
  simp only [writeCells, cellsAt_eq_map, natLe_length, List.mem_map, List.mem_range] at h
  obtain ⟨i, hi, rfl⟩ := h
  exact ⟨Nat.le_add_right .., Nat.add_lt_add_left hi _⟩

theorem look_foldl_cells (cs : List Host.Cell) (m : Mem) (a : Nat) (h : ∀ c ∈ cs, c.1 ≠ a) :
    SMap.look (cs.foldl (fun m c => SMap.put m 0 c.1 c.2) m) 0 a = SMap.look m 0 a := by
  induction cs generalizing m with
  | nil => rfl
  | cons c cs ih =>
    rw [List.foldl_cons, ih _ fun x hx => h x (.tail c hx), SMap.look_put, if_neg fun e => h c (.head cs) e.symm]

theorem State.spadWrite_stores {as : Nat → Prop} (s : State) {w : BitWrite} (covers : ∀ a, w.covers a → as a) : Stores 1 as s (s.spadWrite w) := by
  obtain ⟨z, hz, h⟩ : ∃ z, Stores 1 as s z ∧ s.spadWrite w = { z with eng := { z.eng with spad := spadWritten s.bankDark s.eng.spad w } } := by
    obtain ⟨i, h⟩ := s.spadWrite_writes w
    refine ⟨{ s with int := (s.spadWrite w).int }, ⟨?_, fun _ _ => rfl, fun _ _ => rfl, fun _ e h => ⟨e, h, .refl e⟩⟩, ?_⟩
    · unfold State.spadWrite State.shutAccess
      dsimp only
      split <;> rfl
    · rw [h]
  have r := hz.rest
  rw [h]
  refine ⟨r, fun a n => ?_, hz.sill, hz.entries⟩
  refine look_foldl_cells _ _ a fun c hc => ?_
  rintro rfl
  exact n.elim (· rfl) fun n => n (covers _ (mem_writeCells (List.mem_of_mem_filter hc)))

theorem State.sillWrite_stores {as : Nat → Prop} (s : State) {w : BitWrite} (covers : ∀ a, w.covers a → as a) : Stores 2 as s (s.sillWrite w) := by
  refine ⟨rfl, fun _ _ => rfl, fun a n => look_foldl_cells _ _ a fun c hc => ?_, fun _ e h => ⟨e, h, .refl e⟩⟩
  rintro rfl
  exact n.elim (· rfl) fun n => n (covers _ (mem_writeCells hc))

theorem State.place_stores {as : Nat → Prop} (s : State) (u : Nat) (d : Desc) {w : BitWrite} (h : ∀ a, w.covers a → as a) :
    Stores d.space as s (s.place u d w) := by
  unfold State.place
  split
  next hd => exact hd ▸ s.spadWrite_stores h
  next hd =>
    rw [hd]
    split
    · exact s.shutAccess_stores ..
    · exact s.sillWrite_stores h
  · exact s.modEntry_stores u fun _ => rfl

theorem State.write1_stores {as : Nat → Prop} (s : State) (u n : Nat) (d : Desc) {w : BitWrite} (h : ∀ a, w.covers a → as a) :
    Stores d.space as s (s.write1 u n d w) :=
  (s.noteWrite_stores u n w).trans (State.place_stores _ u d h)

theorem State.writeAll_stores {as : Nat → Prop} (s : State) (u n : Nat) (d : Desc) {ws : List BitWrite}
    (h : ∀ w ∈ ws, ∀ a, w.covers a → as a) : Stores d.space as s (s.writeAll u n d ws) :=
  .foldl (fun s w hw => s.write1_stores u n d (h w hw)) s

theorem elemWrite_covers {d : Desc} {p : Coord → Bool} {x : Coord} (hx : x ∈ coords d) (hp : p x = true) (b a : Nat)
    (h : (elemWrite d x b).covers a) : a ∈ tensorAddrs d p := by
  refine List.mem_flatMap.mpr ⟨x, List.mem_filter.mpr ⟨hx, hp⟩, List.mem_append_left _ ?_⟩
  obtain ⟨lo, hi⟩ := h
  refine List.mem_map.mpr ⟨a - (elemAddr d x).1, List.mem_range.mpr ?_, Nat.add_sub_cancel' lo⟩
  exact Nat.sub_lt_left_of_lt_add lo hi

theorem scaleAddr_mem {d : Desc} {p : Coord → Bool} {x : Coord} (mx : isMx d.fmt = true) (hx : x ∈ coords d) (hp : p x = true) : scaleAddr d x ∈ tensorAddrs d p := by
  refine List.mem_flatMap.mpr ⟨x, List.mem_filter.mpr ⟨hx, hp⟩, List.mem_append_right _ ?_⟩
  rw [if_pos mx]
  exact .head _

/-! ### Writes to the elements of a tensor -/

theorem coordOf_linIndex {d : Desc} {x : Coord} (h : inExtents d x = true) : coordOf d (linIndex d x) = x := by
  obtain ⟨x0, x1, x2, x3⟩ := x
  simp only [inExtents, Bool.and_eq_true, decide_eq_true_eq] at h
  obtain ⟨⟨⟨h0, h1⟩, h2⟩, h3⟩ := h
  have split {a n b : Nat} (h : a < n) : (a + n * b) % n = a ∧ (a + n * b) / n = b := by
    rw [Nat.add_mul_mod_self_left, Nat.mod_eq_of_lt h, Nat.add_mul_div_left _ _ (by omega), Nat.div_eq_of_lt h, Nat.zero_add]
    exact ⟨rfl, rfl⟩
  simp only [coordOf, linIndex]
  rw [(split h0).1, (split h0).2, (split h1).1, (split h1).2, (split h2).1, (split h2).2]

theorem linIndex_lt {d : Desc} {x : Coord} (h : inExtents d x = true) : linIndex d x < elemCount d := by
  simp only [inExtents, Bool.and_eq_true, decide_eq_true_eq] at h
  obtain ⟨⟨⟨h0, h1⟩, h2⟩, h3⟩ := h
  have step {a n b m : Nat} (ha : a < n) (hb : b < m) : a + n * b < n * m :=
    calc a + n * b < n + n * b := Nat.add_lt_add_right ha _
      _ = n * (b + 1) := by rw [Nat.mul_succ, Nat.add_comm]
      _ ≤ n * m := Nat.mul_le_mul_left n hb
  have := step h0 (step h1 (step h2 h3))
  simpa [linIndex, elemCount, Nat.mul_assoc] using this

theorem mem_coords {d : Desc} {x : Coord} (h : inExtents d x = true) : x ∈ coords d :=
  List.mem_map.mpr ⟨linIndex d x, List.mem_range.mpr (linIndex_lt h), coordOf_linIndex h⟩

/-- A write to an element that `p` holds of, or to the scale byte of its block. -/
def BitWrite.ofTensor (d : Desc) (p : Coord → Bool) (w : BitWrite) : Prop :=
  ∃ x ∈ coords d, p x = true ∧ ((∃ b, w = elemWrite d x b) ∨
    (isMx d.fmt = true ∧ w.addr = scaleAddr d x ∧ w.bit = 0 ∧ w.width = 8))

theorem BitWrite.ofTensor.covers {d : Desc} {p : Coord → Bool} {w : BitWrite} (h : w.ofTensor d p) (a : Nat) (ha : w.covers a) :
    a ∈ tensorAddrs d p := by
  obtain ⟨x, hx, hp, ⟨b, rfl⟩ | ⟨mx, addr, bit, width⟩⟩ := h
  · exact elemWrite_covers hx hp b a ha
  · obtain ⟨lo, hi⟩ := ha
    rw [bit, width] at hi
    have : a = scaleAddr d x := by omega
    exact this ▸ scaleAddr_mem mx hx hp

theorem elemWrite_ofTensor {d : Desc} {p : Coord → Bool} {x : Coord} (hx : x ∈ coords d) (hp : p x = true) (b : Nat) :
    (elemWrite d x b).ofTensor d p := ⟨x, hx, hp, .inl ⟨b, rfl⟩⟩

theorem mem_takenCoords {d : Desc} {x : Coord} : x ∈ takenCoords d ↔ x ∈ coords d ∧ takes d x = true := List.mem_filter

theorem coords_of_takes {d : Desc} {x : Coord} (h : takes d x = true) : x ∈ coords d :=
  mem_coords (Bool.and_eq_true_iff.mp h).1

/-- The items of the blocks are those that were put into them. -/
theorem mem_blocks {d : Desc} {items : List Item} {l : List (Nat × List Item)} {b : Nat × List Item} {i : Item}
    (hb : b ∈ items.foldl (fun l i => blockAdd d i l) l) (hi : i ∈ b.2) : i ∈ items ∨ ∃ c ∈ l, i ∈ c.2 := by
  have add : ∀ (j : Item) (l : List (Nat × List Item)), ∀ c ∈ blockAdd d j l, ∀ i ∈ c.2, i = j ∨ ∃ k ∈ l, i ∈ k.2 := by
    intro j l
    induction l with
    | nil =>
      intro c hc i hi
      obtain rfl := List.mem_singleton.mp hc
      exact .inl (List.mem_singleton.mp hi)
    | cons k r ih =>
      intro c hc i hi
      unfold blockAdd at hc
      split at hc
      · rcases List.mem_cons.mp hc with rfl | hc
        · rcases List.mem_append.mp hi with hi | hi
          · exact .inr ⟨k, .head r, hi⟩
          · exact .inl (List.mem_singleton.mp hi)
        · exact .inr ⟨c, .tail k hc, hi⟩
      · rcases List.mem_cons.mp hc with rfl | hc
        · exact .inr ⟨_, .head r, hi⟩
        · exact (ih c hc i hi).imp_right fun ⟨m, hm, him⟩ => ⟨m, .tail k hm, him⟩
  induction items generalizing l with
  | nil => exact .inr ⟨b, hb, hi⟩
  | cons j js ih =>
    rcases ih hb with h | ⟨c, hc, hic⟩
    · exact .inl (.tail j h)
    · exact (add j l c hc i hic).imp (fun h => by rw [h]; exact .head js) id

theorem narrowBlock_ofTensor {d : Desc} (mx : isMx d.fmt = true) (p : Nat) {items : List Item}
    (taken : ∀ i ∈ items, takes d i.x = true) : ∀ w ∈ (narrowBlock d p items).1, w.ofTensor d (takes d) := by
  intro w hw
  unfold narrowBlock at hw
  dsimp only at hw
  split at hw
  · cases hw
  next l hl =>
    rcases List.mem_append.mp hw with hw | hw
    · simp only [List.mem_map] at hw
      obtain ⟨q, ⟨i, hi, rfl⟩, rfl⟩ := hw
      exact elemWrite_ofTensor (coords_of_takes (taken i hi)) (taken i hi) _
    · obtain rfl := List.mem_singleton.mp hw
      have hi := taken l (List.mem_of_getLast? hl)
      exact ⟨l.x, coords_of_takes hi, hi, .inr ⟨mx, rfl, rfl, rfl⟩⟩

/-- Narrowed values go to elements that the destination takes, and to their blocks' scale bytes (R37, R66). -/
theorem narrowWrites_ofTensor (d : Desc) (p : Nat) (items : List Item) :
    ∀ w ∈ (narrowWrites d p items).1, w.ofTensor d (takes d) := by
  intro w hw
  have taken : ∀ i ∈ items.filter fun i => takes d i.x, takes d i.x = true := fun i hi => (List.mem_filter.mp hi).2
  unfold narrowWrites at hw
  dsimp only at hw
  split at hw
  next mx =>
    simp only [List.mem_flatten, List.mem_map] at hw
    obtain ⟨ws, ⟨nb, ⟨b, hb, rfl⟩, rfl⟩, hw⟩ := hw
    refine narrowBlock_ofTensor mx p (fun i hi => ?_) w hw
    rcases mem_blocks hb hi with h | ⟨c, hc, -⟩
    · exact taken i h
    · cases hc
  · simp only [List.mem_map] at hw
    obtain ⟨q, ⟨i, hi, rfl⟩, rfl⟩ := hw
    exact elemWrite_ofTensor (coords_of_takes (taken i hi)) (taken i hi) _

theorem State.writeAll_tensor (s : State) (u n : Nat) {d : Desc} {p : Coord → Bool} {ws : List BitWrite}
    (h : ∀ w ∈ ws, w.ofTensor d p) : Stores d.space (· ∈ tensorAddrs d p) s (s.writeAll u n d ws) :=
  s.writeAll_stores u n d fun w hw => (h w hw).covers

/-! ### What the stores hold afterwards -/

/-- The Sill behind a write. -/
def sillWritten (m : Mem) (w : BitWrite) : Mem :=
  (writeCells (fun a => SMap.look m 0 a) w).foldl (fun m c => SMap.put m 0 c.1 c.2) m

/-- The blocks of the scratchpad and of the Sill that answer, and what they hold. -/
structure Alike (s s' : State) : Prop where
  spad : s'.eng.spad = s.eng.spad
  sill : s'.eng.sill = s.eng.sill
  bankDark : s'.bankDark = s.bankDark
  sillDark : s'.sillDark = s.sillDark

theorem Alike.refl (s : State) : Alike s s := ⟨rfl, rfl, rfl, rfl⟩

theorem Alike.symm {a b : State} (h : Alike a b) : Alike b a := ⟨h.spad.symm, h.sill.symm, h.bankDark.symm, h.sillDark.symm⟩

theorem Alike.trans {a b c : State} (h : Alike a b) (k : Alike b c) : Alike a c :=
  ⟨k.spad.trans h.spad, k.sill.trans h.sill, k.bankDark.trans h.bankDark, k.sillDark.trans h.sillDark⟩

theorem State.bankDark_congr {s s' : State} (pwr : s'.pwr = s.pwr) (lt : s'.lt = s.lt) : s'.bankDark = s.bankDark := by
  funext a
  unfold State.bankDark
  rw [pwr, lt]

theorem State.sillDark_congr {s s' : State} (pwr : s'.pwr = s.pwr) : s'.sillDark = s.sillDark := by
  unfold State.sillDark State.domsOn State.domOn
  rw [pwr]

theorem Alike.of_eqs {s s' : State} (spad : s'.eng.spad = s.eng.spad) (sill : s'.eng.sill = s.eng.sill) (pwr : s'.pwr = s.pwr)
    (lt : s'.lt = s.lt) : Alike s s' :=
  ⟨spad, sill, State.bankDark_congr pwr lt, State.sillDark_congr pwr⟩

theorem State.louvreSees_alike (s : State) (u : Nat) (o : Opnd) (drain : Bool) (vs : List Val) : Alike s (s.louvreSees u o drain vs) := by
  unfold State.louvreSees
  split
  · exact ⟨rfl, rfl, rfl, rfl⟩
  · exact .refl s

theorem State.noteWrite_alike (s : State) (u n : Nat) (w : BitWrite) : Alike s (s.noteWrite u n w) := by
  unfold State.noteWrite
  split
  · exact .refl s
  · split
    · split
      · exact ⟨rfl, rfl, rfl, rfl⟩
      · exact .refl s
    · exact .refl s

theorem State.shutAccess_alike (s : State) (block n : Nat) : Alike s (s.shutAccess block n) := by
  unfold State.shutAccess
  split
  · exact .refl s
  · exact ⟨rfl, rfl, rfl, rfl⟩

/-- One write takes stores that are alike to stores that are alike, whatever else the states hold. -/
theorem Alike.place {s s' : State} (h : Alike s s') (u u' : Nat) (d : Desc) (w : BitWrite) : Alike (s.place u d w) (s'.place u' d w) := by
  unfold State.place
  split
  · obtain ⟨i, hi⟩ := s.spadWrite_writes w
    obtain ⟨j, hj⟩ := s'.spadWrite_writes w
    rw [hi, hj, h.spad, h.bankDark]
    exact ⟨rfl, h.sill, h.bankDark, h.sillDark⟩
  · rw [h.sillDark]
    split
    · exact ((s.shutAccess_alike _ _).symm.trans h).trans (s'.shutAccess_alike _ _)
    · refine ⟨h.spad, ?_, h.bankDark, h.sillDark⟩
      change sillWritten s'.eng.sill w = sillWritten s.eng.sill w
      rw [h.sill]
  · exact ⟨h.spad, h.sill, h.bankDark, h.sillDark⟩

theorem Alike.write1 {s s' : State} (h : Alike s s') (u u' n n' : Nat) (d : Desc) (w : BitWrite) :
    Alike (s.write1 u n d w) (s'.write1 u' n' d w) :=
  Alike.place (((s.noteWrite_alike u n w).symm.trans h).trans (s'.noteWrite_alike u' n' w)) u u' d w

theorem Alike.writeAll {s s' : State} (h : Alike s s') (u u' n n' : Nat) (d : Desc) (ws : List BitWrite) :
    Alike (s.writeAll u n d ws) (s'.writeAll u' n' d ws) := by
  unfold State.writeAll
  induction ws generalizing s s' with
  | nil => exact h
  | cons w ws ih => exact ih (h.write1 u u' n n' d w)

/-- In the scratchpad the notes of the entry do not matter: the writes are made one after another. -/
theorem Alike.foldl_spadWrite {s s' : State} (h : Alike s s') (u n : Nat) {d : Desc} (hd : d.space = 1) (ws : List BitWrite) :
    Alike (ws.foldl State.spadWrite s) (s'.writeAll u n d ws) := by
  unfold State.writeAll
  induction ws generalizing s s' with
  | nil => exact h
  | cons w ws ih =>
    refine ih ?_
    have one := h.write1 u u n n d w
    have same : Alike (s.spadWrite w) (s.write1 u n d w) := by
      have place : ∀ z : State, z.place u d w = z.spadWrite w := fun z => by
        unfold State.place
        rw [hd]
        rfl
      have q := Alike.place (s.noteWrite_alike u n w) u u d w
      rw [place, place] at q
      unfold State.write1
      rw [place]
      exact q
    exact same.trans one

end Sys2Proof.Machine
end

/-! PROOFS. The moves of the Transom (spec/05): O37. -/

section
namespace Sys2Proof.Machine

/-! ### The end of an entry -/

theorem State.engineOpen_lanes (s : State) (q u : Nat) : (s.engineOpen q u).eng.lanes = s.eng.lanes := by
  unfold State.engineOpen
  split <;> rfl

theorem State.entry_entryDone {s : State} {u : Nat} {e : Entry} (h : s.entry u = some e) :
    (s.entryDone u).entry u = some { e with phase := .finished } := by
  unfold State.entryDone
  rw [h]
  dsimp only
  rw [State.entry_of_lanes (State.engineOpen_lanes ..)]
  exact State.entry_modEntry_same h fun _ => rfl

/-- Neither aborted nor with a fault on its moves, an entry ends with its destination as it stands (R248). -/
theorem State.entryEnd_clean {s : State} {u : Nat} {e : Entry} (h : s.entry u = some e) (a : e.aborted = false)
    (f : e.errStatus ≠ stMemoryFault) (g : e.errStatus ≠ stTransomFault) : s.entryEnd u = s.entryDone u := by
  unfold State.entryEnd
  rw [h]
  simp [a, f, g]

/-! ### Moves -/

theorem State.readShut_stores {k : Nat} {as : Nat → Prop} (s : State) (d : Desc) (xs : List Coord) : Stores k as s (s.readShut d xs) := by
  unfold State.readShut
  split
  · split
    · exact .refl s
    · exact s.shutAccess_stores ..
  · split
    · exact s.shutAccess_stores ..
    · exact .refl s
  · exact .refl s

/-- The keys of a table that a loop fills. -/
theorem mem_foldl_put {α β : Type} [DecidableEq β] {d : β} {key : α → Nat} {val : SMap β → α → β} {l : List α} {m : SMap β} {e : Nat × β}
    (h : e ∈ l.foldl (fun m x => SMap.put m d (key x) (val m x)) m) : (∃ x ∈ l, e.1 = key x) ∨ e ∈ m := by
  induction l generalizing m with
  | nil => exact .inr h
  | cons x l ih =>
    rcases ih h with ⟨y, hy, he⟩ | h
    · exact .inl ⟨y, .tail x hy, he⟩
    · rcases SMap.mem_put h with ⟨rfl, -⟩ | h
      · exact .inl ⟨x, .head l, rfl⟩
      · exact .inr h

theorem mem_moveScales {m : Mem} {tr : Bool} {src dst : Desc} {b : Nat × Nat} (h : b ∈ moveScales m tr src dst) :
    ∃ x ∈ coords dst, b.1 = scaleAddr dst x :=
  (mem_foldl_put (key := scaleAddr dst) (val := fun _ x => scaleByte m src (moveCoord tr x) + 1) h).resolve_right (fun h => nomatch h)

/-- All elements of a tensor, and the scale bytes of all its blocks. -/
abbrev everyElem : Coord → Bool := fun _ => true

theorem State.scaleMoves_stores {d : Desc} (mx : isMx d.fmt = true) (s : State) (u : Nat) {bs : SMap Nat}
    (h : ∀ b ∈ bs, ∃ x ∈ coords d, b.1 = scaleAddr d x) : Stores d.space (· ∈ tensorAddrs d everyElem) s (s.scaleMoves u d bs) := by
  refine .foldl (fun s b hb => ?_) s
  obtain ⟨x, hx, key⟩ := h b hb
  dsimp only
  have covers : ∀ w : BitWrite, w.addr = b.1 → w.bit = 0 → w.width = 8 → ∀ a, w.covers a → a ∈ tensorAddrs d everyElem :=
    fun w addr bit width => BitWrite.ofTensor.covers ⟨x, hx, rfl, .inr ⟨mx, addr.trans key, bit, width⟩⟩
  split
  · exact s.place_stores u d (covers _ rfl rfl rfl)
  · exact s.write1_stores u 0 d (covers _ rfl rfl rfl)

theorem moveWrites_ofTensor {m : Mem} {tr : Bool} {src dst : Desc} : ∀ w ∈ moveWrites m tr src dst, w.ofTensor dst everyElem := by
  intro w hw
  obtain ⟨x, hx, rfl⟩ := List.mem_map.mp hw
  exact elemWrite_ofTensor (mem_takenCoords.mp hx).1 rfl _

theorem State.draw_stores {k : Nat} {as : Nat → Prop} (s : State) : Stores k as s s.draw.2 :=
  ⟨rfl, fun _ _ => rfl, fun _ _ => rfl, fun _ e h => ⟨e, h, .refl e⟩⟩

theorem State.moveFree_stores (s : State) (u : Nat) (d : Desc) : Stores d.space (· ∈ tensorAddrs d everyElem) s (s.moveFree u d) := by
  unfold State.moveFree
  dsimp only
  have writes : Stores d.space (· ∈ tensorAddrs d everyElem) s.draw.2
      (s.draw.2.writeAll u 0 d ((takenCoords d).map fun x => elemWrite d x (freeBits s.fresh (2 * linIndex d x)))) := by
    refine State.writeAll_tensor _ u 0 fun w hw => ?_
    obtain ⟨x, hx, rfl⟩ := List.mem_map.mp hw
    exact elemWrite_ofTensor (mem_takenCoords.mp hx).1 rfl _
  split
  next mx =>
    refine (s.draw_stores.trans writes).trans (State.scaleMoves_stores mx _ u fun b hb => ?_)
    obtain ⟨c, hc, rfl⟩ := List.mem_map.mp hb
    obtain ⟨x, hx, key⟩ := mem_moveScales hc
    exact ⟨x, hx, key⟩
  · exact s.draw_stores.trans writes

/-- A move writes elements of its destination and the scale bytes of its blocks (R106). -/
theorem State.move_stores (s : State) (u : Nat) (tr : Bool) (src dst : Desc) (dark : Bool) :
    Stores dst.space (· ∈ tensorAddrs dst everyElem) s (s.move u tr src dst dark) := by
  unfold State.move
  split
  · exact .refl s
  next e he =>
    dsimp only
    have read : Stores dst.space (· ∈ tensorAddrs dst everyElem) s
        (if dark then s else s.readShut src ((takenCoords dst).map (moveCoord tr))) := by
      split
      · exact .refl s
      · exact s.readShut_stores ..
    split
    · exact read.trans (State.moveFree_stores ..)
    · split
      next mx => exact (read.trans (State.writeAll_tensor _ u 0 moveWrites_ofTensor)).trans (State.scaleMoves_stores mx _ u fun b hb => mem_moveScales hb)
      · exact read.trans (State.writeAll_tensor _ u 0 moveWrites_ofTensor)

theorem State.readShut_alike (s : State) (d : Desc) (xs : List Coord) : Alike s (s.readShut d xs) := by
  unfold State.readShut
  split
  · split
    · exact .refl s
    · exact s.shutAccess_alike ..
  · split
    · exact s.shutAccess_alike ..
    · exact .refl s
  · exact .refl s

/-- Footprints apart and the Transom on, the scratchpad behind a move of a plain tensor holds its writes alone. -/
theorem State.move_spad {s : State} {u : Nat} {e : Entry} (entry : s.entry u = some e) (tr : Bool) {src dst : Desc}
    (mx : isMx dst.fmt = false) (apart : footOverlap src dst = false) :
    (s.move u tr src dst false).eng.spad = (s.writeAll u 0 dst (moveWrites (s.bytesOf src.space e.got) tr src dst)).eng.spad := by
  unfold State.move
  rw [entry]
  simp only [Bool.false_eq_true, if_false, apart, mx]
  exact ((s.readShut_alike src _).writeAll u u 0 0 dst _).spad

/-! ### A Transom instruction -/

/-- What a Transom instruction leaves of its entry before it ends: the writes are formed, and those to memory are out. -/
def Entry.Moved (e e' : Entry) : Prop :=
  { e' with commits := e.commits, out := e.out, wrote := e.wrote, formed := e.formed, wrWait := e.wrWait } = e

theorem Entry.Moved.fields {e e' : Entry} (h : e.Moved e') : e'.aborted = e.aborted ∧ e'.errStatus = e.errStatus ∧
    e'.rdWait = e.rdWait ∧ e'.tagWait = e.tagWait := by
  have a := congrArg Entry.aborted h
  have b := congrArg Entry.errStatus h
  have c := congrArg Entry.rdWait h
  have d := congrArg Entry.tagWait h
  exact ⟨a, b, c, d⟩

/-- The move with the entry's writes formed, before they are sent. -/
def State.transomFormed (s : State) (e : Entry) (tr : Bool) (a d : Opnd) : State :=
  let z := if s.transomDark then s.shutAccess s.trnCode (2 * (takenCoords d.desc).length) else s
  (z.move e.uid tr a.desc d.desc s.transomDark).modEntry e.uid fun e => { e with formed := true }

theorem State.transomFormed_stores (s : State) (e : Entry) (tr : Bool) (a d : Opnd) : ∃ z,
    Stores d.desc.space (· ∈ tensorAddrs d.desc everyElem) s z ∧
    s.transomFormed e tr a d = z.modEntry e.uid fun e => { e with formed := true } := by
  refine ⟨_, ?_, rfl⟩
  refine Stores.trans ?_ (State.move_stores ..)
  split
  · exact s.shutAccess_stores ..
  · exact .refl s

/-- Behind the move the written units are counted, unless the Transom is dark. -/
def State.trnCounted (s : State) (dark : Bool) (n : Nat) : State :=
  if dark then s else s.modEr fun r => { r with trnUnits := r.trnUnits + BitVec.ofNat 32 (ceilDiv n 256) }

/-- What is written to memory stands in the buffers, unless the Transom is dark. -/
def State.trnFilled (s : State) (dark : Bool) (n : Nat) : State :=
  if dark then s else { s with eng := { s.eng with trnFull0 := true, trnFull1 := decide (trnBuffer < n) } }

theorem State.transomMove_eq (s : State) (e : Entry) (tr : Bool) (a d : Opnd) : s.transomMove e tr a d =
    if d.desc.space = 0 then
      (((s.transomFormed e tr a d).trnCounted s.transomDark (moveBytes d.desc)).trnFilled s.transomDark (moveBytes d.desc)).emitOut
        e.uid (decide (a.desc.space = 1))
    else (s.transomFormed e tr a d).trnCounted s.transomDark (moveBytes d.desc) := by
  rfl

theorem State.trnCounted_eng (s : State) (dark : Bool) (n : Nat) : (s.trnCounted dark n).eng = s.eng := by
  unfold State.trnCounted
  split <;> rfl

theorem State.trnFilled_lanes (s : State) (dark : Bool) (n : Nat) : (s.trnFilled dark n).eng.lanes = s.eng.lanes := by
  unfold State.trnFilled
  split <;> rfl

theorem State.trnCounted_same (s : State) (dark : Bool) (n : Nat) : s.Same (s.trnCounted dark n) := by
  unfold State.trnCounted
  split <;> exact ⟨rfl, rfl, rfl⟩

theorem State.trnFilled_same (s : State) (dark : Bool) (n : Nat) : s.Same (s.trnFilled dark n) := by
  unfold State.trnFilled
  split <;> exact ⟨rfl, rfl, rfl⟩

/-- Behind the move only counts and requests follow. -/
theorem State.transomMove_same (s : State) (e : Entry) (tr : Bool) (a d : Opnd) :
    (s.transomFormed e tr a d).Same (s.transomMove e tr a d) := by
  rw [State.transomMove_eq]
  split
  · exact State.emitOut_same _ _ ((State.trnCounted_same ..).trans (State.trnFilled_same ..))
  · exact State.trnCounted_same ..

/-- What is gathered for memory goes out as requests. -/
theorem State.entry_emitOut {s : State} {u : Nat} {e : Entry} (entry : s.entry u = some e) (held : Bool) :
    ∃ n, (s.emitOut u held).entry u = some { e with out := [], wrWait := e.wrWait + n } := by
  unfold State.emitOut
  rw [entry]
  exact ⟨_, State.entry_modEntry_same entry fun _ => rfl⟩

theorem State.transomMove_entry {s : State} {e : Entry} (entry : s.entry e.uid = some e) (tr : Bool) (a d : Opnd) :
    ∃ e', (s.transomMove e tr a d).entry e.uid = some e' ∧ e.Moved e' ∧ e'.formed = true ∧ (d.desc.space ≠ 0 → e'.wrWait = e.wrWait) := by
  obtain ⟨z, stores, shape⟩ := s.transomFormed_stores e tr a d
  obtain ⟨w, entry', written⟩ := stores.entries _ _ entry
  have formed : (s.transomFormed e tr a d).entry e.uid = some { w with formed := true } := by
    rw [shape]
    exact State.entry_modEntry_same entry' fun _ => rfl
  have wait := congrArg Entry.wrWait written
  have moved : e.Moved { w with formed := true } := by
    have h := congrArg (fun x : Entry => { x with formed := e.formed, wrWait := e.wrWait }) written
    exact h
  rw [State.transomMove_eq]
  split
  next h =>
    have entry2 := (State.entry_of_lanes ((State.trnFilled_lanes _ s.transomDark (moveBytes d.desc)).trans
      (congrArg Engines.lanes (State.trnCounted_eng _ s.transomDark (moveBytes d.desc)))) e.uid).trans formed
    obtain ⟨n, entry3⟩ := State.entry_emitOut entry2 (decide (a.desc.space = 1))
    have moved' : e.Moved { w with formed := true, out := [], wrWait := w.wrWait + n } := by
      have h := congrArg (fun x : Entry => { x with formed := e.formed, wrWait := e.wrWait }) written
      exact h
    exact ⟨_, entry3, moved', rfl, fun n => absurd h n⟩
  next h =>
    have entry2 := (State.entry_of_lanes (congrArg Engines.lanes (State.trnCounted_eng _ s.transomDark (moveBytes d.desc))) e.uid).trans formed
    exact ⟨_, entry2, moved, rfl, fun _ => wait⟩

/-- The Transom's buffers hold nothing any more. -/
def State.trnEmptied (s : State) : State := { s with eng := { s.eng with trnFull0 := false, trnFull1 := false } }

theorem State.transomEnd_clean {s : State} {u : Nat} {e : Entry} (entry : s.entry u = some e) (a : e.aborted = false)
    (f : e.errStatus = 0) : s.transomEnd u = if e.formed && e.settled then s.trnEmptied.entryDone u else s := by
  have done : s.trnEmptied.entryEnd u = s.trnEmptied.entryDone u :=
    State.entryEnd_clean (e := e) entry a (by rw [f]; decide) (by rw [f]; decide)
  rw [← done]
  unfold State.transomEnd
  rw [entry]
  rfl

theorem State.transomEnd_same {s : State} {u : Nat} {e : Entry} (entry : s.entry u = some e) (a : e.aborted = false)
    (f : e.errStatus = 0) : s.Same (s.transomEnd u) := by
  rw [State.transomEnd_clean entry a f]
  split
  · exact State.entryDone_same u ⟨rfl, rfl, rfl⟩
  · exact .refl s

theorem State.transomEnd_finishes {s : State} {u : Nat} {e : Entry} (entry : s.entry u = some e) (a : e.aborted = false)
    (f : e.errStatus = 0) (formed : e.formed = true) (settled : e.settled = true) :
    (s.transomEnd u).entry u = some { e with phase := .finished } := by
  rw [State.transomEnd_clean entry a f, if_pos (by rw [formed, settled]; rfl)]
  exact State.entry_entryDone (s := s.trnEmptied) entry

/-- Settles O37: what follows the writes of the move changes no byte, and an entry that has nothing outstanding ends. -/
theorem transomMoves : Obligations.TransomMoves := by
  intro s e tr a d run running rd unformed ok entry
  obtain ⟨e', entry', moved, formed, waits⟩ := s.transomMove_entry entry tr a d
  obtain ⟨aborted', err', rd', tag'⟩ := moved.fields
  have ab := aborted'.trans running
  have er := err'.trans ok
  have same := (s.transomMove_same e tr a d).trans (State.transomEnd_same entry' ab er)
  obtain ⟨z, stores, shape⟩ := s.transomFormed_stores e tr a d
  refine .of_eq (z := (s.transomMove e tr a d).transomEnd e.uid) ?_ rfl ⟨?_, fun mem wr tag => ?_, fun spad mx apart lit => ?_⟩
  · change execTransomComplete .clean s = _
    unfold execTransomComplete
    rw [run]
    simp [running, rd, unformed, ok]
  · rw [shape] at same
    exact stores.onlyTensor.trans_same ((State.modEntry_same _ _ (.refl z)).trans same)
  · refine ⟨_, State.transomEnd_finishes entry' ab er formed ?_, rfl⟩
    simp [Entry.settled, rd', rd, tag', tag, waits mem, wr]
  · rw [same.spad]
    unfold State.transomFormed
    rw [lit]
    exact State.move_spad entry tr mx apart

end Sys2Proof.Machine
end

/-! PROOFS. The drain of a rank (spec/04): O34 fails where a product has two runs. -/

section
namespace Sys2Proof.Machine

/-- An FP32 tensor of the scratchpad with extents n0 and n1. -/
def plainTensor (base n0 n1 s1 : Nat) : Desc :=
  { gen := 3, base := base, fmt := 0, space := 1, rmode := 0, valid := true, lvEn := false, lvBlk := false, scaleSrc := false,
    mxAxis := false, n0 := n0, n1 := n1, n2 := 1, n3 := 1, s1 := s1, s2 := 0, s3 := 0, sb := 0, blkLog2 := 0, maskMode := 0,
    maskFill := false, moff := 0, winEn := false, window := 0, scale := 0, hrun := 0, hstep := 0, hptr := 0, hnf := false,
    href := 0, hist := [] }

/-- The product of a column of two rows and a scalar, with K = 1. -/
def twoRows : Entry :=
  { uid := 1, stream := .F, ctx := 0, queue := 0, iseq := 0, step := 0, latch := none, wseq := 0
    job := .lattice { ctx := 0, handle := 4, desc := plainTensor 0 1 2 4 } { ctx := 0, handle := 5, desc := plainTensor 64 1 1 4 }
      { ctx := 0, handle := 6, desc := plainTensor 128 1 2 4 } false false none
    phase := .running, status := 0, formed := false, got := [], asked := none, rdWait := 0, wrWait := 0, tagWait := 0, kept := []
    out := [], errStatus := 0, props := [], commits := [], aborted := false, clip := 0, wrote := [] }

/-- A run of the product with every block of both rows complete. -/
def fullRun (drained : List Nat) : LatRun :=
  { uid := 1, plane := 0, acc := [], blk := SMap.put (SMap.put [] 0 (accKey 0 0) 1) 0 (accKey 1 0) 1, inj := [], fed := []
    reuse := [], chk := [], drained := drained }

/-- The product with two runs of its name, on a partition of two Lattices: rank 0 has drained in the first run alone. -/
def runTwice : State :=
  { State.reset with
    pwr := { Power.init with on := BitVec.allOnes 80 }
    frame := { State.reset.frame with assign := 0xFFFF0000 }
    eng := { Engines.init with lanes := [twoRows], lats := [fullRun [0], fullRun []] } }

/-- What the ranks of the runs have drained behind a command. -/
def drainedAfter (c : Instr) (s : State) : List (List Nat) :=
  match exec c s with
  | .next s' => s'.eng.lats.map fun r => r.drained
  | _ => []

/-- The drain of rank 0, which the second run waits for, marks the first one. -/
theorem runTwice_drains : drainedAfter (.latticeDrain 0 0 .clean) runTwice = [[0, 0], []] := by decide +kernel

/-- Refutes O34: the drain marks the first run of the product's name, and the statement gives that run the ranks that the draining
run has drained. With two runs of one name these differ. -/
theorem not_latticeDrain : ¬ Obligations.LatticeDrain := by
  intro h
  have found : (runTwice.drainRun 0 0).any (fun q => decide (q.1 = fullRun [] ∧ q.2.k ≠ 0 ∧
      (runTwice.usedRanks q.2).all (fun k => k = 0 || q.1.drained.contains k) = false)) = true := by decide +kernel
  obtain ⟨⟨r, x⟩, run, hq⟩ := (Option.any_eq_true _ _).mp found
  obtain ⟨hr, hk, hlast⟩ := of_decide_eq_true hq
  obtain ⟨-, s', hs, -, -, -, open', -⟩ := h runTwice 0 0 r x run hk (by decide +kernel)
  have ranks := runTwice_drains
  unfold drainedAfter at ranks
  rw [hs] at ranks
  dsimp only at hr ranks
  rw [open' hlast, hr] at ranks
  revert ranks
  decide +kernel

end Sys2Proof.Machine
end

/-! PROOFS. The completion of a block (spec/02, 04): O32. -/

section
namespace Sys2Proof.Machine

/-- Raised flags are added to the stream's, and reported when ALARMFLAGS selects them (R102). -/
theorem State.latRaise_logs (s : State) (e : Entry) (f : Flags) : OnlyLogs (s.modEr fun r => { r with
    latAflags := r.latAflags ||| BitVec.ofNat 16 (flags4 f <<< (4 * Thread.num e.stream)) }) (s.latRaise e f) := by
  unfold State.latRaise
  split
  next h =>
    rw [h]
    have same : (s.modEr fun r => { r with latAflags := r.latAflags ||| BitVec.ofNat 16 (0 <<< (4 * Thread.num e.stream)) }) = s := by
      simp [State.modEr]
    rw [same]
    exact .refl s
  · unfold State.alarmFlags
    dsimp only
    split
    · exact .refl _
    · exact .of_integrity _ _

/-- What a fault of one half records before its integrity event (R96). -/
def State.latFaulted (s : State) (e : Entry) (lat half cause : Nat) : State :=
  ((s.modEr fun r => { r with
    latFaultPart := BitVec.ofNat 3 e.queue, latFaultLat := BitVec.ofNat 2 lat, latFaultHalf := decide (half = 1),
    latFaultShared := false, latFaultCause := BitVec.ofNat 4 cause, latFaultCount := satInc 16 r.latFaultCount,
    latFaultPend := true }).modEntry e.uid fun e => e.fail stLatticeFault).queueStop e.queue

theorem State.latFault_logs (s : State) (x : Product) (lat half mech cause : Nat) (detail : Option (BitVec 16)) :
    OnlyLogs (s.latFaulted x.e lat half cause) (s.latFault x lat half false mech cause detail) :=
  .of_integrity _ _

theorem OnlyLogs.after {s s' : State} (h : OnlyLogs s s') :
    s'.eng = s.eng ∧ s'.er = s.er ∧ s'.int.qstop = s.int.qstop ∧ s'.sash.dmem = s.sash.dmem := by
  have eng := congrArg State.eng h.rest
  have er := congrArg State.er h.rest
  have qstop := congrArg Integrity.qstop h.int
  have dmem := congrArg Sash.dmem h.sash
  exact ⟨eng, er, qstop, dmem⟩

/-- A run of a partition belongs to an entry of its queue. -/
theorem State.queue_of_runs {s : State} {p : Nat} {r : LatRun} {x : Product} (h : (r, x) ∈ s.runs p) :
    x.e.queue = p ∧ s.product r = some x := by
  obtain ⟨r', -, h⟩ := List.mem_filterMap.mp h
  split at h
  next x' hx =>
    split at h
    next hp =>
      obtain ⟨rfl, rfl⟩ := Prod.mk.inj (Option.some.inj h)
      exact ⟨hp, hx⟩
    · cases h
  · cases h

theorem State.blockRun_mem {s : State} {p rank m n : Nat} {r : LatRun} {x : Product} {b : Nat}
    (h : s.blockRun p rank m n = some (r, x, b)) : (r, x) ∈ s.runs p := by
  unfold State.blockRun at h
  split at h
  next q hq =>
    obtain ⟨rfl, rfl, -⟩ := by simpa using h
    exact List.mem_of_find?_eq_some hq
  · cases h

/-- An output's block with the accesses of dark blocks counted: its element, its count of blocks and its half's comparison. -/
def State.blockPut (s : State) (r : LatRun) (x : Product) (dark : Bool) (key acck b : Nat) (v : BitVec 32) (c : SpareCheck) : State :=
  let z := if dark then s.shutAccess shutOffCode 1 else s
  (if b = 0 then z.priorShut x 1 else z).modRun r.uid fun k => { k with
    acc := SMap.put k.acc 0 acck v, blk := SMap.put k.blk 0 acck (b + 1), chk := SMap.put k.chk SpareCheck.init key c }

theorem State.blockPut_state (s : State) (r : LatRun) (x : Product) (dark : Bool) (key acck b : Nat) (v : BitVec 32) (c : SpareCheck) :
    ∃ i, i.qstop = s.int.qstop ∧ s.blockPut r x dark key acck b v c = { s with
      eng := { s.eng with lats := updFirst (fun k => k.uid = r.uid) (fun k => { k with
        acc := SMap.put k.acc 0 acck v, blk := SMap.put k.blk 0 acck (b + 1), chk := SMap.put k.chk SpareCheck.init key c }) s.eng.lats }
      int := i } := by
  have counted : ∀ (z : State) (b n : Nat), ∃ i, i.qstop = z.int.qstop ∧ z.shutAccess b n = { z with int := i } := by
    intro z b n
    unfold State.shutAccess
    split
    · exact ⟨_, rfl, rfl⟩
    · refine ⟨_, ?_, rfl⟩
      rfl
  have first : ∃ i, i.qstop = s.int.qstop ∧ (if dark then s.shutAccess shutOffCode 1 else s) = { s with int := i } := by
    split
    · exact counted s ..
    · exact ⟨_, rfl, rfl⟩
  obtain ⟨i, hi, z1⟩ := first
  have second : ∃ j, j.qstop = i.qstop ∧
      (if b = 0 then State.priorShut { s with int := i } x 1 else { s with int := i }) = { s with int := j } := by
    unfold State.priorShut
    split
    · split
      · obtain ⟨j, hj, z2⟩ := counted { s with int := i } (State.sillCode { s with int := i }) 1
        exact ⟨j, hj, z2⟩
      · exact ⟨_, rfl, rfl⟩
    · exact ⟨_, rfl, rfl⟩
  obtain ⟨j, hj, z2⟩ := second
  refine ⟨j, hj.trans hi, ?_⟩
  unfold State.blockPut
  dsimp only
  rw [z1, z2]
  rfl

/-- Settles O32: the element's run takes the block; flags and a mismatch are recorded behind it. -/
theorem blockCompletion : Obligations.BlockCompletion := by
  intro s p rank m n flip r x b run lat prior key o steps
  have queue := (State.queue_of_runs (State.blockRun_mem run)).1
  refine ⟨fun dark => ?_, fun lit => ?_⟩
  · obtain ⟨i, hi, put⟩ := s.blockPut_state r x true key (accKey m n) b 0 SpareCheck.init
    refine .of_eq (z := s.blockPut r x true key (accKey m n) b 0 SpareCheck.init) ?_ put ⟨rfl, rfl, rfl, rfl, rfl⟩
    change execBlockCompletion p rank m n flip .clean s = _
    have d : s.latDark ((s.partLats p).getD rank 0) = true := dark
    have quiet : (flags4 (flagsOr noFlags noFlags)) = 0 := rfl
    unfold execBlockCompletion
    rw [run]
    simp only [d, Bool.not_true, Bool.and_false, Bool.false_eq_true, if_false, if_true, State.latRaise, quiet]
    rfl
  · obtain ⟨i, hi, put⟩ := s.blockPut_state r x false key (accKey m n) b o.acc o.chk
    have l : s.latDark ((s.partLats p).getD rank 0) = false := lit
    let flags := flagsOr (if b = 0 then priorFlags prior else noFlags) o.flags
    obtain ⟨l', h', runs⟩ : ∃ l' h', exec (.blockCompletion p rank m n flip .clean) s = .next
        (if o.mismatch then ((s.blockPut r x false key (accKey m n) b o.acc o.chk).latRaise x.e flags).latFault x l' h'
            false mechResidue 1 none
          else (s.blockPut r x false key (accKey m n) b o.acc o.chk).latRaise x.e flags) := by
      let z := (s.blockPut r x false key (accKey m n) b o.acc o.chk).latRaise x.e flags
      refine ⟨(z.partLats p).getD rank 0, z.halfOf p n, ?_⟩
      change execBlockCompletion p rank m n flip .clean s = _
      unfold execBlockCompletion
      rw [run]
      simp only [l, Bool.not_false, Bool.and_true, Bool.false_eq_true, if_false, decide_eq_true_eq]
      rfl
    have raised := (s.blockPut r x false key (accKey m n) b o.acc o.chk).latRaise_logs x.e flags
    rw [put] at raised runs
    obtain ⟨eng, er, qstop, dmem⟩ := raised.after
    generalize State.latRaise _ x.e flags = z at *
    have aflags := congrArg EngRegs.latAflags er
    have lats := congrArg Engines.lats eng
    have spad := congrArg Engines.spad eng
    have sill := congrArg Engines.sill eng
    have panes := congrArg Engines.panes eng
    have lanes := congrArg Engines.lanes eng
    have stop : z.int.qstop = s.int.qstop := qstop.trans hi
    cases hm : o.mismatch
    · rw [hm] at runs
      refine .of_eq runs (if_neg nofun) 
        ⟨⟨lats, spad, sill, dmem, panes⟩, aflags, fun _ => ⟨stop, lanes⟩, nofun⟩
    · rw [hm] at runs
      have faulted := z.latFault_logs x l' h' mechResidue 1 none
      obtain ⟨eng', er', qstop', dmem'⟩ := faulted.after
      refine .of_eq runs (if_pos rfl) ?_
      have aflags' := (congrArg EngRegs.latAflags er').trans aflags
      have stopped : (z.latFault x l' h' false mechResidue 1 none).int.qstop = s.int.qstop ||| BitVec.ofNat 11 (2 ^ p.val) := by
        rw [qstop', ← stop, ← queue]
        rfl
      have pend := congrArg EngRegs.latFaultPend er'
      have cause := congrArg EngRegs.latFaultCause er'
      have faulted := congrArg Engines.lats eng'
      have spad' := congrArg Engines.spad eng'
      have sill' := congrArg Engines.sill eng'
      have panes' := congrArg Engines.panes eng'
      refine ⟨⟨faulted.trans lats, spad'.trans spad, sill'.trans sill, dmem'.trans dmem, panes'.trans panes⟩, aflags', nofun,
        fun _ => ⟨stopped, pend, cause, fun e he => ?_⟩⟩
      have entry : z.entry x.e.uid = some e := (State.entry_of_lanes lanes _).trans he
      rw [State.entry_of_lanes (congrArg Engines.lanes eng')]
      exact State.entry_modEntry_same (s := z) entry fun _ => rfl

end Sys2Proof.Machine
end

/-! PROOFS. The vector slots of a Lattice (spec/04): O31. -/

section
namespace Sys2Proof.Machine

/-! ### The parts of the feeder and of the weight source -/

theorem State.linesShut_state (s : State) (ls : List Nat) : ∃ i, s.linesShut ls = { s with int := i } := by
  unfold State.linesShut State.shutAccess
  split
  · exact ⟨_, rfl⟩
  · split <;> exact ⟨_, rfl⟩

theorem State.feed_state (s : State) (p rank : Nat) (ready : Bool) : ∃ l i, s.feed p rank ready =
    { s with eng := { s.eng with lats := l }, int := i } := by
  unfold State.feed
  split
  · exact ⟨_, _, rfl⟩
  · dsimp only
    split
    · exact ⟨_, _, rfl⟩
    · split
      · obtain ⟨i, h⟩ := s.linesShut_state (List.filter (fun l => !(SMap.look _ [] rank).contains l) (s.vectorLines _ rank _))
        rw [h]
        exact ⟨_, _, rfl⟩
      · exact ⟨_, _, rfl⟩

theorem State.shadowLoad_state (s : State) (p i : Nat) (t : Tile) : ∃ j, s.shadowLoad p i t = { s with
    eng := { s.eng with cells := SMap.put s.eng.cells Cells.init i { s.weightsAt i with shadow := some t } }, int := j } := by
  unfold State.shadowLoad
  split
  · split
    · exact ⟨_, rfl⟩
    · obtain ⟨j, h⟩ := s.linesShut_state (s.tileLines _ t.pass)
      rw [h]
      exact ⟨_, rfl⟩
  · exact ⟨_, rfl⟩

theorem State.loadTile_state (s : State) (p rank : Nat) (ready : Bool) : ∃ c i, s.loadTile p rank ready =
    { s with eng := { s.eng with cells := c }, int := i } := by
  have load : ∀ t, ∃ c i, s.shadowLoad p (s.cellsOf p rank) t = { s with eng := { s.eng with cells := c }, int := i } := fun t =>
    have ⟨j, h⟩ := s.shadowLoad_state p (s.cellsOf p rank) t
    ⟨_, j, h⟩
  unfold State.loadTile
  dsimp only
  split
  · exact ⟨_, _, rfl⟩
  · split
    · exact ⟨_, _, rfl⟩
    · split
      · exact load _
      · split
        · split
          · exact ⟨_, _, rfl⟩
          · exact load _
        · exact ⟨_, _, rfl⟩

/-- The slot's state once the feeder and the weight source have had their part. -/
theorem State.slotReady_state (s : State) (p rank : Nat) (ready : Bool) : ∃ l c i, (s.feed p rank ready).loadTile p rank ready =
    { s with eng := { s.eng with lats := l, cells := c }, int := i } := by
  obtain ⟨l, i, h⟩ := s.feed_state p rank ready
  obtain ⟨c, j, k⟩ := (s.feed p rank ready).loadTile_state p rank ready
  rw [h] at k ⊢
  exact ⟨l, c, j, k⟩

/-! ### The injection -/

theorem State.weightsAt_modCells (s : State) (i : Nat) (g : Cells → Cells) : (s.modCells i g).weightsAt i = g (s.weightsAt i) := by
  unfold State.modCells State.weightsAt
  rw [SMap.look_put, if_pos rfl]

/-- The first vector of a pass makes its tile the active one; nothing but the cells changes. -/
theorem State.selectTile_state (s : State) (x : Product) (r : LatRun) (p rank : Nat) : ∃ c, s.selectTile x r p rank =
    { s with eng := { s.eng with cells := c } } ∧ (SMap.look c Cells.init (s.cellsOf p rank)).active =
      some { uid := r.uid, pass := r.injected rank / s.rankRows x rank } := by
  unfold State.selectTile
  dsimp only
  split
  next h => exact ⟨s.eng.cells, rfl, h⟩
  next h =>
    refine ⟨_, rfl, ?_⟩
    rw [SMap.look_put, if_pos rfl]

/-- Two words in the halves of one. -/
theorem halves_of_pair (a b : BitVec 32) :
    (a.zeroExtend 64 + (b.zeroExtend 64 <<< 32)).setWidth 32 = a ∧
    ((a.zeroExtend 64 + (b.zeroExtend 64 <<< 32)) >>> 32).setWidth 32 = b := by
  have ha := a.isLt
  have hb := b.isLt
  have pair : (a.zeroExtend 64 + (b.zeroExtend 64 <<< 32)).toNat = a.toNat + b.toNat * 2 ^ 32 := by
    simp only [BitVec.toNat_add, BitVec.toNat_shiftLeft, BitVec.truncate_eq_setWidth, BitVec.toNat_setWidth, Nat.shiftLeft_eq]
    omega
  constructor <;> apply BitVec.eq_of_toNat_eq
  · rw [BitVec.toNat_setWidth, pair]
    omega
  · rw [BitVec.toNat_setWidth, BitVec.toNat_ushiftRight, pair, Nat.shiftRight_eq_div_pow]
    omega

/-- The high half of a word is what the word shifted by a half holds. -/
theorem shift_of_high {a b : Word} (h : ((a >>> 32).setWidth 32 : BitVec 32) = (b >>> 32).setWidth 32) : a >>> 32 = b >>> 32 := by
  have ha := a.isLt
  have hb := b.isLt
  have h' := congrArg BitVec.toNat h
  apply BitVec.eq_of_toNat_eq
  simp only [BitVec.toNat_setWidth, BitVec.toNat_ushiftRight, Nat.shiftRight_eq_div_pow] at h' ⊢
  omega

/-- A counted slot: one more in the half of LAT_CNT that it belongs to, the other as it was. -/
theorem State.slotCount_counts (s : State) (lat : Nat) (valid : Bool) :
    let w := SMap.look s.er.latCnt 0 lat
    let w' := SMap.look (s.slotCount lat valid).er.latCnt 0 lat
    { s.slotCount lat valid with er := { (s.slotCount lat valid).er with latCnt := s.er.latCnt } } = s ∧
    (w'.setWidth 32 : BitVec 32) = (if valid then w.setWidth 32 + 1 else w.setWidth 32) ∧
    ((w' >>> 32).setWidth 32 : BitVec 32) = (if valid then (w >>> 32).setWidth 32 else (w >>> 32).setWidth 32 + 1) := by
  intro w w'
  have look : w' = (if valid then w.setWidth 32 + 1 else w.setWidth 32 : BitVec 32).zeroExtend 64 +
      ((if valid then (w >>> 32).setWidth 32 else (w >>> 32).setWidth 32 + 1 : BitVec 32).zeroExtend 64 <<< 32) := by
    unfold w'
    unfold State.slotCount State.modEr
    dsimp only
    rw [SMap.look_put, if_pos rfl]
  rw [look]
  exact ⟨rfl, halves_of_pair ..⟩


/-- The start point of an engine: it opens when it runs the entry. -/
theorem State.engineOpen_effects (s : State) (q u : Nat) :
    { s.engineOpen q u with eng := { (s.engineOpen q u).eng with engs := s.eng.engs } } = s ∧
    ((s.engine q).running = some u → ((s.engineOpen q u).engine q).isOpen = true ∧ ((s.engineOpen q u).engine q).running = none) ∧
    ((s.engine q).running ≠ some u → s.engineOpen q u = s) := by
  unfold State.engineOpen
  split
  next h =>
    refine ⟨rfl, fun _ => ?_, fun n => absurd h n⟩
    have look : (s.modEngine q fun g => { g with running := none, isOpen := true }).engine q =
        { s.engine q with running := none, isOpen := true } := by
      unfold State.modEngine State.engine
      rw [SMap.look_put, if_pos rfl]
    rw [look]
    exact ⟨rfl, rfl⟩
  next h => exact ⟨rfl, fun e => absurd e h, fun _ => rfl⟩

/-- The next vector of a run enters the array (R87). -/
theorem State.inject_effects (z : State) (r : LatRun) (x : Product) (p rank : Nat) :
    let z' := z.inject r x p rank
    let lat := (z.partLats p).getD rank 0
    let w := SMap.look z.er.latCnt 0 lat
    let w' := SMap.look z'.er.latCnt 0 lat
    let last := rank = 0 ∧ r.injected rank = (z.passes x - 1) * z.rankRows x 0 ∧ (z.engine p).running = some r.uid
    z'.eng.lats = updFirst (fun k => k.uid = r.uid)
      (fun k => { k with inj := SMap.put k.inj 0 rank (r.injected rank + 1) }) z.eng.lats ∧
    (z'.weightsAt (z.cellsOf p rank)).active = some { uid := r.uid, pass := r.injected rank / z.rankRows x rank } ∧
    (w'.setWidth 32 : BitVec 32) = w.setWidth 32 + 1 ∧ w' >>> 32 = w >>> 32 ∧
    (last → (z'.engine p).isOpen = true ∧ (z'.engine p).running = none) ∧ (¬last → z'.eng.engs = z.eng.engs) ∧
    { z' with eng := { z'.eng with lats := z.eng.lats, engs := z.eng.engs, cells := z.eng.cells },
              er := { z'.er with latCnt := z.er.latCnt } } = z := by
  intro z' lat w w' last
  obtain ⟨c, sel, act⟩ := z.selectTile_state x r p rank
  obtain ⟨y, hy, hc⟩ : ∃ y, y = State.slotCount { z with eng := { z.eng with
      lats := updFirst (fun k => k.uid = r.uid) (fun k => { k with inj := SMap.put k.inj 0 rank (r.injected rank + 1) }) z.eng.lats
      cells := c } } lat true ∧ z' =
      if rank = 0 ∧ r.injected rank = (z.passes x - 1) * z.rankRows x 0 then y.engineOpen p r.uid else y := by
    refine ⟨_, rfl, ?_⟩
    change z.inject r x p rank = _
    unfold State.inject
    rw [sel]
    simp only [Bool.and_eq_true, decide_eq_true_eq]
    rfl
  obtain ⟨only, low, high⟩ := State.slotCount_counts { z with eng := { z.eng with
      lats := updFirst (fun k => k.uid = r.uid) (fun k => { k with inj := SMap.put k.inj 0 rank (r.injected rank + 1) }) z.eng.lats
      cells := c } } lat true
  rw [← hy] at only low high
  rw [if_pos rfl] at low high
  have cells : (y.weightsAt (z.cellsOf p rank)).active = some { uid := r.uid, pass := r.injected rank / z.rankRows x rank } := by
    have same : y.eng.cells = c := congrArg (fun z : State => z.eng.cells) only
    unfold State.weightsAt
    rw [same]
    exact act
  have lats := congrArg (fun z : State => z.eng.lats) only
  have engs := congrArg (fun z : State => z.eng.engs) only
  have whole := congrArg (fun w : State => { w with eng := { w.eng with lats := z.eng.lats, cells := z.eng.cells } }) only
  have engine : y.engine p = z.engine p := by
    unfold State.engine
    rw [engs]
  obtain ⟨frame, opens, closed⟩ := y.engineOpen_effects p r.uid
  by_cases point : rank = 0 ∧ r.injected rank = (z.passes x - 1) * z.rankRows x 0
  · rw [if_pos point] at hc
    have lats' := congrArg (fun w : State => w.eng.lats) frame
    have cells' := congrArg (fun w : State => w.weightsAt (z.cellsOf p rank)) frame
    have count' := congrArg (fun w : State => SMap.look w.er.latCnt 0 lat) frame
    have whole' := congrArg (fun w : State => { w with
      eng := { w.eng with lats := z.eng.lats, cells := z.eng.cells, engs := z.eng.engs }, er := { w.er with latCnt := z.er.latCnt } }) frame
    dsimp only at lats' cells' count' whole'
    have w'eq : w' = SMap.look y.er.latCnt 0 lat := by
      unfold w'
      rw [hc]
      exact count'
    refine ⟨?_, ?_, by rw [w'eq, low], shift_of_high (by rw [w'eq, high]), fun h => ?_, fun h => ?_, ?_⟩
    · rw [hc]
      exact lats'.trans lats
    · rw [hc]
      exact (congrArg Cells.active cells').trans cells
    · rw [hc]
      exact opens (engine ▸ h.2.2)
    · rw [hc, closed fun run => h ⟨point.1, point.2, engine ▸ run⟩]
      exact engs
    · rw [hc]
      exact whole'.trans ((congrArg (fun w : State => { w with eng := { w.eng with engs := z.eng.engs } }) whole).trans rfl)
  · rw [if_neg point] at hc
    have w'eq : w' = SMap.look y.er.latCnt 0 lat := by
      unfold w'
      rw [hc]
    refine ⟨?_, ?_, by rw [w'eq, low], shift_of_high (by rw [w'eq, high]), fun h => absurd ⟨h.1, h.2.1⟩ point, fun _ => ?_, ?_⟩
    · rw [hc]
      exact lats
    · rw [hc]
      exact cells
    · rw [hc]
      exact engs
    · rw [hc]
      exact (congrArg (fun w : State => { w with eng := { w.eng with engs := z.eng.engs } }) whole).trans rfl


theorem State.vectorSlot_eq {s : State} {p rank : Nat} {ready : Bool} (bands : s.bandsReady p = true) :
    s.vectorSlot p rank ready =
      let z := (s.feed p rank ready).loadTile p rank ready
      match z.streaming p rank with
      | none => z
      | some (r, x) => if z.mayInject r x p rank then z.inject r x p rank else z.slotCount ((z.partLats p).getD rank 0) false := by
  unfold State.vectorSlot
  exact if_neg (by rw [bands]; nofun)

theorem execVectorSlot_eq {s : State} {p : Fin 8} {rank : Fin 4} (ready : Bool) (run : s.streaming p rank ≠ none) :
    execVectorSlot p rank ready .clean s = .next (s.vectorSlot p rank ready) := by
  unfold execVectorSlot
  split
  next h => exact absurd h run
  · rfl

theorem slotOutcome : SlotOutcome := by
  intro s p rank ready lat counts cells z
  obtain ⟨l, c, i, hz⟩ := s.slotReady_state p rank ready
  have lats : z.partLats p = s.partLats p := by unfold z; rw [hz]; rfl
  have cellsOf : z.cellsOf p rank = s.cellsOf p rank := by unfold z; rw [hz]; rfl
  have rows : ∀ x k, z.rankRows x k = s.rankRows x k := by intro x k; unfold z; rw [hz]; rfl
  have passes : ∀ x, z.passes x = s.passes x := by intro x; unfold z; rw [hz]; rfl
  have er : z.er = s.er := by unfold z; rw [hz]
  have engs : z.eng.engs = s.eng.engs := by unfold z; rw [hz]
  have engine : z.engine p = s.engine p := by unfold State.engine; rw [engs]
  refine ⟨?_, fun r x run bands now => ?_, fun idle => ?_⟩
  · unfold z
    rw [hz]
  · intro tile may
    have slot : s.vectorSlot p rank ready =
        if z.mayInject r x p rank then z.inject r x p rank else z.slotCount ((z.partLats p).getD rank 0) false := by
      rw [State.vectorSlot_eq bands]
      change (match z.streaming p rank with | none => _ | some (r, x) => _) = _
      rw [now]
    have mayInject : z.mayInject r x p rank = true ↔ may := by
      unfold State.mayInject State.tileHeld
      simp only [Bool.and_eq_true, decide_eq_true_eq, Bool.or_eq_true, rows, cellsOf]
      exact and_assoc.trans (and_congr_right fun _ => and_comm)
    refine ⟨fun h => ?_, fun h => ?_⟩
    · have effects := z.inject_effects r x p rank
      rw [if_pos (mayInject.mpr h)] at slot
      dsimp only at effects
      rw [lats, cellsOf, rows, rows, passes, er, engine, engs] at effects
      obtain ⟨inj, act, low, high, opens, still, rest⟩ := effects
      refine .of_eq (execVectorSlot_eq ready run) slot ⟨inj, act, low, high, fun last => ?_, fun last => ?_, ?_⟩
      · exact opens ⟨last.1, (congrArg (SMap.look r.inj 0) last.1).trans last.2.1, last.2.2⟩
      · refine still fun h => last ⟨h.1, ?_, h.2.2⟩
        exact (congrArg (SMap.look r.inj 0) h.1).symm.trans h.2.1
      · rw [er, engs]
        exact rest
    · rw [if_neg (mt mayInject.mp h), lats] at slot
      obtain ⟨only, low, high⟩ := z.slotCount_counts ((z.partLats p).getD rank 0) false
      rw [lats, er, if_neg nofun] at low high
      refine .of_eq (execVectorSlot_eq ready run) slot ⟨low, high, ?_⟩
      rw [er]
      rw [er, lats] at only
      exact only
  · by_cases bands : s.bandsReady p = true
    · have none := idle.resolve_right (by rw [bands]; nofun)
      refine .of_eq (z := s) ?_ rfl rfl
      change execVectorSlot p rank ready .clean s = _
      unfold execVectorSlot
      rw [none]
    · refine .of_eq (z := s) ?_ rfl rfl
      change execVectorSlot p rank ready .clean s = _
      unfold execVectorSlot State.vectorSlot
      split
      · rfl
      · simp [bands]

/-! ### The oldest run of a partition -/

/-- What a run is for a partition: its product, when its entry stands in the partition's queue. -/
def State.runOf (s : State) (p : Nat) (k : LatRun) : Option (LatRun × Product) :=
  match s.product k with
  | some x => if x.e.queue = p then some (k, x) else none
  | none => none

theorem State.product_of_uid (s : State) {k r : LatRun} (h : k.uid = r.uid) : s.product k = s.product r := by
  unfold State.product
  rw [h]

theorem State.runOf_eq_some {s : State} {p : Nat} {k r : LatRun} {x : Product} (h : s.runOf p k = some (r, x)) :
    k = r ∧ s.product r = some x ∧ x.e.queue = p := by
  unfold State.runOf at h
  split at h
  next y hy =>
    split at h
    next hq =>
      obtain ⟨rfl, rfl⟩ := Prod.mk.inj (Option.some.inj h)
      exact ⟨rfl, hy, hq⟩
    · cases h
  · cases h

theorem State.runOf_of_uid {s : State} {p : Nat} {k r : LatRun} {x : Product} (h : s.product r = some x) (q : x.e.queue = p)
    (uid : k.uid = r.uid) : s.runOf p k = some (k, x) := by
  unfold State.runOf
  rw [s.product_of_uid uid, h]
  exact if_pos q

/-- The runs in front of the first of a partition, which are of other names, and the first. -/
theorem State.lats_of_head_runs {s : State} {p : Nat} {r : LatRun} {x : Product} (h : (s.runs p).head? = some (r, x)) :
    s.product r = some x ∧ x.e.queue = p ∧ ∃ before behind, s.eng.lats = before ++ r :: behind ∧
      ∀ k ∈ before, k.uid ≠ r.uid ∧ s.runOf p k = none := by
  change (s.eng.lats.filterMap (s.runOf p)).head? = some (r, x) at h
  generalize s.eng.lats = ls at h
  induction ls with
  | nil => cases h
  | cons k ks ih =>
    rw [List.filterMap_cons] at h
    split at h
    next hk =>
      obtain ⟨prod, queue, before, behind, hl, hb⟩ := ih h
      refine ⟨prod, queue, k :: before, behind, by rw [hl]; rfl, fun j hj => ?_⟩
      rcases List.mem_cons.mp hj with rfl | hj
      · refine ⟨fun e => ?_, hk⟩
        rw [State.runOf_of_uid prod queue e] at hk
        cases hk
      · exact hb j hj
    next q hq =>
      obtain rfl := Option.some.inj h
      obtain ⟨rfl, prod, queue⟩ := State.runOf_eq_some hq
      exact ⟨prod, queue, [], ks, rfl, nofun⟩

theorem updFirst_append {α : Type} {p : α → Bool} {f : α → α} {l : List α} {x : α} {r : List α} (no : ∀ y ∈ l, p y = false)
    (yes : p x = true) : updFirst p f (l ++ x :: r) = l ++ f x :: r := by
  induction l with
  | nil => exact if_pos yes
  | cons y l ih =>
    refine (if_neg ?_).trans (congrArg (y :: ·) (ih fun z hz => no z (.tail y hz)))
    rw [no y (.head l)]
    nofun

/-- A change of the first run of a partition that keeps its name leaves it the first. -/
theorem State.head_runs_modRun {s : State} {p : Nat} {r : LatRun} {x : Product} (h : (s.runs p).head? = some (r, x))
    {g : LatRun → LatRun} (keeps : ∀ k, (g k).uid = k.uid) : ((s.modRun r.uid g).runs p).head? = some (g r, x) := by
  obtain ⟨prod, queue, before, behind, hl, hb⟩ := State.lats_of_head_runs h
  have lats : (s.modRun r.uid g).eng.lats = before ++ g r :: behind := by
    unfold State.modRun
    rw [hl]
    exact updFirst_append (fun k hk => decide_eq_false (hb k hk).1) (decide_eq_true rfl)
  change ((s.modRun r.uid g).eng.lats.filterMap (s.runOf p)).head? = _
  have none : before.filterMap (s.runOf p) = [] := List.filterMap_eq_nil_iff.mpr fun k hk => (hb k hk).2
  rw [lats, List.filterMap_append, none, List.nil_append, List.filterMap_cons_some (State.runOf_of_uid prod queue (keeps r))]
  rfl

/-- The first run of a partition is the first of its name. -/
theorem State.find?_head_runs {s : State} {p : Nat} {r : LatRun} {x : Product} (h : (s.runs p).head? = some (r, x)) :
    s.eng.lats.find? (fun k => k.uid = r.uid) = some r := by
  obtain ⟨-, -, before, behind, hl, hb⟩ := State.lats_of_head_runs h
  rw [hl, List.find?_append, List.find?_eq_none.mpr fun k hk => by simp [(hb k hk).1]]
  simp

/-! ### The feeder's part -/

theorem State.head_runs_cons {s : State} {p : Nat} {q : LatRun × Product} (h : (s.runs p).head? = some q) :
    ∃ tl, s.runs p = q :: tl := by
  cases hl : s.runs p with
  | nil => rw [hl] at h; cases h
  | cons a tl =>
    rw [hl] at h
    obtain rfl := Option.some.inj h
    exact ⟨tl, rfl⟩

/-- The vector that the feeder fetches for the oldest run enters the queues when they have room; its lines come first in the
reuse store. -/
def LatRun.fedWith (k : LatRun) (rank v : Nat) (lines : List Nat) : LatRun :=
  { k with fed := SMap.put k.fed 0 rank (v + 1), reuse := SMap.put k.reuse [] rank lines }

theorem State.feed_oldest {s : State} {p rank : Nat} {r : LatRun} {x : Product} (h : (s.runs p).head? = some (r, x))
    (left : max (SMap.look r.fed 0 rank) (r.injected rank) < s.vectorEnd r x rank) :
    let v := max (SMap.look r.fed 0 rank) (r.injected rank)
    (s.queueDepth p ≤ v - r.injected rank → s.feed p rank true = s) ∧
    (v - r.injected rank < s.queueDepth p → ∃ i more, s.feed p rank true =
      { s with int := i }.modRun r.uid fun k => k.fedWith rank v ((s.vectorLines x rank v ++ more).take (s.reuseLines p))) := by
  intro v
  obtain ⟨tl, hl⟩ := State.head_runs_cons h
  have feeding : s.feeding p rank = some (r, x) := by
    unfold State.feeding
    rw [hl, List.find?_cons, decide_eq_true left]
  have first : (s.runs p).takeWhile (fun k => k.1.uid ≠ r.uid) = [] := by simp [hl]
  have queued : s.queued r x rank = v - r.injected rank := by
    unfold State.queued
    omega
  have feed : s.feed p rank true = if s.queueDepth p ≤ v - r.injected rank then s else
      (s.linesShut ((s.vectorLines x rank v).filter fun l => !(SMap.look r.reuse [] rank).contains l)).modRun r.uid fun k =>
        k.fedWith rank v ((s.vectorLines x rank v ++
          (SMap.look r.reuse [] rank).filter fun l => !(s.vectorLines x rank v).contains l).take (s.reuseLines p)) := by
    unfold State.feed
    rw [feeding]
    dsimp only
    rw [first, queued, List.foldl_nil, Nat.zero_add]
    rfl
  refine ⟨fun full => by rw [feed, if_pos full], fun room => ?_⟩
  rw [feed, if_neg (Nat.not_le.mpr room)]
  obtain ⟨i, hi⟩ := s.linesShut_state ((s.vectorLines x rank v).filter fun l => !(SMap.look r.reuse [] rank).contains l)
  rw [hi]
  exact ⟨i, _, rfl⟩

/-! ### The slot of the oldest run -/

theorem State.runs_loadTile (s : State) (p rank : Nat) (ready : Bool) : (s.loadTile p rank ready).runs p = s.runs p := by
  obtain ⟨c, i, h⟩ := s.loadTile_state p rank ready
  rw [h]
  rfl

theorem State.lats_loadTile (s : State) (p rank : Nat) (ready : Bool) : (s.loadTile p rank ready).eng.lats = s.eng.lats := by
  obtain ⟨c, i, h⟩ := s.loadTile_state p rank ready
  rw [h]

/-- The first tile that the weight source looks at is in the cells once it has had its part (R89). -/
theorem State.loadTile_holds {s : State} {p rank : Nat} {t : Tile} {l : List Tile} (h : s.tilesAhead p rank = t :: l) :
    let c := (s.loadTile p rank true).weightsAt (s.cellsOf p rank)
    c.active = some t ∨ c.shadow = some t := by
  have loaded : ∀ u, (s.shadowLoad p (s.cellsOf p rank) u).weightsAt (s.cellsOf p rank) =
      { s.weightsAt (s.cellsOf p rank) with shadow := some u } := by
    intro u
    obtain ⟨j, hj⟩ := s.shadowLoad_state p (s.cellsOf p rank) u
    rw [hj]
    unfold State.weightsAt
    rw [SMap.look_put, if_pos rfl]
  unfold State.loadTile
  dsimp only
  rw [h, List.take_succ_cons]
  dsimp only
  by_cases shadow : (s.weightsAt (s.cellsOf p rank)).shadow = some t
  · rw [if_pos (by simp [shadow])]
    exact .inr shadow
  rw [if_neg (by simp [shadow])]
  by_cases active : (s.weightsAt (s.cellsOf p rank)).active = some t
  · rw [if_neg (not_not_intro active)]
    split
    · split
      · exact .inl active
      · rw [loaded]
        exact .inl active
    · exact .inl active
  · rw [if_pos active, loaded]
    exact .inr rfl

/-- The tiles of a partition begin with the one that the oldest run's next vector needs. -/
theorem State.tilesAhead_oldest {s : State} {p rank : Nat} {r : LatRun} {x : Product} (h : (s.runs p).head? = some (r, x))
    (left : r.injected rank < s.passes x * s.rankRows x rank) (rows : 0 < s.rankRows x rank) :
    ∃ l, s.tilesAhead p rank = { uid := r.uid, pass := r.injected rank / s.rankRows x rank } :: l := by
  obtain ⟨tl, hl⟩ := State.head_runs_cons h
  unfold State.tilesAhead
  rw [hl, List.flatMap_cons]
  dsimp only
  rw [if_neg (Nat.ne_of_gt rows)]
  have small : r.injected rank / s.rankRows x rank < (List.range (s.passes x)).length := by
    rw [List.length_range]
    exact Nat.div_lt_of_lt_mul (by rwa [Nat.mul_comm] at left)
  rw [List.drop_eq_getElem_cons small, List.map_cons, List.cons_append, List.getElem_range]
  exact ⟨_, rfl⟩

/-- What a slot leaves of its runs: only vectors have been injected. -/
theorem State.slot_keeps_fed {z : State} {p rank u : Nat} {k : LatRun} (h : z.eng.lats.find? (fun k => k.uid = u) = some k) (r : LatRun)
    (x : Product) (b : Bool) :
    ∃ k' ∈ (if b then z.inject r x p rank else z.slotCount ((z.partLats p).getD rank 0) false).eng.lats, k'.uid = u ∧ k'.fed = k.fed ∧
      k'.reuse = k.reuse := by
  cases b
  · exact ⟨k, List.mem_of_find?_eq_some h, by simpa using List.find?_some h, rfl, rfl⟩
  · rw [if_pos rfl, (z.inject_effects r x p rank).1]
    have found := find?_updFirst LatRun.uid (f := fun k => { k with inj := SMap.put k.inj 0 rank (r.injected rank + 1) }) (fun _ => rfl)
      r.uid u z.eng.lats
    rw [h] at found
    have uid : k.uid = u := by simpa using List.find?_some h
    split at found
    · exact ⟨_, List.mem_of_find?_eq_some found, uid, rfl, rfl⟩
    · exact ⟨_, List.mem_of_find?_eq_some found, uid, rfl, rfl⟩

theorem State.vectorEnd_congr (s : State) {k r : LatRun} (h : k.inj = r.inj) (x : Product) (rank : Nat) :
    s.vectorEnd k x rank = s.vectorEnd r x rank := by
  have injected : k.injected = r.injected := by
    funext rank
    unfold LatRun.injected
    rw [h]
  unfold State.vectorEnd State.passesBegun
  rw [injected]

/-- A slot whose banks answer, with a vector of the oldest run left for the feeder: the oldest run as the feeder leaves it is
the one that streams. -/
structure OldestSlot (s z : State) (p rank : Nat) (r k : LatRun) (x : Product) : Prop where
  head : (z.runs p).head? = some (k, x)
  uid : k.uid = r.uid
  inj : k.inj = r.inj
  slot : s.vectorSlot p rank true =
    if z.mayInject k x p rank then z.inject k x p rank else z.slotCount ((z.partLats p).getD rank 0) false

theorem State.oldestSlot {s : State} {p rank : Nat} {r k : LatRun} {x : Product} (bands : s.bandsReady p = true)
    (head : ((s.feed p rank true).runs p).head? = some (k, x)) (uid : k.uid = r.uid) (inj : k.inj = r.inj)
    (vectors : r.injected rank < s.vectorEnd r x rank) :
    OldestSlot s ((s.feed p rank true).loadTile p rank true) p rank r k x := by
  have head' : (((s.feed p rank true).loadTile p rank true).runs p).head? = some (k, x) := by rw [State.runs_loadTile, head]
  obtain ⟨tl, hl⟩ := State.head_runs_cons head'
  obtain ⟨l, c, i, hz⟩ := s.slotReady_state p rank true
  have vectorEnd : ((s.feed p rank true).loadTile p rank true).vectorEnd k x rank = s.vectorEnd r x rank := by
    rw [← s.vectorEnd_congr inj, hz]
    rfl
  have streams : ((s.feed p rank true).loadTile p rank true).streaming p rank = some (k, x) := by
    unfold State.streaming
    rw [hl, List.find?_cons]
    have : k.injected rank < ((s.feed p rank true).loadTile p rank true).vectorEnd k x rank := by
      rw [vectorEnd]
      unfold LatRun.injected
      rw [inj]
      exact vectors
    rw [decide_eq_true this]
  refine ⟨head', uid, inj, ?_⟩
  rw [State.vectorSlot_eq bands]
  dsimp only
  rw [streams]

/-- The feeder leaves the oldest run the oldest, with its injected vectors, and fetches its next vector with room for it. -/
theorem State.feed_leaves_oldest {s : State} {p rank : Nat} {r : LatRun} {x : Product} (h : (s.runs p).head? = some (r, x))
    (left : max (SMap.look r.fed 0 rank) (r.injected rank) < s.vectorEnd r x rank) :
    let v := max (SMap.look r.fed 0 rank) (r.injected rank)
    ∃ k, ((s.feed p rank true).runs p).head? = some (k, x) ∧ k.uid = r.uid ∧ k.inj = r.inj ∧
      (s.queueDepth p ≤ v - r.injected rank → k = r) ∧
      (v - r.injected rank < s.queueDepth p → ∃ more, k = r.fedWith rank v ((s.vectorLines x rank v ++ more).take (s.reuseLines p))) := by
  intro v
  obtain ⟨full, room⟩ := State.feed_oldest h left
  by_cases hv : s.queueDepth p ≤ v - r.injected rank
  · refine ⟨r, ?_, rfl, rfl, fun _ => rfl, fun n => absurd hv (Nat.not_le.mpr n)⟩
    rw [full hv]
    exact h
  · obtain ⟨i, more, fed⟩ := room (Nat.not_le.mp hv)
    refine ⟨_, ?_, ?_, ?_, fun n => absurd n hv, fun _ => ⟨more, rfl⟩⟩
    · rw [fed]
      exact State.head_runs_modRun (s := { s with int := i }) h fun _ => rfl
    · rfl
    · rfl

theorem feederSlot : FeederSlot := by
  intro s p rank r x oldest bands v depth left
  have vectors : r.injected rank < s.vectorEnd r x rank := Nat.lt_of_le_of_lt (Nat.le_max_right _ _) left
  have run : s.streaming p rank ≠ none := by
    obtain ⟨tl, hl⟩ := State.head_runs_cons oldest
    unfold State.streaming
    rw [hl, List.find?_cons, decide_eq_true vectors]
    nofun
  obtain ⟨k, head, uid, inj, full, room⟩ := State.feed_leaves_oldest oldest left
  have slot := State.oldestSlot bands head uid inj vectors
  obtain ⟨k', hk', uid', fed', reuse'⟩ := State.slot_keeps_fed (State.find?_head_runs slot.head) k x (p := p) (rank := rank)
    (((s.feed p rank true).loadTile p rank true).mayInject k x p rank)
  rw [← slot.slot] at hk'
  refine ⟨fun h => ?_, fun h => ?_, fun more rows => ?_⟩
  · obtain ⟨more, hk⟩ := room h
    refine .of_eq (execVectorSlot_eq true run) rfl ⟨k', hk', uid'.trans uid, ?_, more, ?_⟩
    · rw [fed', hk]
      exact (SMap.look_put ..).trans (if_pos rfl)
    · rw [reuse', hk]
      exact (SMap.look_put ..).trans (if_pos rfl)
  · have hk := full h
    refine .of_eq (execVectorSlot_eq true run) rfl ⟨k', hk', uid'.trans uid, ?_, by rw [reuse', hk]⟩
    rw [fed', hk]
    have : 8 ≤ depth := by
      unfold depth
      split <;> decide
    omega
  · intro tile
    obtain ⟨fl, fi, hy⟩ := s.feed_state p rank true
    obtain ⟨zl, zc, zi, hz⟩ := s.slotReady_state p rank true
    have yrows : (s.feed p rank true).rankRows x rank = s.rankRows x rank := by rw [hy]; rfl
    have ypasses : (s.feed p rank true).passes x = s.passes x := by rw [hy]; rfl
    have ycells : (s.feed p rank true).cellsOf p rank = s.cellsOf p rank := by rw [hy]; rfl
    have zrows : ((s.feed p rank true).loadTile p rank true).rankRows x rank = s.rankRows x rank := by rw [hz]; rfl
    have zcells : ((s.feed p rank true).loadTile p rank true).cellsOf p rank = s.cellsOf p rank := by rw [hz]; rfl
    have injected : k.injected rank = r.injected rank := congrArg (SMap.look · 0 rank.val) inj
    obtain ⟨l, ahead⟩ := State.tilesAhead_oldest head (by rw [injected, ypasses, yrows]; exact more) (by rw [yrows]; exact rows)
    have held := State.loadTile_holds ahead
    dsimp only at held
    rw [uid, injected, yrows, ycells] at held
    refine .of_eq (execVectorSlot_eq true run) slot.slot ?_
    dsimp only
    split
    · have active := (State.inject_effects ((s.feed p rank true).loadTile p rank true) k x p rank).2.1
      rw [uid, injected, zrows, zcells] at active
      exact .inl active
    · exact held

/-- Settles O31: the outcome of a slot by what may be injected, and the feeder's and the weight source's parts of it. -/
theorem vectorSlot : Obligations.VectorSlot := ⟨slotOutcome, feederSlot⟩

end Sys2Proof.Machine
end

/-! PROOFS. The Panes of the Casement, its operations and its port (spec/06): O35, O36. -/

section
namespace Sys2Proof.Machine

/-! ### Panes -/

/-- A state in which only Panes and their valid bits have changed, and of them only those of one Pane. -/
structure InPane (pd : Nat) (s s' : State) : Prop where
  rest : { s' with eng := { s'.eng with panes := s.eng.panes, pvalid := s.eng.pvalid } } = s
  others : ∀ k, k / 1024 ≠ pd → SMap.look s'.eng.panes 0 k = SMap.look s.eng.panes 0 k ∧
    SMap.look s'.eng.pvalid 0 k = SMap.look s.eng.pvalid 0 k

theorem InPane.refl (pd : Nat) (s : State) : InPane pd s s := ⟨rfl, fun _ _ => ⟨rfl, rfl⟩⟩

theorem InPane.trans {pd : Nat} {a b c : State} (h : InPane pd a b) (k : InPane pd b c) : InPane pd a c where
  rest := by
    have r := k.rest
    have q := h.rest
    rw [← q, ← r]
  others := fun n hn => ⟨(k.others n hn).1.trans (h.others n hn).1, (k.others n hn).2.trans (h.others n hn).2⟩

/-- A place of a Pane in a DT. -/
def inPane (dt r c : Nat) : Prop := r < 32 ∧ c < paneCols dt

theorem paneWord_div {dt pane r c : Nat} (h : inPane dt r c) : paneWord dt pane r c / 1024 = pane := by
  obtain ⟨hr, hc⟩ := h
  unfold paneCols at hc
  unfold paneWord
  split at hc
  next h => rw [if_pos h]; omega
  next h => rw [if_neg h]; omega

theorem State.paneSet_inPane (s : State) (dt pane : Nat) {o : PaneOut} (h : inPane dt o.r o.c) : InPane pane s (s.paneSet dt pane o) := by
  refine ⟨rfl, fun k hk => ?_⟩
  have ne : k ≠ paneWord dt pane o.r o.c := fun e => hk (e ▸ paneWord_div h)
  unfold State.paneSet
  dsimp only
  rw [SMap.look_put, SMap.look_put, if_neg ne, if_neg ne]
  exact ⟨rfl, rfl⟩

theorem State.paneSets_inPane (s : State) (dt pane : Nat) {os : List PaneOut} (h : ∀ o ∈ os, inPane dt o.r o.c) :
    InPane pane s (s.paneSets dt pane os) := by
  unfold State.paneSets
  induction os generalizing s with
  | nil => exact .refl pane s
  | cons o os ih => exact (s.paneSet_inPane dt pane (h o (.head os))).trans (ih _ fun x hx => h x (.tail o hx))

/-- What an element of a Pane reads once it is written: its low bits and its valid bit. -/
def PaneOut.read (dt : Nat) (o : PaneOut) : Nat × Bool := (o.v % 2 ^ (if dt = 1 then 16 else 32), o.valid)

/-- The halves of a word, one of which has been written. -/
theorem halfWord_write (w : BitVec 32) (v i j : Nat) (hi : i < 2) (hj : j < 2) :
    bitsN (w32 (w.toNat - (bitsN w.toNat (16 * i) 16 <<< (16 * i)) + ((v % 65536) <<< (16 * i)))).toNat (16 * j) 16 =
      if j = i then v % 2 ^ 16 else bitsN w.toNat (16 * j) 16 := by
  have hw := w.isLt
  simp only [bitsN, w32, BitVec.toNat_ofNat, Nat.shiftRight_eq_div_pow, Nat.shiftLeft_eq]
  obtain rfl | rfl : i = 0 ∨ i = 1 := by omega
  · obtain rfl | rfl : j = 0 ∨ j = 1 := by omega
    · simp only [if_true]
      omega
    · simp only [Nat.one_ne_zero, if_false]
      omega
  · obtain rfl | rfl : j = 0 ∨ j = 1 := by omega
    · simp only [Nat.zero_ne_one, if_false]
      omega
    · simp only [if_true]
      omega

/-- The valid bits of a word's halves, one of which has been written. -/
theorem halfValid_write (b : BitVec 2) (v : Bool) (i j : Nat) (hi : i < 2) (hj : j < 2) :
    (if v then b ||| BitVec.ofNat 2 (2 ^ i) else b &&& ~~~BitVec.ofNat 2 (2 ^ i)).getLsbD j = if j = i then v else b.getLsbD j := by
  obtain rfl | rfl : i = 0 ∨ i = 1 := by omega
  · obtain rfl | rfl : j = 0 ∨ j = 1 := by omega
    · cases v <;> simp
    · cases v <;> simp
  · obtain rfl | rfl : j = 0 ∨ j = 1 := by omega
    · cases v <;> simp
    · cases v <;> simp

theorem State.paneEl_paneSet (s : State) (dt pane : Nat) {o : PaneOut} (ho : inPane dt o.r o.c) {r c : Nat} (h : inPane dt r c) :
    (s.paneSet dt pane o).paneEl dt pane r c = if (r, c) = (o.r, o.c) then o.read dt else s.paneEl dt pane r c := by
  obtain ⟨hr, hc⟩ := ho
  obtain ⟨hr', hc'⟩ := h
  unfold paneCols at hc hc'
  unfold State.paneEl State.paneSet PaneOut.read
  dsimp only
  rw [SMap.look_put, SMap.look_put]
  by_cases one : dt = 1
  · subst one
    simp only [if_true, paneWord] at *
    by_cases word : r = o.r ∧ c / 2 = o.c / 2
    · obtain ⟨rfl, hw⟩ := word
      rw [hw, if_pos rfl, if_pos rfl, halfWord_write _ _ _ _ (Nat.mod_lt _ (by omega)) (Nat.mod_lt _ (by omega)),
        halfValid_write _ _ _ _ (Nat.mod_lt _ (by omega)) (Nat.mod_lt _ (by omega))]
      have same : c % 2 = o.c % 2 ↔ (o.r, c) = (o.r, o.c) := by
        rw [Prod.mk.injEq]
        omega
      simp only [same]
      split <;> rfl
    · have ne : ¬1024 * pane + 32 * r + c / 2 = 1024 * pane + 32 * o.r + o.c / 2 := by omega
      have ne' : ¬(r, c) = (o.r, o.c) := by
        rw [Prod.mk.injEq]
        omega
      rw [if_neg ne, if_neg ne, if_neg ne']
  · simp only [if_neg one, paneWord] at *
    have word : 1024 * pane + 32 * r + c = 1024 * pane + 32 * o.r + o.c ↔ (r, c) = (o.r, o.c) := by
      rw [Prod.mk.injEq]
      omega
    simp only [word]
    split
    · cases o.valid <;> rfl
    · rfl

/-- Elements written one after another, each by its place, read as they were written. -/
theorem State.paneEl_paneSets (s : State) (dt pane : Nat) {f : Nat × Nat → PaneOut} {l : List (Nat × Nat)}
    (place : ∀ q, ((f q).r, (f q).c) = q) (inside : ∀ q ∈ l, inPane dt q.1 q.2) {r c : Nat} (h : inPane dt r c) :
    (s.paneSets dt pane (l.map f)).paneEl dt pane r c = if (r, c) ∈ l then (f (r, c)).read dt else s.paneEl dt pane r c := by
  unfold State.paneSets
  induction l generalizing s with
  | nil => rfl
  | cons q l ih =>
    have one := s.paneEl_paneSet dt pane (o := f q) (by
      have hq := inside q (.head l)
      rw [← place q] at hq
      exact hq) h
    rw [List.map_cons, List.foldl_cons, ih _ fun x hx => inside x (.tail q hx), one, place q]
    by_cases hl : (r, c) ∈ l
    · simp [hl]
    · by_cases hq : (r, c) = q
      · simp [← hq, hl]
      · simp [hl, hq]

theorem mem_panePos {dt r c : Nat} : (r, c) ∈ panePos dt ↔ inPane dt r c := by
  simp [panePos, inPane]

/-! ### One arithmetic operation -/

theorem State.casRaise_flags (s : State) (t : Thread) (ctx : Nat) (iseq : BitVec 32) (f : Flags) : OnlyLogs (s.modEr fun r => { r with
    casFlags := r.casFlags ||| BitVec.ofNat 32 (flags7 f <<< (8 * Thread.num t)) }) (s.casRaise t ctx iseq f) := by
  unfold State.casRaise
  split
  next h =>
    rw [h]
    have same : (s.modEr fun r => { r with casFlags := r.casFlags ||| BitVec.ofNat 32 (0 <<< (8 * Thread.num t)) }) = s := by
      simp [State.modEr]
    rw [same]
    exact .refl s
  · unfold State.alarmFlags
    dsimp only
    split
    · exact .refl _
    · exact .of_integrity _ _

/-- What a raise of Casement flags leaves of the state that raises them. -/
theorem State.casRaise_leaves (s : State) (t : Thread) (ctx : Nat) (iseq : BitVec 32) (f : Flags) :
    let s' := s.casRaise t ctx iseq f
    s'.eng = s.eng ∧ s'.er.casOps = s.er.casOps ∧ s'.int.qstop = s.int.qstop := by
  intro s'
  obtain ⟨eng, er, qstop, -⟩ := (s.casRaise_flags t ctx iseq f).after
  have ops := congrArg EngRegs.casOps er
  exact ⟨eng, ops, qstop⟩

theorem casResults_inPane (s : State) (x : CasAt) (op : CasOp) : ∀ q ∈ (s.casResults x op).2,
    inPane (s.casResults x op).1 q.1.r q.1.c := by
  have conv : ∀ r c, ((s.casConv x op r c).1.r, (s.casConv x op r c).1.c) = (r, c) := by
    intro r c
    unfold State.casConv
    dsimp only
    split <;> rfl
  have perm : ∀ r c, ((s.casPerm x op r c).1.r, (s.casPerm x op r c).1.c) = (r, c) := by
    intro r c
    unfold State.casPerm
    dsimp only
    split <;> rfl
  have all : ∀ (dt : Nat) (f : Nat → Nat → PaneOut × Flags), (∀ r c, ((f r c).1.r, (f r c).1.c) = (r, c)) →
      ∀ q ∈ (panePos dt).map (fun p => f p.1 p.2), inPane dt q.1.r q.1.c := by
    intro dt f place q hq
    obtain ⟨⟨r, c⟩, hp, rfl⟩ := List.mem_map.mp hq
    obtain ⟨hr, hc⟩ := Prod.mk.inj (place r c)
    dsimp only
    rw [hr, hc]
    exact mem_panePos.mp hp
  unfold State.casResults
  split
  · exact all _ _ conv
  · split
    · exact all _ _ perm
    · split
      · exact all 0 (s.casBcst x op) fun _ _ => rfl
      · exact all op.dt (s.casEl x op) fun _ _ => rfl

theorem casReduce_inPane (s : State) (x : CasAt) (op : CasOp) : ∀ o ∈ (s.casReduce x op).filterMap (fun r => r.1), inPane 0 o.r o.c := by
  intro o ho
  obtain ⟨q, hq, hqo⟩ := List.mem_filterMap.mp ho
  unfold State.casReduce at hq
  obtain ⟨j, hj, rfl⟩ := List.mem_map.mp hq
  have hj := List.mem_range.mp hj
  have place : (o.r, o.c) = redPlace (op.pc % 2) j := by
    unfold State.redOne at hqo
    dsimp only at hqo
    split at hqo
    · obtain rfl := Option.some.inj hqo
      rfl
    · split at hqo
      · obtain rfl := Option.some.inj hqo
        rfl
      · cases hqo
  unfold redPlace at place
  unfold paneCols at hj
  unfold inPane paneCols
  split at hj
  next h =>
    rw [if_pos h, Prod.mk.injEq] at place
    simp [place, hj]
  next h =>
    rw [if_neg h, Prod.mk.injEq] at place
    have : j < 64 := by split at hj <;> omega
    simp only [Nat.zero_ne_one, if_false, place.1, place.2]
    omega

/-- An arithmetic operation writes into its destination Pane, and then only raises flags. -/
theorem State.casArith_pane (s : State) (x : CasAt) (op : CasOp) : ∃ z f, InPane (x.pane op.pd) s z ∧
    s.casArith x op = z.casRaise x.e.stream x.e.ctx x.e.iseq f ∧
    (casIsRed op.op = false → casIsConv op.op = false → op.op ≠ 0x2C → op.op ≠ 0x2D →
      z = s.paneSets op.dt (x.pane op.pd) ((panePos op.dt).map fun q => (s.casEl x op q.1 q.2).1)) := by
  unfold State.casArith
  split
  next h => exact ⟨_, _, s.paneSets_inPane _ _ (casReduce_inPane s x op), rfl, fun n => absurd h (by rw [n]; nofun)⟩
  next h =>
    refine ⟨_, _, s.paneSets_inPane _ _ fun o ho => ?_, rfl, fun _ conv bcst perm => ?_⟩
    · obtain ⟨q, hq, rfl⟩ := List.mem_map.mp ho
      exact casResults_inPane s x op q hq
    · unfold State.casResults
      rw [conv, if_neg nofun, if_neg perm, if_neg bcst, List.map_map]
      rfl

/-! ### The next operation of a unit -/

theorem casementMoved_congr {r : CasRun} {u : CasUnit} {s z s' : State} (h : z.engine qCas = s.engine qCas) (m : casementMoved r u z s') :
    casementMoved r u s s' := by
  unfold casementMoved at *
  rw [← h]
  exact m

theorem State.casStep_moves (s : State) (r : CasRun) (u : CasUnit) : casementMoved r u s (s.casStep r u) ∧
    { s.casStep r u with eng := { (s.casStep r u).eng with cas := s.eng.cas, engs := s.eng.engs } } = s := by
  unfold casementMoved State.casStep
  dsimp only
  generalize (if r.pos + 1 < u.body.length then ({ r with pos := r.pos + 1 } : CasRun) else { r with pos := 0, iter := r.iter + 1 }) = n
  by_cases more : n.iter < u.iters
  · simp only [if_pos more]
    exact ⟨trivial, trivial⟩
  · simp only [if_neg more]
    obtain ⟨frame, opens, -⟩ := State.engineOpen_effects { s with eng := { s.eng with cas := none } } qCas r.uid
    have cas := congrArg (fun z : State => z.eng.cas) frame
    have rest := congrArg (fun z : State => { z with eng := { z.eng with cas := s.eng.cas, engs := s.eng.engs } }) frame
    exact ⟨⟨cas, fun h => (opens h).symm⟩, rest⟩

/-- The state in which an arithmetic operation is performed. -/
def State.casBegun (s : State) (x : CasAt) (op : CasOp) : State :=
  ({ s with eng := { s.eng with casLast := some (x.e, op), casIdle := 0 } }.casTimed x op).casBusy

theorem execCasementOperationStart_eq {s : State} {r : CasRun} {x : CasAt} {op : CasOp} (next : s.casNext = some (r, x, op))
    (port : op.isPort = false) (u : Upset) : execCasementOperationStart u s = .next (match u with
      | .fatal d => (s.casBegun x op).casFatal x.e d
      | _ =>
        let z := (((s.casBegun x op).casArith x op).modEr fun g => { g with casOps := g.casOps + 1 }).casStep r x.u
        if u = .corrected then z.corrected else z) := by
  unfold execCasementOperationStart
  rw [next]
  dsimp only
  rw [port]
  rfl

/-- An operation that no check stops: its Pane, the count and the unit's next place (R130, R147). -/
theorem operationRuns {s : State} {r : CasRun} {x : CasAt} {op : CasOp} (next : s.casNext = some (r, x, op)) (port : op.isPort = false) :
    Completes (.casementOperationStart .clean) s fun s' =>
      (∀ k, k / 1024 ≠ x.pane op.pd → SMap.look s'.eng.panes 0 k = SMap.look s.eng.panes 0 k ∧
        SMap.look s'.eng.pvalid 0 k = SMap.look s.eng.pvalid 0 k) ∧
      (s'.eng.spad = s.eng.spad ∧ s'.eng.sill = s.eng.sill ∧ s'.sash.dmem = s.sash.dmem) ∧ casementMoved r x.u s s' ∧
      s'.er.casOps = s.er.casOps + 1 ∧ s'.eng.casFree = s.time.cycle.toNat + casOccupancy op.op ∧ s'.eng.casLast = some (x.e, op) ∧
      s'.eng.casIdle = 0 ∧
      (casIsRed op.op = false → casIsConv op.op = false → op.op ≠ 0x2C → op.op ≠ 0x2D →
        ∀ i < 32, ∀ c < paneCols op.dt, s'.paneEl op.dt (x.pane op.pd) i c =
          ((s.casEl x op i c).1.v % 2 ^ (if op.dt = 1 then 16 else 32), (s.casEl x op i c).1.valid)) := by
  refine .of_eq (execCasementOperationStart_eq next port .clean) (if_neg nofun) ?_
  obtain ⟨z, f, inp, arith, elems⟩ := (s.casBegun x op).casArith_pane x op
  have same : s.Same ((((s.casBegun x op).casArith x op).modEr fun g => { g with casOps := g.casOps + 1 }).casStep r x.u) :=
    State.casStep_same _ _ (State.modEr_same _ (State.casArith_same _ _ ⟨rfl, rfl, rfl⟩))
  rw [arith] at same ⊢
  obtain ⟨eng, ops, -⟩ := z.casRaise_leaves x.e.stream x.e.ctx x.e.iseq f
  generalize State.casRaise z x.e.stream x.e.ctx x.e.iseq f = y at *
  obtain ⟨moved, rest⟩ := (y.modEr fun g => { g with casOps := g.casOps + 1 }).casStep_moves r x.u
  generalize ((y.modEr fun g => { g with casOps := g.casOps + 1 }).casStep r x.u) = w at *
  have weng := congrArg State.eng rest
  have zrest := congrArg State.eng inp.rest
  have panes : w.eng.panes = z.eng.panes := (congrArg Engines.panes weng).trans (congrArg Engines.panes eng)
  have pvalid : w.eng.pvalid = z.eng.pvalid := (congrArg Engines.pvalid weng).trans (congrArg Engines.pvalid eng)
  have free : w.eng.casFree = z.eng.casFree := (congrArg Engines.casFree weng).trans (congrArg Engines.casFree eng)
  have last : w.eng.casLast = z.eng.casLast := (congrArg Engines.casLast weng).trans (congrArg Engines.casLast eng)
  have idle : w.eng.casIdle = z.eng.casIdle := (congrArg Engines.casIdle weng).trans (congrArg Engines.casIdle eng)
  have zfree := congrArg Engines.casFree zrest
  have zlast := congrArg Engines.casLast zrest
  have zidle := congrArg Engines.casIdle zrest
  have zer := congrArg (fun z : State => z.er.casOps) inp.rest
  have wer := congrArg (fun z : State => z.er.casOps) rest
  have zengs := congrArg Engines.engs zrest
  refine ⟨fun k hk => ?_, ⟨same.spad, same.sill, same.dmem⟩, casementMoved_congr ?_ moved, ?_, free.trans zfree, last.trans zlast,
    idle.trans zidle, fun red conv bcst perm i hi c hc => ?_⟩
  · rw [panes, pvalid]
    exact inp.others k hk
  · unfold State.engine
    exact congrArg (fun m => SMap.look m Engine.init qCas) ((congrArg Engines.engs eng).trans zengs)
  · exact wer.trans (congrArg (· + 1) (ops.trans zer))
  · have el : w.paneEl op.dt (x.pane op.pd) i c = z.paneEl op.dt (x.pane op.pd) i c := by
      unfold State.paneEl
      rw [panes, pvalid]
    rw [el, elems red conv bcst perm]
    exact ((s.casBegun x op).paneEl_paneSets op.dt (x.pane op.pd) (f := fun q => ((s.casBegun x op).casEl x op q.1 q.2).1)
      (fun _ => rfl) (fun q hq => mem_panePos.mp hq) ⟨hi, hc⟩).trans (if_pos (mem_panePos.mpr ⟨hi, hc⟩))

/-! ### Fatal checks -/

/-- What a withdrawal of held requests and packets leaves of the engines, and of the entries that have a fault already. -/
structure Pulls (s s' : State) : Prop where
  eng : { s'.eng with lanes := s.eng.lanes, engs := s.eng.engs } = s.eng
  entries : ∀ u e, s.entry u = some e → e.errStatus ≠ 0 → ∃ e', s'.entry u = some e' ∧ e'.phase = e.phase ∧ e'.errStatus = e.errStatus

namespace Pulls

theorem of_eng {s s' : State} (h : s'.eng = s.eng) : Pulls s s' :=
  ⟨by rw [h], fun u e he _ => ⟨e, (State.entry_of_lanes (by rw [h]) u).trans he, rfl, rfl⟩⟩

theorem trans {a b c : State} (h : Pulls a b) (k : Pulls b c) : Pulls a c where
  eng := by rw [← h.eng, ← k.eng]
  entries := fun u e he ne => by
    obtain ⟨e1, h1, p1, q1⟩ := h.entries u e he ne
    obtain ⟨e2, h2, p2, q2⟩ := k.entries u e1 h1 (q1 ▸ ne)
    exact ⟨e2, h2, p2.trans p1, q2.trans q1⟩

theorem foldl {α : Type} {g : State → α → State} (hg : ∀ x a, Pulls x (g x a)) (l : List α) (s : State) : Pulls s (l.foldl g s) := by
  induction l generalizing s with
  | nil => exact of_eng rfl
  | cons a r ih => exact (hg s a).trans (ih (g s a))

/-- An entry with a fault keeps it, whatever is to fail it later (R219). -/
theorem _fail {e : Entry} (h : e.errStatus ≠ 0) (st : Nat) : (e.fail st).errStatus = e.errStatus := if_neg h

theorem modEntry (s : State) (uid : Nat) {g : Entry → Entry} (name : ∀ e, (g e).uid = e.uid) (phase : ∀ e, (g e).phase = e.phase)
    (fault : ∀ e : Entry, e.errStatus ≠ 0 → (g e).errStatus = e.errStatus) : Pulls s (s.modEntry uid g) := by
  refine ⟨rfl, fun u e he ne => ?_⟩
  rw [State.entry_modEntry _ _ _ name, he]
  split
  · exact ⟨g e, rfl, phase e, fault e ne⟩
  · exact ⟨e, rfl, rfl, rfl⟩

theorem engineOpen (s : State) (q u : Nat) : Pulls s (s.engineOpen q u) := by
  refine ⟨?_, fun v e he _ => ⟨e, (State.entry_of_lanes (State.engineOpen_lanes ..) v).trans he, rfl, rfl⟩⟩
  unfold State.engineOpen
  split <;> rfl

theorem withdrawReq (s : State) (r : JReq) : Pulls s (s.withdrawReq r) := by
  unfold State.withdrawReq
  split
  · exact modEntry s _ (fun _ => rfl) (fun _ => rfl) fun e h => _fail h _
  · unfold State.ckptWrote State.ckptSettle State.ckptDone State.goCleared
    dsimp only
    split
    · split
      · split <;> exact of_eng rfl
      · exact of_eng rfl
    · exact of_eng rfl
  · exact of_eng rfl

theorem withdrawSends (s : State) (uid : Nat) : Pulls s (s.withdrawSends uid) := by
  have unsent : Pulls s (s.unsend uid) := by
    unfold State.unsend
    refine foldl (fun x l => ?_) _ s
    have link : ∀ g, Pulls x (x.modLink l g) := fun g => of_eng rfl
    exact (link _).trans (modEntry _ uid (fun _ => rfl) (fun _ => rfl) fun _ _ => rfl)
  have marked := unsent.trans (modEntry _ uid (g := fun e => { (e.fail stRemoteFault) with formed := true }) (fun _ => rfl) (fun _ => rfl)
    fun e h => _fail h _)
  unfold State.withdrawSends
  generalize (s.unsend uid).modEntry uid _ = x at marked ⊢
  have door : ∀ d, Pulls x { x with door := d } := fun d => of_eng rfl
  dsimp only
  split
  · exact (marked.trans (door _)).trans (engineOpen _ _ _)
  · exact marked.trans (door _)

theorem withdrawHeld (s : State) : Pulls s s.withdrawHeld := by
  unfold State.withdrawHeld
  dsimp only
  have jamb : ∀ j, Pulls s { s with jamb := j } := fun j => of_eng rfl
  have link : ∀ (z : State) g, Pulls z ((List.range 6).foldl (fun s l => s.modLink l g) z) := fun z g => foldl (fun x l => by exact of_eng rfl) _ z
  exact (((jamb _).trans (foldl withdrawReq _ _)).trans (foldl withdrawSends _ _)).trans (link _ _)

end Pulls

theorem State.queueRelease_int (s : State) (q : Nat) : ∃ i, s.queueRelease q = { s with int := i } ∧ i.stat = s.int.stat := by
  unfold State.queueRelease
  split
  · exact ⟨_, rfl, rfl⟩
  · exact ⟨_, rfl, rfl⟩

theorem State.entryDone_frame (s : State) (u : Nat) :
    { s.entryDone u with eng := { (s.entryDone u).eng with lanes := s.eng.lanes, engs := s.eng.engs } } = s := by
  unfold State.entryDone
  split
  · rfl
  · unfold State.engineOpen
    split <;> rfl

/-- The unit in progress is left when it is the entry's. -/
def State.casLeft (s : State) (u : Nat) : State :=
  if (s.eng.cas.map fun r => r.uid) = some u then { s with eng := { s.eng with cas := none } } else s

theorem State.casLeft_effects (s : State) (u : Nat) : { s.casLeft u with eng := { (s.casLeft u).eng with cas := s.eng.cas } } = s ∧
    ((∀ r, s.eng.cas = some r → r.uid = u) → (s.casLeft u).eng.cas = none) := by
  unfold State.casLeft
  split
  · exact ⟨rfl, fun _ => rfl⟩
  next other =>
    refine ⟨rfl, fun mine => ?_⟩
    cases hc : s.eng.cas with
    | none => rfl
    | some r => exact absurd (by rw [hc, Option.map_some, mine r hc]) other

theorem State.casStop_eq {s : State} {u : Nat} {e : Entry} (h : s.entry u = some e) : s.casStop u =
    if e.phase = .running then ((s.modEntry u fun e => e.fail stCasementFault).casLeft u).entryDone u
    else s.modEntry u fun e => e.fail stCasementFault := by
  unfold State.casStop
  rw [h]
  rfl

/-- Whatever the entry, the Panes and the registers stand when its unit stops. -/
theorem State.casStop_frame (s : State) (u : Nat) :
    { s.casStop u with eng := { (s.casStop u).eng with cas := s.eng.cas, lanes := s.eng.lanes, engs := s.eng.engs } } = s := by
  cases h : s.entry u with
  | none =>
    unfold State.casStop
    rw [h]
  | some e =>
    rw [State.casStop_eq h]
    split
    · have left := (State.casLeft_effects (s.modEntry u fun e => e.fail stCasementFault) u).1
      have done := State.entryDone_frame ((s.modEntry u fun e => e.fail stCasementFault).casLeft u) u
      have rest := congrArg (fun z : State => { z with eng := { z.eng with cas := s.eng.cas, lanes := s.eng.lanes, engs := s.eng.engs } }) done
      exact rest.trans (congrArg (fun z : State => { z with eng := { z.eng with lanes := s.eng.lanes, engs := s.eng.engs } }) left)
    · rfl

/-- The unit of a running entry stops, and the entry ends with CASEMENT_FAULT (R150). -/
theorem State.casStop_stops {s : State} {u : Nat} {e : Entry} (h : s.entry u = some e) (running : e.phase = .running)
    (mine : ∀ r, s.eng.cas = some r → r.uid = u) : (s.casStop u).eng.cas = none ∧
      (s.casStop u).entry u = some { e.fail stCasementFault with phase := .finished } := by
  rw [State.casStop_eq h, if_pos running]
  obtain ⟨rest, left⟩ := State.casLeft_effects (s.modEntry u fun e => e.fail stCasementFault) u
  have done := State.entryDone_frame ((s.modEntry u fun e => e.fail stCasementFault).casLeft u) u
  have cas := congrArg (fun z : State => z.eng.cas) done
  refine ⟨cas.trans (left mine), ?_⟩
  have lanes := congrArg (fun z : State => z.eng.lanes) rest
  have named := State.entry_modEntry_same h (g := fun e => e.fail stCasementFault) fun _ => rfl
  exact State.entry_entryDone ((State.entry_of_lanes lanes u).trans named)

/-- The state of a fatal check once its unit has stopped, before the event. -/
def State.casHalted (s : State) (e : Entry) (d : BitVec 16) : State :=
  (((s.casFault e (casCause d) (bitsN d.toNat 5 5) (if casCause d = 3 then s.spareGroup else 0)).casStop e.uid).queueStop
    qCas).queueRelease qCas

theorem State.casFatal_event (s : State) (e : Entry) (d : BitVec 16) : ∃ z, OnlyLogs (s.casHalted e d) z ∧ z.int.stat.getLsbD 0 = true ∧
    s.casFatal e d = z.withdrawHeld := by
  obtain ⟨i, causeBit, fatal⟩ : ∃ i, i.causeBit = 0 ∧ s.casFatal e d = ((s.casHalted e d).integrity i).withdrawHeld := by
    unfold State.casFatal State.casDetect State.classS State.casHalted
    refine ⟨_, ?_, rfl⟩
    rfl
  refine ⟨_, OnlyLogs.of_integrity _ _, ?_, fatal⟩
  rw [(State.integrity_int _ _).1, causeBit]
  simp

/-- What stands of a state whose unit has stopped: all but the fault's record, the entries, the engines and the stopped queues. -/
theorem State.casHalted_frame (s : State) (e : Entry) (d : BitVec 16) : (s.casHalted e d).eng.panes = s.eng.panes ∧
    (s.casHalted e d).er = (s.casFault e (casCause d) (bitsN d.toNat 5 5) (if casCause d = 3 then s.spareGroup else 0)).er := by
  unfold State.casHalted
  generalize hf : s.casFault e (casCause d) (bitsN d.toNat 5 5) (if casCause d = 3 then s.spareGroup else 0) = f
  have feng : f.eng = s.eng := by rw [← hf]; rfl
  obtain ⟨i, hi, -⟩ := ((f.casStop e.uid).queueStop qCas).queueRelease_int qCas
  rw [hi]
  have frame := f.casStop_frame e.uid
  have panes := congrArg (fun z : State => z.eng.panes) frame
  have er := congrArg State.er frame
  exact ⟨panes.trans (congrArg Engines.panes feng), er⟩

/-- A fatal check of the arithmetic unit: the fault is recorded with its cause, the Panes stand, and it is a Class S detection
(R150, R151). -/
theorem State.casFatal_records (s : State) (e : Entry) (d : BitVec 16) :
    let s' := s.casFatal e d
    s'.eng.panes = s.eng.panes ∧ s'.er.casFaultPend = true ∧ s'.int.stat.getLsbD 0 = true ∧
    (d.toNat / 2 ^ 14 = 0 → s'.er.casFaultCause = 3 ∧ s'.er.casFaultGroup = BitVec.ofNat 5 (s.time.sinceCommit % 32)) := by
  intro s'
  obtain ⟨z, logs, stat, fatal⟩ := s.casFatal_event e d
  obtain ⟨panes, er⟩ := s.casHalted_frame e d
  obtain ⟨zeng, zer, -⟩ := logs.after
  have pulled := congrArg Engines.panes (Pulls.withdrawHeld z).eng
  have held := (Withdraws.withdrawHeld z).rest
  have wer : s'.er = z.er := by
    unfold s'
    rw [fatal]
    have h := congrArg State.er held
    exact h
  have wint : s'.int = z.int := by
    unfold s'
    rw [fatal]
    have h := congrArg State.int held
    exact h
  rw [wer, zer, er, wint]
  refine ⟨?_, rfl, stat, fun low => ?_⟩
  · unfold s'
    rw [fatal]
    exact (pulled.trans (congrArg Engines.panes zeng)).trans panes
  · have cause : casCause d = 3 := by
      unfold casCause
      rw [low]
      rfl
    rw [cause]
    exact ⟨rfl, rfl⟩

theorem State.casFatal_stops {s : State} {e : Entry} (h : s.entry e.uid = some e) (running : e.phase = .running)
    (mine : ∀ r, s.eng.cas = some r → r.uid = e.uid) (d : BitVec 16) : (s.casFatal e d).eng.cas = none ∧
      ∃ e', (s.casFatal e d).entry e.uid = some e' ∧ e'.phase = .finished ∧ e'.errStatus = (e.fail stCasementFault).errStatus := by
  obtain ⟨z, logs, -, fatal⟩ := s.casFatal_event e d
  have halted : (s.casHalted e d).eng.cas = none ∧
      (s.casHalted e d).entry e.uid = some { e.fail stCasementFault with phase := .finished } := by
    unfold State.casHalted
    generalize hf : s.casFault e (casCause d) (bitsN d.toNat 5 5) (if casCause d = 3 then s.spareGroup else 0) = f
    have feng : f.eng = s.eng := by rw [← hf]; rfl
    obtain ⟨i, hi, -⟩ := ((f.casStop e.uid).queueStop qCas).queueRelease_int qCas
    rw [hi]
    exact State.casStop_stops ((State.entry_of_lanes (congrArg Engines.lanes feng) _).trans h) running (feng ▸ mine)
  obtain ⟨zeng, -⟩ := logs.after
  have pulls := Pulls.withdrawHeld z
  rw [fatal]
  have cas := congrArg Engines.cas pulls.eng
  have faulty : ({ e.fail stCasementFault with phase := .finished } : Entry).errStatus ≠ 0 := by
    change (e.fail stCasementFault).errStatus ≠ 0
    unfold Entry.fail
    dsimp only
    split
    · decide
    · assumption
  obtain ⟨e', he', phase, err⟩ := pulls.entries e.uid _ ((State.entry_of_lanes (congrArg Engines.lanes zeng) _).trans halted.2) faulty
  exact ⟨cas.trans ((congrArg Engines.cas zeng).trans halted.1), e', he', phase, err⟩

/-- The unit in progress is the one whose operation comes next. -/
theorem State.casNext_entry {s : State} {r : CasRun} {x : CasAt} {op : CasOp} (h : s.casNext = some (r, x, op)) :
    s.eng.cas = some r ∧ x.e.uid = r.uid ∧ s.entry r.uid = some x.e := by
  unfold State.casNext at h
  split at h
  · cases h
  next r' hr =>
    split at h
    · cases h
    next e he =>
      split at h
      next u hu =>
        split at h
        · cases h
        · split at h
          next op' hop =>
            obtain ⟨rfl, rfl, rfl⟩ := by simpa using h
            have at' : (u.at e r'.iter op').e = e := by
              unfold CasUnit.at
              split <;> rfl
            rw [at']
            exact ⟨hr, State.uid_of_entry he, he⟩
          · cases h
      · cases h

theorem casementOperation : CasementOperation := by
  intro s r x op next port pd others bytes
  refine ⟨operationRuns next port, fun d running entry => ?_⟩
  obtain ⟨cas, uid, -⟩ := State.casNext_entry next
  obtain ⟨panes, pend, -, group⟩ := (s.casBegun x op).casFatal_records x.e d
  obtain ⟨stopped, ends⟩ := State.casFatal_stops (s := s.casBegun x op) entry running
    (fun r' h => by rw [uid]; exact congrArg CasRun.uid (Option.some.inj (h.symm.trans cas))) d
  have same : s.Same ((s.casBegun x op).casFatal x.e d) := State.casFatal_same _ _ ⟨rfl, rfl, rfl⟩
  exact .of_eq (execCasementOperationStart_eq next port (.fatal d)) rfl
    ⟨panes, ⟨same.spad, same.sill, same.dmem⟩, stopped, pend, group, ends⟩

theorem casementEnds : CasementEnds := by
  refine ⟨fun s e ending => ?_, fun s e op last => ?_⟩
  · obtain ⟨f, hf⟩ : ∃ f, s.entry e.uid = some f := by
      have : (s.eng.lanes.find? fun x => decide (x.uid = e.uid)).isSome = true :=
        List.find?_isSome.mpr ⟨e, List.mem_of_find?_eq_some ending, decide_eq_true rfl⟩
      exact Option.isSome_iff_exists.mp this
    have frame := s.entryDone_frame e.uid
    have panes := congrArg (fun z : State => z.eng.panes) frame
    have spad := congrArg (fun z : State => z.eng.spad) frame
    refine .of_eq (z := s.entryDone e.uid) ?_ rfl ⟨⟨_, State.entry_entryDone hf, rfl⟩, panes, spad, fun running queue named => ?_⟩
    · change execCasementUnitComplete s = _
      unfold execCasementUnitComplete
      rw [ending]
    · unfold State.entryDone
      rw [named]
      dsimp only
      rw [queue]
      exact ((State.engineOpen_effects (s.modEntry e.uid fun e => { e with phase := .finished }) qCas e.uid).2.1 running).1
  · intro replays
    have cycle : s.replayCycle = true ↔ replays := by
      unfold State.replayCycle
      simp [replays, and_assoc]
    refine ⟨fun h => ⟨?_, fun d small => ?_⟩, fun h u => ?_⟩
    · refine .of_eq (z := s.casBusy) ?_ rfl rfl
      change execIdleReplay .clean s = _
      unfold execIdleReplay
      rw [last]
      simp [cycle.mpr h]
    · obtain ⟨panes, pend, stat, group⟩ := s.casBusy.casFatal_records e d
      refine .of_eq (z := s.casBusy.casFatal e d) ?_ rfl ?_
      · change execIdleReplay (.fatal d) s = _
        unfold execIdleReplay
        rw [last]
        simp [cycle.mpr h]
      · obtain ⟨cause, group⟩ := group (Nat.div_eq_of_lt small)
        exact ⟨pend, cause, group, panes, stat⟩
    · refine .of_eq (z := s) ?_ rfl rfl
      change execIdleReplay u s = _
      unfold execIdleReplay
      rw [last]
      simp [mt cycle.mp h]

/-- Settles O35: an operation writes its Pane and moves its unit on, and a fatal check stops the unit. -/
theorem casementArithmetic : Obligations.CasementArithmetic := ⟨casementOperation, casementEnds⟩

end Sys2Proof.Machine
end

/-! PROOFS. The port of the Casement (spec/06): O36. -/

section
namespace Sys2Proof.Machine

/-- The engines stand but for the bytes and the records of the entries. -/
def EnginesStand (s s' : State) : Prop :=
  { s'.eng with spad := s.eng.spad, sill := s.eng.sill, sillSet := s.eng.sillSet, lanes := s.eng.lanes } = s.eng

theorem EnginesStand.trans {a b c : State} (h : EnginesStand a b) (k : EnginesStand b c) : EnginesStand a c := by
  unfold EnginesStand at *
  rw [← h, ← k]

theorem EnginesStand.of_eng {s s' : State} (h : s'.eng = s.eng) : EnginesStand s s' := by
  unfold EnginesStand
  rw [h]

theorem EnginesStand.panes {s s' : State} (h : EnginesStand s s') :
    s'.eng.panes = s.eng.panes ∧ s'.eng.pvalid = s.eng.pvalid ∧ s'.engine qCas = s.engine qCas := by
  have panes := congrArg Engines.panes h
  have pvalid := congrArg Engines.pvalid h
  have engs := congrArg Engines.engs h
  exact ⟨panes, pvalid, congrArg (fun m => SMap.look m Engine.init qCas) engs⟩

theorem Stores.enginesStand {k : Nat} {as : Nat → Prop} {s s' : State} (h : Stores k as s s') : EnginesStand s s' := by
  have eng := congrArg State.eng h.rest
  exact eng

/-! ### Loads -/

theorem State.ldOne_place (s : State) (x : CasAt) (d : Desc) (p dt r c : Nat) :
    ((s.ldOne x d p dt r c).1.r, (s.ldOne x d p dt r c).1.c) = (r, c) := by
  unfold State.ldOne
  dsimp only
  split
  · rfl
  · split
    · rfl
    · split <;> rfl

/-- A load: its Pane takes what R141 says, and the flags are raised. -/
theorem State.casLd_pane (s : State) (x : CasAt) (op : CasOp) (o : Opnd) :
    let s' := s.casLd x op o
    s'.engine qCas = s.engine qCas ∧
    ∀ i < 32, ∀ c < paneCols op.dt, s'.paneEl op.dt (x.pane op.pd) i c = (s.ldOne x o.desc (x.e.prop o.handle) op.dt i c).1.read op.dt := by
  intro s'
  let y := s.readShut o.desc (((panePos op.dt).map fun q => x.coord o.desc op.dt q.1 q.2).filter fun q => takes o.desc q)
  let f := fun q : Nat × Nat => (s.ldOne x o.desc (x.e.prop o.handle) op.dt q.1 q.2).1
  have shape : ∃ g, s' = (y.paneSets op.dt (x.pane op.pd) ((panePos op.dt).map f)).casRaise x.e.stream x.e.ctx x.e.iseq g := by
    refine ⟨flagsAny (((panePos op.dt).map fun q => s.ldOne x o.desc (x.e.prop o.handle) op.dt q.1 q.2).map fun r => r.2), ?_⟩
    change s.casLd x op o = _
    unfold State.casLd
    dsimp only
    rw [List.map_map]
    rfl
  obtain ⟨g, shape⟩ := shape
  obtain ⟨eng, -⟩ := (y.paneSets op.dt (x.pane op.pd) ((panePos op.dt).map f)).casRaise_leaves x.e.stream x.e.ctx x.e.iseq g
  rw [← shape] at eng
  have place : ∀ q, ((f q).r, (f q).c) = q := fun q => s.ldOne_place x o.desc (x.e.prop o.handle) op.dt q.1 q.2
  have inp := y.paneSets_inPane op.dt (x.pane op.pd) (os := (panePos op.dt).map f) (by
    intro w hw
    obtain ⟨q, hq, rfl⟩ := List.mem_map.mp hw
    have h := mem_panePos.mp hq
    rwa [← place q] at h)
  have yengs := congrArg (fun z : State => z.eng.engs) (s.readShut_stores (k := 0) (as := fun _ => False) o.desc
    (((panePos op.dt).map fun q => x.coord o.desc op.dt q.1 q.2).filter fun q => takes o.desc q)).rest
  refine ⟨?_, fun i hi c hc => ?_⟩
  · unfold State.engine
    have engs := congrArg (fun z : State => z.eng.engs) inp.rest
    exact congrArg (fun m => SMap.look m Engine.init qCas) ((congrArg Engines.engs eng).trans (engs.trans yengs))
  · have el : s'.paneEl op.dt (x.pane op.pd) i c = (y.paneSets op.dt (x.pane op.pd) ((panePos op.dt).map f)).paneEl op.dt (x.pane op.pd) i c := by
      unfold State.paneEl
      rw [eng]
    rw [el]
    exact (y.paneEl_paneSets op.dt (x.pane op.pd) place (fun q hq => mem_panePos.mp hq) ⟨hi, hc⟩).trans
      (if_pos (mem_panePos.mpr ⟨hi, hc⟩))

/-! ### Stores -/

/-- An ST whose values are stored: the bits or the narrowed values (R142). -/
def State.stWrites (s : State) (x : CasAt) (op : CasOp) (o : Opnd) : List BitWrite :=
  if op.dt = 1 then (s.stElems x op o.desc).map fun q => elemWrite o.desc q.1 q.2
  else (narrowWrites o.desc (x.e.prop o.handle)
    ((s.stElems x op o.desc).map fun q => { x := q.1, v := lFP32.decode q.2, u := s.stU x op o q.1 })).1

theorem State.stWrites_ofTensor (s : State) (x : CasAt) (op : CasOp) (o : Opnd) :
    ∀ w ∈ s.stWrites x op o, w.ofTensor o.desc (takes o.desc) := by
  intro w hw
  unfold State.stWrites at hw
  split at hw
  · obtain ⟨q, hq, rfl⟩ := List.mem_map.mp hw
    have taken := (List.mem_filter.mp hq).2
    exact elemWrite_ofTensor (coords_of_takes taken) taken _
  · exact narrowWrites_ofTensor _ _ _ w hw

/-- An ST that stores: the Louvre sees the values, they are written, the copies of the Louvre are compared, and flags are raised. -/
theorem State.casSt_shape {s : State} {x : CasAt} {op : CasOp} (o : Opnd) (h : x.inLoop = false ∨ op.pc % 2 ≠ 1 ∨ x.last = true) :
    ∃ vs f, s.casSt x op o = (((s.louvreSees x.e.uid o false vs).writeAll x.e.uid op.pa o.desc (s.stWrites x op o)).egressCheck
      x.e o.desc stCasementFault).casRaise x.e.stream x.e.ctx x.e.iseq f := by
  have stores : ¬(x.inLoop && decide (op.pc % 2 = 1) && !x.last) = true := by
    rcases h with h | h | h <;> simp [h]
  unfold State.casSt State.stWrites
  rw [if_neg stores]
  by_cases one : op.dt = 1
  · simp only [if_pos one]
    exact ⟨_, _, rfl⟩
  · simp only [if_neg one]
    exact ⟨_, _, rfl⟩

/-- An ST behind the last pass of a reduction only stores nothing before it. -/
theorem State.casSt_waits {s : State} {x : CasAt} {op : CasOp} {o : Opnd} (loop : x.inLoop = true) (odd : op.pc % 2 = 1)
    (last : x.last = false) : s.casSt x op o = s := by
  unfold State.casSt
  exact if_pos (by simp [loop, odd, last])

/-- The comparison of the egress Louvre's copies touches no queue and no engine; a mismatch is a Class S detection and the
entry's fault (16 R380, R388). -/
theorem State.egressCheck_effects (s : State) (e : Entry) (d : Desc) (st : Nat) :
    EnginesStand s (s.egressCheck e d st) ∧ (s.egressCheck e d st).int.qstop = s.int.qstop ∧
    ∀ det, d.lvEn = true → s.upsetAt .louvre = .fatal det → (s.egressCheck e d st).int.stat.getLsbD 0 = true ∧
      ∀ f, s.entry e.uid = some f → (s.egressCheck e d st).entry e.uid = some (f.fail st) := by
  unfold State.egressCheck
  split
  next off => exact ⟨.of_eng rfl, rfl, fun det on => absurd on (by simpa using off)⟩
  · split
    next clean => exact ⟨.of_eng rfl, rfl, fun det _ fatal => absurd (clean.symm.trans fatal) nofun⟩
    next corr => exact ⟨.of_eng rfl, rfl, fun det _ fatal => absurd (corr.symm.trans fatal) nofun⟩
    next det' fatal' =>
      have logs : OnlyLogs ((s.struck .louvre).modEntry e.uid fun e => e.fail st)
          (((s.struck .louvre).modEntry e.uid fun e => e.fail st).classS mechLouvre e st det') := .of_integrity _ _
      obtain ⟨eng, -, qstop, -⟩ := logs.after
      refine ⟨EnginesStand.trans (b := (s.struck .louvre).modEntry e.uid fun e => e.fail st) rfl (.of_eng eng), qstop,
        fun det _ _ => ⟨?_, fun f hf => ?_⟩⟩
      · unfold State.classS
        rw [(State.integrity_int _ _).1]
        simp
      · rw [State.entry_of_lanes (congrArg Engines.lanes eng)]
        exact State.entry_modEntry_same (s := s.struck .louvre) hf fun _ => rfl

theorem State.casRaise_stat (s : State) (t : Thread) (ctx : Nat) (iseq : BitVec 32) (f : Flags) (k : Nat)
    (h : s.int.stat.getLsbD k = true) : (s.casRaise t ctx iseq f).int.stat.getLsbD k = true := by
  unfold State.casRaise State.alarmFlags
  dsimp only
  split
  · exact h
  · split
    · exact h
    · rw [(State.integrity_int _ _).1]
      simp only [BitVec.getLsbD_or, Bool.or_eq_true]
      exact .inl (.inl h)

/-- What an ST that stores leaves: its writes alone in the byte stores, and the engines but for its entry. -/
theorem State.casSt_effects {s : State} {x : CasAt} {op : CasOp} (o : Opnd) (h : x.inLoop = false ∨ op.pc % 2 ≠ 1 ∨ x.last = true) :
    OnlyTensor o.desc (takes o.desc) s (s.casSt x op o) ∧ EnginesStand s (s.casSt x op o) ∧
    (s.casSt x op o).eng.spad = (s.writeAll x.e.uid op.pa o.desc (s.stWrites x op o)).eng.spad ∧
    (s.casSt x op o).int.qstop = s.int.qstop ∧
    ∀ d, o.desc.lvEn = true → s.upsetAt .louvre = .fatal d → s.entry x.e.uid = some x.e → x.e.errStatus = 0 →
      (s.casSt x op o).int.stat.getLsbD 0 = true ∧
      ∃ e, (s.casSt x op o).entry x.e.uid = some e ∧ e.errStatus = stCasementFault := by
  obtain ⟨vs, f, shape⟩ := State.casSt_shape (s := s) o h
  have stores := (s.louvreSees_stores (k := o.desc.space) (as := (· ∈ tensorAddrs o.desc (takes o.desc))) x.e.uid o false vs).trans
    (State.writeAll_tensor _ x.e.uid op.pa (s.stWrites_ofTensor x op o))
  have alike := (s.louvreSees_alike x.e.uid o false vs).writeAll x.e.uid x.e.uid op.pa op.pa o.desc (s.stWrites x op o)
  generalize (s.louvreSees x.e.uid o false vs).writeAll x.e.uid op.pa o.desc (s.stWrites x op o) = z at *
  have same : z.Same (s.casSt x op o) := by
    rw [shape]
    exact State.casRaise_same _ _ _ _ (State.egressCheck_same _ _ _ (.refl z))
  obtain ⟨stand, qstop, fatal⟩ := z.egressCheck_effects x.e o.desc stCasementFault
  obtain ⟨eng, -, qstop'⟩ := (z.egressCheck x.e o.desc stCasementFault).casRaise_leaves x.e.stream x.e.ctx x.e.iseq f
  have zq := congrArg (fun z : State => z.int.qstop) stores.rest
  refine ⟨stores.onlyTensor.trans_same same, ?_, same.spad.trans alike.spad, ?_, fun d on up entry ok => ?_⟩
  · rw [shape]
    exact (stores.enginesStand.trans stand).trans (.of_eng eng)
  · rw [shape]
    exact (qstop'.trans qstop).trans zq
  · have strikes := congrArg (fun z : State => z.int.strikes) stores.rest
    have up' : z.upsetAt .louvre = .fatal d := by
      rw [← up]
      unfold State.upsetAt
      exact congrArg (fun l : List Strike => match l.find? fun x => x.site = .louvre with | some x => x.upset | none => .clean) strikes
    obtain ⟨e', entry', written⟩ := stores.entries _ _ entry
    obtain ⟨stat, fails⟩ := fatal d on up'
    have ok' : e'.errStatus = 0 := by
      have h := congrArg Entry.errStatus written
      exact h.trans ok
    rw [shape]
    refine ⟨State.casRaise_stat _ _ _ _ _ 0 stat, _, (State.entry_of_lanes (congrArg Engines.lanes eng) _).trans (fails e' entry'), ?_⟩
    unfold Entry.fail
    exact if_pos ok'

/-- The 32-bit elements of an ST are words, whose values are those of their bits. -/
theorem State.stWrites_words {s : State} {x : CasAt} {op : CasOp} (o : Opnd) (h : op.dt ≠ 1) : s.stWrites x op o =
    (narrowWrites o.desc (x.e.prop o.handle)
      ((s.stElems x op o.desc).map fun q => ({ x := q.1, v := val32 (w32 q.2), u := s.stU x op o q.1 } : Item))).1 := by
  unfold State.stWrites
  rw [if_neg h]
  congr 2
  refine List.map_congr_left fun q hq => ?_
  obtain ⟨p, hp, rfl⟩ := List.mem_map.mp (List.mem_filter.mp hq).1
  have word : (s.paneEl op.dt (x.pane op.pd) p.1 p.2).1 < 2 ^ 32 := by
    unfold State.paneEl
    rw [if_neg h]
    exact BitVec.isLt _
  unfold val32 w32
  rw [BitVec.toNat_ofNat, Nat.mod_eq_of_lt word]

theorem State.paneEl_congr {s s' : State} (panes : s'.eng.panes = s.eng.panes) (pvalid : s'.eng.pvalid = s.eng.pvalid) (dt pane r c : Nat) :
    s'.paneEl dt pane r c = s.paneEl dt pane r c := by
  unfold State.paneEl
  rw [panes, pvalid]

/-- The unit's next place leaves the Panes, the entries and the integrity registers as they are. -/
theorem State.casStep_leaves (s : State) (r : CasRun) (u : CasUnit) : (s.casStep r u).eng.panes = s.eng.panes ∧
    (s.casStep r u).eng.pvalid = s.eng.pvalid ∧ (s.casStep r u).eng.lanes = s.eng.lanes ∧ (s.casStep r u).int = s.int := by
  have rest := (s.casStep_moves r u).2
  have panes := congrArg (fun z : State => z.eng.panes) rest
  have pvalid := congrArg (fun z : State => z.eng.pvalid) rest
  have lanes := congrArg (fun z : State => z.eng.lanes) rest
  have int := congrArg (fun z : State => z.int) rest
  exact ⟨panes, pvalid, lanes, int⟩

theorem State.casLoaded_engine (s : State) (x : CasAt) (op : CasOp) (q : Nat) : (s.casLoaded x op).engine q = s.engine q := rfl

theorem State.casLoaded_paneEl (s : State) (x : CasAt) (op : CasOp) (dt pane r c : Nat) :
    (s.casLoaded x op).paneEl dt pane r c = s.paneEl dt pane r c := rfl

/-- Settles O36: a load changes its Pane, a store the bytes of its tensor, and the unit moves on behind either. -/
theorem casementPort : Obligations.CasementPort := by
  intro s r x op o next opnd
  refine ⟨fun load => ?_, fun store => ?_⟩
  · have run : exec (.casementPortAccess .clean) s = .next (((s.casLd x op o).casLoaded x op).casStep r x.u) := by
      change execCasementPortAccess .clean s = _
      unfold execCasementPortAccess
      rw [next]
      simp [opnd, load, CasOp.isPort]
    have same : s.Same (((s.casLd x op o).casLoaded x op).casStep r x.u) :=
      State.casStep_same _ _ (State.casLoaded_same _ _ (State.casLd_same _ _ _ (.refl s)))
    obtain ⟨engine, elems⟩ := s.casLd_pane x op o
    have moved := (((s.casLd x op o).casLoaded x op).casStep_moves r x.u).1
    obtain ⟨panes, pvalid, -⟩ := ((s.casLd x op o).casLoaded x op).casStep_leaves r x.u
    refine .of_eq run rfl ⟨same.spad, same.sill, 
      casementMoved_congr ((State.casLoaded_engine ..).trans engine) moved, fun i hi c hc => ?_⟩
    rw [State.paneEl_congr panes pvalid, State.casLoaded_paneEl]
    exact elems i hi c hc
  · have run : exec (.casementPortAccess .clean) s = .next ((s.casSt x op o).casStep r x.u) := by
      change execCasementPortAccess .clean s = _
      unfold execCasementPortAccess
      rw [next]
      simp [opnd, store, CasOp.isPort]
    have stepSame : (s.casSt x op o).Same ((s.casSt x op o).casStep r x.u) := State.casStep_same _ _ (.refl _)
    have moved := ((s.casSt x op o).casStep_moves r x.u).1
    obtain ⟨panes, pvalid, lanes, int⟩ := (s.casSt x op o).casStep_leaves r x.u
    have waits : x.inLoop = true → op.pc % 2 = 1 → x.last = false → s.casSt x op o = s := State.casSt_waits
    have decides : (x.inLoop = true ∧ op.pc % 2 = 1 ∧ x.last = false) ∨ (x.inLoop = false ∨ op.pc % 2 ≠ 1 ∨ x.last = true) := by
      cases x.inLoop <;> cases x.last <;> by_cases op.pc % 2 = 1 <;> simp [*]
    have standing : OnlyTensor o.desc (takes o.desc) s (s.casSt x op o) ∧ EnginesStand s (s.casSt x op o) := by
      rcases decides with ⟨loop, odd, last⟩ | h
      · rw [waits loop odd last]
        exact ⟨⟨fun _ _ => rfl, fun _ _ => rfl, rfl⟩, .of_eng rfl⟩
      · exact ⟨(State.casSt_effects o h).1, (State.casSt_effects o h).2.1⟩
    obtain ⟨standPanes, standValid, engine⟩ := standing.2.panes
    refine .of_eq run rfl ⟨panes.trans standPanes, pvalid.trans standValid, standing.1.trans_same stepSame,
      casementMoved_congr engine moved, fun loop odd last => ?_, fun dt h => ?_, fun on h d up entry ok _ => ?_⟩
    · have still : s.Same ((s.casSt x op o).casStep r x.u) := by
        rw [waits loop odd last]
        exact State.casStep_same _ _ (.refl s)
      exact ⟨still.spad, still.sill⟩
    · intro els
      rw [stepSame.spad, (State.casSt_effects o h).2.2.1, State.stWrites_words o dt]
    · obtain ⟨-, -, -, qstop, fatal⟩ := State.casSt_effects (s := s) o h
      obtain ⟨stat, e, entry', err⟩ := fatal d on up entry ok
      rw [int]
      exact ⟨qstop, stat, e, (State.entry_of_lanes lanes _).trans entry', err⟩

end Sys2Proof.Machine
end

/-! PROOFS. The read-out of the Sill (spec/05): O38. -/

section
namespace Sys2Proof.Machine

/-! ### What is cleared -/

/-- One word of the Sill is cleared. -/
def sillWordClear (m : Mem) (w : Nat) : Mem := (List.range 4).foldl (fun m i => SMap.put m 0 (4 * w + i) 0) m

theorem look_sillWordClear (m : Mem) (w a : Nat) : SMap.look (sillWordClear m w) 0 a = if a / 4 = w then 0 else SMap.look m 0 a := by
  change SMap.look (SMap.put (SMap.put (SMap.put (SMap.put m 0 (4 * w + 0) 0) 0 (4 * w + 1) 0) 0 (4 * w + 2) 0) 0 (4 * w + 3) 0) 0 a = _
  simp only [SMap.look_put]
  by_cases h : a / 4 = w
  · have four : a = 4 * w + 0 ∨ a = 4 * w + 1 ∨ a = 4 * w + 2 ∨ a = 4 * w + 3 := by omega
    rw [if_pos h]
    rcases four with h | h | h | h <;> simp [h]
  · have first : a ≠ 4 * w := by omega
    have apart : ∀ i < 4, a ≠ 4 * w + i := by omega
    simp [h, first, apart 1, apart 2, apart 3]

theorem look_foldl_sillWordClear (ws : List Nat) (m : Mem) (a : Nat) :
    SMap.look (ws.foldl sillWordClear m) 0 a = if a / 4 ∈ ws then 0 else SMap.look m 0 a := by
  induction ws generalizing m with
  | nil => rfl
  | cons w ws ih =>
    rw [List.foldl_cons, ih, look_sillWordClear]
    by_cases h : a / 4 = w <;> simp [h]

theorem mem_foldl_insertNat {α : Type} (f : α → Nat) (as : List α) (l : List Nat) (y : Nat) :
    y ∈ as.foldl (fun l a => insertNat (f a) l) l ↔ y ∈ as.map f ∨ y ∈ l := by
  induction as generalizing l with
  | nil => simp
  | cons a as ih =>
    rw [List.foldl_cons, ih, mem_insertNat, List.map_cons, List.mem_cons]
    tauto

/-- The words that are read out are zero in the Sill afterwards, and no other byte of it changes (R115). -/
theorem State.look_sillClear (s : State) (as : List Nat) (a : Nat) :
    SMap.look (s.sillClear as).eng.sill 0 a = if a / 4 ∈ as.map (· / 4) then 0 else SMap.look s.eng.sill 0 a := by
  refine (look_foldl_sillWordClear _ s.eng.sill a).trans ?_
  simp [mem_foldl_insertNat]

theorem State.sillTake_lit {s : State} (lit : s.sillDark = false) (hs : Desc) (xs : List Coord) :
    s.sillTake hs xs = s.sillClear (xs.map fun x => (elemAddr hs x).1) := if_neg (by rw [lit]; nofun)

/-! ### What is formed before -/

/-- A read-out forms its requests: no byte of the block and no switch changes, and the entry `u` stays neither aborted nor failed. -/
structure Forms (u : Nat) (s s' : State) : Prop where
  same : s.Same s'
  pwr : s'.pwr = s.pwr
  entry : ∀ e, s.entry u = some e → ∃ e', s'.entry u = some e' ∧ e'.aborted = e.aborted ∧ e'.errStatus = e.errStatus

namespace Forms

variable {u : Nat}

theorem refl (s : State) : Forms u s s := ⟨.refl s, rfl, fun e h => ⟨e, h, rfl, rfl⟩⟩

theorem trans {a b c : State} (h : Forms u a b) (k : Forms u b c) : Forms u a c where
  same := h.same.trans k.same
  pwr := k.pwr.trans h.pwr
  entry := fun e he => by
    obtain ⟨e1, h1, a1, f1⟩ := h.entry e he
    obtain ⟨e2, h2, a2, f2⟩ := k.entry e1 h1
    exact ⟨e2, h2, a2.trans a1, f2.trans f1⟩

theorem of_lanes {s s' : State} (same : s.Same s') (pwr : s'.pwr = s.pwr) (lanes : s'.eng.lanes = s.eng.lanes) : Forms u s s' :=
  ⟨same, pwr, fun e h => ⟨e, (State.entry_of_lanes lanes u).trans h, rfl, rfl⟩⟩

theorem modEntry (s : State) {g : Entry → Entry} (id : ∀ e, (g e).uid = e.uid) (ab : ∀ e, (g e).aborted = e.aborted)
    (er : ∀ e, (g e).errStatus = e.errStatus) : Forms u s (s.modEntry u g) :=
  ⟨State.modEntry_same _ _ (.refl s), rfl, fun e h => ⟨g e, State.entry_modEntry_same h id, ab e, er e⟩⟩

theorem foldl {α : Type} {g : State → α → State} {l : List α} (h : ∀ s x, Forms u s (g s x)) (s : State) : Forms u s (l.foldl g s) := by
  induction l generalizing s with
  | nil => exact refl s
  | cons x l ih => exact (h s x).trans (ih (g s x))

theorem jambAdd (s : State) (rs : List JReq) : Forms u s (s.jambAdd rs) := of_lanes ⟨rfl, rfl, rfl⟩ rfl rfl

theorem askReads (s : State) (as : List Nat) : Forms u s (s.askReads u as) := by
  unfold State.askReads
  split
  · exact refl s
  · refine trans (b := s.modEntry u _) (modEntry s ?_ ?_ ?_) (jambAdd ..) <;> exact fun _ => rfl

theorem emitOut (s : State) (held : Bool) : Forms u s (s.emitOut u held) := by
  unfold State.emitOut
  split
  · exact refl s
  · refine trans (b := s.modEntry u _) (modEntry s ?_ ?_ ?_) (jambAdd ..) <;> exact fun _ => rfl

theorem of_logs {s s' : State} (h : OnlyLogs s s') : Forms u s s' := by
  have eng := congrArg State.eng h.rest
  have pwr := congrArg State.pwr h.rest
  have dmem := congrArg Sash.dmem h.sash
  exact of_lanes ⟨congrArg Engines.spad eng, congrArg Engines.sill eng, dmem⟩ pwr (congrArg Engines.lanes eng)

theorem alarmFlags (s : State) (f : Flags) (stream ctx queue : Nat) (iseq : BitVec 32) : Forms u s (s.alarmFlags f stream ctx queue iseq) := by
  unfold State.alarmFlags
  split
  · exact refl _
  · exact of_logs (.of_integrity ..)

theorem jambRaise (s : State) (e : Entry) (f : Flags) : Forms u s (s.jambRaise e f) := by
  unfold State.jambRaise
  dsimp only
  split
  · exact refl s
  · have noted : ∀ j, Forms u s { s with jamb := j } := fun j => of_lanes ⟨rfl, rfl, rfl⟩ rfl rfl
    exact trans (noted _) (alarmFlags ..)

theorem addSquares (s : State) (e : Entry) (acc : Option Nat) (vs : List Val) : Forms u s (s.addSquares e acc vs) := by
  cases acc <;> exact of_lanes ⟨rfl, rfl, rfl⟩ rfl rfl

end Forms

/-- Writes that reach no byte of the block form requests only. -/
theorem Stores.pwr {k : Nat} {as : Nat → Prop} {s s' : State} (h : Stores k as s s') : s'.pwr = s.pwr := by
  have pwr := congrArg State.pwr h.rest
  exact pwr

theorem Stores.entry_status {k : Nat} {as : Nat → Prop} {s s' : State} (h : Stores k as s s') (u : Nat) (e : Entry)
    (he : s.entry u = some e) : ∃ e', s'.entry u = some e' ∧ e'.aborted = e.aborted ∧ e'.errStatus = e.errStatus := by
  obtain ⟨e', he', w⟩ := h.entries u e he
  have ab := congrArg Entry.aborted w
  have er := congrArg Entry.errStatus w
  exact ⟨e', he', ab, er⟩

theorem Stores.forms {as : Nat → Prop} {s s' : State} (h : Stores 0 as s s') (same : s.Same s') (u : Nat) : Forms u s s' :=
  ⟨same, h.pwr, h.entry_status u⟩

theorem State.noteSums_forms (s : State) (u : Nat) (vs : List (Nat × BitVec 32)) : Forms u s (s.noteSums u vs) :=
  .foldl (fun s _ => (s.noteWrite_stores (as := fun _ => False) ..).forms (State.noteWrite_same _ _ _ (.refl s)) u) s

/-- Only entries and their engines have moved on. -/
def LanesMove (s s' : State) : Prop := { s' with eng := { s'.eng with lanes := s.eng.lanes, engs := s.eng.engs } } = s

theorem LanesMove.fields {s s' : State} (frame : LanesMove s s') :
    s.Same s' ∧ s'.pwr = s.pwr ∧ s'.jamb = s.jamb ∧ s'.int = s.int := by
  have spad := congrArg (fun z : State => z.eng.spad) frame
  have sill := congrArg (fun z : State => z.eng.sill) frame
  have dmem := congrArg (fun z : State => z.sash.dmem) frame
  have pwr := congrArg State.pwr frame
  have jamb := congrArg State.jamb frame
  have int := congrArg State.int frame
  exact ⟨⟨spad, sill, dmem⟩, pwr, jamb, int⟩

/-- Neither aborted nor failed, an entry that has nothing outstanding ends, and no byte changes. -/
theorem State.entrySettle_clean {s : State} {u : Nat} {e : Entry} (entry : s.entry u = some e) (a : e.aborted = false)
    (f : e.errStatus ≠ stMemoryFault) (g : e.errStatus ≠ stTransomFault) :
    (s.Same (s.entrySettle u) ∧ (s.entrySettle u).pwr = s.pwr ∧ (s.entrySettle u).jamb = s.jamb ∧ (s.entrySettle u).int = s.int) ∧
      ∃ e', (s.entrySettle u).entry u = some e' ∧ e'.errStatus = e.errStatus := by
  unfold State.entrySettle
  rw [entry]
  dsimp only
  split
  · rw [State.entryEnd_clean entry a f g]
    exact ⟨LanesMove.fields (s.entryDone_frame u), _, State.entry_entryDone entry, rfl⟩
  · exact ⟨⟨.refl s, rfl, rfl, rfl⟩, e, entry, rfl⟩

/-- Behind the requests of a read-out without a fault, the settling of the entry changes no byte. -/
theorem Forms.settled {u : Nat} {e : Entry} {s s' : State} (h : Forms u s s') (entry : s.entry u = some e) (a : e.aborted = false)
    (f : e.errStatus = 0) : s.Same (s'.entrySettle u) ∧ (s'.entrySettle u).pwr = s.pwr := by
  obtain ⟨e', entry', ab, er⟩ := h.entry e entry
  obtain ⟨⟨same, pwr, -, -⟩, -⟩ := State.entrySettle_clean entry' (ab.trans a) (by rw [er, f]; decide) (by rw [er, f]; decide)
  exact ⟨h.same.trans same, pwr.trans h.pwr⟩

/-! ### Spills -/

/-- A spill forms its requests and changes no byte, unless the copies of the ALU disagree. -/
theorem State.spillOut_same {s : State} {e : Entry} (entry : s.entry e.uid = some e) (a : e.aborted = false) (f : e.errStatus = 0)
    (hs hm : Desc) (store : Bool) (xs : List Coord) (sound : store = true → s.aluBad = false) :
    s.Same (s.spillOut e hs hm store xs) ∧ (s.spillOut e hs hm store xs).pwr = s.pwr := by
  unfold State.spillOut
  cases store with
  | true =>
    rw [if_neg (by rw [sound rfl]; nofun), if_pos rfl]
    refine Forms.settled ?_ entry a f
    refine .trans (.trans ?_ (State.noteSums_forms ..)) (.emitOut ..)
    refine .trans (b := s.modEntry e.uid _) (.modEntry s ?_ ?_ ?_) (.jambRaise ..) <;> exact fun _ => rfl
  | false =>
    rw [if_neg (by nofun), if_neg (by nofun)]
    refine Forms.settled ?_ entry a f
    refine .trans (b := s.modEntry e.uid _) (.modEntry s ?_ ?_ ?_) (.askReads ..) <;> exact fun _ => rfl

/-- The entry of a spill STORE takes SPILL_FAULT. -/
def State.aluFailed (s : State) (e : Entry) : State :=
  (s.struck .alu).modEntry e.uid fun e => { (e.fail stSpillFault) with formed := true }

/-- A spill STORE whose values the copies of the ALU do not agree on (R334, R383). -/
theorem State.spillAlu_effects {s : State} {e : Entry} (entry : s.entry e.uid = some e) (a : e.aborted = false) (f : e.errStatus = 0) :
    s.Same (s.spillAlu e) ∧ (s.spillAlu e).pwr = s.pwr ∧ (s.spillAlu e).jamb = s.jamb ∧ (s.spillAlu e).int.stat.getLsbD 0 = true ∧
      ∃ e', (s.spillAlu e).entry e.uid = some e' ∧ e'.errStatus = stSpillFault := by
  obtain ⟨d, shape⟩ : ∃ d, s.spillAlu e = ((s.aluFailed e).classS mechNearMem e stSpillFault d).entrySettle e.uid := ⟨_, rfl⟩
  rw [shape]
  have logs : OnlyLogs (s.aluFailed e) ((s.aluFailed e).classS mechNearMem e stSpillFault d) := .of_integrity _ _
  have stat : ((s.aluFailed e).classS mechNearMem e stSpillFault d).int.stat.getLsbD 0 = true := by
    unfold State.classS
    rw [(State.integrity_int _ _).1]
    simp
  generalize (s.aluFailed e).classS mechNearMem e stSpillFault d = z at logs stat ⊢
  have quiet : Forms e.uid (s.aluFailed e) z := .of_logs logs
  have failed : (s.aluFailed e).entry e.uid = some { e.fail stSpillFault with formed := true } :=
    State.entry_modEntry_same (s := s.struck .alu) entry fun _ => rfl
  have jamb := congrArg State.jamb logs.rest
  have entry' := (State.entry_of_lanes (congrArg Engines.lanes logs.after.1) e.uid).trans failed
  have er : (e.fail stSpillFault).errStatus = stSpillFault := by simp [Entry.fail, f]
  obtain ⟨⟨same, pwr, jamb', int⟩, e', last, err⟩ := State.entrySettle_clean entry' a (er.trans_ne (by decide)) (er.trans_ne (by decide))
  have begun : s.Same (s.aluFailed e) := State.modEntry_same e.uid _ ⟨rfl, rfl, rfl⟩
  exact ⟨begun.trans (quiet.same.trans same), pwr.trans quiet.pwr, jamb'.trans jamb, int ▸ stat, e', last, err.trans er⟩

/-! ### Drains -/

/-- A drain writes elements of its destination and the scale bytes of its blocks (R118). -/
theorem State.drainOut_effects {s : State} {e : Entry} (entry : s.entry e.uid = some e) (a : e.aborted = false) (f : e.errStatus = 0)
    (hs hd : Opnd) (acc : Option Nat) (xs : List Coord) :
    OnlyTensor hd.desc (takes hd.desc) s (s.drainOut e hs hd acc xs) ∧ (s.drainOut e hs hd acc xs).pwr = s.pwr := by
  unfold State.drainOut
  dsimp only
  generalize hvals : (xs.filter fun x => takes hd.desc x).map (fun x => (x, val32 (s.sillBits hs.desc x))) = vals
  have seen : Forms e.uid s ((s.louvreSees e.uid hd false (vals.map fun v => v.2)).addSquares e acc (vals.map fun v => v.2)) :=
    .trans ((s.louvreSees_stores (as := fun _ => False) ..).forms (State.louvreSees_same _ _ _ _ (.refl s)) e.uid) (.addSquares ..)
  generalize (s.louvreSees e.uid hd false (vals.map fun v => v.2)).addSquares e acc (vals.map fun v => v.2) = b at seen ⊢
  have writes := State.writeAll_tensor b e.uid 0 (narrowWrites_ofTensor hd.desc (e.prop hd.handle) (srItems (s.srBase e e.wseq) hd vals))
  generalize b.writeAll e.uid 0 hd.desc _ = c at writes ⊢
  obtain ⟨e1, entry1, a1, f1⟩ := seen.entry e entry
  obtain ⟨e2, entry2, a2, f2⟩ := writes.entry_status _ _ entry1
  have formed : ∀ fl, Forms e.uid c ((c.jambRaise e fl).modEntry e.uid fun e => { e with formed := true }) := fun fl =>
    (Forms.jambRaise c e fl).trans (.modEntry _ (fun _ => rfl) (fun _ => rfl) fun _ => rfl)
  have settles : ∀ z, Forms e.uid c z →
      OnlyTensor hd.desc (takes hd.desc) s (z.entrySettle e.uid) ∧ (z.entrySettle e.uid).pwr = s.pwr := by
    intro z forms
    obtain ⟨same, pwr⟩ := forms.settled entry2 (a2.trans (a1.trans a)) (f2.trans (f1.trans f))
    exact ⟨(writes.onlyTensor.same_trans seen.same).trans_same same, pwr.trans (writes.pwr.trans seen.pwr)⟩
  apply settles
  split
  · exact (formed _).trans (.emitOut ..)
  · exact formed _

/-- Settles O38: what is formed before leaves the Sill to the clearing that follows. -/
theorem sillReadOut : Obligations.SillReadOut := by
  intro s e reader lit entry ok
  have running : e.aborted = false := by
    have h := List.find?_some reader
    simp only [Bool.and_eq_true] at h
    obtain ⟨⟨⟨-, ab⟩, -⟩, -⟩ := h
    simpa using ab
  have clears : ∀ (hs : Opnd) (z : State), (∀ a, SMap.look z.eng.sill 0 a = SMap.look s.eng.sill 0 a) → z.pwr = s.pwr → ∀ a,
      SMap.look (z.sillTake hs.desc (sillElems hs.desc)).eng.sill 0 a =
        if a / 4 ∈ (takenCoords hs.desc).map (fun x => (elemAddr hs.desc x).1 / 4) then 0 else SMap.look s.eng.sill 0 a := by
    intro hs z sill pwr a
    rw [State.sillTake_lit ((State.sillDark_congr pwr).trans lit), State.look_sillClear, sill, List.map_map]
    rfl
  have runs : execSillReadOut .clean s = .next (match e.job with
      | .spill hs hm store =>
        (s.spillOut e hs.desc hm.desc store ((sillElems hs.desc).filter (lineGood none hs.desc))).sillTake hs.desc (sillElems hs.desc)
      | .drain hs hd acc => (s.drainOut e hs hd acc ((sillElems hs.desc).filter (lineGood none hs.desc))).sillTake hs.desc (sillElems hs.desc)
      | _ => s) := by
    unfold execSillReadOut
    rw [reader]
    rfl
  refine ⟨fun hs hm store job => ?_, fun hs hd acc job other => ?_⟩
  · simp only [job] at runs
    have out : ∀ z, z = s.spillOut e hs.desc hm.desc store ((sillElems hs.desc).filter (lineGood none hs.desc)) →
        (s.Same z ∧ z.pwr = s.pwr) ∧ ∀ d, store = true → s.upsetAt .alu = .fatal d → z.jamb = s.jamb ∧
          z.int.stat.getLsbD 0 = true ∧ ∃ e', z.entry e.uid = some e' ∧ e'.errStatus = stSpillFault := by
      rintro z rfl
      by_cases bad : store && s.aluBad
      · obtain ⟨same, pwr, rest⟩ := State.spillAlu_effects entry running ok
        rw [State.spillOut, if_pos bad]
        exact ⟨⟨same, pwr⟩, fun _ _ _ => rest⟩
      · refine ⟨State.spillOut_same entry running ok _ _ _ _ fun h => by simpa [h] using bad, fun d h fatal => absurd ?_ bad⟩
        rw [h, State.aluBad, fatal]
        rfl
    generalize s.spillOut e hs.desc hm.desc store _ = z at runs out
    obtain ⟨⟨same, pwr⟩, fault⟩ := out z rfl
    refine .of_eq (z := z.sillTake hs.desc (sillElems hs.desc)) runs rfl ⟨clears hs z (fun _ => by rw [same.sill]) pwr, ?_⟩
    rw [State.sillTake_lit ((State.sillDark_congr pwr).trans lit)]
    refine ⟨same.spad, same.dmem, fun d h fatal => ?_⟩
    obtain ⟨jamb, rest⟩ := fault d h fatal
    exact ⟨congrArg Jamb.reqs jamb, rest⟩
  · simp only [job] at runs
    obtain ⟨only, pwr⟩ := State.drainOut_effects entry running ok hs hd acc ((sillElems hs.desc).filter (lineGood none hs.desc))
    generalize s.drainOut e hs hd acc _ = z at runs only pwr
    refine .of_eq (z := z.sillTake hs.desc (sillElems hs.desc)) runs rfl ⟨clears hs z (fun a => only.sill a (.inl other)) pwr, ?_⟩
    rw [State.sillTake_lit ((State.sillDark_congr pwr).trans lit)]
    exact ⟨only.spad, only.dmem⟩

end Sys2Proof.Machine
end

/-! PROOFS. The inverse root (spec/08): O40. -/

section
namespace Sys2Proof.Machine

/-! ### A BF16 slice in the scratchpad -/

theorem num_two (m : Mem) (a : Nat) : Mem.num m a 2 = (SMap.look m 0 a).toNat + 256 * (SMap.look m 0 (a + 1)).toNat := by
  simp [Mem.num, Mem.bytes, leNat, List.range, List.range.loop]

theorem elemAddr_bf16 {d : Desc} (bf16 : d.fmt = 1) (x : Coord) : (elemAddr d x).2 = 0 := by
  unfold elemAddr elemPos
  rw [bf16]
  dsimp only
  split <;> rfl

/-- A BF16 element lies in two whole bytes. -/
theorem elemBits_bf16 {d : Desc} (bf16 : d.fmt = 1) (m : Mem) (x : Coord) : elemBits m d x = Mem.num m (elemAddr d x).1 2 := by
  have small : Mem.num m (elemAddr d x).1 2 < 2 ^ 16 := by
    rw [num_two]
    have lo := (SMap.look m 0 (elemAddr d x).1).isLt
    have hi := (SMap.look m 0 ((elemAddr d x).1 + 1)).isLt
    omega
  unfold elemBits elemSpan
  simp only [elemAddr_bf16 bf16, bf16]
  exact Nat.mod_eq_of_lt small

/-- The write of a BF16 element puts its two bytes. -/
theorem writeCells_bf16 {d : Desc} (bf16 : d.fmt = 1) (f : Nat → Byte) (x : Coord) {v : Nat} (hv : v < 2 ^ 16) :
    writeCells f (elemWrite d x v) =
      [((elemAddr d x).1, BitVec.ofNat 8 v), ((elemAddr d x).1 + 1, BitVec.ofNat 8 (v / 256))] := by
  have width : fmtBits d.fmt = 16 := by rw [bf16]; rfl
  have old : ∀ o < 2 ^ 16, o - (o &&& (2 ^ 16 - 1) <<< 0) + (v % 2 ^ 16) <<< 0 = v := by
    intro o ho
    rw [Nat.shiftLeft_zero, Nat.and_two_pow_sub_one_eq_mod, Nat.mod_eq_of_lt ho, Nat.mod_eq_of_lt hv, Nat.shiftLeft_zero]
    omega
  unfold writeCells elemWrite
  simp only [elemAddr_bf16 bf16, width]
  rw [old]
  · rfl
  · have lo := (f (elemAddr d x).1).isLt
    have hi := (f ((elemAddr d x).1 + 1)).isLt
    change (f (elemAddr d x).1).toNat + 256 * ((f ((elemAddr d x).1 + 1)).toNat + 256 * 0) < 2 ^ 16
    omega

/-- No bank is left off. -/
abbrev allLit : Nat → Bool := fun _ => false

theorem spadWritten_bf16 {d : Desc} (bf16 : d.fmt = 1) (m : Mem) (x : Coord) {v : Nat} (hv : v < 2 ^ 16) (b : Nat) :
    SMap.look (spadWritten allLit m (elemWrite d x v)) 0 b =
      if b = (elemAddr d x).1 + 1 then BitVec.ofNat 8 (v / 256) else if b = (elemAddr d x).1 then BitVec.ofNat 8 v else SMap.look m 0 b := by
  unfold spadWritten
  rw [writeCells_bf16 bf16 _ x hv]
  simp [SMap.look_put]

theorem num_spadWritten_bf16 {d : Desc} (bf16 : d.fmt = 1) (m : Mem) (x : Coord) {v : Nat} (hv : v < 2 ^ 16) :
    Mem.num (spadWritten allLit m (elemWrite d x v)) (elemAddr d x).1 2 = v := by
  rw [num_two, spadWritten_bf16 bf16 m x hv, spadWritten_bf16 bf16 m x hv]
  simp
  omega

theorem num_spadWritten_apart {d : Desc} (bf16 : d.fmt = 1) (m : Mem) (x : Coord) {v : Nat} (hv : v < 2 ^ 16) {b : Nat}
    (apart : b + 2 ≤ (elemAddr d x).1 ∨ (elemAddr d x).1 + 2 ≤ b) :
    Mem.num (spadWritten allLit m (elemWrite d x v)) b 2 = Mem.num m b 2 := by
  have byte : ∀ c, c ≠ (elemAddr d x).1 → c ≠ (elemAddr d x).1 + 1 →
      SMap.look (spadWritten allLit m (elemWrite d x v)) 0 c = SMap.look m 0 c := by
    intro c h1 h2
    rw [spadWritten_bf16 bf16 m x hv, if_neg h2, if_neg h1]
  rw [num_two, num_two, byte b (by omega) (by omega), byte (b + 1) (by omega) (by omega)]

/-- Elements that lie apart keep what was written to them. -/
theorem num_foldl_spadWritten {ι : Type} [DecidableEq ι] {d : Desc} (bf16 : d.fmt = 1) (at_ : ι → Coord) (val : ι → Nat) (cs : List ι)
    (small : ∀ c ∈ cs, val c < 2 ^ 16)
    (apart : ∀ c ∈ cs, ∀ c' ∈ cs, c ≠ c' → (elemAddr d (at_ c)).1 + 2 ≤ (elemAddr d (at_ c')).1 ∨ (elemAddr d (at_ c')).1 + 2 ≤ (elemAddr d (at_ c)).1)
    (m : Mem) {c : ι} (hc : c ∈ cs) :
    Mem.num ((cs.map fun c => elemWrite d (at_ c) (val c)).foldl (spadWritten allLit) m) (elemAddr d (at_ c)).1 2 = val c := by
  induction cs using List.reverseRecOn with
  | nil => nomatch hc
  | append_singleton cs x ih =>
    rw [List.map_append, List.foldl_append]
    change Mem.num (spadWritten allLit _ (elemWrite d (at_ x) (val x))) _ 2 = _
    have last : x ∈ cs ++ [x] := List.mem_append_right _ (.head _)
    by_cases h : c = x
    · rw [h, num_spadWritten_bf16 bf16 _ _ (small x last)]
    · rw [num_spadWritten_apart bf16 _ _ (small x last) (apart c hc x last h)]
      have init : ∀ {y}, y ∈ cs → y ∈ cs ++ [x] := fun hy => List.mem_append_left _ hy
      refine ih (fun y hy => small y (init hy)) (fun y hy z hz => apart y (init hy) z (init hz)) ?_
      simpa [h] using hc

theorem State.spad_foldl_spadWrite (s : State) (ws : List BitWrite) :
    (ws.foldl State.spadWrite s).eng.spad = ws.foldl (spadWritten s.bankDark) s.eng.spad := by
  induction ws generalizing s with
  | nil => rfl
  | cons w ws ih =>
    obtain ⟨i, hi⟩ := s.spadWrite_writes w
    rw [List.foldl_cons, ih, hi]
    rfl

/-- The indices of a square matrix. -/
def matIdx (n : Nat) : List (Nat × Nat) := (List.range n).flatMap fun i => (List.range n).map fun j => (i, j)

theorem mem_matIdx {n : Nat} {c : Nat × Nat} : c ∈ matIdx n ↔ c.1 < n ∧ c.2 < n := by
  obtain ⟨i, j⟩ := c
  simp [matIdx]

theorem matEl_lt {m : Matrix} (square : ∀ r ∈ m, r.length = m.length ∧ ∀ v ∈ r, v < 2 ^ 16) (i j : Nat) : matEl m i j < 2 ^ 16 := by
  unfold matEl
  by_cases hi : i < m.length
  · rw [List.getD_eq_getElem _ _ hi]
    by_cases hj : j < m[i].length
    · rw [List.getD_eq_getElem _ _ hj]
      exact (square _ (List.getElem_mem hi)).2 _ (List.getElem_mem hj)
    · rw [List.getD_eq_default _ _ (by omega)]
      decide
  · rw [List.getD_eq_default m _ (by omega)]
    simp

/-- The matrix of its elements. -/
theorem map_matEl {m : Matrix} (square : ∀ r ∈ m, r.length = m.length) :
    ((List.range m.length).map fun i => (List.range m.length).map fun j => matEl m i j) = m := by
  refine List.ext_getElem (by simp) fun i hi hi' => ?_
  have len := square _ (List.getElem_mem hi')
  rw [List.getElem_map, List.getElem_range]
  refine List.ext_getElem (by simp [len]) fun j hj hj' => ?_
  simp [matEl, hi', hj']

theorem sliceHolds : SliceHolds := by
  intro s uid k d sl m spad bf16 lit taken apart square
  have dark : s.bankDark = allLit := by
    funext a
    simp [State.bankDark, lit]
  have whole : (matIdx m.length).filter (fun c => takes d (sliceCoord sl c.1 c.2)) = matIdx m.length :=
    List.filter_eq_self.mpr fun c hc => taken c.1 c.2 (mem_matIdx.mp hc).1 (mem_matIdx.mp hc).2
  have stores : (s.sliceWrite uid k d sl m).eng.spad =
      ((matIdx m.length).map fun c => elemWrite d (sliceCoord sl c.1 c.2) (matEl m c.1 c.2)).foldl (spadWritten allLit) s.eng.spad := by
    unfold State.sliceWrite
    dsimp only
    rw [← matIdx, whole, ((Alike.refl s).foldl_spadWrite uid k spad _).spad, State.spad_foldl_spadWrite, dark]
  have element : ∀ i < m.length, ∀ j < m.length,
      elemBits (s.sliceWrite uid k d sl m).eng.spad d (sliceCoord sl i j) = matEl m i j := by
    intro i hi j hj
    rw [elemBits_bf16 bf16, stores]
    refine num_foldl_spadWritten bf16 (fun c : Nat × Nat => sliceCoord sl c.1 c.2) (fun c => matEl m c.1 c.2) _
      (fun c _ => matEl_lt square c.1 c.2) (fun c hc c' hc' h => ?_) s.eng.spad (c := (i, j)) (mem_matIdx.mpr ⟨hi, hj⟩)
    exact apart c.1 c.2 c'.1 c'.2 (mem_matIdx.mp hc).1 (mem_matIdx.mp hc).2 (mem_matIdx.mp hc').1 (mem_matIdx.mp hc').2 h
  refine Eq.trans ?_ (map_matEl fun r hr => (square r hr).1)
  refine List.map_congr_left fun i hi => List.map_congr_left fun j hj => ?_
  have unmasked : masked d (sliceCoord sl i j) = false := by
    have t := taken i j (List.mem_range.mp hi) (List.mem_range.mp hj)
    unfold takes at t
    simp only [Bool.and_eq_true, Bool.not_eq_true'] at t
    exact t.2
  dsimp only
  rw [if_neg (by rw [unmasked]; nofun)]
  exact element i (List.mem_range.mp hi) j (List.mem_range.mp hj)

/-! ### The steps of an iteration -/

/-- What a step of an iteration leaves: the switches, the Frame unit, the engines, the computations, and every entry its place. -/
structure Steps (s s' : State) : Prop where
  pwr : s'.pwr = s.pwr
  lt : s'.lt = s.lt
  frame : s'.frame = s.frame
  engs : s'.eng.engs = s.eng.engs
  roots : s'.eng.roots = s.eng.roots
  entry : ∀ u e, s.entry u = some e → ∃ e', s'.entry u = some e'

namespace Steps

theorem refl (s : State) : Steps s s := ⟨rfl, rfl, rfl, rfl, rfl, fun _ e h => ⟨e, h⟩⟩

theorem trans {a b c : State} (h : Steps a b) (k : Steps b c) : Steps a c where
  pwr := k.pwr.trans h.pwr
  lt := k.lt.trans h.lt
  frame := k.frame.trans h.frame
  engs := k.engs.trans h.engs
  roots := k.roots.trans h.roots
  entry := fun u e he => by
    obtain ⟨e1, h1⟩ := h.entry u e he
    exact k.entry u e1 h1

theorem of_stores {k : Nat} {as : Nat → Prop} {s s' : State} (h : Stores k as s s') : Steps s s' := by
  have pwr := congrArg State.pwr h.rest
  have lt := congrArg State.lt h.rest
  have frame := congrArg State.frame h.rest
  have engs := congrArg (fun z : State => z.eng.engs) h.rest
  have roots := congrArg (fun z : State => z.eng.roots) h.rest
  refine ⟨pwr, lt, frame, engs, roots, fun u e he => ?_⟩
  obtain ⟨e', he', -⟩ := h.entries u e he
  exact ⟨e', he'⟩

theorem of_logs {s s' : State} (h : OnlyLogs s s') : Steps s s' := by
  have pwr := congrArg State.pwr h.rest
  have lt := congrArg State.lt h.rest
  have frame := congrArg State.frame h.rest
  have eng := congrArg State.eng h.rest
  exact ⟨pwr, lt, frame, congrArg Engines.engs eng, congrArg Engines.roots eng,
    fun u e he => ⟨e, (State.entry_of_lanes (congrArg Engines.lanes eng) u).trans he⟩⟩

theorem modEr (s : State) (f : EngRegs → EngRegs) : Steps s (s.modEr f) := ⟨rfl, rfl, rfl, rfl, rfl, fun _ e h => ⟨e, h⟩⟩

theorem casRaise (s : State) (t : Thread) (ctx : Nat) (iseq : BitVec 32) (f : Flags) : Steps s (s.casRaise t ctx iseq f) :=
  (modEr s _).trans (of_logs (s.casRaise_flags t ctx iseq f))

theorem latRaise (s : State) (e : Entry) (f : Flags) : Steps s (s.latRaise e f) := (modEr s _).trans (of_logs (s.latRaise_logs e f))

theorem alike {s s' : State} (h : Steps s s') (same : s.Same s') : Alike s s' := .of_eqs same.spad same.sill h.pwr h.lt

theorem rootDark {s s' : State} (h : Steps s s') (part n : Nat) : s'.rootDark part n = s.rootDark part n := by
  funext i
  unfold State.rootDark State.partLats State.partHalves State.latDark State.leftOffIn
  rw [h.frame, h.pwr]

theorem groupState {s s' : State} (h : Steps s s') (ctx g : Nat) : s'.groupState ctx g = s.groupState ctx g := by
  unfold State.groupState State.plane
  rw [h.frame]

end Steps

/-- Element writes of a slice. -/
theorem State.sliceWrite_stores (s : State) (u k : Nat) (d : Desc) (sl : Nat) (m : Matrix) :
    Stores d.space (· ∈ tensorAddrs d (takes d)) s (s.sliceWrite u k d sl m) := by
  refine State.writeAll_tensor s u k fun w hw => ?_
  obtain ⟨c, hc, rfl⟩ := List.mem_map.mp hw
  have taken := (List.mem_filter.mp hc).2
  exact elemWrite_ofTensor (coords_of_takes taken) taken _

theorem Alike.sliceWrite {s s' : State} (h : Alike s s') (u k : Nat) (d : Desc) (sl : Nat) (m : Matrix) :
    Alike (s.sliceWrite u k d sl m) (s'.sliceWrite u k d sl m) := h.writeAll ..

theorem Alike.sliceRead {s s' : State} (h : Alike s s') (w : Desc) (n sl : Nat) : s'.sliceRead w n sl = s.sliceRead w n sl := by
  unfold State.sliceRead
  rw [h.spad]

theorem State.rootSees_stores {k : Nat} {as : Nat → Prop} (s : State) (e : Entry) (o : Opnd) (drain : Bool) (vs : List Val) :
    Stores k as s (s.rootSees e o drain vs) := by
  unfold State.rootSees
  split
  · exact s.louvreSees_stores ..
  · exact .refl s

theorem State.rootSees_alike (s : State) (e : Entry) (o : Opnd) (drain : Bool) (vs : List Val) : Alike s (s.rootSees e o drain vs) := by
  unfold State.rootSees
  split
  · exact s.louvreSees_alike ..
  · exact .refl s

/-! ### The matrices of an iteration -/

/-- What an iteration computes, with the flags of each matrix. -/
structure RootStep where
  t : Matrix × Flags
  x : Matrix × Flags
  y : Matrix × Flags
  z : Matrix × Flags
  m : Matrix × Flags

/-- The matrices of the next iteration, from the workspace. -/
def State.rootStep (s : State) (r : RootJob) (dark : Nat → Bool) : RootStep :=
  let n := r.s.desc.n0
  let m := s.sliceRead r.w.desc n slM
  let t := matT n r.fourth m
  let x := matMul dark n (s.sliceRead r.w.desc n slX) t.1
  let y := matMul dark n t.1 t.1
  let z := if r.fourth then matMul dark n y.1 y.1 else y
  { t := t, x := x, y := y, z := z, m := matMul dark n z.1 m }

/-- The writes of an iteration into the workspace (R189). -/
def State.rootPut (s : State) (u : Nat) (w : Desc) (fourth : Bool) (q : RootStep) : State :=
  let s := ((s.sliceWrite u 1 w slT q.t.1).sliceWrite u 1 w slX q.x.1).sliceWrite u 1 w slY q.y.1
  let s := if fourth then s.sliceWrite u 1 w slZ q.z.1 else s
  s.sliceWrite u 1 w slM q.m.1

/-- Before its writes an iteration counts the zeros of Lattices left off, and its Louvres see what they pass. -/
def State.rootSeen (s : State) (e : Entry) (r : RootJob) : State :=
  let n := r.s.desc.n0
  let dark := s.rootDark r.part n
  let q := s.rootStep r dark
  let z := if (List.range n).any dark then s.shutAccess shutOffCode (if r.fourth then 4 else 3) else s
  (z.rootSees e r.w false (matVals q.t.1)).rootSees e r.w true (matSeen dark n (s.sliceRead r.w.desc n slX) q.t.1 ++
    matSeen dark n q.t.1 q.t.1 ++ (if r.fourth then matSeen dark n q.y.1 q.y.1 else []) ++
    matSeen dark n q.z.1 (s.sliceRead r.w.desc n slM))

/-- Behind its writes an iteration raises its flags. -/
def State.rootRaised (s : State) (e : Entry) (part : Nat) (q : RootStep) : State :=
  (s.casRaise e.stream e.ctx e.iseq q.t.2).latRaise { e with queue := part } (flagsAny [q.x.2, q.y.2, q.z.2, q.m.2])

/-- An iteration before its test. -/
def State.rootStepped (s : State) (e : Entry) (r : RootJob) : State :=
  let q := s.rootStep r (s.rootDark r.part r.s.desc.n0)
  ((s.rootSeen e r).rootPut e.uid r.w.desc r.fourth q).rootRaised e r.part q

theorem State.rootIterate_eq (s : State) (e : Entry) (r : RootJob) (run : RootRun) : s.rootIterate e r run =
    let q := s.rootStep r (s.rootDark r.part r.s.desc.n0)
    let z := (s.rootStepped e r).modRoot run.uid fun k => { k with iter := run.iter + 1, begun := true }
    if !(matFinite q.x.1 && matFinite q.m.1) then z.rootFail e r run (run.iter + 1)
    else if matClose r.s.desc.n0 (val32 r.tol) q.m.1 then z.rootOk e r run (run.iter + 1) q.x.1
    else if r.maxIt ≤ run.iter + 1 then z.rootFail e r run (run.iter + 1)
    else z.rootOpen run r.part := rfl

/-- The bytes of the scratchpad outside the workspace and Q keep their values (R189). -/
def Apart (r : RootJob) (s s' : State) : Prop :=
  ∀ a, a ∉ tensorAddrs r.w.desc (takes r.w.desc) → a ∉ tensorAddrs r.q.desc (takes r.q.desc) →
    SMap.look s'.eng.spad 0 a = SMap.look s.eng.spad 0 a

namespace Apart

variable {r : RootJob}

theorem trans {a b c : State} (h : Apart r a b) (k : Apart r b c) : Apart r a c := fun x w q => (k x w q).trans (h x w q)

theorem of_alike {s s' : State} (h : Alike s s') : Apart r s s' := fun _ _ _ => by rw [h.spad]

theorem sliceWrite_w (s : State) (u k sl : Nat) (m : Matrix) : Apart r s (s.sliceWrite u k r.w.desc sl m) :=
  fun a w _ => (s.sliceWrite_stores u k r.w.desc sl m).spad a (.inr w)

theorem sliceWrite_q (s : State) (u k sl : Nat) (m : Matrix) : Apart r s (s.sliceWrite u k r.q.desc sl m) :=
  fun a _ q => (s.sliceWrite_stores u k r.q.desc sl m).spad a (.inr q)

end Apart

theorem Steps.sliceWrite (s : State) (u k : Nat) (d : Desc) (sl : Nat) (m : Matrix) : Steps s (s.sliceWrite u k d sl m) :=
  .of_stores (s.sliceWrite_stores u k d sl m)

theorem Steps.rootSees (s : State) (e : Entry) (o : Opnd) (drain : Bool) (vs : List Val) : Steps s (s.rootSees e o drain vs) :=
  .of_stores (s.rootSees_stores (k := 0) (as := fun _ => False) e o drain vs)

theorem State.rootPut_steps (s : State) (u : Nat) (w : Desc) (fourth : Bool) (q : RootStep) : Steps s (s.rootPut u w fourth q) := by
  have three := ((Steps.sliceWrite s u 1 w slT q.t.1).trans (.sliceWrite _ u 1 w slX q.x.1)).trans (.sliceWrite _ u 1 w slY q.y.1)
  unfold State.rootPut
  cases fourth
  · exact three.trans (.sliceWrite ..)
  · exact (three.trans (.sliceWrite ..)).trans (.sliceWrite ..)

theorem State.rootPut_apart (s : State) (u : Nat) (r : RootJob) (q : RootStep) : Apart r s (s.rootPut u r.w.desc r.fourth q) := by
  have three := ((Apart.sliceWrite_w (r := r) s u 1 slT q.t.1).trans (.sliceWrite_w _ u 1 slX q.x.1)).trans (.sliceWrite_w _ u 1 slY q.y.1)
  unfold State.rootPut
  cases r.fourth
  · exact three.trans (.sliceWrite_w _ u 1 slM q.m.1)
  · exact (three.trans (.sliceWrite_w _ u 1 slZ q.z.1)).trans (.sliceWrite_w _ u 1 slM q.m.1)

theorem Alike.rootPut {s s' : State} (h : Alike s s') (u : Nat) (w : Desc) (fourth : Bool) (q : RootStep) :
    Alike (s.rootPut u w fourth q) (s'.rootPut u w fourth q) := by
  have three := ((h.sliceWrite u 1 w slT q.t.1).sliceWrite u 1 w slX q.x.1).sliceWrite u 1 w slY q.y.1
  unfold State.rootPut
  cases fourth
  · exact three.sliceWrite ..
  · exact (three.sliceWrite ..).sliceWrite ..

theorem Alike.rootStep {s s' : State} (h : Alike s s') (r : RootJob) (dark : Nat → Bool) : s'.rootStep r dark = s.rootStep r dark := by
  unfold State.rootStep
  simp only [h.sliceRead]

theorem State.rootSeen_steps (s : State) (e : Entry) (r : RootJob) : Steps s (s.rootSeen e r) ∧ Alike s (s.rootSeen e r) := by
  unfold State.rootSeen
  dsimp only
  split
  · exact ⟨(Steps.of_stores (s.shutAccess_stores (k := 0) (as := fun _ => False) ..)).trans ((Steps.rootSees ..).trans (.rootSees ..)),
      (s.shutAccess_alike ..).trans ((State.rootSees_alike ..).trans (State.rootSees_alike ..))⟩
  · exact ⟨(Steps.rootSees ..).trans (.rootSees ..), (State.rootSees_alike ..).trans (State.rootSees_alike ..)⟩

theorem State.rootRaised_steps (s : State) (e : Entry) (part : Nat) (q : RootStep) :
    Steps s (s.rootRaised e part q) ∧ Alike s (s.rootRaised e part q) := by
  have steps : Steps s (s.rootRaised e part q) := (Steps.casRaise ..).trans (.latRaise ..)
  exact ⟨steps, steps.alike (State.latRaise_same _ _ (State.casRaise_same _ _ _ _ (.refl s)))⟩

/-- The state before the test of an iteration: the workspace has taken its matrices (R189). -/
theorem State.rootStepped_effects (s : State) (e : Entry) (r : RootJob) :
    Steps s (s.rootStepped e r) ∧ Apart r s (s.rootStepped e r) ∧
    Alike (s.rootPut e.uid r.w.desc r.fourth (s.rootStep r (s.rootDark r.part r.s.desc.n0))) (s.rootStepped e r) := by
  obtain ⟨seen, like⟩ := s.rootSeen_steps e r
  unfold State.rootStepped
  dsimp only
  generalize s.rootStep r (s.rootDark r.part r.s.desc.n0) = q
  obtain ⟨raised, like'⟩ := ((s.rootSeen e r).rootPut e.uid r.w.desc r.fourth q).rootRaised_steps e r.part q
  exact ⟨(seen.trans (State.rootPut_steps ..)).trans raised,
    ((Apart.of_alike like).trans (State.rootPut_apart _ e.uid r q)).trans (.of_alike like'), (like.rootPut ..).trans like'⟩

/-! ### The end of a computation -/

theorem State.dropEntry_effects (s : State) (u : Nat) : (s.dropEntry u).entry u = none ∧
    (∀ v ≠ u, (s.dropEntry u).entry v = s.entry v) ∧ (s.dropEntry u).frame = s.frame ∧ (s.dropEntry u).eng.roots = s.eng.roots := by
  unfold State.dropEntry
  split
  next none => exact ⟨none, fun _ _ => rfl, rfl, rfl⟩
  next e _ =>
    have opened : ((s.engineOpen e.queue u).eng.lanes = s.eng.lanes ∧ (s.engineOpen e.queue u).eng.roots = s.eng.roots) ∧
        (s.engineOpen e.queue u).frame = s.frame := by
      unfold State.engineOpen
      split <;> exact ⟨⟨rfl, rfl⟩, rfl⟩
    obtain ⟨⟨lanes, roots⟩, frame⟩ := opened
    dsimp only
    generalize s.engineOpen e.queue u = z at lanes roots frame ⊢
    have entries : ∀ v g t, (({ z with eng := { z.eng with lanes := z.eng.lanes.filter fun x => x.uid ≠ u } }).modTh t g).entry v =
        (s.eng.lanes.filter fun x => x.uid ≠ u).find? fun x => x.uid = v := by
      intro v g t
      rw [← lanes]
      cases t <;> rfl
    refine ⟨?_, fun v hv => ?_, ?_, ?_⟩
    · rw [entries, List.find?_eq_none]
      intro x hx
      simpa using (List.mem_filter.mp hx).2
    · rw [entries, List.find?_filter]
      unfold State.entry
      congr 1
      funext x
      by_cases h : x.uid = v <;> simp [h, hv]
    · rw [← frame]
      cases e.stream <;> rfl
    · rw [← roots]
      cases e.stream <;> rfl

theorem State.entry_modEntry_ne {s : State} {u v : Nat} (h : v ≠ u) {g : Entry → Entry} (keeps : ∀ e, (g e).uid = e.uid) :
    (s.modEntry u g).entry v = s.entry v := (State.entry_modEntry s u v keeps).trans (if_neg h)

theorem State.entry_entryDone_ne (s : State) {u v : Nat} (h : v ≠ u) : (s.entryDone u).entry v = s.entry v := by
  unfold State.entryDone
  split
  · rfl
  · refine (State.entry_of_lanes (State.engineOpen_lanes ..) v).trans (State.entry_modEntry_ne h ?_)
    exact fun _ => rfl

theorem State.entryDone_leaves (s : State) (u : Nat) : (s.entryDone u).eng.roots = s.eng.roots ∧ (s.entryDone u).frame = s.frame := by
  have roots := congrArg (fun z : State => z.eng.roots) (s.entryDone_frame u)
  have frame := congrArg State.frame (s.entryDone_frame u)
  exact ⟨roots, frame⟩

/-- A computation that ends leaves both engines: its entry has finished with its status (R189). -/
theorem State.rootEnd_effects {s : State} {u p : Nat} {e : Entry} (apart : u ≠ p) (entry : s.entry u = some e) (st : Nat) :
    ((∃ e', (s.rootEnd u p st).entry u = some e' ∧ e'.phase = .finished ∧ e'.status = st) ∧
      (∀ k ∈ (s.rootEnd u p st).eng.roots, k.uid ≠ u) ∧ (s.rootEnd u p st).entry p = none) ∧
    (s.rootEnd u p st).frame = s.frame := by
  unfold State.rootEnd
  dsimp only
  have left : ∃ z, z = ({ s with eng := { s.eng with roots := s.eng.roots.filter fun r => r.uid ≠ u } } : State) := ⟨_, rfl⟩
  obtain ⟨z, hz⟩ := left
  rw [← hz]
  have entry' : z.entry u = some e := by rw [hz]; exact entry
  have gone : ∀ k ∈ z.eng.roots, k.uid ≠ u := by
    rw [hz]
    intro k hk
    simpa using (List.mem_filter.mp hk).2
  have frame' : z.frame = s.frame := by rw [hz]
  obtain ⟨dropped, others, frame, roots⟩ := z.dropEntry_effects p
  generalize z.dropEntry p = y at dropped others frame roots ⊢
  have here := (others u apart).trans entry'
  have status : (y.modEntry u fun e => { e with status := st }).entry u = some { e with status := st } :=
    State.entry_modEntry_same here fun _ => rfl
  have none' : (y.modEntry u fun e => { e with status := st }).entry p = none := by
    refine (State.entry_modEntry_ne apart.symm ?_).trans dropped
    exact fun _ => rfl
  have ends := State.entry_entryDone status
  obtain ⟨roots', frame''⟩ := (y.modEntry u fun e => { e with status := st }).entryDone_leaves u
  exact ⟨⟨⟨_, ends, rfl, rfl⟩, fun k hk => gone k (roots ▸ roots' ▸ hk), (State.entry_entryDone_ne _ apart.symm).trans none'⟩,
    frame''.trans (frame.trans frame')⟩

/-! ### The outcomes -/

/-- The group's state as a failed computation leaves it (R190). -/
def GroupState.rootFailed (g : GroupState) (it : Nat) : GroupState :=
  { g with rootFail := true, lastIt := it, fallback := g.fallback || decide (g.fails = 0), fails := satInc 16 g.fails }

theorem State.groupState_setGroup (s : State) (ctx g : Nat) (v : GroupState) : (s.setGroup ctx g v).groupState ctx g = v := by
  unfold State.groupState State.setGroup State.modPlane
  by_cases h : ctx = 0 <;> simp [h, State.plane, SMap.look_put]

theorem State.setGroup_eng (s : State) (ctx g : Nat) (v : GroupState) : (s.setGroup ctx g v).eng = s.eng := by
  unfold State.setGroup State.modPlane
  split <;> rfl

/-- A computation has ended with a status and its group's state. -/
structure Ended (run : RootRun) (ctx g st : Nat) (v : GroupState) (s' : State) : Prop where
  finished : ∃ e', s'.entry run.uid = some e' ∧ e'.phase = .finished ∧ e'.status = st
  gone : ∀ k ∈ s'.eng.roots, k.uid ≠ run.uid
  place : s'.entry run.partUid = none
  group : s'.groupState ctx g = v

theorem State.rootEnd_ended {s : State} {run : RootRun} {e : Entry} (apart : run.uid ≠ run.partUid) (entry : s.entry run.uid = some e)
    (ctx g st : Nat) (v : GroupState) : Ended run ctx g st v ((s.setGroup ctx g v).rootEnd run.uid run.partUid st) := by
  have entry' := (State.entry_of_lanes (congrArg Engines.lanes (s.setGroup_eng ctx g v)) run.uid).trans entry
  obtain ⟨⟨fin, gone, place⟩, frame⟩ := State.rootEnd_effects apart entry' st
  refine ⟨fin, gone, place, ?_⟩
  refine Eq.trans ?_ (s.groupState_setGroup ctx g v)
  unfold State.groupState State.plane
  rw [frame]

theorem State.rootEnd_spad (s : State) (ctx g u p st : Nat) (v : GroupState) : ((s.setGroup ctx g v).rootEnd u p st).eng.spad = s.eng.spad :=
  (State.rootEnd_same u p st (State.setGroup_same ctx g v (.refl s))).spad

/-- A failed computation (R190). -/
theorem State.rootFail_effects {s : State} {e f : Entry} {r : RootJob} {run : RootRun} (apart : run.uid ≠ run.partUid)
    (entry : s.entry run.uid = some f) (it : Nat) :
    Ended run e.ctx r.group stRootFail ((s.groupState e.ctx r.group).rootFailed it) (s.rootFail e r run it) ∧
    (s.rootFail e r run it).eng.spad = s.eng.spad :=
  ⟨State.rootEnd_ended apart entry _ _ _ _, State.rootEnd_spad ..⟩

/-- A converged computation: Q takes X (R189). -/
theorem State.rootOk_effects {s : State} {e f : Entry} {r : RootJob} {run : RootRun} (apart : run.uid ≠ run.partUid)
    (entry : s.entry run.uid = some f) (it : Nat) (x : Matrix) :
    Ended run e.ctx r.group stOk { s.groupState e.ctx r.group with lastIt := it } (s.rootOk e r run it x) ∧
    (s.rootOk e r run it x).eng.spad = (s.sliceWrite e.uid 0 r.q.desc 0 x).eng.spad := by
  have steps : Steps s ((s.rootSees e r.q false (matVals x)).sliceWrite e.uid 0 r.q.desc 0 x) :=
    (Steps.rootSees ..).trans (.sliceWrite ..)
  have like := (s.rootSees_alike e r.q false (matVals x)).sliceWrite e.uid 0 r.q.desc 0 x
  obtain ⟨f', entry'⟩ := steps.entry _ _ entry
  refine ⟨?_, (State.rootEnd_spad ..).trans like.spad⟩
  rw [← steps.groupState]
  exact State.rootEnd_ended apart entry' _ _ _ _

theorem State.modRoot_steps (s : State) (u : Nat) (f : RootRun → RootRun) : (s.modRoot u f).eng.lanes = s.eng.lanes ∧
    (s.modRoot u f).frame = s.frame ∧ Alike s (s.modRoot u f) := ⟨rfl, rfl, rfl, rfl, rfl, rfl⟩

/-- An engine that is open and idle stays so when another one opens. -/
theorem State.engineOpen_idle {s : State} {q : Nat} (isOpen : (s.engine q).isOpen = true) (idle : (s.engine q).running = none) (p u : Nat) :
    ((s.engineOpen p u).engine q).isOpen = true ∧ ((s.engineOpen p u).engine q).running = none := by
  unfold State.engineOpen
  split
  · unfold State.modEngine State.engine
    rw [SMap.look_put]
    split
    · exact ⟨rfl, rfl⟩
    · exact ⟨isOpen, idle⟩
  · exact ⟨isOpen, idle⟩

theorem State.engineOpen_leaves (s : State) (q u : Nat) : (s.engineOpen q u).eng.spad = s.eng.spad ∧
    (s.engineOpen q u).eng.roots = s.eng.roots ∧ (s.engineOpen q u).frame = s.frame := by
  obtain ⟨rest, -, -⟩ := s.engineOpen_effects q u
  have spad := congrArg (fun z : State => z.eng.spad) rest
  have roots := congrArg (fun z : State => z.eng.roots) rest
  have frame := congrArg State.frame rest
  exact ⟨spad, roots, frame⟩

/-- Between two steps both engines are open (R189). -/
theorem State.rootOpen_effects (s : State) (run : RootRun) (part : Nat) :
    (s.rootOpen run part).eng.spad = s.eng.spad ∧ (s.rootOpen run part).eng.roots = s.eng.roots ∧ (s.rootOpen run part).frame = s.frame ∧
    ((s.engine qCas).running = some run.uid → ((s.rootOpen run part).engine qCas).isOpen = true ∧
      ((s.rootOpen run part).engine qCas).running = none) := by
  obtain ⟨spad, roots, frame⟩ := s.engineOpen_leaves qCas run.uid
  obtain ⟨spad', roots', frame'⟩ := (s.engineOpen qCas run.uid).engineOpen_leaves part run.partUid
  refine ⟨spad'.trans spad, roots'.trans roots, frame'.trans frame, fun runs => ?_⟩
  obtain ⟨isOpen, idle⟩ := (s.engineOpen_effects qCas run.uid).2.1 runs
  exact State.engineOpen_idle isOpen idle part run.partUid

/-- The iteration is counted. -/
def State.rootNoted (s : State) (run : RootRun) : State := s.modRoot run.uid fun k => { k with iter := run.iter + 1, begun := true }

/-- The test of an iteration (R189). -/
def State.rootTested (z : State) (e : Entry) (r : RootJob) (run : RootRun) (finite close : Bool) (x : Matrix) : State :=
  if !finite then z.rootFail e r run (run.iter + 1)
  else if close then z.rootOk e r run (run.iter + 1) x
  else if r.maxIt ≤ run.iter + 1 then z.rootFail e r run (run.iter + 1)
  else z.rootOpen run r.part

/-- The outcomes of a test, from the state `z` before it, the matrices in the workspace and the state `v` of the group. -/
structure Outcomes (e : Entry) (r : RootJob) (run : RootRun) (finite close : Bool) (x : Matrix) (z s' : State) : Prop where
  apart : Apart r z s'
  converged : finite = true → close = true → s'.eng.spad = (z.sliceWrite e.uid 0 r.q.desc 0 x).eng.spad ∧
    Ended run e.ctx r.group stOk { z.groupState e.ctx r.group with lastIt := run.iter + 1 } s'
  failed : finite = false ∨ (close = false ∧ r.maxIt ≤ run.iter + 1) → s'.eng.spad = z.eng.spad ∧
    Ended run e.ctx r.group stRootFail ((z.groupState e.ctx r.group).rootFailed (run.iter + 1)) s'
  goesOn : finite = true → close = false → run.iter + 1 < r.maxIt → s'.eng.spad = z.eng.spad ∧
    s'.groupState e.ctx r.group = z.groupState e.ctx r.group ∧ s'.eng.roots = z.eng.roots ∧
    ((z.engine qCas).running = some run.uid → (s'.engine qCas).isOpen = true ∧ (s'.engine qCas).running = none)

theorem Apart.of_spad {r : RootJob} {s s' : State} (h : s'.eng.spad = s.eng.spad) : Apart r s s' := fun _ _ _ => by rw [h]

theorem State.rootTested_outcomes {z : State} {e f : Entry} {r : RootJob} {run : RootRun} (apart : run.uid ≠ run.partUid)
    (entry : z.entry run.uid = some f) (finite close : Bool) (x : Matrix) :
    Outcomes e r run finite close x z (z.rootTested e r run finite close x) := by
  obtain ⟨failEnd, failSpad⟩ := State.rootFail_effects (e := e) (r := r) apart entry (run.iter + 1)
  unfold State.rootTested
  cases finite with
  | false => exact ⟨.of_spad failSpad, nofun, fun _ => ⟨failSpad, failEnd⟩, nofun⟩
  | true => cases close with
    | true =>
      obtain ⟨okEnd, okSpad⟩ := State.rootOk_effects (e := e) (r := r) apart entry (run.iter + 1) x
      refine ⟨fun a hw hq => ?_, fun _ _ => ⟨okSpad, okEnd⟩, fun h => ?_, nofun⟩
      · exact (congrArg (SMap.look · 0 a) okSpad).trans (Apart.sliceWrite_q z e.uid 0 0 x a hw hq)
      · rcases h with h | ⟨h, -⟩ <;> nomatch h
    | false =>
      by_cases last : r.maxIt ≤ run.iter + 1
      · rw [if_neg nofun, if_neg nofun, if_pos last]
        exact ⟨.of_spad failSpad, nofun, fun _ => ⟨failSpad, failEnd⟩, fun _ _ h => absurd last (by omega)⟩
      · rw [if_neg nofun, if_neg nofun, if_neg last]
        obtain ⟨spad, roots, frame, engine⟩ := z.rootOpen_effects run r.part
        refine ⟨.of_spad spad, nofun, fun h => ?_, fun _ _ _ => ⟨spad, ?_, roots, engine⟩⟩
        · rcases h with h | ⟨-, h⟩
          · nomatch h
          · exact absurd h last
        · unfold State.groupState State.plane
          rw [frame]

/-- What an iteration does, by the outcome of its test (R189, R190). -/
theorem State.rootIterate_outcomes {s : State} {e f : Entry} (r : RootJob) {run : RootRun} (apart : run.uid ≠ run.partUid)
    (entry : s.entry run.uid = some f) :
    let q := s.rootStep r (s.rootDark r.part r.s.desc.n0)
    ∃ z, Steps s z ∧ Apart r s z ∧ Alike (s.rootPut e.uid r.w.desc r.fourth q) z ∧
      Outcomes e r run (matFinite q.x.1 && matFinite q.m.1) (matClose r.s.desc.n0 (val32 r.tol) q.m.1) q.x.1 (z.rootNoted run)
        (s.rootIterate e r run) := by
  intro q
  obtain ⟨steps, bytes, like⟩ := s.rootStepped_effects e r
  obtain ⟨f', entry'⟩ := steps.entry _ _ entry
  refine ⟨s.rootStepped e r, steps, bytes, like, ?_⟩
  exact State.rootTested_outcomes (z := (s.rootStepped e r).rootNoted run) apart entry' _ _ _

/-- The matrices of the first step stand in the workspace, and its flags are raised. -/
def State.rootBegun (s : State) (e : Entry) (r : RootJob) (m x : Matrix) (f : Flags) : State :=
  (((s.rootSees e r.w false (matVals m ++ matVals x)).sliceWrite e.uid 1 r.w.desc slM m).sliceWrite e.uid 1 r.w.desc slX x).casRaise
    e.stream e.ctx e.iseq f

theorem State.rootBegun_effects (s : State) (e : Entry) (r : RootJob) (m x : Matrix) (f : Flags) :
    Steps s (s.rootBegun e r m x f) ∧ Apart r s (s.rootBegun e r m x f) ∧
    Alike ((s.sliceWrite e.uid 1 r.w.desc slM m).sliceWrite e.uid 1 r.w.desc slX x) (s.rootBegun e r m x f) := by
  have raised : ∀ z : State, Alike z (z.casRaise e.stream e.ctx e.iseq f) := fun z =>
    (Steps.casRaise ..).alike (State.casRaise_same _ _ _ _ (.refl z))
  have sees := s.rootSees_alike e r.w false (matVals m ++ matVals x)
  unfold State.rootBegun
  refine ⟨((Steps.rootSees ..).trans ((Steps.sliceWrite ..).trans (.sliceWrite ..))).trans (.casRaise ..), ?_,
    ((sees.sliceWrite ..).sliceWrite ..).trans (raised _)⟩
  exact (((Apart.of_alike sees).trans (.sliceWrite_w _ e.uid 1 slM m)).trans (.sliceWrite_w _ e.uid 1 slX x)).trans (.of_alike (raised _))

/-- What the check of an iteration leaves of the state `s` before it, whose workspace it has `written`. -/
structure Checked (s : State) (e : Entry) (r : RootJob) (run : RootRun) (finite close : Bool) (x : Matrix) (written s' : State) : Prop where
  apart : Apart r s s'
  converged : finite = true → close = true → s'.eng.spad = (written.sliceWrite e.uid 0 r.q.desc 0 x).eng.spad ∧
    Ended run e.ctx r.group stOk { s.groupState e.ctx r.group with lastIt := run.iter + 1 } s'
  failed : finite = false ∨ (close = false ∧ r.maxIt ≤ run.iter + 1) → s'.eng.spad = written.eng.spad ∧
    Ended run e.ctx r.group stRootFail ((s.groupState e.ctx r.group).rootFailed (run.iter + 1)) s'
  goesOn : finite = true → close = false → run.iter + 1 < r.maxIt → s'.eng.spad = written.eng.spad ∧
    s'.groupState e.ctx r.group = s.groupState e.ctx r.group ∧
    s'.eng.roots = updFirst (fun k => k.uid = run.uid) (fun k => { k with iter := run.iter + 1, begun := true }) s.eng.roots ∧
    ((s.engine qCas).running = some run.uid → (s'.engine qCas).isOpen = true ∧ (s'.engine qCas).running = none)

theorem State.rootIterate_checked {s z c : State} {e f : Entry} (r : RootJob) {run : RootRun} (apart : run.uid ≠ run.partUid)
    (entry : s.entry run.uid = some f) (steps : Steps s c) (bytes : Apart r s c) (like : Alike z c) :
    let q := z.rootStep r (s.rootDark r.part r.s.desc.n0)
    Checked s e r run (matFinite q.x.1 && matFinite q.m.1) (matClose r.s.desc.n0 (val32 r.tol) q.m.1) q.x.1
      (z.rootPut e.uid r.w.desc r.fourth q) (c.rootIterate e r run) := by
  obtain ⟨f', entry'⟩ := steps.entry _ _ entry
  obtain ⟨y, steps', bytes', like', out⟩ := State.rootIterate_outcomes (e := e) r apart entry'
  rw [steps.rootDark, like.rootStep] at like' out
  intro q
  have all := steps.trans steps'
  have written : Alike (z.rootPut e.uid r.w.desc r.fourth q) (y.rootNoted run) := (like.rootPut ..).trans (like'.trans ⟨rfl, rfl, rfl, rfl⟩)
  have grp : (y.rootNoted run).groupState e.ctx r.group = s.groupState e.ctx r.group := all.groupState ..
  have roots : (y.rootNoted run).eng.roots =
      updFirst (fun k => k.uid = run.uid) (fun k => { k with iter := run.iter + 1, begun := true }) s.eng.roots := by
    rw [← all.roots]
    rfl
  have engine : (y.rootNoted run).engine qCas = s.engine qCas := by
    unfold State.engine
    rw [← all.engs]
    rfl
  have noted : Apart r y (y.rootNoted run) := .of_spad rfl
  obtain ⟨leaves, conv, fails, goes⟩ := out
  rw [grp] at conv fails goes
  rw [roots, engine] at goes
  refine ⟨((bytes.trans bytes').trans noted).trans leaves, fun h k => ?_, fun h => ?_, fun h k l => ?_⟩
  · obtain ⟨spad, ended⟩ := conv h k
    exact ⟨spad.trans (written.sliceWrite ..).spad, ended⟩
  · obtain ⟨spad, ended⟩ := fails h
    exact ⟨spad.trans written.spad, ended⟩
  · obtain ⟨spad, rest⟩ := goes h k l
    exact ⟨spad.trans written.spad, rest⟩

theorem execRootIterationCheck_calm {s : State} {t : Thread} {run : RootRun} {e : Entry} {r : RootJob} (calm : s.calm)
    (ready : s.rootReady t = some (run, e, r)) : execRootIterationCheck t s = .next (
      if run.begun then s.rootIterate e r run
      else match s.rootInit r with
        | (none, f) => (s.casRaise e.stream e.ctx e.iseq f).rootFail e r run 0
        | (some (m, x), f) => (s.rootBegun e r m x f).rootIterate e r run) := by
  unfold execRootIterationCheck
  rw [ready]
  unfold State.rootChecked
  rw [State.upsetAt_calm calm]
  rfl

/-- The matrices of an iteration as R189 names them. -/
theorem rootPut_eq (z : State) (r : RootJob) (dark : Nat → Bool) (u : Nat) :
    let n := r.s.desc.n0
    let w := r.w.desc
    let put := fun (z : State) (sl : Nat) (m : Matrix) => z.sliceWrite u 1 w sl m
    let m := z.sliceRead w n slM
    let tt := (matT n r.fourth m).1
    let x := (matMul dark n (z.sliceRead w n slX) tt).1
    let y := (matMul dark n tt tt).1
    let zz := if r.fourth then (matMul dark n y y).1 else y
    let m' := (matMul dark n zz m).1
    let q := z.rootStep r dark
    q.m.1 = m' ∧ z.rootPut u w r.fourth q = put (if r.fourth then put (put (put (put z slT tt) slX x) slY y) slZ zz
      else put (put (put z slT tt) slX x) slY y) slM m' := by
  unfold State.rootPut State.rootStep
  dsimp only
  cases r.fourth <;> exact ⟨rfl, rfl⟩

theorem rootCheck : RootCheck := by
  intro s t run e r calm ready apart entry n w put z dark m tt x y zz m' written finite close group ended fails
  have runs := execRootIterationCheck_calm calm ready
  obtain ⟨last, whole⟩ := rootPut_eq z r dark e.uid
  have failing : ∀ it s', Ended run e.ctx r.group stRootFail ((s.groupState e.ctx r.group).rootFailed it) s' → fails it s' :=
    fun it s' h => ⟨⟨h.finished, h.gone, h.place⟩, h.group⟩
  refine ⟨fun fresh none => ?_, fun begins => ?_⟩
  · have steps : Steps s (s.casRaise e.stream e.ctx e.iseq (s.rootInit r).2) := .casRaise ..
    obtain ⟨f, entry'⟩ := steps.entry _ _ entry
    obtain ⟨fin, spad⟩ := State.rootFail_effects (e := e) (r := r) apart entry' 0
    rw [steps.groupState] at fin
    refine .of_eq (z := (s.casRaise e.stream e.ctx e.iseq (s.rootInit r).2).rootFail e r run 0) ?_ rfl
      ⟨spad.trans (State.casRaise_same _ _ _ _ (.refl s)).spad, failing 0 _ fin⟩
    refine runs.trans ?_
    rw [fresh, if_neg nofun]
    rcases h : s.rootInit r with ⟨_ | ⟨m, x⟩, f⟩
    · rfl
    · rw [h] at none
      nomatch none
  · have check : ∃ c, execRootIterationCheck t s = .next (c.rootIterate e r run) ∧ Steps s c ∧ Apart r s c ∧ Alike z c := by
      rcases hb : run.begun with _ | _
      · rcases h : s.rootInit r with ⟨_ | ⟨m, x⟩, f⟩
        · rw [hb, h] at begins
          exact (begins.elim nofun fun n => n rfl).elim
        · refine ⟨s.rootBegun e r m x f, ?_, ?_⟩
          · rw [runs, hb, h]
            rfl
          · have start : z = (s.sliceWrite e.uid 1 r.w.desc slM m).sliceWrite e.uid 1 r.w.desc slX x := by
              change (match run.begun, (s.rootInit r).1 with
                | false, some (m, x) => put (put s slM m) slX x
                | _, _ => s) = _
              rw [hb, h]
            rw [start]
            exact s.rootBegun_effects e r m x f
      · refine ⟨s, ?_, .refl s, .of_spad rfl, ?_⟩
        · rw [runs, hb]
          rfl
        · have start : z = s := by
            change (match run.begun, (s.rootInit r).1 with
              | false, some (m, x) => put (put s slM m) slX x
              | _, _ => s) = _
            rw [hb]
          rw [start]
          exact .refl s
    obtain ⟨c, runs', steps, bytes, like⟩ := check
    obtain ⟨leaves, conv, fail, goes⟩ := State.rootIterate_checked (e := e) r apart entry steps bytes like
    rw [last, whole] at conv fail goes
    refine .of_eq (z := c.rootIterate e r run) runs' rfl ⟨leaves, fun h k => ?_, fun h => ?_, fun h k l => goes h k l⟩
    · obtain ⟨spad, fin⟩ := conv h k
      exact ⟨spad, ⟨fin.finished, fin.gone, fin.place⟩, fin.group⟩
    · obtain ⟨spad, fin⟩ := fail h
      exact ⟨spad, failing _ _ fin⟩

/-- Settles O40: the check of an iteration, and the slices that it writes. -/
theorem rootIteration : Obligations.RootIteration := ⟨rootCheck, sliceHolds⟩

end Sys2Proof.Machine
end

/-! PROOFS. The operations of the Frame unit (spec/12): O51. -/

section
namespace Sys2Proof.Machine

/-! ### The result of an operation -/

/-- A state that an operation has ended in with its RESULT. -/
structure Posted (r : Nat) (s : State) : Prop where
  result : s.frame.result = BitVec.ofNat 8 r
  free : s.frame.busy = false
  irq : s.hinge.irqStat.getLsbD 4 = true

/-- What an end of an operation leaves: the planes, the commit under way, the latches and Jamb. -/
structure FrameStands (s s' : State) : Prop where
  plane0 : s'.frame.plane0 = s.frame.plane0
  plane1 : s'.frame.plane1 = s.frame.plane1
  effect : s'.frame.effect = s.frame.effect
  latch : s'.latch = s.latch
  jamb : s'.jamb = s.jamb

theorem State.framePost_posts (s : State) (r : Nat) (a : Option Nat) : Posted r (s.framePost r a) ∧ FrameStands s (s.framePost r a) := by
  have bit : ∀ v : BitVec 13, (v ||| BitVec.ofNat 13 (2 ^ 4)).getLsbD 4 = true := fun v => by simp
  unfold State.framePost State.goCleared State.irqSet
  dsimp only
  split
  · split <;> exact ⟨⟨rfl, rfl, bit _⟩, rfl, rfl, rfl, rfl, rfl⟩
  · exact ⟨⟨rfl, rfl, bit _⟩, rfl, rfl, rfl, rfl, rfl⟩

theorem FrameStands.planes {s s' : State} (h : FrameStands s s') (i : Nat) : s'.plane i = s.plane i := by
  unfold State.plane
  rw [h.plane0, h.plane1]

/-! ### A write of FRAME_CTL with GO -/

/-- The state in which an operation begins: the fields are written, and the port and the wake of a parked core have changed only. -/
def State.framed (s : State) (len : BitVec 17) (op : BitVec 3) (wait slot : Bool) (g : Hinge) (p : Power) : State :=
  { s with
    frame := { s.frame with len := len, opField := op, waitField := wait, slotField := slot }
    hinge := g
    pwr := p }

/-- The operation that GO begins. -/
def State.frameOp (s : State) (op : Nat) : State :=
  if s.frame.busy && !(decide (op = 3) && s.waitingPlane.isSome) then s.goRefused .frame
  else match op with
    | 1 => s.frameStage
    | 2 => s.frameCommit
    | 3 => s.frameDiscard
    | 4 => s.frameForce
    | _ => s

theorem State.wakeAsk_pwr (s : State) : ∃ p, s.wakeAsk = { s with pwr := p } := by
  unfold State.wakeAsk
  split
  · exact ⟨_, rfl⟩
  · exact ⟨s.pwr, rfl⟩

/-- What a write of FRAME_CTL does behind its fields. -/
def State.frameGo (s : State) (op : BitVec 3) (go : Bool) : State :=
  if !go || s.goIgnored .frame then s
  else if decide (5 ≤ op.toNat) then s.frameErr
  else if s.frame.busy && !(decide (op = 3) && s.waitingPlane.isSome) then s.goRefused .frame
  else match op.toNat with
    | 1 => s.frameStage
    | 2 => s.frameCommit
    | 3 => s.frameDiscard
    | 4 => s.frameForce
    | _ => s

theorem State.frameCtl_eq (s : State) (len : BitVec 17) (op : BitVec 3) (wait slot go : Bool) :
    s.frameCtl len op wait slot go = ((s.framed len op wait slot s.hinge s.pwr).wakeAsk).frameGo op go := rfl

theorem State.frameCtl_go {s : State} (go : s.goIgnored .frame = false) (len : BitVec 17) {op : BitVec 3} (known : op.toNat < 5) (wait slot : Bool)
    (g : Hinge) (p : Power) : ∃ p', ({ s with hinge := g, pwr := p } : State).frameCtl len op wait slot true =
      (s.framed len op wait slot g p').frameOp op.toNat := by
  obtain ⟨p', wakes⟩ := (s.framed len op wait slot g p).wakeAsk_pwr
  have op3 : decide (op = 3) = decide (op.toNat = 3) := by
    rw [decide_eq_decide]
    exact ⟨fun h => by rw [h]; rfl, fun h => BitVec.eq_of_toNat_eq h⟩
  have small : ¬5 ≤ op.toNat := by omega
  have begins : (s.framed len op wait slot g p').goIgnored .frame = false := go
  refine ⟨p', (State.frameCtl_eq _ len op wait slot true).trans ?_⟩
  change State.frameGo (s.framed len op wait slot g p).wakeAsk op true = _
  rw [wakes]
  change State.frameGo (s.framed len op wait slot g p') op true = _
  unfold State.frameGo State.frameOp
  rw [begins, op3]
  simp [small]

theorem State.hgRsp_hinge (s : State) (h : HgMeta) : ∃ g, s.hgRsp h 0 0 = { s with hinge := g } ∧ g.irqStat = s.hinge.irqStat := by
  unfold State.hgRsp State.hgQueue
  obtain ⟨off, denied, dec, pend, count⟩ := s.hgCount_stat 0
  obtain ⟨w, a, flush, -⟩ := State.hgFlush_hinge { s.hgCount 0 with hinge := { (s.hgCount 0).hinge with
    waiting := (s.hgCount 0).hinge.waiting ++ [{ id := h.id, rdata := 0, code := 0, done := true }] } }
  refine ⟨_, flush.trans (by rw [count]), ?_⟩
  rfl

/-- A row that writes FRAME_CTL with GO runs the operation and is answered. -/
theorem Completes.frameOp {s : State} {h : HgMeta} {c : Instr} {len : BitVec 17} {op : BitVec 3} {wait slot : Bool}
    (write : Completes c s fun s' => s' = ((((s.hinged h).hgFlush.regWake .frameCtl).frameCtl len op wait slot true).hgRsp h 0 0))
    (go : s.goIgnored .frame = false) (known : op.toNat < 5) {P : State → Prop}
    (holds : ∀ g p w, w.irqStat = ((s.framed len op wait slot g p).frameOp op.toNat).hinge.irqStat →
      P { (s.framed len op wait slot g p).frameOp op.toNat with hinge := w }) : Completes c s P := by
  refine write.mono fun s' eq => ?_
  obtain ⟨wt, a, flush, -⟩ := (s.hinged h).hgFlush_hinge
  obtain ⟨p, wake⟩ := (s.hinged h).hgFlush.regWake_pwr .frameCtl
  obtain ⟨p', run⟩ := State.frameCtl_go go len known wait slot { (s.hinged h).hinge with waiting := wt, answered := a } p
  rw [wake, flush] at eq
  obtain ⟨w, rsp, irq⟩ := ((s.framed len op wait slot { (s.hinged h).hinge with waiting := wt, answered := a } p').frameOp op.toNat).hgRsp_hinge h
  rw [eq]
  change P ((State.frameCtl { s with hinge := { (s.hinged h).hinge with waiting := wt, answered := a }, pwr := p } len op wait slot true).hgRsp h 0 0)
  rw [run, rsp]
  exact holds _ _ w irq

section Rows

variable {s : State} {h : HgMeta} (ready : s.hgReady = true) (one : h.bcast = false) (on : s.regOff .frameCtl = false)
  (go : s.goIgnored .frame = false) {P : State → Prop}

include ready one on go

theorem Completes.frameStage {len : BitVec 17} (holds : ∀ g p w, w.irqStat = ((s.framed len 1 false false g p).frameOp 1).hinge.irqStat →
    P { (s.framed len 1 false false g p).frameOp 1 with hinge := w }) : Completes (.frameStage h len) s P :=
  .frameOp (hostCommands_answered s h .F 0 0 0 0 0 0 len false false false false false 0 0 0 0 .tro 0 ready one
    (.frameStage h len, .frameCtl, fun s => s.frameCtl len 1 false false true) (by simp [hostCommands]) rfl on) go (by decide) holds

theorem Completes.frameCommit {wait : Bool} {slot : Fin 2}
    (holds : ∀ g p w, w.irqStat = ((s.framed 0 2 wait (decide (slot.val = 1)) g p).frameOp 2).hinge.irqStat →
      P { (s.framed 0 2 wait (decide (slot.val = 1)) g p).frameOp 2 with hinge := w }) : Completes (.frameCommit h wait slot) s P :=
  .frameOp (hostCommands_answered s h .F slot 0 0 0 0 0 0 wait false false false false 0 0 0 0 .tro 0 ready one
    (.frameCommit h wait slot, .frameCtl, fun s => s.frameCtl 0 2 wait (decide (slot.val = 1)) true) (by simp [hostCommands]) rfl on) go
    (by decide) holds

theorem Completes.frameDiscard {slot : Fin 2}
    (holds : ∀ g p w, w.irqStat = ((s.framed 0 3 false (decide (slot.val = 1)) g p).frameOp 3).hinge.irqStat →
      P { (s.framed 0 3 false (decide (slot.val = 1)) g p).frameOp 3 with hinge := w }) : Completes (.frameDiscard h slot) s P :=
  .frameOp (hostCommands_answered s h .F slot 0 0 0 0 0 0 false false false false false 0 0 0 0 .tro 0 ready one
    (.frameDiscard h slot, .frameCtl, fun s => s.frameCtl 0 3 false (decide (slot.val = 1)) true) (by simp [hostCommands]) rfl on) go
    (by decide) holds

theorem Completes.frameForceEnd {slot : Fin 2}
    (holds : ∀ g p w, w.irqStat = ((s.framed 0 4 false (decide (slot.val = 1)) g p).frameOp 4).hinge.irqStat →
      P { (s.framed 0 4 false (decide (slot.val = 1)) g p).frameOp 4 with hinge := w }) : Completes (.frameForceEnd h slot) s P :=
  .frameOp (hostCommands_answered s h .F slot 0 0 0 0 0 0 false false false false false 0 0 0 0 .tro 0 ready one
    (.frameForceEnd h slot, .frameCtl, fun s => s.frameCtl 0 4 false (decide (slot.val = 1)) true) (by simp [hostCommands]) rfl on) go
    (by decide) holds

end Rows

/-! ### The operations -/

theorem State.frameOp_free {s : State} (free : s.frame.busy = false) : s.frameOp 1 = s.frameStage ∧ s.frameOp 2 = s.frameCommit ∧
    s.frameOp 3 = s.frameDiscard ∧ s.frameOp 4 = s.frameForce := by
  unfold State.frameOp
  rw [free]
  exact ⟨rfl, rfl, rfl, rfl⟩

/-- While an operation runs, every other one sets ERR (R286). -/
theorem State.frameOp_busy {s : State} (busy : s.frame.busy = true) {op : Nat} (other : op ≠ 3) :
    (s.frameOp op).frame.err = true ∧ (s.frameOp op).frame.busy = true ∧ (s.frameOp op).frame.plane0 = s.frame.plane0 ∧
    (s.frameOp op).frame.plane1 = s.frame.plane1 := by
  unfold State.frameOp
  rw [if_pos (by simp [busy, other])]
  unfold State.goRefused State.setGoErr
  dsimp only
  split <;> exact ⟨rfl, busy, rfl, rfl⟩

/-- A commit that waits is cancelled by a discard, whatever runs (R282). -/
theorem State.frameOp_cancels {s : State} {p : Nat} (waiting : s.waitingPlane = some p) :
    s.frameOp 3 = (s.endContext p).framePost 0x24 none := by
  unfold State.frameOp
  rw [if_neg (by simp [waiting])]
  change s.frameDiscard = _
  unfold State.frameDiscard
  rw [waiting]
  rfl

theorem State.plane_modPlane {s : State} {p : Nat} {g : Plane → Plane} : (s.modPlane p g).plane p = g (s.plane p) := by
  unfold State.modPlane State.plane
  split <;> rfl

theorem State.plane_modPlane_other {s : State} {p : Nat} (h : p < 2) (g : Plane → Plane) : (s.modPlane p g).plane (1 - p) = s.plane (1 - p) := by
  unfold State.modPlane State.plane
  obtain rfl | rfl : p = 0 ∨ p = 1 := by omega
  · rfl
  · rfl

theorem State.plane_modPlane_back {s : State} {p : Nat} (h : p < 2) (g : Plane → Plane) : (s.modPlane (1 - p) g).plane p = s.plane p := by
  unfold State.modPlane State.plane
  obtain rfl | rfl : p = 0 ∨ p = 1 := by omega
  · rfl
  · rfl

theorem look_foldl_zipIdx (b : Nat) (l : List (Nat × Bool)) (n : Nat) (m : SMap (BitVec 8)) (k : Nat) :
    SMap.look ((l.zipIdx n).foldl (fun m l => SMap.put m 0 (b + l.2) (BitVec.ofNat 8 l.1.1)) m) 0 (b + k) =
      if n ≤ k ∧ k < n + l.length then BitVec.ofNat 8 (l.getD (k - n) (0, false)).1 else SMap.look m 0 (b + k) := by
  induction l generalizing n m with
  | nil =>
    rw [if_neg (by simp only [List.length_nil]; omega)]
    rfl
  | cons x l ih =>
    rw [List.zipIdx_cons, List.foldl_cons, ih, SMap.look_put, List.length_cons]
    obtain below | rfl | above : k < n ∨ k = n ∨ n < k := by omega
    · rw [if_neg (by omega), if_neg (by omega), if_neg (by omega)]
    · rw [if_neg (by omega), if_pos rfl, if_pos (by omega), Nat.sub_self]
      rfl
    · obtain ⟨j, hj⟩ : ∃ j, k - n = j + 1 := ⟨k - n - 1, by omega⟩
      have prev : k - (n + 1) = j := by omega
      rw [hj, prev, List.getD_cons_succ]
      by_cases inside : k < n + (l.length + 1)
      · rw [if_pos (by omega), if_pos (by omega)]
      · rw [if_neg (by omega), if_neg (by omega), if_neg (by omega)]

/-- The latches of a bank behind a commit (R251). -/
theorem look_bankInit (m : SMap (BitVec 8)) (bank : Nat) (f : FrameCfg) {k : Nat} (hk : k < f.latches.length) :
    SMap.look (bankInit m bank f) 0 (48 * bank + k) = BitVec.ofNat 8 (f.latches.getD k (0, false)).1 := by
  unfold bankInit
  rw [look_foldl_zipIdx, if_pos ⟨Nat.zero_le k, by omega⟩, Nat.sub_zero]

/-- The planes behind a commit, before the effect point is set. -/
def State.committed (s : State) (p : Nat) (f : FrameCfg) : State :=
  (s.commitCounts.modPlane (1 - p) fun x => if x.state = .live then { x with state := .ending } else x).modPlane p fun x => { x with
    state := .live, started := false, finished := false, groups := commitGroups f, norm := Norm.init, held := none }

/-- The latches take their INIT values and the effect point is due. -/
def State.inForce (s : State) (p : Nat) (f : FrameCfg) : State :=
  { s with
    latch := { s.latch with counts := bankInit s.latch.counts p f }
    frame := { s.frame with effect := some p, effectDue := false } }

theorem State.commitTo_eq (s : State) (p : Nat) (f : FrameCfg) :
    s.commitTo p f = (((s.committed p f).inForce p f).framePost 0 none).wakeAsk := rfl

theorem State.committed_planes {s : State} {p : Nat} (h : p < 2) (f : FrameCfg) : ((s.committed p f).plane p).state = .live ∧
    (s.committed p f).plane (1 - p) = if (s.plane (1 - p)).state = .live then { s.plane (1 - p) with state := .ending } else s.plane (1 - p) := by
  unfold State.committed
  constructor
  · rw [State.plane_modPlane]
  · rw [State.plane_modPlane_other h, State.plane_modPlane]
    rfl

/-- The commit cycle (R281). -/
theorem State.commitTo_effects {s : State} {p : Nat} (h : p < 2) (f : FrameCfg) :
    Posted 0 (s.commitTo p f) ∧ ((s.commitTo p f).plane p).state = .live ∧
    ((s.plane (1 - p)).state = .live → ((s.commitTo p f).plane (1 - p)).state = .ending) ∧ (s.commitTo p f).frame.effect = some p ∧
    ∀ k < f.latches.length, (s.commitTo p f).latchCount p k = BitVec.ofNat 8 (f.latches.getD k (0, false)).1 := by
  obtain ⟨live, other⟩ := State.committed_planes (s := s) h f
  obtain ⟨posted, stands⟩ := ((s.committed p f).inForce p f).framePost_posts 0 none
  rw [State.commitTo_eq]
  generalize ((s.committed p f).inForce p f).framePost 0 none = z at posted stands ⊢
  obtain ⟨w, wakes⟩ := z.wakeAsk_pwr
  rw [wakes]
  have planes : ∀ i, z.plane i = (s.committed p f).plane i := fun i => stands.planes i
  refine ⟨⟨posted.result, posted.free, posted.irq⟩, (congrArg Plane.state (planes p)).trans live, fun was => ?_, stands.effect, fun k hk => ?_⟩
  · refine (congrArg Plane.state ((planes (1 - p)).trans other)).trans ?_
    rw [if_pos was]
  · change SMap.look z.latch.counts 0 (48 * p + k) = _
    rw [stands.latch]
    exact look_bankInit _ p f hk

/-! ### The outcomes as O51 states them -/

/-- An answered operation shows its RESULT. -/
theorem Posted.answered {r : Nat} {y : State} (h : Posted r y) {w : Hinge} (irq : w.irqStat = y.hinge.irqStat) :
    ({ y with hinge := w } : State).frame.result = BitVec.ofNat 8 r ∧ ({ y with hinge := w } : State).frame.busy = false ∧
    ({ y with hinge := w } : State).hinge.irqStat.getLsbD 4 = true :=
  ⟨h.result, h.free, (congrArg (BitVec.getLsbD · 4) irq).trans h.irq⟩

/-- The RESULT of an operation that leaves the planes. -/
theorem State.framePost_answered (s : State) (r : Nat) (a : Option Nat) {w : Hinge} (irq : w.irqStat = (s.framePost r a).hinge.irqStat) :
    (({ s.framePost r a with hinge := w } : State).frame.result = BitVec.ofNat 8 r ∧
      ({ s.framePost r a with hinge := w } : State).frame.busy = false ∧
      ({ s.framePost r a with hinge := w } : State).hinge.irqStat.getLsbD 4 = true) ∧
    ({ s.framePost r a with hinge := w } : State).frame.plane0 = s.frame.plane0 ∧
    ({ s.framePost r a with hinge := w } : State).frame.plane1 = s.frame.plane1 := by
  obtain ⟨posted, stands⟩ := s.framePost_posts r a
  exact ⟨posted.answered irq, stands.plane0, stands.plane1⟩

theorem b2n_slot (slot : Fin 2) : b2n (decide (slot.val = 1)) = slot.val := by
  fin_cases slot <;> rfl

/-- The plane that staging takes (R277). -/
def State.stagePlane (s : State) : Nat := if decide (s.frame.plane0.state = .empty) then 0 else 1

/-- The reads of a Frame into plane `p` (R277). -/
def State.staged (s : State) (p : Nat) : State :=
  let rs := readRange (.staging p s.frame.addr.toNat) .staging s.frame.addr.toNat s.frame.len.toNat
  (({ s with frame := { s.frame with busy := true } } : State).modPlane p fun _ => { Plane.init with
    state := .staging, image := List.replicate s.frame.len.toNat 0, readsOut := rs.length }).jambAdd rs

theorem State.frameStage_eq (s : State) : s.frameStage =
    if s.frame.plane0.state ≠ .empty ∧ s.frame.plane1.state ≠ .empty then s.framePost 0x01 (some 0)
    else if ¬(s.frame.len.toNat % 8 = 0 ∧ 64 ≤ s.frame.len.toNat ∧ s.frame.len.toNat ≤ 65536) then s.framePost 0x02 (some 0)
    else s.staged s.stagePlane := by
  unfold State.frameStage
  refine if_congr ?_ rfl (if_congr ?_ rfl rfl)
  · simp
  · simp only [Bool.or_eq_true, decide_eq_true_eq]
    omega

theorem State.staged_effects {s : State} {p : Nat} (h : p < 2) :
    ((s.staged p).plane p).state = .staging ∧ (s.staged p).frame.busy = true ∧ ((s.staged p).plane p).image.length = s.frame.len.toNat ∧
    (s.staged p).plane (1 - p) = s.plane (1 - p) ∧
    (s.staged p).jamb.reqs = s.jamb.reqs ++ readRange (.staging p s.frame.addr.toNat) .staging s.frame.addr.toNat s.frame.len.toNat := by
  obtain rfl | rfl : p = 0 ∨ p = 1 := by omega
  · exact ⟨rfl, rfl, List.length_replicate, rfl, rfl⟩
  · exact ⟨rfl, rfl, List.length_replicate, rfl, rfl⟩

/-- A commit waits for the end of the other context (R282). -/
def State.commitWaits (s : State) (p : Nat) : State :=
  ({ s with frame := { s.frame with busy := true } } : State).modPlane p fun x => { x with state := .commitWait }

theorem State.commitWaits_effects {s : State} {p : Nat} (h : p < 2) : ((s.commitWaits p).plane p).state = .commitWait ∧
    (s.commitWaits p).frame.busy = true ∧ (s.commitWaits p).plane (1 - p) = s.plane (1 - p) := by
  obtain rfl | rfl : p = 0 ∨ p = 1 := by omega
  · exact ⟨rfl, rfl, rfl⟩
  · exact ⟨rfl, rfl, rfl⟩

/-- A commit of a staged plane (R279, R280, R282). -/
theorem State.frameCommit_staged {s : State} {p : Nat} {f : FrameCfg} (staged : s.stagedBy (b2n s.frame.slotField) = some p)
    (frame : s.frameOf p = some f) : s.frameCommit =
    match s.commitBad f with
    | some r => s.framePost r none
    | none =>
      if (match s.frameOf (1 - p) with
        | some o => !s.otherRuns p || overlapOk o f
        | none => true) then s.commitTo p f
      else if s.frame.waitField then s.commitWaits p else s.framePost 0x21 none := by
  unfold State.frameCommit
  rw [staged]
  dsimp only
  rw [frame]
  rfl

/-- A forced end of a context that is quiescent ends it (R285). -/
theorem State.frameForce_ends {s : State} (runs : (s.plane (b2n s.frame.slotField)).state = .live ∨ (s.plane (b2n s.frame.slotField)).state = .ending)
    (quiet : s.quiescent (b2n s.frame.slotField) = true) : ∃ z : State, s.frameForce = z.framePost 0 none := by
  unfold State.frameForce
  dsimp only
  rw [if_neg (by rcases runs with h | h <;> simp [h]), quiet, if_neg nofun]
  split
  · exact ⟨_, rfl⟩
  · exact ⟨_, rfl⟩

/-! ### The operations that GO begins -/

section Begins

variable {s : State} (free : s.frame.busy = false)

/-- The state in which an operation on the plane that SLOT names begins. -/
abbrev State.slotted (s : State) (op : BitVec 3) (wait : Bool) (slot : Fin 2) (g : Hinge) (w : Power) : State :=
  s.framed 0 op wait (decide (slot.val = 1)) g w

include free

theorem State.stage_full {len : BitVec 17} (full : s.frame.plane0.state ≠ .empty ∧ s.frame.plane1.state ≠ .empty) (g : Hinge) (w : Power) :
    (s.framed len 1 false false g w).frameOp 1 = (s.framed len 1 false false g w).framePost 0x01 (some 0) :=
  ((State.frameOp_free (s := s.framed len 1 false false g w) free).1.trans (State.frameStage_eq _)).trans (if_pos full)

theorem State.stage_length {len : BitVec 17} (room : s.frame.plane0.state = .empty ∨ s.frame.plane1.state = .empty)
    (bad : ¬(len.toNat % 8 = 0 ∧ 64 ≤ len.toNat ∧ len.toNat ≤ 65536)) (g : Hinge) (w : Power) :
    (s.framed len 1 false false g w).frameOp 1 = (s.framed len 1 false false g w).framePost 0x02 (some 0) := by
  refine ((State.frameOp_free (s := s.framed len 1 false false g w) free).1.trans (State.frameStage_eq _)).trans ?_
  exact (if_neg fun full => room.elim full.1 full.2).trans (if_pos bad)

theorem State.stage_begins {len : BitVec 17} {p : Fin 2} (empty : (s.plane p).state = .empty)
    (second : p.val = 1 → s.frame.plane0.state ≠ .empty) (good : len.toNat % 8 = 0 ∧ 64 ≤ len.toNat ∧ len.toNat ≤ 65536) (g : Hinge) (w : Power) :
    (s.framed len 1 false false g w).frameOp 1 = (s.framed len 1 false false g w).staged p.val := by
  have here : (s.framed len 1 false false g w).stagePlane = p.val := by
    fin_cases p
    · exact if_pos (decide_eq_true empty)
    · exact if_neg fun e => second rfl (of_decide_eq_true e)
  have room : ¬(s.frame.plane0.state ≠ .empty ∧ s.frame.plane1.state ≠ .empty) := by
    intro full
    fin_cases p
    · exact full.1 empty
    · exact full.2 empty
  refine ((State.frameOp_free (s := s.framed len 1 false false g w) free).1.trans (State.frameStage_eq _)).trans ?_
  exact ((if_neg room).trans (if_neg (not_not_intro good))).trans (congrArg _ here)

variable {slot : Fin 2} {wait : Bool}

theorem State.commit_none (none : s.stagedBy slot.val = none) (g : Hinge) (w : Power) :
    (s.slotted 2 wait slot g w).frameOp 2 = (s.slotted 2 wait slot g w).framePost 0x20 Option.none := by
  have none' : (s.slotted 2 wait slot g w).stagedBy (b2n (s.slotted 2 wait slot g w).frame.slotField) = Option.none :=
    (congrArg s.stagedBy (b2n_slot slot)).trans none
  refine (State.frameOp_free (s := s.slotted 2 wait slot g w) free).2.1.trans ?_
  unfold State.frameCommit
  rw [none']
  rfl

/-- A commit of the plane that is staged. -/
theorem State.commit_staged {p : Nat} {f : FrameCfg} (staged : s.stagedBy slot.val = some p) (frame : s.frameOf p = some f) (g : Hinge) (w : Power) :
    (s.slotted 2 wait slot g w).frameOp 2 = match s.commitBad f with
    | some r => (s.slotted 2 wait slot g w).framePost r none
    | none =>
      if (match s.frameOf (1 - p) with
        | some o => !s.otherRuns p || overlapOk o f
        | none => true) then (s.slotted 2 wait slot g w).commitTo p f
      else if wait then (s.slotted 2 wait slot g w).commitWaits p else (s.slotted 2 wait slot g w).framePost 0x21 none := by
  refine (State.frameOp_free (s := s.slotted 2 wait slot g w) free).2.1.trans ?_
  exact State.frameCommit_staged (s := s.slotted 2 wait slot g w) ((congrArg s.stagedBy (b2n_slot slot)).trans staged) frame

theorem State.discard_none (idle : s.waitingPlane = none) (none : s.stagedBy slot.val = none) (g : Hinge) (w : Power) :
    (s.slotted 3 false slot g w).frameOp 3 = (s.slotted 3 false slot g w).frameErr := by
  have idle' : (s.slotted 3 false slot g w).waitingPlane = Option.none := idle
  have none' : (s.slotted 3 false slot g w).stagedBy (b2n (s.slotted 3 false slot g w).frame.slotField) = Option.none :=
    (congrArg s.stagedBy (b2n_slot slot)).trans none
  refine (State.frameOp_free (s := s.slotted 3 false slot g w) free).2.2.1.trans ?_
  unfold State.frameDiscard
  rw [idle', none']

theorem State.discard_staged {p : Nat} (idle : s.waitingPlane = none) (staged : s.stagedBy slot.val = some p) (g : Hinge) (w : Power) :
    (s.slotted 3 false slot g w).frameOp 3 = ((s.slotted 3 false slot g w).endContext p).framePost 0 none := by
  have idle' : (s.slotted 3 false slot g w).waitingPlane = none := idle
  have staged' : (s.slotted 3 false slot g w).stagedBy (b2n (s.slotted 3 false slot g w).frame.slotField) = some p :=
    (congrArg s.stagedBy (b2n_slot slot)).trans staged
  refine (State.frameOp_free (s := s.slotted 3 false slot g w) free).2.2.1.trans ?_
  unfold State.frameDiscard
  rw [idle', staged']

theorem State.force_idle (live : (s.plane slot).state ≠ .live) (ending : (s.plane slot).state ≠ .ending) (g : Hinge) (w : Power) :
    (s.slotted 4 false slot g w).frameOp 4 = (s.slotted 4 false slot g w).frameErr := by
  refine (State.frameOp_free (s := s.slotted 4 false slot g w) free).2.2.2.trans (if_pos ?_)
  change (!(decide ((s.plane (b2n (decide (slot.val = 1)))).state = .live) ||
    decide ((s.plane (b2n (decide (slot.val = 1)))).state = .ending))) = true
  rw [b2n_slot]
  simp [live, ending]

theorem State.force_busy (runs : (s.plane slot).state = .live ∨ (s.plane slot).state = .ending) (busy : s.quiescent slot = false)
    (g : Hinge) (w : Power) : (s.slotted 4 false slot g w).frameOp 4 = (s.slotted 4 false slot g w).framePost 0x23 none := by
  refine (State.frameOp_free (s := s.slotted 4 false slot g w) free).2.2.2.trans ((if_neg ?_).trans (if_pos ?_))
  · change ¬(!(decide ((s.plane (b2n (decide (slot.val = 1)))).state = .live) ||
      decide ((s.plane (b2n (decide (slot.val = 1)))).state = .ending))) = true
    rw [b2n_slot]
    rcases runs with h | h <;> simp [h]
  · change (!s.quiescent (b2n (decide (slot.val = 1)))) = true
    rw [b2n_slot, busy]
    rfl

theorem State.force_ends (runs : (s.plane slot).state = .live ∨ (s.plane slot).state = .ending) (quiet : s.quiescent slot = true)
    (g : Hinge) (w : Power) : ∃ z : State, (s.slotted 4 false slot g w).frameOp 4 = z.framePost 0 none := by
  have runs' : (s.plane (b2n (decide (slot.val = 1)))).state = .live ∨ (s.plane (b2n (decide (slot.val = 1)))).state = .ending := by
    rw [b2n_slot]
    exact runs
  have quiet' : s.quiescent (b2n (decide (slot.val = 1))) = true := by
    rw [b2n_slot]
    exact quiet
  obtain ⟨z, op⟩ := State.frameForce_ends (s := s.slotted 4 false slot g w) runs' quiet'
  exact ⟨z, (State.frameOp_free (s := s.slotted 4 false slot g w) free).2.2.2.trans op⟩

end Begins

/-- Settles O51: each operation is the write of FRAME_CTL with GO. -/
theorem frameOperations : Obligations.FrameOperations := by
  intro s h ready one on go result planes
  refine ⟨fun busy len wait slot c hc => ?_, fun slot p waiting => ?_, fun free len => ⟨?stageFull, ?stageLength, ?stage⟩,
    fun free wait slot => ⟨?commitNone, ?commit, ?clash, ?commitBad⟩, fun free slot => ⟨?discardNone, ?discard, ?forceIdle, ?force⟩⟩
  · simp only [List.mem_cons, List.not_mem_nil, or_false] at hc
    obtain rfl | rfl | rfl := hc
    · exact .frameStage ready one on go fun g p w _ => State.frameOp_busy (s := s.framed len 1 false false g p) busy (by decide)
    · exact .frameCommit ready one on go fun g p w _ => State.frameOp_busy (s := s.slotted 2 wait slot g p) busy (by decide)
    · exact .frameForceEnd ready one on go fun g p w _ => State.frameOp_busy (s := s.slotted 4 false slot g p) busy (by decide)
  · refine .frameDiscard ready one on go fun g p' w irq => ?_
    rw [State.frameOp_cancels (s := s.slotted 3 false slot g p') waiting] at irq ⊢
    exact (State.framePost_answered _ _ _ irq).1
  case stageFull =>
    refine fun full0 full1 => .frameStage ready one on go fun g p w irq => ?_
    rw [State.stage_full free ⟨full0, full1⟩] at irq ⊢
    exact State.framePost_answered _ _ _ irq
  case stageLength =>
    refine fun room bad => .frameStage ready one on go fun g p w irq => ?_
    rw [State.stage_length free room bad] at irq ⊢
    exact State.framePost_answered _ _ _ irq
  case stage =>
    refine fun p empty second good => .frameStage ready one on go fun g w' w irq => ?_
    rw [State.stage_begins free empty second good]
    exact State.staged_effects (s := s.framed len 1 false false g w') p.isLt
  case commitNone =>
    refine fun none => .frameCommit ready one on go fun g p w irq => ?_
    rw [State.commit_none free none] at irq ⊢
    exact State.framePost_answered _ _ _ irq
  case commit =>
    refine fun p f staged frame hp fine meets => .frameCommit ready one on go fun g w' w irq => ?_
    have may : (match s.frameOf (1 - p) with
        | some o => !s.otherRuns p || overlapOk o f
        | none => true) = true := by
      split
      next o ho => rcases meets with quiet | ok <;> simp [*]
      · rfl
    rw [State.commit_staged free staged frame, fine] at irq ⊢
    simp only [if_pos may] at irq ⊢
    obtain ⟨posted, live, ending, effect, latches⟩ := State.commitTo_effects (s := s.slotted 2 wait slot g w') hp f
    exact ⟨posted.answered irq, live, ending, effect, fun k hk _ => latches k hk⟩
  case clash =>
    intro p f o staged frame hp fine runs other clash
    have may : ¬(match s.frameOf (1 - p) with
        | some o => !s.otherRuns p || overlapOk o f
        | none => true) = true := by
      rw [other]
      simp [runs, clash]
    refine ⟨fun stays => .frameCommit ready one on go fun g w' w irq => ?_, fun waits => .frameCommit ready one on go fun g w' w irq => ?_⟩
    · rw [State.commit_staged free staged frame, fine] at irq ⊢
      simp only [if_neg may, stays, if_neg (Bool.false_ne_true)] at irq ⊢
      exact State.framePost_answered _ _ _ irq
    · rw [State.commit_staged free staged frame, fine]
      simp only [if_neg may, waits, if_true]
      exact State.commitWaits_effects (s := s.slotted 2 true slot g w') hp
  case commitBad =>
    refine fun p f r staged frame bad => .frameCommit ready one on go fun g w' w irq => ?_
    rw [State.commit_staged free staged frame, bad] at irq ⊢
    exact State.framePost_answered _ _ _ irq
  case discardNone =>
    refine fun idle none => .frameDiscard ready one on go fun g p w irq => ?_
    rw [State.discard_none free idle none]
    exact ⟨rfl, rfl, rfl⟩
  case discard =>
    refine fun p idle staged => .frameDiscard ready one on go fun g w' w irq => ?_
    rw [State.discard_staged free idle staged] at irq ⊢
    exact (State.framePost_answered _ _ _ irq).1
  case forceIdle =>
    refine fun live ending => .frameForceEnd ready one on go fun g p w irq => ?_
    rw [State.force_idle free live ending]
    exact ⟨rfl, rfl, rfl⟩
  case force =>
    refine fun runs => ⟨fun busy => .frameForceEnd ready one on go fun g w' w irq => ?_,
      fun _ quiet => .frameForceEnd ready one on go fun g w' w irq => ?_⟩
    · rw [State.force_busy free runs busy] at irq ⊢
      exact State.framePost_answered _ _ _ irq
    · obtain ⟨z, op⟩ := State.force_ends free runs quiet g w'
      rw [op] at irq ⊢
      exact (State.framePost_answered _ _ _ irq).1

end Sys2Proof.Machine
end

/-! PROOFS. What follows an operation of the Frame unit (spec/12): O52. -/

section
namespace Sys2Proof.Machine

/-! ### What the core-wide sections move -/

/-- Clocks, power, the watchdog's period, the links and what they carry may have changed. -/
structure Retunes (s s' : State) : Prop where
  rest : { s' with
    wd := s.wd, pwr := s.pwr, clk := s.clk, door := s.door, eng := s.eng, latch := s.latch, fresh := s.fresh, hinge := s.hinge } = s
  weave : s'.eng.weave = s.eng.weave

namespace Retunes

theorem refl (s : State) : Retunes s s := ⟨rfl, rfl⟩

theorem trans {a b c : State} (h : Retunes a b) (k : Retunes b c) : Retunes a c where
  rest := (congrArg (fun z : State => { z with
    wd := a.wd, pwr := a.pwr, clk := a.clk, door := a.door, eng := a.eng, latch := a.latch, fresh := a.fresh, hinge := a.hinge }) k.rest).trans h.rest
  weave := k.weave.trans h.weave

theorem ite {s a b : State} (c : Prop) [Decidable c] (ha : Retunes s a) (hb : Retunes s b) : Retunes s (if c then a else b) := by
  split
  · exact ha
  · exact hb

theorem foldl {α : Type} {f : State → α → State} (step : ∀ s a, Retunes s (f s a)) (l : List α) (s : State) : Retunes s (l.foldl f s) := by
  induction l generalizing s with
  | nil => exact refl s
  | cons a as ih => exact (step s a).trans (ih _)

theorem pwr (s : State) (p : Power) : Retunes s { s with pwr := p } := ⟨rfl, rfl⟩

theorem of_sheds {s s' : State} (h : Sheds s s') : Retunes s s' where
  rest := congrArg (fun z : State => { z with wd := s.wd, pwr := s.pwr, clk := s.clk, hinge := s.hinge }) h.rest
  weave := by
    have weave := congrArg Engines.weave h.eng
    exact weave

theorem modLink (s : State) (l : Nat) (g : Link → Link) : Retunes s (s.modLink l g) := ⟨rfl, rfl⟩

theorem linkTo (s : State) (l : Nat) (st : LinkState) : Retunes s (s.linkTo l st) := ⟨rfl, rfl⟩

theorem linkWait (s : State) (l : Nat) : Retunes s (s.linkWait l) := ⟨rfl, rfl⟩

theorem linkClear (s : State) (l : Nat) : Retunes s (s.linkClear l) :=
  (modLink s l Link.emptied).trans (of_sheds (s.linkClear_sheds l).1)

theorem linkOff (s : State) (l : Nat) : Retunes s (s.linkOff l) :=
  ite _ (refl s) (((modLink s l _).trans (linkTo _ l .off)).trans (linkClear _ l))

/-- A link starts again (R281, R308). -/
theorem linkRestart (s : State) (l : Nat) (p q : Prop) [Decidable p] [Decidable q] :
    Retunes s (if p then s.linkOff l else if q then (s.linkWait l).linkTo l .hello else s.linkWait l) :=
  ite p (linkOff s l) (ite q ((linkWait s l).trans (linkTo _ l .hello)) (linkWait s l))

theorem door (s : State) (d : Doorway) : Retunes s { s with door := d } := ⟨rfl, rfl⟩

theorem doorRestart (s : State) : Retunes s s.doorRestart := by
  unfold State.doorRestart
  exact (door s _).trans (foldl (fun z l => ((linkClear z l).trans (modLink _ l _)).trans (linkRestart _ l _ _)) _ _)

theorem batchGo (s : State) : Retunes s s.batchGo := by
  unfold State.batchGo
  dsimp only
  split
  · exact refl s
  · split
    · exact pwr s _
    · exact ite _ (pwr s _) (refl s)

theorem batchAdd (s : State) (ds : List Nat) : Retunes s (s.batchAdd ds) :=
  ite _ (refl s) ((pwr s _).trans (batchGo _))

theorem followAssign (s : State) : Retunes s s.followAssign :=
  ((pwr s _).trans ((pwr _ _).trans (batchGo _))).trans (batchAdd _ _)

theorem seqGo (s : State) : Retunes s s.seqGo :=
  ite _ (refl s) (ite _ (pwr s _) (ite _ (pwr s _) (refl s)))

theorem setRunPoint (s : State) (n : Nat) : Retunes s (s.setRunPoint n) :=
  (pwr s _).trans (ite _ (refl _) ((pwr _ _).trans (seqGo _)))

theorem clk (s : State) (c : Clocks) : Retunes s { s with clk := c } := ⟨rfl, rfl⟩

theorem fallBack (s : State) : Retunes s s.fallBack := ⟨rfl, rfl⟩

theorem selectSource (s : State) (x : Source) : Retunes s (s.selectSource x) :=
  (clk s _).trans (ite _ (refl _) (ite _ (clk _ _) (fallBack _)))

theorem frame {s s' : State} (h : Retunes s s') : s'.frame = s.frame := by
  have frame := congrArg State.frame h.rest
  exact frame

end Retunes

/-- The core-wide sections of a Frame, with the plan in force. -/
def FrameUnit.takes (u : FrameUnit) (f : FrameCfg) (plan : PowerPlan) : FrameUnit :=
  { u with assign := f.assign, mullion := f.mullion, fault := f.fault, jambTags := f.tracker.1, plan := plan, doorway := f.doorway }

/-- Beside the Frame unit only clocks, power, the watchdog and the links follow an effect point (R281). -/
structure CoreWide (f : FrameCfg) (s s' : State) : Prop where
  frame : ∃ plan, s'.frame = s.frame.takes f plan
  rest : { s' with frame := s.frame, wd := s.wd, pwr := s.pwr, clk := s.clk, door := s.door, eng := s.eng, latch := s.latch,
                   fresh := s.fresh, hinge := s.hinge } = s
  weave : s'.eng.weave = s.eng.weave

theorem Retunes.within {s s' : State} (h : Retunes s s') (z : State) :
    { s' with frame := z.frame, wd := z.wd, pwr := z.pwr, clk := z.clk, door := z.door, eng := z.eng, latch := z.latch, fresh := z.fresh,
              hinge := z.hinge } =
    { s with frame := z.frame, wd := z.wd, pwr := z.pwr, clk := z.clk, door := z.door, eng := z.eng, latch := z.latch, fresh := z.fresh,
             hinge := z.hinge } :=
  congrArg (fun y : State => { y with frame := z.frame, wd := z.wd, pwr := z.pwr, clk := z.clk, door := z.door, eng := z.eng
                                      latch := z.latch, fresh := z.fresh, hinge := z.hinge }) h.rest

/-- The sections of the Frame unit in force, but the DOORWAY section. -/
def State.sectioned (s : State) (f : FrameCfg) : State :=
  { s with frame := { s.frame with assign := f.assign, mullion := f.mullion, fault := f.fault, jambTags := f.tracker.1 } }

theorem CoreWide.of_retunes {f : FrameCfg} {s a b c : State} {plan : PowerPlan} (h : Retunes (s.sectioned f) a)
    (i : Retunes { a with frame := { a.frame with plan := plan } } b)
    (j : Retunes { b with frame := { b.frame with doorway := f.doorway } } c) : CoreWide f s c where
  frame := by
    refine ⟨plan, ?_⟩
    rw [j.frame, i.frame, h.frame]
    rfl
  rest := (j.within s).trans ((i.within s).trans (h.within s))
  weave := j.weave.trans (i.weave.trans h.weave)

theorem State.doorTaken_retunes (s : State) (f : FrameCfg) : Retunes { s with frame := { s.frame with doorway := f.doorway } } (s.doorTaken f) :=
  (Retunes.door _ _).trans (.ite _ (.doorRestart _) (.refl _))

theorem State.planned_retunes (s : State) (o : Option PowerPlan) : ∃ plan, Retunes { s with frame := { s.frame with plan := plan } }
    (match o with
      | some p => s.planTaken p
      | none => s) := by
  cases o with
  | none => exact ⟨s.frame.plan, .refl s⟩
  | some p => exact ⟨p, (Retunes.selectSource _ _).trans (.setRunPoint _ _)⟩

theorem State.coreWide_effects (s : State) (f : FrameCfg) : CoreWide f s (s.coreWide f) := by
  have follows : Retunes (s.sectioned f) ((s.sectioned f).wdSet f.fault.wdPeriod (bitsN ((s.sectioned f).recData 66) 0 32)).followAssign :=
    Retunes.trans (b := (s.sectioned f).wdSet _ _) ⟨rfl, rfl⟩ (.followAssign _)
  obtain ⟨plan, planned⟩ := State.planned_retunes
    ((s.sectioned f).wdSet f.fault.wdPeriod (bitsN ((s.sectioned f).recData 66) 0 32)).followAssign f.power
  have last := (State.doorTaken_retunes _ f : Retunes _ ((match f.power with
      | some p => ((s.sectioned f).wdSet f.fault.wdPeriod (bitsN ((s.sectioned f).recData 66) 0 32)).followAssign.planTaken p
      | none => ((s.sectioned f).wdSet f.fault.wdPeriod (bitsN ((s.sectioned f).recData 66) 0 32)).followAssign).doorTaken f))
  change CoreWide f s ((match f.power with
      | some p => ((s.sectioned f).wdSet f.fault.wdPeriod (bitsN ((s.sectioned f).recData 66) 0 32)).followAssign.planTaken p
      | none => ((s.sectioned f).wdSet f.fault.wdPeriod (bitsN ((s.sectioned f).recData 66) 0 32)).followAssign).doorTaken f)
  generalize ((s.sectioned f).wdSet f.fault.wdPeriod (bitsN ((s.sectioned f).recData 66) 0 32)).followAssign = a at *
  generalize (match f.power with
    | some p => a.planTaken p
    | none => a) = b at *
  generalize b.doorTaken f = c at *
  exact .of_retunes follows planned last

/-! ### The weave restarts, the clocks of the assigned partitions stop -/

theorem State.modEngines_rest (s : State) (g : Engine → Engine) (l : List Nat) :
    { l.foldl (fun s q => s.modEngine q g) s with eng := s.eng } = s ∧ (l.foldl (fun s q => s.modEngine q g) s).eng.weave = s.eng.weave := by
  induction l generalizing s with
  | nil => exact ⟨rfl, rfl⟩
  | cons q l ih =>
    obtain ⟨rest, weave⟩ := ih (s.modEngine q g)
    have rest' := congrArg (fun z : State => { z with eng := s.eng }) rest
    exact ⟨rest', weave⟩

theorem State.weaveRestart_rest (s : State) : { s.weaveRestart with eng := s.eng } = s ∧ s.weaveRestart.eng.weave = 0 := by
  have h := (s.modEngines_rest (fun g => { g with used := 0, idle := 0, overrun := 0, lentCount := 0 }) (List.range 11)).1
  exact ⟨h, rfl⟩

theorem State.clockRanks_engs (s : State) (p : Nat) (stop : Nat → Bool) :
    { s.clockRanks p stop with eng := { (s.clockRanks p stop).eng with cells := s.eng.cells } } = s := by
  unfold State.clockRanks
  generalize (List.range (s.partLats p).length) = l
  have fold : ∀ (l : List Nat) (z : State), { l.foldl (fun s rank => s.modCells (s.cellsOf p rank) fun c => { c with gated := stop rank }) z with
      eng := { (l.foldl (fun s rank => s.modCells (s.cellsOf p rank) fun c => { c with gated := stop rank }) z).eng with cells := z.eng.cells } } = z := by
    intro l
    induction l with
    | nil => exact fun _ => rfl
    | cons r l ih =>
      intro z
      have h := ih (z.modCells (z.cellsOf p r) fun c => { c with gated := stop r })
      exact congrArg (fun y : State => { y with eng := { y.eng with cells := z.eng.cells } }) h
  exact fold l s

/-- Only clocks of engines and cells have been stopped. -/
structure Stands (s s' : State) : Prop where
  rest : { s' with eng := { s'.eng with engs := s.eng.engs, cells := s.eng.cells } } = s
  gated : ∀ q, (s.engine q).gated = true → (s'.engine q).gated = true

theorem Stands.refl (s : State) : Stands s s := ⟨rfl, fun _ h => h⟩

theorem Stands.trans {a b c : State} (h : Stands a b) (k : Stands b c) : Stands a c where
  rest := (congrArg (fun z : State => { z with eng := { z.eng with engs := a.eng.engs, cells := a.eng.cells } }) k.rest).trans h.rest
  gated q g := k.gated q (h.gated q g)

theorem Stands.frame {s s' : State} (h : Stands s s') : s'.frame = s.frame := by
  have frame := congrArg State.frame h.rest
  exact frame

/-- The halves that an assignment gives to a partition. -/
def halvesOf (a : BitVec 32) (p : Nat) : List Nat := (List.range 8).filter fun i => decide (bitsN a.toNat (4 * i) 4 = p)

/-- The clock of one partition at an effect point (R97). -/
def State.clockAssigned (old : BitVec 32) (alone : Bool) (s : State) (p : Nat) : State :=
  if (halvesOf s.frame.assign p).isEmpty || (!alone && decide (halvesOf s.frame.assign p = halvesOf old p)) then s
  else (s.modEngine p fun g => { g with gated := true }).clockRanks p fun _ => true

theorem State.clocksAssigned_eq (s : State) (old : BitVec 32) (alone : Bool) :
    s.clocksAssigned old alone = (List.range 8).foldl (State.clockAssigned old alone) s := rfl

theorem State.engine_modEngine (s : State) (p q : Nat) (g : Engine → Engine) :
    (s.modEngine p g).engine q = if q = p then g (s.engine p) else s.engine q := by
  unfold State.modEngine State.engine
  exact SMap.look_put ..

theorem State.clockAssigned_stands (old : BitVec 32) (alone : Bool) (s : State) (p : Nat) :
    Stands s (State.clockAssigned old alone s p) ∧
    (alone = true → (∃ i < 8, bitsN s.frame.assign.toNat (4 * i) 4 = p) → ((State.clockAssigned old alone s p).engine p).gated = true) := by
  unfold State.clockAssigned
  split
  next h =>
    refine ⟨.refl s, fun solo ⟨i, hi, has⟩ => ?_⟩
    have member : i ∈ halvesOf s.frame.assign p := List.mem_filter.mpr ⟨List.mem_range.mpr hi, decide_eq_true has⟩
    rw [solo] at h
    have none : halvesOf s.frame.assign p = [] := List.isEmpty_iff.mp (by simpa using h)
    rw [none] at member
    nomatch member
  · have ranks := (s.modEngine p fun g => { g with gated := true }).clockRanks_engs p fun _ => true
    have engine : ∀ q, ((s.modEngine p fun g => { g with gated := true }).clockRanks p fun _ => true).engine q =
        (s.modEngine p fun g => { g with gated := true }).engine q := by
      intro q
      have engs := congrArg (fun z : State => SMap.look z.eng.engs Engine.init q) ranks
      exact engs
    refine ⟨⟨?_, fun q g => ?_⟩, fun _ _ => ?_⟩
    · exact congrArg (fun z : State => { z with eng := { z.eng with engs := s.eng.engs, cells := s.eng.cells } }) ranks
    · rw [engine, State.engine_modEngine]
      split
      · rfl
      · exact g
    · rw [engine, State.engine_modEngine, if_pos rfl]

theorem State.foldl_clockAssigned (old : BitVec 32) (alone : Bool) (l : List Nat) (s : State) :
    Stands s (l.foldl (State.clockAssigned old alone) s) ∧
    (alone = true → ∀ q ∈ l, (∃ i < 8, bitsN s.frame.assign.toNat (4 * i) 4 = q) →
      ((l.foldl (State.clockAssigned old alone) s).engine q).gated = true) := by
  induction l generalizing s with
  | nil => exact ⟨.refl s, fun _ _ h => nomatch h⟩
  | cons p l ih =>
    obtain ⟨step, here⟩ := State.clockAssigned_stands old alone s p
    obtain ⟨rest, there⟩ := ih (State.clockAssigned old alone s p)
    refine ⟨step.trans rest, fun solo q hq has => ?_⟩
    rcases List.mem_cons.mp hq with rfl | hq
    · exact rest.gated q (here solo has)
    · exact there solo q hq (by rw [step.frame]; exact has)

/-! ### Contexts start -/

/-- What writing a journal leaves of a plane. -/
def Plane.Journaled (p p' : Plane) : Prop :=
  { p' with jOffset := p.jOffset, jWraps := p.jWraps, jEvents := p.jEvents, jLatch := p.jLatch, capturing := p.capturing } = p

theorem Plane.Journaled.trans {p q r : Plane} (h : p.Journaled q) (k : q.Journaled r) : p.Journaled r := by
  unfold Plane.Journaled at *
  rw [← h, ← k]

/-- A journal record has been written. -/
structure Journals (s s' : State) : Prop where
  rest : { s' with jamb := s.jamb, frame := s.frame } = s
  unit : { s'.frame with plane0 := s.frame.plane0, plane1 := s.frame.plane1 } = s.frame
  plane : ∀ i, (s.plane i).Journaled (s'.plane i)

namespace Journals

theorem refl (s : State) : Journals s s := ⟨rfl, rfl, fun _ => rfl⟩

theorem trans {a b c : State} (h : Journals a b) (k : Journals b c) : Journals a c where
  rest := (congrArg (fun z : State => { z with jamb := a.jamb, frame := a.frame }) k.rest).trans h.rest
  unit := (congrArg (fun z : FrameUnit => { z with plane0 := a.frame.plane0, plane1 := a.frame.plane1 }) k.unit).trans h.unit
  plane i := (h.plane i).trans (k.plane i)

theorem ite {s a b : State} (c : Prop) [Decidable c] (ha : Journals s a) (hb : Journals s b) : Journals s (if c then a else b) := by
  split
  · exact ha
  · exact hb

theorem modPlane (s : State) (c : Nat) {g : Plane → Plane} (h : ∀ p : Plane, p.Journaled (g p)) : Journals s (s.modPlane c g) := by
  unfold State.modPlane
  split
  next zero => 
    refine ⟨rfl, rfl, fun i => ?_⟩
    unfold State.plane
    split
    · exact h _
    · rfl
  next other =>
    refine ⟨rfl, rfl, fun i => ?_⟩
    unfold State.plane
    split
    · rfl
    · exact h _

theorem journalPut (s : State) (c : Nat) (t : Thread) (bs : List Byte) : Journals s (s.journalPut c t bs) := by
  unfold State.journalPut
  split
  · exact refl s
  · exact trans (b := s.jambAdd _) ⟨rfl, rfl, fun _ => rfl⟩ (modPlane _ _ fun _ => rfl)

theorem journalLatch (n : Nat) (s : State) (c : Nat) : Journals s (s.journalLatch c n) := by
  induction n generalizing s with
  | zero => exact refl s
  | succ n ih =>
    refine ite _ (refl s) (trans ?_ (ih _))
    exact (journalPut ..).trans (modPlane _ _ fun _ => rfl)

theorem journalStream (s : State) (c k : Nat) (t : Thread) (step : BitVec 32) (ws : List Word) :
    Journals s (s.journalStream c k t step ws) :=
  ite _ ((ite _ (journalLatch ..) (refl s) : Journals s (s.journalFlush c)).trans (journalPut ..)) (refl s)

theorem journalOpen (s : State) (t : Thread) : Journals s (s.journalOpen t) := by
  unfold State.journalOpen
  dsimp only
  split
  · exact refl s
  · refine trans ?_ (journalStream ..)
    exact ite _ (modPlane _ _ fun _ => rfl) (refl s)

end Journals

/-- Contexts have started: what the start of threads leaves of the engines, the replay and the planes. -/
structure Begins (s s' : State) : Prop where
  weave : s'.eng.weave = s.eng.weave
  engs : s'.eng.engs = s.eng.engs
  rpl : s'.rpl = s.rpl
  unit : { s'.frame with plane0 := s.frame.plane0, plane1 := s.frame.plane1 } = s.frame
  frame : ∀ i, (s'.plane i).frame = (s.plane i).frame
  restored : ∀ i, (s'.plane i).restored = (s.plane i).restored
  started : ∀ i, (s.plane i).started = true → (s'.plane i).started = true

namespace Begins

theorem refl (s : State) : Begins s s := ⟨rfl, rfl, rfl, rfl, fun _ => rfl, fun _ => rfl, fun _ h => h⟩

theorem trans {a b c : State} (h : Begins a b) (k : Begins b c) : Begins a c where
  weave := k.weave.trans h.weave
  engs := k.engs.trans h.engs
  rpl := k.rpl.trans h.rpl
  unit := (congrArg (fun z : FrameUnit => { z with plane0 := a.frame.plane0, plane1 := a.frame.plane1 }) k.unit).trans h.unit
  frame i := (k.frame i).trans (h.frame i)
  restored i := (k.restored i).trans (h.restored i)
  started i g := k.started i (h.started i g)

theorem foldl {α : Type} {f : State → α → State} (step : ∀ s a, Begins s (f s a)) (l : List α) (s : State) : Begins s (l.foldl f s) := by
  induction l generalizing s with
  | nil => exact refl s
  | cons a as ih => exact (step s a).trans (ih _)

theorem ite {s a b : State} (c : Prop) [Decidable c] (ha : Begins s a) (hb : Begins s b) : Begins s (if c then a else b) := by
  split
  · exact ha
  · exact hb

theorem of_journals {s s' : State} (h : Journals s s') : Begins s s' := by
  have eng := congrArg State.eng h.rest
  have rpl := congrArg State.rpl h.rest
  refine ⟨congrArg Engines.weave eng, congrArg Engines.engs eng, rpl, h.unit, fun i => ?_, fun i => ?_, fun i g => ?_⟩
  · have frame := congrArg Plane.frame (h.plane i)
    exact frame
  · have restored := congrArg Plane.restored (h.plane i)
    exact restored
  · have started := congrArg Plane.started (h.plane i)
    exact started.trans g

theorem of_rest {s s' : State} (eng : s'.eng = s.eng) (rpl : s'.rpl = s.rpl) (frame : s'.frame = s.frame) : Begins s s' := by
  have plane : ∀ i, s'.plane i = s.plane i := fun i => by unfold State.plane; rw [frame]
  refine ⟨congrArg Engines.weave eng, congrArg Engines.engs eng, rpl, by rw [frame], fun i => ?_, fun i => ?_, fun i g => ?_⟩
  · rw [plane]
  · rw [plane]
  · rw [plane, g]

theorem of_fetched {t : Thread} {s s' : State} (h : Fetched t s s') : Begins s s' := by
  have eng := congrArg State.eng h.rest
  have rpl := congrArg State.rpl h.rest
  have frame := congrArg State.frame h.rest
  exact of_rest eng rpl frame

theorem modTh (s : State) (t : Thread) (g : ThreadState → ThreadState) : Begins s (s.modTh t g) := by
  cases t <;> exact of_rest rfl rfl rfl

theorem startThread (s : State) (c : Nat) (t : Thread) (f : FrameCfg) : Begins s (s.startThread c t f) := by
  unfold State.startThread
  exact ((modTh ..).trans (of_journals (.journalOpen ..))).trans (of_fetched (State.fetchNext_fetched ..))

/-- A plane changes in nothing that its context's start needs. -/
theorem modPlane (s : State) (c : Nat) {g : Plane → Plane}
    (h : ∀ p, (g p).frame = p.frame ∧ (g p).restored = p.restored ∧ (p.started = true → (g p).started = true)) : Begins s (s.modPlane c g) := by
  have planes : ∀ i, (s.modPlane c g).plane i = s.plane i ∨ (s.modPlane c g).plane i = g (s.plane i) := by
    intro i
    unfold State.modPlane State.plane
    split <;> split <;> simp
  refine ⟨?_, ?_, ?_, ?_, fun i => ?_, fun i => ?_, fun i b => ?_⟩
  · unfold State.modPlane; split <;> rfl
  · unfold State.modPlane; split <;> rfl
  · unfold State.modPlane; split <;> rfl
  · unfold State.modPlane; split <;> rfl
  · rcases planes i with e | e <;> rw [e]
    exact (h _).1
  · rcases planes i with e | e <;> rw [e]
    exact (h _).2.1
  · rcases planes i with e | e <;> rw [e]
    · exact b
    · exact (h _).2.2 b

theorem stores (s : State) (l : LatchUnit) (a : SMap Accum) (h : Sash) :
    Begins s { s with latch := l, eng := { s.eng with accums := a }, sash := h } := ⟨rfl, rfl, rfl, rfl, fun _ => rfl, fun _ => rfl, fun _ h => h⟩

theorem restoreTaken (s : State) (c : Nat) (r : Restored) : Begins s (s.restoreTaken c r) := by
  have groups : Begins s (s.modPlane c fun p => { p with groups := r.groups, norm := r.norm }) := modPlane s c fun _ => ⟨rfl, rfl, id⟩
  refine groups.trans ?_
  unfold State.restoreTaken
  generalize (s.modPlane c fun p => { p with groups := r.groups, norm := r.norm }) = z
  dsimp only
  split <;> exact stores z _ _ _

end Begins

/-- A thread with a place in the context starts when it is IDLE (R281). -/
def State.startDue (c : Nat) (f : FrameCfg) (s : State) (t : Thread) : State :=
  if (s.th t).state = .idle && s.startsIn c t f then s.startThread c t f else s

/-- The context is marked as started, and its EVEC is in force (R281). -/
def State.markStarted (s : State) (c : Nat) (f : FrameCfg) : State :=
  let s := s.modPlane c fun p => { p with started := true }
  { s with sash := { s.sash with evec := f.evec } }

theorem State.contextStart_eq {s : State} {c : Nat} {f : FrameCfg} (frame : s.frameOf c = some f) :
    s.contextStart c = allThreads.foldl (State.startDue c f) (match ((s.markStarted c f).plane c).restored with
      | some r => (s.markStarted c f).restoreTaken c r
      | none => s.markStarted c f) := by
  unfold State.contextStart
  rw [frame]
  rfl

theorem State.markStarted_begins (s : State) (c : Nat) (f : FrameCfg) :
    Begins s (s.markStarted c f) ∧ ((s.markStarted c f).plane c).started = true := by
  have marks : Begins s (s.modPlane c fun p => { p with started := true }) := .modPlane s c fun _ => ⟨rfl, rfl, fun _ => rfl⟩
  have evec : Begins (s.modPlane c fun p => { p with started := true }) (s.markStarted c f) := .of_rest rfl rfl rfl
  refine ⟨marks.trans evec, ?_⟩
  exact congrArg Plane.started (State.plane_modPlane (s := s) (p := c) (g := fun p => { p with started := true }))

theorem Begins.startDue (c : Nat) (f : FrameCfg) (s : State) (t : Thread) : Begins s (State.startDue c f s t) :=
  .ite _ (.startThread s c t f) (.refl s)

theorem State.contextStart_begins (s : State) (c : Nat) :
    Begins s (s.contextStart c) ∧ ((s.frameOf c).isSome = true → ((s.contextStart c).plane c).started = true) := by
  rcases frame : s.frameOf c with _ | f
  · unfold State.contextStart
    rw [frame]
    exact ⟨.refl s, nofun⟩
  · rw [State.contextStart_eq frame]
    obtain ⟨marks, started⟩ := s.markStarted_begins c f
    have restores : Begins (s.markStarted c f) (match ((s.markStarted c f).plane c).restored with
        | some r => (s.markStarted c f).restoreTaken c r
        | none => s.markStarted c f) := by
      split
      · exact .restoreTaken ..
      · exact .refl _
    have all := restores.trans (.foldl (Begins.startDue c f) allThreads _)
    exact ⟨marks.trans all, fun _ => all.started c started⟩

theorem State.startsDue_begin (l : List Nat) (s : State) : Begins s (l.foldl State.contextStart s) ∧
    ∀ c ∈ l, (s.frameOf c).isSome = true → ((l.foldl State.contextStart s).plane c).started = true := by
  induction l generalizing s with
  | nil => exact ⟨.refl s, fun _ h => nomatch h⟩
  | cons c l ih =>
    obtain ⟨step, here⟩ := s.contextStart_begins c
    obtain ⟨rest, there⟩ := ih (s.contextStart c)
    refine ⟨step.trans rest, fun k hk frame => ?_⟩
    rcases List.mem_cons.mp hk with rfl | hk
    · exact rest.started k (here frame)
    · refine there k hk ?_
      have same : (s.contextStart c).frameOf k = s.frameOf k := step.frame k
      rw [same]
      exact frame

/-! ### The threads that a context starts -/

theorem State.startThread_others (s : State) (c : Nat) (t : Thread) (f : FrameCfg) :
    (∀ u ≠ t, (s.startThread c t f).th u = s.th u) ∧ (s.startThread c t f).sash.evec = s.sash.evec := by
  unfold State.startThread
  dsimp only
  generalize hg : (fun x : ThreadState => _) = g
  have fetched := State.fetchNext_fetched ((s.modTh t g).journalOpen t) t
  have journal := Beside.journalOpen (s.modTh t g) t
  refine ⟨fun u hu => ?_, ?_⟩
  · rw [fetched.threads u hu, journal.th, State.th_modTh_ne _ _ hu]
  · have evec := congrArg Sash.evec fetched.sash
    have evec' := congrArg (fun z : State => z.sash.evec) journal
    refine evec.trans (evec'.trans ?_)
    cases t <;> rfl

/-- An IDLE thread with an entry point stands there in the context (R281, R196). -/
theorem State.foldl_startDue {c : Nat} {f : FrameCfg} (l : List Thread) (distinct : l.Nodup) (s : State) (fresh : (s.plane c).restored = none) :
    (l.foldl (State.startDue c f) s).sash.evec = s.sash.evec ∧ (∀ t ∉ l, (l.foldl (State.startDue c f) s).th t = s.th t) ∧
    ∀ t ∈ l, (s.th t).state = .idle → f.entry t ≠ 0 →
      let x := (l.foldl (State.startDue c f) s).th t
      x.ctx = c ∧ x.pc = f.entry t ∧ x.stepno = f.step0 t ∧ x.wseq = 0 ∧ x.regs = (s.th t).regs := by
  induction l generalizing s with
  | nil => exact ⟨rfl, fun _ _ => rfl, fun _ h => nomatch h⟩
  | cons u l ih =>
    obtain ⟨notin, distinct'⟩ := List.nodup_cons.mp distinct
    have step : (∀ t ≠ u, (State.startDue c f s u).th t = s.th t) ∧ (State.startDue c f s u).sash.evec = s.sash.evec := by
      unfold State.startDue
      split
      · exact s.startThread_others c u f
      · exact ⟨fun _ _ => rfl, rfl⟩
    have fresh' : ((State.startDue c f s u).plane c).restored = none := ((Begins.startDue c f s u).restored c).trans fresh
    obtain ⟨evec, others, starts⟩ := ih distinct' (State.startDue c f s u) fresh'
    refine ⟨evec.trans step.2, fun t ht => ?_, fun t ht idle entry => ?_⟩
    · obtain ⟨ne, ht⟩ := not_or.mp (mt List.mem_cons.mpr ht)
      exact (others t ht).trans (step.1 t ne)
    · rcases List.mem_cons.mp ht with rfl | ht
      · have saved : s.savedOf c t = none := by
          unfold State.savedOf
          rw [fresh]
        have place : s.startsIn c t f = true := by
          unfold State.startsIn
          rw [saved]
          exact decide_eq_true entry
        have due : State.startDue c f s t = s.startThread c t f := if_pos (by rw [place, idle]; rfl)
        have here : ((t :: l).foldl (State.startDue c f) s).th t = (s.startThread c t f).th t :=
          (others t notin).trans (congrArg (fun z : State => z.th t) due)
        rw [here]
        exact State.th_startThread f saved
      · have ne : t ≠ u := fun e => notin (e ▸ ht)
        have before := step.1 t ne
        have h := starts t ht (by rw [before]; exact idle) entry
        rw [before] at h
        exact h

/-- A context that starts without a checkpoint (R281). -/
theorem State.contextStart_threads {s : State} {c : Nat} {f : FrameCfg} (frame : s.frameOf c = some f) (fresh : (s.plane c).restored = none) :
    (s.contextStart c).sash.evec = f.evec ∧ ∀ t, (s.th t).state = .idle → f.entry t ≠ 0 →
      let x := (s.contextStart c).th t
      x.ctx = c ∧ x.pc = f.entry t ∧ x.stepno = f.step0 t ∧ x.wseq = 0 ∧ x.regs = (s.th t).regs := by
  have fresh' : ((s.markStarted c f).plane c).restored = none := ((s.markStarted_begins c f).1.restored c).trans fresh
  rw [State.contextStart_eq frame, fresh']
  obtain ⟨evec, -, starts⟩ := State.foldl_startDue (f := f) allThreads (by decide) (s.markStarted c f) fresh'
  have threads : ∀ t, (s.markStarted c f).th t = s.th t := by
    intro t
    unfold State.markStarted State.modPlane
    cases t <;> split <;> rfl
  refine ⟨evec, fun t idle entry => ?_⟩
  have h := starts t (by cases t <;> decide) (by rw [threads]; exact idle) entry
  rw [threads] at h
  exact h

/-! ### The effect point -/

/-- The effect point has come (R239, R281). -/
def State.effectCome (s : State) : State :=
  { s with
    frame := { s.frame with effect := none, effectDue := false }
    boot := { s.boot with stage := if s.boot.stage = 7 then 8 else s.boot.stage } }

/-- The state in which the contexts start: the core-wide sections are in force. -/
def State.effective (s : State) (p : Nat) (f : FrameCfg) : State :=
  (((s.effectCome.weaveRestart).replayBegin p).coreWide f).clocksAssigned s.frame.assign (!s.otherRuns p)

theorem execEffectPoint_due {s : State} {p : Nat} {f : FrameCfg} (effect : s.frame.effect = some p) (due : s.frame.effectDue = true)
    (clock : s.clk.aclkOn = true) (frame : s.frameOf p = some f) :
    execEffectPoint s = .next (((s.effective p f).startsDue.foldl State.contextStart (s.effective p f)).replayGo) := by
  unfold execEffectPoint
  rw [effect]
  dsimp only
  rw [if_neg (by rw [due, clock]; nofun), frame]
  rfl

/-- What stands before the contexts start (R264, R281). -/
structure Effective (p : Nat) (f : FrameCfg) (s s' : State) : Prop where
  frame : ∃ plan, s'.frame = (s.effectCome).frame.takes f plan
  threads : ∀ t, s'.th t = s.th t
  rpl : s'.rpl = s.rpl
  weave : s'.eng.weave = 0
  gated : s.otherRuns p = false → ∀ q < 8, (∃ i < 8, bitsN f.assign.toNat (4 * i) 4 = q) → (s'.engine q).gated = true

theorem State.effective_effects {s : State} {p : Nat} (f : FrameCfg) (idle : s.rpl.plane = none) : Effective p f s (s.effective p f) := by
  obtain ⟨restart, weave⟩ := s.effectCome.weaveRestart_rest
  have shape : s.effective p f = ((s.effectCome.weaveRestart).coreWide f).clocksAssigned s.frame.assign (!s.otherRuns p) := by
    have same : s.effectCome.weaveRestart.replayBegin p = s.effectCome.weaveRestart := by
      unfold State.replayBegin
      have plane := congrArg (fun z : State => z.rpl.plane) restart
      have none : s.effectCome.weaveRestart.rpl.plane = none := plane.trans idle
      exact if_neg (by rw [none]; simp)
    unfold State.effective
    rw [same]
  rw [shape]
  generalize s.effectCome.weaveRestart = a at restart weave ⊢
  obtain ⟨⟨plan, frame⟩, rest, weave'⟩ := a.coreWide_effects f
  generalize a.coreWide f = b at frame rest weave' ⊢
  obtain ⟨stands, gated⟩ := b.foldl_clockAssigned s.frame.assign (!s.otherRuns p) (List.range 8)
  rw [State.clocksAssigned_eq]
  generalize (List.range 8).foldl (State.clockAssigned s.frame.assign (!s.otherRuns p)) b = c at stands gated ⊢
  have frame0 := congrArg State.frame restart
  have frameB : b.frame = s.effectCome.frame.takes f plan := frame.trans (congrArg (FrameUnit.takes · f plan) frame0)
  have weaveC := congrArg (fun z : State => z.eng.weave) stands.rest
  refine ⟨⟨plan, stands.frame.trans frameB⟩, fun t => ?_, ?_, weaveC.trans (weave'.trans weave), fun solo q hq has => ?_⟩
  · have th0 := congrArg (fun z : State => z.th t) restart
    have th1 := congrArg (fun z : State => z.th t) rest
    have th2 := congrArg (fun z : State => z.th t) stands.rest
    exact th2.trans (th1.trans th0)
  · have r0 := congrArg State.rpl restart
    have r1 := congrArg State.rpl rest
    have r2 := congrArg State.rpl stands.rest
    exact r2.trans (r1.trans r0)
  · refine gated (by rw [solo]; rfl) q (List.mem_range.mpr hq) ?_
    rw [frameB]
    exact has

theorem startsDue_congr {s s' : State} (h : ∀ i, s'.plane i = s.plane i) : s'.startsDue = s.startsDue := by
  unfold State.startsDue
  simp only [h]

theorem mem_startsDue_live {s : State} {p : Nat} (hp : p < 2) (live : (s.plane p).state = .live) (open_ : (s.plane p).finished = false)
    (fresh : (s.plane p).started = false) : p ∈ s.startsDue := by
  refine List.mem_append_right _ (List.mem_filter.mpr ⟨?_, ?_⟩)
  · obtain rfl | rfl : p = 0 ∨ p = 1 := by omega
    · exact .head _
    · exact .tail _ (.head _)
  · simp [Plane.due, live, open_, fresh]

/-- A commit takes effect (R281). -/
theorem effectPoint_completes {s : State} {p : Nat} {f : FrameCfg} (hp : p < 2) (effect : s.frame.effect = some p) (due : s.frame.effectDue = true)
    (clock : s.clk.aclkOn = true) (frame : s.frameOf p = some f) (plane : s.rpl.plane = none) (idle : s.rpl.active = false) :
    Completes .effectPoint s fun s' => s'.frame.effect = none ∧ s'.frame.assign = f.assign ∧ s'.frame.mullion = f.mullion ∧
      s'.frame.fault = f.fault ∧ s'.frame.doorway = f.doorway ∧ s'.eng.weave = 0 ∧
      (s.otherRuns p = false → ∀ q < 8, (∃ i < 8, bitsN f.assign.toNat (4 * i) 4 = q) → (s'.engine q).gated = true) ∧
      ((s.plane p).state = .live → (s.plane p).finished = false → (s'.plane p).started = true) ∧
      ((s.plane p).state = .live → (s.plane p).finished = false → (s.plane p).started = false → s.startsDue = [p] →
        (s.plane p).restored = none → s'.sash.evec = f.evec ∧
        ∀ t, (s.th t).state = .idle → f.entry t ≠ 0 → (s'.th t).ctx = p ∧ (s'.th t).pc = f.entry t ∧
          (s'.th t).stepno = f.step0 t ∧ (s'.th t).wseq = 0 ∧ (s'.th t).regs = (s.th t).regs) := by
  obtain ⟨⟨plan, unit⟩, threads, rpl, weave, gated⟩ := State.effective_effects (p := p) f plane
  have run := execEffectPoint_due effect due clock frame
  generalize s.effective p f = z at unit threads rpl weave gated run
  have planes : ∀ i, z.plane i = s.plane i := fun i => by unfold State.plane; rw [unit]; rfl
  have frame' : z.frameOf p = some f := (congrArg Plane.frame (planes p)).trans frame
  rw [startsDue_congr planes] at run
  obtain ⟨begins, starts⟩ := z.startsDue_begin s.startsDue
  have still : (s.startsDue.foldl State.contextStart z).replayGo = s.startsDue.foldl State.contextStart z :=
    State.replayGo_idle ((congrArg Replay.active (begins.rpl.trans rpl)).trans idle)
  have unit' := begins.unit.trans unit
  have effect' := congrArg FrameUnit.effect unit'
  have assign := congrArg FrameUnit.assign unit'
  have mullion := congrArg FrameUnit.mullion unit'
  have fault := congrArg FrameUnit.fault unit'
  have doorway := congrArg FrameUnit.doorway unit'
  refine .of_eq run still ⟨effect', assign, mullion, fault, doorway, begins.weave.trans weave,
    fun solo q hq has => ?_, fun live unfinished => ?_, fun live unfinished fresh only new => ?_⟩
  · unfold State.engine
    rw [begins.engs]
    exact gated solo q hq has
  · by_cases was : (s.plane p).started = true
    · exact begins.started p (by rw [planes]; exact was)
    · exact starts p (mem_startsDue_live hp live unfinished (by simpa using was)) (by rw [frame']; rfl)
  · rw [only]
    obtain ⟨evec, begun⟩ := State.contextStart_threads frame' (by rw [planes]; exact new)
    refine ⟨evec, fun t still entry => ?_⟩
    have h := begun t (by rw [threads]; exact still) entry
    rw [threads] at h
    exact h

/-! ### Staging and waiting commits -/

/-- A refused Frame leaves its plane EMPTY and names the field (R278). -/
theorem State.stageRefused_effects (s : State) (p r w : Nat) : Posted r (s.stageRefused p r w) ∧
    (s.stageRefused p r w).frame.whereField = BitVec.ofNat 16 w ∧ ((s.stageRefused p r w).plane p).state = .empty := by
  obtain ⟨posted, stands⟩ := (s.modPlane p fun _ => Plane.init).framePost_posts r (some w)
  refine ⟨posted, ?_, ?_⟩
  · unfold State.stageRefused State.framePost State.goCleared
    dsimp only
    split
    · split <;> rfl
    · rfl
  · exact congrArg Plane.state ((stands.planes p).trans State.plane_modPlane)

/-- Settles O52: staging, a commit that has waited, and the effect point. -/
theorem frameProgress : Obligations.FrameProgress := by
  intro s p f hp result
  refine ⟨fun staging arrived => ?_, fun waiting => ?_, fun effect due clock frame plane idle => effectPoint_completes hp effect due clock frame plane idle⟩
  · have run : execFrameStagingResult s = .next (
        if (s.plane p).imageErr then s.stageRefused p frMemory 0
        else match frameFault (s.plane p).image (s.frameEnv p) with
          | some r => s.stageRefused p r.1 r.2
          | none => (s.modPlane p fun x => { x with state := .staged, frame := some (frameOfBytes x.image), image := [] }).framePost 0 none) := by
      unfold execFrameStagingResult
      rw [staging]
      dsimp only
      exact congrArg Host.Outcome.next (if_neg (not_not_intro arrived))
    refine ⟨fun err => ?_, fun sound => ⟨fun fine => ?_, fun r w fault => ?_⟩⟩
    · obtain ⟨posted, -, empty⟩ := s.stageRefused_effects p frMemory 0
      exact .of_eq run (if_pos err) ⟨⟨posted.result, posted.free⟩, empty⟩
    · obtain ⟨posted, stands⟩ := (s.modPlane p fun x => { x with
        state := .staged, frame := some (frameOfBytes x.image), image := [] }).framePost_posts 0 none
      have plane := (stands.planes p).trans State.plane_modPlane
      refine .of_eq run ((if_neg (by rw [sound]; nofun)).trans (by rw [fine])) ⟨⟨posted.result, posted.free⟩, ?_⟩
      rw [plane]
      exact ⟨rfl, rfl⟩
    · obtain ⟨posted, at0, empty⟩ := s.stageRefused_effects p r w
      exact .of_eq run ((if_neg (by rw [sound]; nofun)).trans (by rw [fault])) ⟨⟨posted.result, posted.free⟩, at0, empty⟩
  · have run : execCommitWaitResolve s = .next (
        if s.otherRuns p then s
        else match s.frameOf p with
          | none => s
          | some f => match s.commitBad f with
            | some r => (s.modPlane p fun x => { x with state := .staged }).framePost r none
            | none => s.commitTo p f) := by
      unfold execCommitWaitResolve
      rw [waiting] <;> rfl
    refine ⟨fun busy => .of_eq run (if_pos busy) rfl, fun unshared frame => ⟨fun fine => ?_, fun r bad => ?_⟩⟩
    · obtain ⟨posted, live, -, effect, -⟩ := State.commitTo_effects (s := s) hp f
      exact .of_eq run ((if_neg (by rw [unshared]; nofun)).trans (by rw [frame]; dsimp only; rw [fine]))
        ⟨⟨posted.result, posted.free⟩, live, effect⟩
    · obtain ⟨posted, stands⟩ := (s.modPlane p fun x => { x with state := .staged }).framePost_posts r none
      have plane := (stands.planes p).trans State.plane_modPlane
      refine .of_eq run ((if_neg (by rw [unshared]; nofun)).trans (by rw [frame]; dsimp only; rw [bad])) ⟨⟨posted.result, posted.free⟩, ?_⟩
      rw [plane]

end Sys2Proof.Machine
end

/-! PROOFS. Packets that this core sinks, and remote signals (spec/13 R298, R301, R313; spec/11 R256). -/
section
namespace Sys2Proof.Machine

/-! ### Remote signals (11 R256) -/

theorem foldl_latch {α : Type} {f : State → α → State} (step : ∀ s a, (f s a).latch = s.latch) (l : List α) (s : State) :
    (l.foldl f s).latch = s.latch := by
  induction l generalizing s with
  | nil => rfl
  | cons a as ih => exact (ih _).trans (step s a)

theorem State.sigExtend_latch (s : State) (l : Nat) : (s.sigExtend l).latch = s.latch := by
  unfold State.sigExtend
  split <;> rfl

/-- A withheld SIG credit is a matter of the links. -/
theorem State.sigRelease_latch (s : State) : s.sigRelease.latch = s.latch :=
  foldl_latch (fun s _ => foldl_latch (fun s _ => s.sigExtend_latch _) _ s) _ s

theorem State.latchOverflow_pending (s : State) (bank k : Nat) (src : SigSrc) :
    (s.latchOverflow bank k src).latch.pending = s.latch.pending := by
  have stopIn (z : State) (u : Thread) : (stopIn bank z u).latch = z.latch := by
    unfold Sys2Proof.Machine.stopIn
    split
    · exact State.stopAtBoundary_latch ..
    · rfl
  have pushed : ((noteOverflow s bank k src).excPush (overflowInfo bank k src)).latch.pending = s.latch.pending := by
    rw [State.excPush_latch, noteOverflow]
  rw [State.latchOverflow_eq]
  unfold overflowPolicy
  split
  · split
    · rw [State.stopAtBoundary_latch, pushed]
    · exact pushed
  · have logs := congrArg State.latch (OnlyLogs.of_integrity (Machine.stopIn bank (Machine.stopIn bank (Machine.stopIn bank
      ((noteOverflow s bank k src).excPush (overflowInfo bank k src)) .F) .B) .U) { eventOf mechLatchPol 3 with ctx := bank }).rest
    have latch := logs
    rw [show _ = _ from latch, stopIn, stopIn, stopIn, pushed]
  · exact pushed

/-- A signal to a latch leaves the pending table alone. -/
theorem State.latchSignal_pending (s : State) (bank k : Nat) (src : SigSrc) :
    (s.latchSignal bank k src).latch.pending = s.latch.pending := by
  unfold State.latchSignal
  dsimp only
  rw [(Bystands.parityCheck _ _).2]
  split
  · rw [State.latchOverflow_pending, State.wakeAsk_latch]
  · rw [State.latchEvent_latch, State.setLatch]
    have woken := congrArg LatchUnit.pending (State.wakeAsk_latch s)
    exact woken

theorem remoteSignal : RemoteSignal := by
  intro s l src tag due
  refine ⟨fun nothing => .of_eq (s' := s) rfl ?_ rfl, fun q found => ⟨fun off => .of_eq (s' := s.wakeAsk) rfl ?_ rfl, fun on => ?_⟩⟩
  · dsimp only
    rw [nothing]
  · dsimp only
    rw [found]
    exact if_pos (by rw [off]; rfl)
  · let taken : State := { s with latch := { s.latch with pending := dropFirst due s.latch.pending } }
    let sig : SigSrc := { kind := 3, thread := .F, queue := 0, pc := 0, iseq := 0, link := l.val }
    refine .of_eq (s' := (taken.latchSignal q.slot q.latch sig).sigRelease) rfl ?_ ⟨?_, fun room => ?_⟩
    · dsimp only
      rw [found]
      exact if_neg (by rw [on]; nofun)
    · rw [State.sigRelease_latch, State.latchSignal_pending]
    · rw [State.latchCount_congr (State.sigRelease_latch _)]
      exact State.latchCount_latchSignal (s := taken) room sig

/-! ### A packet in its buffer (R297, R298) -/

/-- A packet of this core as its buffer takes it. -/
def State.freshSink (s : State) (l : Nat) (p : Packet) (xfer : Nat) : Sink :=
  { id := s.door.nextSink, link := l, pkt := p, xfer := xfer, slot := s.areaSlot l p.cls.val, waiting := 0, fill := none, got := [],
    err := false, begun := false, reading := false, fillBad := false, work := none }

/-- The state in which a packet of this core stands in its buffer. -/
def State.taking (s : State) (l : Nat) (w : Wire) (p : Packet) (xfer : Nat) : State :=
  (s.buffered l w p.cls.val).sinkAdd l p xfer (s.areaSlot l p.cls.val)

/-- What the arrival of a packet leaves of the block: `x` is the only packet in the buffers. -/
structure Buffers (x : Sink) (s y : State) : Prop where
  rest : { y with
      door := { y.door with links := s.door.links, sinks := [], nextSink := s.door.nextSink }
      eng := { y.eng with spad := s.eng.spad }
      int := { y.int with shutCount := s.int.shutCount, shutBlock := s.int.shutBlock, shutPend := s.int.shutPend } } = s
  sinks : y.door.sinks = [x]
  link : ∀ m, { y.link m with
    credit := (s.link m).credit, creditSeen := (s.link m).creditSeen, rxSeq := (s.link m).rxSeq, ackDue := (s.link m).ackDue } = s.link m

theorem State.spadWrite_rest (s : State) (w : BitWrite) : { s.spadWrite w with
    eng := { (s.spadWrite w).eng with spad := s.eng.spad }
    int := { (s.spadWrite w).int with shutCount := s.int.shutCount, shutBlock := s.int.shutBlock, shutPend := s.int.shutPend } } = s := by
  unfold State.spadWrite State.shutAccess
  dsimp only
  split <;> rfl

theorem State.areaWrite_bytes (s : State) (l : Nat) (slot : Option Nat) (w : Wire) : { s.areaWrite l slot w with
    eng := { (s.areaWrite l slot w).eng with spad := s.eng.spad }
    int := { (s.areaWrite l slot w).int with
      shutCount := s.int.shutCount, shutBlock := s.int.shutBlock, shutPend := s.int.shutPend } } = s := by
  unfold State.areaWrite
  split
  · split
    · exact s.spadWrite_rest _
    · rfl
  · rfl

theorem State.areaWrite_dark (s : State) (l : Nat) (slot : Option Nat) (w : Wire) : (s.areaWrite l slot w).bankDark = s.bankDark := by
  have rest := s.areaWrite_bytes l slot w
  have pwr := congrArg State.pwr rest
  have lt := congrArg State.lt rest
  exact State.bankDark_congr pwr lt

theorem Took.links {l c : Nat} {s z : State} (h : Took l c s z) (m : Nat) : { z.link m with
    credit := (s.link m).credit, creditSeen := (s.link m).creditSeen, rxSeq := (s.link m).rxSeq, ackDue := (s.link m).ackDue } =
      s.link m := by
  by_cases same : m = l
  · subst same
    exact h.link
  · rw [h.other m same]

/-- A packet of this core that arrives in sequence stands in its buffer. -/
theorem State.buffered_buffers {s : State} (empty : s.door.sinks = []) (l : Nat) (w : Wire) (p : Packet) (xfer : Nat) :
    Buffers (s.freshSink l p xfer) s (s.taking l w p xfer) := by
  unfold State.taking
  have took := s.arrived_took l w p.cls.val
  have bytes := (s.arrived l w p.cls.val).areaWrite_bytes l (s.areaSlot l p.cls.val) w
  have link (m : Nat) : (s.buffered l w p.cls.val).link m = (s.arrived l w p.cls.val).link m := s.buffered_link l w p.cls.val m
  have links := took.links
  have arrived := took.rest
  rw [← State.buffered] at bytes
  generalize s.buffered l w p.cls.val = y at *
  generalize s.arrived l w p.cls.val = z at *
  have door : { y.door with links := s.door.links } = s.door := by rw [← arrived, ← bytes]
  have sinks := congrArg Doorway.sinks door
  have next := congrArg Doorway.nextSink door
  dsimp only at sinks next
  refine ⟨?_, ?_, fun m => ?_⟩
  · have same : { y with
        door := { y.door with links := s.door.links }
        eng := { y.eng with spad := s.eng.spad }
        int := { y.int with shutCount := s.int.shutCount, shutBlock := s.int.shutBlock, shutPend := s.int.shutPend } } = s := by
      rw [← arrived, ← bytes]
    have held : { y.door with links := s.door.links, sinks := [], nextSink := s.door.nextSink } = s.door := by
      rw [← next, ← empty, ← sinks]
      exact door
    unfold State.sinkAdd
    dsimp only
    rw [held, ← door]
    exact same
  · unfold State.sinkAdd State.freshSink
    dsimp only
    rw [sinks, empty, next]
    rfl
  · have kept : (y.sinkAdd l p xfer (s.areaSlot l p.cls.val)).link m = z.link m := link m
    rw [kept]
    exact links m

/-- The bytes of the buffer, and no other, have changed. -/
theorem State.taking_bytes (s : State) (l : Nat) (w : Wire) (p : Packet) (xfer : Nat) :
    (s.taking l w p xfer).eng.spad = (s.areaWrite l (s.areaSlot l p.cls.val) w).eng.spad ∧
    (s.taking l w p xfer).eng.sill = s.eng.sill :=
  s.buffered_eng l w p.cls.val

/-- A packet in sequence for this core is tried at once when the buffers were empty. -/
theorem State.sunk_tries {s : State} {l : Nat} {w : Wire} (h : Arrives l w s) (empty : s.door.sinks = [])
    (mine : s.isMine (wirePacket w) = true) {c : Fin 6} {kind : Nat} (inSeq : SMap.look (s.link l).rxSeq 0 c.val = (wirePacket w).seq)
    (xfer : Nat) : let p := asRow (wirePacket w) c kind
    s.sunk l w xfer c kind = (s.taking l w p xfer).sinkTry (s.freshSink l p xfer) := by
  intro p
  have buffers : Buffers (s.freshSink l p xfer) s (s.taking l w p xfer) := State.buffered_buffers empty l w p xfer
  have received : s.receive l w c kind (fun p slot s => s.sinkAdd l p xfer slot) = s.taking l w p xfer := by
    rw [State.receive_arrives h, if_neg (not_not.mpr (show _ = (asRow (wirePacket w) c kind).seq from inSeq)),
      if_pos (by rw [show s.isMine (asRow (wirePacket w) c kind) = true from mine]; rfl)]
    rfl
  unfold State.sunk
  rw [if_pos (show s.linkUp l = true from decide_eq_true h.up), received, State.sinksGo]
  generalize s.taking l w p xfer = y at *
  have sinks := buffers.sinks
  rw [sinks]
  have here : y.sinkOf (s.freshSink l p xfer).id = some (s.freshSink l p xfer) := by
    unfold State.sinkOf
    rw [sinks]
    exact List.find?_cons_of_pos (by simp)
  have first : y.sinkFirst (s.freshSink l p xfer) = true := by
    unfold State.sinkFirst
    rw [sinks]
    simp [State.freshSink]
  simp only [List.map_cons, List.map_nil, List.foldl_cons, List.foldl_nil, State.sinkStep, here, first, if_true]

namespace Buffers

variable {x : Sink} {s y : State} (h : Buffers x s y)

include h

theorem eng : y.eng = { s.eng with spad := y.eng.spad } := by
  have eng := congrArg State.eng h.rest
  rw [← show _ = s.eng from eng]

theorem pwr : y.pwr = s.pwr := by
  have same := congrArg State.pwr h.rest
  exact same

theorem freed (m : Nat) : (y.link m).freed = (s.link m).freed := by
  have same := congrArg Link.freed (h.link m)
  exact same

theorem state (m : Nat) : (y.link m).state = (s.link m).state := by
  have same := congrArg Link.state (h.link m)
  exact same

end Buffers

/-- A packet in sequence for this core lies in its buffer, and is tried. -/
theorem State.sunk_buffered {s : State} {l : Nat} {w : Wire} (h : Arrives l w s) (empty : s.door.sinks = [])
    (mine : s.isMine (wirePacket w) = true) {c : Fin 6} (kind : Nat) (inSeq : SMap.look (s.link l).rxSeq 0 c.val = (wirePacket w).seq)
    (xfer : Nat) : ∃ y, s.sunk l w xfer c kind = y.sinkTry (s.freshSink l (asRow (wirePacket w) c kind) xfer) ∧
      Buffers (s.freshSink l (asRow (wirePacket w) c kind) xfer) s y ∧
      y.eng.spad = (s.areaWrite l (s.areaSlot l c.val) w).eng.spad ∧ y.eng.sill = s.eng.sill :=
  ⟨s.taking l w (asRow (wirePacket w) c kind) xfer, State.sunk_tries h empty mine inSeq xfer,
    State.buffered_buffers empty l w _ xfer, s.taking_bytes l w _ xfer⟩

/-- While ACLK stands a packet waits in its buffer (01 R23, 15 R369). -/
theorem packetWaits : PacketWaits := by
  intro s l x w off empty h mine c hm notRsp notMgt inSeq
  obtain ⟨kind, g, receives⟩ := packetCommand_receives hm
  obtain ⟨xfer, -, run⟩ := receives.sinks notMgt
  have row := receives.row
  obtain ⟨y, tries, buffers, area, -⟩ := State.sunk_buffered h empty mine kind (c := c.2.cls) (inSeq.trans (by rw [row]; rfl)) xfer
  rw [← row] at tries buffers
  have bytes : y.eng.spad = s.eng.spad := by
    rw [area]
    unfold State.areaWrite
    split
    · rw [if_neg (by rw [off]; nofun)]
    · rfl
  have sinks := buffers.sinks
  have eng := buffers.eng
  rw [bytes] at eng
  have clock : y.clk = s.clk := by
    have same := congrArg State.clk buffers.rest
    exact same
  have core : (y.needsCore c.2 && !y.clk.aclkOn) = true := by
    rw [clock, off, State.needsCore, decide_eq_true notRsp]
    rfl
  refine .of_eq (s' := if l.val < 4 then y.wakeAsk else y) (run s) (tries.trans (if_pos core)) ?_
  have fields (z : State) (door : z.door = y.door) (eng' : z.eng = y.eng) {q : Power} (pwr : z.pwr = q) :
      (∃ y, z.door.sinks = [y] ∧ y.pkt = c.2 ∧ y.link = l.val ∧ y.begun = false) ∧ z.eng = s.eng ∧
      (z.link l).freed = (s.link l).freed ∧ z.pwr = q :=
    ⟨⟨_, door ▸ sinks, rfl, rfl, rfl⟩, eng'.trans eng, by rw [State.link, door]; exact buffers.freed l, pwr⟩
  split
  next near =>
    refine fields _ (State.wakeAsk_door y) (State.wakeAsk_eng y) ?_
    unfold State.wakeAsk
    rw [buffers.pwr]
    split
    · rfl
    · exact buffers.pwr
  next far => exact fields y rfl rfl buffers.pwr

/-! ### Answers -/

/-- What a packet that has been answered leaves: the answer waits on the link, and the buffer is free. -/
structure Answered (x : Sink) (kind : Nat) (err : Bool) (pay : List Byte) (z s' : State) : Prop where
  answer : ∃ y ∈ (s'.link x.link).ready, y.pkt.cls = clsRsp ∧ y.pkt.kind = BitVec.ofNat 4 kind ∧ y.pkt.tag = x.pkt.tag ∧
    y.pkt.dst = x.pkt.src ∧ y.pkt.err = err ∧ y.pkt.payload = pay
  eng : s'.eng = z.eng
  sinks : s'.door.sinks = z.door.sinks.filter fun y => y.id ≠ x.id

/-- A packet that has been sunk leaves its buffer (R297, R299). -/
theorem State.sinkGone_rest (z : State) (x : Sink) : { z.sinkGone x with door := { (z.sinkGone x).door with links := z.door.links } } =
    { z with door := { z.door with sinks := z.door.sinks.filter fun y => y.id ≠ x.id } } := by
  have passes := (PassesOn.bufferFree x.link ({ z with door := { z.door with sinks := z.door.sinks.filter fun y => y.id ≠ x.id } } : State)
    x.pkt.cls.val).rest
  exact passes

theorem State.sinkGone_fields (z : State) (x : Sink) : (z.sinkGone x).eng = z.eng ∧
    (z.sinkGone x).door.sinks = (z.door.sinks.filter fun y => y.id ≠ x.id) ∧ (z.sinkGone x).door.tags = z.door.tags := by
  have rest := z.sinkGone_rest x
  have eng := congrArg State.eng rest
  have sinks := congrArg (fun z : State => z.door.sinks) rest
  have tags := congrArg (fun z : State => z.door.tags) rest
  exact ⟨eng, sinks, tags⟩

theorem State.sinkGone_ready (z : State) (x : Sink) (m : Nat) : ((z.sinkGone x).link m).ready = (z.link m).ready := by
  obtain ⟨⟨rest, -⟩, -⟩ := ({ z with door := { z.door with sinks := z.door.sinks.filter fun y => y.id ≠ x.id } } : State).bufferFree_link
    x.link x.pkt.cls.val m
  have ready := congrArg Link.ready rest
  exact ready

theorem State.answer_gone {z : State} {x : Sink} (up : (z.link x.link).state = .up) (kind : Nat) (err held : Bool) (pay : List Byte) :
    Answered x kind err pay z ((z.answer x.link x.pkt kind err held pay).sinkGone x) := by
  obtain ⟨eng, sinks, -⟩ := (z.answer x.link x.pkt kind err held pay).sinkGone_fields x
  have ready := (z.answer x.link x.pkt kind err held pay).sinkGone_ready x x.link
  generalize (z.answer x.link x.pkt kind err held pay).sinkGone x = s' at *
  unfold State.answer at eng sinks ready
  rw [if_pos (show z.linkUp x.link = true from decide_eq_true up)] at eng sinks ready
  refine ⟨?_, eng, sinks⟩
  rw [ready, State.link_txAdd, if_pos rfl]
  exact ⟨_, List.mem_append_right _ (List.mem_singleton.2 rfl), rfl, rfl, rfl, by simp [State.packet, txItem], rfl, rfl⟩

/-! ### Entries that wait for answers -/

theorem State.entry_freeFootprint (s : State) (d : Desc) (u : Nat) : (s.freeFootprint d).entry u = s.entry u ∧
    (s.freeFootprint d).door = s.door := by
  unfold State.freeFootprint
  dsimp only
  split
  · exact ⟨rfl, rfl⟩
  · split <;> exact ⟨rfl, rfl⟩
  · exact ⟨rfl, rfl⟩

/-- The settling of an entry leaves what it waits for, its status and the Doorway. -/
theorem State.entrySettle_entry {s : State} {u : Nat} {e : Entry} (entry : s.entry u = some e) : (s.entrySettle u).door = s.door ∧
    ∃ e', (s.entrySettle u).entry u = some e' ∧ e'.tagWait = e.tagWait ∧ e'.errStatus = e.errStatus := by
  have freed (ds : List Opnd) (z : State) : (ds.foldl (fun s d => s.freeFootprint d.desc) z).entry u = z.entry u ∧
      (ds.foldl (fun s d => s.freeFootprint d.desc) z).door = z.door := by
    induction ds generalizing z with
    | nil => exact ⟨rfl, rfl⟩
    | cons d ds ih =>
      obtain ⟨entry', door⟩ := z.entry_freeFootprint d.desc u
      exact ⟨(ih _).1.trans entry', (ih _).2.trans door⟩
  have done (z : State) (h : z.entry u = some e) : (z.entryDone u).door = z.door ∧
      ∃ e', (z.entryDone u).entry u = some e' ∧ e'.tagWait = e.tagWait ∧ e'.errStatus = e.errStatus := by
    have frame := z.entryDone_frame u
    have door := congrArg State.door frame
    exact ⟨door, _, State.entry_entryDone h, rfl, rfl⟩
  unfold State.entrySettle
  rw [entry]
  dsimp only
  split
  · unfold State.entryEnd
    rw [entry]
    dsimp only
    split
    · obtain ⟨still, door⟩ := freed e.job.dests s
      obtain ⟨door', ended⟩ := done _ (still.trans entry)
      exact ⟨door'.trans door, ended⟩
    · exact done s entry
  · exact ⟨rfl, e, entry, rfl, rfl⟩

/-- The entry of a tag that has been answered. -/
def Entry.answered (e : Entry) (status : Nat) : Entry :=
  if status = 0 then { e with tagWait := e.tagWait - 1 } else ({ e with tagWait := e.tagWait - 1 } : Entry).fail status

/-- A response ends its tag and counts for its entry (R298, R301). -/
theorem State.rspEnd_ends {z : State} {x : Sink} {g : DoorTag} {e : Entry} (tag : z.tagEntry x.pkt.tag.toNat = some (g, e))
    (red : z.redOf e.uid = none) (status : Nat) : ∃ k : State, z.rspEnd x status = (k.entrySettle e.uid).sinkGone x ∧
      k.entry e.uid = some (e.answered status) ∧ k.door = { z.door with tags := z.door.tags.filter fun y => y.tag ≠ g.tag } ∧
      k.eng = { z.eng with lanes := k.eng.lanes } := by
  have entry : z.entry e.uid = some e := by
    unfold State.tagEntry at tag
    split at tag
    · nomatch tag
    next t _ =>
      obtain ⟨e1, found, same⟩ := Option.map_eq_some_iff.mp tag
      obtain ⟨-, rfl⟩ := Prod.mk.inj same
      rw [State.uid_of_entry found]
      exact found
  let y : State := { z with door := { z.door with tags := z.door.tags.filter fun y => y.tag ≠ g.tag } }
  let k : State := y.modEntry e.uid fun e => { e with tagWait := e.tagWait - 1 }
  have counted : k.entry e.uid = some { e with tagWait := e.tagWait - 1 } := State.entry_modEntry_same (s := y) entry fun _ => rfl
  unfold State.rspEnd
  rw [tag]
  dsimp only
  by_cases ok : status = 0
  · rw [if_pos ok]
    refine ⟨k, rfl, ?_, rfl, rfl⟩
    rw [Entry.answered, if_pos ok]
    exact counted
  · rw [if_neg ok, if_neg (show ¬ (k.redOf e.uid).isSome = true by rw [show k.redOf e.uid = none from red]; nofun)]
    refine ⟨k.modEntry e.uid fun e => e.fail status, rfl, ?_, rfl, rfl⟩
    rw [Entry.answered, if_neg ok]
    exact State.entry_modEntry_same counted fun _ => rfl

/-- The end of a tag whose entry is no reduction: the tag and the packet's buffer are free, and the entry has one answer more. -/
theorem State.rspEnd_effects {z : State} {x : Sink} {g : DoorTag} {e : Entry} (tag : z.tagEntry x.pkt.tag.toNat = some (g, e))
    (red : z.redOf e.uid = none) (status : Nat) : (∀ y ∈ (z.rspEnd x status).door.tags, y.tag ≠ g.tag) ∧
      (z.rspEnd x status).door.sinks = (z.door.sinks.filter fun y => y.id ≠ x.id) ∧
      ∃ e', (z.rspEnd x status).entry e.uid = some e' ∧ e'.tagWait = e.tagWait - 1 ∧ e'.errStatus = (e.answered status).errStatus := by
  obtain ⟨k, shape, entry, door, -⟩ := State.rspEnd_ends tag red status
  obtain ⟨settled, e', entry', wait, err⟩ := State.entrySettle_entry entry
  obtain ⟨eng, sinks, tags⟩ := (k.entrySettle e.uid).sinkGone_fields x
  rw [settled, door] at sinks tags
  rw [shape]
  refine ⟨fun y hy => ?_, sinks, e', (State.entry_of_lanes (congrArg Engines.lanes eng) _).trans entry', ?_, err⟩
  · rw [tags, List.mem_filter] at hy
    exact of_decide_eq_true hy.2
  · rw [wait, Entry.answered]
    split <;> rfl

/-! ### What a packet does (R298, R313) -/

theorem State.tagBad_calm {y : State} (calm : y.calm) (p : Packet) : y.tagBad p = none := by
  unfold State.tagBad
  rw [State.upsetAt_calm calm]
  split <;> rfl

/-- While ACLK runs a packet whose tag, if it ends one, is sound does its work. -/
theorem State.sinkTry_works {y : State} {x : Sink} (on : y.clk.aclkOn = true) (sound : y.tagBad x.pkt = none) :
    y.sinkTry x = (y.sinkWork x).1.sinkDo x (y.sinkWork x).2 := by
  unfold State.sinkTry
  rw [if_neg (by rw [on]; simp), sound]

namespace Buffers

variable {x : Sink} {s y : State} (h : Buffers x s y)

include h

theorem calm (quiet : s.calm) : y.calm := by
  have strikes := congrArg (fun z : State => z.int.strikes) h.rest
  exact Eq.trans strikes quiet

theorem clk : y.clk = s.clk := by
  have same := congrArg State.clk h.rest
  exact same

theorem entry (u : Nat) : y.entry u = s.entry u := State.entry_of_lanes (by rw [h.eng]) u

theorem tagEntry (n : Nat) : y.tagEntry n = s.tagEntry n := by
  have tags := congrArg (fun z : State => z.door.tags) h.rest
  dsimp only at tags
  unfold State.tagEntry
  rw [tags]
  simp only [h.entry]

theorem redOf (u : Nat) : y.redOf u = s.redOf u := by
  have reds := congrArg (fun z : State => z.door.reds) h.rest
  exact congrArg (fun l : List RedRun => l.find? fun r => r.uid = u) reds

end Buffers

/-- An acknowledgement of a tag that is no fetch's ends it (R298, R301). -/
theorem State.rspWork_ack {y : State} {p : Packet} {g : DoorTag} {e : Entry} (tag : y.tagEntry p.tag.toNat = some (g, e))
    (put : ∀ loc route, e.job = .put loc route → bitN route.toNat 34 = false) : y.rspWork p = if p.err then .fail else .drop := by
  unfold State.rspWork
  rw [tag]
  dsimp only
  split
  · rfl
  · split
    next job => rw [put _ _ job]; rfl
    · rfl

/-- An acknowledgement frees its tag and counts for its entry (R298, R301). -/
theorem rspAck_sinks {s : State} {l : Fin 6} {w : Wire} (calm : s.calm) (on : s.clk.aclkOn = true) (h : Arrives l w s)
    (empty : s.door.sinks = []) (mine : s.isMine (wirePacket w) = true)
    (inSeq : SMap.look (s.link l).rxSeq 0 clsRsp.val = (wirePacket w).seq) {g : DoorTag} {e : Entry}
    (tag : s.tagEntry (wirePacket w).tag.toNat = some (g, e)) (red : s.redOf e.uid = none)
    (put : ∀ loc route, e.job = .put loc route → bitN route.toNat 34 = false) : Completes (.rspAck l w) s fun s' =>
      (∀ y ∈ s'.door.tags, y.tag ≠ g.tag) ∧ ∃ e', s'.entry e.uid = some e' ∧ e'.tagWait = e.tagWait - 1 ∧
        e'.errStatus = if (wirePacket w).err then (e.fail stRemoteFault).errStatus else e.errStatus := by
  obtain ⟨y, tries, buffers, -, -⟩ := State.sunk_buffered h empty mine 0 inSeq 0
  generalize hx : s.freshSink l (asRow (wirePacket w) clsRsp 0) 0 = x at *
  have pkt : x.pkt = asRow (wirePacket w) clsRsp 0 := by rw [← hx]; rfl
  have tag' : y.tagEntry x.pkt.tag.toNat = some (g, e) := by rw [pkt, buffers.tagEntry]; exact tag
  have work : y.sinkWork x = (y, if x.pkt.err then .fail else .drop) := by
    unfold State.sinkWork
    rw [if_pos (by rw [pkt]; rfl), State.rspWork_ack tag' put]
  have ends : y.sinkTry x = y.rspEnd x (if x.pkt.err then stRemoteFault else 0) := by
    rw [State.sinkTry_works (buffers.clk ▸ on) (State.tagBad_calm (buffers.calm calm) _), work]
    cases x.pkt.err
    · rfl
    · exact if_pos (by rw [pkt]; rfl)
  obtain ⟨tags, -, e', entry, wait, err⟩ := State.rspEnd_effects tag' ((buffers.redOf e.uid).trans red) (if x.pkt.err then stRemoteFault else 0)
  refine .of_eq rfl (tries.trans ends) ⟨tags, e', entry, wait, err.trans ?_⟩
  rw [show x.pkt.err = (wirePacket w).err by rw [pkt]; rfl]
  cases (wirePacket w).err <;> rfl

/-! ### Data of puts (R298, R313) -/

theorem Journals.journalInput (s : State) (c src cls : Nat) (ctxid : BitVec 32) (h i b k : Nat) (pay : List Byte) :
    Journals s (s.journalInput c src cls ctxid h i b k pay) := by
  unfold State.journalInput
  refine ite _ ?_ (refl s)
  dsimp only
  refine trans (trans (ite _ (journalLatch ..) (refl s) : Journals s (s.journalFlush c)) (journalPut ..)) (modPlane _ c ?_)
  exact fun _ => rfl

/-- A packet whose work fails is answered with an error (R313). -/
theorem State.sinkFail_answers {z : State} {x : Sink} (up : (z.link x.link).state = .up) : Answered x 0 true [] z (z.sinkFail x) := by
  have counted (u : State) (door : u.door = z.door) (eng : u.eng = z.eng) :
      Answered x 0 true [] z ((u.answer x.link x.pkt 0 true false []).sinkGone x) := by
    have links : u.link x.link = z.link x.link := by rw [State.link, door]; rfl
    obtain ⟨answer, eng', sinks⟩ := State.answer_gone (z := u) (links.symm ▸ up) 0 true false []
    exact ⟨answer, eng'.trans eng, sinks.trans (by rw [door])⟩
  unfold State.sinkFail
  dsimp only
  split
  · exact counted _ rfl rfl
  · exact counted z rfl rfl

theorem State.tallyAdd_frame (z : State) (x : Sink) : { z.tallyAdd x with latch := z.latch } = z := by
  unfold State.tallyAdd
  dsimp only
  split
  · rfl
  · split <;> rfl

/-- The count of the written bytes of a put (11 R256). -/
def State.putCounted (s : State) (x : Sink) : State :=
  if decide (x.pkt.cls = clsSig) then
    { s with latch := { s.latch with
      pending := updFirst (fun q => q.isOf x.link x.pkt) (fun q => { q with tally := q.tally + x.pkt.payload.length }) s.latch.pending } }
  else if s.rpl.active then s
  else s.tallyAdd x

/-- The journal's record of a put's packet (16 R397). -/
def State.putJournaled (s : State) (x : Sink) : State :=
  match s.ctxSlot x.pkt.ctxid with
  | some c => s.sinkJournal x c (pktHandle x.pkt) (pktIndex x.pkt) (pktB x.pkt)
      (if decide (x.pkt.cls = clsSig) then pktLatch x.pkt else 63)
  | none => s

theorem State.putDone_eq (s : State) (x : Sink) :
    s.putDone x = (((s.putCounted x).putJournaled x).answer x.link x.pkt 0 false false []).sinkGone x := rfl

theorem State.putCounted_frame (s : State) (x : Sink) : { s.putCounted x with latch := s.latch } = s := by
  unfold State.putCounted
  split
  · rfl
  · split
    · rfl
    · exact s.tallyAdd_frame x

theorem State.putJournaled_journals (s : State) (x : Sink) : Journals s (s.putJournaled x) := by
  unfold State.putJournaled
  split
  · exact .journalInput ..
  · exact .refl s

/-- A packet of a put whose bytes are written is answered (R298). -/
theorem State.putDone_answers {z : State} {x : Sink} (up : (z.link x.link).state = .up) : Answered x 0 false [] z (z.putDone x) := by
  have counted := z.putCounted_frame x
  have journal := ((z.putCounted x).putJournaled_journals x).rest
  rw [State.putDone_eq]
  generalize (z.putCounted x).putJournaled x = v at *
  generalize z.putCounted x = u at *
  have door : v.door = z.door := by rw [← counted, ← journal]
  have eng : v.eng = z.eng := by rw [← counted, ← journal]
  have links : v.link x.link = z.link x.link := by rw [State.link, door]; rfl
  obtain ⟨answer, eng', sinks⟩ := State.answer_gone (z := v) (links.symm ▸ up) 0 false false []
  exact ⟨answer, eng'.trans eng, sinks.trans (by rw [door])⟩

theorem State.foldl_spadWrite_rest (z : State) (ws : List BitWrite) : { ws.foldl State.spadWrite z with
    eng := { (ws.foldl State.spadWrite z).eng with spad := z.eng.spad }
    int := { (ws.foldl State.spadWrite z).int with
      shutCount := z.int.shutCount, shutBlock := z.int.shutBlock, shutPend := z.int.shutPend } } = z := by
  induction ws generalizing z with
  | nil => rfl
  | cons w ws ih =>
    have first := z.spadWrite_rest w
    have others := ih (z.spadWrite w)
    rw [List.foldl_cons]
    generalize ws.foldl State.spadWrite (z.spadWrite w) = b at *
    generalize z.spadWrite w = a at *
    rw [← first, ← others]

theorem State.foldl_spadWrite_congr {a b : State} (spad : a.eng.spad = b.eng.spad) (dark : a.bankDark = b.bankDark) (ws : List BitWrite) :
    (ws.foldl State.spadWrite a).eng.spad = (ws.foldl State.spadWrite b).eng.spad := by
  rw [State.spad_foldl_spadWrite, State.spad_foldl_spadWrite, spad, dark]

/-- What the data of a packet leaves in the scratchpad. -/
structure Sunk (x : Sink) (ws : List BitWrite) (z s' : State) : Prop where
  answer : ∃ y ∈ (s'.link x.link).ready, y.pkt.cls = clsRsp ∧ y.pkt.kind = 0 ∧ y.pkt.tag = x.pkt.tag ∧ y.pkt.dst = x.pkt.src ∧
    y.pkt.err = false
  spad : s'.eng.spad = (ws.foldl State.spadWrite z).eng.spad
  sill : s'.eng.sill = z.eng.sill

/-- The data of a put for the scratchpad are written and answered. -/
theorem State.sinkData_sinks {z : State} {x : Sink} (rsp : x.pkt.cls ≠ clsRsp) (red : x.pkt.cls ≠ clsRed)
    (up : (z.link x.link).state = .up) {d : Desc} (spad : d.space = 1) (i n : Nat) :
    Sunk x (runWrites d i n x.pkt.payload) z (z.sinkData x d i n none) := by
  have writes (u : State) (same : { u with latch := z.latch } = z) : Sunk x (runWrites d i n x.pkt.payload) z
      (u.sinkRead x d i n (partialAddrs d (runTaken d i n)) fun s =>
        let ws := runWrites d i n x.pkt.payload
        (s.noteAll none ws).sinkWrite x d ws) := by
    have eng := congrArg State.eng same
    have door := congrArg State.door same
    have pwr := congrArg State.pwr same
    have lt := congrArg State.lt same
    dsimp only at eng door pwr lt
    have whole : partialAddrs d (runTaken d i n) = [] := by
      unfold partialAddrs
      rw [spad]
      rfl
    have shape : (u.sinkRead x d i n (partialAddrs d (runTaken d i n)) fun s =>
        let ws := runWrites d i n x.pkt.payload
        (s.noteAll none ws).sinkWrite x d ws) = ((runWrites d i n x.pkt.payload).foldl State.spadWrite u).putDone x := by
      unfold State.sinkRead
      rw [whole, List.isEmpty_nil, if_pos rfl]
      dsimp only
      rw [State.sinkWrite, if_pos spad, State.sinkDone, if_neg rsp, if_neg red]
      rfl
    have rest := u.foldl_spadWrite_rest (runWrites d i n x.pkt.payload)
    have bytes := State.foldl_spadWrite_congr (a := u) (b := z) (congrArg Engines.spad eng) (State.bankDark_congr pwr lt)
      (runWrites d i n x.pkt.payload)
    rw [shape]
    generalize (runWrites d i n x.pkt.payload).foldl State.spadWrite u = v at *
    have door' := congrArg State.door rest
    have sill := congrArg (fun z : State => z.eng.sill) rest
    dsimp only at door' sill
    have links : v.link x.link = z.link x.link := by rw [State.link, door', door]; rfl
    obtain ⟨⟨y, mem, cls, kind, tag, dst, err, -⟩, eng', -⟩ := State.putDone_answers (z := v) (x := x) (links.symm ▸ up)
    exact ⟨⟨y, mem, cls, kind, tag, dst, err⟩, by rw [eng']; exact bytes, by rw [eng', sill, eng]⟩
  unfold State.sinkData
  dsimp only
  split
  · split
    · split
      · exact writes _ rfl
      · exact writes _ rfl
    · exact writes z rfl
  · exact writes z rfl

/-! ### The checks of a put's packet (R313) -/

theorem State.dcTouch_frame (s : State) (c h : Nat) : { s.dcTouch c h with dcache := s.dcache } = s := by
  unfold State.dcTouch
  split <;> rfl

/-- Without strikes the read of a descriptor moves its entry only. -/
theorem State.dcRead_calm {s : State} (calm : s.calm) (c h : Nat) : { (s.dcRead c h).1 with dcache := s.dcache } = s ∧
    (s.dcRead c h).2 = s.dcFind c h := by
  unfold State.dcRead
  split
  next miss => exact ⟨rfl, miss.symm⟩
  next e hit =>
    rw [State.upsetAt_calm calm]
    exact ⟨s.dcTouch_frame c h, hit.symm⟩

theorem State.resolve1_calm {s : State} (calm : s.calm) (c h : Nat) (dest : Bool) :
    { (s.resolve1 c h dest).1 with dcache := s.dcache } = s ∧ (s.resolve1 c h dest).2 =
      if 2 ^ 20 ≤ h || h = 0 || s.descCount c ≤ h then .bad stBadHandle else resolved c h dest (s.dcFind c h) := by
  obtain ⟨frame, read⟩ := State.dcRead_calm calm c h
  unfold State.resolve1
  split
  · exact ⟨rfl, rfl⟩
  · exact ⟨frame, congrArg (resolved c h dest) read⟩

/-- Without strikes the checks of a put's packet move the descriptor's entry only. -/
theorem State.putWork_frame {s : State} (calm : s.calm) (x : Sink) : { (s.putWork x).1 with dcache := s.dcache } = s := by
  unfold State.putWork
  dsimp only
  split
  · rfl
  · split
    · rfl
    · exact (State.resolve1_calm calm ..).1

theorem State.putWork_leaves {s : State} (calm : s.calm) (x : Sink) : (s.putWork x).1.door = s.door ∧ (s.putWork x).1.eng = s.eng ∧
    (s.putWork x).1.pwr = s.pwr ∧ (s.putWork x).1.lt = s.lt ∧ (s.putWork x).1.int = s.int := by
  have frame := State.putWork_frame calm x
  have door := congrArg State.door frame
  have eng := congrArg State.eng frame
  have pwr := congrArg State.pwr frame
  have lt := congrArg State.lt frame
  have int := congrArg State.int frame
  exact ⟨door, eng, pwr, lt, int⟩

theorem State.ctxSlot_congr {s y : State} (frame : y.frame = s.frame) (ctxid : BitVec 32) : y.ctxSlot ctxid = s.ctxSlot ctxid := by
  have planes (c : Nat) : y.plane c = s.plane c := by
    unfold State.plane
    rw [frame]
  unfold State.ctxSlot
  simp only [planes]

/-- What a put's packet has to do follows from the planes and the descriptor cache. -/
theorem State.putWork_congr {s y : State} (calm : s.calm) (quiet : y.calm) (frame : y.frame = s.frame) (dcache : y.dcache = s.dcache)
    (x : Sink) : (y.putWork x).2 = (s.putWork x).2 := by
  have slot := State.ctxSlot_congr frame x.pkt.ctxid
  have count (c : Nat) : y.descCount c = s.descCount c := by
    unfold State.descCount State.frameOf State.plane
    rw [frame]
  have find (c h : Nat) : y.dcFind c h = s.dcFind c h := by
    unfold State.dcFind
    rw [dcache]
  unfold State.putWork
  dsimp only
  rw [slot]
  split
  · rfl
  · split
    · rfl
    · dsimp only
      rw [(State.resolve1_calm quiet ..).2, (State.resolve1_calm calm ..).2, count, find]

namespace Buffers

variable {x : Sink} {s y : State} (h : Buffers x s y)

include h

theorem frame : y.frame = s.frame := by
  have same := congrArg State.frame h.rest
  exact same

theorem putWork (calm : s.calm) : (y.putWork x).2 = (s.putWork x).2 := by
  have dcache := congrArg State.dcache h.rest
  exact State.putWork_congr calm (h.calm calm) h.frame dcache x

theorem bankDark : y.bankDark = s.bankDark := by
  have lt := congrArg State.lt h.rest
  exact State.bankDark_congr h.pwr lt

/-- A packet of a put or a fetch for this core does what its checks say. -/
theorem tries (calm : s.calm) (on : s.clk.aclkOn = true) (rsp : x.pkt.cls ≠ clsRsp) (red : x.pkt.cls ≠ clsRed) :
    y.sinkTry x = (y.putWork x).1.sinkDo x (s.putWork x).2 := by
  rw [State.sinkTry_works (h.clk ▸ on) (State.tagBad_calm (h.calm calm) _), State.sinkWork, if_neg rsp, if_neg red, h.putWork calm]

theorem gone : (y.door.sinks.filter fun z => z.id ≠ x.id) = [] := by
  rw [h.sinks]
  simp

/-- A packet for a context that no plane holds is answered with an error, and its buffer is free. -/
theorem refused (calm : s.calm) (on : s.clk.aclkOn = true) (rsp : x.pkt.cls ≠ clsRsp) (red : x.pkt.cls ≠ clsRed)
    (up : (s.link x.link).state = .up) (nobody : s.ctxSlot x.pkt.ctxid = none) : Answered x 0 true [] y (y.sinkTry x) := by
  have work : s.putWork x = (s, .fail) := by
    unfold State.putWork
    dsimp only
    rw [nobody]
  have own : (y.putWork x).1 = y := by
    unfold State.putWork
    dsimp only
    rw [State.ctxSlot_congr h.frame, nobody]
  rw [h.tries calm on rsp red, work, own]
  refine Eq.subst (motive := Answered x 0 true [] y) (if_neg rsp).symm ?_
  exact State.sinkFail_answers ((h.state x.link).trans up)

end Buffers

/-- Packets that this core sinks. -/
theorem packetSinking : PacketSinking := by
  intro s l xf w calm on h empty p mine inSeq answered
  refine ⟨fun seq g e tag red put => rspAck_sinks calm on h empty mine seq tag red put, fun c hc seq => ?_⟩
  have rows : c.2 = asRow p c.2.cls 0 ∧ c.2.cls ≠ clsRsp ∧ c.2.cls ≠ clsRed ∧ ∀ s, exec c.1 s = .next (s.sunk l w xf c.2.cls 0) := by
    simp only [List.mem_cons, List.not_mem_nil, or_false] at hc
    rcases hc with rfl | rfl
    · exact ⟨rfl, nofun, nofun, fun _ => rfl⟩
    · exact ⟨rfl, nofun, nofun, fun _ => rfl⟩
  obtain ⟨row, rsp, red, run⟩ := rows
  obtain ⟨y, tries, buffers, spad, sill⟩ := State.sunk_buffered h empty mine 0 seq xf
  rw [← row] at tries buffers
  refine ⟨fun nobody => ?_, fun x d i n hx work space => ?_⟩
  · have fails := buffers.refused calm on rsp red h.up (by rw [State.freshSink, row]; exact nobody)
    obtain ⟨⟨z, mem, cls, kind, tag, dst, err, -⟩, eng, sinks⟩ := fails
    exact .of_eq (run s) tries ⟨⟨z, mem, cls, kind, tag.trans (by rw [State.freshSink, row]; rfl),
      dst.trans (by rw [State.freshSink, row]; rfl), err⟩, by rw [eng]; exact spad, by rw [eng]; exact sill, sinks.trans buffers.gone⟩
  · obtain rfl : x = s.freshSink l c.2 xf := hx
    rw [buffers.tries calm on rsp red, work] at tries
    obtain ⟨door, eng, pwr, lt, -⟩ := State.putWork_leaves (buffers.calm calm) (s.freshSink l c.2 xf)
    have dark := buffers.bankDark
    generalize (y.putWork (s.freshSink l c.2 xf)).1 = z at *
    have up : (z.link l).state = .up := by
      rw [State.link, door]
      exact (buffers.state l).trans h.up
    obtain ⟨⟨r, mem, cls, kind, tag, dst, err⟩, bytes, rest⟩ := State.sinkData_sinks (x := s.freshSink l c.2 xf) rsp red up space i n
    refine .of_eq (s' := z.sinkData (s.freshSink l c.2 xf) d i n none) (run s) tries ⟨⟨r, mem, cls, kind, tag.trans (by rw [State.freshSink, row]; rfl),
      dst.trans (by rw [State.freshSink, row]; rfl), err⟩, ?_, by rw [rest.trans (congrArg Engines.sill eng)]; exact sill⟩
    have pay : (s.freshSink l c.2 xf).pkt.payload = p.payload := by rw [State.freshSink, row]; rfl
    rw [bytes, pay]
    refine State.foldl_spadWrite_congr ((congrArg Engines.spad eng).trans spad) ?_ _
    rw [State.bankDark_congr pwr lt, dark, State.areaWrite_dark]

/-- Settles O45: packets that wait, the packets that this core sinks, and remote signals. -/
theorem packetsSunk : Obligations.PacketsSunk := ⟨packetWaits, packetSinking, remoteSignal⟩

end Sys2Proof.Machine
end

/-! PROOFS. Packets of fetches and of reductions (spec/13 R298, R311, R313, R314, R316, R318). -/
section
namespace Sys2Proof.Machine

/-! ### The data of a packet in the scratchpad -/

/-- Bytes of the scratchpad have been written, and entries have noted what they wrote. -/
structure Notes (s s' : State) : Prop where
  rest : { s' with
      eng := { s'.eng with spad := s.eng.spad, lanes := s.eng.lanes }
      int := { s'.int with shutCount := s.int.shutCount, shutBlock := s.int.shutBlock, shutPend := s.int.shutPend } } = s
  entries : ∀ u e, s.entry u = some e → ∃ e', s'.entry u = some e' ∧ e.Written e'

namespace Notes

theorem refl (s : State) : Notes s s := ⟨rfl, fun _ e h => ⟨e, h, .refl e⟩⟩

theorem trans {a b c : State} (h : Notes a b) (k : Notes b c) : Notes a c where
  rest := by
    have r := k.rest
    have q := h.rest
    rw [← q, ← r]
  entries := fun u e he => by
    obtain ⟨e1, h1, w1⟩ := h.entries u e he
    obtain ⟨e2, h2, w2⟩ := k.entries u e1 h1
    exact ⟨e2, h2, w1.trans w2⟩

theorem noteWrite (s : State) (u n : Nat) (w : BitWrite) : Notes s (s.noteWrite u n w) ∧ (s.noteWrite u n w).eng.spad = s.eng.spad := by
  have entries := (s.noteWrite_stores (k := 0) (as := fun _ => False) u n w).entries
  have noted : { s.noteWrite u n w with eng := { (s.noteWrite u n w).eng with lanes := s.eng.lanes } } = s := by
    unfold State.noteWrite
    split
    · rfl
    · split
      · split <;> rfl
      · rfl
  have spad := congrArg (fun z : State => z.eng.spad) noted
  dsimp only at spad
  generalize s.noteWrite u n w = z at *
  refine ⟨⟨?_, entries⟩, spad⟩
  rw [← noted]

theorem noteAll (s : State) (uid : Option Nat) (ws : List BitWrite) :
    Notes s (s.noteAll uid ws) ∧ (s.noteAll uid ws).eng.spad = s.eng.spad := by
  unfold State.noteAll
  split
  next u =>
    induction ws generalizing s with
    | nil => exact ⟨refl s, rfl⟩
    | cons w ws ih =>
      obtain ⟨first, spad⟩ := noteWrite s u 0 w
      obtain ⟨others, spad'⟩ := ih (s.noteWrite u 0 w)
      exact ⟨first.trans others, spad'.trans spad⟩
  · exact ⟨refl s, rfl⟩

theorem spadWrites (s : State) (ws : List BitWrite) : Notes s (ws.foldl State.spadWrite s) := by
  have rest := s.foldl_spadWrite_rest ws
  have lanes := congrArg (fun z : State => z.eng.lanes) rest
  dsimp only at lanes
  generalize ws.foldl State.spadWrite s = z at *
  refine ⟨?_, fun u e h => ⟨e, (State.entry_of_lanes lanes u).trans h, .refl e⟩⟩
  rw [← rest]

theorem door {s s' : State} (h : Notes s s') : s'.door = s.door := by
  have same := congrArg State.door h.rest
  exact same

theorem frame {s s' : State} (h : Notes s s') : s'.frame = s.frame := by
  have same := congrArg State.frame h.rest
  exact same

theorem sill {s s' : State} (h : Notes s s') : s'.eng.sill = s.eng.sill := by
  have same := congrArg (fun z : State => z.eng.sill) h.rest
  exact same

end Notes

/-- A packet's data for the scratchpad: the writes, before the packet's end. -/
theorem State.sinkWrite_notes (y : State) (x : Sink) {d : Desc} (space : d.space = 1) (uid : Option Nat) (ws : List BitWrite) :
    ∃ v, (y.noteAll uid ws).sinkWrite x d ws = v.sinkDone x ∧ Notes y v ∧
      ∀ held : State, y.eng.spad = held.eng.spad → y.bankDark = held.bankDark → v.eng.spad = (ws.foldl State.spadWrite held).eng.spad := by
  obtain ⟨notes, spad⟩ := Notes.noteAll y uid ws
  refine ⟨ws.foldl State.spadWrite (y.noteAll uid ws), by rw [State.sinkWrite, if_pos space], notes.trans (.spadWrites _ ws),
    fun held bytes dark => ?_⟩
  have rest := notes.rest
  have pwr := congrArg State.pwr rest
  have lt := congrArg State.lt rest
  exact State.foldl_spadWrite_congr (spad.trans bytes) ((State.bankDark_congr pwr lt).trans dark) ws

/-- The data of a packet for the scratchpad need no bytes of memory. -/
theorem State.sinkData_whole (y : State) {x : Sink} (sig : x.pkt.cls ≠ clsSig) {d : Desc} (space : d.space = 1) (i n : Nat)
    (uid : Option Nat) : y.sinkData x d i n uid =
      (y.noteAll uid (runWrites d i n x.pkt.payload)).sinkWrite x d (runWrites d i n x.pkt.payload) := by
  have whole : partialAddrs d (runTaken d i n) = [] := by
    unfold partialAddrs
    rw [space]
    rfl
  unfold State.sinkData State.sinkRead
  rw [if_neg sig, whole]
  rfl

/-! ### Fetches -/

theorem State.tagEntry_eq_some {s : State} {n : Nat} {g : DoorTag} {e : Entry} :
    s.tagEntry n = some (g, e) ↔ (s.door.tags.find? fun g => g.tag = n) = some g ∧ s.entry g.uid = some e := by
  unfold State.tagEntry
  split
  next none => simp [none]
  next t found =>
    rw [found, Option.map_eq_some_iff]
    constructor
    · rintro ⟨e1, entry, same⟩
      obtain ⟨rfl, rfl⟩ := Prod.mk.inj same
      exact ⟨rfl, entry⟩
    · rintro ⟨tag, entry⟩
      obtain rfl := Option.some.inj tag
      exact ⟨e, entry, rfl⟩

/-- Without fault or abort the end of a tag changes no byte. -/
theorem State.rspEnd_bytes {z : State} {x : Sink} {g : DoorTag} {e : Entry} (tag : z.tagEntry x.pkt.tag.toNat = some (g, e))
    (red : z.redOf e.uid = none) (fine : e.errStatus = 0) (whole : e.aborted = false) {status : Nat}
    (memory : status ≠ stMemoryFault) (move : status ≠ stTransomFault) :
    (z.rspEnd x status).eng.spad = z.eng.spad ∧ (z.rspEnd x status).eng.sill = z.eng.sill := by
  obtain ⟨k, shape, entry, -, eng⟩ := State.rspEnd_ends tag red status
  have answered : (e.answered status).aborted = false ∧ (e.answered status).errStatus = status := by
    unfold Entry.answered Entry.fail
    split
    next ok => exact ⟨whole, fine.trans ok.symm⟩
    · simp [whole]
  obtain ⟨ab, st⟩ := answered
  obtain ⟨⟨⟨spad, sill, -⟩, -⟩, -⟩ := State.entrySettle_clean entry ab (st.trans_ne memory) (st.trans_ne move)
  obtain ⟨gone, -⟩ := (k.entrySettle e.uid).sinkGone_fields x
  have same := congrArg Engines.spad eng
  have same' := congrArg Engines.sill eng
  rw [shape, gone]
  exact ⟨spad.trans same, sill.trans same'⟩

/-- A packet in its buffer takes no record of the response table (R300). -/
theorem Buffers.responses {x : Sink} {s y z : State} (h : Buffers x s y) (empty : s.door.sinks = []) (waits : x.begun = false)
    (door : z.door = y.door) : z.responses = s.responses := by
  have queued (m : Nat) : (z.link m).ready = (s.link m).ready ∧ (z.link m).sent = (s.link m).sent := by
    have links : z.link m = y.link m := by rw [State.link, door]; rfl
    have ready := congrArg Link.ready (h.link m)
    have sent := congrArg Link.sent (h.link m)
    rw [links]
    exact ⟨ready, sent⟩
  unfold State.responses
  rw [door, h.sinks, empty]
  simp [queued, waits]

/-- The elements that a fetch asks for are answered from the scratchpad (R298). -/
theorem State.rdDone_answers {z : State} {x : Sink} (calm : z.calm) (up : (z.link x.link).state = .up) {d : Desc} (space : d.space = 1)
    (n : Nat) : Answered x 1 false (runPayload z.eng.spad d (pktIndex x.pkt) n) z (z.rdDone x d n) := by
  have shut := (z.readShut_stores (k := 0) (as := fun _ => False) d (runCoords d (pktIndex x.pkt) n)).rest
  have alike := z.readShut_alike d (runCoords d (pktIndex x.pkt) n)
  have eng : (z.readShut d (runCoords d (pktIndex x.pkt) n)).eng = z.eng := by
    unfold State.readShut State.shutAccess
    split
    · split
      · rfl
      · split <;> rfl
    · split
      · split <;> rfl
      · rfl
    · rfl
  have door := congrArg State.door shut
  have strikes := congrArg (fun z : State => z.int.strikes) shut
  unfold State.rdDone
  dsimp only at door strikes ⊢
  rw [if_neg (not_not_intro space)]
  generalize z.readShut d (runCoords d (pktIndex x.pkt) n) = u at *
  rw [State.upsetAt_calm (strikes.trans calm), space]
  have links : u.link x.link = z.link x.link := by rw [State.link, door]; rfl
  obtain ⟨answer, eng', sinks⟩ := State.answer_gone (z := u) (links.symm ▸ up) 1 false (decide (1 = 1))
    (runPayload u.eng.spad d (pktIndex x.pkt) n)
  rw [eng] at answer eng' sinks
  show Answered x 1 false _ z ((u.answer x.link x.pkt 1 false (decide (1 = 1)) (runPayload u.eng.spad d (pktIndex x.pkt) n)).sinkGone x)
  rw [eng]
  exact ⟨answer, eng', sinks.trans (by rw [door])⟩

/-- A fetch of another core is answered with the bytes of the scratchpad (R298, R311). -/
theorem Buffers.reads {x : Sink} {s y : State} (h : Buffers x s y) (calm : s.calm) (on : s.clk.aclkOn = true) (empty : s.door.sinks = [])
    (rsp : x.pkt.cls ≠ clsRsp) (red : x.pkt.cls ≠ clsRed) (waits : x.begun = false) (up : (s.link x.link).state = .up) {d : Desc}
    {i n : Nat} (work : (s.putWork x).2 = .read d i n) (space : d.space = 1) (room : s.responses < 4096) :
    Answered x 1 false (runPayload y.eng.spad d (pktIndex x.pkt) n) y (y.sinkTry x) := by
  obtain ⟨door, eng, -, -, int⟩ := State.putWork_leaves (h.calm calm) x
  rw [h.tries calm on rsp red, work]
  generalize (y.putWork x).1 = z at *
  have quiet : z.calm := (congrArg Integrity.strikes int).trans (h.calm calm)
  have links : z.link x.link = y.link x.link := by rw [State.link, door]; rfl
  have shape : z.sinkDo x (.read d i n) = z.rdDone x d n := by
    unfold State.sinkDo State.sinkRead
    dsimp only
    rw [h.responses empty waits door, if_neg (by omega), if_neg (show ¬ d.space = 0 by omega)]
    exact if_pos rfl
  obtain ⟨answer, eng', sinks⟩ := State.rdDone_answers quiet (links ▸ (h.state x.link).trans up) space n
  rw [shape]
  exact ⟨by rw [eng] at answer; exact answer, eng'.trans eng, sinks.trans (by rw [door])⟩

/-- The data of this core's own fetch are written, and its tag ends (R298, R311). -/
theorem State.fetchDone_ends {v : State} {x : Sink} {g : DoorTag} {e : Entry} (tag : v.tagEntry x.pkt.tag.toNat = some (g, e))
    (red : v.redOf e.uid = none) (fine : e.errStatus = 0) (whole : e.aborted = false) :
    (∀ y ∈ (v.fetchDone x).door.tags, y.tag ≠ g.tag) ∧ (v.fetchDone x).door.sinks = (v.door.sinks.filter fun y => y.id ≠ x.id) ∧
      ((v.fetchDone x).eng.spad = v.eng.spad ∧ (v.fetchDone x).eng.sill = v.eng.sill) ∧
      ∃ e', (v.fetchDone x).entry e.uid = some e' ∧ e'.tagWait = e.tagWait - 1 ∧ e'.errStatus = 0 := by
  obtain ⟨h, shape⟩ : ∃ h, v.fetchDone x = (v.sinkJournal x e.ctx h g.index g.bytes 63).rspEnd x 0 := by
    unfold State.fetchDone
    rw [tag]
    exact ⟨_, rfl⟩
  have journal : Journals v (v.sinkJournal x e.ctx h g.index g.bytes 63) := .journalInput ..
  rw [shape]
  generalize v.sinkJournal x e.ctx h g.index g.bytes 63 = j at *
  have door := congrArg State.door journal.rest
  have eng := congrArg State.eng journal.rest
  dsimp only at door eng
  have lanes := congrArg Engines.lanes eng
  have tag' : j.tagEntry x.pkt.tag.toNat = some (g, e) := by
    rw [State.tagEntry_eq_some] at tag ⊢
    rw [door, State.entry_of_lanes lanes]
    exact tag
  have red' : j.redOf e.uid = none := by
    rw [State.redOf, door]
    exact red
  obtain ⟨tags, sinks, e', entry, wait, err⟩ := State.rspEnd_effects tag' red' 0
  obtain ⟨spad, sill⟩ := State.rspEnd_bytes (status := 0) tag' red' fine whole (by decide) (by decide)
  exact ⟨tags, sinks.trans (by rw [door]), ⟨spad.trans (congrArg Engines.spad eng), sill.trans (congrArg Engines.sill eng)⟩,
    e', entry, wait, err.trans fine⟩

theorem fetchPackets : FetchPackets := by
  intro s l w calm on h empty p mine inSeq held bytes
  refine ⟨fun seq => ?_, fun seq => ?_⟩
  · have run : exec (.rdRead l w) s = .next (s.sunk l w 0 clsRd 0) := rfl
    obtain ⟨y, tries, buffers, spad, sill⟩ := State.sunk_buffered h empty mine 0 seq 0
    refine ⟨fun nobody => ?_, fun x d n hx work space room => ?_⟩
    · obtain ⟨⟨z, mem, cls, kind, tag, dst, err, -⟩, eng, sinks⟩ := buffers.refused calm on nofun nofun h.up nobody
      exact .of_eq run tries
        ⟨⟨by rw [eng]; exact spad, by rw [eng]; exact sill, sinks.trans buffers.gone⟩, z, mem, cls, kind, tag, dst, err⟩
    · obtain rfl : x = s.freshSink l (asRow p clsRd 0) 0 := hx
      obtain ⟨⟨z, mem, cls, kind, tag, dst, err, pay⟩, eng, sinks⟩ :=
        buffers.reads calm on empty nofun nofun rfl h.up work space room
      exact .of_eq run tries ⟨⟨by rw [eng]; exact spad, by rw [eng]; exact sill, sinks.trans buffers.gone⟩,
        z, mem, cls, kind, tag, dst, err, by rw [pay, spad]; rfl⟩
  · intro g e loc route tag red job fetch fine whole freed
    have run : exec (.rspData l w) s = .next (s.sunk l w 0 clsRsp 1) := rfl
    obtain ⟨y, tries, buffers, spad, sill⟩ := State.sunk_buffered h empty mine 1 seq 0
    generalize hx : s.freshSink l (asRow (wirePacket w) clsRsp 1) 0 = x at *
    have pkt : x.pkt = asRow p clsRsp 1 := by rw [← hx]; rfl
    have rsp : x.pkt.cls = clsRsp := by rw [pkt]; rfl
    have tag' : y.tagEntry x.pkt.tag.toNat = some (g, e) := by rw [pkt, buffers.tagEntry]; exact tag
    have red' := (buffers.redOf e.uid).trans red
    have works : y.sinkTry x = y.sinkDo x (y.rspWork x.pkt) := by
      rw [State.sinkTry_works (buffers.clk ▸ on) (State.tagBad_calm (buffers.calm calm) _), State.sinkWork, if_pos rsp]
    rw [works] at tries
    refine ⟨fun n ok len count space => ?_, fun bad => ?_⟩
    · have work : y.rspWork x.pkt = .data loc.desc g.index n (some e.uid) := by
        unfold State.rspWork
        rw [tag']
        dsimp only
        rw [if_neg (by rw [pkt]; exact (ok.trans_ne nofun)), job]
        dsimp only
        rw [if_pos fetch, if_pos (by rw [pkt]; simp [asRow, len, p]), count]
      obtain ⟨v, shape, notes, bytes'⟩ := y.sinkWrite_notes x space (some e.uid) (runWrites loc.desc g.index n x.pkt.payload)
      have done : y.sinkDo x (.data loc.desc g.index n (some e.uid)) = v.fetchDone x := by
        refine (State.sinkData_whole y (by rw [rsp]; nofun) space g.index n (some e.uid)).trans (shape.trans ?_)
        exact if_pos rsp
      rw [work, done] at tries
      rw [State.tagEntry_eq_some] at tag'
      obtain ⟨e1, entry, written⟩ := notes.entries g.uid e tag'.2
      have kept : v.tagEntry x.pkt.tag.toNat = some (g, e1) := by
        rw [State.tagEntry_eq_some, notes.door]
        exact ⟨tag'.1, entry⟩
      have uid := congrArg Entry.uid written
      have wait := congrArg Entry.tagWait written
      have err := congrArg Entry.errStatus written
      have ab := congrArg Entry.aborted written
      dsimp only at uid wait err ab
      have red1 : v.redOf e1.uid = none := by
        rw [uid, State.redOf, notes.door]
        exact red'
      obtain ⟨tags, sinks, ⟨spad', sill'⟩, e2, entry2, wait2, err2⟩ := State.fetchDone_ends kept red1 (err.trans fine) (ab.trans whole)
      refine .of_eq run tries ⟨⟨tags, ?_⟩, ?_, sill'.trans (notes.sill.trans sill), e2, uid ▸ entry2, wait ▸ wait2, err2⟩
      · rw [sinks, notes.door]
        exact buffers.gone
      · rw [spad', bytes' _ spad (buffers.bankDark.trans (State.areaWrite_dark ..).symm), pkt]
        rfl
    · have work : y.rspWork x.pkt = .fail := by
        unfold State.rspWork
        rw [tag']
        exact if_pos (by rw [pkt]; exact bad)
      have done : y.sinkDo x .fail = y.rspEnd x stRemoteFault := if_pos rsp
      rw [work, done] at tries
      obtain ⟨tags, sinks, e1, entry, wait, err⟩ := State.rspEnd_effects tag' red' stRemoteFault
      obtain ⟨spad', -⟩ := State.rspEnd_bytes (status := stRemoteFault) tag' red' fine whole (by decide) (by decide)
      refine .of_eq run tries ⟨⟨tags, sinks.trans buffers.gone⟩, spad'.trans spad, e1, entry, wait, err.trans ?_⟩
      rw [Entry.answered, if_neg (by decide)]
      exact if_pos fine

/-! ### Reductions (R314, R316, R318) -/

/-- What the onward part of a reduction leaves: the bytes of the block, the buffers and the links' states. -/
structure Leaves (s s' : State) : Prop where
  spad : s'.eng.spad = s.eng.spad
  sill : s'.eng.sill = s.eng.sill
  sinks : s'.door.sinks = s.door.sinks
  state : ∀ m, (s'.link m).state = (s.link m).state

/-- And the entry `u` has no fault and no abort that it had not. -/
structure Sends (u : Nat) (s s' : State) : Prop extends Leaves s s' where
  entry : ∀ e, s.entry u = some e → ∃ e', s'.entry u = some e' ∧ e'.aborted = e.aborted ∧ e'.errStatus = e.errStatus

theorem Leaves.refl (s : State) : Leaves s s := ⟨rfl, rfl, rfl, fun _ => rfl⟩

theorem Leaves.trans {a b c : State} (h : Leaves a b) (k : Leaves b c) : Leaves a c :=
  ⟨k.spad.trans h.spad, k.sill.trans h.sill, k.sinks.trans h.sinks, fun m => (k.state m).trans (h.state m)⟩

namespace Sends

variable {u : Nat}

theorem refl (s : State) : Sends u s s := ⟨.refl s, fun e h => ⟨e, h, rfl, rfl⟩⟩

theorem trans {a b c : State} (h : Sends u a b) (k : Sends u b c) : Sends u a c where
  toLeaves := h.toLeaves.trans k.toLeaves
  entry e he := by
    obtain ⟨e1, h1, ab, st⟩ := h.entry e he
    obtain ⟨e2, h2, ab', st'⟩ := k.entry e1 h1
    exact ⟨e2, h2, ab'.trans ab, st'.trans st⟩

theorem ite {s a b : State} (c : Prop) [Decidable c] (ha : Sends u s a) (hb : Sends u s b) : Sends u s (if c then a else b) := by
  split
  · exact ha
  · exact hb

theorem of_journals {s s' : State} (h : Journals s s') : Sends u s s' := by
  have door := congrArg State.door h.rest
  have eng := congrArg State.eng h.rest
  dsimp only at door eng
  refine ⟨⟨by rw [eng], by rw [eng], by rw [door], fun m => by rw [State.link, door]; rfl⟩, fun e he => ⟨e, ?_, rfl, rfl⟩⟩
  exact (State.entry_of_lanes (by rw [eng]) u).trans he

theorem modRed (s : State) (v : Nat) (f : RedRun → RedRun) : Sends u s (s.modRed v f) :=
  ⟨⟨rfl, rfl, rfl, fun _ => rfl⟩, fun e h => ⟨e, h, rfl, rfl⟩⟩

theorem modEntry (s : State) {g : Entry → Entry} (uid : ∀ e, (g e).uid = e.uid) (ab : ∀ e, (g e).aborted = e.aborted)
    (st : ∀ e, (g e).errStatus = e.errStatus) : Sends u s (s.modEntry u g) :=
  ⟨⟨rfl, rfl, rfl, fun _ => rfl⟩, fun e h => ⟨g e, State.entry_modEntry_same h uid, ab e, st e⟩⟩

theorem txAdd (s : State) (l : Nat) (xs : List TxItem) : Sends u s (s.txAdd l xs) := by
  refine ⟨⟨rfl, rfl, rfl, fun m => ?_⟩, fun e h => ⟨e, h, rfl, rfl⟩⟩
  rw [State.link_txAdd]
  split
  next same => rw [same]
  · rfl

theorem sendOwn (s : State) (l : Nat) (held : Bool) (ps : List Packet) : Sends u s (s.sendOwn u l held ps) := by
  refine ite _ (refl s) (trans (modEntry s ?_ ?_ ?_) (txAdd _ l _)) <;> exact fun _ => rfl

theorem engineOpen (s : State) (q v : Nat) : Sends u s (s.engineOpen q v) :=
  ite _ ⟨⟨rfl, rfl, rfl, fun _ => rfl⟩, fun e h => ⟨e, h, rfl, rfl⟩⟩ (refl s)

end Sends

/-- Neither aborted nor failed, an entry whose work has been formed changes no byte. -/
theorem State.redFormed_leaves {s : State} {u : Nat} {e : Entry} (entry : s.entry u = some e) (whole : e.aborted = false)
    (fine : e.errStatus = 0) : Leaves s (s.redFormed u) := by
  have settles {z : State} (h : Sends u s z) : Leaves s (z.entrySettle u) := by
    obtain ⟨e1, entry1, ab, st⟩ := h.entry e entry
    obtain ⟨⟨⟨spad, sill, -⟩, -⟩, -⟩ := State.entrySettle_clean entry1 (ab.trans whole) ((st.trans fine).trans_ne (by decide))
      ((st.trans fine).trans_ne (by decide))
    obtain ⟨door, -⟩ := State.entrySettle_entry entry1
    exact h.toLeaves.trans ⟨spad, sill, by rw [door], fun m => by rw [State.link, door]; rfl⟩
  have formed : Sends u s (s.modEntry u fun e => { e with formed := true }) := by
    refine .modEntry s ?_ ?_ ?_ <;> exact fun _ => rfl
  unfold State.redFormed
  dsimp only
  split
  · exact settles (.ite _ formed (formed.trans (.engineOpen ..)))
  · exact settles formed

theorem State.redCheck_leaves {s : State} {u : Nat} {e : Entry} (entry : s.entry u = some e) (whole : e.aborted = false)
    (fine : e.errStatus = 0) (g : GroupRec) : Leaves s (s.redCheck g u) := by
  unfold State.redCheck
  split
  · exact .refl s
  · split
    · split
      · exact State.redFormed_leaves entry whole fine
      · let ended : State := { s with door := { s.door with reds := s.door.reds.filter fun r => r.uid ≠ u } }
        exact Leaves.trans (b := ended) ⟨rfl, rfl, rfl, fun _ => rfl⟩ (State.redFormed_leaves (s := ended) entry whole fine)
    · exact .refl s

theorem Sends.checked {u : Nat} {s z : State} (h : Sends u s z) {e : Entry} (entry : s.entry u = some e) (whole : e.aborted = false)
    (fine : e.errStatus = 0) (g : GroupRec) : Leaves s (z.redCheck g u) := by
  obtain ⟨e1, entry1, ab, st⟩ := h.entry e entry
  exact h.toLeaves.trans (State.redCheck_leaves entry1 (ab.trans whole) (st.trans fine) g)

/-- The onward part of a partial or final: what it sums or forwards changes no byte (R314, R316). -/
theorem State.redOnward_leaves {s : State} {r : RedRun} {e : Entry} (entry : s.entry r.uid = some e) (whole : e.aborted = false)
    (fine : e.errStatus = 0) (g : GroupRec) (p : Packet) (held : Bool) : Leaves s (s.redOnward r g p held) := by
  have final : Sends r.uid s (if (p.kind ≠ 0 || decide (chainStep g.size g.pos (redIndex p / shardSize r.elems g.size) + 1 = g.size)) ||
      g.scatter then s.modRed r.uid fun r' => { r' with
        finals := (List.range (redValues r g p).length).foldl (fun l k => insertNat (redIndex p + k) l) r'.finals } else s) :=
    .ite _ (.modRed ..) (.refl s)
  refine Sends.checked ?_ entry whole fine g
  exact final.trans (.ite _ (.sendOwn ..) (.ite _ (.refl _) (.sendOwn ..)))

/-- The onward part of an exact group (R318). -/
theorem State.exactSink_leaves {s : State} {r : RedRun} {e : Entry} (entry : s.entry r.uid = some e) (whole : e.aborted = false)
    (fine : e.errStatus = 0) (g : GroupRec) (p : Packet) : Leaves s (s.exactSink r g p) := by
  refine Sends.checked ?_ entry whole fine g
  exact (Sends.modRed s r.uid _).trans (.ite _ (.sendOwn ..) (.ite _ (.refl _) (.sendOwn ..)))

/-- A partial or final whose elements are written goes onward and is answered (R314, R316). -/
theorem State.redDone_answers {v : State} {x : Sink} {r : RedRun} {g : GroupRec} (match' : v.redMatch x.pkt = .sink r g) {e : Entry}
    (entry : v.entry r.uid = some e) (whole : e.aborted = false) (fine : e.errStatus = 0) (up : (v.link x.link).state = .up) :
    ∃ z, Leaves v z ∧ Answered x 0 false [] z (v.redDone x) := by
  obtain ⟨held, shape⟩ : ∃ held, v.redDone x =
      ((let s := v.sinkJournal x e.ctx r.group (redIndex x.pkt) (r.opno.toNat + (x.pkt.kind.toNat <<< 16)) 63
        if g.exact then s.exactSink r g x.pkt else s.redOnward r g x.pkt held).answer x.link x.pkt 0 false false []).sinkGone x := by
    unfold State.redDone
    rw [match']
    dsimp only
    rw [entry]
    exact ⟨_, rfl⟩
  have journal : Sends r.uid v (v.sinkJournal x e.ctx r.group (redIndex x.pkt) (r.opno.toNat + (x.pkt.kind.toNat <<< 16)) 63) :=
    .of_journals (.journalInput ..)
  rw [shape]
  generalize v.sinkJournal x e.ctx r.group (redIndex x.pkt) (r.opno.toNat + (x.pkt.kind.toNat <<< 16)) 63 = j at *
  obtain ⟨e1, entry1, ab, st⟩ := journal.entry e entry
  have onward : Leaves v (if g.exact then j.exactSink r g x.pkt else j.redOnward r g x.pkt held) := by
    split
    · exact journal.toLeaves.trans (State.exactSink_leaves entry1 (ab.trans whole) (st.trans fine) g _)
    · exact journal.toLeaves.trans (State.redOnward_leaves entry1 (ab.trans whole) (st.trans fine) g _ held)
  exact ⟨_, onward, State.answer_gone ((onward.state x.link).trans up) 0 false false []⟩

theorem State.redMatch_congr {s y : State} (frame : y.frame = s.frame) (reds : y.door.reds = s.door.reds)
    (opnos : y.door.opnos = s.door.opnos) (p : Packet) : y.redMatch p = s.redMatch p := by
  unfold State.redMatch State.groupOfGid
  rw [frame, reds, opnos]

theorem Buffers.redMatch {x : Sink} {s y : State} (h : Buffers x s y) (p : Packet) : y.redMatch p = s.redMatch p := by
  have reds := congrArg (fun z : State => z.door.reds) h.rest
  have opnos := congrArg (fun z : State => z.door.opnos) h.rest
  exact State.redMatch_congr h.frame reds opnos p

theorem reductionPackets : ReductionPackets := by
  intro s l w on h empty p mine seq c hc held answered
  have rows : ∃ kind, c.2 = asRow p clsRed kind ∧ c.2.cls = clsRed ∧ ∀ s, exec c.1 s = .next (s.sunk l w 0 clsRed kind) := by
    simp only [List.mem_cons, List.not_mem_nil, or_false] at hc
    rcases hc with rfl | rfl
    · exact ⟨0, rfl, rfl, fun _ => rfl⟩
    · exact ⟨1, rfl, rfl, fun _ => rfl⟩
  obtain ⟨kind, row, cls, run⟩ := rows
  obtain ⟨y, tries, buffers, spad, sill⟩ := State.sunk_buffered h empty mine kind seq 0
  rw [← row] at tries buffers
  have bound : (s.freshSink l c.2 0).pkt = c.2 ∧ (s.freshSink l c.2 0).link = l ∧ (s.freshSink l c.2 0).begun = false :=
    ⟨rfl, rfl, rfl⟩
  generalize s.freshSink l c.2 0 = x at *
  obtain ⟨pkt, link, begun⟩ := bound
  have red : x.pkt.cls = clsRed := pkt ▸ cls
  have rsp : x.pkt.cls ≠ clsRsp := by rw [red]; nofun
  have sound : y.tagBad x.pkt = none := by
    unfold State.tagBad State.endsTag
    rw [decide_eq_false rsp]
    rfl
  have works : y.sinkTry x = y.sinkDo x (y.redWork c.2) := by
    rw [State.sinkTry_works (buffers.clk ▸ on) sound, State.sinkWork, if_neg rsp, if_pos red, pkt]
  rw [works] at tries
  have up : (y.link x.link).state = .up := (buffers.state x.link).trans (link ▸ h.up)
  have answers {z : State} {err : Bool} (sinks : z.door.sinks = y.door.sinks) {s' : State} (a : Answered x 0 err [] z s') :
      answered err s' := by
    obtain ⟨⟨u, mem, cls', kind', tag, dst, err', -⟩, -, gone⟩ := a
    rw [link] at mem
    exact ⟨by rw [gone, sinks]; exact buffers.gone, u, mem, cls', kind', by rw [tag, pkt, row]; rfl, by rw [dst, pkt, row]; rfl, err'⟩
  refine ⟨fun wait => ?_, fun bad => ?_, fun r g a d grp e match' entry job fine whole shape space => ?_⟩
  · have work : y.redWork c.2 = .wait := by
      unfold State.redWork
      rw [buffers.redMatch, wait]
    have reds := congrArg (fun z : State => z.door.reds) buffers.rest
    have bytes := s.areaWrite_bytes l (s.areaSlot l clsRed.val) w
    rw [work] at tries
    refine .of_eq (s' := y) (run s) tries ⟨?_, reds, x, buffers.sinks, pkt, begun⟩
    have eng := congrArg State.eng bytes
    rw [buffers.eng, spad, ← show _ = s.eng from eng]
  · have work : y.redWork c.2 = .redBad [] := by
      unfold State.redWork
      rw [buffers.redMatch, bad]
    rw [work] at tries
    have fails : Answered x 0 true [] y (y.sinkDo x (.redBad [])) := State.sinkFail_answers up
    refine .of_eq (run s) tries ⟨?_, answers rfl fails⟩
    rw [fails.eng]
    exact spad
  · have work : y.redWork c.2 = .red r g d.desc := by
      have jobs : y.jobOf r.uid = some (.red a d grp) := by
        rw [State.jobOf, buffers.entry, entry, ← job]
      unfold State.redWork
      rw [buffers.redMatch, match']
      dsimp only
      rw [jobs]
      exact if_pos shape
    obtain ⟨v, written, notes, bytes⟩ := y.sinkWrite_notes x space (some r.uid) (redWrites r g d.desc x.pkt)
    obtain ⟨e1, entry1, same⟩ := notes.entries r.uid e ((buffers.entry r.uid).trans entry)
    have ab := congrArg Entry.aborted same
    have st := congrArg Entry.errStatus same
    dsimp only at ab st
    have links : v.link x.link = y.link x.link := by rw [State.link, notes.door]; rfl
    have matched : v.redMatch x.pkt = .sink r g := by
      rw [State.redMatch_congr notes.frame (by rw [notes.door]) (by rw [notes.door]), buffers.redMatch, pkt]
      exact match'
    obtain ⟨z, leaves, done⟩ := State.redDone_answers matched entry1 (ab.trans whole) (st.trans fine) (links ▸ up)
    have ends : y.sinkDo x (.red r g d.desc) = v.redDone x := by
      refine Eq.trans written ?_
      rw [State.sinkDone, if_neg rsp, if_pos red]
    rw [work, ends] at tries
    refine .of_eq (run s) tries ⟨answers (leaves.sinks.trans (by rw [notes.door])) done, ?_, ?_⟩
    · rw [done.eng, leaves.spad, bytes _ spad (buffers.bankDark.trans (State.areaWrite_dark ..).symm), pkt]
    · rw [done.eng, leaves.sill, notes.sill, sill]

/-- Settles O46: fetches and reductions. -/
theorem fetchesAndReductions : Obligations.FetchesAndReductions := ⟨fetchPackets, reductionPackets⟩

end Sys2Proof.Machine
end

/-! PROOFS. What no answer of memory changes of the memory port (spec/14 R325, R331, R332): a rule per operation that a delivery runs. -/
section
namespace Sys2Proof.Machine

/-- The outstanding requests of the memory port, the tags in quarantine and the record of its faults: all but the requests that wait,
the tags that near-memory operations keep, and the flags. -/
def Jamb.port (j : Jamb) : Jamb := { j with reqs := [], heldTags := [], aflags := 0 }

@[simp] theorem foldl_port {α : Type} {f : State → α → State} (step : ∀ s a, (f s a).jamb.port = s.jamb.port) (l : List α)
    (s : State) : (l.foldl f s).jamb.port = s.jamb.port := by
  induction l generalizing s with
  | nil => rfl
  | cons a as ih => exact (ih _).trans (step s a)

@[simp] theorem ite_port (c : Prop) [Decidable c] (a b : State) :
    (if c then a else b).jamb.port = if c then a.jamb.port else b.jamb.port := by
  split <;> rfl

/-! ### Exceptions, integrity and latches -/

@[simp] theorem State.modEntry_port (s : State) (uid : Nat) (g : Entry → Entry) : (s.modEntry uid g).jamb.port = s.jamb.port := rfl

@[simp] theorem State.modLink_port (s : State) (l : Nat) (g : Link → Link) : (s.modLink l g).jamb.port = s.jamb.port := rfl

@[simp] theorem State.setGoErr_port (s : State) (b : GoBit) (v : Bool) : (s.setGoErr b v).jamb.port = s.jamb.port := by
  cases b <;> rfl

@[simp] theorem State.goCleared_port (s : State) (b : GoBit) : (s.goCleared b).jamb.port = s.jamb.port := by simp [State.goCleared]

@[simp] theorem State.integrity_port (s : State) (i : EventInfo) : (s.integrity i).jamb.port = s.jamb.port := by
  have logs := congrArg State.jamb (OnlyLogs.of_integrity s i).rest
  exact congrArg Jamb.port logs

@[simp] theorem State.classS_port (s : State) (mech : Nat) (e : Entry) (status : Nat) (detail : BitVec 16) :
    (s.classS mech e status detail).jamb.port = s.jamb.port := by simp [State.classS]

@[simp] theorem State.alarmFlags_port (s : State) (f : Flags) (stream ctx queue : Nat) (iseq : BitVec 32) :
    (s.alarmFlags f stream ctx queue iseq).jamb.port = s.jamb.port := by simp [State.alarmFlags]

@[simp] theorem State.controlParity_port (s : State) (detail : BitVec 16) : (s.controlParity detail).jamb.port = s.jamb.port := by
  simp [State.controlParity]

@[simp] theorem State.trackerParity_port (s : State) (d : BitVec 16) : (s.trackerParity d).jamb.port = s.jamb.port := by
  simp [State.trackerParity]

@[simp] theorem State.parityCheck_port (s : State) (k : Site) : (s.parityCheck k).jamb.port = s.jamb.port := by
  unfold State.parityCheck
  split <;> simp

@[simp] theorem State.stopExc_port (s : State) (t : Thread) (cause status : Nat) (info : Word) (pc : BitVec 48) :
    (s.stopExc t cause status info pc).jamb.port = s.jamb.port := by simp [State.stopExc]

@[simp] theorem State.latchEvent_port (s : State) (bank k : Nat) (src : SigSrc) : (s.latchEvent bank k src).jamb.port = s.jamb.port := by
  unfold State.latchEvent
  split <;> simp

@[simp] theorem State.latchOverflow_port (s : State) (bank k : Nat) (src : SigSrc) :
    (s.latchOverflow bank k src).jamb.port = s.jamb.port := by
  unfold State.latchOverflow
  dsimp only
  split <;> simp

@[simp] theorem State.latchSignal_port (s : State) (bank k : Nat) (src : SigSrc) : (s.latchSignal bank k src).jamb.port = s.jamb.port := by
  simp [State.latchSignal]

/-! ### Requests, fetches and the descriptor cache -/

@[simp] theorem State.jambAdd_port (s : State) (rs : List JReq) : (s.jambAdd rs).jamb.port = s.jamb.port := rfl

@[simp] theorem State.fetchAsk_port (s : State) (t : Thread) (again : Bool) (line : Nat) :
    (s.fetchAsk t again line).jamb.port = s.jamb.port := by simp [State.fetchAsk]

@[simp] theorem State.fetchAt_port (s : State) (t : Thread) (line : Nat) : (s.fetchAt t line).jamb.port = s.jamb.port := by
  unfold State.fetchAt
  split
  · rfl
  · split
    · dsimp only
      split <;> simp
    · simp

@[simp] theorem State.fetchNext_port (s : State) (t : Thread) : (s.fetchNext t).jamb.port = s.jamb.port := by simp [State.fetchNext]

@[simp] theorem State.resume_port (s : State) (t : Thread) (n : Nat) : (s.resume t n).jamb.port = s.jamb.port := by simp [State.resume]

@[simp] theorem State.dcTouch_port (s : State) (ctx h : Nat) : (s.dcTouch ctx h).jamb.port = s.jamb.port := by
  unfold State.dcTouch
  split <;> rfl

@[simp] theorem State.dcWriteback_port (s : State) (e : DcEntry) : (s.dcWriteback e).jamb.port = s.jamb.port := rfl

@[simp] theorem State.dcInsert_port (s : State) (ctx h : Nat) (d : Desc) : (s.dcInsert ctx h d).jamb.port = s.jamb.port := by
  unfold State.dcInsert
  dsimp only
  split
  · rfl
  · split <;> simp

@[simp] theorem State.dcRead_port (s : State) (ctx h : Nat) : (s.dcRead ctx h).1.jamb.port = s.jamb.port := by
  unfold State.dcRead
  split
  · rfl
  · split <;> simp

@[simp] theorem State.fillAsk_port (s : State) (ctx h : Nat) : (s.fillAsk ctx h).jamb.port = s.jamb.port := by simp [State.fillAsk]

@[simp] theorem State.descFault_port (s : State) (ctx h status : Nat) : (s.descFault ctx h status).jamb.port = s.jamb.port := rfl

/-! ### Engines, journals and completion posts -/

@[simp] theorem State.ckptDone_port (s : State) (result : Nat) : (s.ckptDone result).jamb.port = s.jamb.port := by simp [State.ckptDone]

@[simp] theorem State.ckptSettle_port (s : State) : (s.ckptSettle).jamb.port = s.jamb.port := by simp [State.ckptSettle]

@[simp] theorem State.ckptWrote_port (s : State) (ok : Bool) : (s.ckptWrote ok).jamb.port = s.jamb.port := by simp [State.ckptWrote]

@[simp] theorem State.engineOpen_port (s : State) (q uid : Nat) : (s.engineOpen q uid).jamb.port = s.jamb.port := by simp [State.engineOpen]

@[simp] theorem State.unsend_port (s : State) (uid : Nat) : (s.unsend uid).jamb.port = s.jamb.port := by
  unfold State.unsend
  refine foldl_port (fun s l => ?_) _ _
  rw [State.modEntry_port, State.modLink_port]

@[simp] theorem State.journalPut_port (s : State) (ctx : Nat) (t : Thread) (bs : List Byte) :
    (s.journalPut ctx t bs).jamb.port = s.jamb.port := by
  unfold State.journalPut
  split <;> simp

@[simp] theorem State.journalLatch_port (s : State) (ctx n : Nat) : (s.journalLatch ctx n).jamb.port = s.jamb.port := by
  induction n generalizing s with
  | zero => rfl
  | succ n ih =>
    unfold State.journalLatch
    dsimp only
    split
    · rfl
    · rw [ih]
      simp

@[simp] theorem State.journalFlush_port (s : State) (ctx : Nat) : (s.journalFlush ctx).jamb.port = s.jamb.port := by
  simp [State.journalFlush]

@[simp] theorem State.journalStream_port (s : State) (ctx type : Nat) (t : Thread) (step : BitVec 32) (ws : List Word) :
    (s.journalStream ctx type t step ws).jamb.port = s.jamb.port := by simp [State.journalStream]

@[simp] theorem State.journalClose_port (s : State) (t : Thread) (p : Post) : (s.journalClose t p).jamb.port = s.jamb.port := by
  unfold State.journalClose
  split <;> simp

@[simp] theorem State.digestResolve_port (s : State) (t : Thread) (h : Nat) (d : Desc) :
    (s.digestResolve t h d).jamb.port = s.jamb.port := by simp [State.digestResolve]

@[simp] theorem State.journalInput_port (s : State) (ctx : Nat) (src cls : Nat) (ctxid : BitVec 32) (handle index b latch : Nat)
    (payload : List Byte) :
    (s.journalInput ctx src cls ctxid handle index b latch payload).jamb.port = s.jamb.port := by simp [State.journalInput]

@[simp] theorem State.modPost_port (s : State) (t : Thread) (seq : BitVec 32) (g : Post → Post) :
    (s.modPost t seq g).jamb.port = s.jamb.port := by simp [State.modPost]

@[simp] theorem State.postDone_port (s : State) (t : Thread) (p : Post) : (s.postDone t p).jamb.port = s.jamb.port := by
  simp [State.postDone]

@[simp] theorem State.postBegin_port (s : State) (t : Thread) (p : Post) : (s.postBegin t p).jamb.port = s.jamb.port := by
  unfold State.postBegin
  dsimp only
  split <;> simp

@[simp] theorem State.postsBegin_port (s : State) (t : Thread) : (s.postsBegin t).jamb.port = s.jamb.port := by simp [State.postsBegin]

@[simp] theorem State.postsEnd_port (s : State) (t : Thread) (n : Nat) : (s.postsEnd t n).jamb.port = s.jamb.port := by
  induction n generalizing s with
  | zero => rfl
  | succ n ih =>
    unfold State.postsEnd
    split
    · rfl
    · split <;> simp [ih]

@[simp] theorem State.postsGo_port (s : State) (t : Thread) : (s.postsGo t).jamb.port = s.jamb.port := by simp [State.postsGo]

@[simp] theorem State.postBodyAnswered_port (s : State) (t : Thread) (seq : BitVec 32) (ok : Bool) :
    (s.postBodyAnswered t seq ok).jamb.port = s.jamb.port := by
  unfold State.postBodyAnswered
  dsimp only
  have noted : (if ok then s else s.modPost t seq fun p => { p with memErr := true }).jamb.port = s.jamb.port := by simp
  generalize (if ok then s else s.modPost t seq fun p => { p with memErr := true }) = z at *
  split
  · exact noted
  · split
    · exact noted
    · split
      · simp [noted]
      · split <;> simp [noted]

@[simp] theorem State.postHeadAnswered_port (s : State) (t : Thread) (seq : BitVec 32) (ok : Bool) :
    (s.postHeadAnswered t seq ok).jamb.port = s.jamb.port := by simp [State.postHeadAnswered]

/-! ### Buffers, planes and power domains -/

@[simp] theorem State.freeBuffer_port (s : State) (l : Nat) (c : Nat) : (s.freeBuffer l c).jamb.port = s.jamb.port := rfl

@[simp] theorem State.freeSig_port (s : State) (l : Nat) : (s.freeSig l).jamb.port = s.jamb.port := by
  unfold State.freeSig
  dsimp only
  split <;> rfl

@[simp] theorem State.planeEmpty_port (s : State) (c : Nat) : (s.planeEmpty c).jamb.port = s.jamb.port := by simp [State.planeEmpty]

@[simp] theorem State.batchGo_port (s : State) : (s.batchGo).jamb.port = s.jamb.port := by
  unfold State.batchGo
  dsimp only
  split
  · rfl
  · split <;> simp

@[simp] theorem State.batchAdd_port (s : State) (ds : List Nat) : (s.batchAdd ds).jamb.port = s.jamb.port := by simp [State.batchAdd]

@[simp] theorem State.bandsOn_port (s : State) (lats : List Nat) : (s.bandsOn lats).jamb.port = s.jamb.port := by simp [State.bandsOn]

/-! ### Tensors and the issue of instructions -/

@[simp] theorem State.shutAccess_port (s : State) (block n : Nat) : (s.shutAccess block n).jamb.port = s.jamb.port := by
  simp [State.shutAccess]

@[simp] theorem State.spadWrite_port (s : State) (w : BitWrite) : (s.spadWrite w).jamb.port = s.jamb.port := by simp [State.spadWrite]

@[simp] theorem State.sillWrite_port (s : State) (w : BitWrite) : (s.sillWrite w).jamb.port = s.jamb.port := rfl

@[simp] theorem State.noteWrite_port (s : State) (uid n : Nat) (w : BitWrite) : (s.noteWrite uid n w).jamb.port = s.jamb.port := by
  unfold State.noteWrite
  split
  · rfl
  · split <;> simp

@[simp] theorem State.place_port (s : State) (uid : Nat) (d : Desc) (w : BitWrite) : (s.place uid d w).jamb.port = s.jamb.port := by
  unfold State.place
  split <;> simp

@[simp] theorem State.write1_port (s : State) (uid n : Nat) (d : Desc) (w : BitWrite) : (s.write1 uid n d w).jamb.port = s.jamb.port := by
  simp [State.write1]

@[simp] theorem State.writeAll_port (s : State) (uid n : Nat) (d : Desc) (ws : List BitWrite) :
    (s.writeAll uid n d ws).jamb.port = s.jamb.port := by simp [State.writeAll]

@[simp] theorem State.linesShut_port (s : State) (lines : List Nat) : (s.linesShut lines).jamb.port = s.jamb.port := by
  simp [State.linesShut]

@[simp] theorem State.readShut_port (s : State) (d : Desc) (xs : List Coord) : (s.readShut d xs).jamb.port = s.jamb.port := by
  unfold State.readShut
  split <;> simp

@[simp] theorem State.addSquares_port (s : State) (e : Entry) (sums : Option Nat) (vs : List Val) :
    (s.addSquares e sums vs).jamb.port = s.jamb.port := by
  unfold State.addSquares
  split <;> rfl

@[simp] theorem State.freeFootprint_port (s : State) (d : Desc) : (s.freeFootprint d).jamb.port = s.jamb.port := by
  unfold State.freeFootprint
  dsimp only
  split
  · rfl
  · split <;> rfl
  · rfl

@[simp] theorem State.laneAdd_port (s : State) (e : Entry) : (s.laneAdd e).jamb.port = s.jamb.port := by simp [State.laneAdd]

@[simp] theorem State.planEnter_port (s : State) (t : Thread) (p : Plan) : (s.planEnter t p).jamb.port = s.jamb.port := by
  unfold State.planEnter
  split <;> simp

@[simp] theorem State.accept_port (s : State) (t : Thread) (p : Plan) : (s.accept t p).jamb.port = s.jamb.port := by simp [State.accept]

@[simp] theorem State.enter_port (s : State) (t : Thread) (p : Plan) : (s.enter t p).jamb.port = s.jamb.port := by simp [State.enter]

@[simp] theorem State.refuse_port (s : State) (t : Thread) (rd : Reg) (status bytes : Nat) :
    (s.refuse t rd status bytes).jamb.port = s.jamb.port := by simp [State.refuse]

@[simp] theorem State.resolve1_port (s : State) (ctx v : Nat) (dest : Bool) : (s.resolve1 ctx v dest).1.jamb.port = s.jamb.port := by
  unfold State.resolve1
  split <;> simp

@[simp] theorem State.resolveAll_port (s : State) (t : Thread) (hs : HandleList) (got : List (Option Opnd)) (n : Nat) :
    (s.resolveAll t hs got n).1.jamb.port = s.jamb.port := by
  induction n generalizing s got with
  | zero => rfl
  | succ n ih =>
    unfold State.resolveAll
    split
    · rfl
    · exact ih ..
    · dsimp only
      split
      · rw [ih]
        simp
      · simp
      · simp

@[simp] theorem State.waitFill_port (s : State) (t : Thread) (i : Issue) (h : Nat) : (s.waitFill t i h).jamb.port = s.jamb.port := by
  simp [State.waitFill]

@[simp] theorem State.casRaise_port (s : State) (t : Thread) (ctx : Nat) (iseq : BitVec 32) (f : Flags) :
    (s.casRaise t ctx iseq f).jamb.port = s.jamb.port := by simp [State.casRaise]

@[simp] theorem State.issueChecked_port (s : State) (t : Thread) (i : Issue) : (s.issueChecked t i).jamb.port = s.jamb.port := by
  unfold State.issueChecked
  split
  · simp
  · split <;> simp

@[simp] theorem State.issueResolve_port (s : State) (t : Thread) (i : Issue) : (s.issueResolve t i).jamb.port = s.jamb.port := by
  unfold State.issueResolve
  dsimp only
  split <;> simp

@[simp] theorem State.recordArrived_port (s : State) (t : Thread) (i : Issue) (bs : Option (List Byte)) :
    (s.recordArrived t i bs).jamb.port = s.jamb.port := by
  unfold State.recordArrived
  split <;> simp

@[simp] theorem State.entryDone_port (s : State) (uid : Nat) : (s.entryDone uid).jamb.port = s.jamb.port := by
  unfold State.entryDone
  split <;> simp

@[simp] theorem State.sillFault_port (s : State) (line : Option Nat) (cause : Nat) : (s.sillFault line cause).jamb.port = s.jamb.port := rfl

/-! ### Transfers, spills and near-memory updates -/

@[simp] theorem State.emitOut_port (s : State) (uid : Nat) (held : Bool) : (s.emitOut uid held).jamb.port = s.jamb.port := by
  unfold State.emitOut
  split <;> rfl

@[simp] theorem State.entryEnd_port (s : State) (uid : Nat) : (s.entryEnd uid).jamb.port = s.jamb.port := by
  unfold State.entryEnd
  split <;> simp

@[simp] theorem State.entrySettle_port (s : State) (uid : Nat) : (s.entrySettle uid).jamb.port = s.jamb.port := by
  unfold State.entrySettle
  split <;> simp

@[simp] theorem State.scaleMoves_port (s : State) (uid : Nat) (d : Desc) (bs : SMap Nat) :
    (s.scaleMoves uid d bs).jamb.port = s.jamb.port := by simp [State.scaleMoves]

@[simp] theorem State.draw_port (s : State) : s.draw.2.jamb.port = s.jamb.port := rfl

@[simp] theorem State.moveFree_port (s : State) (uid : Nat) (d : Desc) : (s.moveFree uid d).jamb.port = s.jamb.port := by
  unfold State.moveFree
  dsimp only
  split <;> simp

@[simp] theorem State.move_port (s : State) (uid : Nat) (tr : Bool) (src dst : Desc) (dark : Bool) :
    (s.move uid tr src dst dark).jamb.port = s.jamb.port := by
  unfold State.move
  split <;> simp

@[simp] theorem State.transomEnd_port (s : State) (uid : Nat) : (s.transomEnd uid).jamb.port = s.jamb.port := by
  unfold State.transomEnd
  split <;> simp

@[simp] theorem State.jambRaise_port (s : State) (e : Entry) (f : Flags) : (s.jambRaise e f).jamb.port = s.jamb.port := by
  unfold State.jambRaise
  dsimp only
  split
  · rfl
  · rw [State.alarmFlags_port]
    rfl

@[simp] theorem State.copyMove_port (s : State) (uid : Nat) (a d : Opnd) : (s.copyMove uid a d).jamb.port = s.jamb.port := by
  simp [State.copyMove]

@[simp] theorem State.ssqAdd_port (s : State) (uid : Nat) (a : Opnd) (acc : Nat) : (s.ssqAdd uid a acc).jamb.port = s.jamb.port := by
  unfold State.ssqAdd
  split <;> simp

@[simp] theorem State.noteSums_port (s : State) (uid : Nat) (vs : List (Nat × BitVec 32)) :
    (s.noteSums uid vs).jamb.port = s.jamb.port := by simp [State.noteSums]

@[simp] theorem State.spillBlock_port (s : State) (e : Entry) (tag block : Nat) : (s.spillBlock e tag block).jamb.port = s.jamb.port := by
  unfold State.spillBlock
  dsimp only
  rw [State.jambRaise_port, State.jambAdd_port, State.noteSums_port]
  rfl

@[simp] theorem State.nearStore_port (s : State) (e : Entry) (op : CasOp) (o : Opnd) (rs : List NearAcc) :
    (s.nearStore e op o rs).jamb.port = s.jamb.port := by simp [State.nearStore]

@[simp] theorem State.nearRun_port (s : State) (uid : Nat) (u : CasUnit) : (s.nearRun uid u).jamb.port = s.jamb.port := by
  unfold State.nearRun
  split
  · simp only [State.entrySettle_port, State.modEntry_port]
    split
    · rfl
    · rw [State.emitOut_port, foldl_port, State.jambRaise_port]
      · rfl
      · intro s op
        split <;> simp
  · rfl

/-! ### Packets and reductions -/

@[simp] theorem State.sendOwn_port (s : State) (uid l : Nat) (held : Bool) (ps : List Packet) :
    (s.sendOwn uid l held ps).jamb.port = s.jamb.port := by
  unfold State.sendOwn
  split <;> rfl

@[simp] theorem State.answer_port (s : State) (l : Nat) (p : Packet) (kind : Nat) (err held : Bool) (payload : List Byte) :
    (s.answer l p kind err held payload).jamb.port = s.jamb.port := by
  unfold State.answer
  split <;> rfl

@[simp] theorem State.bufferFree_port (s : State) (l c : Nat) : (s.bufferFree l c).jamb.port = s.jamb.port := by simp [State.bufferFree]

@[simp] theorem State.redFormed_port (s : State) (uid : Nat) : (s.redFormed uid).jamb.port = s.jamb.port := by
  unfold State.redFormed
  dsimp only
  split <;> simp

@[simp] theorem State.redEnd_port (s : State) (uid : Nat) : (s.redEnd uid).jamb.port = s.jamb.port := by simp [State.redEnd]

@[simp] theorem State.redFail_port (s : State) (uid status : Nat) : (s.redFail uid status).jamb.port = s.jamb.port := by
  simp [State.redFail]

@[simp] theorem State.modRed_port (s : State) (uid : Nat) (f : RedRun → RedRun) : (s.modRed uid f).jamb.port = s.jamb.port := rfl

@[simp] theorem State.redSend_port (s : State) (g : GroupRec) (r : RedRun) (kind i : Nat) (vs : List Nat) (held : Bool) :
    (s.redSend g r kind i vs held).jamb.port = s.jamb.port := by simp [State.redSend]

@[simp] theorem State.exactSend_port (s : State) (g : GroupRec) (r : RedRun) (kind : Nat) :
    (s.exactSend g r kind).jamb.port = s.jamb.port := by simp [State.exactSend]

@[simp] theorem State.redCheck_port (s : State) (g : GroupRec) (uid : Nat) : (s.redCheck g uid).jamb.port = s.jamb.port := by
  unfold State.redCheck
  split <;> simp

@[simp] theorem State.egressRead_port (s : State) (e : Entry) (d : Desc) : (s.egressRead e d).jamb.port = s.jamb.port := by
  unfold State.egressRead
  dsimp only
  split
  · rfl
  · split <;> simp

@[simp] theorem State.redBegin_port (s : State) (uid : Nat) (src : Opnd) : (s.redBegin uid src).jamb.port = s.jamb.port := by
  unfold State.redBegin
  split
  · dsimp only
    split
    · simp
    · split <;> simp
  · rfl

@[simp] theorem State.redOnward_port (s : State) (r : RedRun) (g : GroupRec) (p : Packet) (held : Bool) :
    (s.redOnward r g p held).jamb.port = s.jamb.port := by simp [State.redOnward]

@[simp] theorem State.exactSink_port (s : State) (r : RedRun) (g : GroupRec) (p : Packet) :
    (s.exactSink r g p).jamb.port = s.jamb.port := by simp [State.exactSink]

/-! ### Packets that are sunk -/

@[simp] theorem State.putSend_port (s : State) (uid : Nat) (loc : Opnd) (route : Word) :
    (s.putSend uid loc route).jamb.port = s.jamb.port := by
  unfold State.putSend
  split <;> simp

@[simp] theorem State.tallyEnd_port (s : State) (x : Sink) : (s.tallyEnd x).jamb.port = s.jamb.port := rfl

@[simp] theorem State.tallyAdd_port (s : State) (x : Sink) : (s.tallyAdd x).jamb.port = s.jamb.port := by simp [State.tallyAdd]

@[simp] theorem State.pendingAdd_port (s : State) (x : Sink) (c : Nat) : (s.pendingAdd x c).jamb.port = s.jamb.port := rfl

@[simp] theorem State.modSink_port (s : State) (id : Nat) (f : Sink → Sink) : (s.modSink id f).jamb.port = s.jamb.port := rfl

@[simp] theorem State.sinkAdd_port (s : State) (l : Nat) (p : Packet) (xfer : Nat) (slot : Option Nat) :
    (s.sinkAdd l p xfer slot).jamb.port = s.jamb.port := rfl

@[simp] theorem State.sinkGone_port (s : State) (x : Sink) : (s.sinkGone x).jamb.port = s.jamb.port := by simp [State.sinkGone]

@[simp] theorem State.terminalDropped_port (s : State) (x : Sink) (stale : Bool) :
    (s.terminalDropped x stale).jamb.port = s.jamb.port := rfl

@[simp] theorem State.sinkFail_port (s : State) (x : Sink) : (s.sinkFail x).jamb.port = s.jamb.port := by simp [State.sinkFail]

@[simp] theorem State.sinkJournal_port (s : State) (x : Sink) (c handle index b latch : Nat) :
    (s.sinkJournal x c handle index b latch).jamb.port = s.jamb.port := by simp [State.sinkJournal]

@[simp] theorem State.putDone_port (s : State) (x : Sink) : (s.putDone x).jamb.port = s.jamb.port := by
  unfold State.putDone
  dsimp only
  split <;> simp

@[simp] theorem State.rspEnd_port (s : State) (x : Sink) (status : Nat) : (s.rspEnd x status).jamb.port = s.jamb.port := by
  unfold State.rspEnd
  split <;> simp

@[simp] theorem State.fetchDone_port (s : State) (x : Sink) : (s.fetchDone x).jamb.port = s.jamb.port := by
  unfold State.fetchDone
  split <;> simp

@[simp] theorem State.redDone_port (s : State) (x : Sink) : (s.redDone x).jamb.port = s.jamb.port := by
  unfold State.redDone
  split
  · simp only [State.sinkGone_port, State.answer_port, ite_port, State.exactSink_port, State.redOnward_port, ite_self]
    split
    · exact State.sinkJournal_port ..
    · rfl
  · simp

@[simp] theorem State.rdDone_port (s : State) (x : Sink) (d : Desc) (n : Nat) : (s.rdDone x d n).jamb.port = s.jamb.port := by
  unfold State.rdDone
  dsimp only
  split
  · simp
  · split <;> simp

@[simp] theorem State.sinkDone_port (s : State) (x : Sink) : (s.sinkDone x).jamb.port = s.jamb.port := by simp [State.sinkDone]

@[simp] theorem State.sinkWrite_port (s : State) (x : Sink) (d : Desc) (ws : List BitWrite) :
    (s.sinkWrite x d ws).jamb.port = s.jamb.port := by simp [State.sinkWrite]

theorem State.sinkRead_port (s : State) (x : Sink) (d : Desc) (i n : Nat) (as : List Nat) {g : State → State} (step : ∀ s,
    (g s).jamb.port = s.jamb.port) :
    (s.sinkRead x d i n as g).jamb.port = s.jamb.port := by
  unfold State.sinkRead
  split
  · exact step s
  · simp

@[simp] theorem State.putWork_port (s : State) (x : Sink) : (s.putWork x).1.jamb.port = s.jamb.port := by
  unfold State.putWork
  dsimp only
  split
  · rfl
  · split <;> simp

@[simp] theorem State.sinkWork_port (s : State) (x : Sink) : (s.sinkWork x).1.jamb.port = s.jamb.port := by
  unfold State.sinkWork
  split
  · rfl
  · split <;> simp

@[simp] theorem State.noteAll_port (s : State) (uid : Option Nat) (ws : List BitWrite) : (s.noteAll uid ws).jamb.port = s.jamb.port := by
  unfold State.noteAll
  split <;> simp

@[simp] theorem State.sinkData_port (s : State) (x : Sink) (d : Desc) (i n : Nat) (uid : Option Nat) :
    (s.sinkData x d i n uid).jamb.port = s.jamb.port := by
  unfold State.sinkData
  dsimp only
  refine (State.sinkRead_port _ x d i n _ fun s => ?_).trans ?_
  · simp
  split
  · split
    · split <;> simp
    · rfl
  · rfl

@[simp] theorem State.tagSwept_port (s : State) (x : Sink) (d : BitVec 16) : (s.tagSwept x d).jamb.port = s.jamb.port := by
  simp [State.tagSwept]

@[simp] theorem State.sinkDo_port (s : State) (x : Sink) (k : SinkWork) : (s.sinkDo x k).jamb.port = s.jamb.port := by
  unfold State.sinkDo
  split
  · rfl
  · split <;> simp
  · simp
  · simp
  · simp
  · simp
  · simp
  · simp
  · simp
  · split
    · rfl
    · exact State.sinkRead_port _ _ _ _ _ _ fun s => by simp

@[simp] theorem State.sinkTry_port (s : State) (x : Sink) : (s.sinkTry x).jamb.port = s.jamb.port := by
  unfold State.sinkTry
  split
  · simp
  · split <;> simp

@[simp] theorem State.sinkStep_port (s : State) (id : Nat) : (s.sinkStep id).jamb.port = s.jamb.port := by
  unfold State.sinkStep
  split <;> simp

@[simp] theorem State.sinksGo_port (s : State) : (s.sinksGo).jamb.port = s.jamb.port := by simp [State.sinksGo]

@[simp] theorem State.sinkMemFail_port (s : State) (x : Sink) : (s.sinkMemFail x).jamb.port = s.jamb.port := by
  unfold State.sinkMemFail
  split
  · simp
  · split
    · split <;> simp
    · simp

@[simp] theorem State.sinkGot_port (s : State) (x : Sink) : (s.sinkGot x).jamb.port = s.jamb.port := by
  unfold State.sinkGot
  split <;> simp

@[simp] theorem State.sinkAnswered_port (s : State) (id : Nat) (got : List Host.Cell) (ok : Bool) :
    (s.sinkAnswered id got ok).jamb.port = s.jamb.port := by
  unfold State.sinkAnswered
  dsimp only
  split <;> simp

@[simp] theorem State.sinksFilled_port (s : State) (c h : Nat) (ok : Bool) : (s.sinksFilled c h ok).jamb.port = s.jamb.port := by
  simp [State.sinksFilled]

/-! ### Replay, commits, staging and checkpoints -/

@[simp] theorem State.propFailed_port (s : State) (ctx h : Nat) : (s.propFailed ctx h).jamb.port = s.jamb.port := rfl

@[simp] theorem State.rplTag_port (s : State) (p : Packet) (e : Entry) : (s.rplTag p e).jamb.port = s.jamb.port := rfl

@[simp] theorem State.rplFill_port (s : State) (c : Nat) (r : JRec) : (s.rplFill c r).jamb.port = s.jamb.port := by simp [State.rplFill]

@[simp] theorem State.rplPost_port (s : State) (r : Replay) : (s.rplPost r).jamb.port = s.jamb.port := by simp [State.rplPost]

@[simp] theorem State.rplReport_port (s : State) : (s.rplReport).jamb.port = s.jamb.port := by
  unfold State.rplReport
  dsimp only
  split
  · simp
  · split <;> simp

@[simp] theorem State.rplDiffer_port (s : State) (t : Thread) (i : Nat) (iseq : BitVec 32) :
    (s.rplDiffer t i iseq).jamb.port = s.jamb.port := by simp [State.rplDiffer]

@[simp] theorem State.rplCompare_port (s : State) (c count : Nat) (w : Word) : (s.rplCompare c count w).jamb.port = s.jamb.port := by
  simp [State.rplCompare]

@[simp] theorem State.rplSkip_port (s : State) : (s.rplSkip).jamb.port = s.jamb.port := rfl

theorem State.rplLatch_port {s z : State} {c n : Nat} {w : Word} (h : s.rplLatch c n w = some z) : z.jamb.port = s.jamb.port := by
  unfold State.rplLatch at h
  dsimp only at h
  split at h
  · rw [← Option.some.inj h]
    split <;> simp
  · split at h
    · nomatch h
    · rw [← Option.some.inj h, State.rplCompare_port]

@[simp] theorem State.rplRun_port (s : State) (c : Nat) (items : List RItem) (n : Nat) : (s.rplRun c items n).jamb.port = s.jamb.port := by
  induction n generalizing s with
  | zero => rfl
  | succ n ih =>
    unfold State.rplRun
    split
    · rfl
    · split
      · rfl
      · split
        · simp
        · rw [ih]
          split <;> simp
      · split
        next h => rw [ih, State.rplLatch_port h]
        · rfl

@[simp] theorem State.rplSteps_port (s : State) (c : Nat) : (s.rplSteps c).jamb.port = s.jamb.port := by
  unfold State.rplSteps
  split
  · rfl
  · split
    · rfl
    · refine foldl_port (fun s t => ?_) _ _
      dsimp only
      split
      · split <;> simp
      · rfl

@[simp] theorem State.replayGo_port (s : State) : (s.replayGo).jamb.port = s.jamb.port := by
  unfold State.replayGo
  split
  · split <;> simp
  · rfl

@[simp] theorem State.rplChecked_port (s : State) : (s.rplChecked).jamb.port = s.jamb.port := by
  unfold State.rplChecked
  split
  · rfl
  · split <;> simp

@[simp] theorem State.replayGot_port (s : State) (base : Nat) (bs : List Host.Cell) (ok : Bool) :
    (s.replayGot base bs ok).jamb.port = s.jamb.port := by simp [State.replayGot]

@[simp] theorem State.commitLost_port (s : State) (ctx h : Nat) : (s.commitLost ctx h).jamb.port = s.jamb.port := rfl

@[simp] theorem State.stagingGot_port (s : State) (p base : Nat) (cs : List Host.Cell) (ok : Bool) :
    (s.stagingGot p base cs ok).jamb.port = s.jamb.port := by simp [State.stagingGot]

@[simp] theorem State.regionShut_port (s : State) (r : Region) : (s.regionShut r).jamb.port = s.jamb.port := by simp [State.regionShut]

@[simp] theorem State.ckptWrite_port (s : State) : (s.ckptWrite).jamb.port = s.jamb.port := by
  unfold State.ckptWrite
  dsimp only
  split <;> simp

@[simp] theorem State.ckptGo_port (s : State) : (s.ckptGo).jamb.port = s.jamb.port := by simp [State.ckptGo]

@[simp] theorem State.regionPut_port (s : State) (r : Region) (bs : List Byte) : (s.regionPut r bs).jamb.port = s.jamb.port := by
  simp [State.regionPut]

@[simp] theorem State.regionsPut_port (s : State) (m : Mem) (off : Nat) (rs : List Region) :
    (s.regionsPut m off rs).jamb.port = s.jamb.port := by
  induction rs generalizing s off with
  | nil => rfl
  | cons r rs ih =>
    unfold State.regionsPut
    rw [ih]
    simp

@[simp] theorem State.ckptTake_port (s : State) : (s.ckptTake).jamb.port = s.jamb.port := by
  unfold State.ckptTake
  dsimp only
  split
  · simp
  · split
    · simp
    · split <;> simp

@[simp] theorem State.ckptHead_port (s : State) : (s.ckptHead).jamb.port = s.jamb.port := by simp [State.ckptHead]

@[simp] theorem State.ckptGot_port (s : State) (cs : List Host.Cell) (ok : Bool) : (s.ckptGot cs ok).jamb.port = s.jamb.port := by
  simp [State.ckptGot]

/-! ### What each client does with its answer -/

@[simp] theorem State.fillDone_port (s : State) (c h : Nat) (d : Desc) : (s.fillDone c h d).jamb.port = s.jamb.port := by
  simp [State.fillDone]

@[simp] theorem State.fillFailed_port (s : State) (c h st : Nat) : (s.fillFailed c h st).jamb.port = s.jamb.port := by
  unfold State.fillFailed
  dsimp only
  rw [State.sinksFilled_port, State.propFailed_port, State.commitLost_port, foldl_port fun s w => by simp,
    foldl_port fun s _ => by simp]
  split <;> simp

@[simp] theorem State.fillArrived_port (s : State) (c h : Nat) (bs : List Byte) (ok : Bool) :
    (s.fillArrived c h bs ok).jamb.port = s.jamb.port := by
  unfold State.fillArrived
  split
  · simp
  · split
    · simp
    · split <;> simp

@[simp] theorem State.fetchArrived_port (s : State) (t : Thread) (again : Bool) (r : JReq) (bs : List Byte) (ok bad : Bool) :
    (s.fetchArrived t again r bs ok bad).jamb.port = s.jamb.port := by simp [State.fetchArrived]

@[simp] theorem State.mldArrived_port (s : State) (t : Thread) (a n : Nat) (cs : List Host.Cell) (ok : Bool) :
    (s.mldArrived t a n cs ok).jamb.port = s.jamb.port := by
  unfold State.mldArrived
  split <;> simp

@[simp] theorem State.mstAnswered_port (s : State) (t : Thread) (r : JReq) (pc : BitVec 48) (ok : Bool) :
    (s.mstAnswered t r pc ok).jamb.port = s.jamb.port := by simp [State.mstAnswered]

@[simp] theorem State.recordAnswered_port (s : State) (t : Thread) (n : Nat) (bs : List Byte) (ok : Bool) :
    (s.recordAnswered t n bs ok).jamb.port = s.jamb.port := by
  unfold State.recordAnswered
  split <;> simp

@[simp] theorem State.keptFree_port (s : State) (uid : Nat) : (s.keptFree uid).jamb.port = s.jamb.port := by
  unfold State.keptFree
  split <;> rfl

@[simp] theorem State.readsDone_port (s : State) (e : Entry) : (s.readsDone e).jamb.port = s.jamb.port := by
  unfold State.readsDone
  split <;> simp

@[simp] theorem State.keepTag_port (s : State) (e : Entry) (tag block : Nat) : (s.keepTag e tag block).jamb.port = s.jamb.port := by
  unfold State.keepTag
  split
  · split <;> rfl
  · rfl

@[simp] theorem State.spillGot_port (s : State) (e : Entry) (tag block : Nat) (ok : Bool) (fault : Option (BitVec 16)) :
    (s.spillGot e tag block ok fault).jamb.port = s.jamb.port := by
  unfold State.spillGot
  split
  · rfl
  · split <;> simp

@[simp] theorem State.entryRead_port (s : State) (uid tag : Nat) (r : JReq) (cs : List Host.Cell) (ok : Bool) (fault : Option (BitVec 16)) :
    (s.entryRead uid tag r cs ok fault).jamb.port = s.jamb.port := by
  unfold State.entryRead
  dsimp only
  split
  · simp
  · simp only [State.entrySettle_port, ite_port, State.readsDone_port, ite_self]
    split
    · split <;> simp
    · split <;> simp

@[simp] theorem State.entryWrote_port (s : State) (uid : Nat) (ok : Bool) : (s.entryWrote uid ok).jamb.port = s.jamb.port := by
  unfold State.entryWrote
  dsimp only
  split <;> simp

@[simp] theorem State.dcBusyEnd_port (s : State) : (s.dcBusyEnd).jamb.port = s.jamb.port := by
  unfold State.dcBusyEnd
  split <;> simp

@[simp] theorem State.flushEnd_port (s : State) (t : Thread) : (s.flushEnd t).jamb.port = s.jamb.port := by
  unfold State.flushEnd
  split <;> simp

@[simp] theorem State.wroteBack_port (s : State) (c h : Nat) (ok : Bool) : (s.wroteBack c h ok).jamb.port = s.jamb.port := by
  simp [State.wroteBack]

@[simp] theorem State.deliverRead_port (s : State) (tag : Nat) (r : JReq) (cs : List Host.Cell) (ok : Bool) (fault : Option (BitVec 16)) :
    (s.deliverRead tag r cs ok fault).jamb.port = s.jamb.port := by
  unfold State.deliverRead
  split <;> simp

@[simp] theorem State.deliverWrite_port (s : State) (r : JReq) (ok : Bool) : (s.deliverWrite r ok).jamb.port = s.jamb.port := by
  unfold State.deliverWrite
  split <;> simp

@[simp] theorem State.spillError_port (s : State) (r : JReq) : (s.spillError r).jamb.port = s.jamb.port := by
  unfold State.spillError
  split
  · split <;> rfl
  · rfl

end Sys2Proof.Machine
end

/-! PROOFS. The answers of memory, errors and timeouts (spec/14 R325, R331, R332; spec/09 R211). -/
section
namespace Sys2Proof.Machine

/-! ### Answers, errors and timeouts -/

/-- The delivery of an error leaves the tags and the record of the fault as the error has left them. -/
theorem State.deliverError_port (s : State) (tag : Nat) (r : JReq) (cause : Nat) :
    (s.deliverError tag r cause).jamb.port = (s.jambFault r cause).jamb.port := by
  unfold State.deliverError
  dsimp only
  rw [State.replayGo_port]
  split <;> simp

/-- An error of a request has been recorded in JAMB_FAULT (R332, R344). -/
def Faulted (r : JReq) (cause : BitVec 3) (s s' : State) : Prop :=
  s'.jamb.faultPend = true ∧ s'.jamb.faultCause = cause ∧ s'.jamb.faultAddr = BitVec.ofNat 48 (256 * r.block) ∧
    s'.jamb.faultClient = BitVec.ofNat 4 r.client.code ∧ s'.jamb.faultCount = satInc 8 s.jamb.faultCount

theorem State.deliverError_faults (z : State) (tag : Nat) (r : JReq) (cause : Nat) :
    Faulted r (BitVec.ofNat 3 cause) z (z.deliverError tag r cause) := by
  have port := (z.deliverError_port tag r cause).trans (congrArg Jamb.port (State.irqSet_jamb _ 9))
  have pend := congrArg Jamb.faultPend port
  have why := congrArg Jamb.faultCause port
  have address := congrArg Jamb.faultAddr port
  have client := congrArg Jamb.faultClient port
  have count := congrArg Jamb.faultCount port
  exact ⟨pend, why, address, client, count⟩

theorem State.deliverError_tags (z : State) (tag : Nat) (r : JReq) (cause : Nat) :
    (z.deliverError tag r cause).jamb.tags = z.jamb.tags ∧ (z.deliverError tag r cause).jamb.quarantine = z.jamb.quarantine := by
  have port := (z.deliverError_port tag r cause).trans (congrArg Jamb.port (State.irqSet_jamb _ 9))
  have tags := congrArg Jamb.tags port
  have quarantine := congrArg Jamb.quarantine port
  exact ⟨tags, quarantine⟩

/-- Where the tags are those of the tracker after the tag's end, the tag is free. -/
theorem State.tagOf_freed {s s' : State} {tag : Nat} (tags : s'.jamb.tags = (s.tagEnd tag).jamb.tags) : s'.tagOf tag = none := by
  unfold State.tagOf
  rw [tags, List.find?_eq_none]
  intro t ht
  have other := (List.mem_filter.mp ht).2
  simpa using other

theorem State.tag_of_tagOf {s : State} {n : Nat} {g : JTag} (h : s.tagOf n = some g) : g.tag = n := by
  simpa using List.find?_some h

theorem State.trackerCheck_calm {s : State} (calm : s.calm) : s.trackerCheck = none := by
  unfold State.trackerCheck
  rw [State.upsetAt_calm calm]

/-- What an answer to an outstanding request leaves, by its code: its tag is free, and an error is on record. -/
theorem State.answered {s good : State} {tag : Nat} (g : JTag) (code : BitVec 2) (port : good.jamb.port = (s.tagEnd tag).jamb.port) :
    let s' := if rspCause code ≠ 0 then (s.tagEnd tag).deliverError g.tag g.req (rspCause code) else good
    s'.tagOf tag = none ∧ (code = 2 → Faulted g.req 2 s s') ∧ (code = 1 ∨ code = 3 → Faulted g.req 1 s s') := by
  dsimp only
  refine ⟨?_, fun h => ?_, fun h => ?_⟩
  · split
    · exact State.tagOf_freed ((s.tagEnd tag).deliverError_tags ..).1
    · have tags := congrArg Jamb.tags port
      exact State.tagOf_freed tags
  · subst h
    exact (s.tagEnd tag).deliverError_faults g.tag g.req 2
  · have one : rspCause code = 1 := by rcases h with rfl | rfl <;> rfl
    rw [one, if_pos (by decide)]
    exact (s.tagEnd tag).deliverError_faults g.tag g.req 1

theorem jambResponses : JambResponses := by
  intro s tag data code calm stray fault live
  have on : s.jambLive = true ↔ live := by simp [State.jambLive, live]
  have sound (n : Nat) : (s.tagEnd n).trackerCheck = none := State.trackerCheck_calm (s := s.tagEnd n) calm
  refine ⟨fun off => ?_, fun h none' => ?_, fun h g found => ?_, fun g found => ?_⟩
  · have ignored : (!s.jambLive) = true := by
      rw [Bool.not_eq_true']
      exact Bool.eq_false_iff.mpr fun h => off (on.mp h)
    exact ⟨.of_eq rfl (if_pos ignored) rfl, .of_eq rfl (if_pos ignored) rfl⟩
  · have heard : ¬ (!s.jambLive) = true := by rw [on.mpr h]; nofun
    refine ⟨.of_eq (s' := s.strayRsp tag.toNat) rfl ((if_neg heard).trans (by rw [none'])) rfl,
      .of_eq (s' := s.strayRsp tag.toNat) rfl ((if_neg heard).trans (by rw [none'])) rfl⟩
  · have heard : ¬ (!s.jambLive) = true := by rw [on.mpr h]; nofun
    refine ⟨fun write => ?_, fun read => ?_, fun read => ?_, fun write => ?_⟩
    · refine .of_eq (s' := s.strayRsp tag.toNat) rfl ((if_neg heard).trans ?_) rfl
      rw [found]
      exact if_pos write
    · refine .of_eq (s' := s.strayRsp tag.toNat) rfl ((if_neg heard).trans ?_) rfl
      rw [found]
      exact if_pos (by rw [read]; rfl)
    · refine .of_eq rfl ((if_neg heard).trans ?_) (State.answered g code (good :=
        ((s.tagEnd tag.toNat).deliverRead g.tag g.req (g.req.gotCells data) true none).replayGo) (by simp))
      rw [found]
      dsimp only
      rw [if_neg (by rw [read]; nofun), if_neg (show ¬ Upset.clean = .corrected by nofun), sound]
      rfl
    · refine .of_eq rfl ((if_neg heard).trans ?_) (State.answered g code (good :=
        ((s.tagEnd tag.toNat).deliverWrite g.req true).replayGo) (by simp))
      rw [found]
      dsimp only
      rw [if_neg (by rw [write]; nofun), sound]
      rfl
  · have tagged := State.tag_of_tagOf found
    refine ⟨fun early => .of_eq (s' := s) rfl ?_ rfl, fun late => ?_⟩
    · rw [found]
      exact if_pos early
    · let z : State := { s.tagEnd g.tag with jamb := { (s.tagEnd g.tag).jamb with
        quarantine := (g.tag, g.req.pool) :: (s.tagEnd g.tag).jamb.quarantine } }
      obtain ⟨tags, quarantine⟩ := z.deliverError_tags g.tag g.req 3
      refine .of_eq (s' := z.deliverError g.tag g.req 3) rfl ?_ ⟨?_, ?_, z.deliverError_faults g.tag g.req 3⟩
      · rw [found]
        refine (if_neg (by omega)).trans ?_
        dsimp only
        rw [sound]
      · rw [← tagged]
        exact State.tagOf_freed tags
      · rw [quarantine, ← tagged]
        exact List.mem_cons_self

/-! ### The answer of an MLD (09 R211) -/

/-- The bytes of a list at positions from `o` on are those behind its first `o`. -/
theorem map_filter_zipIdx (o n : Nat) (l : List Byte) (le : o ≤ l.length) :
    ((l.zipIdx.filter fun p => decide (o ≤ p.2) && decide (p.2 < o + n)).map fun p => p.1) = (l.drop o).take n := by
  have split : l = l.take o ++ ((l.drop o).take n ++ (l.drop o).drop n) := by
    rw [List.take_append_drop, List.take_append_drop]
  have len : (l.take o).length = o := by rw [List.length_take]; omega
  have bound {xs : List Byte} {k : Nat} {p : Byte × Nat} (h : p ∈ xs.zipIdx k) : k ≤ p.2 ∧ p.2 < k + xs.length :=
    ⟨List.le_snd_of_mem_zipIdx h, List.snd_lt_add_of_mem_zipIdx h⟩
  have front : (((l.take o).zipIdx).filter fun p => decide (o ≤ p.2) && decide (p.2 < o + n)) = [] := by
    refine List.filter_eq_nil_iff.mpr fun p hp => ?_
    have := (bound hp).2
    simp
    omega
  have middle : ((((l.drop o).take n).zipIdx o).filter fun p => decide (o ≤ p.2) && decide (p.2 < o + n)) =
      ((l.drop o).take n).zipIdx o := by
    refine List.filter_eq_self.mpr fun p hp => ?_
    have := bound hp
    rw [List.length_take] at this
    simp
    omega
  have behind : ((((l.drop o).drop n).zipIdx (o + ((l.drop o).take n).length)).filter fun p =>
      decide (o ≤ p.2) && decide (p.2 < o + n)) = [] := by
    refine List.filter_eq_nil_iff.mpr fun p hp => ?_
    have := bound hp
    simp only [List.length_take, List.length_drop] at this
    simp
    omega
  conv_lhs => rw [split]
  rw [List.zipIdx_append, List.zipIdx_append, List.filter_append, List.filter_append, Nat.zero_add, len, front, middle, behind,
    List.nil_append, List.append_nil]
  exact List.zipIdx_map_fst o _

/-- The 8 bytes that an MLD reads of its sector (R211). -/
theorem JReq.gotCells_mld {r : JReq} {a : Nat} {data : List Byte} (align : a % 8 = 0) (block : r.block = a / 256)
    (sector : r.smask.getLsbD (a % 256 / 32) = true) (whole : data.length = 256) :
    (((r.gotCells data).filter fun c => decide (a ≤ c.1) && decide (c.1 < a + 8)).map fun c => c.2) =
      (data.drop (a % 256)).take 8 := by
  rw [← map_filter_zipIdx (a % 256) 8 data (by omega), JReq.gotCells, List.filter_map, List.map_map, List.filter_filter]
  congr 1
  refine List.filter_congr fun p _ => ?_
  have place : 256 * (a / 256) + a % 256 = a := Nat.div_add_mod a 256
  by_cases inside : a % 256 ≤ p.2 ∧ p.2 < a % 256 + 8
  · have same : p.2 / 32 = a % 256 / 32 := by omega
    have reads : a ≤ 256 * (a / 256) + p.2 ∧ 256 * (a / 256) + p.2 < a + 8 := by omega
    simp [block, same, sector, reads, inside]
  · simp only [Function.comp_apply, block]
    have outside : (decide (a ≤ 256 * (a / 256) + p.2) && decide (256 * (a / 256) + p.2 < a + 8)) = false := by
      simp
      omega
    have out : (decide (a % 256 ≤ p.2) && decide (p.2 < a % 256 + 8)) = false := by
      simp
      omega
    rw [outside, out]
    rfl

theorem State.setReg_th (s : State) (t : Thread) (rd : Reg) (v : Word) :
    { (s.setReg t rd v).th t with regs := (s.th t).regs } = s.th t ∧ ∀ u, u ≠ t → (s.setReg t rd v).th u = s.th u := by
  unfold State.setReg
  split
  · exact ⟨rfl, fun _ _ => rfl⟩
  · rw [State.th_modTh]
    exact ⟨rfl, fun u hu => by simp [State.th_modTh_ne, hu]⟩

/-- A thread that resumes keeps its registers, and the replay stands as it was. -/
theorem State.resume_keeps_regs (s : State) (t : Thread) (n : Nat) :
    ((s.resume t n).th t).regs = (s.th t).regs ∧ (s.resume t n).rpl = s.rpl := by
  have fetch (z : State) : (z.fetchNext t).rpl = z.rpl := by
    have rest := congrArg State.rpl (z.fetchNext_fetched t).rest
    exact rest
  have woken (z : State) : ((z.wakeUp t).th t).regs = (z.th t).regs ∧ (z.wakeUp t).rpl = z.rpl := by
    unfold State.wakeUp State.stopped
    split
    · rw [State.th_modTh, State.modTh_rpl]
      exact ⟨rfl, rfl⟩
    · rw [State.th_modTh, State.modTh_rpl]
      exact ⟨rfl, rfl⟩
  unfold State.resume
  dsimp only
  rw [State.fetchNext_regs, fetch, (woken _).1, (woken _).2, State.th_modTh, State.modTh_rpl]
  exact ⟨rfl, rfl⟩

/-- The answer of an MLD that is not an error goes to its client. -/
theorem exec_mldAnswer {s : State} {tag : BitVec 16} {data : List Byte} {g : JTag} {t : Thread} {a n : Nat} (calm : s.calm)
    (live : s.jambLive = true) (found : s.tagOf tag.toNat = some g) (read : g.req.write = false) (owner : g.req.owner = .mld t a n)
    (idle : s.rpl.active = false) : exec (.jbRResponse tag data 0 .clean) s =
      .next ((s.tagEnd tag.toNat).mldArrived t a n (g.req.gotCells data) true) := by
  have silent : (s.tagEnd tag.toNat).trackerCheck = none := State.trackerCheck_calm (s := s.tagEnd tag.toNat) calm
  have arrives : ((s.tagEnd tag.toNat).deliverRead g.tag g.req (g.req.gotCells data) true none) =
      (s.tagEnd tag.toNat).mldArrived t a n (g.req.gotCells data) true := by
    unfold State.deliverRead
    rw [owner]
  have still : ((s.tagEnd tag.toNat).mldArrived t a n (g.req.gotCells data) true).rpl.active = false := by
    refine Eq.trans (congrArg Replay.active ?_) idle
    unfold State.mldArrived
    split
    · split
      · rfl
      · rw [if_pos rfl, (State.resume_keeps_regs _ t 4).2, State.setReg_rpl]
        rfl
    · rfl
  refine congrArg Host.Outcome.next ((if_neg (by rw [live]; nofun)).trans ?_)
  rw [found]
  dsimp only
  rw [if_neg (by rw [read]; nofun), if_neg (show ¬ Upset.clean = .corrected by nofun), silent]
  refine Eq.trans ?_ (State.replayGo_idle still)
  rw [← arrives]
  rfl

/-- The error of an MLD stops its thread (R211). -/
theorem State.stopExc_stops {y : State} {t : Thread} (once : doubleFault y t = false) (room : y.sash.excq.length < 16) (info : Word) :
    let s' := y.stopExc t 0x06 0 info (y.th t).pc
    (s'.th t).state = .stopped ∧ (s'.th t).regs = (y.th t).regs ∧ (s'.th t).pc = (y.th t).pc ∧
      Enters (fun x => x.w0.toNat % 256 = 0x06 ∧ x.w2 = info) y s' ∧ s'.rpl = y.rpl := by
  have eq : y.stopExc t 0x06 0 info (y.th t).pc = (y.stopped t).excPush (excOf y t 0x06 (y.th t).pc info) := by
    rw [State.stopExc, if_neg]
    · rfl
    · simpa [doubleFault] using once
  obtain ⟨⟨a, b, enters, push, _⟩, _, rest⟩ := Records.of_excPush (y.stopped t) (excOf y t 0x06 (y.th t).pc info)
  have rpl := congrArg State.rpl rest
  dsimp only
  rw [eq]
  rw [State.stopped_sash] at push
  refine ⟨by simp [State.stopped], by simp [State.stopped], by simp [State.stopped],
    ⟨a, _, b, ⟨?_, ?_, enters.order⟩, congrArg Sash.excq (push room).1, excRecord_cause .., rfl⟩, rpl.trans (State.modTh_rpl ..)⟩
  · have := enters.split
    rwa [State.stopped_sash] at this
  · have := enters.cycle
    rwa [State.stopped_time] at this

theorem mldAnswer : MldAnswer := by
  intro s tag data g t a n rd calm live found read owner align block sector whole idle
  let z := s.tagEnd tag.toNat
  have th (u : Thread) : z.th u = s.th u := by cases u <;> rfl
  have run := exec_mldAnswer (data := data) calm live found read owner idle
  refine ⟨fun wait => ?_, fun wait once room => ?_, fun m other wait => ?_⟩
  · have reads : z.mldArrived t a n (g.req.gotCells data) true =
        (z.setReg t rd (w64 (leNat ((data.drop (a % 256)).take 8)))).resume t 4 := by
      unfold State.mldArrived
      rw [th, wait]
      dsimp only
      rw [if_neg (by simp), if_pos rfl, JReq.gotCells_mld align block sector whole]
    refine .of_eq run reads ⟨fun k => ?_, ?_⟩
    · rw [State.reg_congr (State.resume_keeps_regs _ t 4).1, State.reg_setReg, State.reg_congr (congrArg ThreadState.regs (th t))]
    · obtain ⟨own, others⟩ := z.setReg_th t rd (w64 (leNat ((data.drop (a % 256)).take 8)))
      have resumes := (z.setReg t rd (w64 (leNat ((data.drop (a % 256)).take 8)))).resume_resumes t
      generalize z.setReg t rd (w64 (leNat ((data.drop (a % 256)).take 8))) = y at *
      rw [th t] at own
      have pc := congrArg ThreadState.pc own
      have asked := congrArg ThreadState.stopAsked own
      dsimp only at pc asked
      exact ⟨by rw [resumes.pcNow, pc], by rw [← asked]; exact resumes.state,
        fun u hu => (resumes.threads u hu).trans ((others u hu).trans (th u))⟩
  · let y := z.jambFault g.req 2
    have thy (u : Thread) : y.th u = s.th u := by cases u <;> rfl
    have sash : y.sash = s.sash := State.irqSet_sash ..
    have time : y.time = s.time := State.irqSet_time ..
    have rpl : y.rpl = s.rpl := State.irqSet_rpl ..
    have double : doubleFault y t = false := by rw [doubleFault, sash]; exact once
    obtain ⟨state, regs, pc, enters, rpl'⟩ := State.stopExc_stops double (sash ▸ room) (w64 a)
    have faulted : z.deliverError g.tag g.req 2 = y.stopExc t 0x06 0 (w64 a) (y.th t).pc := by
      refine Eq.trans ?_ (State.replayGo_idle (by rw [rpl', rpl]; exact idle))
      have spill : y.spillError g.req = y := by
        unfold State.spillError
        rw [owner]
      have delivers : y.deliverRead g.tag g.req [] false none = y.stopExc t 0x06 0 (w64 a) (y.th t).pc := by
        unfold State.deliverRead
        rw [owner]
        dsimp only
        unfold State.mldArrived
        rw [thy, wait]
        exact (if_neg (by simp)).trans (if_neg nofun)
      unfold State.deliverError
      rw [show z.jambFault g.req 2 = y from rfl, spill]
      dsimp only
      rw [if_neg (by rw [read]; nofun), delivers]
    refine .of_eq rfl ((if_neg (by rw [live]; nofun)).trans ?_) ⟨state, by rw [regs, thy], by rw [pc, thy], ?_⟩
    · rw [found]
      dsimp only
      rw [if_neg (by rw [read]; nofun), if_neg (show ¬ Upset.clean = .corrected by nofun),
        State.trackerCheck_calm (s := s.tagEnd tag.toNat) calm]
      exact faulted
    · obtain ⟨p, x, q, at', queue, holds⟩ := enters
      exact ⟨p, x, q, ⟨by rw [← sash]; exact at'.split, by rw [← time]; exact at'.cycle, at'.order⟩, queue, holds⟩
  · have kept : z.mldArrived t a n (g.req.gotCells data) true = z := by
      unfold State.mldArrived
      rw [th, wait]
      exact if_pos other
    exact .of_eq run kept (th t)

/-- Settles O42: the answers of memory, errors and timeouts. -/
theorem jambAnswers : Obligations.JambAnswers := ⟨jambResponses, mldAnswer⟩

end Sys2Proof.Machine
end
